-- ==== Sys2Proof/Syntax.lean ====
section
/-! DEFINITION. The instruction set: one constructor of `Instr` for each row of the opcode table (spec/opcode_table.json).
The rows with an encoding carry the fields of R51 to R68 and R360 as natural numbers, in the table's own names; the rows
without one are the steps that hardware takes by itself: what each acts on, named as its operands here, stands in
the state (`State.ev`). -/

namespace Sys2Proof

/-- Format A with two sources: `q` is bq, `b` the second source, `a` the first, `d` the destination, `g` the guard (R53). -/
structure OpA where
  q : Nat
  b : Nat
  a : Nat
  d : Nat
  g : Nat
  deriving DecidableEq, Repr

/-- Format A with one source `a`, destination `d` and guard `g` (R58). -/
structure OpU where
  a : Nat
  d : Nat
  g : Nat
  deriving DecidableEq, Repr

/-- Format I: immediate field `i` as bits, source `a`, destination `d`, guard `g` (R53, R59). -/
structure OpI where
  i : Nat
  a : Nat
  d : Nat
  g : Nat
  deriving DecidableEq, Repr

/-- Format I with a shift count `s` (R59). -/
structure OpSh where
  s : Nat
  a : Nat
  d : Nat
  g : Nat
  deriving DecidableEq, Repr

/-- `MOVI`: the 13 immediate bits `i`, destination `d`, guard `g` (R59). -/
structure OpMovi where
  i : Nat
  d : Nat
  g : Nat
  deriving DecidableEq, Repr

/-- A compare: `p` is pd and `c` the condition (R60). -/
structure OpCmp where
  q : Nat
  b : Nat
  a : Nat
  p : Nat
  c : Nat
  g : Nat
  deriving DecidableEq, Repr

/-- Predicates `d := a op b` under guard `g` (R60). -/
structure OpP where
  b : Nat
  a : Nat
  d : Nat
  g : Nat
  deriving DecidableEq, Repr

/-- `PNOT`: predicate `d` from `a` under guard `g` (R60). -/
structure OpPn where
  a : Nat
  d : Nat
  g : Nat
  deriving DecidableEq, Repr

/-- `CVT`, `CVTB`: `s` is the saturation bit and `t` the target tag (R61). -/
structure OpCvt where
  s : Nat
  t : Nat
  a : Nat
  d : Nat
  g : Nat
  deriving DecidableEq, Repr

/-- `VOTE.any`, `VOTE.all`: source predicate `s`, destination predicate `p` (R61). -/
structure OpVoteP where
  s : Nat
  p : Nat
  g : Nat
  deriving DecidableEq, Repr

/-- `VOTE.ballot`: source predicate `s`, destination register `d` (R61). -/
structure OpVoteB where
  s : Nat
  d : Nat
  g : Nat
  deriving DecidableEq, Repr

/-- `RED`, `SCAN`: combine `k`, source `a`, destination `d` (R61). -/
structure OpRed where
  k : Nat
  a : Nat
  d : Nat
  g : Nat
  deriving DecidableEq, Repr

/-- Three registers `b`, `a`, `d` and no guard (R62, R68). -/
structure OpT where
  b : Nat
  a : Nat
  d : Nat
  deriving DecidableEq, Repr

/-- `MOVX`: register class `c`, special register index `x`, register `d` (R63). -/
structure OpMovx where
  c : Nat
  x : Nat
  d : Nat
  g : Nat
  deriving DecidableEq, Repr

/-- `MOVS`: register class `c`, special register index `x`, register `d` (R63). -/
structure OpMovs where
  c : Nat
  x : Nat
  d : Nat
  deriving DecidableEq, Repr

/-- A format M load: offset or base `o`, reuse `r`, qualifier `u`, address operand `a`, data `d` (R66). -/
structure OpLd where
  o : Nat
  r : Nat
  u : Nat
  a : Nat
  d : Nat
  g : Nat
  deriving DecidableEq, Repr

/-- A narrow load: as `OpLd`, the pair named by `a` without its low bit (R66). -/
structure OpLdn where
  o : Nat
  r : Nat
  u : Nat
  a : Nat
  d : Nat
  g : Nat
  deriving DecidableEq, Repr

/-- A constant-path load: offset `o`, reuse `r`, base `b`, data `d` (R66). -/
structure OpLdk where
  o : Nat
  r : Nat
  b : Nat
  d : Nat
  g : Nat
  deriving DecidableEq, Repr

/-- `QLD`: offset `o`, reuse `r`, base `b`, destination `d` (R66). -/
structure OpQld where
  o : Nat
  r : Nat
  b : Nat
  d : Nat
  deriving DecidableEq, Repr

/-- `ST`: offset or base `o`, reuse `r`, size `z`, address operand `a`, data `s` (R66). -/
structure OpSt where
  o : Nat
  r : Nat
  z : Nat
  a : Nat
  s : Nat
  g : Nat
  deriving DecidableEq, Repr

/-- `QST`: offset `o`, reuse `r`, base `a`, source `s` (R66). -/
structure OpQst where
  o : Nat
  r : Nat
  a : Nat
  s : Nat
  deriving DecidableEq, Repr

/-- Format X: operation `o`, scope `s`, type `t`, address pair `a`, data `d` (R67). -/
structure OpAtom where
  o : Nat
  s : Nat
  t : Nat
  a : Nat
  d : Nat
  g : Nat
  deriving DecidableEq, Repr

/-- `CAS`: scope `s`, type `t`, address pair `a`, comparand `d` (R67). -/
structure OpCas where
  s : Nat
  t : Nat
  a : Nat
  d : Nat
  g : Nat
  deriving DecidableEq, Repr

/-- `FENCE`: scope `s`, predecessor set `p`, successor set `c` (R65). -/
structure OpFence where
  s : Nat
  p : Nat
  c : Nat
  deriving DecidableEq, Repr

/-- `MWAIT`: width `w`, condition `c`, status predicate `p`, address register `a`, value register `v` (R65). -/
structure OpMwait where
  w : Nat
  c : Nat
  p : Nat
  a : Nat
  v : Nat
  deriving DecidableEq, Repr

/-- `SIGD`: scope `s`, address register `a`, decrement register `v` (R65). -/
structure OpSigd where
  s : Nat
  a : Nat
  v : Nat
  deriving DecidableEq, Repr

/-- `SEND`: channel `c`, registers less one `n`, source `a` (R65). -/
structure OpSend where
  c : Nat
  n : Nat
  a : Nat
  deriving DecidableEq, Repr

/-- `RECV`: channel `c`, registers less one `n`, destination `d` (R65). -/
structure OpRecv where
  c : Nat
  n : Nat
  d : Nat
  deriving DecidableEq, Repr

/-- `TGET`, `TSET`: index register `b`, first operand `a`, destination `d`, column bit `c` (R68). -/
structure OpTget where
  b : Nat
  a : Nat
  d : Nat
  c : Nat
  deriving DecidableEq, Repr

/-- `TCVT`: target tag `t`, source handle `a`, destination handle `d`, saturation `s`, rounding `r` (R68). -/
structure OpTcvt where
  t : Nat
  a : Nat
  d : Nat
  s : Nat
  r : Nat
  deriving DecidableEq, Repr

/-- `ACRD`: descriptor register `b`, grant register `a`, destination `d`, to-lanes bit `l`, rounding `r` (R68). -/
structure OpAcrd where
  b : Nat
  a : Nat
  d : Nat
  l : Nat
  r : Nat
  deriving DecidableEq, Repr

/-- Uliah register, register and immediate (R360). -/
structure OpUi where
  d : Nat
  a : Nat
  i : Nat
  deriving DecidableEq, Repr

/-- Uliah three registers (R360). -/
structure OpUr where
  d : Nat
  a : Nat
  b : Nat
  deriving DecidableEq, Repr

/-- `UST` (R361). -/
structure OpUst where
  a : Nat
  b : Nat
  i : Nat
  deriving DecidableEq, Repr

/-- `UBR` (R361). -/
structure OpUbr where
  a : Nat
  b : Nat
  c : Nat
  o : Nat
  deriving DecidableEq, Repr

/-- Every row of the opcode table. -/
inductive Instr where
  | mov16 (s d : Nat)   -- MOV_16 (R52): 16-bit form of MOV d, s.
  | iadd16 (s d : Nat)   -- IADD_16 (R52): 16-bit form of IADD d, d, s.
  | isub16 (s d : Nat)   -- ISUB_16 (R52): 16-bit form of ISUB d, d, s.
  | imul16 (s d : Nat)   -- IMUL_16 (R52): 16-bit form of IMUL d, d, s.
  | and16 (s d : Nat)   -- AND_16 (R52): 16-bit form of AND d, d, s.
  | or16 (s d : Nat)   -- OR_16 (R52): 16-bit form of OR d, d, s.
  | xor16 (s d : Nat)   -- XOR_16 (R52): 16-bit form of XOR d, d, s.
  | shli16 (i d : Nat)   -- SHLI_16 (R52): 16-bit form of SHLI d, d, imm5.
  | shri16 (i d : Nat)   -- SHRI_16 (R52): 16-bit form of SHRI d, d, imm5.
  | srai16 (i d : Nat)   -- SRAI_16 (R52): 16-bit form of SRAI d, d, imm5.
  | addi16 (i d : Nat)   -- ADDI_16 (R52): 16-bit form of IADDI d, d, signed imm5.
  | fadd16 (s d : Nat)   -- FADD_16 (R52): 16-bit form of FADD d, d, s.
  | fsub16 (s d : Nat)   -- FSUB_16 (R52): 16-bit form of FSUB d, d, s.
  | fmul16 (s d : Nat)   -- FMUL_16 (R52): 16-bit form of FMUL d, d, s.
  | fmin16 (s d : Nat)   -- FMIN_16 (R52): 16-bit form of FMIN d, d, s.
  | fmax16 (s d : Nat)   -- FMAX_16 (R52): 16-bit form of FMAX d, d, s.
  | iadd (o : OpA)   -- IADD (R83): Lane integer add, wrapping.
  | isub (o : OpA)   -- ISUB (R83): Lane integer subtract, wrapping.
  | imul (o : OpA)   -- IMUL (R83): Low 32 bits of the lane product.
  | imulh (o : OpA)   -- IMULH (R83): High 32 bits of the signed product.
  | imulhn (o : OpA)   -- IMULHN (R83): High 32 bits of the unsigned product.
  | imad (o : OpA)   -- IMAD (R83): Integer multiply-add into the destination.
  | imin (o : OpA)   -- IMIN (R83): Signed minimum.
  | imax (o : OpA)   -- IMAX (R83): Signed maximum.
  | nmin (o : OpA)   -- NMIN (R83): Unsigned minimum.
  | nmax (o : OpA)   -- NMAX (R83): Unsigned maximum.
  | iabs (o : OpU)   -- IABS (R83): Absolute value modulo 2^32.
  | isad (o : OpA)   -- ISAD (R83): Absolute difference of signed operands.
  | land (o : OpA)   -- AND (R83): Bitwise and.
  | lor (o : OpA)   -- OR (R83): Bitwise or.
  | lxor (o : OpA)   -- XOR (R83): Bitwise exclusive or.
  | andn (o : OpA)   -- ANDN (R83): A and not B.
  | shl (o : OpA)   -- SHL (R83): Shift left by B[7:0].
  | shr (o : OpA)   -- SHR (R83): Logical shift right.
  | sra (o : OpA)   -- SRA (R83): Arithmetic shift right.
  | rot (o : OpA)   -- ROT (R83): Rotate left by B[4:0].
  | popc (o : OpU)   -- POPC (R83): Population count.
  | clz (o : OpU)   -- CLZ (R83): Count leading zeros.
  | brev (o : OpU)   -- BREV (R83): Bit reversal.
  | bfx (o : OpA)   -- BFX (R84): Bit-field extract with field taken from B.
  | mov (o : OpU)   -- MOV (R84): Copy a lane register with its tag.
  | sel (o : OpA)   -- SEL (R84): Select A or B per lane by the predicate in g.
  | bfi (o : OpA)   -- BFI (R84): Bit-field insert into the destination.
  | iaddc (o : OpA)   -- IADDC (R85): Add with carry held in v(d+1).
  | iaddi (o : OpI)   -- IADDI (R86): Add a sign-extended imm9.
  | imuli (o : OpI)   -- IMULI (R86): Multiply by a sign-extended imm9.
  | andi (o : OpI)   -- ANDI (R86): And with a sign-extended imm7.
  | ori (o : OpI)   -- ORI (R86): Or with a sign-extended imm7.
  | xori (o : OpI)   -- XORI (R86): Exclusive or with a sign-extended imm7.
  | isubri (o : OpI)   -- ISUBRI (R86): Immediate minus A.
  | shli (o : OpSh)   -- SHLI (R86): Shift left by an immediate count.
  | shri (o : OpSh)   -- SHRI (R86): Logical shift right by an immediate count.
  | srai (o : OpSh)   -- SRAI (R86): Arithmetic shift right by an immediate count.
  | movi (o : OpMovi)   -- MOVI (R86): Load a sign-extended imm13.
  | fadd (o : OpA)   -- FADD (R87): FP32 add.
  | fsub (o : OpA)   -- FSUB (R87): FP32 subtract.
  | fmul (o : OpA)   -- FMUL (R87): FP32 multiply.
  | ffma (o : OpA)   -- FFMA (R87): FP32 fused multiply-add.
  | fmin (o : OpA)   -- FMIN (R87): FP32 minimum, NaN-propagating.
  | fmax (o : OpA)   -- FMAX (R87): FP32 maximum, NaN-propagating.
  | fminn (o : OpA)   -- FMINN (R87): FP32 minimum, number-preferring.
  | fmaxn (o : OpA)   -- FMAXN (R87): FP32 maximum, number-preferring.
  | frcp (o : OpU)   -- FRCP (R88): Correctly rounded reciprocal.
  | frsq (o : OpU)   -- FRSQ (R88): Correctly rounded reciprocal square root.
  | fsqrt (o : OpU)   -- FSQRT (R88): Correctly rounded square root.
  | fex2 (o : OpU)   -- FEX2 (R88): Correctly rounded 2^x.
  | flg2 (o : OpU)   -- FLG2 (R88): Correctly rounded log2.
  | fsin (o : OpU)   -- FSIN (R88): Correctly rounded sine.
  | fcos (o : OpU)   -- FCOS (R88): Correctly rounded cosine.
  | ftanh (o : OpU)   -- FTANH (R88): Correctly rounded hyperbolic tangent.
  | hadd (o : OpA)   -- HADD (R89): Packed-half add.
  | hsub (o : OpA)   -- HSUB (R89): Packed-half subtract.
  | hmul (o : OpA)   -- HMUL (R89): Packed-half multiply.
  | hfma (o : OpA)   -- HFMA (R89): Packed-half fused multiply-add.
  | hmin (o : OpA)   -- HMIN (R89): Packed-half minimum.
  | hmax (o : OpA)   -- HMAX (R89): Packed-half maximum.
  | hdot2 (o : OpA)   -- HDOT2 (R89): Two-element dot product with one rounding.
  | dadd (o : OpA)   -- DADD (R90): FP64 add.
  | dsub (o : OpA)   -- DSUB (R90): FP64 subtract.
  | dmul (o : OpA)   -- DMUL (R90): FP64 multiply.
  | dfma (o : OpA)   -- DFMA (R90): FP64 fused multiply-add.
  | dmin (o : OpA)   -- DMIN (R90): FP64 minimum.
  | dmax (o : OpA)   -- DMAX (R90): FP64 maximum.
  | drcp (o : OpU)   -- DRCP (R90): Correctly rounded FP64 reciprocal.
  | dsqrt (o : OpU)   -- DSQRT (R90): Correctly rounded FP64 square root.
  | icmp (o : OpCmp)   -- ICMP (R91): Signed integer compare into a predicate.
  | ncmp (o : OpCmp)   -- NCMP (R91): Unsigned integer compare into a predicate.
  | fcmp (o : OpCmp)   -- FCMP (R91): FP32 compare into a predicate.
  | dcmp (o : OpCmp)   -- DCMP (R91): FP64 compare into a predicate.
  | pand (o : OpP)   -- PAND (R92): Predicate and.
  | por (o : OpP)   -- POR (R92): Predicate or.
  | pxor (o : OpP)   -- PXOR (R92): Predicate exclusive or.
  | pnot (o : OpPn)   -- PNOT (R92): Predicate not.
  | cvt (o : OpCvt)   -- CVT (R93): Per-lane format conversion to the tag in b.
  | cvtb (o : OpCvt)   -- CVTB (R94): Conversion between lanes and an sx block.
  | sxexp (o : OpU)   -- SXEXP (R95): Read the shared exponent of an sx block.
  | sxset (o : OpA)   -- SXSET (R96): Set the exponent and width of an sx block, with an execution-time control-word check.
  | shflIdx (o : OpA)   -- SHFL_IDX (R97): Shuffle from lane k.
  | shflUp (o : OpA)   -- SHFL_UP (R97): Shuffle from lane l - k.
  | shflDown (o : OpA)   -- SHFL_DOWN (R97): Shuffle from lane l + k.
  | shflXor (o : OpA)   -- SHFL_XOR (R97): Shuffle from lane l XOR k.
  | voteAny (o : OpVoteP)   -- VOTE_ANY (R98): Predicate set if any writing lane has the source predicate.
  | voteAll (o : OpVoteP)   -- VOTE_ALL (R98): Predicate set if every writing lane has the source predicate.
  | voteBallot (o : OpVoteB)   -- VOTE_BALLOT (R98): Mask of writing lanes with the source predicate set.
  | red (o : OpRed)   -- RED (R99): Cohort reduction by the fixed pairwise tree.
  | scan (o : OpRed)   -- SCAN (R99): Inclusive prefix over the writing lanes.
  | elect (p g : Nat)   -- ELECT (R100): Elect the lowest writing lane.
  | qadd (o : OpT)   -- QADD (R101): Uniform 64-bit add.
  | qsub (o : OpT)   -- QSUB (R101): Uniform 64-bit subtract.
  | qmul (o : OpT)   -- QMUL (R101): Uniform 64-bit multiply.
  | qand (o : OpT)   -- QAND (R101): Uniform and.
  | qor (o : OpT)   -- QOR (R101): Uniform or.
  | qxor (o : OpT)   -- QXOR (R101): Uniform exclusive or.
  | qshl (o : OpT)   -- QSHL (R101): Uniform shift left.
  | qshr (o : OpT)   -- QSHR (R101): Uniform logical shift right.
  | qli (i d : Nat)   -- QLI (R102): Load a sign-extended imm19 into a uniform register.
  | qaddi (i d : Nat)   -- QADDI (R102): Add a sign-extended imm18 to a uniform register.
  | qlui (i d : Nat)   -- QLUI (R102): Shift a uniform register left 18 and insert imm18.
  | v2q (a d : Nat)   -- V2Q (R103): Move the lowest writing lane's value to a uniform register.
  | q2v (o : OpU)   -- Q2V (R103): Broadcast a uniform register to the writing lanes.
  | movx (o : OpMovx)   -- MOVX (R104): Read a special register.
  | movs (o : OpMovs)   -- MOVS (R104): Write a special register.
  | bra (o g : Nat)   -- BRA (R106): Branch, dividing the split when the guard differs among active lanes.
  | call (o : Nat)   -- CALL (R107): Write q63 and branch.
  | ret   -- RET (R107): Move the split to q63.
  | jmpq (a : Nat)   -- JMPQ (R107): Move the split to qA.
  | reconv (o : Nat)   -- RECONV (R112): Open a join record.
  | rwait (a : Nat)   -- RWAIT (R114): Bound a join by a timeout, or act as NOP.
  | bisq (a : Nat)   -- BISQ (R118): Arm or disarm a bisque region with a register snapshot.
  | exitl   -- EXITL (R116): Exit the active lanes of the split.
  | brk (i : Nat)   -- BRK (R120): Breakpoint, or NOP when debug is disabled.
  | nop   -- NOP (R122): No operation.
  | ld32 (o : OpLd)   -- LD_32 (R141): Lane 32-bit load on path g or t, or a full-empty load.
  | ld64 (o : OpLd)   -- LD_64 (R141): Lane 64-bit load into an even pair.
  | ldNarrow (o : OpLdn)   -- LD_NARROW (R141): Lane 8- or 16-bit load with extension by type.
  | ldk32 (o : OpLdk)   -- LDK_32 (R142): Constant-path word load broadcast to the writing lanes.
  | ldk64 (o : OpLdk)   -- LDK_64 (R142): Constant-path doubleword load broadcast to the writing lanes.
  | qld (o : OpQld)   -- QLD (R142): Uniform doubleword load.
  | st (o : OpSt)   -- ST (R146): Lane store of 1, 2, 4 or 8 bytes into the store queue.
  | qst (o : OpQst)   -- QST (R146): Uniform doubleword store.
  | atom (o : OpAtom)   -- ATOM (R151): Atomic read-modify-write returning the old value.
  | redm (o : OpAtom)   -- REDM (R151): Reduction at memory returning nothing (op 8-13).
  | cas (o : OpCas)   -- CAS (R151): Compare and swap.
  | fence (o : OpFence)   -- FENCE (R155): Order predecessor classes before successor classes at a scope.
  | pfence (t : Nat)   -- PFENCE (R156): Order and invalidate the named read paths.
  | wbr (a l : Nat)   -- WBR (R157): Write back dirty software-managed bytes of a range.
  | invr (a l : Nat)   -- INVR (R157): Write back and invalidate L1 blocks of a range.
  | barAw (n a : Nat)   -- BAR_AW (R125): Arrive at a block barrier and wait.
  | barArv (n a : Nat)   -- BAR_ARV (R125): Arrive at a block barrier.
  | barWt (n a : Nat)   -- BAR_WT (R125): Wait on a block barrier.
  | gbarAw (n a : Nat)   -- GBAR_AW (R127): Arrive at a gang barrier and wait.
  | gbarArv (n a : Nat)   -- GBAR_ARV (R127): Arrive at a gang barrier.
  | gbarWt (n a : Nat)   -- GBAR_WT (R127): Wait on a gang barrier.
  | mwait (o : OpMwait)   -- MWAIT (R128): Test a memory word and arm a monitor, parking the cohort.
  | sigd (o : OpSigd)   -- SIGD (R130): Release, then decrement a signal object.
  | send (o : OpSend)   -- SEND (R131): Send one or two registers into a channel slot.
  | recv (o : OpRecv)   -- RECV (R132): Take the oldest full channel slot into registers.
  | chq (c d : Nat)   -- CHQ (R133): Read a channel's state.
  | tnew (d : Nat)   -- TNEW (R166): Allocate zero-filled frames for a handle.
  | tfree (d : Nat)   -- TFREE (R166): Release a handle without write-back.
  | tpass (a d : Nat)   -- TPASS (R168): Move a handle's ownership to another cohort.
  | tbind (a d : Nat)   -- TBIND (R166): Record a backing address for a handle.
  | tfetch (d : Nat)   -- TFETCH (R166): Fetch a non-resident tile from its backing.
  | tevict (d : Nat)   -- TEVICT (R166): Write a tile back and free its frames.
  | twait (d : Nat)   -- TWAIT (R168): Wait until earlier instructions on a handle have performed.
  | tld (a d : Nat)   -- TLD (R169): Replace a tile's contents from memory.
  | tst (a d : Nat)   -- TST (R169): Write a tile's image to memory.
  | tget (o : OpTget)   -- TGET (R170): Read a tile line into lanes.
  | tset (o : OpTget)   -- TSET (R170): Write a tile line from lanes.
  | tadds (o : OpT)   -- TADDS (R171): Add a scalar to every tile element, or log it.
  | tmuls (o : OpT)   -- TMULS (R171): Multiply every tile element by a scalar, or log it.
  | texps (o : OpT)   -- TEXPS (R171): Scale tile elements by a power of two, or log it.
  | tfill (o : OpT)   -- TFILL (R171): Fill a tile region with a value, or log it.
  | tclmp (o : OpT)   -- TCLMP (R171): Clamp tile elements, or log it.
  | tcvt (o : OpTcvt)   -- TCVT (R174): Convert a tile's format, or log it.
  | mma (o : OpT)   -- MMA (R180): Matrix multiply-accumulate into a grant.
  | mmp (o : OpT)   -- MMP (R181): Paired matrix multiply-accumulate with N up to 512.
  | mmz (d : Nat)   -- MMZ (R179): Zero a grant, clearing poison and type.
  | acq (n d : Nat)   -- ACQ (R178): Acquire a grant of contiguous accumulator banks.
  | acr (d : Nat)   -- ACR (R178): Release a grant.
  | acrd (o : OpAcrd)   -- ACRD (R182): Epilogue read of accumulators into a tile or lanes.
  | acld (a d : Nat)   -- ACLD (R183): Load accumulators from a tile.
  | cego (a : Nat)   -- CEGO (R189): Start a copy-engine chain.
  | gxgo (a : Nat)   -- GXGO (R189): Start a gather-engine chain.
  | wpush (n a : Nat)   -- WPUSH (R205): Release and append an item to a stage queue.
  | wpop (p d : Nat)   -- WPOP (R205): Take the oldest item of the block's stage queue.
  | quies (p : Nat)   -- QUIES (R205): Ask the termination detector whether the launch is quiescent.
  | trap (i : Nat)   -- TRAP (R119): Software trap into the context's handler.
  | tret   -- TRET (R332): Check the frame, re-inject replay entries and resume the splits.
  | yield   -- YIELD (R122): Stop the split from issuing for 64 core cycles.
  | exit   -- EXIT (R117): End the whole cohort.
  | spawn (a : Nat)   -- SPAWN (R135): Release and hand a launch record to the launch unit.
  | kill (a : Nat)   -- KILL (R136): Cancel the launch whose completion object is at qA.
  | csrr (c d : Nat)   -- CSRR (R121): Read a control register.
  | csrw (cnum qs : Nat)   -- CSRW (R121): Write a control register; its cnum and qS fields overlap in the manual.
  | csrCtlbiWrite (cnum qs : Nat)   -- CSR_CTLBI_WRITE (R321): Invalidate cached translations of an address package-wide.
  | csrCbndReload (cnum qs : Nat)   -- CSR_CBND_RELOAD (R344): Reload bound register n from the launch's btab.
  | csrCbndWrite (cnum qs : Nat)   -- CSR_CBND_WRITE (R399): Write doubleword 1-3 of a bound register directly.
  | uli (d i : Nat)   -- ULI (R361): Uliah load sign-extended imm19.
  | uaddi (o : OpUi)   -- UADDI (R361): Uliah add immediate.
  | uadd (o : OpUr)   -- UADD (R361): Uliah add.
  | usub (o : OpUr)   -- USUB (R361): Uliah subtract.
  | uand (o : OpUr)   -- UAND (R361): Uliah and.
  | uor (o : OpUr)   -- UOR (R361): Uliah or.
  | ushl (o : OpUr)   -- USHL (R361): Uliah shift left.
  | ushr (o : OpUr)   -- USHR (R361): Uliah logical shift right.
  | uld (o : OpUi)   -- ULD (R361): Uliah doubleword read at the home slice.
  | ust (o : OpUst)   -- UST (R361): Uliah doubleword write.
  | ubr (o : OpUbr)   -- UBR (R361): Uliah conditional branch.
  | ujmp (o : Nat)   -- UJMP (R361): Uliah jump.
  | uend   -- UEND (R361): End the handler, discarding P.
  | ufault (i : Nat)   -- UFAULT (R361): Halt the window with code 15.
  | ucomb (a b : Nat)   -- UCOMB (R362): Collect a rank range into the partial in rank order.
  | ufwd (a : Nat)   -- UFWD (R361): Send P to a window destination.
  | umcast (a : Nat)   -- UMCAST (R361): Send P to every group entry up to the end entry.
  | uwr (a : Nat)   -- UWR (R361): Write P converted to otype to a memory entry.
  | uopt (a : Nat)   -- UOPT (R368): Apply the optimiser update to P and its state.
  | usig (a : Nat)   -- USIG (R365): Wait for earlier writes, then decrement a signal object.
  | udone (d : Nat)   -- UDONE (R361): Mark the segment done for the round.
  | uget (d a : Nat)   -- UGET (R361): Read an element of P.
  | joinArrive   -- JOIN_ARRIVE (R113): A split reaching its join address parks and may complete the join. Operands: c, k, i.
  | rwaitTimeout   -- RWAIT_TIMEOUT (R114): A join timer reaches 0 and the arrived lanes merge. Operands: c, k, j.
  | yieldExpire   -- YIELD_EXPIRE (R122): A yield's 64 cycles run out and the split becomes ready. Operands: c, k, i.
  | barrierArrivalTaken   -- BARRIER_ARRIVAL_TAKEN (R125): The barrier unit takes one cohort arrival per cycle. Operands: c, b, n.
  | gbarPhaseMessage   -- GBAR_PHASE_MESSAGE (R127): The other stack's phase message arrives and releases gang blocks. Operands: g, n, side.
  | monitorWake   -- MONITOR_WAKE (R128): A monitor wake reaches the parked cohort, which becomes ready with status 1. Operands: uid, mon.
  | channelStall   -- CHANNEL_STALL (R134): The channel watchdog expires and raises the channel-stall trap. Operands: c, k, i.
  | channelPacketReceive   -- CHANNEL_PACKET_RECEIVE (R281): A SEND payload performs in the receiver's slot and is acknowledged. Operands: id.
  | channelCredit   -- CHANNEL_CREDIT (R281): A RECV credit arrives and raises the sender's free count. Operands: id.
  | loadDataReturn   -- LOAD_DATA_RETURN (R141): Load or atomic data returns and is written to the lanes. Operands: uid, seq, access id.
  | storeLeaveQueue   -- STORE_LEAVE_QUEUE (R147): The oldest store leaves the store queue and performs. Operands: c, k.
  | fenceComplete   -- FENCE_COMPLETE (R155): Covered accesses have performed; the fence completes and releases younger accesses. Operands: c, k.
  | translationWalkComplete   -- TRANSLATION_WALK_COMPLETE (R325): A page walk ends and waiting accesses proceed or fault. Operands: c, asid, vpn.
  | trapEntry   -- TRAP_ENTRY (R329): After drain, state and frame are saved and the handler is entered. Operands: c, k.
  | lateEngineFault   -- LATE_ENGINE_FAULT (R337): A chain fault reaches the issuing cohort at its next boundary. Operands: c, e, n, sub, va.
  | laneLineFill   -- LANE_LINE_FILL (R219): A lane-register line arrives in the lane register cache. Operands: c, k, r.
  | frameGrant   -- FRAME_GRANT (R233): Freed frames let a waiting frame request be granted. Operands: c.
  | fillEnd   -- FILL_END (R177): A tile fill ends, the log is applied as one batch and all granules become full. Operands: c, b, h.
  | mmpStart   -- MMP_START (R181): A waiting MMP starts when the follower's array frees. Operands: c.
  | mmaPerform   -- MMA_PERFORM (R180): A matrix multiply finishes and performs. Operands: c, id.
  | engineEntryReach   -- ENGINE_ENTRY_REACH (R193): An engine reaches a chain entry and acts on it. Operands: c, e, n.
  | blockStart   -- BLOCK_START (R231): The allocation is cleared and the block's cohorts start. Operands: c, b.
  | blockEnd   -- BLOCK_END (R312): Last cohort exited and last chain ended; kind-0 completion. Operands: c, b (or c, b, 1, launch, stage, gang, first task: a withheld count).
  | launchAccept   -- LAUNCH_ACCEPT (R301): The launch unit accepts and checks a launch record. No operands, or those of a rejection to end.
  | schedule   -- SCHEDULE (R307): One scheduling pass over live launches.
  | prioritySwapOut   -- PRIORITY_SWAP_OUT (R339): The launch unit swaps out lower-level blocks for a waiting group. Operands: l.
  | launchComplete   -- LAUNCH_COMPLETE (R312): The launch ends: status block written, then completion release. Operands: l.
  | launchKillComplete   -- LAUNCH_KILL_COMPLETE (R317): Every block of a killed launch has ended; state 4 and completion. Operands: l.
  | hqDoorbell   -- HQ_DOORBELL (R376): A host queue tail write submits entries. Operands: n, tail.
  | hqEnable   -- HQ_ENABLE (R377): HQCFG write enabling a host queue, with configuration checks. Operands: n, v.
  | hqDisable   -- HQ_DISABLE (R377): HQCFG write with enable 0 stops acceptance. Operands: n.
  | hqbaseWrite   -- HQBASE_WRITE (R377): Write of a host queue base, ignored while enabled. Operands: n, v.
  | mgmtDoorbell   -- MGMT_DOORBELL (R379): The host complex rings the management queue. Operands: two doublewords per entry.
  | ctxTableWrite   -- CTX_TABLE_WRITE (R320): Write of a context table entry, ignored except live fields while a launch is live. Operands: asid, off, v.
  | ctxSwapOut   -- CTX_SWAP_OUT (R347): Command 1: swap out every resident cohort of the context. Operands: asid, page.
  | ctxRestore   -- CTX_RESTORE (R347): Command 2: restore swapped-out cohorts of the context. Operands: asid, page.
  | ctxEvictGroups   -- CTX_EVICT_GROUPS (R347): Command 3: evict every placement group of the context. Operands: asid, page.
  | ctxRestoreGroups   -- CTX_RESTORE_GROUPS (R347): Command 4: place saved groups again and restore their cohorts. Operands: asid, page.
  | ctxFlushLines   -- CTX_FLUSH_LINES (R347): Command 5: write back dirty evictable lane lines of swapped-out cohorts. Operands: asid, page.
  | ctxcmdComplete   -- CTXCMD_COMPLETE (R347): A context command finishes everywhere and busy clears.
  | cohortSwapOut   -- COHORT_SWAP_OUT (R339): A cohort drains and writes its front-end state and frame to its image. Operands: c, k.
  | cohortRestore   -- COHORT_RESTORE (R340): A cohort's front-end state is reloaded and it resumes. Operands: uid.
  | tlbinvAll   -- TLBINV_ALL (R347): Invalidate every translation of an ASID. Operands: asid, page.
  | tlbinvPage   -- TLBINV_PAGE (R347): Invalidate translations of one virtual page of an ASID. Operands: asid, page.
  | tlbinvComplete   -- TLBINV_COMPLETE (R325): Invalidation completes after accesses using old entries perform. Operands: id.
  | wbctxWrite   -- WBCTX_WRITE (R412): Enable or disable wide binding for a context. Operands: asid, v.
  | packetRoute   -- PACKET_ROUTE (R270): A router takes a packet and forwards it on a minimal route. Operands: id.
  | probeLaunch   -- PROBE_LAUNCH (R282): A blocked input launches a deadlock probe after 4,096 cycles. Operands: inp.
  | probeHop   -- PROBE_HOP (R282): A probe moves to the input its head packet waits for. Operands: id.
  | recoveryGrant   -- RECOVERY_GRANT (R283): The hub grants recovery to a cycle and sends the rotation token. Operands: id.
  | rotationTokenReturn   -- ROTATION_TOKEN_RETURN (R283): Every head packet of the cycle moves one hop. Operands: id.
  | escapeReinject   -- ESCAPE_REINJECT (R284): An escape buffer re-injects a packet once its route has credit. Operands: r.
  | sliceAccess   -- SLICE_ACCESS (R276): A home slice serves an access to a line. Operands: id.
  | sliceFillComplete   -- SLICE_FILL_COMPLETE (R277): A miss fill completes and joined requests are served. Operands: n, line.
  | sliceWriteback   -- SLICE_WRITEBACK (R278): A masked write-back arrives at its home slice. Operands: id.
  | scrubLine   -- SCRUB_LINE (R397): Scrub reads and rewrites a line, correcting errors. Operands: line, n (errors corrected).
  | fsPeriodStart   -- FS_PERIOD_START (R286): An arbiter starts a new 65,536-cycle budget period. Operands: cls.
  | fsbudWrite   -- FSBUD_WRITE (R288): Checked write of a budget floor and ceiling. Operands: cls, act, v.
  | governorWindow   -- GOVERNOR_WINDOW (R422): End of a 4,096-cycle window sets the next frequency step. Operands: c.
  | powerEstimate   -- POWER_ESTIMATE (R423): Periodic power estimate adjusts governor and throttling.
  | awcfgEnable   -- AWCFG_ENABLE (R350): AWCFG write with mode 1-3, checked, turning the window on. Operands: w, v.
  | awcfgDisable   -- AWCFG_DISABLE (R349): AWCFG write with mode 0 turns the window off and discards buckets. Operands: w, v.
  | awRegisterWrite   -- AW_REGISTER_WRITE (R349): Write of another window register, ignored while the window is on. Operands: w, r, v.
  | awContribution   -- AW_CONTRIBUTION (R353): A contribution store's bytes reach the window's home port. Operands: id.
  | segmentReceive   -- SEGMENT_RECEIVE (R355): A segment input arrives from another port or package. Operands: w, header (256 bits), payload, bad (a bit per poisoned granule).
  | handlerStart   -- HANDLER_START (R356): A combine handler starts for the first input of a group. Operands: w, tag, seg.
  | bucketSpill   -- BUCKET_SPILL (R363): A handler waits tlim cycles and the bucket spills. Operands: w, tag, seg.
  | ueRetransmit   -- UE_RETRANSMIT (R370): A retransmission timeout resends an Ultra Ethernet packet. Operands: id.
  | fabricPacketReceive   -- FABRIC_PACKET_RECEIVE (R383): A scale-up packet is received, checked and performed once. Operands: link, seq, what, then what the packet holds.
  | fabricAck   -- FABRIC_ACK (R383): A cumulative acknowledgement arrives at the sender. Operands: link, seq.
  | laneFailure   -- LANE_FAILURE (R418): An optical lane fails and the link stops to retrain. Operands: link, lane.
  | linkRetrainDone   -- LINK_RETRAIN_DONE (R418): Retraining ends and the sender replays unacknowledged packets. Operands: link.
  | flctlRetrain   -- FLCTL_RETRAIN (R418): Software asks a link to retrain to the widest good width. Operands: link, v.
  | peerAccessTimeout   -- PEER_ACCESS_TIMEOUT (R384): An unacknowledged peer access fails after 2^20 cycles. Operands: id.
  | peerAccessReceive   -- PEER_ACCESS_RECEIVE (R381): A peer's access arrives and acts as a local access. Operands: kind, operation, type, offset, size, value, second value, name.
  | hostWrite   -- HOST_WRITE (R375): A host write through a BAR or CXL.mem. Operands: bar, addr, n, v.
  | hostRead   -- HOST_READ (R375): A host read through a BAR or CXL.mem. Operands: bar, addr, n.
  | errRingEnable   -- ERR_RING_ENABLE (R402): ERRBASE write with enable 1, clearing the ring counters. Operands: v.
  | errRingDisable   -- ERR_RING_DISABLE (R402): ERRBASE write with enable 0 disables the ring. Operands: v.
  | errcfgWrite   -- ERRCFG_WRITE (R402): Write of the ring size, ignored while enabled or reserved. Operands: v.
  | errCorrectionPeriod   -- ERR_CORRECTION_PERIOD (R404): A unit's period ends and a code-1 record is written. Operands: cls, ix.
  | katInject   -- KAT_INJECT (R407): An idle quad cycle injects a known-answer operation. Operands: c, p, bad (a bit per mismatching lane).
  | scanApply   -- SCAN_APPLY (R406): Apply command: check the package and hold the core. Operands: v.
  | scanTest   -- SCAN_TEST (R406): The core holds no block; vectors are applied.
  | scanComplete   -- SCAN_COMPLETE (R406): Scan ends: record, status and completion word written.
  | stkEnterCheckpoint   -- STK_ENTER_CHECKPOINT (R413): Enter checkpoint mode and take a checkpoint. Operands: st.
  | stkTakeCheckpoint   -- STK_TAKE_CHECKPOINT (R414): Take a checkpoint of the stack's groups. Operands: st.
  | stkLeaveCheckpoint   -- STK_LEAVE_CHECKPOINT (R413): Leave checkpoint mode. Operands: st.
  | stkWarmResetRestore   -- STK_WARM_RESET_RESTORE (R416): Reset one stack and restore it from its checkpoint. Operands: st.
  | stkWarmResetNoRestore   -- STK_WARM_RESET_NO_RESTORE (R417): Reset one stack empty, cancelling its launches. Operands: st.
  | checkpointQuiet   -- CHECKPOINT_QUIET (R414): Groups become quiet; they are saved and restored in place. Operands: st.
  | checkpointTimeout   -- CHECKPOINT_TIMEOUT (R414): Groups not quiet in 2^24 cycles; the checkpoint fails. Operands: st.
  | msgLogOverflow   -- MSG_LOG_OVERFLOW (R415): A full message log forces an immediate checkpoint. Operands: st.
  | rtRaiseTestFloor   -- RT_RAISE_TEST_FLOOR (R427): Raise the test floor to the last passing package's serial.
  | rtSignBindingMap   -- RT_SIGN_BINDING_MAP (R427): Root of trust signs the inactive binding map. Operands: what has been written into it, pairs i, v.
  | powerGood   -- POWER_GOOD (R425): Power-good: root of trust derives the identity key and the ramp begins.
  | kilnRampStep   -- KILN_RAMP_STEP (R424): The next island starts after the previous one has settled. No operands, or st of a warm reset.
  | bootLoader   -- BOOT_LOADER (R426): Hub ROM verifies and starts the loader.
  | bootOs   -- BOOT_OS (R426): Loader brings up memory, reads the binding map, starts the OS.
  | bootFirmware   -- BOOT_FIRMWARE (R426): The OS verifies and loads firmware and Uliah programs.
  | spdmGetVersion   -- SPDM_GET_VERSION (R385): SPDM GET_VERSION request.
  | spdmGetCapabilities   -- SPDM_GET_CAPABILITIES (R385): SPDM GET_CAPABILITIES request.
  | spdmNegotiateAlgorithms   -- SPDM_NEGOTIATE_ALGORITHMS (R428): SPDM NEGOTIATE_ALGORITHMS request. Operands: sel.
  | spdmGetDigests   -- SPDM_GET_DIGESTS (R385): SPDM GET_DIGESTS request.
  | spdmGetCertificate   -- SPDM_GET_CERTIFICATE (R385): SPDM GET_CERTIFICATE request.
  | spdmChallenge   -- SPDM_CHALLENGE (R428): SPDM CHALLENGE signed with the device identity key. Operands: nonce.
  | spdmGetMeasurements   -- SPDM_GET_MEASUREMENTS (R428): Return the six SHA3-512 measurements.
  | spdmUnsupportedRequest   -- SPDM_UNSUPPORTED_REQUEST (R385): Any other SPDM request gets UnsupportedRequest. Operands: code.
  | registerWrite   -- REGISTER_WRITE (R6): Write of a hub register with no row of its own, by its access kind. Operands: off, v.
  | illegalInstruction   -- ILLEGAL_INSTRUCTION (R57): A split issues a word that encodes no instruction, such as a reserved major, minor or field value or the halfword 0x0000, and takes the precise illegal-instruction fault. Operands: w, len, guard.
  | instructionFetchFault   -- INSTRUCTION_FETCH_FAULT (R69): The fetch of a split's next halfword fails translation, gives an address error or reads poison, and the cohort takes the precise instruction-fetch fault. Operands: sub, addr.
  | conditionalWaitPauseEnd   -- CONDITIONAL_WAIT_PAUSE_END (R193): After a 256-cycle pause, a conditional entry in wait mode re-reads its word and either continues or pauses again. Operands: c, e, n.
  | bankAccess   -- BANK_ACCESS (R229): A core's scratchpad, tile-store or register-window bank serves an access that arrives from the network port or an engine. A write performs there, may set full bits and release waiting .fe and .fec loads, and a read returns data. Operands: id.
  | tileWriteComplete   -- TILE_WRITE_COMPLETE (R166): The write of a TST or TEVICT is acknowledged; TEVICT then frees its frames and the handle becomes non-resident. Operands: c, b, h.
  | writeAcknowledgement   -- WRITE_ACKNOWLEDGEMENT (R155): The acknowledgement of a store, write-through or write-back reaches its core at a scope. It releases held path-g misses, WBR and INVR completion, and waiting releases such as SIGD, SPAWN, SEND and WPUSH. Operands: id.
  | writeBackDrain   -- WRITE_BACK_DRAIN (R278): A memory controller completes a write from a slice's reserved write-back slot, freeing space for waiting write-backs and evictions. Operands: slice, line.
  | uncorrectableError   -- UNCORRECTABLE_ERROR (R396): A storage or transmission error strikes a protected structure; it is later corrected, refetched or poisoned according to its code. Operands: structure, ix, a (line, granule, frame or register), fixed.
  | powerLoss   -- POWER_LOSS (R386): The package loses power and goes off, with nothing answering until the next power-good.
  deriving DecidableEq, Repr

end Sys2Proof
end

