-- ==== Sys2Proof/WellFormed.lean ====
section
/-! DEFINITION. Which instructions are well formed: every field fits the bits that its format gives it, and no value
stands that R54 to R68 reserve. -/

namespace Sys2Proof

/-- R55: a guard field is four bits, and `!p0` is reserved. -/
def goodGuard (g : Nat) : Bool := g < 16 && g != 8

/-- R67: the types that each `ATOM` operation takes; operation 7 is reserved. -/
def goodAtom (o t : Nat) : Bool := (o < 3 && t < 5) || (3 ≤ o && o < 6 && t < 4) || (o == 6 && t < 5)

/-- R67: the types that each `REDM` operation takes, the operation counted from 8; 14 is `CAS` and 15 reserved. -/
def goodRedm (o t : Nat) : Bool := (o < 3 && t < 8) || (3 ≤ o && o < 6 && t < 4)

/-- R65: a `PFENCE` names at least two of the three paths. -/
def goodPaths (t : Nat) : Bool := t == 3 || t == 5 || t == 6 || t == 7

/-- R51 to R68, R121, R360: the instruction has an encoding that is not reserved. Rows without an encoding have no fields to check. -/
def Instr.wf : Instr → Bool
  | .mov16 s d => (s < 32) && (d < 64) && (s != 0 || d != 0)
  | .iadd16 s d => (s < 32) && (d < 64)
  | .isub16 s d => (s < 32) && (d < 64)
  | .imul16 s d => (s < 32) && (d < 64)
  | .and16 s d => (s < 32) && (d < 64)
  | .or16 s d => (s < 32) && (d < 64)
  | .xor16 s d => (s < 32) && (d < 64)
  | .shli16 i d => (i < 32) && (d < 64)
  | .shri16 i d => (i < 32) && (d < 64)
  | .srai16 i d => (i < 32) && (d < 64)
  | .addi16 i d => (i < 32) && (d < 64)
  | .fadd16 s d => (s < 32) && (d < 64)
  | .fsub16 s d => (s < 32) && (d < 64)
  | .fmul16 s d => (s < 32) && (d < 64)
  | .fmin16 s d => (s < 32) && (d < 64)
  | .fmax16 s d => (s < 32) && (d < 64)
  | .iadd o => (o.q < 2) && (o.b < 64) && (o.a < 64) && (o.d < 64) && (goodGuard o.g)
  | .isub o => (o.q < 2) && (o.b < 64) && (o.a < 64) && (o.d < 64) && (goodGuard o.g)
  | .imul o => (o.q < 2) && (o.b < 64) && (o.a < 64) && (o.d < 64) && (goodGuard o.g)
  | .imulh o => (o.q < 2) && (o.b < 64) && (o.a < 64) && (o.d < 64) && (goodGuard o.g)
  | .imulhn o => (o.q < 2) && (o.b < 64) && (o.a < 64) && (o.d < 64) && (goodGuard o.g)
  | .imad o => (o.q < 2) && (o.b < 64) && (o.a < 64) && (o.d < 64) && (goodGuard o.g)
  | .imin o => (o.q < 2) && (o.b < 64) && (o.a < 64) && (o.d < 64) && (goodGuard o.g)
  | .imax o => (o.q < 2) && (o.b < 64) && (o.a < 64) && (o.d < 64) && (goodGuard o.g)
  | .nmin o => (o.q < 2) && (o.b < 64) && (o.a < 64) && (o.d < 64) && (goodGuard o.g)
  | .nmax o => (o.q < 2) && (o.b < 64) && (o.a < 64) && (o.d < 64) && (goodGuard o.g)
  | .iabs o => (o.a < 64) && (o.d < 64) && (goodGuard o.g)
  | .isad o => (o.q < 2) && (o.b < 64) && (o.a < 64) && (o.d < 64) && (goodGuard o.g)
  | .land o => (o.q < 2) && (o.b < 64) && (o.a < 64) && (o.d < 64) && (goodGuard o.g)
  | .lor o => (o.q < 2) && (o.b < 64) && (o.a < 64) && (o.d < 64) && (goodGuard o.g)
  | .lxor o => (o.q < 2) && (o.b < 64) && (o.a < 64) && (o.d < 64) && (goodGuard o.g)
  | .andn o => (o.q < 2) && (o.b < 64) && (o.a < 64) && (o.d < 64) && (goodGuard o.g)
  | .shl o => (o.q < 2) && (o.b < 64) && (o.a < 64) && (o.d < 64) && (goodGuard o.g)
  | .shr o => (o.q < 2) && (o.b < 64) && (o.a < 64) && (o.d < 64) && (goodGuard o.g)
  | .sra o => (o.q < 2) && (o.b < 64) && (o.a < 64) && (o.d < 64) && (goodGuard o.g)
  | .rot o => (o.q < 2) && (o.b < 64) && (o.a < 64) && (o.d < 64) && (goodGuard o.g)
  | .popc o => (o.a < 64) && (o.d < 64) && (goodGuard o.g)
  | .clz o => (o.a < 64) && (o.d < 64) && (goodGuard o.g)
  | .brev o => (o.a < 64) && (o.d < 64) && (goodGuard o.g)
  | .bfx o => (o.q < 2) && (o.b < 64) && (o.a < 64) && (o.d < 64) && (goodGuard o.g)
  | .mov o => (o.a < 64) && (o.d < 64) && (goodGuard o.g)
  | .sel o => (o.q < 2) && (o.b < 64) && (o.a < 64) && (o.d < 64) && (goodGuard o.g)
  | .bfi o => (o.q < 2) && (o.b < 64) && (o.a < 64) && (o.d < 64) && (goodGuard o.g)
  | .iaddc o => (o.q < 2) && (o.b < 64) && (o.a < 64) && (o.d < 64) && (goodGuard o.g)
  | .iaddi o => (o.i < 512) && (o.a < 64) && (o.d < 64) && (goodGuard o.g)
  | .imuli o => (o.i < 512) && (o.a < 64) && (o.d < 64) && (goodGuard o.g)
  | .andi o => (o.i < 128) && (o.a < 64) && (o.d < 64) && (goodGuard o.g)
  | .ori o => (o.i < 128) && (o.a < 64) && (o.d < 64) && (goodGuard o.g)
  | .xori o => (o.i < 128) && (o.a < 64) && (o.d < 64) && (goodGuard o.g)
  | .isubri o => (o.i < 128) && (o.a < 64) && (o.d < 64) && (goodGuard o.g)
  | .shli o => (o.s < 32) && (o.a < 64) && (o.d < 64) && (goodGuard o.g)
  | .shri o => (o.s < 32) && (o.a < 64) && (o.d < 64) && (goodGuard o.g)
  | .srai o => (o.s < 32) && (o.a < 64) && (o.d < 64) && (goodGuard o.g)
  | .movi o => (o.i < 8192) && (o.d < 64) && (goodGuard o.g)
  | .fadd o => (o.q < 2) && (o.b < 64) && (o.a < 64) && (o.d < 64) && (goodGuard o.g)
  | .fsub o => (o.q < 2) && (o.b < 64) && (o.a < 64) && (o.d < 64) && (goodGuard o.g)
  | .fmul o => (o.q < 2) && (o.b < 64) && (o.a < 64) && (o.d < 64) && (goodGuard o.g)
  | .ffma o => (o.q < 2) && (o.b < 64) && (o.a < 64) && (o.d < 64) && (goodGuard o.g)
  | .fmin o => (o.q < 2) && (o.b < 64) && (o.a < 64) && (o.d < 64) && (goodGuard o.g)
  | .fmax o => (o.q < 2) && (o.b < 64) && (o.a < 64) && (o.d < 64) && (goodGuard o.g)
  | .fminn o => (o.q < 2) && (o.b < 64) && (o.a < 64) && (o.d < 64) && (goodGuard o.g)
  | .fmaxn o => (o.q < 2) && (o.b < 64) && (o.a < 64) && (o.d < 64) && (goodGuard o.g)
  | .frcp o => (o.a < 64) && (o.d < 64) && (goodGuard o.g)
  | .frsq o => (o.a < 64) && (o.d < 64) && (goodGuard o.g)
  | .fsqrt o => (o.a < 64) && (o.d < 64) && (goodGuard o.g)
  | .fex2 o => (o.a < 64) && (o.d < 64) && (goodGuard o.g)
  | .flg2 o => (o.a < 64) && (o.d < 64) && (goodGuard o.g)
  | .fsin o => (o.a < 64) && (o.d < 64) && (goodGuard o.g)
  | .fcos o => (o.a < 64) && (o.d < 64) && (goodGuard o.g)
  | .ftanh o => (o.a < 64) && (o.d < 64) && (goodGuard o.g)
  | .hadd o => (o.q < 2) && (o.b < 64) && (o.a < 64) && (o.d < 64) && (goodGuard o.g)
  | .hsub o => (o.q < 2) && (o.b < 64) && (o.a < 64) && (o.d < 64) && (goodGuard o.g)
  | .hmul o => (o.q < 2) && (o.b < 64) && (o.a < 64) && (o.d < 64) && (goodGuard o.g)
  | .hfma o => (o.q < 2) && (o.b < 64) && (o.a < 64) && (o.d < 64) && (goodGuard o.g)
  | .hmin o => (o.q < 2) && (o.b < 64) && (o.a < 64) && (o.d < 64) && (goodGuard o.g)
  | .hmax o => (o.q < 2) && (o.b < 64) && (o.a < 64) && (o.d < 64) && (goodGuard o.g)
  | .hdot2 o => (o.q < 2) && (o.b < 64) && (o.a < 64) && (o.d < 64) && (goodGuard o.g)
  | .dadd o => (o.q < 2) && (o.b < 64) && (o.a < 64) && (o.d < 64) && (goodGuard o.g)
  | .dsub o => (o.q < 2) && (o.b < 64) && (o.a < 64) && (o.d < 64) && (goodGuard o.g)
  | .dmul o => (o.q < 2) && (o.b < 64) && (o.a < 64) && (o.d < 64) && (goodGuard o.g)
  | .dfma o => (o.q < 2) && (o.b < 64) && (o.a < 64) && (o.d < 64) && (goodGuard o.g)
  | .dmin o => (o.q < 2) && (o.b < 64) && (o.a < 64) && (o.d < 64) && (goodGuard o.g)
  | .dmax o => (o.q < 2) && (o.b < 64) && (o.a < 64) && (o.d < 64) && (goodGuard o.g)
  | .drcp o => (o.a < 64) && (o.d < 64) && (goodGuard o.g)
  | .dsqrt o => (o.a < 64) && (o.d < 64) && (goodGuard o.g)
  | .icmp o => (o.q < 2) && (o.b < 64) && (o.a < 64) && (o.p < 8) && (o.c < 8) && (goodGuard o.g) && (o.p != 0 && o.c < 6)
  | .ncmp o => (o.q < 2) && (o.b < 64) && (o.a < 64) && (o.p < 8) && (o.c < 8) && (goodGuard o.g) && (o.p != 0 && o.c < 6)
  | .fcmp o => (o.q < 2) && (o.b < 64) && (o.a < 64) && (o.p < 8) && (o.c < 8) && (goodGuard o.g) && (o.p != 0)
  | .dcmp o => (o.q < 2) && (o.b < 64) && (o.a < 64) && (o.p < 8) && (o.c < 8) && (goodGuard o.g) && (o.p != 0)
  | .pand o => (o.b < 8) && (o.a < 8) && (o.d < 8) && (goodGuard o.g) && (o.d != 0)
  | .por o => (o.b < 8) && (o.a < 8) && (o.d < 8) && (goodGuard o.g) && (o.d != 0)
  | .pxor o => (o.b < 8) && (o.a < 8) && (o.d < 8) && (goodGuard o.g) && (o.d != 0)
  | .pnot o => (o.a < 8) && (o.d < 8) && (goodGuard o.g) && (o.d != 0)
  | .cvt o => (o.s < 2) && (o.t < 64) && (o.a < 64) && (o.d < 64) && (goodGuard o.g)
  | .cvtb o => (o.s < 2) && (o.t < 64) && (o.a < 64) && (o.d < 64) && (goodGuard o.g)
  | .sxexp o => (o.a < 64) && (o.d < 64) && (goodGuard o.g)
  | .sxset o => (o.q < 2) && (o.b < 64) && (o.a < 64) && (o.d < 64) && (goodGuard o.g)
  | .shflIdx o => (o.q < 2) && (o.b < 64) && (o.a < 64) && (o.d < 64) && (goodGuard o.g)
  | .shflUp o => (o.q < 2) && (o.b < 64) && (o.a < 64) && (o.d < 64) && (goodGuard o.g)
  | .shflDown o => (o.q < 2) && (o.b < 64) && (o.a < 64) && (o.d < 64) && (goodGuard o.g)
  | .shflXor o => (o.q < 2) && (o.b < 64) && (o.a < 64) && (o.d < 64) && (goodGuard o.g)
  | .voteAny o => (o.s < 8) && (o.p < 8) && (goodGuard o.g) && (o.p != 0)
  | .voteAll o => (o.s < 8) && (o.p < 8) && (goodGuard o.g) && (o.p != 0)
  | .voteBallot o => (o.s < 8) && (o.d < 64) && (goodGuard o.g)
  | .red o => (o.k < 64) && (o.a < 64) && (o.d < 64) && (goodGuard o.g) && (o.k < 13)
  | .scan o => (o.k < 64) && (o.a < 64) && (o.d < 64) && (goodGuard o.g) && (o.k < 13)
  | .elect p g => (p < 8) && (goodGuard g) && (p != 0)
  | .qadd o => (o.b < 64) && (o.a < 64) && (o.d < 64)
  | .qsub o => (o.b < 64) && (o.a < 64) && (o.d < 64)
  | .qmul o => (o.b < 64) && (o.a < 64) && (o.d < 64)
  | .qand o => (o.b < 64) && (o.a < 64) && (o.d < 64)
  | .qor o => (o.b < 64) && (o.a < 64) && (o.d < 64)
  | .qxor o => (o.b < 64) && (o.a < 64) && (o.d < 64)
  | .qshl o => (o.b < 64) && (o.a < 64) && (o.d < 64)
  | .qshr o => (o.b < 64) && (o.a < 64) && (o.d < 64)
  | .qli i d => (i < 524288) && (d < 64)
  | .qaddi i d => (i < 262144) && (d < 64)
  | .qlui i d => (i < 262144) && (d < 64)
  | .v2q a d => (a < 64) && (d < 64)
  | .q2v o => (o.a < 64) && (o.d < 64) && (goodGuard o.g)
  | .movx o => (o.c < 2) && (o.x < 1024) && (o.d < 64) && (goodGuard o.g)
  | .movs o => (o.c < 2) && (o.x < 1024) && (o.d < 64)
  | .bra o g => (o < 2097152) && (goodGuard g)
  | .call o => (o < 2097152)
  | .ret => true
  | .jmpq a => (a < 64)
  | .reconv o => (o < 2097152) && (o != 0)
  | .rwait a => (a < 64)
  | .bisq a => (a < 64)
  | .exitl => true
  | .brk i => (i < 65536)
  | .nop => true
  | .ld32 o => (o.o < 32) && (o.r < 4) && (o.u < 4) && (o.a < 64) && (o.d < 64) && (goodGuard o.g)
  | .ld64 o => (o.o < 32) && (o.r < 4) && (o.u < 4) && (o.a < 64) && (o.d < 64) && (goodGuard o.g)
  | .ldNarrow o => (o.o < 32) && (o.r < 4) && (o.u < 4) && (o.a < 32) && (o.d < 64) && (goodGuard o.g)
  | .ldk32 o => (o.o < 32) && (o.r < 4) && (o.b < 32) && (o.d < 64) && (goodGuard o.g)
  | .ldk64 o => (o.o < 32) && (o.r < 4) && (o.b < 32) && (o.d < 64) && (goodGuard o.g)
  | .qld o => (o.o < 32) && (o.r < 4) && (o.b < 32) && (o.d < 64)
  | .st o => (o.o < 32) && (o.r < 4) && (o.z < 4) && (o.a < 64) && (o.s < 64) && (goodGuard o.g)
  | .qst o => (o.o < 32) && (o.r < 4) && (o.a < 64) && (o.s < 64)
  | .atom o => (o.o < 8) && (o.s < 4) && (o.t < 8) && (o.a < 64) && (o.d < 64) && (goodGuard o.g) && (goodAtom o.o o.t)
  | .redm o => (o.o < 8) && (o.s < 4) && (o.t < 8) && (o.a < 64) && (o.d < 64) && (goodGuard o.g) && (goodRedm o.o o.t)
  | .cas o => (o.s < 4) && (o.t < 8) && (o.a < 64) && (o.d < 64) && (goodGuard o.g) && (o.t < 5)
  | .fence o => (o.s < 4) && (o.p < 256) && (o.c < 256) && (o.p != 0 && o.c != 0)
  | .pfence t => (t < 8) && (goodPaths t)
  | .wbr a l => (a < 64) && (l < 64)
  | .invr a l => (a < 64) && (l < 64)
  | .barAw n a => (n < 16) && (a < 64)
  | .barArv n a => (n < 16) && (a < 64)
  | .barWt n a => (n < 16) && (a < 64)
  | .gbarAw n a => (n < 16) && (a < 64)
  | .gbarArv n a => (n < 16) && (a < 64)
  | .gbarWt n a => (n < 16) && (a < 64)
  | .mwait o => (o.w < 4) && (o.c < 8) && (o.p < 8) && (o.a < 64) && (o.v < 64) && (o.w < 2 && o.c < 6)
  | .sigd o => (o.s < 4) && (o.a < 64) && (o.v < 64)
  | .send o => (o.c < 16) && (o.n < 4) && (o.a < 64) && (o.n < 2)
  | .recv o => (o.c < 16) && (o.n < 4) && (o.d < 64) && (o.n < 2)
  | .chq c d => (c < 16) && (d < 64)
  | .tnew d => (d < 64)
  | .tfree d => (d < 64)
  | .tpass a d => (a < 64) && (d < 64)
  | .tbind a d => (a < 64) && (d < 64)
  | .tfetch d => (d < 64)
  | .tevict d => (d < 64)
  | .twait d => (d < 64)
  | .tld a d => (a < 64) && (d < 64)
  | .tst a d => (a < 64) && (d < 64)
  | .tget o => (o.b < 64) && (o.a < 64) && (o.d < 64) && (o.c < 2)
  | .tset o => (o.b < 64) && (o.a < 64) && (o.d < 64) && (o.c < 2)
  | .tadds o => (o.b < 64) && (o.a < 64) && (o.d < 64)
  | .tmuls o => (o.b < 64) && (o.a < 64) && (o.d < 64)
  | .texps o => (o.b < 64) && (o.a < 64) && (o.d < 64)
  | .tfill o => (o.b < 64) && (o.a < 64) && (o.d < 64)
  | .tclmp o => (o.b < 64) && (o.a < 64) && (o.d < 64)
  | .tcvt o => (o.t < 64) && (o.a < 64) && (o.d < 64) && (o.s < 2) && (o.r < 8) && (o.r < 6)
  | .mma o => (o.b < 64) && (o.a < 64) && (o.d < 64)
  | .mmp o => (o.b < 64) && (o.a < 64) && (o.d < 64)
  | .mmz d => (d < 64)
  | .acq n d => (n < 64) && (d < 64) && (n != 0 && n < 17)
  | .acr d => (d < 64)
  | .acrd o => (o.b < 64) && (o.a < 64) && (o.d < 64) && (o.l < 2) && (o.r < 8) && (o.r < 6)
  | .acld a d => (a < 64) && (d < 64)
  | .cego a => (a < 64)
  | .gxgo a => (a < 64)
  | .wpush n a => (n < 8) && (a < 64)
  | .wpop p d => (p < 8) && (d < 64)
  | .quies p => (p < 8)
  | .trap i => (i < 65536)
  | .tret => true
  | .yield => true
  | .exit => true
  | .spawn a => (a < 64)
  | .kill a => (a < 64)
  | .csrr c d => (c < 4096) && (d < 64)
  | .csrw cnum qs => (cnum < 4096) && (qs < 64) && (cnum % 8 == qs / 8)
  | .csrCtlbiWrite .. => true
  | .csrCbndReload .. => true
  | .csrCbndWrite .. => true
  | .uli d i => (d < 16) && (i < 524288)
  | .uaddi o => (o.d < 16) && (o.a < 16) && (o.i < 32768)
  | .uadd o => (o.d < 16) && (o.a < 16) && (o.b < 16)
  | .usub o => (o.d < 16) && (o.a < 16) && (o.b < 16)
  | .uand o => (o.d < 16) && (o.a < 16) && (o.b < 16)
  | .uor o => (o.d < 16) && (o.a < 16) && (o.b < 16)
  | .ushl o => (o.d < 16) && (o.a < 16) && (o.b < 16)
  | .ushr o => (o.d < 16) && (o.a < 16) && (o.b < 16)
  | .uld o => (o.d < 16) && (o.a < 16) && (o.i < 32768)
  | .ust o => (o.a < 16) && (o.b < 16) && (o.i < 32768)
  | .ubr o => (o.a < 16) && (o.b < 16) && (o.c < 8) && (o.o < 65536) && (o.c < 6)
  | .ujmp o => (o < 65536)
  | .uend => true
  | .ufault i => (i < 32768)
  | .ucomb a b => (a < 16) && (b < 16)
  | .ufwd a => (a < 16)
  | .umcast a => (a < 16)
  | .uwr a => (a < 16)
  | .uopt a => (a < 16)
  | .usig a => (a < 16)
  | .udone d => (d < 16)
  | .uget d a => (d < 16) && (a < 16)
  | .joinArrive => true
  | .rwaitTimeout => true
  | .yieldExpire => true
  | .barrierArrivalTaken => true
  | .gbarPhaseMessage => true
  | .monitorWake => true
  | .channelStall => true
  | .channelPacketReceive => true
  | .channelCredit => true
  | .loadDataReturn => true
  | .storeLeaveQueue => true
  | .fenceComplete => true
  | .translationWalkComplete => true
  | .trapEntry => true
  | .lateEngineFault => true
  | .laneLineFill => true
  | .frameGrant => true
  | .fillEnd => true
  | .mmpStart => true
  | .mmaPerform => true
  | .engineEntryReach => true
  | .blockStart => true
  | .blockEnd => true
  | .launchAccept => true
  | .schedule => true
  | .prioritySwapOut => true
  | .launchComplete => true
  | .launchKillComplete => true
  | .hqDoorbell => true
  | .hqEnable => true
  | .hqDisable => true
  | .hqbaseWrite => true
  | .mgmtDoorbell => true
  | .ctxTableWrite => true
  | .ctxSwapOut => true
  | .ctxRestore => true
  | .ctxEvictGroups => true
  | .ctxRestoreGroups => true
  | .ctxFlushLines => true
  | .ctxcmdComplete => true
  | .cohortSwapOut => true
  | .cohortRestore => true
  | .tlbinvAll => true
  | .tlbinvPage => true
  | .tlbinvComplete => true
  | .wbctxWrite => true
  | .packetRoute => true
  | .probeLaunch => true
  | .probeHop => true
  | .recoveryGrant => true
  | .rotationTokenReturn => true
  | .escapeReinject => true
  | .sliceAccess => true
  | .sliceFillComplete => true
  | .sliceWriteback => true
  | .scrubLine => true
  | .fsPeriodStart => true
  | .fsbudWrite => true
  | .governorWindow => true
  | .powerEstimate => true
  | .awcfgEnable => true
  | .awcfgDisable => true
  | .awRegisterWrite => true
  | .awContribution => true
  | .segmentReceive => true
  | .handlerStart => true
  | .bucketSpill => true
  | .ueRetransmit => true
  | .fabricPacketReceive => true
  | .fabricAck => true
  | .laneFailure => true
  | .linkRetrainDone => true
  | .flctlRetrain => true
  | .peerAccessTimeout => true
  | .peerAccessReceive => true
  | .hostWrite => true
  | .hostRead => true
  | .errRingEnable => true
  | .errRingDisable => true
  | .errcfgWrite => true
  | .errCorrectionPeriod => true
  | .katInject => true
  | .scanApply => true
  | .scanTest => true
  | .scanComplete => true
  | .stkEnterCheckpoint => true
  | .stkTakeCheckpoint => true
  | .stkLeaveCheckpoint => true
  | .stkWarmResetRestore => true
  | .stkWarmResetNoRestore => true
  | .checkpointQuiet => true
  | .checkpointTimeout => true
  | .msgLogOverflow => true
  | .rtRaiseTestFloor => true
  | .rtSignBindingMap => true
  | .powerGood => true
  | .kilnRampStep => true
  | .bootLoader => true
  | .bootOs => true
  | .bootFirmware => true
  | .spdmGetVersion => true
  | .spdmGetCapabilities => true
  | .spdmNegotiateAlgorithms => true
  | .spdmGetDigests => true
  | .spdmGetCertificate => true
  | .spdmChallenge => true
  | .spdmGetMeasurements => true
  | .spdmUnsupportedRequest => true
  | .registerWrite => true
  | .illegalInstruction => true
  | .instructionFetchFault => true
  | .conditionalWaitPauseEnd => true
  | .bankAccess => true
  | .tileWriteComplete => true
  | .writeAcknowledgement => true
  | .writeBackDrain => true
  | .uncorrectableError => true
  | .powerLoss => true

/-- R49, R359: how many bytes the instruction takes; 0 for a row that has no encoding. -/
def Instr.size : Instr → Nat
  | .mov16 .. => 2
  | .iadd16 .. => 2
  | .isub16 .. => 2
  | .imul16 .. => 2
  | .and16 .. => 2
  | .or16 .. => 2
  | .xor16 .. => 2
  | .shli16 .. => 2
  | .shri16 .. => 2
  | .srai16 .. => 2
  | .addi16 .. => 2
  | .fadd16 .. => 2
  | .fsub16 .. => 2
  | .fmul16 .. => 2
  | .fmin16 .. => 2
  | .fmax16 .. => 2
  | .iadd .. => 4
  | .isub .. => 4
  | .imul .. => 4
  | .imulh .. => 4
  | .imulhn .. => 4
  | .imad .. => 4
  | .imin .. => 4
  | .imax .. => 4
  | .nmin .. => 4
  | .nmax .. => 4
  | .iabs .. => 4
  | .isad .. => 4
  | .land .. => 4
  | .lor .. => 4
  | .lxor .. => 4
  | .andn .. => 4
  | .shl .. => 4
  | .shr .. => 4
  | .sra .. => 4
  | .rot .. => 4
  | .popc .. => 4
  | .clz .. => 4
  | .brev .. => 4
  | .bfx .. => 4
  | .mov .. => 4
  | .sel .. => 4
  | .bfi .. => 4
  | .iaddc .. => 4
  | .iaddi .. => 4
  | .imuli .. => 4
  | .andi .. => 4
  | .ori .. => 4
  | .xori .. => 4
  | .isubri .. => 4
  | .shli .. => 4
  | .shri .. => 4
  | .srai .. => 4
  | .movi .. => 4
  | .fadd .. => 4
  | .fsub .. => 4
  | .fmul .. => 4
  | .ffma .. => 4
  | .fmin .. => 4
  | .fmax .. => 4
  | .fminn .. => 4
  | .fmaxn .. => 4
  | .frcp .. => 4
  | .frsq .. => 4
  | .fsqrt .. => 4
  | .fex2 .. => 4
  | .flg2 .. => 4
  | .fsin .. => 4
  | .fcos .. => 4
  | .ftanh .. => 4
  | .hadd .. => 4
  | .hsub .. => 4
  | .hmul .. => 4
  | .hfma .. => 4
  | .hmin .. => 4
  | .hmax .. => 4
  | .hdot2 .. => 4
  | .dadd .. => 4
  | .dsub .. => 4
  | .dmul .. => 4
  | .dfma .. => 4
  | .dmin .. => 4
  | .dmax .. => 4
  | .drcp .. => 4
  | .dsqrt .. => 4
  | .icmp .. => 4
  | .ncmp .. => 4
  | .fcmp .. => 4
  | .dcmp .. => 4
  | .pand .. => 4
  | .por .. => 4
  | .pxor .. => 4
  | .pnot .. => 4
  | .cvt .. => 4
  | .cvtb .. => 4
  | .sxexp .. => 4
  | .sxset .. => 4
  | .shflIdx .. => 4
  | .shflUp .. => 4
  | .shflDown .. => 4
  | .shflXor .. => 4
  | .voteAny .. => 4
  | .voteAll .. => 4
  | .voteBallot .. => 4
  | .red .. => 4
  | .scan .. => 4
  | .elect .. => 4
  | .qadd .. => 4
  | .qsub .. => 4
  | .qmul .. => 4
  | .qand .. => 4
  | .qor .. => 4
  | .qxor .. => 4
  | .qshl .. => 4
  | .qshr .. => 4
  | .qli .. => 4
  | .qaddi .. => 4
  | .qlui .. => 4
  | .v2q .. => 4
  | .q2v .. => 4
  | .movx .. => 4
  | .movs .. => 4
  | .bra .. => 4
  | .call .. => 4
  | .ret => 4
  | .jmpq .. => 4
  | .reconv .. => 4
  | .rwait .. => 4
  | .bisq .. => 4
  | .exitl => 4
  | .brk .. => 4
  | .nop => 4
  | .ld32 .. => 4
  | .ld64 .. => 4
  | .ldNarrow .. => 4
  | .ldk32 .. => 4
  | .ldk64 .. => 4
  | .qld .. => 4
  | .st .. => 4
  | .qst .. => 4
  | .atom .. => 4
  | .redm .. => 4
  | .cas .. => 4
  | .fence .. => 4
  | .pfence .. => 4
  | .wbr .. => 4
  | .invr .. => 4
  | .barAw .. => 4
  | .barArv .. => 4
  | .barWt .. => 4
  | .gbarAw .. => 4
  | .gbarArv .. => 4
  | .gbarWt .. => 4
  | .mwait .. => 4
  | .sigd .. => 4
  | .send .. => 4
  | .recv .. => 4
  | .chq .. => 4
  | .tnew .. => 4
  | .tfree .. => 4
  | .tpass .. => 4
  | .tbind .. => 4
  | .tfetch .. => 4
  | .tevict .. => 4
  | .twait .. => 4
  | .tld .. => 4
  | .tst .. => 4
  | .tget .. => 4
  | .tset .. => 4
  | .tadds .. => 4
  | .tmuls .. => 4
  | .texps .. => 4
  | .tfill .. => 4
  | .tclmp .. => 4
  | .tcvt .. => 4
  | .mma .. => 4
  | .mmp .. => 4
  | .mmz .. => 4
  | .acq .. => 4
  | .acr .. => 4
  | .acrd .. => 4
  | .acld .. => 4
  | .cego .. => 4
  | .gxgo .. => 4
  | .wpush .. => 4
  | .wpop .. => 4
  | .quies .. => 4
  | .trap .. => 4
  | .tret => 4
  | .yield => 4
  | .exit => 4
  | .spawn .. => 4
  | .kill .. => 4
  | .csrr .. => 4
  | .csrw .. => 4
  | .csrCtlbiWrite .. => 0
  | .csrCbndReload .. => 0
  | .csrCbndWrite .. => 0
  | .uli .. => 4
  | .uaddi .. => 4
  | .uadd .. => 4
  | .usub .. => 4
  | .uand .. => 4
  | .uor .. => 4
  | .ushl .. => 4
  | .ushr .. => 4
  | .uld .. => 4
  | .ust .. => 4
  | .ubr .. => 4
  | .ujmp .. => 4
  | .uend => 4
  | .ufault .. => 4
  | .ucomb .. => 4
  | .ufwd .. => 4
  | .umcast .. => 4
  | .uwr .. => 4
  | .uopt .. => 4
  | .usig .. => 4
  | .udone .. => 4
  | .uget .. => 4
  | .joinArrive => 0
  | .rwaitTimeout => 0
  | .yieldExpire => 0
  | .barrierArrivalTaken => 0
  | .gbarPhaseMessage => 0
  | .monitorWake => 0
  | .channelStall => 0
  | .channelPacketReceive => 0
  | .channelCredit => 0
  | .loadDataReturn => 0
  | .storeLeaveQueue => 0
  | .fenceComplete => 0
  | .translationWalkComplete => 0
  | .trapEntry => 0
  | .lateEngineFault => 0
  | .laneLineFill => 0
  | .frameGrant => 0
  | .fillEnd => 0
  | .mmpStart => 0
  | .mmaPerform => 0
  | .engineEntryReach => 0
  | .blockStart => 0
  | .blockEnd => 0
  | .launchAccept => 0
  | .schedule => 0
  | .prioritySwapOut => 0
  | .launchComplete => 0
  | .launchKillComplete => 0
  | .hqDoorbell => 0
  | .hqEnable => 0
  | .hqDisable => 0
  | .hqbaseWrite => 0
  | .mgmtDoorbell => 0
  | .ctxTableWrite => 0
  | .ctxSwapOut => 0
  | .ctxRestore => 0
  | .ctxEvictGroups => 0
  | .ctxRestoreGroups => 0
  | .ctxFlushLines => 0
  | .ctxcmdComplete => 0
  | .cohortSwapOut => 0
  | .cohortRestore => 0
  | .tlbinvAll => 0
  | .tlbinvPage => 0
  | .tlbinvComplete => 0
  | .wbctxWrite => 0
  | .packetRoute => 0
  | .probeLaunch => 0
  | .probeHop => 0
  | .recoveryGrant => 0
  | .rotationTokenReturn => 0
  | .escapeReinject => 0
  | .sliceAccess => 0
  | .sliceFillComplete => 0
  | .sliceWriteback => 0
  | .scrubLine => 0
  | .fsPeriodStart => 0
  | .fsbudWrite => 0
  | .governorWindow => 0
  | .powerEstimate => 0
  | .awcfgEnable => 0
  | .awcfgDisable => 0
  | .awRegisterWrite => 0
  | .awContribution => 0
  | .segmentReceive => 0
  | .handlerStart => 0
  | .bucketSpill => 0
  | .ueRetransmit => 0
  | .fabricPacketReceive => 0
  | .fabricAck => 0
  | .laneFailure => 0
  | .linkRetrainDone => 0
  | .flctlRetrain => 0
  | .peerAccessTimeout => 0
  | .peerAccessReceive => 0
  | .hostWrite => 0
  | .hostRead => 0
  | .errRingEnable => 0
  | .errRingDisable => 0
  | .errcfgWrite => 0
  | .errCorrectionPeriod => 0
  | .katInject => 0
  | .scanApply => 0
  | .scanTest => 0
  | .scanComplete => 0
  | .stkEnterCheckpoint => 0
  | .stkTakeCheckpoint => 0
  | .stkLeaveCheckpoint => 0
  | .stkWarmResetRestore => 0
  | .stkWarmResetNoRestore => 0
  | .checkpointQuiet => 0
  | .checkpointTimeout => 0
  | .msgLogOverflow => 0
  | .rtRaiseTestFloor => 0
  | .rtSignBindingMap => 0
  | .powerGood => 0
  | .kilnRampStep => 0
  | .bootLoader => 0
  | .bootOs => 0
  | .bootFirmware => 0
  | .spdmGetVersion => 0
  | .spdmGetCapabilities => 0
  | .spdmNegotiateAlgorithms => 0
  | .spdmGetDigests => 0
  | .spdmGetCertificate => 0
  | .spdmChallenge => 0
  | .spdmGetMeasurements => 0
  | .spdmUnsupportedRequest => 0
  | .registerWrite => 0
  | .illegalInstruction => 0
  | .instructionFetchFault => 0
  | .conditionalWaitPauseEnd => 0
  | .bankAccess => 0
  | .tileWriteComplete => 0
  | .writeAcknowledgement => 0
  | .writeBackDrain => 0
  | .uncorrectableError => 0
  | .powerLoss => 0

/-- R359: a word of the Uliah engine's program memory, not of a cohort's program. -/
def Instr.isUliah : Instr → Bool
  | .uli .. => true
  | .uaddi .. => true
  | .uadd .. => true
  | .usub .. => true
  | .uand .. => true
  | .uor .. => true
  | .ushl .. => true
  | .ushr .. => true
  | .uld .. => true
  | .ust .. => true
  | .ubr .. => true
  | .ujmp .. => true
  | .uend => true
  | .ufault .. => true
  | .ucomb .. => true
  | .ufwd .. => true
  | .umcast .. => true
  | .uwr .. => true
  | .uopt .. => true
  | .usig .. => true
  | .udone .. => true
  | .uget .. => true
  | _ => false

end Sys2Proof
end

