-- ==== Sys2Proof/Decode.lean ====
section
/-! DEFINITION. The decoder of the core's words (R49 to R68) and of the Uliah engine's (R360, R361), total on any bytes,
and the encoder written from the same fields. -/

namespace Sys2Proof

/-- Bits [hi:lo] of a word. -/
def fld (w hi lo : Nat) : Nat := w / 2 ^ lo % 2 ^ (hi + 1 - lo)

/-- R51, R52: the sixteen-bit forms by their operation field. -/
def decode16 (w : Nat) : Option Instr :=
  match fld w 4 1 with
  | 0 => some (.mov16 (fld w 15 11) (fld w 10 5))
  | 1 => some (.iadd16 (fld w 15 11) (fld w 10 5))
  | 2 => some (.isub16 (fld w 15 11) (fld w 10 5))
  | 3 => some (.imul16 (fld w 15 11) (fld w 10 5))
  | 4 => some (.and16 (fld w 15 11) (fld w 10 5))
  | 5 => some (.or16 (fld w 15 11) (fld w 10 5))
  | 6 => some (.xor16 (fld w 15 11) (fld w 10 5))
  | 7 => some (.shli16 (fld w 15 11) (fld w 10 5))
  | 8 => some (.shri16 (fld w 15 11) (fld w 10 5))
  | 9 => some (.srai16 (fld w 15 11) (fld w 10 5))
  | 10 => some (.addi16 (fld w 15 11) (fld w 10 5))
  | 11 => some (.fadd16 (fld w 15 11) (fld w 10 5))
  | 12 => some (.fsub16 (fld w 15 11) (fld w 10 5))
  | 13 => some (.fmul16 (fld w 15 11) (fld w 10 5))
  | 14 => some (.fmin16 (fld w 15 11) (fld w 10 5))
  | 15 => some (.fmax16 (fld w 15 11) (fld w 10 5))
  | _ => none

/-- R56: major opcode 0x01. -/
def decodeMajor01 (w : Nat) : Option Instr :=
  if fld w 31 30 = 0 then some (.iadd ⟨fld w 29 29, fld w 28 23, fld w 22 17, fld w 16 11, fld w 10 7⟩) else
  if fld w 31 30 = 1 then some (.isub ⟨fld w 29 29, fld w 28 23, fld w 22 17, fld w 16 11, fld w 10 7⟩) else
  if fld w 31 30 = 2 then some (.imul ⟨fld w 29 29, fld w 28 23, fld w 22 17, fld w 16 11, fld w 10 7⟩) else
  if fld w 31 30 = 3 then some (.imulh ⟨fld w 29 29, fld w 28 23, fld w 22 17, fld w 16 11, fld w 10 7⟩) else
  none

/-- R56: major opcode 0x02. -/
def decodeMajor02 (w : Nat) : Option Instr :=
  if fld w 31 30 = 0 then some (.imulhn ⟨fld w 29 29, fld w 28 23, fld w 22 17, fld w 16 11, fld w 10 7⟩) else
  if fld w 31 30 = 1 then some (.imad ⟨fld w 29 29, fld w 28 23, fld w 22 17, fld w 16 11, fld w 10 7⟩) else
  if fld w 31 30 = 2 then some (.imin ⟨fld w 29 29, fld w 28 23, fld w 22 17, fld w 16 11, fld w 10 7⟩) else
  if fld w 31 30 = 3 then some (.imax ⟨fld w 29 29, fld w 28 23, fld w 22 17, fld w 16 11, fld w 10 7⟩) else
  none

/-- R56: major opcode 0x03. -/
def decodeMajor03 (w : Nat) : Option Instr :=
  if fld w 31 30 = 0 then some (.nmin ⟨fld w 29 29, fld w 28 23, fld w 22 17, fld w 16 11, fld w 10 7⟩) else
  if fld w 31 30 = 1 then some (.nmax ⟨fld w 29 29, fld w 28 23, fld w 22 17, fld w 16 11, fld w 10 7⟩) else
  if fld w 31 23 = 256 then some (.iabs ⟨fld w 22 17, fld w 16 11, fld w 10 7⟩) else
  if fld w 31 30 = 3 then some (.isad ⟨fld w 29 29, fld w 28 23, fld w 22 17, fld w 16 11, fld w 10 7⟩) else
  none

/-- R56: major opcode 0x04. -/
def decodeMajor04 (w : Nat) : Option Instr :=
  if fld w 31 30 = 0 then some (.land ⟨fld w 29 29, fld w 28 23, fld w 22 17, fld w 16 11, fld w 10 7⟩) else
  if fld w 31 30 = 1 then some (.lor ⟨fld w 29 29, fld w 28 23, fld w 22 17, fld w 16 11, fld w 10 7⟩) else
  if fld w 31 30 = 2 then some (.lxor ⟨fld w 29 29, fld w 28 23, fld w 22 17, fld w 16 11, fld w 10 7⟩) else
  if fld w 31 30 = 3 then some (.andn ⟨fld w 29 29, fld w 28 23, fld w 22 17, fld w 16 11, fld w 10 7⟩) else
  none

/-- R56: major opcode 0x05. -/
def decodeMajor05 (w : Nat) : Option Instr :=
  if fld w 31 30 = 0 then some (.shl ⟨fld w 29 29, fld w 28 23, fld w 22 17, fld w 16 11, fld w 10 7⟩) else
  if fld w 31 30 = 1 then some (.shr ⟨fld w 29 29, fld w 28 23, fld w 22 17, fld w 16 11, fld w 10 7⟩) else
  if fld w 31 30 = 2 then some (.sra ⟨fld w 29 29, fld w 28 23, fld w 22 17, fld w 16 11, fld w 10 7⟩) else
  if fld w 31 30 = 3 then some (.rot ⟨fld w 29 29, fld w 28 23, fld w 22 17, fld w 16 11, fld w 10 7⟩) else
  none

/-- R56: major opcode 0x06. -/
def decodeMajor06 (w : Nat) : Option Instr :=
  if fld w 31 23 = 0 then some (.popc ⟨fld w 22 17, fld w 16 11, fld w 10 7⟩) else
  if fld w 31 23 = 128 then some (.clz ⟨fld w 22 17, fld w 16 11, fld w 10 7⟩) else
  if fld w 31 23 = 256 then some (.brev ⟨fld w 22 17, fld w 16 11, fld w 10 7⟩) else
  if fld w 31 30 = 3 then some (.bfx ⟨fld w 29 29, fld w 28 23, fld w 22 17, fld w 16 11, fld w 10 7⟩) else
  none

/-- R56: major opcode 0x07. -/
def decodeMajor07 (w : Nat) : Option Instr :=
  if fld w 31 23 = 0 then some (.mov ⟨fld w 22 17, fld w 16 11, fld w 10 7⟩) else
  if fld w 31 30 = 1 then some (.sel ⟨fld w 29 29, fld w 28 23, fld w 22 17, fld w 16 11, fld w 10 7⟩) else
  if fld w 31 30 = 2 then some (.bfi ⟨fld w 29 29, fld w 28 23, fld w 22 17, fld w 16 11, fld w 10 7⟩) else
  if fld w 31 30 = 3 then some (.iaddc ⟨fld w 29 29, fld w 28 23, fld w 22 17, fld w 16 11, fld w 10 7⟩) else
  none

/-- R56: major opcode 0x08. -/
def decodeMajor08 (w : Nat) : Option Instr :=
  some (.iaddi ⟨fld w 31 23, fld w 22 17, fld w 16 11, fld w 10 7⟩)

/-- R56: major opcode 0x09. -/
def decodeMajor09 (w : Nat) : Option Instr :=
  some (.imuli ⟨fld w 31 23, fld w 22 17, fld w 16 11, fld w 10 7⟩)

/-- R56: major opcode 0x0a. -/
def decodeMajor0A (w : Nat) : Option Instr :=
  if fld w 31 30 = 0 then some (.andi ⟨fld w 29 23, fld w 22 17, fld w 16 11, fld w 10 7⟩) else
  if fld w 31 30 = 1 then some (.ori ⟨fld w 29 23, fld w 22 17, fld w 16 11, fld w 10 7⟩) else
  if fld w 31 30 = 2 then some (.xori ⟨fld w 29 23, fld w 22 17, fld w 16 11, fld w 10 7⟩) else
  if fld w 31 30 = 3 then some (.isubri ⟨fld w 29 23, fld w 22 17, fld w 16 11, fld w 10 7⟩) else
  none

/-- R56: major opcode 0x0b. -/
def decodeMajor0B (w : Nat) : Option Instr :=
  if fld w 31 28 = 0 then some (.shli ⟨fld w 27 23, fld w 22 17, fld w 16 11, fld w 10 7⟩) else
  if fld w 31 28 = 4 then some (.shri ⟨fld w 27 23, fld w 22 17, fld w 16 11, fld w 10 7⟩) else
  if fld w 31 28 = 8 then some (.srai ⟨fld w 27 23, fld w 22 17, fld w 16 11, fld w 10 7⟩) else
  if fld w 31 30 = 3 then some (.movi ⟨fld w 29 17, fld w 16 11, fld w 10 7⟩) else
  none

/-- R56: major opcode 0x0c. -/
def decodeMajor0C (w : Nat) : Option Instr :=
  if fld w 31 30 = 0 then some (.fadd ⟨fld w 29 29, fld w 28 23, fld w 22 17, fld w 16 11, fld w 10 7⟩) else
  if fld w 31 30 = 1 then some (.fsub ⟨fld w 29 29, fld w 28 23, fld w 22 17, fld w 16 11, fld w 10 7⟩) else
  if fld w 31 30 = 2 then some (.fmul ⟨fld w 29 29, fld w 28 23, fld w 22 17, fld w 16 11, fld w 10 7⟩) else
  if fld w 31 30 = 3 then some (.ffma ⟨fld w 29 29, fld w 28 23, fld w 22 17, fld w 16 11, fld w 10 7⟩) else
  none

/-- R56: major opcode 0x0d. -/
def decodeMajor0D (w : Nat) : Option Instr :=
  if fld w 31 30 = 0 then some (.fmin ⟨fld w 29 29, fld w 28 23, fld w 22 17, fld w 16 11, fld w 10 7⟩) else
  if fld w 31 30 = 1 then some (.fmax ⟨fld w 29 29, fld w 28 23, fld w 22 17, fld w 16 11, fld w 10 7⟩) else
  if fld w 31 30 = 2 then some (.fminn ⟨fld w 29 29, fld w 28 23, fld w 22 17, fld w 16 11, fld w 10 7⟩) else
  if fld w 31 30 = 3 then some (.fmaxn ⟨fld w 29 29, fld w 28 23, fld w 22 17, fld w 16 11, fld w 10 7⟩) else
  none

/-- R56: major opcode 0x0e. -/
def decodeMajor0E (w : Nat) : Option Instr :=
  if fld w 31 23 = 0 then some (.frcp ⟨fld w 22 17, fld w 16 11, fld w 10 7⟩) else
  if fld w 31 23 = 128 then some (.frsq ⟨fld w 22 17, fld w 16 11, fld w 10 7⟩) else
  if fld w 31 23 = 256 then some (.fsqrt ⟨fld w 22 17, fld w 16 11, fld w 10 7⟩) else
  if fld w 31 23 = 384 then some (.fex2 ⟨fld w 22 17, fld w 16 11, fld w 10 7⟩) else
  none

/-- R56: major opcode 0x0f. -/
def decodeMajor0F (w : Nat) : Option Instr :=
  if fld w 31 23 = 0 then some (.flg2 ⟨fld w 22 17, fld w 16 11, fld w 10 7⟩) else
  if fld w 31 23 = 128 then some (.fsin ⟨fld w 22 17, fld w 16 11, fld w 10 7⟩) else
  if fld w 31 23 = 256 then some (.fcos ⟨fld w 22 17, fld w 16 11, fld w 10 7⟩) else
  if fld w 31 23 = 384 then some (.ftanh ⟨fld w 22 17, fld w 16 11, fld w 10 7⟩) else
  none

/-- R56: major opcode 0x10. -/
def decodeMajor10 (w : Nat) : Option Instr :=
  if fld w 31 30 = 0 then some (.hadd ⟨fld w 29 29, fld w 28 23, fld w 22 17, fld w 16 11, fld w 10 7⟩) else
  if fld w 31 30 = 1 then some (.hsub ⟨fld w 29 29, fld w 28 23, fld w 22 17, fld w 16 11, fld w 10 7⟩) else
  if fld w 31 30 = 2 then some (.hmul ⟨fld w 29 29, fld w 28 23, fld w 22 17, fld w 16 11, fld w 10 7⟩) else
  if fld w 31 30 = 3 then some (.hfma ⟨fld w 29 29, fld w 28 23, fld w 22 17, fld w 16 11, fld w 10 7⟩) else
  none

/-- R56: major opcode 0x11. -/
def decodeMajor11 (w : Nat) : Option Instr :=
  if fld w 31 30 = 0 then some (.hmin ⟨fld w 29 29, fld w 28 23, fld w 22 17, fld w 16 11, fld w 10 7⟩) else
  if fld w 31 30 = 1 then some (.hmax ⟨fld w 29 29, fld w 28 23, fld w 22 17, fld w 16 11, fld w 10 7⟩) else
  if fld w 31 30 = 2 then some (.hdot2 ⟨fld w 29 29, fld w 28 23, fld w 22 17, fld w 16 11, fld w 10 7⟩) else
  none

/-- R56: major opcode 0x12. -/
def decodeMajor12 (w : Nat) : Option Instr :=
  if fld w 31 30 = 0 then some (.dadd ⟨fld w 29 29, fld w 28 23, fld w 22 17, fld w 16 11, fld w 10 7⟩) else
  if fld w 31 30 = 1 then some (.dsub ⟨fld w 29 29, fld w 28 23, fld w 22 17, fld w 16 11, fld w 10 7⟩) else
  if fld w 31 30 = 2 then some (.dmul ⟨fld w 29 29, fld w 28 23, fld w 22 17, fld w 16 11, fld w 10 7⟩) else
  if fld w 31 30 = 3 then some (.dfma ⟨fld w 29 29, fld w 28 23, fld w 22 17, fld w 16 11, fld w 10 7⟩) else
  none

/-- R56: major opcode 0x13. -/
def decodeMajor13 (w : Nat) : Option Instr :=
  if fld w 31 30 = 0 then some (.dmin ⟨fld w 29 29, fld w 28 23, fld w 22 17, fld w 16 11, fld w 10 7⟩) else
  if fld w 31 30 = 1 then some (.dmax ⟨fld w 29 29, fld w 28 23, fld w 22 17, fld w 16 11, fld w 10 7⟩) else
  if fld w 31 23 = 256 then some (.drcp ⟨fld w 22 17, fld w 16 11, fld w 10 7⟩) else
  if fld w 31 23 = 384 then some (.dsqrt ⟨fld w 22 17, fld w 16 11, fld w 10 7⟩) else
  none

/-- R56: major opcode 0x14. -/
def decodeMajor14 (w : Nat) : Option Instr :=
  if fld w 31 30 = 0 then some (.icmp ⟨fld w 29 29, fld w 28 23, fld w 22 17, fld w 16 14, fld w 13 11, fld w 10 7⟩) else
  if fld w 31 30 = 1 then some (.ncmp ⟨fld w 29 29, fld w 28 23, fld w 22 17, fld w 16 14, fld w 13 11, fld w 10 7⟩) else
  if fld w 31 30 = 2 then some (.fcmp ⟨fld w 29 29, fld w 28 23, fld w 22 17, fld w 16 14, fld w 13 11, fld w 10 7⟩) else
  if fld w 31 30 = 3 then some (.dcmp ⟨fld w 29 29, fld w 28 23, fld w 22 17, fld w 16 14, fld w 13 11, fld w 10 7⟩) else
  none

/-- R56: major opcode 0x15. -/
def decodeMajor15 (w : Nat) : Option Instr :=
  if fld w 13 11 = 0 ∧ fld w 19 17 = 0 ∧ fld w 25 23 = 0 ∧ fld w 31 29 = 0 then some (.pand ⟨fld w 28 26, fld w 22 20, fld w 16 14, fld w 10 7⟩) else
  if fld w 13 11 = 0 ∧ fld w 19 17 = 0 ∧ fld w 25 23 = 0 ∧ fld w 31 29 = 2 then some (.por ⟨fld w 28 26, fld w 22 20, fld w 16 14, fld w 10 7⟩) else
  if fld w 13 11 = 0 ∧ fld w 19 17 = 0 ∧ fld w 25 23 = 0 ∧ fld w 31 29 = 4 then some (.pxor ⟨fld w 28 26, fld w 22 20, fld w 16 14, fld w 10 7⟩) else
  if fld w 13 11 = 0 ∧ fld w 19 17 = 0 ∧ fld w 31 23 = 384 then some (.pnot ⟨fld w 22 20, fld w 16 14, fld w 10 7⟩) else
  none

/-- R56: major opcode 0x16. -/
def decodeMajor16 (w : Nat) : Option Instr :=
  if fld w 31 30 = 0 then some (.cvt ⟨fld w 29 29, fld w 28 23, fld w 22 17, fld w 16 11, fld w 10 7⟩) else
  if fld w 31 30 = 1 then some (.cvtb ⟨fld w 29 29, fld w 28 23, fld w 22 17, fld w 16 11, fld w 10 7⟩) else
  if fld w 31 23 = 256 then some (.sxexp ⟨fld w 22 17, fld w 16 11, fld w 10 7⟩) else
  if fld w 31 30 = 3 then some (.sxset ⟨fld w 29 29, fld w 28 23, fld w 22 17, fld w 16 11, fld w 10 7⟩) else
  none

/-- R56: major opcode 0x17. -/
def decodeMajor17 (w : Nat) : Option Instr :=
  if fld w 31 30 = 0 then some (.shflIdx ⟨fld w 29 29, fld w 28 23, fld w 22 17, fld w 16 11, fld w 10 7⟩) else
  if fld w 31 30 = 1 then some (.shflUp ⟨fld w 29 29, fld w 28 23, fld w 22 17, fld w 16 11, fld w 10 7⟩) else
  if fld w 31 30 = 2 then some (.shflDown ⟨fld w 29 29, fld w 28 23, fld w 22 17, fld w 16 11, fld w 10 7⟩) else
  if fld w 31 30 = 3 then some (.shflXor ⟨fld w 29 29, fld w 28 23, fld w 22 17, fld w 16 11, fld w 10 7⟩) else
  none

/-- R56: major opcode 0x18. -/
def decodeMajor18 (w : Nat) : Option Instr :=
  if fld w 13 11 = 0 ∧ fld w 31 20 = 0 then some (.voteAny ⟨fld w 19 17, fld w 16 14, fld w 10 7⟩) else
  if fld w 13 11 = 0 ∧ fld w 31 20 = 8 then some (.voteAll ⟨fld w 19 17, fld w 16 14, fld w 10 7⟩) else
  if fld w 31 20 = 16 then some (.voteBallot ⟨fld w 19 17, fld w 16 11, fld w 10 7⟩) else
  if fld w 31 29 = 2 then some (.red ⟨fld w 28 23, fld w 22 17, fld w 16 11, fld w 10 7⟩) else
  if fld w 31 29 = 4 then some (.scan ⟨fld w 28 23, fld w 22 17, fld w 16 11, fld w 10 7⟩) else
  if fld w 13 11 = 0 ∧ fld w 31 17 = 24576 then some (.elect (fld w 16 14) (fld w 10 7)) else
  none

/-- R56: major opcode 0x19. -/
def decodeMajor19 (w : Nat) : Option Instr :=
  if fld w 10 7 = 0 ∧ fld w 31 29 = 0 then some (.qadd ⟨fld w 28 23, fld w 22 17, fld w 16 11⟩) else
  if fld w 10 7 = 0 ∧ fld w 31 29 = 2 then some (.qsub ⟨fld w 28 23, fld w 22 17, fld w 16 11⟩) else
  if fld w 10 7 = 0 ∧ fld w 31 29 = 4 then some (.qmul ⟨fld w 28 23, fld w 22 17, fld w 16 11⟩) else
  if fld w 10 7 = 0 ∧ fld w 31 29 = 6 then some (.qand ⟨fld w 28 23, fld w 22 17, fld w 16 11⟩) else
  none

/-- R56: major opcode 0x1a. -/
def decodeMajor1A (w : Nat) : Option Instr :=
  if fld w 10 7 = 0 ∧ fld w 31 29 = 0 then some (.qor ⟨fld w 28 23, fld w 22 17, fld w 16 11⟩) else
  if fld w 10 7 = 0 ∧ fld w 31 29 = 2 then some (.qxor ⟨fld w 28 23, fld w 22 17, fld w 16 11⟩) else
  if fld w 10 7 = 0 ∧ fld w 31 29 = 4 then some (.qshl ⟨fld w 28 23, fld w 22 17, fld w 16 11⟩) else
  if fld w 10 7 = 0 ∧ fld w 31 29 = 6 then some (.qshr ⟨fld w 28 23, fld w 22 17, fld w 16 11⟩) else
  none

/-- R56: major opcode 0x1b. -/
def decodeMajor1B (w : Nat) : Option Instr :=
  some (.qli (fld w 31 13) (fld w 12 7))

/-- R56: major opcode 0x1c. -/
def decodeMajor1C (w : Nat) : Option Instr :=
  if fld w 31 31 = 0 then some (.qaddi (fld w 30 13) (fld w 12 7)) else
  if fld w 31 31 = 1 then some (.qlui (fld w 30 13) (fld w 12 7)) else
  none

/-- R56: major opcode 0x1d. -/
def decodeMajor1D (w : Nat) : Option Instr :=
  if fld w 10 7 = 0 ∧ fld w 31 23 = 0 then some (.v2q (fld w 22 17) (fld w 16 11)) else
  if fld w 31 23 = 128 then some (.q2v ⟨fld w 22 17, fld w 16 11, fld w 10 7⟩) else
  if fld w 18 17 = 0 ∧ fld w 31 30 = 2 then some (.movx ⟨fld w 29 29, fld w 28 19, fld w 16 11, fld w 10 7⟩) else
  if fld w 10 7 = 0 ∧ fld w 18 17 = 0 ∧ fld w 31 30 = 3 then some (.movs ⟨fld w 29 29, fld w 28 19, fld w 16 11⟩) else
  none

/-- R56: major opcode 0x1e. -/
def decodeMajor1E (w : Nat) : Option Instr :=
  some (.bra (fld w 31 11) (fld w 10 7))

/-- R56: major opcode 0x1f. -/
def decodeMajor1F (w : Nat) : Option Instr :=
  if fld w 10 7 = 0 then some (.call (fld w 31 11)) else
  none

/-- R56: major opcode 0x20. -/
def decodeMajor20 (w : Nat) : Option Instr :=
  if fld w 31 7 = 0 then some .ret else
  if fld w 16 7 = 1 ∧ fld w 31 23 = 0 then some (.jmpq (fld w 22 17)) else
  if fld w 10 7 = 2 then some (.reconv (fld w 31 11)) else
  if fld w 16 7 = 3 ∧ fld w 31 23 = 0 then some (.rwait (fld w 22 17)) else
  if fld w 16 7 = 4 ∧ fld w 31 23 = 0 then some (.bisq (fld w 22 17)) else
  if fld w 31 7 = 5 then some .exitl else
  if fld w 10 7 = 6 ∧ fld w 31 27 = 0 then some (.brk (fld w 26 11)) else
  if fld w 31 7 = 7 then some .nop else
  none

/-- R56: major opcode 0x21. -/
def decodeMajor21 (w : Nat) : Option Instr :=
  some (.ld32 ⟨fld w 31 27, fld w 26 25, fld w 24 23, fld w 22 17, fld w 16 11, fld w 10 7⟩)

/-- R56: major opcode 0x22. -/
def decodeMajor22 (w : Nat) : Option Instr :=
  some (.ld64 ⟨fld w 31 27, fld w 26 25, fld w 24 23, fld w 22 17, fld w 16 11, fld w 10 7⟩)

/-- R56: major opcode 0x23. -/
def decodeMajor23 (w : Nat) : Option Instr :=
  if fld w 17 17 = 0 then some (.ldNarrow ⟨fld w 31 27, fld w 26 25, fld w 24 23, fld w 22 18, fld w 16 11, fld w 10 7⟩) else
  if fld w 17 17 = 1 ∧ fld w 24 23 = 0 then some (.ldk32 ⟨fld w 31 27, fld w 26 25, fld w 22 18, fld w 16 11, fld w 10 7⟩) else
  if fld w 17 17 = 1 ∧ fld w 24 23 = 1 then some (.ldk64 ⟨fld w 31 27, fld w 26 25, fld w 22 18, fld w 16 11, fld w 10 7⟩) else
  if fld w 10 7 = 0 ∧ fld w 17 17 = 1 ∧ fld w 24 23 = 2 then some (.qld ⟨fld w 31 27, fld w 26 25, fld w 22 18, fld w 16 11⟩) else
  none

/-- R56: major opcode 0x24. -/
def decodeMajor24 (w : Nat) : Option Instr :=
  some (.st ⟨fld w 31 27, fld w 26 25, fld w 24 23, fld w 22 17, fld w 16 11, fld w 10 7⟩)

/-- R56: major opcode 0x25. -/
def decodeMajor25 (w : Nat) : Option Instr :=
  if fld w 10 7 = 0 ∧ fld w 24 23 = 0 then some (.qst ⟨fld w 31 27, fld w 26 25, fld w 22 17, fld w 16 11⟩) else
  none

/-- R56: major opcode 0x26. -/
def decodeMajor26 (w : Nat) : Option Instr :=
  if fld w 31 31 = 0 then some (.atom ⟨fld w 30 28, fld w 27 26, fld w 25 23, fld w 22 17, fld w 16 11, fld w 10 7⟩) else
  if fld w 31 28 = 14 then some (.cas ⟨fld w 27 26, fld w 25 23, fld w 22 17, fld w 16 11, fld w 10 7⟩) else
  if fld w 31 31 = 1 then some (.redm ⟨fld w 30 28, fld w 27 26, fld w 25 23, fld w 22 17, fld w 16 11, fld w 10 7⟩) else
  none

/-- R56: major opcode 0x27. -/
def decodeMajor27 (w : Nat) : Option Instr :=
  if fld w 13 7 = 0 then some (.fence ⟨fld w 31 30, fld w 29 22, fld w 21 14⟩) else
  if fld w 10 7 = 1 ∧ fld w 31 14 = 0 then some (.pfence (fld w 13 11)) else
  if fld w 10 7 = 2 ∧ fld w 31 23 = 0 then some (.wbr (fld w 22 17) (fld w 16 11)) else
  if fld w 10 7 = 3 ∧ fld w 31 23 = 0 then some (.invr (fld w 22 17) (fld w 16 11)) else
  none

/-- R56: major opcode 0x28. -/
def decodeMajor28 (w : Nat) : Option Instr :=
  if fld w 16 7 = 0 ∧ fld w 31 27 = 0 then some (.barAw (fld w 26 23) (fld w 22 17)) else
  if fld w 16 7 = 1 ∧ fld w 31 27 = 0 then some (.barArv (fld w 26 23) (fld w 22 17)) else
  if fld w 16 7 = 2 ∧ fld w 31 27 = 0 then some (.barWt (fld w 26 23) (fld w 22 17)) else
  if fld w 16 7 = 3 ∧ fld w 31 27 = 0 then some (.gbarAw (fld w 26 23) (fld w 22 17)) else
  if fld w 16 7 = 4 ∧ fld w 31 27 = 0 then some (.gbarArv (fld w 26 23) (fld w 22 17)) else
  if fld w 16 7 = 5 ∧ fld w 31 27 = 0 then some (.gbarWt (fld w 26 23) (fld w 22 17)) else
  if fld w 10 7 = 6 ∧ fld w 26 26 = 0 then some (.mwait ⟨fld w 31 30, fld w 29 27, fld w 25 23, fld w 22 17, fld w 16 11⟩) else
  if fld w 10 7 = 7 ∧ fld w 29 23 = 0 then some (.sigd ⟨fld w 31 30, fld w 22 17, fld w 16 11⟩) else
  none

/-- R56: major opcode 0x29. -/
def decodeMajor29 (w : Nat) : Option Instr :=
  if fld w 16 7 = 0 ∧ fld w 25 23 = 0 then some (.send ⟨fld w 31 28, fld w 27 26, fld w 22 17⟩) else
  if fld w 10 7 = 1 ∧ fld w 25 17 = 0 then some (.recv ⟨fld w 31 28, fld w 27 26, fld w 16 11⟩) else
  if fld w 10 7 = 2 ∧ fld w 27 17 = 0 then some (.chq (fld w 31 28) (fld w 16 11)) else
  none

/-- R56: major opcode 0x2a. -/
def decodeMajor2A (w : Nat) : Option Instr :=
  if fld w 10 7 = 0 ∧ fld w 31 17 = 0 then some (.tnew (fld w 16 11)) else
  if fld w 10 7 = 0 ∧ fld w 31 17 = 4096 then some (.tfree (fld w 16 11)) else
  if fld w 10 7 = 0 ∧ fld w 31 23 = 128 then some (.tpass (fld w 22 17) (fld w 16 11)) else
  if fld w 10 7 = 0 ∧ fld w 31 23 = 192 then some (.tbind (fld w 22 17) (fld w 16 11)) else
  if fld w 10 7 = 0 ∧ fld w 31 17 = 16384 then some (.tfetch (fld w 16 11)) else
  if fld w 10 7 = 0 ∧ fld w 31 17 = 20480 then some (.tevict (fld w 16 11)) else
  if fld w 10 7 = 0 ∧ fld w 31 17 = 24576 then some (.twait (fld w 16 11)) else
  none

/-- R56: major opcode 0x2b. -/
def decodeMajor2B (w : Nat) : Option Instr :=
  if fld w 10 7 = 0 ∧ fld w 31 23 = 0 then some (.tld (fld w 22 17) (fld w 16 11)) else
  if fld w 10 7 = 0 ∧ fld w 31 23 = 64 then some (.tst (fld w 22 17) (fld w 16 11)) else
  if fld w 9 7 = 0 ∧ fld w 31 29 = 2 then some (.tget ⟨fld w 28 23, fld w 22 17, fld w 16 11, fld w 10 10⟩) else
  if fld w 9 7 = 0 ∧ fld w 31 29 = 3 then some (.tset ⟨fld w 28 23, fld w 22 17, fld w 16 11, fld w 10 10⟩) else
  none

/-- R56: major opcode 0x2c. -/
def decodeMajor2C (w : Nat) : Option Instr :=
  if fld w 10 7 = 0 ∧ fld w 31 29 = 0 then some (.tadds ⟨fld w 28 23, fld w 22 17, fld w 16 11⟩) else
  if fld w 10 7 = 0 ∧ fld w 31 29 = 1 then some (.tmuls ⟨fld w 28 23, fld w 22 17, fld w 16 11⟩) else
  if fld w 10 7 = 0 ∧ fld w 31 29 = 2 then some (.texps ⟨fld w 28 23, fld w 22 17, fld w 16 11⟩) else
  if fld w 10 7 = 0 ∧ fld w 31 29 = 3 then some (.tfill ⟨fld w 28 23, fld w 22 17, fld w 16 11⟩) else
  if fld w 10 7 = 0 ∧ fld w 31 29 = 4 then some (.tclmp ⟨fld w 28 23, fld w 22 17, fld w 16 11⟩) else
  if fld w 31 29 = 5 then some (.tcvt ⟨fld w 28 23, fld w 22 17, fld w 16 11, fld w 10 10, fld w 9 7⟩) else
  none

/-- R56: major opcode 0x2d. -/
def decodeMajor2D (w : Nat) : Option Instr :=
  if fld w 10 7 = 0 ∧ fld w 31 29 = 0 then some (.mma ⟨fld w 28 23, fld w 22 17, fld w 16 11⟩) else
  if fld w 10 7 = 0 ∧ fld w 31 29 = 1 then some (.mmp ⟨fld w 28 23, fld w 22 17, fld w 16 11⟩) else
  if fld w 10 7 = 0 ∧ fld w 31 17 = 8192 then some (.mmz (fld w 16 11)) else
  none

/-- R56: major opcode 0x2e. -/
def decodeMajor2E (w : Nat) : Option Instr :=
  if fld w 10 7 = 0 ∧ fld w 22 17 = 0 ∧ fld w 31 29 = 0 then some (.acq (fld w 28 23) (fld w 16 11)) else
  if fld w 10 7 = 0 ∧ fld w 31 17 = 4096 then some (.acr (fld w 16 11)) else
  if fld w 31 29 = 2 then some (.acrd ⟨fld w 28 23, fld w 22 17, fld w 16 11, fld w 10 10, fld w 9 7⟩) else
  if fld w 10 7 = 0 ∧ fld w 31 23 = 192 then some (.acld (fld w 22 17) (fld w 16 11)) else
  none

/-- R56: major opcode 0x2f. -/
def decodeMajor2F (w : Nat) : Option Instr :=
  if fld w 16 7 = 0 ∧ fld w 31 23 = 0 then some (.cego (fld w 22 17)) else
  if fld w 16 7 = 1 ∧ fld w 31 23 = 0 then some (.gxgo (fld w 22 17)) else
  none

/-- R56: major opcode 0x30. -/
def decodeMajor30 (w : Nat) : Option Instr :=
  if fld w 16 7 = 0 ∧ fld w 28 23 = 0 then some (.wpush (fld w 31 29) (fld w 22 17)) else
  if fld w 10 7 = 1 ∧ fld w 22 17 = 0 ∧ fld w 31 26 = 0 then some (.wpop (fld w 25 23) (fld w 16 11)) else
  if fld w 22 7 = 2 ∧ fld w 31 26 = 0 then some (.quies (fld w 25 23)) else
  none

/-- R56: major opcode 0x31. -/
def decodeMajor31 (w : Nat) : Option Instr :=
  if fld w 10 7 = 0 ∧ fld w 31 27 = 0 then some (.trap (fld w 26 11)) else
  if fld w 31 7 = 1 then some .tret else
  if fld w 31 7 = 2 then some .yield else
  if fld w 31 7 = 3 then some .exit else
  if fld w 16 7 = 4 ∧ fld w 31 23 = 0 then some (.spawn (fld w 22 17)) else
  if fld w 16 7 = 5 ∧ fld w 31 23 = 0 then some (.kill (fld w 22 17)) else
  if fld w 10 7 = 6 ∧ fld w 19 17 = 0 then some (.csrr (fld w 31 20) (fld w 16 11)) else
  if fld w 10 7 = 7 ∧ fld w 16 11 = 0 then some (.csrw (fld w 31 20) (fld w 22 17)) else
  none

/-- R53, R56: the thirty-two-bit forms by their major opcode, before the reserved values are refused. -/
def decode32Raw (w : Nat) : Option Instr :=
  match fld w 6 1 with
  | 1 => decodeMajor01 w
  | 2 => decodeMajor02 w
  | 3 => decodeMajor03 w
  | 4 => decodeMajor04 w
  | 5 => decodeMajor05 w
  | 6 => decodeMajor06 w
  | 7 => decodeMajor07 w
  | 8 => decodeMajor08 w
  | 9 => decodeMajor09 w
  | 10 => decodeMajor0A w
  | 11 => decodeMajor0B w
  | 12 => decodeMajor0C w
  | 13 => decodeMajor0D w
  | 14 => decodeMajor0E w
  | 15 => decodeMajor0F w
  | 16 => decodeMajor10 w
  | 17 => decodeMajor11 w
  | 18 => decodeMajor12 w
  | 19 => decodeMajor13 w
  | 20 => decodeMajor14 w
  | 21 => decodeMajor15 w
  | 22 => decodeMajor16 w
  | 23 => decodeMajor17 w
  | 24 => decodeMajor18 w
  | 25 => decodeMajor19 w
  | 26 => decodeMajor1A w
  | 27 => decodeMajor1B w
  | 28 => decodeMajor1C w
  | 29 => decodeMajor1D w
  | 30 => decodeMajor1E w
  | 31 => decodeMajor1F w
  | 32 => decodeMajor20 w
  | 33 => decodeMajor21 w
  | 34 => decodeMajor22 w
  | 35 => decodeMajor23 w
  | 36 => decodeMajor24 w
  | 37 => decodeMajor25 w
  | 38 => decodeMajor26 w
  | 39 => decodeMajor27 w
  | 40 => decodeMajor28 w
  | 41 => decodeMajor29 w
  | 42 => decodeMajor2A w
  | 43 => decodeMajor2B w
  | 44 => decodeMajor2C w
  | 45 => decodeMajor2D w
  | 46 => decodeMajor2E w
  | 47 => decodeMajor2F w
  | 48 => decodeMajor30 w
  | 49 => decodeMajor31 w
  | _ => none

/-- R360, R361: the Uliah words by their operation. -/
def decodeUliahRaw (w : Nat) : Option Instr :=
  if w % 2 ^ 32 / 2 ^ 27 = 0 then none else
  match fld w 31 27 with
  | 1 => if fld w 22 19 = 0 then some (.uli (fld w 26 23) (fld w 18 0)) else none
  | 2 => if fld w 18 15 = 0 then some (.uaddi ⟨fld w 26 23, fld w 22 19, fld w 14 0⟩) else none
  | 3 => if fld w 14 0 = 0 then some (.uadd ⟨fld w 26 23, fld w 22 19, fld w 18 15⟩) else none
  | 4 => if fld w 14 0 = 0 then some (.usub ⟨fld w 26 23, fld w 22 19, fld w 18 15⟩) else none
  | 5 => if fld w 14 0 = 0 then some (.uand ⟨fld w 26 23, fld w 22 19, fld w 18 15⟩) else none
  | 6 => if fld w 14 0 = 0 then some (.uor ⟨fld w 26 23, fld w 22 19, fld w 18 15⟩) else none
  | 7 => if fld w 14 0 = 0 then some (.ushl ⟨fld w 26 23, fld w 22 19, fld w 18 15⟩) else none
  | 8 => if fld w 14 0 = 0 then some (.ushr ⟨fld w 26 23, fld w 22 19, fld w 18 15⟩) else none
  | 9 => if fld w 18 15 = 0 then some (.uld ⟨fld w 26 23, fld w 22 19, fld w 14 0⟩) else none
  | 10 => if fld w 26 23 = 0 then some (.ust ⟨fld w 22 19, fld w 18 15, fld w 14 0⟩) else none
  | 11 => some (.ubr ⟨fld w 26 23, fld w 22 19, fld w 18 16, fld w 15 0⟩)
  | 12 => if fld w 26 16 = 0 then some (.ujmp (fld w 15 0)) else none
  | 13 => if fld w 26 0 = 0 then some .uend else none
  | 14 => if fld w 26 15 = 0 then some (.ufault (fld w 14 0)) else none
  | 15 => if fld w 14 0 = 0 ∧ fld w 26 23 = 0 then some (.ucomb (fld w 22 19) (fld w 18 15)) else none
  | 16 => if fld w 18 0 = 0 ∧ fld w 26 23 = 0 then some (.ufwd (fld w 22 19)) else none
  | 17 => if fld w 18 0 = 0 ∧ fld w 26 23 = 0 then some (.umcast (fld w 22 19)) else none
  | 18 => if fld w 18 0 = 0 ∧ fld w 26 23 = 0 then some (.uwr (fld w 22 19)) else none
  | 19 => if fld w 18 0 = 0 ∧ fld w 26 23 = 0 then some (.uopt (fld w 22 19)) else none
  | 20 => if fld w 18 0 = 0 ∧ fld w 26 23 = 0 then some (.usig (fld w 22 19)) else none
  | 21 => if fld w 22 0 = 0 then some (.udone (fld w 26 23)) else none
  | 22 => if fld w 18 0 = 0 then some (.uget (fld w 26 23) (fld w 22 19)) else none
  | _ => none

/-- Why bytes are not an instruction that may run as it stands. -/
inductive DecodeError where
  /-- Fewer bytes than the instruction has. -/
  | truncated
  /-- R49, R57: an encoding that is no instruction. -/
  | reserved (w len : Nat)
  /-- R69 priority 4: the instruction carries a guard that its major does not take. -/
  | guarded (i : Instr)
  deriving DecidableEq, Repr

/-- R62, R63, R65, R66: the instructions that have a guard field and must leave it 0. -/
def mustBeUnguarded : Instr → Bool
  | .qadd .. => true | .qsub .. => true | .qmul .. => true | .qand .. => true
  | .qor .. => true | .qxor .. => true | .qshl .. => true | .qshr .. => true
  | .v2q .. => true | .movs .. => true | .call .. => true | .qld .. => true | .qst .. => true
  | _ => false

/-- The instruction, if no value in it is reserved (R57). -/
def checked (i : Option Instr) : Option Instr :=
  match i with
  | some i => if i.wf then some i else none
  | none => none

/-- R49, R51: a sixteen-bit word. -/
def decodeHalf (w : Nat) : Except DecodeError Instr :=
  match checked (decode16 w) with
  | some i => .ok i
  | none => .error (.reserved w 2)

/-- R53 to R68: a thirty-two-bit word. A guard where none is taken is told apart from a reserved word (R69). -/
def decodeWord (w : Nat) : Except DecodeError Instr :=
  match checked (decode32Raw w) with
  | some i => .ok i
  | none =>
    match checked (decode32Raw (w - fld w 10 7 * 2 ^ 7)) with
    | some i =>
      if mustBeUnguarded i && goodGuard (fld w 10 7) && fld w 10 7 != 0 then .error (.guarded i)
      else .error (.reserved w 4)
    | none => .error (.reserved w 4)

/-- R360, R361: a word of the Uliah program memory. -/
def decodeUliah (w : Nat) : Option Instr := checked (decodeUliahRaw w)

/-- R2, R49: the instruction at the head of a list of bytes, with its length in bytes. -/
def decode : List (BitVec 8) → Except DecodeError (Instr × Nat)
  | b0 :: b1 :: rest =>
    let h := b0.toNat + 256 * b1.toNat
    if h % 2 = 0 then (decodeHalf h).map (·, 2)
    else
      match rest with
      | b2 :: b3 :: _ => (decodeWord (h + 65536 * b2.toNat + 16777216 * b3.toNat)).map (·, 4)
      | _ => .error .truncated
  | _ => .error .truncated

/-- The bytes of a word as memory holds it (R49). -/
def wordBytes : Nat → Nat → List (BitVec 8)
  | 0, _ => []
  | n + 1, w => BitVec.ofNat 8 w :: wordBytes n (w / 256)

/-- What the decoder reads from an instruction whose bits are `w`, numbered as the opcode table numbers them: a
sixteen-bit word, a core word, or, where the core has no such word, a word of the Uliah program memory. -/
def decodeTableWord (nbits w : Nat) : Option Instr :=
  if nbits ≤ 16 then
    match decode (wordBytes 2 w) with
    | .ok (i, _) => some i
    | .error _ => none
  else
    match decode (wordBytes 4 w) with
    | .ok (i, 4) => some i
    | _ => decodeUliah w


/-- The operand bits of the word, each field in its place. -/
def OpA.bits (o : OpA) : Nat :=
  o.q * 0x20000000 + o.b * 0x800000 + o.a * 0x20000 + o.d * 0x800 + o.g * 0x80

/-- The operand bits of the word, each field in its place. -/
def OpU.bits (o : OpU) : Nat :=
  o.a * 0x20000 + o.d * 0x800 + o.g * 0x80

/-- The operand bits of the word, each field in its place. -/
def OpI.bits (o : OpI) : Nat :=
  o.i * 0x800000 + o.a * 0x20000 + o.d * 0x800 + o.g * 0x80

/-- The operand bits of the word, each field in its place. -/
def OpSh.bits (o : OpSh) : Nat :=
  o.s * 0x800000 + o.a * 0x20000 + o.d * 0x800 + o.g * 0x80

/-- The operand bits of the word, each field in its place. -/
def OpMovi.bits (o : OpMovi) : Nat :=
  o.i * 0x20000 + o.d * 0x800 + o.g * 0x80

/-- The operand bits of the word, each field in its place. -/
def OpCmp.bits (o : OpCmp) : Nat :=
  o.q * 0x20000000 + o.b * 0x800000 + o.a * 0x20000 + o.p * 0x4000 + o.c * 0x800 + o.g * 0x80

/-- The operand bits of the word, each field in its place. -/
def OpP.bits (o : OpP) : Nat :=
  o.b * 0x4000000 + o.a * 0x100000 + o.d * 0x4000 + o.g * 0x80

/-- The operand bits of the word, each field in its place. -/
def OpPn.bits (o : OpPn) : Nat :=
  o.a * 0x100000 + o.d * 0x4000 + o.g * 0x80

/-- The operand bits of the word, each field in its place. -/
def OpCvt.bits (o : OpCvt) : Nat :=
  o.s * 0x20000000 + o.t * 0x800000 + o.a * 0x20000 + o.d * 0x800 + o.g * 0x80

/-- The operand bits of the word, each field in its place. -/
def OpVoteP.bits (o : OpVoteP) : Nat :=
  o.s * 0x20000 + o.p * 0x4000 + o.g * 0x80

/-- The operand bits of the word, each field in its place. -/
def OpVoteB.bits (o : OpVoteB) : Nat :=
  o.s * 0x20000 + o.d * 0x800 + o.g * 0x80

/-- The operand bits of the word, each field in its place. -/
def OpRed.bits (o : OpRed) : Nat :=
  o.k * 0x800000 + o.a * 0x20000 + o.d * 0x800 + o.g * 0x80

/-- The operand bits of the word, each field in its place. -/
def OpT.bits (o : OpT) : Nat :=
  o.b * 0x800000 + o.a * 0x20000 + o.d * 0x800

/-- The operand bits of the word, each field in its place. -/
def OpMovx.bits (o : OpMovx) : Nat :=
  o.c * 0x20000000 + o.x * 0x80000 + o.d * 0x800 + o.g * 0x80

/-- The operand bits of the word, each field in its place. -/
def OpMovs.bits (o : OpMovs) : Nat :=
  o.c * 0x20000000 + o.x * 0x80000 + o.d * 0x800

/-- The operand bits of the word, each field in its place. -/
def OpLd.bits (o : OpLd) : Nat :=
  o.o * 0x8000000 + o.r * 0x2000000 + o.u * 0x800000 + o.a * 0x20000 + o.d * 0x800 + o.g * 0x80

/-- The operand bits of the word, each field in its place. -/
def OpLdn.bits (o : OpLdn) : Nat :=
  o.o * 0x8000000 + o.r * 0x2000000 + o.u * 0x800000 + o.a * 0x40000 + o.d * 0x800 + o.g * 0x80

/-- The operand bits of the word, each field in its place. -/
def OpLdk.bits (o : OpLdk) : Nat :=
  o.o * 0x8000000 + o.r * 0x2000000 + o.b * 0x40000 + o.d * 0x800 + o.g * 0x80

/-- The operand bits of the word, each field in its place. -/
def OpQld.bits (o : OpQld) : Nat :=
  o.o * 0x8000000 + o.r * 0x2000000 + o.b * 0x40000 + o.d * 0x800

/-- The operand bits of the word, each field in its place. -/
def OpSt.bits (o : OpSt) : Nat :=
  o.o * 0x8000000 + o.r * 0x2000000 + o.z * 0x800000 + o.a * 0x20000 + o.s * 0x800 + o.g * 0x80

/-- The operand bits of the word, each field in its place. -/
def OpQst.bits (o : OpQst) : Nat :=
  o.o * 0x8000000 + o.r * 0x2000000 + o.a * 0x20000 + o.s * 0x800

/-- The operand bits of the word, each field in its place. -/
def OpAtom.bits (o : OpAtom) : Nat :=
  o.o * 0x10000000 + o.s * 0x4000000 + o.t * 0x800000 + o.a * 0x20000 + o.d * 0x800 + o.g * 0x80

/-- The operand bits of the word, each field in its place. -/
def OpCas.bits (o : OpCas) : Nat :=
  o.s * 0x4000000 + o.t * 0x800000 + o.a * 0x20000 + o.d * 0x800 + o.g * 0x80

/-- The operand bits of the word, each field in its place. -/
def OpFence.bits (o : OpFence) : Nat :=
  o.s * 0x40000000 + o.p * 0x400000 + o.c * 0x4000

/-- The operand bits of the word, each field in its place. -/
def OpMwait.bits (o : OpMwait) : Nat :=
  o.w * 0x40000000 + o.c * 0x8000000 + o.p * 0x800000 + o.a * 0x20000 + o.v * 0x800

/-- The operand bits of the word, each field in its place. -/
def OpSigd.bits (o : OpSigd) : Nat :=
  o.s * 0x40000000 + o.a * 0x20000 + o.v * 0x800

/-- The operand bits of the word, each field in its place. -/
def OpSend.bits (o : OpSend) : Nat :=
  o.c * 0x10000000 + o.n * 0x4000000 + o.a * 0x20000

/-- The operand bits of the word, each field in its place. -/
def OpRecv.bits (o : OpRecv) : Nat :=
  o.c * 0x10000000 + o.n * 0x4000000 + o.d * 0x800

/-- The operand bits of the word, each field in its place. -/
def OpTget.bits (o : OpTget) : Nat :=
  o.b * 0x800000 + o.a * 0x20000 + o.d * 0x800 + o.c * 0x400

/-- The operand bits of the word, each field in its place. -/
def OpTcvt.bits (o : OpTcvt) : Nat :=
  o.t * 0x800000 + o.a * 0x20000 + o.d * 0x800 + o.s * 0x400 + o.r * 0x80

/-- The operand bits of the word, each field in its place. -/
def OpAcrd.bits (o : OpAcrd) : Nat :=
  o.b * 0x800000 + o.a * 0x20000 + o.d * 0x800 + o.l * 0x400 + o.r * 0x80

/-- The operand bits of the word, each field in its place. -/
def OpUi.bits (o : OpUi) : Nat :=
  o.d * 0x800000 + o.a * 0x80000 + o.i

/-- The operand bits of the word, each field in its place. -/
def OpUr.bits (o : OpUr) : Nat :=
  o.d * 0x800000 + o.a * 0x80000 + o.b * 0x8000

/-- The operand bits of the word, each field in its place. -/
def OpUst.bits (o : OpUst) : Nat :=
  o.a * 0x80000 + o.b * 0x8000 + o.i

/-- The operand bits of the word, each field in its place. -/
def OpUbr.bits (o : OpUbr) : Nat :=
  o.a * 0x800000 + o.b * 0x80000 + o.c * 0x10000 + o.o

/-- The word of an instruction that has one, from the fields of R51 to R68, R121 and R360. -/
def encode : Instr → Nat
  | .mov16 s d => s * 0x800 + d * 0x20 + 0x0
  | .iadd16 s d => s * 0x800 + d * 0x20 + 0x2
  | .isub16 s d => s * 0x800 + d * 0x20 + 0x4
  | .imul16 s d => s * 0x800 + d * 0x20 + 0x6
  | .and16 s d => s * 0x800 + d * 0x20 + 0x8
  | .or16 s d => s * 0x800 + d * 0x20 + 0xa
  | .xor16 s d => s * 0x800 + d * 0x20 + 0xc
  | .shli16 i d => i * 0x800 + d * 0x20 + 0xe
  | .shri16 i d => i * 0x800 + d * 0x20 + 0x10
  | .srai16 i d => i * 0x800 + d * 0x20 + 0x12
  | .addi16 i d => i * 0x800 + d * 0x20 + 0x14
  | .fadd16 s d => s * 0x800 + d * 0x20 + 0x16
  | .fsub16 s d => s * 0x800 + d * 0x20 + 0x18
  | .fmul16 s d => s * 0x800 + d * 0x20 + 0x1a
  | .fmin16 s d => s * 0x800 + d * 0x20 + 0x1c
  | .fmax16 s d => s * 0x800 + d * 0x20 + 0x1e
  | .iadd o => o.bits + 0x3
  | .isub o => o.bits + 0x40000003
  | .imul o => o.bits + 0x80000003
  | .imulh o => o.bits + 0xc0000003
  | .imulhn o => o.bits + 0x5
  | .imad o => o.bits + 0x40000005
  | .imin o => o.bits + 0x80000005
  | .imax o => o.bits + 0xc0000005
  | .nmin o => o.bits + 0x7
  | .nmax o => o.bits + 0x40000007
  | .iabs o => o.bits + 0x80000007
  | .isad o => o.bits + 0xc0000007
  | .land o => o.bits + 0x9
  | .lor o => o.bits + 0x40000009
  | .lxor o => o.bits + 0x80000009
  | .andn o => o.bits + 0xc0000009
  | .shl o => o.bits + 0xb
  | .shr o => o.bits + 0x4000000b
  | .sra o => o.bits + 0x8000000b
  | .rot o => o.bits + 0xc000000b
  | .popc o => o.bits + 0xd
  | .clz o => o.bits + 0x4000000d
  | .brev o => o.bits + 0x8000000d
  | .bfx o => o.bits + 0xc000000d
  | .mov o => o.bits + 0xf
  | .sel o => o.bits + 0x4000000f
  | .bfi o => o.bits + 0x8000000f
  | .iaddc o => o.bits + 0xc000000f
  | .iaddi o => o.bits + 0x11
  | .imuli o => o.bits + 0x13
  | .andi o => o.bits + 0x15
  | .ori o => o.bits + 0x40000015
  | .xori o => o.bits + 0x80000015
  | .isubri o => o.bits + 0xc0000015
  | .shli o => o.bits + 0x17
  | .shri o => o.bits + 0x40000017
  | .srai o => o.bits + 0x80000017
  | .movi o => o.bits + 0xc0000017
  | .fadd o => o.bits + 0x19
  | .fsub o => o.bits + 0x40000019
  | .fmul o => o.bits + 0x80000019
  | .ffma o => o.bits + 0xc0000019
  | .fmin o => o.bits + 0x1b
  | .fmax o => o.bits + 0x4000001b
  | .fminn o => o.bits + 0x8000001b
  | .fmaxn o => o.bits + 0xc000001b
  | .frcp o => o.bits + 0x1d
  | .frsq o => o.bits + 0x4000001d
  | .fsqrt o => o.bits + 0x8000001d
  | .fex2 o => o.bits + 0xc000001d
  | .flg2 o => o.bits + 0x1f
  | .fsin o => o.bits + 0x4000001f
  | .fcos o => o.bits + 0x8000001f
  | .ftanh o => o.bits + 0xc000001f
  | .hadd o => o.bits + 0x21
  | .hsub o => o.bits + 0x40000021
  | .hmul o => o.bits + 0x80000021
  | .hfma o => o.bits + 0xc0000021
  | .hmin o => o.bits + 0x23
  | .hmax o => o.bits + 0x40000023
  | .hdot2 o => o.bits + 0x80000023
  | .dadd o => o.bits + 0x25
  | .dsub o => o.bits + 0x40000025
  | .dmul o => o.bits + 0x80000025
  | .dfma o => o.bits + 0xc0000025
  | .dmin o => o.bits + 0x27
  | .dmax o => o.bits + 0x40000027
  | .drcp o => o.bits + 0x80000027
  | .dsqrt o => o.bits + 0xc0000027
  | .icmp o => o.bits + 0x29
  | .ncmp o => o.bits + 0x40000029
  | .fcmp o => o.bits + 0x80000029
  | .dcmp o => o.bits + 0xc0000029
  | .pand o => o.bits + 0x2b
  | .por o => o.bits + 0x4000002b
  | .pxor o => o.bits + 0x8000002b
  | .pnot o => o.bits + 0xc000002b
  | .cvt o => o.bits + 0x2d
  | .cvtb o => o.bits + 0x4000002d
  | .sxexp o => o.bits + 0x8000002d
  | .sxset o => o.bits + 0xc000002d
  | .shflIdx o => o.bits + 0x2f
  | .shflUp o => o.bits + 0x4000002f
  | .shflDown o => o.bits + 0x8000002f
  | .shflXor o => o.bits + 0xc000002f
  | .voteAny o => o.bits + 0x31
  | .voteAll o => o.bits + 0x800031
  | .voteBallot o => o.bits + 0x1000031
  | .red o => o.bits + 0x40000031
  | .scan o => o.bits + 0x80000031
  | .elect p g => p * 0x4000 + g * 0x80 + 0xc0000031
  | .qadd o => o.bits + 0x33
  | .qsub o => o.bits + 0x40000033
  | .qmul o => o.bits + 0x80000033
  | .qand o => o.bits + 0xc0000033
  | .qor o => o.bits + 0x35
  | .qxor o => o.bits + 0x40000035
  | .qshl o => o.bits + 0x80000035
  | .qshr o => o.bits + 0xc0000035
  | .qli i d => i * 0x2000 + d * 0x80 + 0x37
  | .qaddi i d => i * 0x2000 + d * 0x80 + 0x39
  | .qlui i d => i * 0x2000 + d * 0x80 + 0x80000039
  | .v2q a d => a * 0x20000 + d * 0x800 + 0x3b
  | .q2v o => o.bits + 0x4000003b
  | .movx o => o.bits + 0x8000003b
  | .movs o => o.bits + 0xc000003b
  | .bra o g => o * 0x800 + g * 0x80 + 0x3d
  | .call o => o * 0x800 + 0x3f
  | .ret => 0x41
  | .jmpq a => a * 0x20000 + 0xc1
  | .reconv o => o * 0x800 + 0x141
  | .rwait a => a * 0x20000 + 0x1c1
  | .bisq a => a * 0x20000 + 0x241
  | .exitl => 0x2c1
  | .brk i => i * 0x800 + 0x341
  | .nop => 0x3c1
  | .ld32 o => o.bits + 0x43
  | .ld64 o => o.bits + 0x45
  | .ldNarrow o => o.bits + 0x47
  | .ldk32 o => o.bits + 0x20047
  | .ldk64 o => o.bits + 0x820047
  | .qld o => o.bits + 0x1020047
  | .st o => o.bits + 0x49
  | .qst o => o.bits + 0x4b
  | .atom o => o.bits + 0x4d
  | .redm o => o.bits + 0x8000004d
  | .cas o => o.bits + 0xe000004d
  | .fence o => o.bits + 0x4f
  | .pfence t => t * 0x800 + 0xcf
  | .wbr a l => a * 0x20000 + l * 0x800 + 0x14f
  | .invr a l => a * 0x20000 + l * 0x800 + 0x1cf
  | .barAw n a => n * 0x800000 + a * 0x20000 + 0x51
  | .barArv n a => n * 0x800000 + a * 0x20000 + 0xd1
  | .barWt n a => n * 0x800000 + a * 0x20000 + 0x151
  | .gbarAw n a => n * 0x800000 + a * 0x20000 + 0x1d1
  | .gbarArv n a => n * 0x800000 + a * 0x20000 + 0x251
  | .gbarWt n a => n * 0x800000 + a * 0x20000 + 0x2d1
  | .mwait o => o.bits + 0x351
  | .sigd o => o.bits + 0x3d1
  | .send o => o.bits + 0x53
  | .recv o => o.bits + 0xd3
  | .chq c d => c * 0x10000000 + d * 0x800 + 0x153
  | .tnew d => d * 0x800 + 0x55
  | .tfree d => d * 0x800 + 0x20000055
  | .tpass a d => a * 0x20000 + d * 0x800 + 0x40000055
  | .tbind a d => a * 0x20000 + d * 0x800 + 0x60000055
  | .tfetch d => d * 0x800 + 0x80000055
  | .tevict d => d * 0x800 + 0xa0000055
  | .twait d => d * 0x800 + 0xc0000055
  | .tld a d => a * 0x20000 + d * 0x800 + 0x57
  | .tst a d => a * 0x20000 + d * 0x800 + 0x20000057
  | .tget o => o.bits + 0x40000057
  | .tset o => o.bits + 0x60000057
  | .tadds o => o.bits + 0x59
  | .tmuls o => o.bits + 0x20000059
  | .texps o => o.bits + 0x40000059
  | .tfill o => o.bits + 0x60000059
  | .tclmp o => o.bits + 0x80000059
  | .tcvt o => o.bits + 0xa0000059
  | .mma o => o.bits + 0x5b
  | .mmp o => o.bits + 0x2000005b
  | .mmz d => d * 0x800 + 0x4000005b
  | .acq n d => n * 0x800000 + d * 0x800 + 0x5d
  | .acr d => d * 0x800 + 0x2000005d
  | .acrd o => o.bits + 0x4000005d
  | .acld a d => a * 0x20000 + d * 0x800 + 0x6000005d
  | .cego a => a * 0x20000 + 0x5f
  | .gxgo a => a * 0x20000 + 0xdf
  | .wpush n a => n * 0x20000000 + a * 0x20000 + 0x61
  | .wpop p d => p * 0x800000 + d * 0x800 + 0xe1
  | .quies p => p * 0x800000 + 0x161
  | .trap i => i * 0x800 + 0x63
  | .tret => 0xe3
  | .yield => 0x163
  | .exit => 0x1e3
  | .spawn a => a * 0x20000 + 0x263
  | .kill a => a * 0x20000 + 0x2e3
  | .csrr c d => c * 0x100000 + d * 0x800 + 0x363
  | .csrw cnum qs => cnum * 0x100000 + qs % 8 * 0x20000 + 0x3e3
  | .uli d i => d * 0x800000 + i + 0x8000000
  | .uaddi o => o.bits + 0x10000000
  | .uadd o => o.bits + 0x18000000
  | .usub o => o.bits + 0x20000000
  | .uand o => o.bits + 0x28000000
  | .uor o => o.bits + 0x30000000
  | .ushl o => o.bits + 0x38000000
  | .ushr o => o.bits + 0x40000000
  | .uld o => o.bits + 0x48000000
  | .ust o => o.bits + 0x50000000
  | .ubr o => o.bits + 0x58000000
  | .ujmp o => o + 0x60000000
  | .uend => 0x68000000
  | .ufault i => i + 0x70000000
  | .ucomb a b => a * 0x80000 + b * 0x8000 + 0x78000000
  | .ufwd a => a * 0x80000 + 0x80000000
  | .umcast a => a * 0x80000 + 0x88000000
  | .uwr a => a * 0x80000 + 0x90000000
  | .uopt a => a * 0x80000 + 0x98000000
  | .usig a => a * 0x80000 + 0xa0000000
  | .udone d => d * 0x800000 + 0xa8000000
  | .uget d a => d * 0x800000 + a * 0x80000 + 0xb0000000
  | _ => 0

end Sys2Proof
end

