-- ==== Sys2Proof/Word.lean ====
section
/-! DEFINITION. The word types of the machine and sparse tables, as plain data. -/

namespace Sys2Proof

/-- A lane word: 32 bits (R3). -/
abbrev Word := BitVec 32

/-- A uniform register or doubleword: 64 bits (R3). -/
abbrev DWord := BitVec 64

/-- One bit for each of the 32 lanes of a cohort. -/
abbrev Mask := BitVec 32

/-- A byte of memory. -/
abbrev Byte := BitVec 8

/-- A sparse table by number: keys rising, and an absent key stands for its reader's default. -/
abbrev Tbl (α : Type) := List (Nat × α)

end Sys2Proof
end

