-- ==== Sys2Proof/Machine/Num.lean ====
section
/-! DEFINITION. Number formats (R21 to R43): values as exact dyadic numbers, one rounding of an exact value to a format, the
conversions and the shared-exponent blocks. Bits are natural numbers here. -/

namespace Sys2Proof.Num

/-- The floating formats of R23. -/
inductive Fmt where
  | fp64 | fp32 | fp16 | bf16 | fp8e4 | fp8e5
  deriving DecidableEq, Repr

/-- Exponent field width (R23). -/
def Fmt.eb : Fmt → Nat
  | .fp64 => 11 | .fp32 => 8 | .fp16 => 5 | .bf16 => 8 | .fp8e4 => 4 | .fp8e5 => 5

/-- Fraction field width (R23). -/
def Fmt.fb : Fmt → Nat
  | .fp64 => 52 | .fp32 => 23 | .fp16 => 10 | .bf16 => 7 | .fp8e4 => 3 | .fp8e5 => 2

/-- Exponent bias (R23). -/
def Fmt.bias : Fmt → Nat
  | .fp64 => 1023 | .fp32 => 127 | .fp16 => 15 | .bf16 => 127 | .fp8e4 => 7 | .fp8e5 => 15

/-- The sign bit's weight. -/
def Fmt.signBit (f : Fmt) : Nat := 2 ^ (f.eb + f.fb)

/-- The encoding of the largest finite magnitude (R23, R24). -/
def Fmt.maxFin : Fmt → Nat
  | .fp64 => 0x7fefffffffffffff | .fp32 => 0x7f7fffff | .fp16 => 0x7bff | .bf16 => 0x7f7f | .fp8e4 => 0x7e | .fp8e5 => 0x7b

/-- The canonical NaN (R25). -/
def Fmt.nan : Fmt → Nat
  | .fp64 => 0x7ff8000000000000 | .fp32 => 0x7fc00000 | .fp16 => 0x7e00 | .bf16 => 0x7fc0 | .fp8e4 => 0x7f | .fp8e5 => 0x7e

/-- A value: NaN, an infinity, or `(-1)^neg * m * 2^e` with a sign of its own for zero. -/
inductive FVal where
  | nan
  | inf (neg : Bool)
  | fin (neg : Bool) (m : Nat) (e : Int)
  deriving DecidableEq, Repr

/-- The value of an encoding (R23). -/
def unpack (f : Fmt) (b : Nat) : FVal :=
  let neg := b / f.signBit % 2 == 1
  let ex := b / 2 ^ f.fb % 2 ^ f.eb
  let fr := b % 2 ^ f.fb
  if f = .fp8e4 ∧ ex = 15 ∧ fr = 7 then .nan
  else if f ≠ .fp8e4 ∧ ex = 2 ^ f.eb - 1 then (if fr = 0 then .inf neg else .nan)
  else if ex = 0 then .fin neg fr (1 - (f.bias : Int) - f.fb)
  else .fin neg (fr + 2 ^ f.fb) ((ex : Int) - f.bias - f.fb)

/-- R37: the five-bit bit reversal of `k`. -/
def ditherD (k : Nat) : Nat := k % 2 * 16 + k / 2 % 2 * 8 + k / 4 % 2 * 4 + k / 8 % 2 * 2 + k / 16 % 2

/-- R35, R37: whether the magnitude goes up, from the kept part `q`, the part `rem` below it out of `2^sh`, and whether
anything stands below `rem`. Modes are coded as in R34; `i` is the position and `ph` the phase for dither. -/
def roundUp (mode : Nat) (neg : Bool) (q rem sh : Nat) (sticky : Bool) (i ph : Nat) : Bool :=
  let half := 2 ^ sh / 2
  let some_ := rem != 0 || sticky
  match mode with
  | 1 => false
  | 2 => neg && some_
  | 3 => !neg && some_
  | 4 => sh != 0 && half ≤ rem
  | 5 =>
    if rem = 0 then false
    else if neg then !((32 * (2 ^ sh - rem)) / 2 ^ sh > ditherD ((i + 5 * ph) % 32))
    else (32 * rem) / 2 ^ sh > ditherD ((i + 5 * ph) % 32)
  | _ => sh != 0 && (half < rem || (rem == half && (sticky || q % 2 == 1)))

/-- The encoding of an infinity, or of what stands for one in fp8e4 (R36, R40). -/
def Fmt.infBits (f : Fmt) (neg : Bool) : Nat :=
  if f = .fp8e4 then 0x7f else f.maxFin + 1 + (if neg then f.signBit else 0)

/-- The largest finite value with a sign. -/
def Fmt.maxBits (f : Fmt) (neg : Bool) : Nat := f.maxFin + (if neg then f.signBit else 0)

/-- R36: the result of an overflow. -/
def Fmt.overflow (f : Fmt) (mode : Nat) (neg sat : Bool) : Nat :=
  if sat then f.maxBits neg
  else if mode = 1 ∨ (mode = 2 ∧ neg = false) ∨ (mode = 3 ∧ neg = true) then f.maxBits neg
  else f.infBits neg

/-- One rounding of the exact magnitude `m * 2^e`, a little more where `sticky`, to a format (R35 to R37). -/
def roundFin (f : Fmt) (mode : Nat) (sat neg : Bool) (m : Nat) (e : Int) (sticky : Bool) (i ph : Nat) : Nat :=
  if m = 0 then (if neg then f.signBit else 0)
  else
    let emin : Int := 1 - (f.bias : Int)
    let ex : Int := (Nat.log2 m : Int) + e
    let ulp : Int := (if ex < emin then emin else ex) - f.fb
    let sh := (ulp - e).toNat
    let q := if ulp ≤ e then m * 2 ^ (e - ulp).toNat else m / 2 ^ sh
    let rem := if ulp ≤ e then 0 else m % 2 ^ sh
    let q' := if roundUp mode neg q rem sh sticky i ph then q + 1 else q
    let bits := (ulp + f.fb - emin).toNat * 2 ^ f.fb + q'
    if bits > f.maxFin then f.overflow mode neg sat else bits + (if neg then f.signBit else 0)

/-- R40: a value rounded to a format. -/
def pack (f : Fmt) (mode : Nat) (sat : Bool) (i ph : Nat) : FVal → Nat
  | .nan => f.nan
  | .inf neg => if sat then f.maxBits neg else f.infBits neg
  | .fin neg m e => roundFin f mode sat neg m e false i ph

/-- The signed number of units of `2^e0` in a finite value, for `e0` at most its exponent. -/
def units (neg : Bool) (m : Nat) (e e0 : Int) : Int :=
  let u : Int := (m * 2 ^ (e - e0).toNat : Nat)
  if neg then -u else u

/-- Whether every finite value of a list is a zero of sign `neg`. -/
def allZero (neg : Bool) (l : List FVal) : Bool :=
  l.all fun v => match v with
    | .fin n m _ => m == 0 && n == neg
    | _ => false

/-- The exact sum of values. An exact zero has the sign that IEEE 754-2019 gives it: that of the terms if all are zeros of
one sign, else negative under `rdn` only (R87, R46). -/
def exactSum (rdn : Bool) (l : List FVal) : FVal :=
  if l.any (· == .nan) then .nan
  else if l.any (· == .inf true) && l.any (· == .inf false) then .nan
  else if l.any (· == .inf true) then .inf true
  else if l.any (· == .inf false) then .inf false
  else
    let e0 : Int := l.foldl (fun a v => match v with | .fin _ m e => if m = 0 then a else min a e | _ => a) 100000
    let t : Int := l.foldl (fun a v => match v with | .fin n m e => if m = 0 then a else a + units n m e e0 | _ => a) 0
    if t = 0 then .fin (allZero true l || (rdn && !allZero false l)) 0 0
    else .fin (decide (t < 0)) t.natAbs e0

/-- The exact product. -/
def exactMul : FVal → FVal → FVal
  | .nan, _ => .nan
  | _, .nan => .nan
  | .inf a, .inf b => .inf (a != b)
  | .inf a, .fin b m _ => if m = 0 then .nan else .inf (a != b)
  | .fin a m _, .inf b => if m = 0 then .nan else .inf (a != b)
  | .fin a m e, .fin b n f => .fin (a != b) (m * n) (e + f)

/-- The value with its sign changed. -/
def negate : FVal → FVal
  | .nan => .nan
  | .inf s => .inf (!s)
  | .fin s m e => .fin (!s) m e

/-- The mode that arithmetic uses: dither acts as to nearest even (R35). -/
def arith (mode : Nat) : Nat := if mode = 5 then 0 else mode

/-- R87: a sum rounded once. -/
def fadd (f : Fmt) (mode a b : Nat) : Nat :=
  pack f (arith mode) false 0 0 (exactSum (mode == 2) [unpack f a, unpack f b])

/-- R87: a difference rounded once. -/
def fsub (f : Fmt) (mode a b : Nat) : Nat :=
  pack f (arith mode) false 0 0 (exactSum (mode == 2) [unpack f a, negate (unpack f b)])

/-- R87: a product rounded once. -/
def fmul (f : Fmt) (mode a b : Nat) : Nat := pack f (arith mode) false 0 0 (exactMul (unpack f a) (unpack f b))

/-- R87: `a * b + d` rounded once. -/
def ffma (f : Fmt) (mode a b d : Nat) : Nat :=
  pack f (arith mode) false 0 0 (exactSum (mode == 2) [exactMul (unpack f a) (unpack f b), unpack f d])

/-- R89: `a0 * b0 + a1 * b1` rounded once. -/
def fdot2 (f : Fmt) (mode a0 b0 a1 b1 : Nat) : Nat :=
  pack f (arith mode) false 0 0
    (exactSum (mode == 2) [exactMul (unpack f a0) (unpack f b0), exactMul (unpack f a1) (unpack f b1)])

/-- The place of a value in the order of R42 and R43, as a pair compared first by rank: below, between and above the
finite values, then by exact units of `2^e0`; -0 stands below +0. -/
def below (a b : FVal) : Bool :=
  match a, b with
  | .nan, _ => false
  | _, .nan => true
  | .inf true, .inf true => false
  | .inf true, _ => true
  | .inf false, _ => false
  | .fin .., .inf s => !s
  | .fin s m e, .fin t n f =>
    let e0 := min e f
    let x := units s m e e0
    let y := units t n f e0
    x < y || (x == y && s && !t && m == 0)

/-- Numeric order, where -0 equals +0; false where either is NaN (R60). -/
def less (a b : FVal) : Bool :=
  match a, b with
  | .nan, _ => false
  | _, .nan => false
  | .fin _ 0 _, .fin _ 0 _ => false
  | _, _ => below a b

/-- R42: the minimum, with a NaN operand giving NaN. -/
def fmin (f : Fmt) (a b : Nat) : Nat :=
  if unpack f a = .nan ∨ unpack f b = .nan then f.nan else if below (unpack f b) (unpack f a) then b else a

/-- R42: the maximum, with a NaN operand giving NaN. -/
def fmax (f : Fmt) (a b : Nat) : Nat :=
  if unpack f a = .nan ∨ unpack f b = .nan then f.nan else if below (unpack f a) (unpack f b) then b else a

/-- R42: the minimum, where one NaN operand gives the other. -/
def fminn (f : Fmt) (a b : Nat) : Nat :=
  if unpack f a = .nan then (if unpack f b = .nan then f.nan else b)
  else if unpack f b = .nan then a else fmin f a b

/-- R42: the maximum, where one NaN operand gives the other. -/
def fmaxn (f : Fmt) (a b : Nat) : Nat :=
  if unpack f a = .nan then (if unpack f b = .nan then f.nan else b)
  else if unpack f b = .nan then a else fmax f a b

/-- The integer square root, one bit of the root at a time from bit `n - 1` down. -/
def isqrtFrom (x : Nat) : Nat → Nat → Nat
  | 0, r => r
  | n + 1, r => isqrtFrom x n (if (r + 2 ^ n) * (r + 2 ^ n) ≤ x then r + 2 ^ n else r)

/-- The integer square root. -/
def isqrt (x : Nat) : Nat := isqrtFrom x (Nat.log2 x / 2 + 1) 0

/-- R88, R90: the reciprocal, correctly rounded. -/
def frcp (f : Fmt) (mode a : Nat) : Nat :=
  match unpack f a with
  | .nan => f.nan
  | .inf s => if s then f.signBit else 0
  | .fin s m e =>
    if m = 0 then f.infBits s
    else
      let k := Nat.log2 m + 120
      roundFin f (arith mode) false s (2 ^ k / m) (-(k : Int) - e) (2 ^ k % m != 0) 0 0

/-- A quotient, rounded once. -/
def fdiv (f : Fmt) (mode a b : Nat) : Nat :=
  match unpack f a, unpack f b with
  | .nan, _ => f.nan
  | _, .nan => f.nan
  | .inf _, .inf _ => f.nan
  | .inf s, .fin t _ _ => f.infBits (s != t)
  | .fin s _ _, .inf t => if s != t then f.signBit else 0
  | .fin s m e, .fin t n k =>
    if n = 0 then (if m = 0 then f.nan else f.infBits (s != t))
    else if m = 0 then (if s != t then f.signBit else 0)
    else
      let q := m * 2 ^ 128 / n
      roundFin f (arith mode) false (s != t) q (e - k - 128) (m * 2 ^ 128 % n != 0) 0 0

/-- R88, R90: the square root, correctly rounded. -/
def fsqrt (f : Fmt) (mode a : Nat) : Nat :=
  match unpack f a with
  | .nan => f.nan
  | .inf s => if s then f.nan else f.infBits false
  | .fin s m e =>
    if m = 0 then (if s then f.signBit else 0)
    else if s then f.nan
    else
      let k : Int := if e % 2 = 0 then 240 else 241
      let x := m * 2 ^ k.toNat
      let r := isqrt x
      roundFin f (arith mode) false false r ((e - k) / 2) (r * r != x) 0 0

/-- R88: the reciprocal of the square root, correctly rounded. -/
def frsq (f : Fmt) (a : Nat) : Nat :=
  match unpack f a with
  | .nan => f.nan
  | .inf s => if s then f.nan else 0
  | .fin s m e =>
    if m = 0 then f.infBits s
    else if s then f.nan
    else
      -- 1/sqrt(m * 2^e) = sqrt(2^k / m) * 2^(-(k + e) / 2)
      let k : Int := (2 * Nat.log2 m : Nat) + (if e % 2 = 0 then 240 else 241)
      let x := 2 ^ k.toNat / m
      let r := isqrt x
      roundFin f 0 false false r (-(k + e) / 2) (r * r * m != 2 ^ k.toNat) 0 0

/-- R40, R41: a finite value times `2^k` rounded to an integer by a mode. -/
def roundInt (mode : Nat) (neg : Bool) (m : Nat) (e : Int) (i ph : Nat) : Int :=
  let sh := (-e).toNat
  let q := if 0 ≤ e then m * 2 ^ e.toNat else m / 2 ^ sh
  let rem := if 0 ≤ e then 0 else m % 2 ^ sh
  let q' := if roundUp mode neg q rem (if 0 ≤ e then 0 else sh) false i ph then q + 1 else q
  if neg then -(q' : Int) else q'

/-- A number between two bounds. -/
def clampI (lo hi x : Int) : Int := if x < lo then lo else if hi < x then hi else x

/-- The bits of an integer in `w` bits. -/
def intBits (w : Nat) (x : Int) : Nat := (x % (2 ^ w : Nat)).toNat

/-- The signed number that `w` bits hold. -/
def sintOf (w b : Nat) : Int := if b % 2 ^ w < 2 ^ (w - 1) then ((b % 2 ^ w : Nat) : Int) else ((b % 2 ^ w : Nat) : Int) - (2 ^ w : Nat)

/-! Format tags (R31). -/

/-- The floating format of a tag. -/
def fmtOf (tag : Nat) : Option Fmt :=
  match tag with
  | 0x10 => some .fp64 | 0x11 => some .fp32 | 0x12 => some .fp16 | 0x13 => some .bf16 | 0x14 => some .fp8e4
  | 0x15 => some .fp8e5 | _ => none

/-- The width of an integer tag, with its signedness. Raw is read as i32 (R93). -/
def intOf (tag : Nat) : Option (Nat × Bool) :=
  match tag with
  | 0 => some (32, true) | 1 => some (8, true) | 2 => some (16, true) | 3 => some (32, true) | 4 => some (64, true)
  | 5 => some (8, false) | 6 => some (16, false) | 7 => some (32, false) | 8 => some (64, false) | _ => none

/-- The mantissa width of a shared-exponent tag. -/
def sxOf (tag : Nat) : Option Nat := if 0x22 ≤ tag ∧ tag ≤ 0x28 then some (tag - 0x20) else none

/-- R31: the tag has a meaning. -/
def goodTag (tag : Nat) : Bool := tag ≤ 8 || (0x10 ≤ tag && tag ≤ 0x15) || (0x22 ≤ tag && tag ≤ 0x28)

/-- R21, R27: the tags whose values take a pair. -/
def wideTag (tag : Nat) : Bool := tag == 4 || tag == 8 || tag == 0x10

/-- The bits that an element of a tag has in memory; shared-exponent tags give their mantissa (R165). -/
def bitsOf (tag : Nat) : Nat :=
  match intOf tag, fmtOf tag with
  | some (w, _), _ => w
  | _, some f => 1 + f.eb + f.fb
  | _, _ => tag - 0x20

/-- R28: the value of a mantissa with a shared exponent. -/
def sxVal (m ex : Nat) (mant : Int) : FVal :=
  if ex = 255 then .nan else .fin (decide (mant < 0)) mant.natAbs ((ex : Int) - 127 - ((m : Int) - 1))

/-- An element as a value, from its bits and tag; `ex` is the shared exponent of its block (R28, R93). -/
def valueOf (tag ex b : Nat) : FVal :=
  match intOf tag, fmtOf tag, sxOf tag with
  | some (w, true), _, _ => .fin (decide (sintOf w b < 0)) (sintOf w b).natAbs 0
  | some (w, false), _, _ => .fin false (b % 2 ^ w) 0
  | _, some f, _ => unpack f (b % 2 ^ (1 + f.eb + f.fb))
  | _, _, some m => sxVal m ex (sintOf m b)
  | _, _, _ => .nan

/-- R40: a value converted to an integer of width `w`, saturating, NaN giving 0. -/
def toInt (w : Nat) (signed : Bool) (mode i ph : Nat) : FVal → Int
  | .nan => 0
  | .inf neg => if signed then (if neg then -(2 ^ (w - 1) : Nat) else (2 ^ (w - 1) : Nat) - 1) else (if neg then 0 else (2 ^ w : Nat) - 1)
  | .fin neg m e =>
    let x := roundInt mode neg m e i ph
    if signed then clampI (-(2 ^ (w - 1) : Nat)) ((2 ^ (w - 1) : Nat) - 1) x else clampI 0 ((2 ^ w : Nat) - 1) x

/-- How an element stands in a lane: narrow integers extended by their signedness, others zero-extended (R22, R27). -/
def place (tag b : Nat) : Nat :=
  match intOf tag with
  | some (w, true) => if w < 32 then intBits 32 (sintOf w b) else b % 2 ^ w
  | some (w, false) => b % 2 ^ w
  | none =>
    match sxOf tag with
    | some m => intBits 24 (sintOf m b)
    | none => b % 2 ^ bitsOf tag

/-- R22, R39, R40, R93: the element's bits converted from one tag to another that is not a shared-exponent format, as they
stand in a lane. -/
def convert (src ex dst : Nat) (sat : Bool) (mode i ph b : Nat) : Nat :=
  match intOf src, intOf dst, fmtOf dst with
  | some (sw, ss), some (dw, ds), _ =>
    let x : Int := if ss then sintOf sw b else ((b % 2 ^ sw : Nat) : Int)
    let y := if sat then (if ds then clampI (-(2 ^ (dw - 1) : Nat)) ((2 ^ (dw - 1) : Nat) - 1) x else clampI 0 ((2 ^ dw : Nat) - 1) x) else x
    place dst (intBits dw y)
  | _, some (dw, ds), _ => place dst (intBits dw (toInt dw ds mode i ph (valueOf src ex b)))
  | _, _, some f => pack f mode sat i ph (valueOf src ex b)
  | _, _, none => 0

/-- The magnitude order of two finite values. -/
def magLess (m : Nat) (e : Int) (n : Nat) (f : Int) : Bool :=
  let e0 := min e f
  m * 2 ^ (e - e0).toNat < n * 2 ^ (f - e0).toNat

/-- The largest finite magnitude of a list, as a pair. -/
def maxMag (l : List FVal) : Nat × Int :=
  l.foldl (fun a v => match v with | .fin _ m e => if magLess a.1 a.2 m e then (m, e) else a | _ => a) (0, 0)

/-- R41: a block of values as a shared exponent and mantissas. -/
def toSX (x : List FVal) (m : Nat) (sat : Bool) (mode ph : Nat) : Nat × List Int :=
  let lim : Int := 2 ^ (m - 1) - 1
  let anyInf := x.any fun v => match v with | .inf _ => true | _ => false
  let a := maxMag x
  let none_ := (0xff, x.map fun _ => (0 : Int))
  if x.any (· == .nan) then none_
  else if anyInf && !sat then none_
  else if !anyInf && a.1 == 0 then (0, x.map fun _ => (0 : Int))
  else
    let e0 : Int := if anyInf then 255 else (Nat.log2 a.1 : Int) + a.2 + 128
    if 254 < e0 && !sat then none_
    else
      let e : Int := if 254 < e0 then 254 else if e0 < 0 then 0 else e0
      let sc : Int := e - 127 - ((m : Int) - 1)
      (e.toNat, x.zipIdx.map fun v => match v.1 with
        | .inf neg => if neg then -lim else lim
        | .fin neg k f => clampI (-lim) lim (roundInt mode neg k (f - sc) v.2 ph)
        | .nan => 0)

end Sys2Proof.Num
end

