-- ==== Sys2Proof/Config.lean ====
section
/-! DEFINITION. What the spec leaves to the package or leaves open: constants without a body, so that no proof can see
their values. -/

namespace Sys2Proof.Config

/-- UNVERIFIED. A value that the spec leaves open, by the count of free values drawn so far (log entry 2). -/
opaque freeValue : Nat → BitVec 64

/-- UNVERIFIED. The stepping that `PKGID` reads (R17), which the spec gives no value (log entry 5). -/
opaque stepping : BitVec 8

/-- UNVERIFIED. The fuses of the root of trust as doublewords (R425, R427; log entry 5): 0 has the serial of the test floor, 8 to 15 the digest of the release
key, 16 to 23 that of the test key, and 24 to 27 the device secret. -/
opaque fuse : Nat → BitVec 64

/-- A number of `n` doublewords that fuses hold from index `i` on. -/
def fuses (i n : Nat) : Nat := (List.range n).foldl (fun a k => a + (fuse (i + k)).toNat * 2 ^ (64 * k)) 0

/-- R425: the SHAKE256 digest of the vendor's release key, of 64 bytes. -/
def releaseKey : Nat := fuses 8 8

/-- R425: the SHAKE256 digest of the vendor's test key, of 64 bytes. -/
def testKey : Nat := fuses 16 8

/-- R425: the device secret, of 256 bits. -/
def secret : Nat := fuses 24 4

/-- UNVERIFIED. The Ed448 key pair that derives from a number, private and public (R425; log entry 5). -/
opaque keyPair : Nat → Nat × Nat

/-- UNVERIFIED. An Ed448 signature over a digest verifies with a key, which is named by its digest or is a public half (R405, R410, R426; log entry 5). -/
opaque verify : Nat → Nat → Nat → Bool

/-- UNVERIFIED. The SHAKE256 digest of an image in flash, by image and copy (R426; log entry 5). -/
opaque imageDigest : Nat → Nat → Nat

/-- UNVERIFIED. The signature of an image in flash, by image and copy (R426; log entry 5). -/
opaque imageSignature : Nat → Nat → Nat

/-- UNVERIFIED. The SHA3-512 digest of an item of R426, by its index and its copy, as a number (log entry 5). -/
opaque digest : Nat → Nat → Nat

/-- UNVERIFIED. The SHA3-512 digest of a doubleword or of the certificate chain, as a number (R426, R428; log entry 5). -/
opaque sha3 : Nat → Nat

/-- UNVERIFIED. The 64-byte SHAKE256 digest of some bytes, by how many they are and their value as a number (R405; log entry 5). -/
opaque shake256 : Nat → Nat → Nat

/-- UNVERIFIED. A signature by the device identity key over a number (R428; log entry 5). -/
opaque signature : Nat → Nat

/-- UNVERIFIED. The vendor's certificate in package flash, as a number (R425; log entry 5). -/
opaque certificate : Nat → Nat

/-- UNVERIFIED. The doublewords of the two copies of the binding map as the flash is delivered: the header from 0 on, the entries from 8 on, the
digest from 264 on and the signature from 272 on (R409; log
entry 6). -/
opaque bindingMap : Nat → Nat → BitVec 64

/-- UNVERIFIED. The bond grid: which three slabs lie nearest below a front end (R8, R408; log entry 6), the second counted among the 35 others and the
third among the 34 others. -/
opaque nearest : Nat → Fin 36 × Fin 35 × Fin 34

/-- UNVERIFIED. Two slabs are physically adjacent (R10; log entry 6). -/
opaque adjacent : Nat → Nat → Bool

/-- UNVERIFIED. The slice router that each unit other than cores and slices attaches to (R269; log entry 6). -/
opaque router : Nat → Nat

/-- UNVERIFIED. The channel of its stack that holds a line of far memory (R8; log entry 6). -/
opaque farChannel : Nat → Nat

/-- UNVERIFIED. The words of the Uliah programs that boot loads (R426; log entry 11). -/
opaque uliahProgram : Nat → BitVec 32

/-- UNVERIFIED. The floor of refresh at an arbiter class that boot firmware sets (R287; log entry 6). -/
opaque refreshFloor : Nat → BitVec 16

/-- UNVERIFIED. The power estimate of a period in watts (R423; log entry 9). -/
opaque powerEstimate : Nat → BitVec 16

end Sys2Proof.Config
end

