-- ==== Sys2Proof/Machine/Mem.lean ====
section
/-! DEFINITION. The bytes of the physical map as one list in canonical form, sets of granules, and values of several bytes
in little-endian order (R2). -/

namespace Sys2Proof

/-- The bytes that have been written: addresses rising, and no byte that equals what an unlisted address reads as. -/
abbrev Mem := List Host.Cell

/-- DESIGN CHOICE (log entry 3). What an address that nothing has written reads as. The spec gives this value for the
core-local stores (R231, R234, R241) and none for near and far memory. -/
def Mem.blank : Byte := 0

/-- One byte. -/
def Mem.rd (m : Mem) (a : Nat) : Byte :=
  match m with
  | [] => Mem.blank
  | (b, v) :: r => if b = a then v else Mem.rd r a

/-- One byte written; a byte that becomes what an unlisted address reads as is no longer listed. -/
def Mem.wr (m : Mem) (a : Nat) (v : Byte) : Mem :=
  match m with
  | [] => if v = Mem.blank then [] else [(a, v)]
  | (b, w) :: r =>
    if a < b then (if v = Mem.blank then (b, w) :: r else (a, v) :: (b, w) :: r)
    else if b = a then (if v = Mem.blank then r else (a, v) :: r)
    else (b, w) :: Mem.wr r a v

/-- Addresses rise from above `lo`, and no byte is listed that reads the same unlisted. -/
def Mem.wfFrom (lo : Nat) (m : Mem) : Bool :=
  match m with
  | [] => true
  | (b, v) :: r => decide (lo ≤ b) && decide (v ≠ Mem.blank) && Mem.wfFrom (b + 1) r

/-- The canonical form. -/
def Mem.wf (m : Mem) : Bool := Mem.wfFrom 0 m

/-- The bytes at `n` addresses from `a` on. -/
def Mem.rdBytes (m : Mem) (a : Nat) : Nat → List Byte
  | 0 => []
  | n + 1 => Mem.rd m a :: Mem.rdBytes m (a + 1) n

/-- Bytes written from `a` on. -/
def Mem.wrBytes (m : Mem) (a : Nat) (bs : List Byte) : Mem :=
  match bs with
  | [] => m
  | v :: r => Mem.wrBytes (Mem.wr m a v) (a + 1) r

/-- The number that bytes hold in little-endian order (R2). -/
def leNat (bs : List Byte) : Nat :=
  match bs with
  | [] => 0
  | b :: r => b.toNat + 256 * leNat r

/-- The `n` low bytes of a number in little-endian order (R2). -/
def leBytes : Nat → Nat → List Byte
  | 0, _ => []
  | n + 1, w => BitVec.ofNat 8 w :: leBytes n (w / 256)

/-- The number held in `n` bytes from `a` on. -/
def Mem.rdN (m : Mem) (a n : Nat) : Nat := leNat (Mem.rdBytes m a n)

/-- A number written to `n` bytes from `a` on. -/
def Mem.wrN (m : Mem) (a n w : Nat) : Mem := Mem.wrBytes m a (leBytes n w)

/-- The memory without the bytes of a range: they read as unlisted. -/
def Mem.clear (m : Mem) (a n : Nat) : Mem := m.filter fun c => c.1 < a || a + n ≤ c.1

/-- A set of numbers as a rising list, with one added. -/
def insNat (l : List Nat) (k : Nat) : List Nat :=
  match l with
  | [] => [k]
  | j :: r => if k < j then k :: j :: r else if j = k then j :: r else j :: insNat r k

/-- A set with one number taken out. -/
def remNat (l : List Nat) (k : Nat) : List Nat := l.filter (· != k)

/-- A set with the numbers from `a` to `a + n - 1` taken out. -/
def remRange (l : List Nat) (a n : Nat) : List Nat := l.filter fun j => j < a || a + n ≤ j

/-- A set with the numbers from `a` to `a + n - 1` added. -/
def insRange (l : List Nat) (a : Nat) : Nat → List Nat
  | 0 => l
  | n + 1 => insRange (insNat l a) (a + 1) n

end Sys2Proof
end

