-- ==== Sys2Proof/Machine/Tbl.lean ====
section
/-! DEFINITION. The operations of sparse tables: lookup with and without a default, update, removal. -/

namespace Sys2Proof

/-- The entry at a key, if there is one. -/
def Tbl.find? {α : Type} (t : Tbl α) (k : Nat) : Option α :=
  match t with
  | [] => none
  | (j, a) :: r => if j = k then some a else Tbl.find? r k

/-- The entry at a key, or the default where there is none. -/
def Tbl.at {α : Type} (t : Tbl α) (k : Nat) (d : α) : α := (Tbl.find? t k).getD d

/-- The table with an entry put at a key, keys rising. -/
def Tbl.put {α : Type} (t : Tbl α) (k : Nat) (a : α) : Tbl α :=
  match t with
  | [] => [(k, a)]
  | (j, b) :: r => if k < j then (k, a) :: (j, b) :: r else if j = k then (k, a) :: r else (j, b) :: Tbl.put r k a

/-- The table without the entry at a key. -/
def Tbl.del {α : Type} (t : Tbl α) (k : Nat) : Tbl α :=
  match t with
  | [] => []
  | (j, b) :: r => if j = k then r else (j, b) :: Tbl.del r k

/-- The table with the entry at a key, if there is one, changed. -/
def Tbl.adj {α : Type} (t : Tbl α) (k : Nat) (f : α → α) : Tbl α :=
  match t with
  | [] => []
  | (j, b) :: r => if j = k then (j, f b) :: r else (j, b) :: Tbl.adj r k f

/-- Whether a key has an entry. -/
def Tbl.has {α : Type} (t : Tbl α) (k : Nat) : Bool := (Tbl.find? t k).isSome

/-- The keys that have entries, rising. -/
def Tbl.keys {α : Type} (t : Tbl α) : List Nat := t.map Prod.fst

/-- The entries in the order of their keys. -/
def Tbl.vals {α : Type} (t : Tbl α) : List α := t.map Prod.snd

/-- The table with every entry changed by its key. -/
def Tbl.mapv {α : Type} (t : Tbl α) (f : Nat → α → α) : Tbl α := t.map fun e => (e.1, f e.1 e.2)

/-- The lowest number below `n` that has no entry. -/
def Tbl.lowestFree {α : Type} (t : Tbl α) (n : Nat) : Option Nat := (List.range n).find? fun k => !Tbl.has t k

/-- An element put into a list before the first one of a greater key. -/
def insBy {α : Type} (key : α → Nat) (a : α) : List α → List α
  | [] => [a]
  | b :: r => if key b ≤ key a then b :: insBy key a r else a :: b :: r

/-- A list in the order of a key, equal keys in the order they had. -/
def sortBy {α : Type} (key : α → Nat) (l : List α) : List α := l.foldl (fun r a => insBy key a r) []

end Sys2Proof
end

