-- ==== Sys2Proof/Machine/State.lean ====
section
/-! DEFINITION. The whole state of the package as plain data, its reset value, and the reasons a step can stop. A field's
default is its value at reset. -/

namespace Sys2Proof.Machine

open Sys2Proof

/-- A lane register: one word a lane (an absent lane reads 0), its format tag and the lanes whose word is poisoned (R31,
R208, R396). -/
structure VReg where
  val : List Word := []
  tag : Nat := 0
  poison : Mask := 0
  deriving DecidableEq, Repr

/-- A uniform register with its format tag (R31, R208). -/
structure QReg where
  val : DWord := 0
  tag : Nat := 0
  poison : Bool := false
  deriving DecidableEq, Repr

/-- What a split that is not ready waits for (R109, R327). -/
inductive Hold where
  /-- nothing: the state code alone says why it does not issue -/
  | free
  /-- the completion of block barrier `n` (R125); `again` where the lanes have to arrive once more after it -/
  | barrier (n : Nat) (again : Bool)
  /-- the release of gang barrier `n` (R127) -/
  | gangBarrier (n : Nat) (again : Bool)
  /-- a slot of channel `ch` (R131, R132) -/
  | channel (ch : Nat)
  /-- the full bits that load `seq` waits on (R143) -/
  | full (seq : Nat)
  /-- the frames of handle `h` (R166) -/
  | frames (h : Nat)
  /-- a chain slot of engine `e` (R188) -/
  | engine (e : Nat)
  /-- the launch unit's answer to submission `id` (R135) -/
  | launch (id : Nat)
  /-- accumulator banks (R178) -/
  | banks
  /-- room in the queue of stage `n` (R205) -/
  | queue (n : Nat)
  /-- earlier work on handle `h` (R168) -/
  | tile (h : Nat)
  /-- earlier work on the grants of the core, or the neighbour's array (R178, R181) -/
  | grant
  /-- the completion of invalidation `id` (R325) -/
  | inval (id : Nat)
  deriving DecidableEq, Repr

/-- A split (R109, R211, R327). `state` is the code of R327, with 7 for a wait that has no code there. `rewait` marks a
barrier wait resumed by R228. -/
structure Split where
  pc : DWord := 0
  entry : Mask := 0
  exec : Mask := 0
  frm : BitVec 4 := 0
  dph : BitVec 5 := 0
  join : Option Nat := none
  state : Nat := 0
  timer : Nat := 0
  wait : Nat := 0
  hold : Hold := .free
  rewait : Bool := false
  deriving DecidableEq, Repr

/-- A join record (R113). `from_` has the splits that have arrived, by their lanes with `frm` and `dph`. -/
structure Join where
  addr : DWord := 0
  mask : Mask := 0
  arrived : Mask := 0
  mexec : Mask := 0
  lead : Nat := 32
  frm : BitVec 4 := 0
  dph : BitVec 5 := 0
  timer : Nat := 0
  run : Bool := false
  parent : Option Nat := none
  from_ : List (Mask × BitVec 4 × BitVec 5) := []
  deriving DecidableEq, Repr

/-- A lane's part of an access: the lane, its virtual address, its physical address once translated, and its operands or
the value it got. -/
structure LaneAcc where
  lane : Nat
  va : Nat
  pa : Nat := 0
  x : Nat := 0
  y : Nat := 0
  deriving DecidableEq, Repr

/-- What an access does where it performs. -/
inductive AccKind where
  /-- a load of R141 or R142 -/
  | load
  /-- a store of R146 -/
  | store
  /-- `ATOM` with operation `op` on type `ty` (R149) -/
  | atom (op ty : Nat)
  /-- `CAS` on type `ty` -/
  | cas (ty : Nat)
  /-- `REDM` with operation `op`, counted from 0, on type `ty` -/
  | redm (op ty : Nat)
  /-- the decrement of `SIGD` (R130) -/
  | sub
  /-- dirty bytes on their way to the slice (R148) -/
  | wback
  deriving DecidableEq, Repr

/-- A value-returning memory instruction that has issued and not finished (R329). `stage`: 0 waits for translation, 1 its
accesses are under way, 3 faulted. `dst` is a lane register, or a uniform register for `QLD`. `fwd` has the bytes of older stores that
were still queued when the accesses left (R141). `again` marks a re-injected one (R332). -/
structure LoadOp where
  seq : Nat
  word : Nat
  len : Nat
  pc : DWord
  kind : AccKind
  path : Nat
  reuse : Nat
  scope : Nat
  size : Nat
  ext : Nat
  tag : Nat
  uniform : Bool
  dst : Nat
  full : Nat
  mask : Mask
  lanes : List LaneAcc
  stage : Nat
  got : List LaneAcc
  bad : Mask
  split : Option Nat
  handler : Bool
  code : Nat
  fva : Nat
  fwd : List (Nat × Byte) := []
  again : Bool := false
  deriving DecidableEq, Repr

/-- An entry of the store queue (R146). `again` marks a re-injected one (R332). -/
structure StoreOp where
  seq : Nat
  word : Nat
  len : Nat
  pc : DWord
  kind : AccKind
  scope : Nat
  size : Nat
  mask : Mask
  lanes : List LaneAcc
  handler : Bool
  reuse : Nat := 0
  again : Bool := false
  deriving DecidableEq, Repr

/-- A fence that has issued and not completed (R155). `paths` is the set of a `PFENCE` (R156): bit 2 path g, bit 1 path k,
bit 0 path t. One with path g alone is an `INVR` under way (R157). `handler` marks one that a handler issued. -/
structure Fence where
  seq : Nat
  scope : Nat
  pred : Nat
  succ : Nat
  paths : Nat
  handler : Bool
  deriving DecidableEq, Repr

/-- The armed bisque region (R118). -/
structure Bisque where
  addr : DWord
  seq : Nat
  mask : BitVec 64
  regs : Tbl VReg
  preds : Tbl Mask
  exec : Mask
  frm : BitVec 4
  dph : BitVec 5
  deriving DecidableEq, Repr

/-- A chain-resume record (R337). -/
structure Resume where
  eng : Nat
  slot : Nat
  off : Nat
  progress : Nat
  loops : List (Nat × Nat)
  deriving DecidableEq, Repr

/-- A cause of a trap with the fields of the frame (R330, R333), and the chain that a late engine fault stopped (R337). `at_` is the place
in issue order of the write that failed late, which is a tile write where `tile` says so (R336). `past` is the split that a software trap or a
breakpoint has let go past its instruction (R119). -/
structure Cause where
  code : Nat
  sub : Nat := 0
  pc : DWord := 0
  word : Nat := 0
  len : Nat := 4
  addr : Nat := 0
  rolled : Bool := false
  res : Option Resume := none
  at_ : Nat := 0
  tile : Bool := false
  past : Option Nat := none
  deriving DecidableEq, Repr

/-- An armed monitor's parked side (R128, R129). -/
structure Parked where
  split : Nat
  pred : Nat
  mon : Nat
  deriving DecidableEq, Repr

/-- A cohort with everything that the spec gives one (R64, R109, R208). `absent` has the lane registers whose lines the core's cache does not hold,
and `imaged` those whose lines the image has (R219). `rearrive` has the lanes that wait to arrive again, at block barrier `n` under `n` and at
gang barrier `n` under `16 + n` (R125, R127). `seen` has the stores of the core whose bytes a load of the cohort has returned before they were
performed everywhere: the load's place in issue order, and the store's cohort and place (R257). `parked` is its program's `MWAIT` and `hparked` its
handler's. `frozen` has the stacks whose checkpoint under way keeps it out (R414). `asked` says that a restore command waits for it (R347) and `back` the stacks whose
checkpoint brings it back (R414). `byHandler` has the places in issue order of the frame's entries that a
handler issued (R335). -/
structure Cohort where
  uid : Nat := 0
  launch : Nat := 0
  stage : Nat := 0
  slot : Nat := 0
  cohortid : Nat := 0
  blockid : Nat × Nat × Nat := (0, 0, 0)
  gangrank : Nat := 0
  asid : Nat := 0
  image : Nat := 0
  budget : Nat := 0
  v : Tbl VReg := []
  q : Tbl QReg := []
  p : Tbl Mask := []
  absent : List Nat := []
  dirty : List Nat := []
  imaged : List Nat := []
  splits : Tbl Split := []
  overflow : List Split := []
  joins : Tbl Join := []
  dmask : Mask := 0
  exited : Mask := 0
  bstat : BitVec 32 := 0
  refused : Bool := false
  pending : Bool := false
  handler : Bool := false
  debug : Bool := false
  mismatch : Bool := false
  greyread : Bool := false
  barPhase : Tbl Bool := []
  barLanes : Tbl Mask := []
  barCount : Tbl Nat := []
  gbarPhase : Tbl Bool := []
  gbarLanes : Tbl Mask := []
  gbarCount : Tbl Nat := []
  rearrive : Tbl Mask := []
  seen : List (Nat × Nat × Nat) := []
  seq : Nat := 0
  stores : List StoreOp := []
  loads : List LoadOp := []
  fences : List Fence := []
  bisque : Option Bisque := none
  parked : Option Parked := none
  hparked : Option Parked := none
  wake : BitVec 2 := 0
  stopped : Bool := false
  cause : Option Cause := none
  late : List Cause := []
  holds : Bool := false
  auto : Bool := false
  ending : Bool := false
  leaving : Bool := false
  frozen : List Nat := []
  asked : Bool := false
  back : List Nat := []
  byHandler : List Nat := []
  deriving DecidableEq, Repr

/-- A block barrier (R124), with the cohorts whose arrival is complete and not yet taken: the core-clock cycle in which each became complete, the
cohort and its count (R125). -/
structure Barrier where
  phase : Bool := false
  expected : Nat := 0
  arrived : Nat := 0
  queue : List (Nat × Nat × Nat) := []
  who : List Nat := []
  deriving DecidableEq, Repr

/-- The states of a handle (R161). -/
inductive HState where
  | free | resident | bound | filling | nonResident | released
  deriving DecidableEq, Repr

/-- An entry of a handle's log (R239): the operation by its function number in major 0x2C, its captured scalar, its
region, the tag and layout it applies under, and for `TCVT` its target tag and layout, rounding, saturation and phase. -/
structure LogEntry where
  op : Nat
  scalar : Nat := 0
  region : Nat := 0
  tag : Nat := 0
  layout : Nat := 0
  target : Nat := 0
  tlayout : Nat := 0
  rm : Nat := 0
  sat : Bool := false
  phase : Nat := 0
  deriving DecidableEq, Repr

/-- A transfer of a tile that has started and not performed (R169, R177): `write` for `TST` and `TEVICT`, `again` for a re-injected one (R332),
`handler` for one that a handler issued (R335). Of an `ACRD` it keeps the grant, the descriptor and the phase at issue (R182). -/
structure Transfer where
  write : Bool
  va : Nat
  seq : Nat
  uid : Nat
  word : Nat
  pc : DWord
  evict : Bool
  applyLog : Bool
  held : Bool
  code : Nat := 0
  fva : Nat := 0
  grant : DWord := 0
  desc : DWord := 0
  phase : BitVec 5 := 0
  again : Bool := false
  handler : Bool := false
  deriving DecidableEq, Repr

/-- A handle with its rename entry (R161, R163, R236). -/
structure Handle where
  state : HState := .free
  owner : Nat := 0
  bchk : Bool := false
  breg : Nat := 0
  layout : Nat := 0
  tag : Nat := 0
  cols : Nat := 0
  rows : Nat := 0
  frame : Nat := 0
  frames : Nat := 0
  phase : Nat := 0
  log : List LogEntry := []
  backing : Nat := 0
  retBound : Bool := false
  fill : Option Transfer := none
  writes : List Transfer := []
  deriving DecidableEq, Repr

/-- A channel with its two ends (R131, R281): payloads on their way and in full slots, each with the tags of its slot header. -/
structure Chan where
  sender : Nat × Nat
  receiver : Nat × Nat
  slots : Nat
  size : Nat
  free : Nat
  flight : List (List Byte × List Nat) := []
  full : List (List Byte × List Nat) := []
  deriving DecidableEq, Repr

/-- A resident block (R215, R230). -/
structure Block where
  launch : Nat := 0
  stage : Nat := 0
  task : Nat := 0
  gang : Nat := 0
  rank : Nat := 0
  base : Nat := 0
  size : Nat := 0
  chanSize : Nat := 0
  accBase : Nat := 0
  accN : Nat := 0
  nHandles : Nat := 0
  handles : Tbl Handle := []
  bars : Tbl Barrier := []
  ncohorts : Nat := 0
  live : List Nat := []
  sends : Tbl Nat := []
  recvs : Tbl Nat := []
  uids : List Nat := []
  started : Bool := false
  killed : Bool := false
  deriving DecidableEq, Repr

/-- A bound register (R399): generation, address range, limits, element size and action as the descriptor's doublewords. -/
structure BoundReg where
  d0 : DWord := 0
  d1 : DWord := 0
  d2 : DWord := 0
  d3 : DWord := 0
  deriving DecidableEq, Repr

/-- A byte that an entry of a chain moves (R194 to R197): where it is read, if it is; its value, which a read replaces, and whether it came with poison;
and where it is written. -/
structure EByte where
  src : Option Nat
  sva : Nat := 0
  val : Byte
  bad : Bool := false
  va : Nat
  pa : Nat
  deriving DecidableEq, Repr

/-- What a chain has under way for an entry: its bytes, the fault that stops the entry once they are written (subcode, address and progress), the unit
that it then stands at, and whether units are left. -/
structure Plan where
  bytes : List EByte
  fault : Option (Nat × Nat × Nat) := none
  next : Nat := 0
  more : Bool := false
  deriving DecidableEq, Repr

/-- A running chain (R193), with the `CEGO` or `GXGO` that started it: its cohort and slot, its address and its word. `state`: 0
runs, 1 pauses in wait mode, 2 is given up. `entry` has the bytes of the entry that it has reached and not finished (R192), `owners` the owners of the
window slots and `regs` the armed bound registers as they then stood (R248, R401), and `drained` says that what the entry waits for has performed.
`plan` is what the entry has under way, `reads` the accesses that it waits for, `lost` the address of one that failed, and `due` a fault that waits for
the entry's writes. `pending` holds the writes of the chain that are not acknowledged. -/
structure Chain where
  block : Nat
  uid : Nat
  slot : Nat
  pc : DWord
  word : Nat
  asid : Nat
  seq : Nat
  head : Nat
  off : Nat
  loops : List (Nat × Nat × Nat) := []
  inRegion : Bool := false
  handler : Bool := false
  state : Nat := 0
  progress : Nat := 0
  faulted : Bool := false
  pending : List Nat := []
  entry : List Byte := []
  owners : Tbl Nat := []
  regs : Tbl BoundReg := []
  drained : Bool := false
  plan : Option Plan := none
  reads : List Nat := []
  lost : Option Nat := none
  due : Option (Nat × Nat × Nat) := none
  deriving DecidableEq, Repr

/-- An engine's chains and its cache of 16 entries by slot and offset (R188, R192). -/
structure Engine where
  chains : Tbl Chain := []
  cache : List (Nat × Nat × List Byte) := []
  deriving DecidableEq, Repr

/-- A grant of accumulator banks (R178, R179). `ty`: 0 raw, 1 fp32, 2 i32. -/
structure Grant where
  slot : Nat
  serial : Nat
  count : Nat
  base : Nat
  ty : Nat := 0
  deriving DecidableEq, Repr

/-- A multiply that has issued and not performed (R180, R181), with its cohort. -/
structure MatOp where
  id : Nat
  uid : Nat := 0
  slot : Nat
  grant : Nat
  ha : Nat
  hb : Nat
  paired : Bool
  started : Bool
  deriving DecidableEq, Repr

/-- A request for frames, in issue order (R166). -/
structure FrameReq where
  uid : Nat
  split : Nat
  slot : Nat
  handle : Nat
  frames : Nat
  deriving DecidableEq, Repr

/-- A frame of the L1 data cache (R242 to R244): valid granules, bytes, dirty bytes, RRPV and predictor use, and the granules that are
poisoned (R396). -/
structure L1Frame where
  line : Nat
  valid : List Nat
  bytes : Mem
  dirty : List Nat
  sm : Bool
  rrpv : Nat
  pix : Nat
  filled : Nat
  used : List Nat
  poison : List Nat := []
  deriving DecidableEq, Repr

/-- An entry of a translation buffer (R325): a page of `2 ^ bits` bytes. -/
structure TlbEntry where
  asid : Nat
  vpn : Nat
  bits : Nat
  ppn : Nat
  r : Bool
  w : Bool
  x : Bool
  sm : Bool
  deriving DecidableEq, Repr

/-- A core (R9, R15, R210). `lclk` counts its clock; `barClk` is the cycle in which its barrier unit last took an arrival (R125). `lines` has the lines
of the lane register cache as cohort and register, the one least recently used first (R219). `busy` is the cycle up to which each port's quad is
occupied, and `busyLanes` the lanes that write there (R105, R213); `suspect` has each port's suspect lanes (R407). -/
structure CoreSt where
  lclk : Nat := 0
  barClk : Nat := 0
  lines : List (Nat × Nat) := []
  busy : Tbl Nat := []
  busyLanes : Tbl Mask := []
  cohorts : Tbl Cohort := []
  away : List Cohort := []
  owners : Tbl Nat := []
  blocks : Tbl Block := []
  copyEng : Engine := {}
  gatherEng : Engine := {}
  grants : List Grant := []
  grantSerial : Nat := 0
  mats : List MatOp := []
  frameWaits : List FrameReq := []
  l1 : Tbl L1Frame := []
  pred : Tbl Nat := []
  kcache : List (Nat × List Byte) := []
  tcache : List (Nat × List Byte) := []
  tlb : List TlbEntry := []
  rrQuad : Tbl Nat := []
  rrUni : Tbl Nat := []
  gated : Nat := 0
  govStep : Nat := 0
  suspect : Tbl Mask := []
  katNext : Tbl Nat := []
  held : Bool := false
  deriving DecidableEq, Repr

/-- A gang barrier on one stack's side of a gang (R127): its phase, the ranks arrived, whether the local phase is
complete and whether the other side's message has been seen. -/
structure GangBar where
  phase : Bool := false
  expected : Nat := 0
  arrived : List Nat := []
  done : Bool := false
  seen : Bool := false
  deriving DecidableEq, Repr

/-- A gang (R221): its members as pairs of core and slot by rank, its pooled window, and its barriers, number `n` of side `d`
at `2 * n + d`. -/
structure Gang where
  members : List (Nat × Nat)
  window : Nat
  bars : Tbl GangBar := []
  deriving DecidableEq, Repr

/-- A stage of a launch, from the image's stage entry (R77) and the record's (R299), with its progress. `redo` has the
first tasks of gangs that a warm reset lost, to be placed again (R416). -/
structure StageSt where
  entry : Nat := 0
  cohorts : Nat := 0
  gang : Nat := 1
  handles : Nat := 0
  acc : Nat := 0
  scratch : Nat := 0
  regs : List Nat := []
  roles : List Nat := []
  bounds : Nat := 0
  gx : Nat := 0
  gy : Nat := 0
  gz : Nat := 0
  qlog : Nat := 0
  workers : Nat := 0
  qd : Bool := false
  placed : Nat := 0
  ended : Nat := 0
  redo : List Nat := []
  queue : List DWord := []
  deriving DecidableEq, Repr

/-- A channel declaration (R77). -/
structure ChanDecl where
  ch : Nat
  src : Nat
  dst : Nat
  slots : Nat
  size : Nat
  deriving DecidableEq, Repr

/-- Where a launch record came from (R302, R313). -/
inductive Source where
  | mgmt
  | hostQueue (n : Nat)
  | spawn (core uid split : Nat) (launch : Nat)
  deriving DecidableEq, Repr

/-- A record submitted and not yet accepted (R302). From a `SPAWN`: its address, context and level cap, and its 256 bytes, or
none where they could not be read (R135). From a host queue: `addr` is the number of its entry (R376). From the management
queue: `addr` and `asid` are the two doublewords of its entry (R379). `at_` is the hub-clock cycle in which it came. -/
structure Submission where
  src : Source
  addr : Nat
  asid : Nat
  level : Nat
  bytes : Option (List Byte)
  at_ : Nat := 0
  deriving DecidableEq, Repr

/-- A live launch (R298 to R316). `closing` is the state that its status block has been given at its end, and 0 before (R315). -/
structure Launch where
  src : Source
  asid : Nat
  level : Nat
  image : Nat
  dataBase : Nat
  cdest : Nat
  kind : Nat
  scope : Nat
  cseq : Nat
  status : Nat
  seed : Nat
  det : Bool
  coremask : BitVec 256
  wdog : Nat
  nbound : Nat
  btab : Nat
  args : List DWord
  stages : List StageSt
  chans : List ChanDecl
  eligible : List (List Nat)
  nerr : Nat := 0
  err0 : Nat := 0
  err0pc : Nat := 0
  placed : Nat := 0
  dropped : Nat := 0
  quiet : Bool := false
  killed : Bool := false
  completing : Bool := false
  closing : Nat := 0
  deriving DecidableEq, Repr

/-- A way of a home slice (R275). -/
structure Way where
  set : Nat
  line : Nat
  rrpv : Nat
  dirty : Bool
  deriving DecidableEq, Repr

/-- An entry of a slice's miss table (R277): the line being read, the reuse code that it is inserted with, the accesses that wait for it, and whether one
of them has changed it (R278). -/
structure Miss where
  line : Nat
  reuse : Nat
  ids : List Nat
  soiled : Bool := false
  deriving DecidableEq, Repr

/-- A home slice (R275 to R280): ways, lines being filled with the accesses that wait, the lines of the writes in the write-back
buffer and in the reserved slots, and the cluster that owns a line. -/
structure Slice where
  ways : List Way := []
  misses : List Miss := []
  wbuf : List Nat := []
  reserved : List Nat := []
  owner : Tbl Nat := []
  deriving DecidableEq, Repr

/-- An FP32 shadow of a line (R152, R279): the element type and one FP32 value an element. -/
structure Shadow where
  ty : Nat
  vals : List Word
  deriving DecidableEq, Repr

/-- An armed monitor (R280), with the context, core and slot of the cohort that it wakes. -/
structure Monitor where
  id : Nat
  addr : Nat
  wide : Bool
  cond : Nat
  cmp : Nat
  uid : Nat
  asid : Nat := 0
  core : Nat := 0
  slot : Nat := 0
  deriving DecidableEq, Repr

/-- An access under way (R155, R276): the lanes that reach one 128-byte line or one bank, from a core's cohort, with the bytes of the line that
a load brings back. `stage`: 0 on its way, 1 performed and not acknowledged, 2 performed at a slice that still fills its line. `full` is 1 for `.fe`
and 2 for `.fec`; `stamp` is when its bank first found a granule empty (R232), or when it arrived at its slice (R276). `mask` has the lanes of the
instruction that made it. An access of a chain has `chain`, which counts the chains of the core's engines from 1, a lane for each byte, which `y` marks
as poisoned, `fills` where it sets full bits (R200), and `owner`, the cohort that a write to a register window is for (R248). -/
structure Access where
  core : Nat
  uid : Nat
  seq : Nat
  kind : AccKind
  scope : Nat
  size : Nat
  path : Nat
  reuse : Nat
  lanes : List LaneAcc
  data : List Byte
  stage : Nat
  pix : Nat
  full : Nat := 0
  stamp : Nat := 0
  mask : Mask := 0
  chain : Nat := 0
  fills : Bool := false
  owner : Nat := 0
  deriving DecidableEq, Repr

/-- A row that is due, with what it acts on: the operands that Syntax.lean names for it. -/
structure Due where
  row : Instr
  ops : List Nat := []
  deriving DecidableEq, Repr

/-- A packet in the network (R270, R272): its class, routers, where it is and where it came from, the
route it takes, the class it acknowledges counted from 1, the row it delivers, whether it went through an escape buffer (R285), and the rest of its
header: port, flits after the first, operation, scope, reuse, address and tag. -/
structure Packet where
  cls : Nat
  src : Nat
  dst : Nat
  here : Nat
  from_ : Nat
  colFirst : Bool
  acks : Nat
  incarn : Nat
  deliver : Due
  escaped : Bool := false
  port : Nat := 0
  flits : Nat := 0
  op : Nat := 0
  scope : Nat := 0
  reuse : Nat := 0
  addr : Nat := 0
  tag : Nat := 0
  deriving DecidableEq, Repr

/-- A cycle of blocked router inputs that a probe has found (R282): when, and its inputs from the origin on; `granted` once the hub
has sent the rotation token (R283). -/
structure Cycle where
  time : Nat
  inputs : List Nat
  granted : Bool := false
  deriving DecidableEq, Repr

/-- The network (R269 to R285): packets, router inputs as queues of packets with the rotated packet at the tail, the buffers of an
input, flows' routes and counts, escape buffers, rotation slots, the hub-clock cycle since which an input's head cannot move,
probes as their lists of inputs, cycles found, and the last 8 cycles rotated with the cycle of their first detection. -/
structure Net where
  packets : Tbl Packet := []
  inputs : Tbl (List Nat) := []
  depth : Nat := 7
  flowCol : Tbl Bool := []
  flowCount : Tbl Nat := []
  escape : Tbl (List Nat) := []
  rotation : Tbl Nat := []
  stuck : Tbl Nat := []
  probes : Tbl (List Nat) := []
  found : Tbl Cycle := []
  rotated : List (List Nat × Nat) := []
  hubClock : Nat := 0
  deriving DecidableEq, Repr

/-- An input of a combine port (R355): the window that it is for, its bucket, segment and round, the ranks it covers, and its
payload with the granules of it that are poisoned. `spilled` is its place in the spill area, which then has the payload (R363). -/
structure Segment where
  win : Nat
  tag : Nat
  seg : Nat
  round : Nat
  rlo : Nat
  rhi : Nat
  data : List Byte
  bad : List Nat := []
  spilled : Option Nat := none
  deriving DecidableEq, Repr

/-- A handler's partial (R357, R362): its ranks, in reduce mode its elements with those that are poisoned and the greatest exponent
of each shared-exponent block among its inputs (R364), otherwise its bytes with their poisoned granules. -/
structure Sum where
  rlo : Nat := 0
  rhi : Nat := 0
  elems : List Word := []
  exps : List Nat := []
  data : List Byte := []
  bad : List Nat := []
  deriving DecidableEq, Repr

/-- A combine handler (R356, R359). `comb` is a `UCOMB` under way: its two ranks and the rank that it waits for, since hub-clock cycle
`since`. `pending` holds its writes to peers that are not acknowledged; `spilled` is the place of its partial in the spill area (R363). -/
structure Handler where
  win : Nat
  tag : Nat
  seg : Nat
  round : Nat
  pc : Nat
  e : Tbl DWord := []
  part : Option Sum := none
  comb : Option (Nat × Nat × Nat) := none
  since : Nat := 0
  done : Bool := false
  count : Nat := 0
  pending : List Nat := []
  spilled : Option Nat := none
  deriving DecidableEq, Repr

/-- A bucket of a window (R354, R363): its round, the segments done in it, and those whose handler has started in it. -/
structure Bucket where
  win : Nat
  tag : Nat
  round : Nat := 0
  doneSegs : List Nat := []
  begun : List Nat := []
  spilled : Bool := false
  deriving DecidableEq, Repr

/-- A segment being assembled from contribution stores (R353): the bytes that have come, and its place in the spill area (R363). -/
structure Assembly where
  win : Nat
  tag : Nat
  seg : Nat
  rank : Nat
  bytes : Tbl Byte
  spilled : Option Nat := none
  deriving DecidableEq, Repr

/-- A packet sent over Ultra Ethernet (R370) and not acknowledged: its port and peer, its segment header and payload with its poisoned granules, how often
it has been sent, and the hub-clock cycle of the last time. -/
structure UePacket where
  port : Nat
  peer : Nat
  win : Nat
  header : Nat
  payload : Nat
  tries : Nat := 1
  bad : List Nat := []
  since : Nat := 0
  deriving DecidableEq, Repr

/-- The Uliah engine (R348 to R371): program memory with the words that an error has struck (R396), handlers, buckets, segments being
assembled, inputs, the ranges recorded of each group (R363), the segments that each window has sent, the packets sent over Ultra Ethernet, and the ports and
headers of those acknowledged there (R370). `last` is the handler that each port ran last, and `port` the one that comes next in the hub-clock cycle (R356);
`owed` has the signal objects that still take a halt's 0 (R366, R369). -/
structure Uliah where
  prog : Tbl (BitVec 32) := []
  badWords : List Nat := []
  handlers : Tbl Handler := []
  buckets : List Bucket := []
  parts : List Assembly := []
  inputs : Tbl Segment := []
  seen : List (Nat × Nat × Nat × Nat × Nat × Nat) := []
  counts : Tbl Nat := []
  sent : Tbl UePacket := []
  acks : List (Nat × Nat) := []
  last : Tbl Nat := []
  port : Nat := 0
  owed : List Nat := []
  deriving DecidableEq, Repr

/-- What the package answers to the host, to a peer or over MCTP: what was asked, the value, whether it is poisoned (R398), and whether the access is an
address error (R381). -/
structure Reply where
  what : Nat
  value : Nat
  bad : Bool := false
  err : Bool := false
  deriving DecidableEq, Repr

/-- What waits at a fabric port to leave (R383, R419): an access to a peer, by its name, or the answer to an access of a peer. -/
inductive PortItem where
  | access (id : Nat)
  | reply (r : Reply)
  deriving DecidableEq, Repr

/-- A packet of a link (R383): its sequence number and what it carries. -/
structure FabPacket where
  seq : Nat
  items : List PortItem
  deriving DecidableEq, Repr

/-- What a link has put on its lanes (R383): a packet, or the cumulative acknowledgement of the peer's packets, which with `again` asks for those
that follow once more. -/
inductive Wire where
  | packet (seq : Nat)
  | ack (seq : Nat) (again : Bool)
  deriving DecidableEq, Repr

/-- A fabric link (R383, R418, R419): the next sequence number to send, the last one acknowledged and the next one expected, the packets that are not
acknowledged, failed lanes, active lanes, replays, the lanes that a retraining under way ends with, what waits at its port, the hub-clock cycle from
which the next packet may leave, and what has been sent. -/
structure Link where
  nextSeq : Nat := 0
  lastAck : Nat := 0
  expected : Nat := 0
  unacked : List FabPacket := []
  badLanes : List Nat := []
  width : Nat := 0
  replays : Nat := 0
  retrain : Option Nat := none
  port : List PortItem := []
  free : Nat := 0
  wire : List Wire := []
  deriving DecidableEq, Repr

/-- An access to a peer package that is not acknowledged (R381, R384): what it does there at an offset of the peer's window, with its data or, for an
access of lanes, their operands in lane order, the access that waits for it, if one does, the launch with its stage, core and cohort slot that it came
from, since when its peer has no link left, and which of its bytes are poisoned (R397). `engine` marks an access of an engine. -/
structure PeerAcc where
  peer : Nat
  off : Nat
  kind : AccKind
  size : Nat
  data : Nat
  lanes : List LaneAcc := []
  access : Nat := 0
  launch : Nat := 0
  stage : Nat := 0
  core : Nat := 0
  slot : Nat := 0
  since : Option Nat := none
  bad : List Nat := []
  engine : Bool := false
  deriving DecidableEq, Repr

/-- A part of a store as it is saved: bytes, full granules and poisoned granules, from its first address on. -/
structure SavedPart where
  bytes : Mem := []
  full : List Nat := []
  poison : List Nat := []
  deriving DecidableEq, Repr

/-- A block of an evicted group (R342): where it was, the block, its cohorts, its grants, and where its save area begins. -/
structure SavedBlock where
  core : Nat
  slot : Nat
  block : Block
  cohorts : List Cohort
  grants : List Grant
  at_ : Nat
  deriving DecidableEq, Repr

/-- A placement group that is evicted (R342), with the context and the page of the save area, its gangs, its channels and where their counts stand. -/
structure SavedGroup where
  asid : Nat
  page : Nat
  gangs : Tbl Gang
  blocks : List SavedBlock
  chans : Tbl Chan
  counts : Nat := 0
  deriving DecidableEq, Repr

/-- A checkpoint of a stack (R414): its groups as eviction saves them, where the copies of their cohort images and the counts of their channels stand,
and their monitors. -/
structure Checkpoint where
  blocks : List SavedBlock := []
  gangs : Tbl Gang := []
  chans : Tbl Chan := []
  counts : Nat := 0
  images : Tbl Nat := []
  monitors : Tbl Monitor := []
  deriving DecidableEq, Repr

/-- A packet of a message log (R415): what it does, with the access that it carries or its payload. -/
structure LogItem where
  row : Due
  acc : Option Access := none
  payload : Option (List Byte × List Nat) := none
  deriving DecidableEq, Repr

/-- A stack's checkpoint state (R413 to R416): its incarnation, checkpoint mode, the step of what is under way (of a checkpoint, 1 swapping out, 2 waiting
for quiet since hub-clock cycle `since`, 3 restoring; of a warm reset, 4 with restore and 5 without) and whether the message log forced it, the checkpoint,
the packets logged, the bytes of the log, the block ends withheld, the packets held, the last result and the checkpoints taken. Of a warm reset, `up` counts
the cores that have come up and `gone` has the gangs that it lost: gang, launch, stage and first task. -/
structure StackSt where
  incarn : Nat := 0
  mode : Bool := false
  step : Nat := 0
  since : Nat := 0
  forced : Bool := false
  saved : Option Checkpoint := none
  log : List LogItem := []
  logged : Nat := 0
  heldComps : List Due := []
  packets : List Due := []
  result : Nat := 0
  taken : Nat := 0
  up : Nat := 0
  gone : List (Nat × Nat × Nat × Nat) := []
  deriving DecidableEq, Repr

/-- Power and boot (R424 to R428). `stage` is that of `BOOTSTAT`, 0 while the package is off; `islands` is how many islands have come up;
`identity` the device identity key, private and public, once it is derived; `halted` that boot has stopped; the copy of the binding map in use; the measurements by index; the copies of
the map that the root of trust has signed on request; and `capped` that the power limit holds every core at 1.8 GHz. `flash` has the
doublewords of the map's copies that service software has written, that of index i of copy n under 512 n + i (R410). -/
structure Boot where
  stage : Nat := 0
  islands : Nat := 0
  identity : Option (Nat × Nat) := none
  halted : Bool := false
  mapCopy : Nat := 0
  measured : Tbl Nat := []
  signed : List Nat := []
  capped : Bool := false
  flash : Tbl DWord := []
  deriving DecidableEq, Repr

/-- The scan controller (R406). `stage`: 0 no command, 1 waiting for the core to empty, 2 ending; with the command's core and
package, its result, and the serial of the last package that passed. -/
structure Scan where
  stage : Nat := 0
  core : Nat := 0
  package : Nat := 0
  result : Nat := 0
  vectors : Nat := 0
  passed : Nat := 0
  deriving DecidableEq, Repr

/-- Who issues the instruction that `exec` runs, and the word that was fetched. -/
structure Cur where
  core : Nat := 0
  slot : Nat := 0
  split : Nat := 0
  word : Nat := 0
  len : Nat := 4
  deriving DecidableEq, Repr

/-- The machine. `hostWait` has the host's accesses that wait for their order or for a slice, and `hostRow` the last register write that came of them
(R375). `picks`, `agenda`, `ev` (what the row at hand acts on), `cur`, `turn`, `freeCount` and `nextId` are the model's own (log entries 1 and 2). -/
structure State where
  picks : List Nat
  agenda : List Due
  ev : List Nat
  cur : Cur
  turn : Nat
  freeCount : Nat
  nextId : Nat
  mem : Mem
  full : List Nat
  poison : List Nat
  accPoison : List Nat
  hub : Tbl DWord
  cores : Tbl CoreSt
  gangs : Tbl Gang
  chans : Tbl Chan
  launches : Tbl Launch
  waiting : Tbl Submission
  begun : List Nat
  recCache : List (Nat × List Byte)
  bndCache : List (Nat × List Byte)
  bounds : Tbl BoundReg
  opened : List Nat
  invals : Tbl (List Nat)
  slices : Tbl Slice
  shadows : Tbl Shadow
  monitors : Tbl Monitor
  accs : Tbl Access
  net : Net
  fs : Tbl Nat
  ul : Uliah
  links : Tbl Link
  peers : Tbl PeerAcc
  hostMem : Mem
  hostWait : List Due
  hostRow : Option Due
  hostOut : List Reply
  spdm : List Reply
  stackTbl : Tbl StackSt
  boot : Boot
  scan : Scan
  saved : List SavedGroup
  corrected : Tbl (Nat × Nat)
  deriving DecidableEq, Repr

/-- Why the machine can stop. -/
inductive Fault where
  /-- Raised by `exec` of a core instruction when no live split issues it. Safe: hardware has no such case. -/
  | noIssuer
  /-- Raised by `exec` of a Uliah instruction when no handler runs it. Safe: hardware has no such case. -/
  | noHandler
  deriving DecidableEq, Repr

/-- Why the machine can refuse. -/
inductive Refusal where
  /-- Raised by an arm of `exec` whose instruction has no meaning yet. Safe: the model stops where hardware goes on. -/
  | notModelled (mnemonic : String)
  deriving DecidableEq, Repr

/-- The package before power-good (R425): nothing runs and nothing is placed. -/
def State.reset : State where
  picks := []
  agenda := []
  ev := []
  cur := {}
  turn := 0
  freeCount := 0
  nextId := 1
  mem := []
  full := []
  poison := []
  accPoison := []
  hub := []
  cores := []
  gangs := []
  chans := []
  launches := []
  waiting := []
  begun := []
  recCache := []
  bndCache := []
  bounds := []
  opened := []
  invals := []
  slices := []
  shadows := []
  monitors := []
  accs := []
  net := {}
  fs := []
  ul := {}
  links := []
  peers := []
  hostMem := []
  hostWait := []
  hostRow := none
  hostOut := []
  spdm := []
  stackTbl := []
  boot := {}
  scan := {}
  saved := []
  corrected := []

end Sys2Proof.Machine
end

