-- ==== Sys2Proof/Machine/Regs.lean ====
section
/-! DEFINITION. Reading and writing the parts of the state: cores, cohorts, blocks, registers, lane masks, splits and join
records. -/

namespace Sys2Proof.Machine

open Sys2Proof

/-- What an instruction or an event row answers. -/
abbrev Out := Host.Outcome State Fault Refusal

/-! Cores, cohorts and blocks. -/

/-- Core `c`. -/
def State.core (s : State) (c : Nat) : CoreSt := Tbl.at s.cores c {}

/-- Core `c` put in place. -/
def State.setCore (s : State) (c : Nat) (x : CoreSt) : State := { s with cores := Tbl.put s.cores c x }

/-- Core `c` changed. -/
def State.onCore (s : State) (c : Nat) (f : CoreSt → CoreSt) : State := s.setCore c (f (s.core c))

/-- The cohort in slot `k` of core `c`. -/
def State.cohort? (s : State) (c k : Nat) : Option Cohort := Tbl.find? (s.core c).cohorts k

/-- The cohort in slot `k` of core `c` put in place. -/
def State.setCohort (s : State) (c k : Nat) (h : Cohort) : State :=
  s.onCore c fun x => { x with cohorts := Tbl.put x.cohorts k h }

/-- The cohort in slot `k` of core `c`, if there is one, changed. -/
def State.onCohort (s : State) (c k : Nat) (f : Cohort → Cohort) : State :=
  match s.cohort? c k with
  | some h => s.setCohort c k (f h)
  | none => s

/-- The block in slot `b` of core `c`. -/
def State.block? (s : State) (c b : Nat) : Option Block := Tbl.find? (s.core c).blocks b

/-- The block in slot `b` of core `c` put in place. -/
def State.setBlock (s : State) (c b : Nat) (x : Block) : State :=
  s.onCore c fun co => { co with blocks := Tbl.put co.blocks b x }

/-- The block in slot `b` of core `c`, if there is one, changed. -/
def State.onBlock (s : State) (c b : Nat) (f : Block → Block) : State :=
  match s.block? c b with
  | some x => s.setBlock c b (f x)
  | none => s

/-- The cohort that issues the instruction at hand. -/
def State.me? (s : State) : Option Cohort := s.cohort? s.cur.core s.cur.slot

/-- The issuing cohort changed. -/
def State.onMe (s : State) (f : Cohort → Cohort) : State := s.onCohort s.cur.core s.cur.slot f

/-- Operand `n` of the row at hand. -/
def State.arg (s : State) (n : Nat) : Nat := s.ev.getD n 0

/-- Rows put at the end of what is due. -/
def State.pushAll (s : State) (l : List Due) : State := { s with agenda := s.agenda ++ l }

/-- A row put at the end of what is due. -/
def State.push (s : State) (i : Instr) (ops : List Nat) : State := s.pushAll [{ row := i, ops := ops }]

/-- A row put at the end of what is due unless it stands there. -/
def State.pushOnce (s : State) (i : Instr) (ops : List Nat) : State :=
  if s.agenda.contains { row := i, ops := ops } then s else s.push i ops

/-- The next free value and the state that has drawn it (log entry 2). -/
def State.draw (s : State) : DWord × State := (Config.freeValue s.freeCount, { s with freeCount := s.freeCount + 1 })

/-- A name for an access, a packet or a launch, and the state that has given it out. -/
def State.newId (s : State) : Nat × State := (s.nextId, { s with nextId := s.nextId + 1 })

/-! Lane masks. -/

/-- Lane `l` is in the mask. -/
def inMask (m : Mask) (l : Nat) : Bool := m.getLsbD l

/-- The mask of the lanes that a test picks. -/
def maskOf (f : Nat → Bool) : Mask := (List.range 32).foldl (fun a l => if f l then a ||| (1#32 <<< l) else a) 0

/-- The lanes of a mask, rising. -/
def lanesOf (m : Mask) : List Nat := (List.range 32).filter (inMask m)

/-- The lowest lane of a mask; 32 where there is none (R113). -/
def lowestLane (m : Mask) : Nat := ((List.range 32).find? (inMask m)).getD 32

/-! Registers. -/

/-- The word of lane `l`. -/
def VReg.lane (r : VReg) (l : Nat) : Word := r.val.getD l 0

/-- A lane register as a line of bytes (R247). -/
def VReg.bytes (r : VReg) : List Byte := (List.range 32).flatMap fun l => leBytes 4 (r.lane l).toNat

/-- Lane register `n`. -/
def Cohort.vreg (h : Cohort) (n : Nat) : VReg := Tbl.at h.v n {}

/-- The word of lane register `n` in lane `l`. -/
def Cohort.lane (h : Cohort) (n l : Nat) : Word := (h.vreg n).lane l

/-- The pair `v(n+1):v(n)` in lane `l` (R21). -/
def Cohort.pair (h : Cohort) (n l : Nat) : DWord := (h.lane (n + 1) l) ++ (h.lane n l)

/-- The format tag of lane register `n` (R31). -/
def Cohort.vtag (h : Cohort) (n : Nat) : Nat := (h.vreg n).tag

/-- Lane register `n` with words written in the lanes of a mask and its tag set (R78): other lanes keep their word. A word
written from good data is no longer poisoned. -/
def Cohort.setLanes (h : Cohort) (n : Nat) (m : Mask) (tag : Nat) (f : Nat → Word) : Cohort :=
  let r := h.vreg n
  { h with
    v := Tbl.put h.v n
      { val := (List.range 32).map fun l => if inMask m l then f l else r.lane l, tag := tag, poison := r.poison &&& ~~~m }
    dirty := insNat h.dirty n }

/-- The pair `n`, `n + 1` written from doublewords, both registers taking the tag (R31, R78). -/
def Cohort.setPair (h : Cohort) (n : Nat) (m : Mask) (tag : Nat) (f : Nat → DWord) : Cohort :=
  (h.setLanes n m tag fun l => (f l).extractLsb' 0 32).setLanes (n + 1) m tag fun l => (f l).extractLsb' 32 32

/-- Uniform register `n`; `q0` reads zero (R54). -/
def Cohort.uq (h : Cohort) (n : Nat) : DWord := if n = 0 then 0 else (Tbl.at h.q n {}).val

/-- The format tag of uniform register `n`. -/
def Cohort.utag (h : Cohort) (n : Nat) : Nat := if n = 0 then 0 else (Tbl.at h.q n {}).tag

/-- Uniform register `n` written with its tag; a write to `q0` is discarded (R54). -/
def Cohort.setQ (h : Cohort) (n : Nat) (x : DWord) (tag : Nat) : Cohort :=
  if n = 0 then h else { h with q := Tbl.put h.q n { val := x, tag := tag, poison := false } }

/-- Predicate `n` in all lanes; `p0` reads 1 (R92). -/
def Cohort.pred (h : Cohort) (n : Nat) : Mask := if n = 0 then BitVec.allOnes 32 else Tbl.at h.p n 0

/-- Predicate `n` written in the lanes of a mask; `p0` is not written (R65, R78). -/
def Cohort.setPred (h : Cohort) (n : Nat) (m v : Mask) : Cohort :=
  if n = 0 then h else { h with p := Tbl.put h.p n ((h.pred n &&& ~~~m) ||| (v &&& m)) }

/-- The lanes where a guard passes (R55). -/
def Cohort.guardMask (h : Cohort) (g : Nat) : Mask :=
  if g = 0 then BitVec.allOnes 32 else if 8 ≤ g then ~~~(h.pred (g % 8)) else h.pred (g % 8)

/-- The active lanes of a split (R7). -/
def Cohort.active (h : Cohort) (sp : Split) : Mask := sp.entry &&& sp.exec &&& ~~~h.dmask

/-- The writing lanes of an instruction with guard `g` (R78). -/
def Cohort.writing (h : Cohort) (sp : Split) (g : Nat) : Mask := h.active sp &&& h.guardMask g

/-- The lanes that are neither grey nor exited. -/
def Cohort.alive (h : Cohort) : Mask := ~~~(h.dmask ||| h.exited)

/-! Splits (R109 to R111). -/

/-- Split `i` of the table. -/
def Cohort.split? (h : Cohort) (i : Nat) : Option Split := Tbl.find? h.splits i

/-- Split `i` put in place. -/
def Cohort.setSplit (h : Cohort) (i : Nat) (sp : Split) : Cohort := { h with splits := Tbl.put h.splits i sp }

/-- Split `i`, if there is one, changed. -/
def Cohort.onSplit (h : Cohort) (i : Nat) (f : Split → Split) : Cohort := { h with splits := Tbl.adj h.splits i f }

/-- A new split: a free entry of the table, or the overflow area where all 8 are valid (R111). DESIGN CHOICE (log entry 83): it takes the lowest free
entry; the spec names none. -/
def Cohort.newSplit (h : Cohort) (sp : Split) : Cohort :=
  match Tbl.lowestFree h.splits 8 with
  | some i => h.setSplit i sp
  | none => { h with overflow := sp :: h.overflow }

/-- Split `i` freed: the split stored last in the overflow area moves into its entry (R111). -/
def Cohort.freeSplit (h : Cohort) (i : Nat) : Cohort :=
  match h.overflow with
  | [] => { h with splits := Tbl.del h.splits i }
  | o :: r => { h with splits := Tbl.put (Tbl.del h.splits i) i o, overflow := r }

/-- The lanes a split holds without those of a mask (R110). -/
def Split.without (sp : Split) (m : Mask) : Split := { sp with entry := sp.entry &&& ~~~m, exec := sp.exec &&& ~~~m }

/-- Every entry whose split holds no lane freed, the indices from the list taken in turn (R110). -/
def Cohort.freeEmpty (h : Cohort) : List Nat → Cohort
  | [] => h
  | i :: r =>
    match h.split? i with
    | some sp => if sp.entry = 0 then Cohort.freeEmpty (h.freeSplit i) r else Cohort.freeEmpty h r
    | none => Cohort.freeEmpty h r

/-! Joins (R112 to R115). -/

/-- The lanes of a record that may still arrive. -/
def Cohort.awaited (h : Cohort) (j : Join) : Mask := j.mask &&& ~~~j.arrived &&& ~~~h.dmask &&& ~~~h.exited

/-- `Merge` of R113: the lanes arrived go on as one split at J, and the record keeps the lanes still absent. -/
def Cohort.merge (h : Cohort) (n : Nat) : Cohort :=
  match Tbl.find? h.joins n with
  | none => h
  | some j =>
    let en := j.arrived &&& ~~~h.dmask
    let h1 := if en = 0 then h else
      h.newSplit { pc := j.addr, entry := en, exec := j.mexec &&& en, frm := j.frm, dph := j.dph, join := j.parent }
    let j' := { j with mask := j.mask &&& ~~~j.arrived, arrived := 0, mexec := 0, lead := 32, timer := 0, run := false, from_ := [] }
    if j'.mask &&& ~~~h.dmask &&& ~~~h.exited = 0 then { h1 with joins := Tbl.del h1.joins n }
    else { h1 with joins := Tbl.put h1.joins n j' }

/-- R38, R113: the record's lead renewed where that lane has turned grey: the lowest lane that has arrived and is not grey, with `frm` and `dph` of its
split. DEDUCED (log entry 82): a record that an image has given back knows the lead of the time alone. -/
def Join.renew (j : Join) (dmask : Mask) : Join :=
  let lo := lowestLane (j.arrived &&& ~~~dmask)
  match j.from_.find? fun e => inMask e.1 lo with
  | some e => { j with lead := lo, frm := e.2.1, dph := e.2.2 }
  | none => j

/-- The joins that a lane's greying or exit completes (R115), the indices from the list taken in turn. -/
def Cohort.settleJoins (h : Cohort) : List Nat → Cohort
  | [] => h
  | n :: r =>
    match Tbl.find? h.joins n with
    | none => Cohort.settleJoins h r
    | some j => if h.awaited j = 0 then Cohort.settleJoins (h.merge n) r else Cohort.settleJoins h r

/-- The cohort after lanes have left their splits by greying or exit: empty splits are freed, and joins that waited for
nothing else merge (R110, R115, R116). -/
def Cohort.dropLanes (h : Cohort) (m : Mask) : Cohort :=
  let h1 := { h with
    splits := Tbl.mapv h.splits fun _ (sp : Split) => sp.without m
    joins := Tbl.mapv h.joins fun _ (j : Join) => j.renew h.dmask
    overflow := (h.overflow.map fun (sp : Split) => sp.without m).filter fun sp => sp.entry != 0 }
  (h1.freeEmpty (List.range 8)).settleJoins (List.range 16)

/-- The split stands at the join address of its innermost record and parks instead of issuing (R113). -/
def Cohort.atJoin (h : Cohort) (sp : Split) : Bool :=
  match sp.join with
  | none => false
  | some n => match Tbl.find? h.joins n with
    | none => false
    | some j => j.addr == sp.pc

/-! Instruction fields. -/

/-- A field of `w` bits read as a signed number (R2). -/
def sextTo (w n x : Nat) : BitVec n := (BitVec.ofNat w x).signExtend n

/-- Bits [hi:lo] of a doubleword as a number. -/
def bitsAt (x : DWord) (hi lo : Nat) : Nat := x.toNat / 2 ^ lo % 2 ^ (hi + 1 - lo)

end Sys2Proof.Machine
end

