-- ==== Sys2Proof/Machine/Packets.lean ====
section
/-! DEFINITION. Routers and packets (R269 to R272): where units attach, the header of a packet, the choice of its route, and its sending. -/

namespace Sys2Proof.Machine

open Sys2Proof

/-- The router of a core (R9, R12), numbered 8y + x (R269). -/
def coreRouter (c : Nat) : Nat := 8 * (c % 32 / 16) + c / 32

/-- The router of a slice (R12, R269). -/
def sliceRouter (n : Nat) : Nat := 8 * (2 + n / 16) + n % 16 / 2

/-- R269: the slice router that another unit attaches to, which the package fixes (log entry 6): 0 the host complex with the hub's registers, 1 the
Uliah engine, 2 and on a fabric link, 34 the host port, 35 and on the near-memory channel of a slice. -/
def unitRouter (u : Nat) : Nat := 16 + Config.router u % 32

/-- R272: the port of a slice at its router, of the two that share it. -/
def slicePort (n : Nat) : Nat := n % 2

/-- R269: the port of a core at its router: one of sixteen. -/
def corePort (c : Nat) : Nat := c % 16

/-- The number of a flow: its class, source router and destination router (R270). -/
def flowKey (cls src dst : Nat) : Nat := (cls * 48 + src) * 48 + dst

/-- The number of a router's input from a router, for a class (R269, R271). -/
def inputKey (here from_ cls : Nat) : Nat := (here * 48 + from_) * 4 + cls

/-- The router that a packet goes to next (R270): straight where the routers share a row or a column, else by way of the
corner that its route names. -/
def nextHop (here dst : Nat) (colFirst : Bool) : Nat :=
  if here / 8 = dst / 8 ∨ here % 8 = dst % 8 then dst
  else if colFirst then 8 * (dst / 8) + here % 8 else 8 * (here / 8) + dst % 8

/-- The packets that wait at a router's input. -/
def Net.queue (n : Net) (key : Nat) : List Nat := Tbl.at n.inputs key []

/-- The buffers of an input that are taken; the packet in its rotation slot takes none (R283). -/
def Net.used (n : Net) (key : Nat) : Nat := (n.queue key).length - (if Tbl.has n.rotation key then 1 else 0)

/-- The network changed. -/
def State.onNet (s : State) (f : Net → Net) : State := { s with net := f s.net }

/-- R270: whether a new packet goes column-first. A flow with packets not yet acknowledged keeps its route; otherwise the
first hop with more free credits is taken, row-first where they are equal. -/
def Net.route (n : Net) (cls src dst : Nat) : Bool :=
  if cls != 1 && Tbl.at n.flowCount (flowKey cls src dst) 0 != 0 then Tbl.at n.flowCol (flowKey cls src dst) false
  else n.used (inputKey (nextHop src dst true) src cls) < n.used (inputKey (nextHop src dst false) src cls)

/-! Headers (R272). -/

/-- The access that a row carries, if it carries one, under its name. -/
def State.accOf (s : State) (d : Due) : Option (Nat × Access) :=
  let named (n : Nat) : Option (Nat × Access) := (Tbl.find? s.accs n).map fun a => (n, a)
  match d.row with
  | .sliceAccess => named (d.ops.headD 0)
  | .bankAccess => named (d.ops.headD 0)
  | .sliceWriteback => named (d.ops.headD 0)
  | .awContribution => named (d.ops.headD 0)
  | .writeAcknowledgement => named (d.ops.headD 0)
  | .loadDataReturn => named (d.ops.getD 2 0)
  | _ => none

/-- The operation of an access within its class, by the model's own numbers (log entry 74). -/
def AccKind.opCode : AccKind → Nat
  | .load => 0
  | .store => 1
  | .atom .. => 2
  | .cas _ => 3
  | .redm .. => 4
  | .sub => 5
  | .wback => 6

/-- R272: the bytes that a packet carries after its header: nothing for a read request and an acknowledgement, operands, a line of data, a dirty mask
with a line, or a slot with its header. -/
def State.payloadSize (s : State) (d : Due) : Nat :=
  match d.row, s.accOf d with
  | .loadDataReturn, some (_, a) => max a.data.length (a.lanes.length * a.size)
  | .writeAcknowledgement, _ => 0
  | .channelPacketReceive, _ => 16 + (Tbl.find? s.chans (d.ops.headD 0)).elim 0 (·.size)
  | _, some (_, a) =>
    (match a.kind with
      | .load => 0
      | .wback => 144
      | .cas _ => 2 * a.size * a.lanes.length
      | _ => min 128 (a.size * a.lanes.length))
  | _, none => 0

/-- R272: the header of a packet beside its routers: flits after the first, operation, scope, reuse, address and tag. -/
def State.header (s : State) (d : Due) (p : Packet) : Packet :=
  let a := (s.accOf d).map Prod.snd
  { p with
    flits := (16 + s.payloadSize d + 63) / 64 - 1
    op := a.elim 0 (·.kind.opCode)
    scope := a.elim 0 (·.scope)
    reuse := a.elim 0 (·.reuse)
    addr := a.elim 0 fun x => (x.lanes.headD { lane := 0, va := 0 }).pa
    tag := (s.accOf d).elim 0 fun e => e.1 % 2 ^ 16 }

/-- R272: the incarnation of the stack whose router sends, or of the hub, which never changes. -/
def State.incarnAt (s : State) (router : Nat) : Nat := if router < 16 then (Tbl.at s.stackTbl (router % 8) {}).incarn else 0

/-- A packet sent from a router to another, to deliver a row there at a port. `acks` names the class, counted from 1, of the packet
that it acknowledges. Between units of one router nothing travels. -/
def State.sendTo (s : State) (cls acks src dst port : Nat) (d : Due) : State :=
  let here : Bool := src == dst
  let id := s.nextId
  let n := s.net
  let col := n.route cls src dst
  let f := flowKey cls src dst
  let p : Packet := { cls := cls, src := src, dst := dst, here := src, from_ := src, colFirst := col, acks := acks,
                      incarn := s.incarnAt src, deliver := d, port := port }
  let key := inputKey src src cls
  { s with
    nextId := if here then id else id + 1
    agenda := s.agenda ++ [if here then d else { row := .packetRoute, ops := [id] }]
    net := if here then n else { n with
      packets := Tbl.put n.packets id (s.header d p)
      inputs := Tbl.put n.inputs key (n.queue key ++ [id])
      flowCol := if cls = 1 then n.flowCol else Tbl.put n.flowCol f col
      flowCount := if cls = 1 then n.flowCount else Tbl.put n.flowCount f (Tbl.at n.flowCount f 0 + 1) } }

/-- A packet sent to port 0 of a router. -/
def State.send (s : State) (cls acks src dst : Nat) (d : Due) : State := s.sendTo cls acks src dst 0 d

end Sys2Proof.Machine
end

