-- ==== Sys2Proof/Machine/Map.lean ====
section
/-! DEFINITION. The physical map (R14, R15), the home slices of lines (R273, R274), hub registers as they read, the bytes of memory with their poison and
full bits, open shadows, and cohorts by name. -/

namespace Sys2Proof.Machine

open Sys2Proof

/-! The physical map (R14, R15). -/

/-- The stores of a core window (R15). -/
inductive Part where
  | scratch | regWindow | tile | acc | page | reserved
  deriving DecidableEq, Repr

/-- Where a physical address lies (R14). -/
inductive Region where
  | near
  | far
  | peer (p off : Nat)
  | core (c : Nat) (part : Part) (off : Nat)
  | alias_ (w off : Nat)
  | hub (off : Nat)
  | unmapped
  deriving DecidableEq, Repr

/-- The store of a core window and the offset in it (R15). -/
def partOf (off : Nat) : Part × Nat :=
  if off < 0x080000 then (.scratch, off)
  else if off < 0x100000 then (.regWindow, off - 0x080000)
  else if off < 0x200000 then (.tile, off - 0x100000)
  else if off < 0x300000 then (.acc, off - 0x200000)
  else if off < 0x301000 then (.page, off - 0x300000)
  else (.reserved, off)

/-- The end of near memory (R14), which is what BAR 2 and CXL.mem reach (R375). -/
def nearEnd : Nat := 0x3000000000

/-- R14: the range that holds a physical address. The alias windows lie where R14 puts them (log entry 15). -/
def regionOf (pa : Nat) : Region :=
  if pa < nearEnd then .near
  else if 0x100000000000 ≤ pa ∧ pa < 0x120000000000 then .far
  else if 0x800000000000 ≤ pa ∧ pa < 0xa00000000000 then
    .peer ((pa - 0x800000000000) / 0x10000000000) (pa % 0x10000000000)
  else if 0xf00000000000 ≤ pa ∧ pa < 0xf00100000000 then
    let x := pa - 0xf00000000000
    .core (x / 0x1000000) (partOf (x % 0x1000000)).1 (partOf (x % 0x1000000)).2
  else if 0xf10000000000 ≤ pa ∧ pa < 0xf20000000000 then
    .alias_ ((pa - 0xf10000000000) / 0x100000000) (pa % 0x100000000)
  else if 0xf20000000000 ≤ pa ∧ pa < 0xf20100000000 then .hub (pa - 0xf20000000000)
  else .unmapped

/-- Near or far memory: the ranges that have a home slice (R273, R274). -/
def isHomed (pa : Nat) : Bool :=
  match regionOf pa with
  | .near => true
  | .far => true
  | _ => false

/-- The base of a core's window (R14). -/
def coreBase (c : Nat) : Nat := 0xf00000000000 + c * 0x1000000

/-- The base of a core's tile store (R15). -/
def tileBase (c : Nat) : Nat := coreBase c + 0x100000

/-- The base of a core's accumulator store (R15). -/
def accBase (c : Nat) : Nat := coreBase c + 0x200000

/-- The base of hub control space (R14). -/
def hubBase : Nat := 0xf20000000000

/-- R273: the home slice of a line of near memory. -/
def homeNear (pa : Nat) : Nat :=
  (pa / 2 ^ 7 % 64) ^^^ (pa / 2 ^ 13 % 64) ^^^ (pa / 2 ^ 19 % 64) ^^^ (pa / 2 ^ 25 % 64) ^^^ (pa / 2 ^ 31 % 64) ^^^ (pa / 2 ^ 37 % 2)

/-- R274: the home slice of a line of far memory. -/
def homeFar (pa : Nat) : Nat :=
  let st := pa / 2 ^ 38 % 8
  let j := (pa / 2 ^ 7 % 8) ^^^ (pa / 2 ^ 10 % 8) ^^^ (pa / 2 ^ 13 % 8) ^^^ (pa / 2 ^ 16 % 8) ^^^ (pa / 2 ^ 19 % 8) ^^^ (pa / 2 ^ 22 % 8) ^^^
    (pa / 2 ^ 25 % 8) ^^^ (pa / 2 ^ 28 % 8) ^^^ (pa / 2 ^ 31 % 8) ^^^ (pa / 2 ^ 34 % 8) ^^^ (pa / 2 ^ 37 % 2)
  16 * (j / 2) + 2 * st + j % 2

/-- The home slice of a line (R273, R274). -/
def homeOf (pa : Nat) : Nat := if pa < nearEnd then homeNear pa else homeFar pa

/-! Hub registers. -/

/-- The reset value of the hub register at an offset (R17, R287, R371, R423, R427). -/
def hubReset (off : Nat) : DWord :=
  if off = 0 then 0x09400001#64 ||| (Config.stepping.zeroExtend 64 <<< 8)
  else if off = 0x38 then 0x120
  else if 0x1000 ≤ off ∧ off < 0x1100 then 0x10000
  else if 0x480000 ≤ off ∧ off < 0x480040 then 0x300004000
  else if off = 0x720100 then 0x0fa0
  else if off = 0x720010 then Config.fuse 0
  else 0

/-- R382: `FLSTAT` of a link. -/
def Link.stat (k : Link) : DWord := BitVec.ofNat 64 (k.replays % 2 ^ 16 * 2 ^ 48 + k.width % 256 * 2 ^ 32 + k.lastAck % 2 ^ 16 * 2 ^ 16 + k.nextSeq % 2 ^ 16)

/-- R418: `FLCTL` of a link. -/
def Link.ctl (k : Link) : DWord := BitVec.ofNat 64 (k.badLanes.foldl (fun n l => n + 2 ^ l) 0)

/-- R413: `STKSTAT` of a stack. -/
def StackSt.stat (x : StackSt) : DWord :=
  BitVec.ofNat 64 ((if x.step != 0 then 2 ^ 63 else 0) + (if x.mode then 2 ^ 62 else 0) + (if x.saved.isSome then 2 ^ 61 else 0) + x.result % 32 * 2 ^ 56 +
    x.taken % 2 ^ 16 * 2 ^ 16 + x.incarn % 2 ^ 16)

/-- The hub register at an offset, which is a multiple of 8. Those of links, stacks and program memory are computed from what they show. -/
def State.hubReg (s : State) (off : Nat) : DWord :=
  if 0x580100 ≤ off ∧ off < 0x580200 then (Tbl.at s.links ((off - 0x580100) / 8) {}).stat
  else if 0x580200 ≤ off ∧ off < 0x580300 then (Tbl.at s.links ((off - 0x580200) / 8) {}).ctl
  else if 0x700000 ≤ off ∧ off < 0x700200 ∧ off % 0x40 = 0x18 then (Tbl.at s.stackTbl ((off - 0x700000) / 0x40) {}).stat
  else if 0x300000 ≤ off ∧ off < 0x304000 then
    BitVec.ofNat 64 ((Tbl.at s.ul.prog ((off - 0x300000) / 4) 0).toNat + (Tbl.at s.ul.prog ((off - 0x300000) / 4 + 1) 0).toNat * 2 ^ 32)
  else match Tbl.find? s.hub off with
    | some x => x
    | none => hubReset off

/-- The hub register at an offset put in place. -/
def State.setHub (s : State) (off : Nat) (x : DWord) : State := { s with hub := Tbl.put s.hub off x }

/-- R11, R17: core `c` is present. -/
def State.present (s : State) (c : Nat) : Bool := c < 256 && (s.hubReg (8 + 8 * (c / 64))).getLsbD (c % 64)

/-- R10, R17: pair `k` is physically adjacent. -/
def State.pairOk (s : State) (k : Nat) : Bool := (s.hubReg (0x28 + 8 * (k / 64))).getLsbD (k % 64)

/-- The lanes of a fabric link that are active (R382, R418). -/
def State.linkLanes (s : State) (l : Nat) : Nat := (Tbl.at s.links l {}).width

/-- R382: peer `p` is configured as reachable. -/
def State.peerOk (s : State) (p : Nat) : Bool :=
  (s.hubReg (0x580000 + 8 * p)).getLsbD 0 &&
    (List.range 32).any fun l => (s.hubReg (0x580000 + 8 * p)).getLsbD (32 + l) && s.linkLanes l != 0

/-- The context table field of an ASID at a field offset (R320). -/
def State.ctx (s : State) (asid off : Nat) : DWord := s.hubReg (0x100000 + 64 * asid + off)

/-- R320: the context's entry is valid. -/
def State.ctxValid (s : State) (asid : Nat) : Bool := (s.ctx asid 0).getLsbD 0

/-! The control page (R124, R230). -/

/-- The frames that a block's handles hold. -/
def Block.framesHeld (b : Block) : Nat := (Tbl.vals b.handles).foldl (fun a h => a + h.frames) 0

/-- The word of 8 bytes at an offset of a core's control page (R124, R230). -/
def State.pageWord (s : State) (c off : Nat) : Nat :=
  if off < 0x100 then
    match s.block? c (off / 32) with
    | none => 0
    | some b =>
      match off % 32 / 8 with
      | 0 => b.size * 2 ^ 32 + b.base
      | 1 => b.chanSize
      | 2 => b.accN * 16 + b.accBase
      | _ => b.framesHeld * 256 + b.nHandles
  else if 0x800 ≤ off then
    match s.block? c ((off - 0x800) / 256) with
    | none => 0
    | some b =>
      if off % 16 < 8 then
        let r := Tbl.at b.bars (off % 256 / 16) {}
        (if r.phase then 2 ^ 31 else 0) + r.expected * 2 ^ 16 + r.arrived
      else 0
  else 0

/-! Bytes. -/

/-- One byte as it stands at a physical address. -/
def State.peek (s : State) (pa : Nat) : Byte :=
  match regionOf pa with
  | .core c .page off => BitVec.ofNat 8 (s.pageWord c (off / 8 * 8) / 256 ^ (off % 8))
  | .hub off => BitVec.ofNat 8 ((s.hubReg (off / 8 * 8)).toNat / 256 ^ (off % 8))
  | _ => Mem.rd s.mem pa

/-- The number in `n` bytes from a physical address on. -/
def State.peekN (s : State) (pa n : Nat) : Nat := leNat ((List.range n).map fun i => s.peek (pa + i))

/-- The bytes from a physical address on. -/
def State.peekBytes (s : State) (pa n : Nat) : List Byte := (List.range n).map fun i => s.peek (pa + i)

/-- R396: a granule of the bytes from `pa` on is poisoned. -/
def State.poisoned (s : State) (pa n : Nat) : Bool :=
  s.poison.any fun g => pa < 16 * g + 16 && 16 * g < pa + n

/-- R397: the granules that `n` bytes from `pa` on cover whole are no longer poisoned. -/
def coverGood (p : List Nat) (pa n : Nat) : List Nat := p.filter fun g => !(pa ≤ 16 * g && 16 * g + 16 ≤ pa + n)

/-- Bytes written at a physical address by a good writer (R397). -/
def State.poke (s : State) (pa : Nat) (bs : List Byte) : State :=
  { s with mem := Mem.wrBytes s.mem pa bs, poison := coverGood s.poison pa bs.length }

/-- The granules that `n` bytes from `pa` on touch become poisoned (R397). -/
def State.taint (s : State) (pa n : Nat) : State :=
  if n = 0 then s else { s with poison := insRange s.poison (pa / 16) ((pa + n - 1) / 16 + 1 - pa / 16) }

/-- R232: the full bit of the granule that holds an address. -/
def State.isFull (s : State) (pa : Nat) : Bool := s.full.contains (pa / 16)

/-- The bytes of an element of a shadow's type (R152): bf16 has 2, the fp8 formats 1. -/
def shadowFmt (ty : Nat) : Num.Fmt := if ty = 5 then .bf16 else if ty = 6 then .fp8e4 else .fp8e5

/-- The bytes of an element of a shadow's type. -/
def shadowSize (ty : Nat) : Nat := if ty = 5 then 2 else 1

/-- R48, R152: the line's shadow, if one is open, narrowed once into the line and closed. Poison stays (R397). -/
def State.narrow (s : State) (line : Nat) : State :=
  match Tbl.find? s.shadows line with
  | none => s
  | some sh =>
    let bs := sh.vals.flatMap fun w =>
      leBytes (shadowSize sh.ty) (Num.pack (shadowFmt sh.ty) 0 false 0 0 (Num.unpack .fp32 w.toNat))
    { s with mem := Mem.wrBytes s.mem (line * 128) bs, shadows := Tbl.del s.shadows line, opened := remNat s.opened line }

/-- R60: an unsigned condition. -/
def condU (c x y : Nat) : Bool :=
  match c with
  | 0 => x == y
  | 1 => x != y
  | 2 => x < y
  | 3 => x ≤ y
  | 4 => y < x
  | _ => y ≤ x

/-- The core and slot where a cohort is resident. -/
def State.whereIs (s : State) (uid : Nat) : Option (Nat × Nat) :=
  s.cores.findSome? fun e => (List.find? (fun (x : Nat × Cohort) => x.2.uid == uid) e.2.cohorts).map fun x => (e.1, x.1)

/-- The core that a cohort swapped out was taken from. -/
def State.awayAt (s : State) (uid : Nat) : Option Nat :=
  s.cores.findSome? fun e => if e.2.away.any (·.uid == uid) then some e.1 else none

/-- A cohort by its name, resident or out. -/
def State.cohortBy (s : State) (uid : Nat) : Option Cohort :=
  match s.whereIs uid with
  | some (c, k) => s.cohort? c k
  | none => match s.awayAt uid with
    | some c => (s.core c).away.find? (·.uid == uid)
    | none => (s.saved.flatMap fun g => g.blocks.flatMap (·.cohorts)).find? (·.uid == uid)

/-- A cohort of an evicted group changed. -/
def State.onSaved (s : State) (uid : Nat) (f : Cohort → Cohort) : State :=
  { s with saved := s.saved.map fun g => { g with blocks := g.blocks.map fun b =>
      { b with cohorts := b.cohorts.map fun h => if h.uid = uid then f h else h } } }

/-- A cohort that is out changed. -/
def State.onOut (s : State) (uid : Nat) (f : Cohort → Cohort) : State :=
  match s.awayAt uid with
  | some c => s.onCore c fun co => { co with away := co.away.map fun h => if h.uid = uid then f h else h }
  | none => s.onSaved uid f

/-- A cohort changed, wherever it is. -/
def State.onUid (s : State) (uid : Nat) (f : Cohort → Cohort) : State :=
  match s.whereIs uid with
  | some (c, k) => s.onCohort c k f
  | none => s.onOut uid f

/-- R219: no core's lane register cache holds line `r` of a cohort any more. -/
def State.dropLine (s : State) (uid r : Nat) : State :=
  { s with cores := Tbl.mapv s.cores fun _ co => { co with lines := co.lines.erase (uid, r) } }

end Sys2Proof.Machine
end

