-- ==== Sys2Proof/Machine/Lines.lean ====
section
/-! DEFINITION. The home slices (R275 to R278): the lines that a slice holds, fills, owns and passes on to memory, and the controllers that it passes them
to. -/

namespace Sys2Proof.Machine

open Sys2Proof

/-! What a slice holds (R275 to R278). -/

/-- Slice `n`. -/
def State.slice (s : State) (n : Nat) : Slice := Tbl.at s.slices n {}

/-- Slice `n` put in place. -/
def State.setSlice (s : State) (n : Nat) (x : Slice) : State := { s with slices := Tbl.put s.slices n x }

/-- Slice `n` changed. -/
def State.onSlice (s : State) (n : Nat) (f : Slice → Slice) : State := s.setSlice n (f (s.slice n))

/-- R275: the set of a line. -/
def sliceSet (line : Nat) : Nat := line / 64 % 3072

/-- The slice holds the line. -/
def Slice.holds (sl : Slice) (line : Nat) : Bool := sl.ways.any (·.line == line)

/-- R275: a hit by a read. -/
def Slice.touch (sl : Slice) (line : Nat) : Slice :=
  { sl with ways := sl.ways.map fun w => if w.line = line then { w with rrpv := 0 } else w }

/-- A line of the slice written, or one that it fills. -/
def Slice.soil (sl : Slice) (line : Nat) : Slice :=
  { sl with ways := sl.ways.map fun w => if w.line = line then { w with dirty := true } else w
            misses := sl.misses.map fun m => if m.line = line then { m with soiled := true } else m }

/-- The channel of far memory that holds a line, of its stack's eight, which the package fixes (R8; log entry 6). -/
def farChannel (line : Nat) : Nat := line * 128 / 2 ^ 38 % 8 * 8 + Config.farChannel line % 8

/-- R374: the number of the line of host memory that holds a host bus address, beyond those of the physical map. -/
def hostLine (a : Nat) : Nat := 2 ^ 57 + a / 128

/-- R269, R274: the router of the controller of a line: that of near memory at a slice router, that of far memory at a compute router of its stack;
a line of host memory goes to the host port. -/
def ctlRouter (line : Nat) : Nat :=
  if 2 ^ 57 ≤ line then unitRouter 34
  else if line * 128 < nearEnd then unitRouter (35 + homeOf (line * 128)) else 8 * (Config.router (99 + farChannel line) % 2) + line * 128 / 2 ^ 38 % 8

/-- R278: two lines have one memory controller, as seen from their slice. -/
def sameCtl (a b : Nat) : Bool := decide (a * 128 < nearEnd) == decide (b * 128 < nearEnd) && decide (2 ^ 57 ≤ a) == decide (2 ^ 57 ≤ b)

/-- R278: a write of a line enters the write-back buffer, or one of the slots that its controller reserves; none where both are full. -/
def Slice.buffer (sl : Slice) (line : Nat) : Option Slice :=
  if sl.wbuf.length < 16 then some { sl with wbuf := sl.wbuf ++ [line] }
  else if (sl.reserved.filter (sameCtl line)).length < 8 then some { sl with reserved := sl.reserved ++ [line] }
  else none

/-- R278: the controller of a line completes a write: the first of its reserved slots, or of the buffer where they are empty. -/
def Slice.drain (sl : Slice) (line : Nat) : Slice :=
  match sl.reserved.find? (sameCtl line) with
  | some x => { sl with reserved := sl.reserved.erase x }
  | none => { sl with wbuf := (sl.wbuf.find? (sameCtl line)).elim sl.wbuf sl.wbuf.erase }

/-- R278: a write that waits where it has to until the controller has completed one. -/
def Slice.bufferAfter (sl : Slice) (line : Nat) : Slice :=
  let full := sl.drain line
  (sl.buffer line).getD { full with wbuf := full.wbuf ++ [line] }

/-- R271, R278: a line that has entered the buffer, or a reserved slot, leaves for its controller in the write-back class. -/
def State.sendBack (s : State) (n line : Nat) : State := s.send 2 0 (sliceRouter n) (ctlRouter line) { row := .writeBackDrain, ops := [n, line] }

/-- R244, R275: the ways of a set as the choice of a victim leaves them, with the victim where the set is full: the lowest way whose RRPV,
raised with all others, is the first to be 3. -/
def Slice.victim (sl : Slice) (set : Nat) : Option Way × Slice :=
  let mine := sl.ways.filter (·.set == set)
  if mine.length < 16 then (none, sl)
  else
    let top := mine.foldl (fun n w => max n w.rrpv) 0
    let sl1 : Slice := { sl with ways := sl.ways.map fun w => if w.set = set then { w with rrpv := w.rrpv + (3 - top) } else w }
    (sl1.ways.find? fun w => w.set == set && w.rrpv == 3, sl1)

/-- R275: the line filled, with the RRPV of the reuse code of the request that missed, and dirty where an access that waited for it has changed it; the
victim's way is taken, and a dirty victim goes to the write-back path. None where that has to wait. -/
def Slice.fill (sl : Slice) (line rrpv : Nat) (dirty : Bool) : Option (Option Way × Slice) :=
  let new : Way := { set := sliceSet line, line := line, rrpv := rrpv, dirty := dirty }
  let v := sl.victim (sliceSet line)
  match v.1 with
  | none => some (none, { v.2 with ways := v.2.ways ++ [new] })
  | some w =>
    let sl1 : Slice := { v.2 with ways := v.2.ways.map fun x => if x.line = w.line then new else x }
    if w.dirty then (sl1.buffer w.line).map fun y => (some w, y) else some (some w, sl1)

/-- The entry of the miss table for a line. -/
def Slice.missOf (sl : Slice) (line : Nat) : Option Miss := sl.misses.find? fun e => e.line == line

/-- R277: an access that misses joins the entry of its line, or takes an entry, which is new then; none where it has to stay in the request input. -/
def Slice.miss (sl : Slice) (line reuse : Nat) (ids : List Nat) : Option (Bool × Slice) :=
  match sl.missOf line with
  | some e =>
    if e.ids.length < 32 then
      some (false, { sl with misses := sl.misses.map fun x => if x.line = line then { x with ids := x.ids ++ ids } else x })
    else none
  | none => if sl.misses.length < 64 then some (true, { sl with misses := sl.misses ++ [{ line := line, reuse := reuse, ids := ids }] }) else none

/-- R276: the line recalled from the cluster unit that owns it, but for that of `keep`. -/
def Slice.recall (sl : Slice) (line : Nat) (keep : Option Nat) : Slice :=
  if (Tbl.find? sl.owner line).isSome && Tbl.find? sl.owner line != keep then { sl with owner := Tbl.del sl.owner line } else sl

/-- R150, R276: a cluster unit takes the line for atomics. -/
def Slice.own (sl : Slice) (line cluster : Nat) : Slice := { sl with owner := Tbl.put sl.owner line cluster }

/-- R276: an access to the line has arrived at its slice and waits there. -/
def State.lineBusy (s : State) (line : Nat) : Bool :=
  s.accs.any fun e => e.2.stage == 0 && e.2.full == 0 && e.2.stamp != 0 && e.2.lanes.any fun a => a.pa / 128 == line

/-- R276, R277: a read of the line by another than a core's access does not have to wait at the slice. -/
def State.readReady (s : State) (line : Nat) : Bool :=
  let sl := s.slice (homeOf (line * 128))
  !s.lineBusy line && (sl.holds line || (sl.miss line 0 []).isSome)

/-- R276, R278: a write of the line by another than a core's access does not have to wait at the slice. -/
def State.writeReady (s : State) (line : Nat) : Bool :=
  let sl := s.slice (homeOf (line * 128))
  !s.lineBusy line && (sl.holds line || (sl.buffer line).isSome)

/-- R276, R278: a line written at its home by another than a core's access: recalled from its owner, changed where the slice holds it, and otherwise
passed on to memory. -/
def State.lineWritten (s : State) (line : Nat) : State :=
  let n := homeOf (line * 128)
  let sl := (s.slice n).recall line none
  if sl.holds line then s.setSlice n (sl.soil line)
  else (s.setSlice n (sl.bufferAfter line)).sendBack n line

/-- R275 to R277: a line read at its home by another than a core's access: a hit, or a miss that joins the line's entry or takes one with a reuse code. -/
def State.lineRead (s : State) (line reuse : Nat) : State :=
  let n := homeOf (line * 128)
  let sl := (s.slice n).recall line none
  if sl.holds line then s.setSlice n (sl.touch line)
  else match sl.miss line reuse [0] with
    | some (true, y) => (s.setSlice n y).push .sliceFillComplete [n, line]
    | some (false, y) => s.setSlice n y
    | none => s.setSlice n sl

/-- R150, R276 to R278: a line changed by an atomic of another than a core: read at its home, where a miss fills it, and soiled there. -/
def State.lineAtomic (s : State) (line : Nat) : State := (s.lineRead line 0).onSlice (homeOf (line * 128)) (·.soil line)

/-- The lines of near and far memory that some addresses touch. -/
def linesOf (pas : List Nat) : List Nat := ((pas.filter isHomed).map (· / 128)).eraseDups

/-- R374: a `.sys` access of the package touches bytes of host memory: their home slice holds the lines. DESIGN CHOICE (log entry 90): the slice of a host
line is that of R274's function of its number. -/
def State.hostTouch (s : State) (a n : Nat) (writes : Bool) : State :=
  (List.range ((a + n - 1) / 128 + 1 - a / 128)).foldl (fun (t : State) i =>
    if writes then t.lineAtomic (hostLine a + i) else t.lineRead (hostLine a + i) 0) s

/-- The lines that `n` bytes from an address on touch. -/
def linesIn (pa n : Nat) : List Nat := if n = 0 then [] else (List.range ((pa + n - 1) / 128 + 1 - pa / 128)).map (pa / 128 + ·)

end Sys2Proof.Machine
end

