-- ==== Sys2Proof/Machine/Mmu.lean ====
section
/-! DEFINITION. What each kind of access reaches (R140, R199), and translation (R322 to R325). -/

namespace Sys2Proof.Machine

open Sys2Proof

/-! Which accesses reach what (R140, R199). -/

/-- The kinds of access that the map tells apart (R140, R199). -/
inductive Acc where
  | load | store | alias_ | atomic | engRead | copyWrite | gatherWrite | fetch
  deriving DecidableEq, Repr

/-- R381: an offset of a peer's window that means something. -/
def peerOffOk (off : Nat) : Bool :=
  (off / 2 ^ 38 == 0 && decide (off % 2 ^ 38 < nearEnd)) || (off / 2 ^ 38 == 1 && off % 2 ^ 38 / 2 ^ 32 == 0)

/-- R140, R199: an access of this kind may reach the address. Channel areas are closed to programs (R230), and instructions are
fetched from near and far memory (log entry 20). -/
def State.reaches (s : State) (a : Acc) (pa : Nat) : Bool :=
  match regionOf pa with
  | .near => true
  | .far => true
  | .peer p off => a != .gatherWrite && a != .fetch && s.peerOk p && peerOffOk off
  | .core c .scratch off =>
    a != .fetch && s.present c && !((Tbl.vals (s.core c).blocks).any fun b => b.base + b.size ≤ off && off < b.base + b.size + b.chanSize)
  | .core c .tile _ => s.present c && (a == .load || a == .engRead || a == .copyWrite || a == .gatherWrite)
  | .core c .regWindow _ => s.present c && (a == .copyWrite || a == .gatherWrite)
  | .core c .page _ => s.present c && a == .load
  | .alias_ .. => a == .alias_
  | .hub _ => a == .load
  | _ => false

/-! Translation (R322 to R325). -/

/-- The translation that a table entry gives at a level. -/
def leafOf (asid va level pte : Nat) (smDefault : Bool) : Option TlbEntry :=
  let ppn := pte / 2 ^ 12 % 2 ^ 40
  let g64 := pte / 2 ^ 6 % 2 == 1
  let bits := if level = 0 then (if g64 then 16 else 12) else 12 + 9 * level
  if 3 ≤ level then none
  else if g64 && level != 0 then none
  else if ppn * 2 ^ 12 % 2 ^ bits ≠ 0 then none
  else some
    { asid := asid, vpn := va / 2 ^ bits, bits := bits, ppn := ppn * 2 ^ 12 / 2 ^ bits,
      r := pte / 2 % 2 == 1, w := pte / 4 % 2 == 1, x := pte / 8 % 2 == 1, sm := pte / 2 ^ 5 % 2 == 1 || smDefault }

/-- R322, R323: the walk from a table page down, with the level as fuel. -/
def State.walkFrom (s : State) (asid va : Nat) (smDefault : Bool) : Nat → Nat → Option TlbEntry
  | 0, _ => none
  | n + 1, page =>
    let a := page * 4096 + va / 2 ^ (12 + 9 * n) % 512 * 8
    if !isHomed a || s.poisoned a 8 then none
    else
      let pte := ((s.narrow (a / 128)).peekN a 8)
      if pte % 2 = 0 then none
      else if pte / 2 ^ 52 ≠ 0 ∨ pte / 2 ^ 7 % 32 ≠ 0 then none
      else if pte / 2 % 8 = 0 then
        (if n = 0 ∨ pte / 2 ^ 6 % 2 = 1 then none else State.walkFrom s asid va smDefault n (pte / 2 ^ 12 % 2 ^ 40))
      else leafOf asid va n pte smDefault

/-- R322: the walk of a virtual address of a context; none where it fails. -/
def State.walk (s : State) (asid va : Nat) : Option TlbEntry :=
  s.walkFrom asid va ((s.ctx asid 0).getLsbD 3) 5 ((s.ctx asid 8).toNat / 2 ^ 12 % 2 ^ 40)

/-- R275 to R277, R322: the lines that a walk reads, at their slices. -/
def State.readWalk (s : State) (asid va : Nat) : Nat → Nat → State
  | 0, _ => s
  | n + 1, page =>
    let a := page * 4096 + va / 2 ^ (12 + 9 * n) % 512 * 8
    if !isHomed a then s
    else
      let s1 := s.lineRead (a / 128) 0
      let pte := ((s1.narrow (a / 128)).peekN a 8)
      if s1.poisoned a 8 || pte % 2 = 0 || pte / 2 % 8 != 0 then s1 else State.readWalk s1 asid va n (pte / 2 ^ 12 % 2 ^ 40)

/-- R322: the reads of the walk of a virtual address of a context. -/
def State.walkReads (s : State) (asid va : Nat) : State := s.readWalk asid va 5 ((s.ctx asid 8).toNat / 2 ^ 12 % 2 ^ 40)

/-- The entry of a core's translation buffer that maps an address (R325). -/
def CoreSt.tlbFind (co : CoreSt) (asid va : Nat) : Option TlbEntry :=
  co.tlb.find? fun e => e.asid == asid && e.vpn == va / 2 ^ e.bits

/-- What an access finds for an address. -/
inductive Found where
  /-- a physical address that it may reach, and whether its page is software-managed -/
  | ok (pa : Nat) (sm : Bool)
  /-- no translation is held yet -/
  | miss
  /-- a translation fault (R324) -/
  | noPage
  /-- an address error (R16, R139) -/
  | noAddr
  deriving DecidableEq, Repr

/-- R324: the permission that a kind of access needs. -/
def TlbEntry.permits (e : TlbEntry) : Acc → Bool
  | .load => e.r
  | .engRead => e.r
  | .atomic => e.r && e.w
  | .fetch => e.x
  | _ => e.w

/-- The physical address that an entry gives. -/
def TlbEntry.pa (e : TlbEntry) (va : Nat) : Nat := e.ppn * 2 ^ e.bits + va % 2 ^ e.bits

/-- The gang of a number. -/
def State.gang (s : State) (gid : Nat) : Gang := Tbl.at s.gangs gid { members := [], window := 2 ^ 57 }

/-- R221: the block that is member `k` of a gang, with its core and slot; none once it has ended. -/
def State.member (s : State) (gid k : Nat) : Option (Nat × Nat × Block) :=
  match (s.gang gid).members[k]? with
  | none => none
  | some (c, b) =>
    match s.block? c b with
    | some x => if x.gang = gid ∧ x.rank = k then some (c, b, x) else none
    | none => none

/-- R222: the member's scratchpad byte that an offset of the pooled window names. -/
def State.pooled (s : State) (gid x : Nat) : Option Nat :=
  match s.member gid (x / 2 ^ 19 % 16) with
  | none => none
  | some (c, _, bl) =>
    let lowStack := ((s.gang gid).members.map fun m => m.1 / 32).foldl min 8
    let die := if c / 32 = lowStack then 0 else 1
    if x / 2 ^ 23 = die ∧ x % 2 ^ 19 < bl.size then some (coreBase c + bl.base + x % 2 ^ 19) else none

/-- The store class that a store to a physical address has: alias windows take contributions (R140, R352). -/
def storeAcc (a : Acc) (pa : Nat) : Acc :=
  match regionOf pa with
  | .alias_ .. => if a = .store then .alias_ else a
  | _ => a

/-- The register of collective window `w` at an offset (R349). -/
def State.aw (s : State) (w off : Nat) : DWord := s.hubReg (0x200000 + 64 * w + off)

/-- R352: core `c` may store a contribution at an offset of window `w`: the window is on, the segment is one of its bucket, and the core is one of
its local ranks. -/
def State.mayContribute (s : State) (c w off : Nat) : Bool :=
  let lcore0 := bitsAt (s.aw w 0x10) 23 16
  bitsAt (s.aw w 0) 26 24 != 0 && off / 256 % 256 < bitsAt (s.aw w 8) 8 0 && lcore0 ≤ c && c - lcore0 < bitsAt (s.aw w 0x10) 8 0

/-- R352: the address is that of a contribution which the core may not make. -/
def State.aliasBad (s : State) (c pa : Nat) : Bool :=
  match regionOf pa with
  | .alias_ w off => !s.mayContribute c w off
  | _ => false

/-- The address checks of R139, R222, R324 and R140 for an access on a core in a context and gang. -/
def State.find (s : State) (c asid gang : Nat) (a : Acc) (va : Nat) : Found :=
  if 2 ^ 57 ≤ va then .noAddr
  else
    let g := s.gang gang
    if g.window ≤ va ∧ va < g.window + 2 ^ 24 then
      match s.pooled gang (va - g.window) with
      | some pa => .ok pa false
      | none => .noAddr
    else
      match (s.core c).tlbFind asid va with
      | none => .miss
      | some e =>
        if !e.permits a then .noPage
        else if s.reaches (storeAcc a (e.pa va)) (e.pa va) && !s.aliasBad c (e.pa va) then .ok (e.pa va) e.sm else .noAddr

/-- R325: a translation put into a core's buffer of 2,048 entries. -/
def CoreSt.tlbFill (co : CoreSt) (e : TlbEntry) : CoreSt := { co with tlb := (e :: co.tlb).take 2048 }

/-- The translation of an address with a walk where the buffer holds none, for the units that wait for their own walk. The
walk's result is put into the buffer (R325). -/
def State.findNow (s : State) (c asid gang : Nat) (a : Acc) (va : Nat) : Found × State :=
  match s.find c asid gang a va with
  | .miss =>
    match s.walk asid va with
    | none => (.noPage, s.walkReads asid va)
    | some e =>
      let s1 := (s.walkReads asid va).onCore c fun co => co.tlbFill e
      (s1.find c asid gang a va, s1)
  | r => (r, s)

/-- The hub's own translation of an address of a context, on no core (R301, R344). -/
def State.findHub (s : State) (asid : Nat) (a : Acc) (va : Nat) : Found :=
  if 2 ^ 57 ≤ va then .noAddr
  else
    match s.walk asid va with
    | none => .noPage
    | some e => if !e.permits a then .noPage else if s.reaches a (e.pa va) then .ok (e.pa va) e.sm else .noAddr

end Sys2Proof.Machine
end

