-- ==== Sys2Proof/Machine/Home.lean ====
section
/-! DEFINITION. Monitors (R280), and what a write or a read does at the home of its bytes (R234, R276 to R278). The bytes of a line are those of memory
throughout. -/

namespace Sys2Proof.Machine

open Sys2Proof

/-! Monitors (R280). -/

/-- R128, R280: a monitor's condition holds. -/
def State.monHolds (s : State) (m : Monitor) : Bool := condU m.cond (Mem.rdN s.mem m.addr (if m.wide then 8 else 4)) m.cmp

/-- R280: a monitor fires: it is freed, and a wake leaves in the response class for the core of its cohort (R271). -/
def State.wake (s : State) (m : Monitor) : State :=
  ({ s with monitors := Tbl.del s.monitors m.id } : State).sendTo 1 0 (sliceRouter (homeOf m.addr)) (coreRouter m.core) (corePort m.core)
    { row := .monitorWake, ops := [m.uid, m.id] }

/-- R280: every monitor on some bytes whose condition holds of `view` fires. -/
def State.fireSeen (s view : State) (ws : List (Nat × Nat)) : State :=
  let hit := (Tbl.vals s.monitors).filter fun m =>
    ws.any (fun w => m.addr < w.1 + w.2 && w.1 < m.addr + (if m.wide then 8 else 4)) && view.monHolds m
  hit.foldl State.wake s

/-- R280: every monitor on the bytes written fires if its condition now holds (R129). -/
def State.fire (s : State) (pa n : Nat) : State := s.fireSeen s [(pa, n)]

/-! Bytes at their home. -/

/-- R152: the shadows that `n` bytes from an address on touch narrowed. -/
def State.narrowIn (s : State) (pa n : Nat) : State := if isHomed pa then (s.narrow (pa / 128)).narrow ((pa + n - 1) / 128) else s

/-- R276, R280: the bytes of one access land: open shadows are narrowed first, and the monitors on them are tested once all have landed. -/
def State.land (s : State) (ws : List (Nat × List Byte)) : State :=
  let s1 := ws.foldl (fun (t : State) w => t.narrowIn w.1 w.2.length) s
  let s2 := ws.foldl (fun (t : State) w => t.poke w.1 w.2) s1
  s2.fireSeen s2 (ws.map fun w => (w.1, w.2.length))

/-- The frames of a core that handles hold, as ranges. -/
def CoreSt.heldFrames (co : CoreSt) : List (Nat × Nat) :=
  (Tbl.vals co.blocks).flatMap fun b => (Tbl.vals b.handles).filterMap fun h => if h.frames = 0 then none else some (h.frame, h.frames)

/-- R234: a tile-store address in a frame that no handle holds: it reads as zero and empty, and what is written there is gone before the frame is
granted again. -/
def State.frameless (s : State) (pa : Nat) : Bool :=
  match regionOf pa with
  | .core c .tile off => !((s.core c).heldFrames.any fun e => e.1 ≤ off / 4096 && off / 4096 < e.1 + e.2)
  | _ => false

/-- A write at the home slice or bank by another than a core's access (R234, R276 to R278). -/
def State.homeWrite (s : State) (pa : Nat) (bs : List Byte) : State :=
  if isHomed pa then ((linesIn pa bs.length).foldl State.lineWritten s).land [(pa, bs)]
  else if s.frameless pa then s
  else s.poke pa bs

/-- A read where its bytes stand: an open shadow is narrowed first (R152). -/
def State.look (s : State) (pa n : Nat) : Nat × State := ((s.narrowIn pa n).peekN pa n, s.narrowIn pa n)

/-- A read at the home slice or bank by another than a core's load (R275 to R277), which inserts a line that misses with a reuse code. -/
def State.homeRead (s : State) (pa n reuse : Nat) : Nat × State :=
  (if isHomed pa then (linesIn pa n).foldl (fun (t : State) line => t.lineRead line reuse) s else s).look pa n

end Sys2Proof.Machine
end

