-- ==== Sys2Proof/Machine/Life.lean ====
section
/-! DEFINITION. What ends and releases things: error records (R402 to R404), launch errors (R316), block and gang barriers
(R124 to R127), handles and frames given back (R162, R234), lanes turning grey (R224 to R226) and cohorts ending (R117,
R215, R226, R338). -/

namespace Sys2Proof.Machine

open Sys2Proof

/-! Error records. -/

/-- R402, R403: a record written at the head of the ring, or counted as lost. -/
def State.errRec (s : State) (cls ix code detail addr asid count : Nat) (extra : Nat) : State :=
  let base := s.hubReg 0x600000
  let k := bitsAt (s.hubReg 0x600008) 3 0
  let head := (s.hubReg 0x600010).toNat % 2 ^ 32
  let tail := (s.hubReg 0x600018).toNat % 2 ^ 32
  if !base.getLsbD 63 || (head + 2 ^ 32 - tail) % 2 ^ 32 == 2 ^ (6 + k) then
    s.setHub 0x600020 (BitVec.ofNat 64 (((s.hubReg 0x600020).toNat + 1) % 2 ^ 32))
  else
    let a := base.toNat % 2 ^ 52 / 64 * 64 + 32 * (head % 2 ^ (6 + k))
    let dw0 := head * 2 ^ 32 + cls % 16 * 2 ^ 28 + ix % 4096 * 2 ^ 16 + code % 256 * 256 + detail % 256
    let bs := leBytes 8 dw0 ++ leBytes 8 addr ++ leBytes 8 (asid % 4096 * 2 ^ 32 + count % 2 ^ 32) ++ leBytes 8 extra
    (s.homeWrite a bs).setHub 0x600010 (BitVec.ofNat 64 ((head + 1) % 2 ^ 32))

/-- R315, R316: an error of a launch; the first one is kept. -/
def State.launchErr (s : State) (l code stage core slot : Nat) (pc : Nat) : State :=
  { s with launches := Tbl.adj s.launches l fun x =>
      { x with
        nerr := x.nerr + 1
        err0 := if x.nerr = 0 then code * 2 ^ 40 + stage * 2 ^ 32 + core * 2 ^ 24 + slot * 2 ^ 16 else x.err0
        err0pc := if x.nerr = 0 then pc else x.err0pc } }

/-! Releasing splits that wait. -/

/-- The split ready again at its own instruction, which it issues anew. -/
def Split.retry (sp : Split) : Split := { sp with state := 0, hold := .free }

/-- The split ready at the next instruction. -/
def Split.pass (sp : Split) : Split := { sp with state := 0, hold := .free, timer := 0, rewait := false, pc := sp.pc + 4 }

/-- R211, R227: the cohort stops, and the wait counters of its splits are 0 while it does. -/
def Cohort.halt (h : Cohort) : Cohort := { h with stopped := true, splits := Tbl.mapv h.splits fun _ sp => { sp with wait := 0 } }

/-- The order of a fence whose predecessors are what the cohort has issued so far (R126, R127, R128). -/
def Cohort.order (h : Cohort) (scope pred succ : Nat) : Cohort :=
  { h with fences := h.fences ++ [{ seq := h.seq + 1, scope := scope, pred := pred, succ := succ, paths := 0, handler := h.handler }] }

/-- Every split of the cohort that a test picks made ready to issue its instruction anew. -/
def Cohort.retryAll (h : Cohort) (f : Hold → Bool) : Cohort :=
  { h with splits := Tbl.mapv h.splits fun _ sp => if sp.state != 0 && f sp.hold then sp.retry else sp }

/-- Every resident cohort of a core changed. -/
def CoreSt.onCohorts (co : CoreSt) (f : Cohort → Cohort) : CoreSt := { co with cohorts := Tbl.mapv co.cohorts fun _ h => f h }

/-- Every resident cohort of a core's block, and every one of them that is swapped out, changed. -/
def CoreSt.onBlockCohorts (co : CoreSt) (b : Nat) (f : Cohort → Cohort) : CoreSt :=
  { co with
    cohorts := Tbl.mapv co.cohorts fun _ h => if h.slot = b then f h else h
    away := co.away.map fun h => if h.slot = b then f h else h }

/-- The cohorts of a core that hold a request of a kind try it again. -/
def State.retryHolds (s : State) (c : Nat) (f : Hold → Bool) : State := s.onCore c fun co => co.onCohorts (·.retryAll f)

/-! Block barriers (R124 to R126). -/

/-- A split waits for the completion of a phase, and not to arrive again. -/
def Hold.waits (hold : Hold) (gang : Bool) (n : Nat) : Bool :=
  match hold with
  | .barrier m again => !gang && m == n && !again
  | .gangBarrier m again => gang && m == n && !again
  | _ => false

/-- A split waits to arrive again. -/
def Hold.rearrives (hold : Hold) (gang : Bool) (n : Nat) : Bool :=
  match hold with
  | .barrier m again => !gang && m == n && again
  | .gangBarrier m again => gang && m == n && again
  | _ => false

/-- The splits that the completion of a phase releases: those that wait pass, and those that arrive again may do so. -/
def Cohort.released (h : Cohort) (gang : Bool) (n : Nat) : Cohort :=
  { h with splits := Tbl.mapv h.splits fun _ sp =>
      if sp.hold.waits gang n then sp.pass else if sp.hold.rearrives gang n then sp.retry else sp }

/-- R125, R126: what the completion of barrier `n` does to a cohort of the block: splits that wait pass, with the order that the completion of a
wait gives; splits that arrive again may do so; and a cohort whose complete arrival is not yet taken counts for the new phase. -/
def Cohort.barrierDone (h : Cohort) (n : Nat) (phase queued : Bool) : Cohort :=
  if queued then { h with barPhase := Tbl.put h.barPhase n phase }
  else
    let h1 : Cohort := { h.released false n with barLanes := Tbl.del h.barLanes n }
    if h.splits.any fun e => e.2.hold.waits false n then h1.order 0 0x80 0xc0 else h1

/-- The fences of a block's resident cohorts are looked at. -/
def State.nudgeFences (s : State) (c b : Nat) : State :=
  (s.core c).cohorts.foldl (fun (t : State) e => if e.2.slot = b && !e.2.fences.isEmpty then t.pushOnce .fenceComplete [c, e.1] else t) s

/-- R125: the phase of barrier `n` flips. -/
def State.completeBarrier (s : State) (c b n : Nat) : State :=
  match s.block? c b with
  | none => s
  | some bl =>
    let r := Tbl.at bl.bars n {}
    let r' : Barrier := { phase := !r.phase, expected := 0, arrived := 0, queue := r.queue, who := [] }
    ((s.setBlock c b { bl with bars := Tbl.put bl.bars n r' }).onCore c fun co =>
      co.onBlockCohorts b fun h => h.barrierDone n r'.phase (r.queue.any fun q => q.2.1 == h.cohortid)).nudgeFences c b

/-- R125: the phase is complete: the count is reached, or, where all are awaited, every live cohort has arrived. -/
def Barrier.complete (r : Barrier) (live : List Nat) : Bool :=
  if r.expected = 0 then r.arrived != 0 && live.all fun x => r.who.contains x else r.expected ≤ r.arrived

/-- The exit of a cohort completes every barrier that awaited only it (R125). -/
def State.settleBarriers (s : State) (c b : Nat) : List Nat → State
  | [] => s
  | n :: l =>
    match s.block? c b with
    | none => s
    | some bl =>
      let r := Tbl.at bl.bars n {}
      if r.expected = 0 && r.complete bl.live then State.settleBarriers (s.completeBarrier c b n) c b l
      else State.settleBarriers s c b l

/-- R125: the lanes that have arrived at barrier `n` in this phase. -/
def Cohort.arrivedLanes (h : Cohort) (n : Nat) : Mask := Tbl.at h.barLanes n 0

/-- R125: a complete arrival joins the unit's queue, in the order of the cycle in which it became complete and then of the cohort. -/
def Barrier.enqueue (r : Barrier) (clock cid count : Nat) : Barrier :=
  { r with queue := insBy (fun q => q.1 * 64 + q.2.1) (clock, cid, count) r.queue }

/-- R125: every live lane of the cohort has arrived at barrier `n`, so the cohort arrives: it joins the unit's queue. -/
def State.cohortArrives (s : State) (c k n : Nat) : State :=
  match s.cohort? c k with
  | none => s
  | some h =>
    match s.block? c h.slot with
    | none => s
    | some bl =>
      let r := Tbl.at bl.bars n {}
      if Tbl.has h.barLanes n && h.alive &&& ~~~(h.arrivedLanes n) == 0 && !r.who.contains h.cohortid &&
          !(r.queue.any fun q => q.2.1 == h.cohortid) then
        (s.setBlock c h.slot { bl with
          bars := Tbl.put bl.bars n (r.enqueue (s.core c).lclk h.cohortid (Tbl.at h.barCount n 0)) }).pushOnce .barrierArrivalTaken [c, h.slot, n]
      else s

/-! Gang barriers (R127). -/

/-- The stack half of a member (R221). -/
def Gang.side (g : Gang) (rank : Nat) : Nat :=
  match g.members[rank]? with
  | none => 0
  | some m => if m.1 / 32 = (g.members.map fun x => x.1 / 32).foldl min 8 then 0 else 1

/-- The gang straddles two stacks. -/
def Gang.straddles (g : Gang) : Bool := (List.range g.members.length).any fun r => g.side r == 1

/-- R243: the predictor trained by a frame that goes. -/
def CoreSt.train (co : CoreSt) (f : L1Frame) : CoreSt :=
  let z := Tbl.at co.pred f.pix 2
  let z' := if f.used.length = f.filled && z < 3 then z + 1 else if 2 * f.used.length ≤ f.filled && 0 < z then z - 1 else z
  if f.filled = 0 then co else { co with pred := Tbl.put co.pred f.pix z' }

/-- R148, R155: what is left of a coherent block that is invalidated: the bytes that a software-managed page has made dirty. -/
def L1Frame.dirtyPart (f : L1Frame) : L1Frame :=
  { f with valid := [], bytes := f.bytes.filter fun b => f.dirty.contains b.1, sm := true, filled := 0, used := [] }

/-- R155 step 2: a core's coherent L1 blocks are invalidated; those of software-managed pages stay, and so do dirty bytes. -/
def CoreSt.invalidate (co : CoreSt) : CoreSt :=
  (co.l1.filter fun e => !e.2.sm).foldl (fun (x : CoreSt) e => x.train e.2)
    { co with l1 := (co.l1.filter fun e => e.2.sm || e.2.dirty != []).map fun e => (e.1, if e.2.sm then e.2 else e.2.dirtyPart) }

/-- R127: what the release of gang barrier `n` does to a cohort: its splits that wait pass, and every arrived split has the order of a `FENCE.dev`
with predecessor and successor {R, W}. -/
def Cohort.gangDone (h : Cohort) (n : Nat) : Cohort :=
  let h1 : Cohort := { h.released true n with gbarLanes := Tbl.del h.gbarLanes n }
  if Tbl.has h.gbarLanes n then h1.order 2 0xc0 0xc0 else h1

/-- R127: the record of a side after its release. Where the other side, released before, has counted arrivals of the new phase, their count holds
here too. -/
def GangBar.next (r o : GangBar) : GangBar := { phase := !r.phase, expected := if o.phase != r.phase then o.expected else 0 }

/-- R127: a side whose local phase is complete and that has seen the other side's message releases its blocks. -/
def State.releaseSide (s : State) (gid n d : Nat) : State :=
  match Tbl.find? s.gangs gid with
  | none => s
  | some g =>
    let r := Tbl.at g.bars (2 * n + d) {}
    if r.done && (r.seen || !g.straddles) then
      let g' := { g with bars := Tbl.put g.bars (2 * n + d) (r.next (Tbl.at g.bars (2 * n + (1 - d)) {})) }
      (List.range g.members.length).foldl
        (fun t k =>
          match t.member gid k with
          | none => t
          | some (c, b, _) => if g.side k = d then (t.onCore c fun co => co.onBlockCohorts b (·.gangDone n)).nudgeFences c b else t)
        { s with gangs := Tbl.put s.gangs gid g' }
    else s

/-- The blocks of a side that have not ended. -/
def State.sideLive (s : State) (gid : Nat) (g : Gang) (d : Nat) : List Nat :=
  (List.range g.members.length).filter fun k => g.side k == d && (s.member gid k).any fun x => x.2.2.live != []

/-- R127: the local phase of a side is complete: where all are awaited, every block of the side that has not ended has arrived; otherwise the blocks
of both sides that have arrived in the phase reach the count (log entry 75). -/
def State.sideComplete (s : State) (gid : Nat) (g : Gang) (n d : Nat) : Bool :=
  let r := Tbl.at g.bars (2 * n + d) {}
  let o := Tbl.at g.bars (2 * n + (1 - d)) {}
  let others := if g.straddles && o.phase == r.phase then o.arrived.length else 0
  if r.expected = 0 then 0 < r.arrived.length + others && (s.sideLive gid g d).all fun k => r.arrived.contains k
  else r.expected ≤ r.arrived.length + others

/-- R127: a side whose local phase completes sends its message across, or releases its blocks where there is no other side. -/
def State.settleSide (s : State) (gid n d : Nat) : State :=
  match Tbl.find? s.gangs gid with
  | none => s
  | some g =>
    let r := Tbl.at g.bars (2 * n + d) {}
    if !r.done && s.sideComplete gid g n d then
      let s1 : State := { s with gangs := Tbl.put s.gangs gid { g with bars := Tbl.put g.bars (2 * n + d) { r with done := true } } }
      (if g.straddles then s1.push .gbarPhaseMessage [gid, n, d] else s1).releaseSide gid n d
    else s

/-- DESIGN CHOICE (log entry 75). The count that a block's arrival carries where its cohorts name several: that of the highest cohort slot that names
one other than 0, the cohorts swapped out last. R127 gives one count a block. -/
def arrivalCount (hs : List Cohort) (n : Nat) : Nat :=
  hs.foldl (fun a h => if Tbl.at h.gbarCount n 0 = 0 then a else Tbl.at h.gbarCount n 0) 0

/-- R127: the gang after block `rank` of side `d` has arrived: the first arrival of a phase sets the count of both sides. -/
def Gang.arrive (g : Gang) (n d rank count : Nat) : Gang :=
  let r := Tbl.at g.bars (2 * n + d) {}
  let o := Tbl.at g.bars (2 * n + (1 - d)) {}
  let first := r.arrived = [] && !(o.phase == r.phase && o.arrived != []) && r.expected = 0
  let e := if first then min count g.members.length else r.expected
  let bars := Tbl.put g.bars (2 * n + d) { r with arrived := r.arrived ++ [rank], expected := e }
  { g with bars := if first && o.phase == r.phase then Tbl.put bars (2 * n + (1 - d)) { o with expected := e } else bars }

/-- R127: a block arrives at gang barrier `n` once every live cohort of it has arrived with all its live lanes. -/
def State.blockArrives (s : State) (c b n : Nat) : State :=
  match s.block? c b with
  | none => s
  | some bl =>
    match Tbl.find? s.gangs bl.gang with
    | none => s
    | some g =>
      let co := s.core c
      let hs := ((Tbl.vals co.cohorts) ++ co.away).filter fun h => h.slot == b && bl.live.contains h.cohortid
      let d := g.side bl.rank
      let r := Tbl.at g.bars (2 * n + d) {}
      if hs != [] && hs.all (fun h => Tbl.has h.gbarLanes n && h.alive &&& ~~~(Tbl.at h.gbarLanes n 0) == 0) &&
          !r.arrived.contains bl.rank then
        let s1 : State := { s with gangs := Tbl.put s.gangs bl.gang (g.arrive n d bl.rank (arrivalCount hs n)) }
        (s1.settleSide bl.gang n d).settleSide bl.gang n (1 - d)
      else s

/-- A cohort's lost lanes may complete arrivals at block and gang barriers (R115, R125, R127). -/
def State.settleArrivals (s : State) (c k b : Nat) : State :=
  (List.range 16).foldl (fun t n => (t.cohortArrives c k n).blockArrives c b n) s

/-! Tiles given back (R162, R166, R234). -/

/-- R234: frames cleared to zero and empty. -/
def State.clearFrames (s : State) (c frame n : Nat) : State :=
  if n = 0 then s
  else
    let a := tileBase c + frame * 4096
    { s with mem := Mem.clear s.mem a (n * 4096), full := remRange s.full (a / 16) (n * 256), poison := remRange s.poison (a / 16) (n * 256) }

/-- R234: frames freed: they are cleared before they are granted again. -/
def State.freeFrames (s : State) (c frame n : Nat) : State :=
  if n = 0 ∨ (s.core c).frameWaits = [] then s.clearFrames c frame n else (s.clearFrames c frame n).pushOnce .frameGrant [c]

/-- Handle `n` of a block put in place. -/
def State.setHandle (s : State) (c b n : Nat) (x : Handle) : State :=
  s.onBlock c b fun bl => { bl with handles := Tbl.put bl.handles n x }

/-- R162, R166: a handle released as by `TFREE`: frames freed, the log discarded, a transfer in flight cancelled. -/
def State.releaseHandle (s : State) (c b n : Nat) : State :=
  match s.block? c b with
  | none => s
  | some bl =>
    match Tbl.find? bl.handles n with
    | none => s
    | some h =>
      if h.state = .free then s
      else
        (s.setHandle c b n { h with state := .released, frame := 0, frames := 0, log := [], fill := none, backing := 0, writes := [] }).freeFrames
          c h.frame h.frames

/-- The requests for frames of a cohort whose splits no longer wait are taken back; those of fills that have begun stay. -/
def State.dropFrameReqs (s : State) (c uid : Nat) : State :=
  let keep (r : FrameReq) : Bool := r.uid != uid || ((s.block? c r.slot).elim false fun b => (Tbl.at b.handles r.handle {}).state == .filling)
  let co := s.core c
  if co.frameWaits.all keep then s
  else (s.setCore c { co with frameWaits := co.frameWaits.filter keep }).pushOnce .frameGrant [c]

/-- A write of a tile is still to come for a cohort. One that its own trap holds does not keep its handler. -/
def Transfer.keeps (t : Transfer) (uid : Option Nat) : Bool := !(t.held && uid.any (· == t.uid))

/-- A handle's contents are still read by work that has issued: a write of the tile, or a multiply (R162, R168). -/
def State.handleBusy (s : State) (c b n : Nat) (h : Handle) (uid : Option Nat) : Bool :=
  h.writes.any (·.keeps uid) || (s.core c).mats.any fun m => m.slot == b && (m.ha == n || m.hb == n)

/-- R162: the handles of a block whose owner has exited are released, once the work that reads them has performed. -/
def State.releaseOrphans (s : State) (c b : Nat) : State :=
  match s.block? c b with
  | none => s
  | some bl =>
    let own := (List.filter (fun (e : Nat × Handle) => e.2.state != .free && e.2.state != .released &&
      !bl.live.contains e.2.owner && !s.handleBusy c b e.1 e.2 none) bl.handles).map Prod.fst
    own.foldl (fun (t : State) n => t.releaseHandle c b n) s

/-! The end of a cohort. -/

/-- R206: the launch is quiescent: its queues are empty and no cohort of it holds an item. Once it is, it stays so. DESIGN CHOICE (log entry 100): a `WPUSH`
that waits at a full queue is not counted as in flight; the queue that it waits at is not empty. -/
def State.quiescent (s : State) (l : Nat) : Bool :=
  match Tbl.find? s.launches l with
  | none => true
  | some x =>
    x.quiet ||
      (x.stages.all (fun st => st.queue.isEmpty) &&
        !(Tbl.vals s.cores).any fun co =>
          (Tbl.vals co.cohorts).any (fun h => h.launch == l && h.holds) || co.away.any fun h => h.launch == l && h.holds) &&
        !s.saved.any fun g => g.blocks.any fun b => b.cohorts.any fun h => h.launch == l && h.holds

/-- R206: what the termination detector has reported is kept. -/
def State.detectQuiet (s : State) (l : Nat) : State :=
  if s.quiescent l then { s with launches := Tbl.adj s.launches l fun x => { x with quiet := true } } else s

/-- R215, R312: a block whose cohorts have all exited, whose writes are acknowledged and whose chains have ended may end. -/
def State.blockOver (s : State) (c b : Nat) : Bool :=
  match s.block? c b with
  | none => false
  | some bl =>
    let co := s.core c
    bl.started && bl.live == [] && !(Tbl.vals co.cohorts).any (·.slot == b) && !co.away.any (·.slot == b) &&
      !(Tbl.vals co.copyEng.chains).any (·.block == b) && !(Tbl.vals co.gatherEng.chains).any (·.block == b) &&
      !co.mats.any (·.slot == b) && !(bl.handles.any fun e => !e.2.writes.isEmpty) &&
      !(s.accs.any fun e => bl.uids.contains e.2.uid && e.2.kind != .load) && !s.chans.any fun e => e.2.sender == (c, b) && e.2.flight != []

/-- The end of a block put on what is due, if it is over. -/
def State.checkBlock (s : State) (c b : Nat) : State := if s.blockOver c b then s.pushOnce .blockEnd [c, b] else s

/-- R325: the invalidations under way are looked at again. -/
def State.nudgeInvals (s : State) : State := (Tbl.keys s.invals).foldl (fun (t : State) k => t.pushOnce .tlbinvComplete [k]) s

/-- A cohort that has ended and whose issued work has completed leaves its slot, with its lines (R219). -/
def State.reap (s : State) (c k : Nat) : State :=
  match s.cohort? c k with
  | none => s
  | some h =>
    if h.ending && h.loads.isEmpty && h.stores.isEmpty then
      ((s.onCore c fun co => { co with cohorts := Tbl.del co.cohorts k, lines := co.lines.filter fun e => e.1 != h.uid }).checkBlock c h.slot).pushOnce
        .schedule []
    else s

/-- What waits for a cohort's issued work is looked at again: a trap to be entered, a swap-out, fences, its stores, its own end. -/
def State.notify (s : State) (c k : Nat) : State :=
  match s.cohort? c k with
  | none => s
  | some h =>
    let s1 := if h.stopped then s.pushOnce .trapEntry [c, k] else s
    let s2 := if h.leaving then s1.pushOnce .cohortSwapOut [c, k] else s1
    let s3 := if h.fences.isEmpty then s2 else s2.pushOnce .fenceComplete [c, k]
    let s4 := if h.stores.isEmpty then s3 else s3.pushOnce .storeLeaveQueue [c, k]
    s4.reap c k

/-- R335, R336: a cause that a store or a write of a tile failed late. -/
def Cause.isLate (x : Cause) : Bool := x.code == 21 || (x.code == 20 && x.sub == 0)

/-- R336: a write of the cohort with a place in issue order has failed late, or stands behind one that has. -/
def Cohort.writeStuck (h : Cohort) (seq : Nat) : Bool := h.late.any fun x => x.isLate && x.at_ ≤ seq

/-- The cohort's own part of its end (R117, R226): no split, record, monitor or wait is left, and what has issued completes. Loads that faulted
never perform, and neither do a store that faulted and those behind it (log entry 16). -/
def Cohort.end_ (h : Cohort) : Cohort :=
  { h with
    splits := [], overflow := [], joins := [], parked := none, hparked := none, cause := none, late := [],
    fences := [], bisque := none, stopped := false, handler := false, ending := true, holds := false, leaving := false
    exited := BitVec.allOnes 32
    loads := h.loads.filter fun x => x.stage != 3
    stores := h.stores.filter fun x => !h.writeStuck x.seq }

/-- R203, R316, R338: the errors of a launch that late faults leave which a cohort of it never took. -/
def State.lateErrs (s : State) (h : Cohort) (c k : Nat) : State :=
  h.late.foldl (fun (t : State) x => t.launchErr h.launch (if x.isLate then 5 else 2) h.stage c k x.pc.toNat) s

/-- R162, R336: the tile writes that wait for a cohort's return from its trap are dropped, and what waits for them goes on. -/
def State.dropHeldWrites (s : State) (c b uid : Nat) : State :=
  (s.onBlock c b fun bl => { bl with handles := Tbl.mapv bl.handles fun _ x =>
    { x with writes := x.writes.filter fun t => !(t.held && t.uid == uid) } }).onCore c fun co =>
      co.onBlockCohorts b (·.retryAll fun y => match y with | .tile _ => true | .grant => true | _ => false)

/-- R117, R203, R226, R248, R338: the cohort ends, with an error for each late fault that it had yet to take and with an error of its launch where `err`
gives its code and address. Its handles are released, its monitors freed, its slot has no owner, and its exit counts at every barrier that awaits all cohorts. -/
def State.endCohort (s : State) (c k : Nat) (err : Option (Nat × Nat)) : State :=
  match s.cohort? c k with
  | none => s
  | some h =>
    if h.ending then s
    else
      let s0 := match err with
        | some (code, pc) => s.launchErr h.launch code h.stage c k pc
        | none => s
      let s1 := s0.lateErrs h c k
      let s2 : State := { s1.setCohort c k h.end_ with
        monitors := s1.monitors.filter fun m => m.2.uid != h.uid }.onCore c fun co => { co with owners := co.owners.filter fun e => e.2 != h.uid }
      let s3 := (s2.onBlock c h.slot fun bl => { bl with live := bl.live.filter (· != h.cohortid) }).dropHeldWrites c h.slot h.uid
      let s4 := (s3.dropFrameReqs c h.uid).releaseOrphans c h.slot
      let s5 := s4.settleBarriers c h.slot (List.range 16)
      let s6 := (List.range 16).foldl (fun t n => t.blockArrives c h.slot n) s5
      let s7 := match s6.block? c h.slot with
        | none => s6
        | some bl => (List.range 16).foldl (fun t n => (t.settleSide bl.gang n 0).settleSide bl.gang n 1) s6
      let s8 := [(0, (s7.core c).copyEng), (1, (s7.core c).gatherEng)].foldl (fun (t : State) e =>
        (List.filter (fun (x : Nat × Chain) => x.2.uid == h.uid && x.2.faulted) e.2.chains).foldl (fun (u : State) x =>
          u.push .engineEntryReach [c, e.1, x.1]) t) s7
      let s9 := if (s8.core c).mats.any (!·.started) then s8.pushOnce .mmpStart [c] else s8
      ((if h.holds then s9.pushOnce .schedule [] else s9).notify c k)

/-- R110, R224, R226: lanes turn grey: they leave their splits for good, count as arrived everywhere, and the last one ends
the cohort with error status. -/
def State.turnGrey (s : State) (c k : Nat) (m : Mask) (pc : Nat) : State :=
  match s.cohort? c k with
  | none => s
  | some h =>
    let m' := m &&& h.alive
    if m' = 0 then s
    else
      let h' := { h with dmask := h.dmask ||| m' }.dropLanes m'
      let s1 := s.setCohort c k h'
      if h'.alive = 0 then s1.endCohort c k (some (1, pc)) else s1.settleArrivals c k h.slot

/-- R224, R404: lanes that consume poison turn grey, with a record of code 3. -/
def State.greyLanes (s : State) (c k : Nat) (m : Mask) (pc : Nat) : State :=
  match s.cohort? c k with
  | none => s
  | some h =>
    let m' := m &&& h.alive
    if m' = 0 then s else (s.errRec 0 c 3 (lowestLane m') 0 h.asid (lanesOf m').length (pc * 256 + k)).turnGrey c k m' pc

/-- R116: lanes exit; the last one ends the cohort normally. -/
def State.exitLanes (s : State) (c k : Nat) (m : Mask) : State :=
  match s.cohort? c k with
  | none => s
  | some h =>
    let h' := { h with exited := h.exited ||| m }.dropLanes m
    let s1 := s.setCohort c k h'
    if h'.alive = 0 then s1.endCohort c k none else s1.settleArrivals c k h.slot

end Sys2Proof.Machine
end

