-- ==== Sys2Proof/Machine/Net.lean ====
section
/-! DEFINITION. Packets on their way between routers (R269 to R272): sending, the choice of a route, router inputs, and one
hop. -/

namespace Sys2Proof.Machine

open Sys2Proof

/-- The next input has a buffer for one more packet; the packet in its rotation slot takes none (R283). -/
def Net.room (n : Net) (key : Nat) : Bool := n.used key < n.depth

/-- The input that a packet goes to next. -/
def Packet.nextInput (p : Packet) : Nat := inputKey (nextHop p.here p.dst p.colFirst) p.here p.cls

/-- R285: an earlier packet of the flow went to an escape buffer and has not arrived. -/
def Net.flowHeld (n : Net) (id : Nat) (p : Packet) : Bool :=
  n.packets.any fun e => e.1 < id && e.2.escaped && e.2.cls == p.cls && e.2.src == p.src && e.2.dst == p.dst

/-- R284: the escape buffer of the packet's router comes first at the input that the packet goes to. -/
def Net.yields (n : Net) (p : Packet) : Bool :=
  match Tbl.at n.escape p.here [] with
  | [] => false
  | q :: _ => (Tbl.find? n.packets q).elim false fun x => x.nextInput == p.nextInput

/-- R270, R282: the packet at the head of an input can move on. -/
def Net.canMove (n : Net) (id : Nat) (p : Packet) : Bool :=
  p.here == p.dst || (n.room p.nextInput && !n.flowHeld id p && !n.yields p)

/-- The packet taken out of the input where it stands, which frees a rotation slot; the next one of that input may move. -/
def State.leaveInput (s : State) (id : Nat) (p : Packet) : State :=
  let key := inputKey p.here p.from_ p.cls
  let rest := (s.net.queue key).tail
  let s1 : State := { s with net := { s.net with
    inputs := if rest = [] then Tbl.del s.net.inputs key else Tbl.put s.net.inputs key rest
    rotation := if Tbl.find? s.net.rotation key = some id then Tbl.del s.net.rotation key else s.net.rotation
    stuck := Tbl.del s.net.stuck key } }
  match rest with
  | [] => s1
  | q :: _ => s1.pushOnce .packetRoute [q]

/-- A packet that is dropped. -/
def State.dropPacket (s : State) (id : Nat) : State := { s with net := { s.net with packets := Tbl.del s.net.packets id } }

/-! Packets that wait for a stack (R414, R415). -/

/-- A stack's checkpoint state changed. -/
def State.onStackSt (s : State) (st : Nat) (f : StackSt → StackSt) : State :=
  { s with stackTbl := Tbl.put s.stackTbl st (f (Tbl.at s.stackTbl st {})) }

/-- The bytes of the message log of stack `st` (R413). -/
def State.logRoom (s : State) (st : Nat) : Nat := (s.hubReg (0x700000 + 0x40 * st + 0x10)).toNat / 2 ^ 32 * 4096

/-- What a packet takes in the message log: its header and its payload of 128 or 256 bytes (log entry 41). -/
def logSize (d : Due) : Nat := if d.row = .channelPacketReceive then 320 else 192

/-- R415: a packet as it is logged: an access as it stands, and of a channel the payload that the packet brings, behind those that wait to be received. -/
def State.logItem (s : State) (d : Due) : LogItem :=
  { row := d
    acc := if d.row = .bankAccess then Tbl.find? s.accs (d.ops.headD 0) else none
    payload := if d.row = .channelPacketReceive then
        (Tbl.find? s.chans (d.ops.headD 0)).bind fun x => x.flight[(s.agenda.filter (· == d)).length]?
      else none }

/-- R415: a logged packet as bytes of the message log, a multiple of 64: 16 for its header, its operands, and its payload. DESIGN CHOICE (log entry 41): the
spec gives the log no layout. -/
def LogItem.bytes (x : LogItem) : List Byte :=
  let b := (x.row.ops.take 6).flatMap (leBytes 8) ++
    x.acc.elim [] (fun a => (a.lanes.flatMap fun l => leBytes a.size l.x).take 128) ++ x.payload.elim [] fun p => p.1.take 256
  leBytes 16 (x.acc.elim 0 fun a => (a.lanes.headD { lane := 0, va := 0 }).pa) ++ b ++ List.replicate (logSize x.row - 16 - b.length) 0

/-- R413: where the message log of stack `st` begins, after the checkpoint. -/
def State.logBase (s : State) (st : Nat) : Nat :=
  ((s.hubReg (0x700000 + 0x40 * st + 8)).toNat / 2 ^ 12 % 2 ^ 40 + (s.hubReg (0x700000 + 0x40 * st + 0x10)).toNat % 2 ^ 32) * 4096

/-- R415: a packet copied into the message log of stack `st`, in pieces of 64 bytes, and delivered once the copy has performed at its slices. -/
def State.logPacket (s : State) (st : Nat) (d : Due) : State :=
  let x := Tbl.at s.stackTbl st {}
  let e := s.logItem d
  let t := (List.range (logSize d / 64)).foldl
    (fun (t : State) i => t.homeWrite (s.logBase st + x.logged + 64 * i) ((e.bytes.drop (64 * i)).take 64)) s
  (t.onStackSt st fun x => { x with log := x.log ++ [e], logged := x.logged + logSize d }).pushAll [d]

/-- R415: the packet fits into the log; the first one of an empty log always does (log entry 41). -/
def State.logFits (s : State) (st : Nat) (d : Due) : Bool :=
  let x := Tbl.at s.stackTbl st {}
  x.logged == 0 || x.logged + logSize d ≤ s.logRoom st

/-- The packets held for stack `st` delivered, in order, as far as the log takes them (R414, R415). -/
def State.releasePackets (s : State) (st : Nat) : List Due → State
  | [] => { s with stackTbl := Tbl.adj s.stackTbl st fun x => { x with packets := [] } }
  | d :: r =>
    if !(Tbl.at s.stackTbl st {}).mode then State.releasePackets (s.pushAll [d]) st r
    else if s.logFits st d then State.releasePackets (s.logPacket st d) st r
    else ({ s with stackTbl := Tbl.adj s.stackTbl st fun x => { x with packets := d :: r } } : State).pushOnce .msgLogOverflow [st]

/-- R414, R415: a packet for a core of stack `st` is held while a checkpoint is under way, logged in checkpoint mode, and delivered. -/
def State.toStack (s : State) (st : Nat) (d : Due) : State :=
  let x := Tbl.at s.stackTbl st {}
  if x.step != 0 || x.packets != [] then { s with stackTbl := Tbl.put s.stackTbl st { x with packets := x.packets ++ [d] } }
  else s.releasePackets st [d]

/-- A packet has reached its destination router: what it carries is due there, and the flow that it acknowledges counts one
packet less (R270). -/
def State.deliver (s : State) (id : Nat) (p : Packet) : State :=
  let f := flowKey (p.acks - 1) p.dst p.src
  let n := s.net
  let s1 : State := { s with net := { n with
      packets := Tbl.del n.packets id
      flowCount := if p.acks = 0 then n.flowCount else Tbl.adj n.flowCount f (· - 1) } }
  if p.dst < 16 ∧ (p.cls = 0 ∨ p.cls = 3) then s1.toStack (p.dst % 8) p.deliver else s1.pushAll [p.deliver]

/-- A packet put at the tail of the input that it goes to next. -/
def State.enterNext (s : State) (id : Nat) (p : Packet) : State :=
  let key := p.nextInput
  let n := s.net
  { s with net := { n with
      packets := Tbl.put n.packets id { p with here := nextHop p.here p.dst p.colFirst, from_ := p.here }
      inputs := Tbl.put n.inputs key (n.queue key ++ [id]) } }.push .packetRoute [id]

/-- R272, R404: bits 127 to 64 of a packet's header. -/
def Packet.highBits (p : Packet) : Nat :=
  p.incarn % 2 ^ 16 * 2 ^ 48 + p.src % 64 * 2 ^ 42 + p.dst % 64 * 2 ^ 36 + p.port % 16 * 2 ^ 32 + p.cls % 8 * 2 ^ 29 + p.flits % 8 * 2 ^ 26 +
    p.op % 64 * 2 ^ 20 + p.scope % 4 * 2 ^ 18 + p.reuse % 4 * 2 ^ 16 + p.addr / 2 ^ 36 % 2 ^ 16

/-- R270, R271: a router takes the packet at the head of an input one hop on, if the next input has room, and out of the network at its
destination. A packet of a reserved class and one of an old incarnation (R416) are dropped and recorded. -/
def State.hop (s : State) (id : Nat) : State :=
  match Tbl.find? s.net.packets id with
  | none => s
  | some p =>
    let key := inputKey p.here p.from_ p.cls
    if (s.net.queue key).head? != some id then s
    else if 4 ≤ p.cls then ((s.leaveInput id p).dropPacket id).errRec 4 p.here 5 p.cls 0 0 1 p.highBits
    else if p.incarn != s.incarnAt p.src then
      let s1 := ((s.leaveInput id p).dropPacket id).errRec 4 p.here 5 p.cls 0 0 1 p.highBits
      if p.cls = 1 then s1 else s1.onNet fun n => { n with flowCount := Tbl.adj n.flowCount (flowKey p.cls p.src p.dst) (· - 1) }
    else if p.here = p.dst then (s.leaveInput id p).deliver id p
    else if s.net.canMove id p then (s.leaveInput id p).enterNext id p
    else
      let since := Tbl.at s.net.stuck key s.net.hubClock
      ({ s with net := { s.net with stuck := Tbl.put s.net.stuck key since } } : State).push .packetRoute [id]

/-! Peers (R381 to R384). -/

/-- R383: the link that an access to a peer travels on, chosen among the links of the peer's mask. -/
def State.linkFor (s : State) (p off : Nat) : Nat :=
  let ls := (List.range 32).filter fun l => (s.hubReg (0x580000 + 8 * p)).getLsbD (32 + l)
  if ls = [] then 0 else ls.getD (off / 2 ^ 7 % 512 % ls.length) 0

/-- The physical address of an offset of a peer's window (R14). -/
def peerPa (p off : Nat) : Nat := 0x800000000000 + p * 2 ^ 40 + off

/-- R383, R404: an access to a peer, under a name, at the port of its link, with a record of the poison that it takes along. -/
def State.sendPeer (s : State) (id : Nat) (x : PeerAcc) : State :=
  let l := s.linkFor x.peer x.off
  let k := Tbl.at s.links l {}
  let s1 : State := { s with peers := Tbl.put s.peers id x, links := Tbl.put s.links l { k with port := k.port ++ [.access id] } }
  if x.bad = [] then s1 else s1.errRec 6 l 4 0 (peerPa x.peer x.off) 0 1 0

/-- A write to a peer that only its own acknowledgement completes, and its name. -/
def State.writePeer (s : State) (x : PeerAcc) : Nat × State := (s.nextId, ({ s with nextId := s.nextId + 1 } : State).sendPeer s.nextId x)

/-- The write of a line, or of part of one, to a peer: its peer and its line. -/
def State.lineItem (s : State) : PortItem → Option (Nat × Nat)
  | .access id => (Tbl.find? s.peers id).bind fun x => if x.kind = .store then some (x.peer, x.off / 128) else none
  | .reply _ => none

/-- R419: what the next packet carries: consecutive line writes to one peer, 16 lines at most, or one other item. -/
def State.packet (s : State) (port : List PortItem) : List PortItem :=
  match port with
  | [] => []
  | x :: _ =>
    match s.lineItem x with
    | none => [x]
    | some z =>
      let run := port.takeWhile fun y => (s.lineItem y).elim false fun e => e.1 == z.1
      let lines := ((run.map fun y => ((s.lineItem y).getD (0, 0)).2).eraseDups).take 16
      run.takeWhile fun y => lines.contains ((s.lineItem y).getD (0, 0)).2

/-- R383, R418, R419: a link sends the next packet of its port with the next sequence number, at the pace of its width, unless it is retraining or lost. -/
def State.linkSend (s : State) (l : Nat) : State :=
  let k := Tbl.at s.links l {}
  if k.port = [] ∨ k.width = 0 ∨ k.retrain.isSome ∨ s.net.hubClock < k.free then s
  else
    let items := s.packet k.port
    { s with links := Tbl.put s.links l { k with
      port := k.port.drop items.length
      unacked := k.unacked ++ [{ seq := k.nextSeq, items := items }]
      wire := k.wire ++ [.packet k.nextSeq]
      nextSeq := (k.nextSeq + 1) % 2 ^ 16
      free := s.net.hubClock + 272 / k.width } }

/-- R383: the packets that are not acknowledged are sent once more, in order. -/
def Link.replay (k : Link) : Link := { k with replays := (k.replays + 1) % 2 ^ 16, wire := k.wire ++ k.unacked.map fun p => .packet p.seq }

/-- R404: the record of a replay or degradation of a link. -/
def State.linkRecord (s : State) (l : Nat) : State :=
  let k := Tbl.at s.links l {}
  s.errRec 6 l 6 k.width 0 0 k.replays k.lastAck

end Sys2Proof.Machine
end

