-- ==== Sys2Proof/Machine/Chain.lean ====
section
/-! DEFINITION. The chains of a core's engines, and what comes back to them (R188, R193). -/

namespace Sys2Proof.Machine

open Sys2Proof

/-- Engine `e` of a core: 0 copy, 1 gather. -/
def CoreSt.eng (co : CoreSt) (e : Nat) : Engine := if e = 0 then co.copyEng else co.gatherEng

/-- Engine `e` of a core changed. -/
def CoreSt.onEng (co : CoreSt) (e : Nat) (f : Engine → Engine) : CoreSt :=
  if e = 0 then { co with copyEng := f co.copyEng } else { co with gatherEng := f co.gatherEng }

/-- Chain `n` of an engine, if there is one, changed. -/
def State.onChain (s : State) (c e n : Nat) (f : Chain → Chain) : State :=
  s.onCore c fun co => co.onEng e fun x => { x with chains := Tbl.adj x.chains n f }

/-- The chain of an engine that a row names. -/
def State.chainAt (s : State) (c e n : Nat) : Option Chain := Tbl.find? ((s.core c).eng e).chains n

/-- How an access names its chain. -/
def chainCode (e n : Nat) : Nat := 8 * e + n + 1

/-- The chain that an access names, if it names one. -/
def State.chainOf (s : State) (c code : Nat) : Option Chain := if code = 0 then none else s.chainAt c ((code - 1) / 8) ((code - 1) % 8)

/-- The launch that a chain's block belongs to. -/
def State.chainBlock (s : State) (c : Nat) (x : Chain) : Block := (s.block? c x.block).getD {}

/-- R193: a write of a chain is acknowledged, and what waits for it goes on. -/
def State.chainAcked (s : State) (c id : Nat) : State :=
  [0, 1].foldl (fun (t : State) e =>
    let waiting := List.filter (fun (x : Nat × Chain) => x.2.pending.contains id) ((t.core c).eng e).chains
    waiting.foldl (fun (u : State) x =>
      (u.onChain c e x.1 fun y => { y with pending := remNat y.pending id }).pushOnce .engineEntryReach [c, e, x.1]) t) s

/-- A byte of an entry as a read brings it. -/
def EByte.read (b : EByte) (l : LaneAcc) : EByte := { b with val := BitVec.ofNat 8 l.x, bad := l.y == 1 }

/-- The bytes of an entry with those that a read brings, which name their places. -/
def readBytes (bytes : List EByte) (got : List LaneAcc) : List EByte :=
  bytes.zipIdx.map fun b => (got.find? fun l => l.lane == b.2).elim b.1 b.1.read

/-- An access that a chain reads with is over: the chain has what it brings, or the address that failed, and goes on after the last one. -/
def State.chainRead (s : State) (c code id : Nat) (got : List LaneAcc) (lost : Option Nat) : State :=
  let e := (code - 1) / 8
  let n := (code - 1) % 8
  match s.chainAt c e n with
  | none => s
  | some x =>
    if !x.reads.contains id then s
    else
      let rest := remNat x.reads id
      let s1 := s.onChain c e n fun y => { y with
        reads := rest, lost := y.lost.or lost, plan := y.plan.map fun p => { p with bytes := readBytes p.bytes got } }
      if rest = [] then s1.pushOnce .engineEntryReach [c, e, n] else s1

/-- Bytes in runs of rising addresses within a line of memory or of a peer, or a granule of a core's window. -/
def byteRuns : List LaneAcc → List (List LaneAcc)
  | [] => []
  | a :: r =>
    match byteRuns r with
    | (b :: t) :: rest =>
      let span := match regionOf a.pa with | .core .. => 16 | _ => 128
      if b.pa = a.pa + 1 ∧ b.pa % span ≠ 0 then (a :: b :: t) :: rest else [a] :: (b :: t) :: rest
    | l => [a] :: l

end Sys2Proof.Machine
end

