-- ==== Sys2Proof/Machine/Access.lean ====
section
/-! DEFINITION. How loads, stores and atomics proceed (R139 to R153, R242 to R246, R276): translation, forwarding, the L1 data
cache, the read-only caches, the store queue, and what an access does where it performs. -/

namespace Sys2Proof.Machine

open Sys2Proof

/-! The L1 data cache (R242 to R245) and the read-only caches (R246). -/

/-- The frame of L1 that holds a line, with its number. -/
def CoreSt.l1Find (co : CoreSt) (line : Nat) : Option (Nat × L1Frame) :=
  List.find? (fun (e : Nat × L1Frame) => e.2.line == line) co.l1

/-- The frame holds the byte: its granule is valid, or the byte is dirty (R245). -/
def L1Frame.has (f : L1Frame) (pa : Nat) : Bool := f.valid.contains (pa % 128 / 16) || f.dirty.contains pa

/-- Every byte of an access is held. -/
def L1Frame.hasAll (f : L1Frame) (pa n : Nat) : Bool := (List.range n).all fun i => f.has (pa + i)

/-- R244: the frame of a set taken for a new line: the lowest invalid, else the lowest whose RRPV, raised with all others, is
the first to be 3. Answers its number and the set's frames as they then stand. -/
def victim (co : CoreSt) (set : Nat) : Nat × Tbl L1Frame :=
  let keys := (List.range 16).map fun w => set * 16 + w
  match keys.find? fun k => !Tbl.has co.l1 k with
  | some k => (k, co.l1)
  | none =>
    let top := keys.foldl (fun a k => max a ((Tbl.find? co.l1 k).elim 0 (·.rrpv))) 0
    let l1 := Tbl.mapv co.l1 fun k f => if k / 16 = set then { f with rrpv := f.rrpv + (3 - top) } else f
    ((keys.find? fun k => (Tbl.find? l1 k).elim false (·.rrpv == 3)).getD (set * 16), l1)

/-- R148: the dirty bytes of a frame on their way home, as an access of the core; those of poisoned granules are marked. -/
def L1Frame.back (f : L1Frame) (c uid seq : Nat) : Access :=
  { core := c, uid := uid, seq := seq, kind := .wback, scope := 2, size := 1, path := 0, reuse := 0,
    lanes := f.dirty.map fun b =>
      { lane := 0, va := 0, pa := b, x := (Mem.rd f.bytes b).toNat, y := if f.poison.contains (b % 128 / 16) then 1 else 0 },
    data := [], stage := 0, pix := 0 }

/-- R148: the dirty bytes of a frame leave for the home slice with their mask. -/
def State.writeBack (s : State) (c uid seq : Nat) (f : L1Frame) : State :=
  if f.dirty = [] then s
  else
    let id := s.nextId
    let n := homeOf (f.line * 128)
    ({ s with nextId := id + 1, accs := Tbl.put s.accs id (f.back c uid seq) } : State).sendTo 2 0 (coreRouter c) (sliceRouter n) (slicePort n)
      { row := .sliceWriteback, ops := [id] }

/-- A frame evicted whole: its predictor entry is trained and its dirty bytes go home (R243, R244). -/
def State.evictL1 (s : State) (c key : Nat) : State :=
  match Tbl.find? (s.core c).l1 key with
  | none => s
  | some f => (s.onCore c fun co => ({ co with l1 := Tbl.del co.l1 key } : CoreSt).train f).writeBack c 0 0 f

/-- A frame for a line, taken where the line has none (R244). -/
def State.frameFor (s : State) (c line : Nat) (sm : Bool) (rrpv pix : Nat) : Nat × State :=
  match (s.core c).l1Find line with
  | some (k, _) => (k, s)
  | none =>
    let v := victim (s.core c) (line % 128)
    let s1 := (s.onCore c fun co => { co with l1 := v.2 }).evictL1 c v.1
    let f : L1Frame :=
      { line := line, valid := [], bytes := [], dirty := [], sm := sm, rrpv := rrpv, pix := pix, filled := 0, used := [] }
    (v.1, s1.onCore c fun co => { co with l1 := Tbl.put co.l1 v.1 f })

/-- R243, R245: the block that holds a granule, of the size that the predictor gives, filled in its invalid granules from the
line's bytes, and the granule itself brought up to them (R252); dirty bytes stay. -/
def L1Frame.fill (f : L1Frame) (z gran : Nat) (data : List Byte) : L1Frame :=
  let size := 2 ^ z
  let gs := (List.range size).map fun i => gran / size * size + i
  let new := gs.filter fun g => !f.valid.contains g
  { f with
    valid := new.foldl insNat f.valid
    filled := f.filled + new.length
    bytes := (insNat new gran).foldl (fun b g => (List.range 16).foldl (fun b i =>
      let pa := f.line * 128 + g * 16 + i
      if f.dirty.contains pa then b else Mem.wr b pa (data.getD (g * 16 + i) 0)) b) f.bytes }

/-- A granule of a frame counted as read by a load (R243). -/
def L1Frame.touch (f : L1Frame) (gran : Nat) : L1Frame := { f with used := insNat f.used gran, rrpv := 0 }

/-- R148: bytes written into a frame and marked dirty. -/
def L1Frame.writeDirty (f : L1Frame) (pa : Nat) (bs : List Byte) : L1Frame :=
  { f with bytes := Mem.wrBytes f.bytes pa bs, dirty := insRange f.dirty pa bs.length }

/-- R245: bytes written into a frame where it holds them already. -/
def L1Frame.update (f : L1Frame) (pa : Nat) (bs : List Byte) : L1Frame :=
  { f with bytes := bs.zipIdx.foldl (fun b e => if f.has (pa + e.2) then Mem.wr b (pa + e.2) e.1 else b) f.bytes }

/-- R245: a store to a coherent page updates the granules of the issuing core's L1 that are valid. -/
def State.updateL1 (s : State) (c pa : Nat) (bs : List Byte) : State :=
  match (s.core c).l1Find (pa / 128) with
  | none => s
  | some (k, _) => s.onCore c fun co => { co with l1 := Tbl.adj co.l1 k (·.update pa bs) }

/-- R148, R244: writes of one line of a software-managed page performed in the issuing core's L1, where they are dirty. A line that L1 does not hold takes
a frame; with reuse code `.na` it takes none, and the bytes leave as from a block that goes. DEDUCED (log entry 76): the frame takes the RRPV of the
store's reuse code, as R144 has it. -/
def State.storeLine (s : State) (c line : Nat) (ws : List (Nat × List Byte)) (reuse : Nat) : State :=
  let dirty (f : L1Frame) : L1Frame := ws.foldl (fun f w => f.writeDirty w.1 w.2) f
  match (s.core c).l1Find line with
  | some (k, _) => s.onCore c fun co => { co with l1 := Tbl.adj co.l1 k dirty }
  | none =>
    if reuse = 3 then
      s.writeBack c 0 0 (dirty { line := line, valid := [], bytes := [], dirty := [], sm := true, rrpv := 0, pix := 0, filled := 0, used := [] })
    else
      let r := s.frameFor c line true reuse 0
      r.2.onCore c fun co => { co with l1 := Tbl.adj co.l1 r.1 dirty }

/-- The granules that writes of `n` bytes at some addresses cover whole. -/
def wholeGranules (pas : List Nat) (n : Nat) : List Nat :=
  let bs := pas.flatMap fun a => (List.range n).map (a + ·)
  ((bs.map (· / 16)).eraseDups).filter fun g => (List.range 16).all fun i => bs.contains (16 * g + i)

/-- R397: granules of L1 written whole are good. -/
def CoreSt.healL1 (co : CoreSt) (gs : List Nat) : CoreSt :=
  if gs = [] then co
  else { co with l1 := Tbl.mapv co.l1 fun _ f => { f with poison := f.poison.filter fun i => !gs.contains (f.line * 8 + i) } }

/-- R397: granules written whole are good, and bytes that come with poison taint theirs. -/
def State.heal (s : State) (gs : List Nat) : State :=
  if gs = [] then s else { s with poison := s.poison.filter fun g => !gs.contains g }

/-- R246: a read-only cache's line brought to the front, or put there from memory; the least recently used goes. Addresses
are in lines of `size` bytes, `ways` to each of `sets` sets. -/
def cacheUse (l : List (Nat × List Byte)) (line : Nat) (data : List Byte) (ways sets : Nat) : List (Nat × List Byte) :=
  let rest := l.filter fun e => e.1 != line
  let same := (rest.filter fun e => e.1 % sets == line % sets).take (ways - 1)
  (line, ((l.find? fun e => e.1 == line).elim data Prod.snd)) ::
    (rest.filter fun e => e.1 % sets != line % sets || same.any fun x => x.1 == e.1)

/-! Atomics (R149 to R152). -/

/-- The bytes of an element of a type (R67). -/
def typeSize (ty : Nat) : Nat :=
  match ty with
  | 2 => 8 | 3 => 8 | 5 => 2 | 6 => 1 | 7 => 1 | _ => 4

/-- R151: the new value of an `ATOM` or `REDM` on an integer or fp32 type: operations add, min, max, and, or, xor, exch. -/
def atomNew (op ty old x : Nat) : Nat :=
  let w := 8 * typeSize ty
  if ty = 4 then
    match op with
    | 0 => Num.fadd .fp32 0 old x
    | 1 => Num.fmin .fp32 old x
    | 2 => Num.fmax .fp32 old x
    | _ => x
  else
    let lt (a b : Nat) : Bool := if ty = 0 ∨ ty = 2 then decide (Num.sintOf w a < Num.sintOf w b) else a < b
    match op with
    | 0 => (old + x) % 2 ^ w
    | 1 => if lt x old then x else old
    | 2 => if lt old x then x else old
    | 3 => old &&& x
    | 4 => old ||| x
    | 5 => old ^^^ x
    | _ => x

/-- R152: a contribution combined with a shadow element in FP32. -/
def shadowNew (op ty : Nat) (old : Nat) (x : Nat) : Nat :=
  let y := Num.pack .fp32 0 false 0 0 (Num.unpack (shadowFmt ty) x)
  match op with
  | 0 => Num.fadd .fp32 0 old y
  | 1 => Num.fmin .fp32 old y
  | _ => Num.fmax .fp32 old y

/-- A shadow opened from the stored elements (R152). A slice whose 1,024 slots are all open narrows the one least recently
used. -/
def State.openFresh (s : State) (line ty : Nat) : State :=
  let mine := s.opened.filter fun l => homeOf (l * 128) == homeOf (line * 128)
  let s1 := if 1024 ≤ mine.length then s.narrow (mine.headD 0) else s
  let vals := (List.range (128 / shadowSize ty)).map fun i =>
    BitVec.ofNat 32 (Num.pack .fp32 0 false 0 0 (Num.unpack (shadowFmt ty) (s1.peekN (line * 128 + i * shadowSize ty) (shadowSize ty))))
  { s1 with shadows := Tbl.put s1.shadows line { ty := ty, vals := vals } }

/-- R152: the line's shadow for an element type, now the one most recently used; a shadow of another type is narrowed and
closed first. -/
def State.openShadow (s : State) (line ty : Nat) : State :=
  let s1 := match Tbl.find? s.shadows line with
    | some sh => if sh.ty = ty then s else (s.narrow line).openFresh line ty
    | none => s.openFresh line ty
  { s1 with opened := remNat s1.opened line ++ [line] }

/-- R151, R397: one lane's atomic or reduction where it performs: the old value and the state after. A poisoned granule stays
as it is. A monitor sees the narrowed value of a contribution, and the shadow stays open (R280). -/
def State.atomAt (s : State) (kind : AccKind) (a : LaneAcc) : Nat × State :=
  match kind with
  | .atom op ty =>
    let n := typeSize ty
    let r := s.look a.pa n
    if s.poisoned a.pa n then (r.1, s) else (r.1, r.2.land [(a.pa, leBytes n (atomNew op ty r.1 a.x))])
  | .cas ty =>
    let n := typeSize ty
    let r := s.look a.pa n
    if s.poisoned a.pa n then (r.1, s) else (r.1, if r.1 = a.x then r.2.land [(a.pa, leBytes n a.y)] else r.2)
  | .redm op ty =>
    let n := typeSize ty
    if s.poisoned a.pa n then (0, s)
    else if ty < 5 then
      let r := s.look a.pa n
      (0, r.2.land [(a.pa, leBytes n (atomNew op ty r.1 a.x))])
    else if isHomed a.pa then
      let s1 := s.openShadow (a.pa / 128) ty
      let i := a.pa % 128 / n
      let s2 : State := { s1 with shadows := Tbl.adj s1.shadows (a.pa / 128) fun sh =>
        { sh with vals := sh.vals.set i (BitVec.ofNat 32 (shadowNew op ty (sh.vals.getD i 0).toNat a.x)) } }
      (0, s2.fireSeen (s2.narrow (a.pa / 128)) [(a.pa, n)])
    else
      let old := s.peekN a.pa n
      let w := Num.pack .fp32 0 false 0 0 (Num.unpack (shadowFmt ty) old)
      (0, s.poke a.pa (leBytes n (Num.pack (shadowFmt ty) 0 false 0 0 (Num.unpack .fp32 (shadowNew op ty w a.x)))))
  | .sub =>
    let r := s.look a.pa 8
    if s.poisoned a.pa 8 then (r.1, s) else (r.1, r.2.land [(a.pa, leBytes 8 ((r.1 + 2 ^ 64 - a.x % 2 ^ 64) % 2 ^ 64))])
  | _ => (0, s)

/-- The lanes' atomics in increasing lane order, with what each found (R151). -/
def State.atomAll (s : State) (kind : AccKind) : List LaneAcc → List LaneAcc × State
  | [] => ([], s)
  | a :: r =>
    let x := s.atomAt kind a
    let rest := State.atomAll x.2 kind r
    ({ a with x := x.1 } :: rest.1, rest.2)

/-! Forwarding from the store queue (R141, R146). -/

/-- The access kind of the map that an access has (R140). -/
def AccKind.acc : AccKind → Acc
  | .load => .load
  | .store => .store
  | .wback => .store
  | _ => .atomic

/-- The bytes that a queued store will write, by physical address, lanes rising (R146). -/
def State.storeBytes (s : State) (c asid gang : Nat) (st : StoreOp) : List (Nat × Byte) :=
  match st.kind with
  | .store => st.lanes.flatMap fun a =>
      match (s.findNow c asid gang .store a.va).1 with
      | .ok pa _ => (leBytes st.size a.x).zipIdx.map fun b => (pa + b.2, b.1)
      | _ => []
  | _ => []

/-- R141: a value with the bytes of the cohort's older queued stores laid over it, the youngest on top. -/
def forwarded (older : List (Nat × Byte)) (pa n v : Nat) : Nat :=
  leNat ((List.range n).map fun i => older.foldl (fun b w => if w.1 = pa + i then w.2 else b) (BitVec.ofNat 8 (v / 256 ^ i)))

/-- The bytes of every store of the cohort older than `seq` that is still in the queue, oldest first. -/
def State.olderBytes (s : State) (c gang : Nat) (h : Cohort) (seq : Nat) : List (Nat × Byte) :=
  (h.stores.filter fun st => st.seq < seq).flatMap fun st => s.storeBytes c h.asid gang st

/-- A cohort's gang. -/
def State.gangOf (s : State) (c : Nat) (h : Cohort) : Nat := (s.block? c h.slot).elim 0 (·.gang)

/-! Loads and atomics that return a value. -/

/-- The cohort's unfinished load `seq` changed. -/
def Cohort.onLoad (h : Cohort) (seq : Nat) (f : LoadOp → LoadOp) : Cohort :=
  { h with loads := h.loads.map fun x => if x.seq = seq then f x else x }

/-- R141, R142: the value as the destination receives it: sign-extended from its size, or zero-extended. -/
def extend (ext size v : Nat) : DWord :=
  if ext = 1 then sextTo (8 * size) 32 v |>.zeroExtend 64 else BitVec.ofNat 64 (v % 256 ^ size)

/-- The registers that a load's values go to, written in the lanes that got a good value (R78, R141, R142, R151). -/
def Cohort.writeLoad (h : Cohort) (x : LoadOp) : Cohort :=
  let m := x.mask &&& ~~~x.bad &&& ~~~h.dmask
  let val (l : Nat) : DWord := extend x.ext x.size ((x.got.find? fun a => a.lane == l).elim 0 (·.x))
  if x.uniform then (if x.bad = 0 then h.setQ x.dst (extend 0 8 ((x.got.headD { lane := 0, va := 0 }).x)) x.tag else h)
  else if x.size = 8 then h.setPair x.dst m x.tag val
  else h.setLanes x.dst m x.tag fun l => (val l).truncate 32

/-- A load of the cohort that has not left its core is tried again. -/
def State.nudgeLoads (s : State) (c : Nat) (h : Cohort) : State :=
  match h.loads.find? fun y => y.stage == 0 with
  | some y => s.pushOnce .translationWalkComplete [c, h.asid, (y.lanes.headD { lane := 0, va := 0 }).va / 4096]
  | none => s

/-- R219, R340: the line of lane register `r` written to a cohort's image. A poisoned word poisons its granule (R397). -/
def State.saveLine (s : State) (h : Cohort) (r : Nat) : State :=
  let a := h.image + 128 * r
  (lanesOf (h.vreg r).poison).foldl (fun (u : State) l => u.taint (a + 4 * l) 4) (s.homeWrite a (h.vreg r).bytes)

/-- R219: a line of the cohort that the cache no longer holds. -/
def Cohort.loseLine (h : Cohort) (r : Nat) : Cohort :=
  { h with absent := insNat h.absent r, dirty := remNat h.dirty r, imaged := if h.dirty.contains r then insNat h.imaged r else h.imaged }

/-- R219: a line that a cache is to hold no longer: it is written back if it is dirty. -/
def State.writeLine (s : State) (uid r : Nat) : State :=
  match s.cohortBy uid with
  | none => s
  | some h => (if h.dirty.contains r then s.saveLine h r else s).onUid uid (·.loseLine r)

/-- R219, R340: where the lane register cache of a core is full, a line goes: of a cohort that is out, which are evictable, the least recently used
first, and otherwise the least recently used. It is written back only if it is dirty. -/
def State.evictLine (s : State) (c : Nat) : State :=
  let co := s.core c
  if co.lines.length < 2048 then s
  else
    match (co.lines.find? fun e => (s.whereIs e.1).isNone).or co.lines.head? with
    | none => s
    | some (u, r) => (s.writeLine u r).dropLine u r

/-- R219, R396: a lane register's line brought in: zero for a line that no image has, else from the image, where a poisoned granule poisons the four
words that it holds. -/
def State.fillLine (s0 : State) (c k r : Nat) : State :=
  if !((s0.cohort? c k).elim false fun h => h.absent.contains r) then s0
  else
    let s := s0.evictLine c
    match s.cohort? c k with
    | none => s
    | some h =>
      let a := h.image + 128 * r
      let t := if h.imaged.contains r then s.narrow (a / 128) else s
      let x : VReg :=
        if h.imaged.contains r then
          { val := (List.range 32).map fun (l : Nat) => BitVec.ofNat 32 (t.peekN (a + 4 * l) 4), tag := h.vtag r
            poison := maskOf fun l => t.poisoned (a + 4 * l) 4 }
        else { tag := h.vtag r }
      (t.setCohort c k { h with absent := remNat h.absent r, v := Tbl.put h.v r x }).onCore c fun co => { co with lines := co.lines ++ [(h.uid, r)] }

/-- The registers that a load will write have their lines in the cache. -/
def State.fillFor (s : State) (c k : Nat) (x : LoadOp) : State :=
  if x.uniform then s else (if x.size = 8 then [x.dst, x.dst + 1] else [x.dst]).foldl (fun (t : State) r => t.fillLine c k r) s

/-- R141, R224: a load whose values have all come is written and leaves the list; lanes that received poison turn grey; a
split that a full-empty load held goes on. -/
def State.finishLoad (s0 : State) (c k seq : Nat) : State :=
  match ((s0.cohort? c k).bind fun h => h.loads.find? fun x => x.seq == seq) with
  | none => s0
  | some x =>
    let s := s0.fillFor c k x
    match s.cohort? c k with
    | none => s
    | some h =>
      let h1 := ({ h with loads := h.loads.filter fun y => y.seq != seq } : Cohort).writeLoad x
      let h2 := match x.split with
        | some i => h1.onSplit i fun sp => if sp.hold = .full seq then sp.pass else sp
        | none => h1
      let s1 := s.setCohort c k h2
      let s2 := if x.bad = 0 then s1 else s1.greyLanes c k (if x.uniform then x.mask else x.bad) x.pc.toNat
      (s2.nudgeLoads c h2).notify c k

/-- R333, R334: a load-class fault: no lane is written, the instruction stays to become a replay entry, and the cohort
stops. A cohort that has ended takes no trap: the load is dropped with error 5 of the launch (log entry 16). -/
def State.faultLoad (s : State) (c k seq code va : Nat) : State :=
  match s.cohort? c k with
  | none => s
  | some h =>
    if h.ending then
      let pc := (h.loads.find? fun x => x.seq == seq).elim 0 (·.pc.toNat)
      let h1 : Cohort := { h with loads := h.loads.filter fun x => x.seq != seq }
      (((s.setCohort c k h1).launchErr h.launch 5 h.stage c k pc).nudgeLoads c h1).notify c k
    else (s.setCohort c k (h.onLoad seq fun x => { x with stage := 3, code := code, fva := va }).halt).notify c k

/-- R381, R384: an access of a core as it goes to a peer, with the launch, the stage and the slot that it comes from. One of a chain's bytes is one value. -/
def State.peerAccOf (s : State) (id p off : Nat) (a : Access) (x : LaneAcc) : PeerAcc :=
  let y : PeerAcc := { peer := p, off := off, kind := a.kind, size := a.size, data := x.x, access := id, core := a.core }
  match s.chainOf a.core a.chain with
  | some ch =>
    let bl := s.chainBlock a.core ch
    let z : PeerAcc := { y with launch := bl.launch, stage := bl.stage, slot := (s.whereIs ch.uid).elim 0 Prod.snd, engine := true }
    if a.kind = .sub then { z with lanes := a.lanes }
    else { z with size := a.lanes.length, data := leNat (a.lanes.map fun l => BitVec.ofNat 8 l.x)
                  bad := (a.lanes.zipIdx.filter fun l => l.1.y == 1).map Prod.snd }
  | none =>
    let at_ := s.whereIs a.uid
    let h := at_.bind fun e => s.cohort? e.1 e.2
    { y with lanes := a.lanes, launch := h.elim 0 (·.launch), stage := h.elim 0 (·.stage), slot := at_.elim 0 Prod.snd }

/-- An access put on its way from a core to where it performs: a home slice, a bank of a core, the hub or a peer. -/
def State.launchAcc (s : State) (a : Access) : State :=
  let id := s.nextId
  let s1 : State := { s with nextId := id + 1, accs := Tbl.put s.accs id a }
  match a.lanes with
  | [] => s1
  | x :: _ =>
    match regionOf x.pa with
    | .core c .. => s1.sendTo 0 0 (coreRouter a.core) (coreRouter c) (corePort c) { row := .bankAccess, ops := [id] }
    | .near => s1.sendTo 0 0 (coreRouter a.core) (sliceRouter (homeOf x.pa)) (slicePort (homeOf x.pa)) { row := .sliceAccess, ops := [id] }
    | .far => s1.sendTo 0 0 (coreRouter a.core) (sliceRouter (homeOf x.pa)) (slicePort (homeOf x.pa)) { row := .sliceAccess, ops := [id] }
    | .peer p off => s1.sendPeer id (s.peerAccOf id p off a x)
    | .alias_ .. => s1.send 0 0 (coreRouter a.core) (unitRouter 1) { row := .awContribution, ops := [id] }
    | _ => s1.send 0 0 (coreRouter a.core) (unitRouter 0) { row := .bankAccess, ops := [id] }

/-- Where the lanes of one access go together: lines of memory, granules of a core's window (R229), and one location elsewhere (R266). -/
def unitOf (a : LaneAcc) : Nat :=
  match regionOf a.pa with
  | .near => a.pa / 128 * 3
  | .far => a.pa / 128 * 3
  | .core .. => a.pa / 16 * 3 + 1
  | _ => a.pa * 3 + 2

/-- The lanes grouped by where they go, in the order of their first lane. -/
def groupLanes (l : List LaneAcc) : List (List LaneAcc) := (l.map unitOf).eraseDups.map fun u => l.filter fun a => unitOf a == u

/-- A value that the load finds in its core's cache of the load's path, if it is all there. -/
def CoreSt.cached (co : CoreSt) (path pa n : Nat) : Option Nat :=
  match path with
  | 0 => match co.l1Find (pa / 128) with
    | some (_, f) => if isHomed pa && f.hasAll pa n then some (Mem.rdN f.bytes pa n) else none
    | none => none
  | 1 => (co.tcache.find? fun e => e.1 == pa / 128).map fun e => leNat ((e.2.drop (pa % 128)).take n)
  | _ => (co.kcache.find? fun e => e.1 == pa / 64).map fun e => leNat ((e.2.drop (pa % 64)).take n)

/-- The value that a load finds in L1 touches a poisoned granule (R396). -/
def CoreSt.cachedBad (co : CoreSt) (path pa : Nat) : Bool :=
  path == 0 && ((co.l1Find (pa / 128)).elim false fun e => e.2.poison.contains (pa % 128 / 16))

/-- The caches after a hit (R243, R244, R246). -/
def CoreSt.hit (co : CoreSt) (path pa : Nat) : CoreSt :=
  match path with
  | 0 => match co.l1Find (pa / 128) with
    | some (k, _) => { co with l1 := Tbl.adj co.l1 k fun f => f.touch (pa % 128 / 16) }
    | none => co
  | 1 => { co with tcache := cacheUse co.tcache (pa / 128) [] 8 128 }
  | _ => { co with kcache := cacheUse co.kcache (pa / 64) [] 4 256 }

/-- R153: before an atomic performs, the core's dirty bytes of its line leave for home and the block goes. -/
def State.cleanFor (s : State) (c : Nat) (kind : AccKind) (lanes : List LaneAcc) : State :=
  match kind with
  | .load => s
  | .store => s
  | _ => (((lanes.filter fun a => isHomed a.pa).map (·.pa / 128)).eraseDups).foldl (fun t line =>
      match (t.core c).l1Find line with
      | some (k, _) => t.evictL1 c k
      | none => t) s

/-- R245, R263: the dirty bytes that the core's L1 holds of some lines. -/
def CoreSt.dirtyOf (co : CoreSt) (lines : List Nat) : List (Nat × Byte) :=
  lines.flatMap fun l => (co.l1Find l).elim [] fun e => e.2.dirty.map fun b => (b, Mem.rd e.2.bytes b)

/-- R396: a value of `n` bytes takes a dirty byte of a granule that is poisoned in L1. -/
def CoreSt.dirtyBad (co : CoreSt) (pa n : Nat) : Bool :=
  (co.l1Find (pa / 128)).elim false fun e => e.2.poison.contains (pa % 128 / 16) && (List.range n).any fun i => e.2.dirty.contains (pa + i)

/-- Every byte of a value is forwarded. -/
def allForwarded (older : List (Nat × Byte)) (pa n : Nat) : Bool := (List.range n).all fun i => older.any fun w => w.1 == pa + i

/-- The access is one to a collective window. -/
def Access.toAlias (a : Access) : Bool := match regionOf (a.lanes.headD { lane := 0, va := 0 }).pa with | .alias_ .. => true | _ => false

/-- R363: a contribution of the cohort waits at its port for a slot, and the cohort's store queue behind it. -/
def State.portHolds (s : State) (uid : Nat) : Bool := s.accs.any fun e => e.2.uid == uid && e.2.stage == 0 && e.2.stamp != 0 && e.2.toAlias

/-- R147, R267, R369: an access that has left its core has yet to perform for the agents of a scope until it is acknowledged: in another core's window and
at a combine port at every scope, at a slice beyond the block, and at a peer for the system alone. -/
def Access.counts (a : Access) (scope : Nat) : Bool :=
  match regionOf (a.lanes.headD { lane := 0, va := 0 }).pa with
  | .core .. => true
  | .alias_ .. => true
  | .peer .. => scope == 3
  | _ => scope != 0

/-- A store of a core is queued, or has yet to perform at a scope. -/
def State.storeOut (s : State) (c uid seq scope : Nat) : Bool :=
  (Tbl.vals (s.core c).cohorts).any (fun h => h.uid == uid && h.stores.any (·.seq == seq)) ||
    s.accs.any fun e => e.2.uid == uid && e.2.seq == seq && e.2.kind == .store && e.2.counts scope

/-- Some lanes reach one of `n` bytes from an address on. -/
def touches (ls : List LaneAcc) (size pa n : Nat) : Bool := ls.any fun a => a.pa < pa + n && pa < a.pa + size

/-- R257: the stores of the core, not yet performed everywhere, whose bytes a load returns: those forwarded from the cohort's own queue, and those that
have left for home and that its values take from L1. -/
def State.returned (s : State) (c : Nat) (h : Cohort) (x : LoadOp) (hits : List LaneAcc) : List (Nat × Nat × Nat) :=
  let queued := h.stores.filter fun st => st.seq < x.seq && (s.storeBytes c h.asid (s.gangOf c h) st).any fun b => touches x.lanes x.size b.1 1
  let left := (Tbl.vals s.accs).filter fun e => e.core == c && e.kind == .store && e.lanes.any fun b => touches hits x.size b.pa e.size
  queued.map (fun st => (x.seq, h.uid, st.seq)) ++ left.map fun e => (x.seq, e.uid, e.seq)

/-- The accesses of a load whose lanes are all translated: values held in a cache are bound at once, and the rest leave the core in one
access for each line, granule or location. Bytes of the core's own older stores lie over what comes back: the dirty ones of L1, and on path g those of
the queue (R141, R245, R263), as they are when the access performs. -/
def State.issueLoad (s : State) (c k : Nat) (h : Cohort) (x : LoadOp) : State :=
  let plain := x.kind = .load && x.path = 0
  let co := s.core c
  let older := if plain then s.olderBytes c (s.gangOf c h) h x.seq else []
  let hits := if x.kind = .load && x.full = 0 then x.lanes.filter fun a => (co.cached x.path a.pa x.size).isSome else []
  let rest := x.lanes.filter fun a => !hits.any fun b => b.lane == a.lane
  let under := if plain then co.dirtyOf ((rest.map (·.pa / 128)).eraseDups) else []
  let got := hits.map fun a => { a with x := forwarded older a.pa x.size ((co.cached x.path a.pa x.size).getD 0) }
  let bad := maskOf fun l => x.lanes.any fun a => a.lane == l && !allForwarded older a.pa x.size &&
    (if hits.any fun b => b.lane == l then co.cachedBad x.path a.pa else plain && co.dirtyBad a.pa x.size)
  let s1 := hits.foldl (fun t a => t.onCore c fun co => co.hit x.path a.pa) (s.cleanFor c x.kind rest)
  let seen := if plain then s.returned c h x hits else []
  let s2 := s1.onCohort c k fun h =>
    { h.onLoad x.seq fun y => { y with stage := 1, got := got, bad := bad, fwd := under ++ older } with
      seen := (h.seen.filter fun e => s.storeOut c e.2.1 e.2.2 3) ++ seen }
  let groups := if x.full = 0 then groupLanes rest else [rest]
  let s3 := groups.foldl (fun t l => t.launchAcc
    { core := c, uid := h.uid, seq := x.seq, kind := x.kind, scope := x.scope, size := x.size, path := x.path,
      reuse := x.reuse, lanes := l, data := [], stage := 0, pix := x.pc.toNat / 2 % 256 ^^^ x.pc.toNat / 2 ^ 9 % 256, full := x.full, mask := x.mask }) s2
  if rest = [] then s3.finishLoad c k x.seq else s3

/-- R253, R268: a load waits for the older loads of its cohort that no full bit holds, also for one that has faulted, so that loads bind in issue
order. An atomic also waits until the cohort's older stores have left the queue (R252, R266). -/
def Cohort.mustFollow (h : Cohort) (x : LoadOp) : Bool :=
  (h.loads.any fun y => y.seq < x.seq && (y.stage != 1 || y.full == 0)) ||
    (x.kind != .load && h.stores.any fun st => st.seq < x.seq)

/-- R252, R253: an older reduction or signal of the cohort to some of the bytes is still queued. -/
def State.behindAtomic (s : State) (c : Nat) (h : Cohort) (seq size : Nat) (lanes : List LaneAcc) : Bool :=
  h.stores.any fun st => st.seq < seq && st.kind != .store && st.lanes.any fun a =>
    match (s.findNow c h.asid (s.gangOf c h) st.kind.acc a.va).1 with
    | .ok pa _ => touches lanes size pa st.size
    | _ => false

/-- R141, R324: a load goes on from translation: with every lane translated its accesses leave; with a translation missing a
walk is due; an address that fails stops the cohort. Full-empty loads reach scratchpads and tile stores only (R140). DESIGN CHOICE (log entry 77): a
translation fault of any lane goes before an address error of another, and of several lanes the lowest is reported; the spec names no order. -/
def State.advanceLoad (s : State) (c k seq : Nat) : State :=
  match s.cohort? c k with
  | none => s
  | some h =>
    match h.loads.find? fun x => x.seq == seq with
    | none => s
    | some x =>
      if x.stage != 0 || h.mustFollow x then s
      else
        let gang := s.gangOf c h
        let fs := x.lanes.map fun a => (a, s.find c h.asid gang x.kind.acc a.va)
        let okFull (pa : Nat) : Bool := match regionOf pa with
          | .core _ .scratch _ => true
          | .core _ .tile _ => true
          | _ => x.full == 0
        match fs.find? fun e => e.2 == .noPage with
        | some e => s.faultLoad c k seq 18 e.1.va
        | none =>
          match fs.find? fun e => (match e.2 with | .noAddr => true | .ok pa _ => !okFull pa | _ => false) with
          | some e => s.faultLoad c k seq 19 e.1.va
          | none =>
            match fs.find? fun e => e.2 == .miss with
            | some e => s.pushOnce .translationWalkComplete [c, h.asid, e.1.va / 4096]
            | none =>
              let lanes := fs.map fun e => match e.2 with | .ok pa _ => { e.1 with pa := pa } | _ => e.1
              let x' := { x with lanes := lanes }
              if x.kind = .load && x.path = 0 && s.behindAtomic c h seq x.size lanes then s
              else (s.onCohort c k fun h => h.onLoad seq fun _ => x').issueLoad c k h x'

/-- A load that has issued: it is listed, and proceeds. A load that no lane makes only sets its tag (R141, R142). -/
def State.startLoad (s : State) (c k : Nat) (x : LoadOp) : State :=
  let s1 := s.onCohort c k fun h => { h with loads := h.loads ++ [x] }
  if x.lanes = [] then s1.finishLoad c k x.seq else s1.advanceLoad c k x.seq

/-- R141, R245, R251, R253: the bytes that lie over those which a path g load finds where one of its accesses performs: dirty ones of the core's L1, in its
frames or on their way home, and those of the cohort's older stores, on their way or queued, the youngest on top. -/
def State.ownBytes (s : State) (c : Nat) (h : Cohort) (seq : Nat) (a : Access) : List (Nat × Byte) :=
  let flight := (Tbl.vals s.accs).filter fun e => e.core == c && e.stage == 0
  let bytes (e : Access) : List (Nat × Byte) := e.lanes.flatMap fun l => (leBytes e.size l.x).zipIdx.map fun b => (l.pa + b.2, b.1)
  ((flight.filter fun e => e.kind == .wback).flatMap bytes) ++ (s.core c).dirtyOf ((a.lanes.map (·.pa / 128)).eraseDups) ++
    ((flight.filter fun e => e.kind == .store && e.uid == h.uid && e.seq < seq).flatMap bytes) ++ s.olderBytes c (s.gangOf c h) h seq

/-- An access of a path g load performs: what its load is to lay over the values is taken at that instant. -/
def State.captureQueue (s : State) (a : Access) : State :=
  if a.kind != .load || a.path != 0 then s
  else match s.whereIs a.uid with
    | none => s
    | some (c, k) => s.onCohort c k fun h => h.onLoad a.seq fun y => { y with fwd := s.ownBytes c h a.seq a }

/-- Values that an access brings to its load, with the bytes of older stores that the load has kept laid over them (R141, R245, R253); a
value forwarded whole reads no poison. -/
def State.bindLoad (s : State) (uid seq : Nat) (got : List LaneAcc) (bad : Mask) : State :=
  match s.whereIs uid with
  | none => s
  | some (c, k) => s.onCohort c k fun h => h.onLoad seq fun x =>
    let mine := got.map fun a => if x.fwd = [] then a else { a with x := forwarded x.fwd a.pa x.size a.x }
    let hidden := if x.fwd = [] then 0 else maskOf fun l => got.any fun a => a.lane == l && allForwarded x.fwd a.pa x.size
    { x with got := x.got ++ mine, bad := x.bad ||| bad &&& ~~~hidden, stage := 1 }

/-! Where accesses perform. -/

/-- R397: the bytes that come with poison taint their granules. -/
def State.taintLanes (s : State) (l : List LaneAcc) : State := (l.filter fun x => x.y == 1).foldl (fun t x => t.taint x.pa 1) s

/-- What an access does to the bytes where it performs, with the values its lanes find and the lanes that find poison. -/
def State.serve (s : State) (a : Access) : List LaneAcc × Mask × State :=
  match a.kind with
  | .load =>
    let s1 := a.lanes.foldl (fun (t : State) x => t.narrowIn x.pa a.size) s
    (a.lanes.map fun x => { x with x := s1.peekN x.pa a.size },
     maskOf fun l => a.lanes.any fun x => x.lane == l && s1.poisoned x.pa a.size, s1)
  | .store =>
    let s1 := (s.land (a.lanes.map fun x => (x.pa, leBytes a.size x.x))).heal (wholeGranules (a.lanes.map (·.pa)) a.size)
    ([], 0, if a.chain = 0 then s1 else s1.taintLanes a.lanes)
  | .wback => ([], 0, ((s.land (a.lanes.map fun x => (x.pa, [BitVec.ofNat 8 x.x]))).heal (wholeGranules (a.lanes.map (·.pa)) 1)).taintLanes a.lanes)
  | kind =>
    let bad := maskOf fun l => a.lanes.any fun x => x.lane == l && s.poisoned x.pa a.size
    let r := s.atomAll kind a.lanes
    (r.1, bad, r.2)

/-! Stores. -/

/-- The page of the first lane of a store that no translation is held for. -/
def State.storeMiss (s : State) (c : Nat) (h : Cohort) (st : StoreOp) : Option Nat :=
  (st.lanes.find? fun a => s.find c h.asid (s.gangOf c h) st.kind.acc a.va == .miss).map fun a => a.va / 4096

/-- R140, R352: a contribution of fewer than 4 bytes. -/
def narrowAlias (size : Nat) : Found → Bool
  | .ok pa _ => size < 4 && (match regionOf pa with | .alias_ .. => true | _ => false)
  | _ => false

/-- The first lane of a store whose address fails: a translation fault or an address error (R158). -/
def State.storeFails (s : State) (c : Nat) (h : Cohort) (st : StoreOp) : Option Nat :=
  (st.lanes.find? fun a =>
    let f := s.find c h.asid (s.gangOf c h) st.kind.acc a.va
    f == .noPage || f == .noAddr || narrowAlias st.size f).map (·.va)

/-- The address lies in core `c`'s own window. -/
def LaneAcc.inCore (a : LaneAcc) (c : Nat) : Bool :=
  match regionOf a.pa with
  | .core d .. => d == c
  | _ => false

/-- R147, R148, R253: the oldest store, whose addresses are all translated, leaves the queue: on a software-managed page into the
core's L1; in the core's own scratchpad it performs at that instant; elsewhere it is on its way to where it performs, L1 blocks that hold its granules
being updated. -/
def State.leaveStore (s : State) (c k : Nat) (h : Cohort) (st : StoreOp) : State :=
  let gang := s.gangOf c h
  let lanes := st.lanes.map fun a => match s.find c h.asid gang st.kind.acc a.va with
    | .ok pa sm => ({ a with pa := pa }, sm)
    | _ => (a, false)
  let mine := if st.kind = .store then (lanes.filter fun e => e.2 && isHomed e.1.pa).map Prod.fst else []
  let rest := (lanes.map Prod.fst).filter fun a => !mine.any fun x => x.lane == a.lane
  let own := rest.filter (·.inCore c)
  let out := rest.filter fun a => !a.inCore c
  let acc (l : List LaneAcc) : Access :=
    { core := c, uid := h.uid, seq := st.seq, kind := st.kind, scope := st.scope, size := st.size, path := 0, reuse := st.reuse,
      lanes := l, data := [], stage := 0, pix := 0, mask := st.mask }
  let bytes (a : LaneAcc) : Nat × List Byte := (a.pa, leBytes st.size a.x)
  let s0 := s.onCohort c k fun h => { h with stores := h.stores.tail }
  let s1 := (((mine.map (·.pa / 128)).eraseDups).foldl (fun (t : State) line =>
      t.storeLine c line ((mine.filter fun a => a.pa / 128 == line).map bytes) st.reuse) s0).onCore c fun co =>
    co.healL1 (wholeGranules (mine.map (·.pa)) st.size)
  let s2 := if st.kind = .store then
      (out.filter fun a => isHomed a.pa).foldl (fun t a => t.updateL1 c a.pa (leBytes st.size a.x)) s1
    else s1.cleanFor c st.kind out
  let s3 := if own = [] then s2 else (s2.serve (acc own)).2.2
  let s4 := (groupLanes out).foldl (fun t l => t.launchAcc (acc l)) s3
  let s5 := if h.stores.tail = [] then s4 else s4.pushOnce .storeLeaveQueue [c, k]
  (s5.nudgeLoads c h).notify c k

/-- A store put into the queue (R146). -/
def State.queueStore (s : State) (c k : Nat) (st : StoreOp) : State :=
  if st.lanes = [] then s
  else (s.onCohort c k fun h => { h with stores := h.stores ++ [st] }).pushOnce .storeLeaveQueue [c, k]

/-! Order and answers. -/

/-- Where the lanes of an access perform, as `unitOf` counts. -/
def Access.units (a : Access) : List Nat := (a.lanes.map unitOf).eraseDups

/-- Two accesses reach one line or granule. -/
def Access.meets (a b : Access) : Bool := a.units.any fun u => b.units.contains u

/-- R270, R276: an older access of the same core to the same line or granule has not performed: they are served in order. Loads that wait for a full
bit stand aside (R143), and themselves follow only the core's older writes. -/
def State.overtakes (s : State) (id : Nat) (a : Access) : Bool :=
  s.accs.any fun e => e.1 < id && e.2.core == a.core && e.2.stage == 0 && e.2.full == 0 && (a.full == 0 || e.2.kind != .load) && e.2.meets a

/-- R276: an access to the same line that arrived at the slice before this one has not been served. -/
def State.passes (s : State) (id : Nat) (a : Access) : Bool :=
  s.accs.any fun e => e.1 != id && e.2.stage == 0 && e.2.full == 0 && e.2.stamp != 0 && e.2.stamp < a.stamp && e.2.meets a

/-- The access returns a value to a load. -/
def AccKind.returns : AccKind → Bool
  | .load => true
  | .atom .. => true
  | .cas _ => true
  | _ => false

/-- The router where an access performs. -/
def State.routerOf (s : State) (pa : Nat) : Nat :=
  match regionOf pa with
  | .core c .. => coreRouter c
  | .near => sliceRouter (homeOf pa)
  | .far => sliceRouter (homeOf pa)
  | .alias_ .. => unitRouter 1
  | .peer p off => unitRouter (2 + s.linkFor p off)
  | _ => unitRouter 0

/-- R270: the class of the packet that carried an access, counted from 1, for its acknowledgement; 0 where none did. -/
def Access.flow (a : Access) : Nat :=
  match regionOf (a.lanes.headD { lane := 0, va := 0 }).pa with
  | .peer .. => 0
  | _ => if a.kind = .wback then 3 else 1

/-- What an access of a chain has found, with the poison that comes along (R397); a peer says itself what it found. -/
def State.foundBytes (s : State) (got : List LaneAcc) : List LaneAcc :=
  got.map fun x => match regionOf x.pa with
    | .peer .. => x
    | _ => { x with y := if s.poisoned x.pa 1 then 1 else 0 }

/-- The access has performed: what it found is bound to its load, or kept for its chain. -/
def State.performed (s : State) (id : Nat) (a : Access) (got : List LaneAcc) (bad : Mask) (data : List Byte) (stage : Nat) : State :=
  if a.chain != 0 then
    { s with accs := Tbl.put s.accs id { a with stage := stage, data := data, lanes := if a.kind = .load then s.foundBytes got else a.lanes } }
  else
    let s1 := if a.kind.returns then s.bindLoad a.uid a.seq got bad else s
    { s1 with accs := Tbl.put s1.accs id { a with stage := stage, data := data } }

/-- The answer to an access that has performed leaves for its core: its values, or an acknowledgement. -/
def State.respond (s : State) (id : Nat) (a : Access) : State :=
  s.sendTo 1 a.flow (s.routerOf (a.lanes.headD { lane := 0, va := 0 }).pa) (coreRouter a.core) (corePort a.core)
    (if a.kind.returns then { row := .loadDataReturn, ops := [a.uid, a.seq, id] }
     else { row := .writeAcknowledgement, ops := [id] })

/-- The access has performed: values are bound and return to their core, writes are acknowledged to it. -/
def State.answer (s : State) (id : Nat) (a : Access) (got : List LaneAcc) (bad : Mask) (data : List Byte) : State :=
  (s.performed id a got bad data 1).respond id a

/-- R148: the write-backs of a line that the core has under way land. -/
def State.landBacks (s : State) (c line : Nat) : State :=
  (List.filter (fun (e : Nat × Access) => e.2.core == c && e.2.kind == .wback && e.2.stage == 0 &&
      (e.2.lanes.headD { lane := 0, va := 0 }).pa / 128 == line) s.accs).foldl (fun (t : State) e =>
    let r := (t.lineWritten line).serve e.2
    r.2.2.answer e.1 e.2 [] 0 []) s

/-- R184, R199, R245: a tile or engine write of `n` bytes: overlapping blocks of the issuing core's L1 go, dirty bytes first
written back to the slice, where they land before the write and after what was on its way. -/
def State.dropL1 (s : State) (c pa n : Nat) : State :=
  if !isHomed pa then s
  else
    let s0 := (linesIn pa n).foldl (fun t line => t.landBacks c line) s
    let hit := List.filter (fun (e : Nat × L1Frame) => e.2.line * 128 < pa + n && pa < e.2.line * 128 + 128) (s0.core c).l1
    hit.foldl (fun t e =>
      let t1 := t.onCore c fun co => ({ co with l1 := Tbl.del co.l1 e.1 } : CoreSt).train e.2
      if e.2.dirty = [] then t1 else ((t1.lineWritten e.2.line).serve (e.2.back c 0 0)).2.2) s0

end Sys2Proof.Machine
end

