-- ==== Sys2Proof/Machine/Operands.lean ====
section
/-! DEFINITION. The operand forms: which registers, predicates and handles an instruction names (R54, R58 to R68), the values its
operands have (R51 to R66), and the addresses of loads and stores (R66, R139). -/

namespace Sys2Proof.Machine

open Sys2Proof

/-- The split that issues, with its cohort: core, cohort slot, split index, and the word fetched with its length. -/
structure Who where
  c : Nat
  k : Nat
  i : Nat
  h : Cohort
  sp : Split
  word : Nat
  len : Nat
  deriving DecidableEq, Repr

/-- What issues the instruction at hand, if a live split does. -/
def State.who? (s : State) : Option Who :=
  match s.me? with
  | none => none
  | some h =>
    match h.split? s.cur.split with
    | none => none
    | some sp => some { c := s.cur.core, k := s.cur.slot, i := s.cur.split, h := h, sp := sp, word := s.cur.word, len := s.cur.len }

/-- What an instruction waits for where it releases (R259): the accesses of some classes, up to a scope. `by_` has the lanes whose accesses count, and
`near` leaves all but path g and the scratchpads aside (R126). -/
structure Rel where
  scope : Nat
  cls : Nat
  by_ : Mask := BitVec.allOnes 32
  near : Bool := false
  deriving DecidableEq, Repr

/-- What an instruction names and how it takes part in issue. `whole` marks the uniform, cohort-level and tile instructions,
which execute once an issue (R80, R123, R185); `acc` is the set of the classes of its memory accesses (R154); `path` is the
path that it loads on; `rel` is what it releases (R259); `eat` replaces the lanes that poison
greys where the instruction reads across lanes (R224). `kept` has the lane registers that it copies and does not read (R118), and `odd` a target in a
register that is odd (R50). -/
structure Uses where
  vs : List Nat := []
  vd : List Nat := []
  us : List Nat := []
  ud : List Nat := []
  hs : List Nat := []
  pairs : List Nat := []
  quads : List Nat := []
  illegal : Bool := false
  priv : Bool := false
  whole : Bool := true
  guard : Nat := 0
  acc : Nat := 0
  path : Option Nat := none
  load : Bool := false
  store : Bool := false
  rel : Option Rel := none
  kept : List Nat := []
  odd : Option Nat := none
  fresh : List Nat := []
  eat : Option Mask := none
  deriving DecidableEq, Repr

/-- R54: an illegal register field: at or above the budget, a handle at or above the block's count, an odd pair. -/
def Uses.bad (u : Uses) (budget handles : Nat) : Bool :=
  u.illegal || (u.vs ++ u.vd).any (budget ≤ ·) || (u.hs ++ u.fresh).any (handles ≤ ·) || u.pairs.any (· % 2 == 1) || u.quads.any (· % 4 != 0)

/-- The pair that begins at a register. -/
def pairOf (n : Nat) : List Nat := [n, n + 1]

/-! Lane instructions (R51, R58 to R63). -/

/-- The registers of a lane instruction with sources `vs`, uniform sources `us`, destination `vd` and guard `g`. -/
def laneUses (vs us vd : List Nat) (g : Nat) : Uses := { vs := vs, us := us, vd := vd, guard := g, whole := false }

/-- Format A with two sources: field b is a lane register or, with bq, a uniform one (R58). -/
def usesA (o : OpA) : Uses := laneUses (if o.q = 1 then [o.a] else [o.a, o.b]) (if o.q = 1 then [o.b] else []) [o.d] o.g

/-- A fused form also reads its destination (R58). -/
def usesAcc (o : OpA) : Uses := { usesA o with vs := o.d :: (usesA o).vs }

/-- R58: an FP64 form: a, d and a lane b are even pairs. -/
def uses64 (o : OpA) : Uses :=
  { laneUses (pairOf o.a ++ if o.q = 1 then [] else pairOf o.b) (if o.q = 1 then [o.b] else []) (pairOf o.d) o.g with
    pairs := [o.a, o.d] ++ if o.q = 1 then [] else [o.b] }

/-- R58: `DFMA` reads its destination pair too. -/
def uses64Acc (o : OpA) : Uses := { uses64 o with vs := pairOf o.d ++ (uses64 o).vs }

/-- Format A with one source. -/
def usesU (o : OpU) : Uses := laneUses [o.a] [] [o.d] o.g

/-- R58: an FP64 form with one source. -/
def usesU64 (o : OpU) : Uses := { laneUses (pairOf o.a) [] (pairOf o.d) o.g with pairs := [o.a, o.d] }

/-- A sixteen-bit form `d := d op s` (R51). -/
def halfUses (s d : Nat) : Uses := laneUses [s, d] [] [d] 0

/-- The second operand's word in lane `l`: a lane register's, or bits [31:0] of a uniform one (R58). -/
def Cohort.opB (h : Cohort) (q b l : Nat) : Word := if q = 1 then (h.uq b).truncate 32 else h.lane b l

/-- R58: the second operand of an FP64 form: a pair, or all 64 bits of a uniform register. -/
def Cohort.opB64 (h : Cohort) (q b l : Nat) : DWord := if q = 1 then h.uq b else h.pair b l

/-- The tag of the second operand. -/
def Cohort.tagB (h : Cohort) (q b : Nat) : Nat := if q = 1 then h.utag b else h.vtag b

/-! Addresses (R66, R139). -/

/-- R66, R139: the address of lane `l` in the pair form or the indexed form; the sum wraps at 64 bits. -/
def Cohort.laneAddr (h : Cohort) (a off size l : Nat) : Nat :=
  if a % 2 = 1 then ((h.uq off) + (h.lane (a / 2) l).zeroExtend 64).toNat
  else (h.pair a l + BitVec.ofNat 64 (off * size)).toNat

/-- R66: the address of a uniform or constant form. -/
def Cohort.baseAddr (h : Cohort) (b off size : Nat) : Nat := (h.uq b + BitVec.ofNat 64 (off * size)).toNat

/-- The registers that an address names: an even pair, or a uniform base and a lane index (R66). -/
def addrUses (a off : Nat) : Uses :=
  if a % 2 = 1 then { vs := [a / 2], us := [off], whole := false } else { vs := pairOf a, pairs := [a], whole := false }

/-- The registers of a data field of `size` bytes: an even pair where it is 8 (R66). -/
def dataRegs (d size : Nat) : List Nat := if size = 8 then pairOf d else [d]

/-- The evenness that a data field of `size` bytes needs. -/
def dataPairs (d size : Nat) : List Nat := if size = 8 then [d] else []

/-- R51: a sixteen-bit form's signed immediate (R52). -/
def imm5 (i : Nat) : Word := sextTo 5 32 i

end Sys2Proof.Machine
end

