-- ==== Sys2Proof/Machine/Ops.lean ====
section
/-! DEFINITION. The operations that every core instruction shares: the checks at issue (R69), what holds an instruction back
(R79, R155, R210), poisoned operands (R224), and taking a trap (R227, R329 to R337) with the cohort's image (R326 to R331). The return from a
trap stands beside it. -/

namespace Sys2Proof.Machine

open Sys2Proof

/-! Accesses that have not performed (R155). -/

/-- A cohort's chains of an engine older than `lim`. -/
def Engine.hasChain (e : Engine) (uid lim : Nat) : Bool := (Tbl.vals e.chains).any fun x => x.uid == uid && x.seq < lim

/-- The address is in an alias window. -/
def isAlias (pa : Nat) : Bool :=
  match regionOf pa with
  | .alias_ .. => true
  | _ => false

/-- R147, R154: the classes of a store at some addresses, by where they lead: AW for an alias window, W elsewhere. -/
def State.storeCls (s : State) (c asid gang : Nat) (lanes : List LaneAcc) : Nat :=
  let toAlias (a : LaneAcc) : Bool := match (s.findNow c asid gang .store a.va).1 with
    | .ok pa _ => isAlias pa
    | _ => false
  (if lanes.any toAlias then 1 else 0) + if lanes != [] && lanes.all toAlias then 0 else 0x40

/-- R154: the class of an access that has left its core and changes memory. -/
def Access.cls (a : Access) : Nat := if isAlias (a.lanes.headD { lane := 0, va := 0 }).pa then 1 else 0x40

/-- The accesses of R155: an access of the cohort older than `lim` of a class in `cls` has not performed at the scope; one that has faulted has not
(R268). At block scope a write to memory has performed once it has left the store queue. A predecessor set with R also has the stores of the core that
the cohort's loads have returned (R257). A write of a non-resident tile reads the backing image when it performs (R184). The tile transfers that a trap
holds do not count for its handler (log entry 47). -/
def State.pendingAcc (s : State) (c : Nat) (h : Cohort) (lim scope cls : Nat) : Bool :=
  let co := s.core c
  let has (b : Nat) : Bool := cls / b % 2 == 1
  let hs : List Handle := (s.block? c h.slot).elim [] fun b => Tbl.vals b.handles
  let open_ (t : Transfer) : Bool := t.uid == h.uid && t.seq < lim && !(t.held && h.handler)
  (has 0x80 && h.loads.any fun x => x.seq < lim) ||
  (has 0x80 && h.fences.any fun f => f.seq < lim && f.paths == 4) ||
  (has 0x80 && h.seen.any fun e => e.1 < lim && s.storeOut c e.2.1 e.2.2 scope) ||
  (h.stores.any fun x => x.seq < lim && (if x.kind = .store then s.storeCls c h.asid (s.gangOf c h) x.lanes else 0x40) &&& cls &&& 0x41 != 0) ||
  (has 0x40 && (h.loads.any fun x => x.seq < lim && x.kind != .load)) ||
  (s.accs.any fun e => e.2.uid == h.uid && e.2.seq < lim && e.2.kind != .load && e.2.cls &&& cls != 0 && e.2.counts scope) ||
  ((has 0x20 || has 0x10) && co.copyEng.hasChain h.uid lim) ||
  (has 2 && co.gatherEng.hasChain h.uid lim) ||
  (has 8 && hs.any fun x => x.fill.any open_ || (x.state == .nonResident && x.writes.any open_)) ||
  (has 4 && hs.any fun x => x.writes.any open_)

/-- R126: what a barrier waits for: accesses of some lanes on path g and to scratchpads, at block scope. The accesses of a split are those made by
lanes that it holds (log entry 79), and those that no lane made count for each. -/
def State.pendingNear (s : State) (c : Nat) (h : Cohort) (lim : Nat) (m : Mask) : Bool :=
  let mine (x : Mask) : Bool := x == 0 || x &&& m != 0
  (h.loads.any fun x => x.seq < lim && x.path == 0 && mine x.mask) ||
  (h.stores.any fun x => x.seq < lim && mine x.mask && (x.kind != .store || s.storeCls c h.asid (s.gangOf c h) x.lanes &&& 0x40 != 0)) ||
  (h.seen.any fun e => e.1 < lim && s.storeOut c e.2.1 e.2.2 0) ||
  (s.accs.any fun e => e.2.uid == h.uid && e.2.seq < lim && e.2.kind != .load && e.2.cls == 0x40 && mine e.2.mask && e.2.counts 0)

/-- R126, R127, R259: what a releasing instruction waits for has not performed. -/
def State.unreleased (s : State) (c : Nat) (h : Cohort) (lim : Nat) (r : Rel) : Bool :=
  if r.near then s.pendingNear c h lim r.by_
  else if r.by_ = BitVec.allOnes 32 then s.pendingAcc c h lim r.scope r.cls
  else s.pendingAcc c
    { h with
      loads := h.loads.filter fun x => x.mask == 0 || x.mask &&& r.by_ != 0
      stores := h.stores.filter fun x => x.mask == 0 || x.mask &&& r.by_ != 0
      fences := [] } lim r.scope r.cls

/-! Issue. -/

/-- A fault found at issue, by its code (R333), with the subcode and address of the frame. -/
structure Bad where
  code : Nat
  sub : Nat := 0
  addr : Nat := 0
  deriving DecidableEq, Repr

/-- R227: the cohort stops with a cause, and its trap is due. -/
def State.trapWith (s : State) (c k : Nat) (x : Cause) : State :=
  (s.onCohort c k fun h => { h.halt with cause := some x }).pushOnce .trapEntry [c, k]

/-- R69, R137: the issuing cohort stops before the instruction, which will issue again. -/
def State.stopAt (s : State) (w : Who) (b : Bad) : State :=
  s.trapWith w.c w.k { code := b.code, sub := b.sub, pc := w.sp.pc, word := w.word, len := w.len, addr := b.addr }

/-- A load under way has one of the registers named (R79). -/
def LoadOp.holds (x : LoadOp) (u : Uses) : Bool :=
  if x.uniform then u.us.contains x.dst || u.ud.contains x.dst
  else (dataRegs x.dst x.size).any fun r => u.vs.contains r || u.vd.contains r || u.kept.contains r

/-- R155, R156: a fence of the cohort holds back the accesses that an instruction makes. Those that a stopped program left do
not hold its handler. -/
def Fence.holdsBack (f : Fence) (u : Uses) (handler : Bool) : Bool :=
  (f.handler || !handler) && (f.succ &&& u.acc != 0 || (match u.path with
    | some 0 => f.paths / 4 % 2 == 1
    | some 1 => f.paths % 2 == 1
    | some _ => f.paths / 2 % 2 == 1
    | none => false))

/-- R128: the program, or the handler where it runs, waits for its monitor. -/
def Cohort.isParked (h : Cohort) : Bool := if h.handler then h.hparked.isSome else h.parked.isSome

/-- R210: the cohort's splits may issue: it is neither stopped, parked, ending nor on its way out. -/
def Cohort.mayIssue (h : Cohort) : Bool := !h.stopped && !h.isParked && !h.ending && !h.leaving

/-- What holds the instruction back for now (R79, R155, R210, R259, R329): a register that a load will write, a seventeenth
load, a full store queue, a fence, or older accesses that it releases. -/
def State.heldBack (s : State) (w : Who) (u : Uses) : Bool :=
  w.h.loads.any (·.holds u) || (u.load && 16 ≤ w.h.loads.length) || (u.store && 16 ≤ w.h.stores.length) ||
  (u.vs ++ u.vd ++ u.kept).any (fun r => w.h.absent.contains r) ||
  w.h.fences.any (fun f => f.holdsBack u w.h.handler) ||
  u.rel.any (s.unreleased w.c w.h (w.h.seq + 1))

/-- R161: the first handle named that is free or released, as the frame names it. -/
def State.freeHandle (s : State) (w : Who) (u : Uses) : Option Bad :=
  match s.block? w.c w.h.slot with
  | none => none
  | some b =>
    u.hs.findSome? fun n =>
      match (Tbl.at b.handles n {}).state with
      | .free => some { code := 5, sub := n + 64 }
      | .released => some { code := 5, sub := n + 128 }
      | _ => none

/-- The handles that the cohort's block declares (R54). -/
def State.handleCount (s : State) (w : Who) : Nat := (s.block? w.c w.h.slot).elim 0 (·.nHandles)

/-- R69: the fault of highest priority that the instruction has at issue: an odd target is an illegal instruction, with the target in the frame (R50); a
register read with a reserved tag is a tag fault (R33); and `check` gives the instruction's own. -/
def State.issueFault (s : State) (w : Who) (u : Uses) (check : Who → State → Option Bad) : Option Bad :=
  if u.bad w.h.budget (s.handleCount w) then some { code := 2 }
  else if u.odd.isSome then some { code := 2, addr := u.odd.getD 0 }
  else if u.priv && !w.h.handler then some { code := 3 }
  else match s.freeHandle w u with
    | some b => some b
    | none =>
      if u.vs.any (fun r => !Num.goodTag (w.h.vtag r)) || u.us.any (fun r => !Num.goodTag (w.h.utag r)) then some { code := 6 }
      else check w s

/-- R224: the lanes that consume a poisoned operand. -/
def Who.eaten (w : Who) (u : Uses) : Mask :=
  match u.eat with
  | some m => m
  | none =>
    let own := u.vs.foldl (fun a r => a ||| (w.h.vreg r).poison) 0 &&& ~~~w.h.dmask
    let uni := u.us.any fun r => r != 0 && (Tbl.at w.h.q r {}).poison
    if u.whole then (if uni || own != 0 then w.sp.entry else 0)
    else if uni then w.h.writing w.sp u.guard else own &&& w.h.writing w.sp u.guard

/-- The split past the instruction, which now has a place in issue order (R49, R250). -/
def State.advance (s : State) (w : Who) : State :=
  s.onCohort w.c w.k fun h =>
    { h.onSplit w.i (fun sp => { sp with pc := sp.pc + BitVec.ofNat 64 w.len, wait := 0, timer := 0, rewait := false }) with seq := h.seq + 1 }

/-- What stands between a split and its next instruction. -/
inductive Gate where
  /-- it may not issue now -/
  | wait
  /-- it stands at its join address (R113) -/
  | join
  /-- it has a fault at issue -/
  | fault (b : Bad)
  /-- lanes consume poison first (R224) -/
  | poison (m : Mask)
  /-- it issues -/
  | go
  deriving DecidableEq, Repr

/-- R219: the lines that a ready split's instruction names and that are not held are brought in. -/
def State.callLines (s : State) (w : Who) (u : Uses) : State :=
  if w.sp.state != 0 || !w.h.mayIssue then s
  else (w.h.absent.filter fun r => (u.vs ++ u.vd ++ u.kept).contains r).foldl (fun (t : State) r => t.pushOnce .laneLineFill [w.c, w.k, r]) s

/-- What the front end finds before it issues an instruction (R69, R79, R113, R210, R224). -/
def State.gate (s : State) (w : Who) (u : Uses) (check : Who → State → Option Bad) : Gate :=
  if w.sp.state != 0 || !w.h.mayIssue then .wait
  else if w.h.atJoin w.sp then .join
  else if s.heldBack w u then .wait
  else match s.issueFault w u check with
    | some b => .fault b
    | none => if w.eaten u = 0 then .go else .poison (w.eaten u)

/-- The instruction runs, unless it is held: `hold` answers the state in which its split waits. -/
def State.run (s : State) (w : Who) (hold : Who → State → Option State) (body : Who → State → State) : State :=
  match hold w s with
  | some t => t
  | none => body w (s.advance w)

/-- One issue of a core instruction: `u` says what it names, `check` gives its own faults, `hold` says whether its split waits,
and `body` is its effect on the state in which the split has gone past it. -/
def issue (u : Who → State → Uses) (check : Who → State → Option Bad) (hold : Who → State → Option State)
    (body : Who → State → State) (s : State) : Out :=
  match s.who? with
  | none => .fault .noIssuer
  | some w =>
    match s.gate w (u w s) check with
    | .wait => .next (s.callLines w (u w s))
    | .join => .next (s.pushOnce .joinArrive [w.c, w.k, w.i])
    | .fault b => .next (s.stopAt w b)
    | .poison m =>
      let s1 := s.greyLanes w.c w.k m w.sp.pc.toNat
      if (u w s).whole || w.sp.entry &&& ~~~m = 0 then .next s1
      else match s1.who? with
        | none => .next s1
        | some w1 => .next (s1.run w1 hold body)
    | .go => .next (s.run w hold body)

/-- No fault of its own. -/
def noCheck (_ : Who) (_ : State) : Option Bad := none

/-- Never held. -/
def noHold (_ : Who) (_ : State) : Option State := none

/-- A fault of code 6, by R32 or R33, where a test of the cohort's tags says so. -/
def tagCheck (f : Who → Bool) (w : Who) (_ : State) : Option Bad := if f w then some { code := 6 } else none

/-- One issue of an instruction that changes its cohort alone. -/
def issueOwn (u : Uses) (check : Who → State → Option Bad) (f : Who → Cohort → Cohort) (s : State) : Out :=
  issue (fun _ _ => u) check noHold (fun w t => t.onCohort w.c w.k (f w)) s

/-- The split waits with a state code of R327, at its own instruction. -/
def State.waitIn (s : State) (w : Who) (code : Nat) (hold : Hold) : State :=
  s.onCohort w.c w.k fun h => h.onSplit w.i fun sp => { sp with state := code, hold := hold }

/-! The image (R326, R327). -/

/-- R327: a split's entry. State 7 has no code there: the split issues its instruction anew. One that has yet to take up its wait at a barrier again is in
that wait. -/
def splitBytes (sp : Split) : List Byte :=
  leBytes 4 1 ++ leBytes 4 (if sp.state = 4 then sp.timer else 0) ++
    leBytes 4 ((if sp.state = 7 then 0 else if sp.rewait ∧ sp.state = 0 then 2 else sp.state) + 256 * (sp.join.getD 255) + 65536 * sp.dph.toNat + 16777216 * sp.frm.toNat) ++
    leBytes 4 0 ++ leBytes 4 sp.exec.toNat ++ leBytes 4 sp.entry.toNat ++ leBytes 8 sp.pc.toNat

/-- R327: a join record. -/
def joinBytes (j : Join) : List Byte :=
  leBytes 4 (1 + if j.run then 2 ^ 31 else 0) ++ leBytes 4 j.timer ++
    leBytes 4 (j.lead + 256 * (j.parent.getD 255) + 65536 * j.dph.toNat + 16777216 * j.frm.toNat) ++
    leBytes 4 j.mexec.toNat ++ leBytes 4 j.arrived.toNat ++ leBytes 4 j.mask.toNat ++ leBytes 8 j.addr.toNat

/-- Bits [hi:lo] of a number. -/
def bits (x hi lo : Nat) : Nat := x / 2 ^ lo % 2 ^ (hi + 1 - lo)

/-- R327: the split that an entry holds. A split saved in state 2, 3 or 6 issues its instruction anew; `rewait` marks a wait at
a barrier. One in state 5 waits for its load, which the replay entries bring. -/
def readSplit (x : Nat) : Option Split :=
  if x % 2 = 0 then none
  else
    let st := bits x 71 64
    some { pc := BitVec.ofNat 64 (bits x 255 192), entry := BitVec.ofNat 32 (bits x 191 160), exec := BitVec.ofNat 32 (bits x 159 128),
           frm := BitVec.ofNat 4 (bits x 95 88), dph := BitVec.ofNat 5 (bits x 87 80),
           join := if bits x 79 72 = 255 then none else some (bits x 79 72),
           state := if st = 4 ∨ st = 5 then st else 0, timer := if st = 4 then bits x 63 32 else 0, rewait := st == 2
           hold := if st = 5 then .full 0 else .free }

/-- R327: the record that an entry holds. -/
def readJoin (x : Nat) : Option Join :=
  if x % 2 = 0 then none
  else some { addr := BitVec.ofNat 64 (bits x 255 192), mask := BitVec.ofNat 32 (bits x 191 160),
              arrived := BitVec.ofNat 32 (bits x 159 128), mexec := BitVec.ofNat 32 (bits x 127 96), lead := bits x 71 64,
              frm := BitVec.ofNat 4 (bits x 95 88), dph := BitVec.ofNat 5 (bits x 87 80), timer := bits x 63 32, run := bits x 31 31 == 1,
              parent := if bits x 79 72 = 255 then none else some (bits x 79 72)
              from_ := [(BitVec.ofNat 32 (bits x 159 128), BitVec.ofNat 4 (bits x 95 88), BitVec.ofNat 5 (bits x 87 80))] }

/-- R332: a split entry has a reserved bit set or an exec outside its entry. -/
def badEntry (x : Nat) : Bool :=
  x % 2 == 1 && (bits x 31 1 != 0 || bits x 127 96 != 0 || 15 < bits x 95 88 || 31 < bits x 87 80 ||
    (15 < bits x 79 72 && bits x 79 72 != 255) || 6 < bits x 71 64 || (bits x 71 64 != 4 && bits x 63 32 != 0) ||
    bits x 159 128 &&& (bits x 191 160 ^^^ 0xffffffff) != 0)

/-- R332: a join record has a reserved bit set. -/
def badRecord (x : Nat) : Bool :=
  x % 2 == 1 && (bits x 30 1 != 0 || 15 < bits x 95 88 || 31 < bits x 87 80 || (15 < bits x 79 72 && bits x 79 72 != 255) || 32 < bits x 71 64)

/-- Bytes written to an image. -/
def State.putImg (s : State) (a : Nat) (bs : List Byte) : State := s.homeWrite a bs

/-- A table of 32-byte entries written to an image: absent entries are zero. -/
def State.putTable (s : State) (a n : Nat) (f : Nat → Option (List Byte)) : State :=
  (List.range n).foldl (fun t i => t.putImg (a + 32 * i) ((f i).getD (leBytes 32 0))) s

/-- The shadows of a range of memory narrowed, before it is read (R152). -/
def State.settle (s : State) (a n : Nat) : State :=
  (Tbl.keys s.shadows).foldl (fun t l => if l * 128 < a + n && a < l * 128 + 128 then t.narrow l else t) s

/-- A table of 32-byte entries of an image, those that are valid. -/
def State.getTable {α : Type} (s : State) (a n : Nat) (f : Nat → Option α) : Tbl α :=
  (List.range n).filterMap fun i => (f (s.peekN (a + 32 * i) 32)).map fun x => (i, x)

/-- The word of p1 to p7 in an area of the image (R326, R339). -/
def State.putPreds (s : State) (a : Nat) (p : Tbl Mask) : State :=
  (List.range 7).foldl (fun t n => t.putImg (a + 4 + 4 * n) (leBytes 4 (Tbl.at p (n + 1) 0).toNat)) s

/-- p1 to p7 read from an area of the image. -/
def State.getPreds (s : State) (a : Nat) : Tbl Mask :=
  (List.range 7).map fun n => (n + 1, BitVec.ofNat 32 (s.peekN (a + 4 + 4 * n) 4))

/-- Uniform registers from `lo` to q63, with their tag bytes, written to areas of the image. -/
def State.putQs (s : State) (a ta lo : Nat) (h : Cohort) : State :=
  (List.range (64 - lo)).foldl (fun t i =>
    (t.putImg (a + 8 * (lo + i)) (leBytes 8 (h.uq (lo + i)).toNat)).putImg (ta + lo + i) (leBytes 1 (h.utag (lo + i)))) s

/-- Uniform registers from `lo` to q63 read from areas of the image. -/
def State.getQs (s : State) (a ta lo : Nat) (h : Cohort) : Cohort :=
  (List.range (64 - lo)).foldl (fun x i =>
    x.setQ (lo + i) (BitVec.ofNat 64 (s.peekN (a + 8 * (lo + i)) 8)) (s.peekN (ta + lo + i) 1 % 64)) h

/-- R118, R326: the bisque snapshot's area. -/
def State.putBisque (s : State) (img : Nat) (b : Bisque) : State :=
  let s1 := b.regs.foldl (fun (t : State) e => (t.putImg (img + 0x4000 + 128 * e.1) e.2.bytes).putImg (img + 0x6000 + e.1) (leBytes 1 e.2.tag)) s
  (s1.putPreds (img + 0x6040) b.preds).putImg (img + 0x6060) (leBytes 4 b.exec.toNat ++ leBytes 4 b.frm.toNat ++ leBytes 4 b.dph.toNat)

/-- R329 step 3: the splits, the records, the overflow area, p1 to p7 and q60 to q63 written to the image. -/
def State.saveFlow (s : State) (img : Nat) (h : Cohort) : State :=
  let s1 := s.putTable (img + 0x2100) 8 fun i => (h.split? i).map fun sp =>
    splitBytes (if h.parked.any (·.split == i) then { sp with state := 1 } else sp)
  let s2 := s1.putTable (img + 0x2400) 16 fun i => (Tbl.find? h.joins i).map joinBytes
  let s3 := s2.putTable (img + 0x2600) 24 fun i => (h.overflow.reverse[i]?).map splitBytes
  let s4 := (s3.putPreds (img + 0x2080) h.p).putQs (img + 0x2200) (img + 0x2040) 60 h
  match h.bisque with
  | some b => s4.putBisque img b
  | none => s4

/-- R328: the cohort status word. -/
def Cohort.cstat (h : Cohort) : Nat :=
  (if h.refused then 0x80 else 0) + (if h.pending then 0x40 else 0) + (if h.handler then 0x20 else 0) +
    (if h.debug then 0x10 else 0) + (if h.mismatch then 2 else 0) + (if h.greyread then 1 else 0)

/-! Replay entries (R331). -/

/-- What a value-returning memory instruction does with memory, read from its encoding. -/
structure MemShape where
  kind : AccKind
  size : Nat
  dst : Nat := 0
  tag : Nat := 0
  ext : Nat := 0
  path : Nat := 0
  reuse : Nat := 0
  scope : Nat := 0
  full : Nat := 0
  uniform : Bool := false
  load : Bool := true
  deriving DecidableEq, Repr

/-- R149: the tag of the result of an atomic. -/
def atomTag (ty : Nat) : Nat := match ty with | 0 => 3 | 1 => 7 | 2 => 4 | 3 => 8 | _ => 0x11

/-- R141, R142, R146, R149, R130: the access that each memory instruction makes. -/
def shapeOf (i : Instr) : Option MemShape :=
  match i with
  | .ld32 o => some { kind := .load, size := 4, dst := o.d, path := if o.u = 1 then 1 else 0, reuse := o.r, full := o.u - 1 }
  | .ld64 o => some { kind := .load, size := 8, dst := o.d, path := if o.u = 1 then 1 else 0, reuse := o.r, full := o.u - 1 }
  | .ldNarrow o => some { kind := .load, size := if o.u < 2 then 1 else 2, dst := o.d, reuse := o.r, ext := 1 - o.u % 2,
                          tag := match o.u with | 0 => 1 | 1 => 5 | 2 => 2 | _ => 6 }
  | .ldk32 o => some { kind := .load, size := 4, dst := o.d, path := 2, reuse := o.r }
  | .ldk64 o => some { kind := .load, size := 8, dst := o.d, path := 2, reuse := o.r }
  | .qld o => some { kind := .load, size := 8, dst := o.d, reuse := o.r, uniform := true }
  | .atom o => some { kind := .atom o.o o.t, size := typeSize o.t, dst := o.d, tag := atomTag o.t, scope := o.s }
  | .cas o => some { kind := .cas o.t, size := typeSize o.t, dst := o.d, tag := atomTag o.t, scope := o.s }
  | .st o => some { kind := .store, size := 2 ^ o.z, reuse := o.r, load := false }
  | .qst o => some { kind := .store, size := 8, reuse := o.r, uniform := true, load := false }
  | .redm o => some { kind := .redm o.o o.t, size := typeSize o.t, scope := o.s, load := false }
  | .sigd o => some { kind := .sub, size := 8, scope := o.s, uniform := true, load := false }
  | _ => none

/-- The load of a shape: its lanes wait for their translation. -/
def MemShape.toLoad (x : MemShape) (seq word len : Nat) (pc : DWord) (mask : Mask) (lanes : List LaneAcc) (handler : Bool) : LoadOp :=
  { seq := seq, word := word, len := len, pc := pc, kind := x.kind, path := x.path, reuse := x.reuse, scope := x.scope,
    size := x.size, ext := x.ext, tag := x.tag, uniform := x.uniform, dst := x.dst, full := x.full, mask := mask, lanes := lanes,
    stage := 0, got := [], bad := 0, split := none, handler := handler, code := 0, fva := 0 }

/-- The store of a shape. -/
def MemShape.toStore (x : MemShape) (seq word len : Nat) (pc : DWord) (mask : Mask) (lanes : List LaneAcc) (handler : Bool) : StoreOp :=
  { seq := seq, word := word, len := len, pc := pc, kind := x.kind, scope := x.scope, size := x.size, mask := mask, lanes := lanes,
    handler := handler, reuse := x.reuse }

/-- A replay entry (R331), kind as R331 numbers it. -/
structure Replay where
  word : Nat
  len : Nat
  pc : DWord
  seq : Nat
  mask : Mask
  kind : Nat
  faulted : Bool
  code : Nat
  va : Nat
  lanes : List LaneAcc
  deriving DecidableEq, Repr

/-- The operand bytes of a lane in a replay entry: for `CAS` the comparand and then the new value (R331). -/
def operandBytes (cas size : Nat) (a : LaneAcc) : List Byte :=
  if cas = 1 then leBytes size a.x ++ leBytes size a.y else leBytes 16 a.x

/-- The bytes of a replay entry. -/
def Replay.put (r : Replay) (s : State) (a : Nat) : State :=
  let cas := match decodeWord r.word with | .ok (.cas _) => 1 | _ => 0
  let size := match decodeWord r.word with | .ok (.cas o) => typeSize o.t | _ => 8
  let s1 := s.putImg a (leBytes 0x340 0)
  let s2 := s1.putImg a (leBytes 8 (r.len * 2 ^ 32 + r.word) ++ leBytes 8 r.pc.toNat ++ leBytes 8 r.seq ++ leBytes 8 r.mask.toNat ++
    leBytes 8 ((if r.faulted then 64 else 0) + 16 * r.kind + r.code % 16) ++ leBytes 8 r.va)
  r.lanes.foldl (fun t l => (t.putImg (a + 0x40 + 8 * l.lane) (leBytes 8 l.va)).putImg (a + 0x140 + 16 * l.lane) (operandBytes cas size l)) s2

/-- The entry of an unfinished load (R329, R334). -/
def LoadOp.toReplay (x : LoadOp) : Replay :=
  { word := x.word, len := x.len, pc := x.pc, seq := x.seq, mask := x.mask, kind := 0, faulted := x.stage == 3, code := x.code,
    va := x.fva, lanes := x.lanes }

/-- The entry of a store that has not performed (R336). -/
def StoreOp.toReplay (x : StoreOp) (fault : Option Nat) : Replay :=
  { word := x.word, len := x.len, pc := x.pc, seq := x.seq, mask := x.mask, kind := 1, faulted := fault.isSome, code := 5,
    va := fault.getD 0, lanes := x.lanes }

/-- The entry of a tile transfer on handle `n` (R331). -/
def Transfer.toReplay (x : Transfer) (n : Nat) : Replay :=
  { word := x.word, len := 4, pc := x.pc, seq := x.seq, mask := 0, kind := if x.write then 3 else 2, faulted := x.code != 0,
    code := x.code, va := x.fva, lanes := [{ lane := 0, va := x.va, x := n }] }

/-! Taking a trap. -/

/-- The handles of a cohort's block. -/
def State.handlesOf (s : State) (c : Nat) (h : Cohort) : Tbl Handle := (s.block? c h.slot).elim [] (·.handles)

/-- The cohort's tile transfers that a fault holds, with their handles, and the writes from a place in issue order on, where `young` gives
one (R186, R336). -/
def State.heldTransfers (s : State) (c : Nat) (h : Cohort) (young : Option Nat) : List (Nat × Transfer) :=
  (s.handlesOf c h).flatMap fun e =>
    (match e.2.fill with
      | some t => if t.uid = h.uid ∧ t.held then [(e.1, t)] else []
      | none => []) ++ (e.2.writes.filter fun t => t.uid == h.uid && (t.held || young.any fun n => n ≤ t.seq)).map fun t => (e.1, t)

/-- R333: the cause that the frame takes: a late store fault, a late engine fault, a load-class fault, the precise fault. In
handler mode the late ones stay pending (R335, R337). -/
def State.causeOf (s : State) (c : Nat) (h : Cohort) : Option Cause :=
  let late := if h.handler then none else ((sortBy (·.at_) (h.late.filter Cause.isLate)).head?).or h.late.head?
  match late with
  | some x => some x
  | none =>
    match h.loads.find? fun x => x.stage == 3 with
    | some x => some { code := x.code, pc := x.pc, word := x.word, len := x.len, addr := x.fva }
    | none =>
      match (s.heldTransfers c h none).find? fun e => e.2.code != 0 && e.2.code < 20 with
      | some e => some { code := e.2.code, pc := e.2.pc, word := e.2.word, addr := e.2.fva }
      | none => h.cause

/-- R143, R329: a full-empty load whose access has not performed. -/
def State.heldEmpty (s : State) (uid seq : Nat) : Bool :=
  s.accs.any fun e => e.2.uid == uid && e.2.seq == seq && e.2.full != 0 && e.2.stage == 0

/-- R336: the place in issue order of the oldest write of the cohort that has failed late. -/
def Cohort.failedAt (h : Cohort) : Option Nat := ((h.late.filter Cause.isLate).map (·.at_)).min?

/-- A multiply of the cohort has not performed (R329 step 1). Those that wait for an operand whose fill the cohort's own trap holds perform after it. -/
def State.matsOut (s : State) (c : Nat) (h : Cohort) : Bool :=
  let co := s.core c
  co.mats.any (·.uid == h.uid) &&
    !co.mats.any fun m => [m.ha, m.hb].any fun n =>
      ((s.block? c m.slot).elim none fun b => (Tbl.at b.handles n {}).fill).any fun t => t.held && t.uid == h.uid

/-- R329 steps 1 and 2: what the trap waits for: accesses of loads under way but for those that a full bit holds, the stores and the writes of tiles
older than one that has failed, tile reads under way, and multiplies. -/
def State.drained (s : State) (c : Nat) (h : Cohort) : Bool :=
  let older (n : Nat) : Bool := h.failedAt.all fun m => n < m
  !(h.loads.any fun x => x.stage == 1 && !s.heldEmpty h.uid x.seq) && !(h.stores.any fun x => older x.seq) &&
    !((s.handlesOf c h).any fun e =>
      (match e.2.fill with | some t => t.uid == h.uid && !t.held | none => false) ||
        e.2.writes.any fun t => t.uid == h.uid && !t.held && older t.seq) && !s.matsOut c h

/-- R335: the cohort back at its bisque region: the masked registers, predicates, `exec`, `frm` and `dph` as the snapshot has
them, one split at the resume address, and nothing younger than the `BISQ` left. Grey lanes stay grey. -/
def Cohort.rollback (h : Cohort) (b : Bisque) : Cohort :=
  { h with
    v := b.regs.foldl (fun v e => Tbl.put v e.1 e.2) h.v
    dirty := b.regs.foldl (fun d e => insNat d e.1) h.dirty
    late := h.late.filter fun x => !(x.isLate && b.seq < x.at_)
    p := b.preds
    splits := [(0, { pc := b.addr, entry := h.alive, exec := b.exec &&& h.alive, frm := b.frm, dph := b.dph })]
    overflow := [], joins := []
    stores := h.stores.filter fun x => x.seq ≤ b.seq || x.handler
    loads := h.loads.filter fun x => x.seq ≤ b.seq || x.handler }

/-- The transfers of a cohort that a rollback discards: those that have not performed and are younger than the `BISQ` (R335). -/
def State.dropTransfers (s : State) (c : Nat) (h : Cohort) (seq : Nat) : State :=
  s.onBlock c h.slot fun b => { b with handles := Tbl.mapv b.handles fun _ x =>
    { x with
      fill := match x.fill with | some t => if t.uid = h.uid ∧ t.held ∧ seq < t.seq ∧ !t.handler then none else some t | none => none
      writes := x.writes.filter fun t => !(t.uid == h.uid && seq < t.seq && !t.handler) } }

/-- R330: the cause word of the frame. -/
def Cause.word64 (x : Cause) (swap : Bool) : Nat :=
  (if x.rolled then 2 ^ 17 else 0) + (if swap then 2 ^ 16 else 0) + x.sub * 256 + x.code

/-- The chain-resume record (R203, R337). DESIGN CHOICE (log entry 99): a chain of the gather engine has its slot plus 8 in byte 0; the spec does not say how
the engine is told. -/
def Resume.bytes (r : Resume) : List Byte :=
  leBytes 4 (r.slot + r.eng * 8) ++ leBytes 4 r.off ++ leBytes 8 r.progress ++
    (List.range 4).flatMap fun i => leBytes 4 (r.loops.getD i (0, 0)).1 ++ leBytes 4 (r.loops.getD i (0, 0)).2

/-- The entries in issue order; one that was re-injected and has failed again comes first (R332). -/
def sortReplays (first : List Nat) (l : List Replay) : List Replay :=
  let r := sortBy (·.seq) l
  (r.filter fun x => x.faulted && first.contains x.seq) ++ r.filter fun x => !(x.faulted && first.contains x.seq)

/-- R330: the trap frame with its replay entries. -/
def State.putFrame (s : State) (img : Nat) (x : Cause) (swap : Bool) (reps : List Replay) : State :=
  let s1 := s.putImg (img + 0x8000) (leBytes 8 (x.word64 swap) ++ leBytes 8 x.pc.toNat ++ leBytes 8 (x.len * 2 ^ 32 + x.word) ++
    leBytes 8 x.addr ++ leBytes 8 reps.length ++ leBytes 8 (if x.res.isSome then 1 else 0) ++ leBytes 0xd0 0)
  let s2 := reps.zipIdx.foldl (fun t e => e.1.put t (img + 0x8100 + 0x340 * e.2)) s1
  match x.res with
  | some r => s2.putImg (img + 0xe900) (r.bytes ++ leBytes 16 0)
  | none => s2

/-- R119, R333: a software trap or a breakpoint that another cause precedes is not lost: its split issues the instruction again. -/
def Cohort.recur (h : Cohort) (x : Cause) : Cohort :=
  match h.cause with
  | none => h
  | some y => if x = y then h else y.past.elim h fun i => h.onSplit i fun sp => { sp with pc := y.pc }

/-- The places in issue order of the accesses, of those that a frame is to hold, that a handler issued (R335). -/
def handlerSeqs (loads : List LoadOp) (stores : List StoreOp) (tiles : List Transfer) : List Nat :=
  (loads.filter (·.handler)).map (·.seq) ++ (stores.filter (·.handler)).map (·.seq) ++ (tiles.filter (·.handler)).map (·.seq)

/-- R329 steps 1 to 3, R333 to R336: the state that the trap saves: a rollback first where its cause asks for one, then the
image and the frame. The cohort keeps no unfinished work but what the frame holds. The lines of the registers that a rollback copies back are in the cache
then (R219). -/
def State.saveTrap (s0 : State) (c k : Nat) (h0 : Cohort) (x : Cause) (swap : Bool) : State :=
  let s := match h0.bisque with
    | some b => if x.code = 20 then (b.regs.map Prod.fst).foldl (fun (t : State) r => t.fillLine c k r) s0 else s0
    | none => s0
  let h := (s.cohort? c k).getD h0
  let x' : Cause := { x with rolled := x.code == 20 }
  let h1 : Cohort := { h.recur x with late := h.late.erase x, cause := none }
  let h2 : Cohort := match h.bisque with
    | some b => if x.code = 20 then h1.rollback b else h1
    | none => h1
  let s1 := match h.bisque with
    | some b => if x.code = 20 then s.dropTransfers c h b.seq else s
    | none => s
  let stores := h2.stores.map fun y => y.toReplay (if x.code = 21 && !x.tile && y.seq == x.at_ then some x.addr else none)
  let young := if x.code = 21 then some x.at_ else none
  let tiles := (s1.heldTransfers c h young).map fun e => e.2.toReplay e.1
  let again := (h2.loads.filter (·.again)).map (·.seq) ++ (h2.stores.filter (·.again)).map (·.seq) ++
    ((s1.heldTransfers c h young).filter (·.2.again)).map (·.2.seq)
  let reps := (sortReplays again (h2.loads.map LoadOp.toReplay ++ stores ++ tiles)).take 32
  let s2 := s1.onBlock c h.slot fun b => { b with handles := Tbl.mapv b.handles fun _ y =>
    { y with writes := y.writes.map fun t => if t.uid = h.uid ∧ (young.any fun n => n ≤ t.seq) then { t with held := true } else t } }
  let h3 : Cohort := { h2 with
    loads := [], stores := [], byHandler := handlerSeqs h2.loads h2.stores ((s1.heldTransfers c h young).map Prod.snd), late := if x.code = 21 then h2.late.filter fun y => !y.isLate else h2.late }
  let s3 : State := { s2 with accs := s2.accs.filter fun e => !(e.2.uid == h.uid && e.2.full != 0 && e.2.stage == 0) }
  ((((s3.dropFrameReqs c h.uid).setCohort c k h3).settle h.image 0x10000).saveFlow h.image h3).putFrame h.image x' swap reps

/-- R329 step 4: the cohort in its handler: one split of every lane that is neither grey nor exited, q60 and q61 as the rule
says, and p1 to p7, `frm` and `dph` 0. -/
def Cohort.toHandler (h : Cohort) (vec : DWord) (debug : Bool) (causeWord : Nat) : Cohort :=
  (({ h with
      splits := [(0, { pc := vec, entry := h.alive, exec := h.alive })], overflow := [], joins := [], p := []
      handler := true, debug := debug, stopped := false, cause := none, pending := false } : Cohort).setQ 60 (BitVec.ofNat 64 h.image) 0).setQ
    61 (BitVec.ofNat 64 causeWord) 0

/-- R338: the handler that a cause enters: the debug handler for a breakpoint. -/
def State.vectorOf (s : State) (h : Cohort) (x : Cause) : DWord := if x.code = 17 then s.ctx h.asid 0x18 else s.ctx h.asid 0x10

/-- R329, R338: trap entry, once the cohort's issued work has completed: its state and the frame are saved and the handler is
entered. A cohort without a handler, or in its handler already, ends with error 5. -/
def State.enterTrap (s : State) (c k : Nat) : State :=
  match s.cohort? c k with
  | none => s
  | some h =>
    if !h.stopped || h.ending || h.leaving then s
    else if !s.drained c h then (if h.stores.isEmpty then s else s.pushOnce .storeLeaveQueue [c, k])
    else
      match s.causeOf c h with
      | none => s.onCohort c k fun x => { x with stopped := false }
      | some x =>
        if h.handler || s.vectorOf h x = 0 then
          (s.onCohort c k fun y => { y with late := y.late.erase x }).endCohort c k (some (5, x.pc.toNat))
        else
          let word := ({ x with rolled := x.code == 20 } : Cause).word64 false
          (s.saveTrap c k h x false).onCohort c k fun y => y.toHandler (s.vectorOf h x) (x.code == 17) word

/-! The return from a trap (R332). -/

/-- R332 step 1: the frame or the image is refused: lanes in two splits, a grey or exited lane, an exec outside its entry, or a
reserved field that is not zero. -/
def State.refusesTret (s : State) (h : Cohort) : Bool :=
  let img := h.image
  let es := (List.range 8).map (fun i => s.peekN (img + 0x2100 + 32 * i) 32) ++ (List.range 24).map fun i => s.peekN (img + 0x2600 + 32 * i) 32
  let live := es.filter fun x => x % 2 == 1
  let masks := live.map fun x => bits x 191 160
  let two := (masks.foldl (fun (a : Nat × Bool) m => (a.1 ||| m, a.2 || a.1 &&& m != 0)) (0, false)).2
  let n := s.peekN (img + 0x8020) 8
  let rep (i : Nat) : Bool :=
    let a := img + 0x8100 + 0x340 * i
    s.peekN (a + 5) 3 != 0 || s.peekN (a + 0x14) 4 != 0 || s.peekN (a + 0x1c) 4 != 0 || s.peekN (a + 0x21) 7 != 0 || s.peekN (a + 0x30) 16 != 0
  two || live.any badEntry || (List.range 16).any (fun i => badRecord (s.peekN (img + 0x2400 + 32 * i) 32)) || s.peekN (img + 0x2080) 4 != 0 ||
    s.peekN (img + 0x20a4) 4 / 256 != 0 || s.peekN (img + 0x20a4) 4 / 4 % 4 != 0 || s.peekN (img + 0x20b4) 12 != 0 ||
    masks.any (fun m => m &&& ((h.dmask ||| h.exited).toNat) != 0) ||
    s.peekN (img + 0x8000) 8 / 2 ^ 18 != 0 || s.peekN (img + 0x8015) 3 != 0 || 32 < n || s.peekN (img + 0x8028) 8 / 2 != 0 ||
    s.peekN (img + 0x8030) 0xd0 != 0 || (List.range n).any rep

/-- A replay entry as it stands in a frame, unless it is to be skipped (R331). -/
def State.getReplay (s : State) (a : Nat) : Replay × Bool :=
  let w := s.peekN a 4
  let len := s.peekN (a + 4) 1
  let ctl := s.peekN (a + 0x20) 8
  let cas := match decodeWord w with | .ok (.cas o) => typeSize o.t | _ => 0
  let mask := BitVec.ofNat 32 (s.peekN (a + 0x18) 4)
  let uniform := match decodeWord w with | .ok i => (shapeOf i).elim true (·.uniform) | .error _ => true
  let ls := if uniform then [0] else lanesOf mask
  let lanes := ls.map fun l =>
    { lane := l, va := s.peekN (a + 0x40 + 8 * l) 8, x := s.peekN (a + 0x140 + 16 * l) (if cas = 0 then 8 else cas),
      y := if cas = 0 then 0 else s.peekN (a + 0x140 + 16 * l + cas) cas : LaneAcc }
  ({ word := w, len := len, pc := BitVec.ofNat 64 (s.peekN (a + 8) 8), seq := s.peekN (a + 0x10) 4, mask := mask,
     kind := ctl / 16 % 4, faulted := bits ctl 6 6 == 1, code := ctl % 16, va := s.peekN (a + 0x28) 8, lanes := lanes }, bits ctl 7 7 == 1)

/-- R331: a tile transfer's own handle changed by its entry: started again with the entry's address, or marked as done (code
255) where the handler has emulated it. -/
def Handle.reinject (x : Handle) (r : Replay) (uid va : Nat) (skip : Bool) : Handle :=
  let again (t : Transfer) : Transfer :=
    if t.uid = uid ∧ t.held ∧ t.seq = r.seq then { t with held := false, code := if skip then 255 else 0, va := va, again := true } else t
  if r.kind = 2 then { x with fill := x.fill.map again } else { x with writes := x.writes.map again }

/-- R332 step 2: one entry re-injected: a load or a store goes back to its list with its place in issue order, and a tile
transfer starts again. An entry with skip is done; a split that waits for such a full-empty load goes on. -/
def State.reinject (s : State) (c k : Nat) (r : Replay) (skip : Bool) : State :=
  match s.cohort? c k with
  | none => s
  | some h =>
    if 2 ≤ r.kind then
      let a := r.lanes.headD { lane := 0, va := 0 }
      let n := a.x % 256
      let s1 := s.onBlock c h.slot fun b => { b with handles := Tbl.adj b.handles n fun x => x.reinject r h.uid a.va skip }
      s1.pushOnce (if r.kind = 2 then .fillEnd else .tileWriteComplete) [c, h.slot, n]
    else
      match decodeWord r.word with
      | .error _ => s
      | .ok i =>
        match shapeOf i with
        | none => s
        | some x =>
          let held := List.find? (fun (e : Nat × Split) =>
            e.2.hold == .full 0 && e.2.pc == r.pc && x.full != 0 && r.mask &&& ~~~e.2.entry == 0) h.splits
          if skip then s.setCohort c k (held.elim h fun e => h.onSplit e.1 Split.pass)
          else if x.load then
            let op := { x.toLoad r.seq r.word r.len r.pc r.mask r.lanes (h.byHandler.contains r.seq) with split := held.map Prod.fst, again := true }
            let h1 := match held with
              | some e => h.onSplit e.1 fun sp => { sp with state := 5, hold := .full r.seq }
              | none => h
            (s.setCohort c k { h1 with loads := h1.loads ++ [op] }).pushOnce .translationWalkComplete
              [c, h.asid, (r.lanes.headD { lane := 0, va := 0 }).va / 4096]
          else
            (s.setCohort c k { h with stores := h.stores ++ [{ x.toStore r.seq r.word r.len r.pc r.mask r.lanes (h.byHandler.contains r.seq) with again := true }] }).pushOnce
              .storeLeaveQueue [c, k]

/-- A split whose load no entry has brought issues its instruction anew. -/
def Cohort.unheld (h : Cohort) : Cohort :=
  { h with splits := Tbl.mapv h.splits fun _ sp => if sp.hold = .full 0 then sp.retry else sp }

/-- R331: the accesses that the frame of a cohort in its handler, or out, keeps from before a place in issue order. -/
def State.frameEntries (s : State) (h : Cohort) (lim : Nat) : List Replay :=
  (((List.range (min 32 (s.peekN (h.image + 0x8020) 8))).map fun i => s.getReplay (h.image + 0x8100 + 0x340 * i)).filter fun r =>
    r.1.seq < lim && !r.2).map Prod.fst

/-- R155, R268: a load or a store that the frame keeps for the return from the trap, older than `lim` and of a class in `cls`, has not performed. -/
def State.keptAcc (s : State) (c : Nat) (h : Cohort) (lim cls : Nat) : Bool :=
  h.handler && (s.frameEntries h lim).any fun r =>
    match r.kind, decodeWord r.word with
    | 0, .ok i => ((shapeOf i).elim 0x80 fun x => if x.kind = .load then 0x80 else 0xc0) &&& cls != 0
    | 1, .ok i => ((shapeOf i).elim 0x40 fun x => if x.kind = .store then s.storeCls c h.asid (s.gangOf c h) r.lanes else 0x40) &&& cls != 0
    | _, _ => false

/-- R332 step 2: every entry of a frame re-injected in order. -/
def State.reinjectAll (s : State) (c k img : Nat) : State :=
  let rs := (List.range (s.peekN (img + 0x8020) 8 % 64)).map fun i => s.getReplay (img + 0x8100 + 0x340 * i)
  let ordered := sortBy (fun (e : Replay × Bool) => e.1.seq) rs
  (ordered.foldl (fun t r => t.reinject c k r.1 r.2) s).onCohort c k Cohort.unheld

/-- R135, R332 step 3: the splits, records and overflow area as the image has them; joins that lanes have completed since by greying or exit merge (R115). A
split in state 6 whose launch record still waits goes on waiting for it. -/
def State.loadFlow (s : State) (h : Cohort) : Cohort :=
  let img := h.image
  let spawn (i : Nat) : Option Nat := (List.find? (fun (e : Nat × Submission) => match e.2.src with
    | .spawn _ u j _ => u == h.uid && j == i
    | _ => false) s.waiting).map Prod.fst
  let fix (i : Nat) (x : Nat) : Option Split := (readSplit x).map fun sp =>
    match bits x 71 64, spawn i with
    | 6, some id => { sp with state := 6, hold := .launch id }
    | _, _ => sp
  ({ h with
    splits := (List.range 8).filterMap fun i => (fix i (s.peekN (img + 0x2100 + 32 * i) 32)).map fun sp => (i, sp)
    joins := s.getTable (img + 0x2400) 16 readJoin
    overflow := ((List.range 24).filterMap fun i => readSplit (s.peekN (img + 0x2600 + 32 * i) 32)).reverse
    p := s.getPreds (img + 0x2080) } : Cohort).settleJoins (List.range 16)

/-- R128: status 1 in the active lanes of the split that waits. -/
def Cohort.answered (h : Cohort) (p : Parked) : Cohort :=
  h.setPred p.pred (match h.split? p.split with | some sp => h.active sp | none => 0) (BitVec.allOnes 32)

/-- R128, R343: a monitor's answer reaches the parked program. -/
def Cohort.wakeUp (h : Cohort) : Cohort :=
  match h.parked with
  | none => h
  | some p => { h.answered p with parked := none, wake := 0 }

/-- R128: a monitor's answer reaches the parked handler. -/
def Cohort.wakeHandler (h : Cohort) : Cohort :=
  match h.hparked with
  | none => h
  | some p => { h.answered p with hparked := none, wake := h.wake &&& 2 }

/-- R128: the order that a status of 1 gives: as `FENCE.dev` with predecessor {R} and successor {R, W}. -/
def State.acquireDev (s : State) (c k : Nat) : State := (s.onCohort c k fun h => h.order 2 0x80 0xc0).pushOnce .fenceComplete [c, k]

/-- R337: the chain that a record names goes on from it. -/
def Engine.resumeAt (e : Engine) (slot off progress : Nat) (loops : List (Nat × Nat)) : Engine :=
  { e with chains := Tbl.adj e.chains slot fun x =>
      { x with off := off, progress := progress, faulted := false
               loops := x.loops.zipIdx.map fun l => match loops[l.2]? with | some p => (p.1, p.2, l.1.2.2) | none => l.1 } }

/-- DESIGN CHOICE (log entry 44). The faulted chains of a cohort whose frame has no valid chain-resume record end, but for those whose
fault it has yet to take. -/
def State.giveUpChains (s : State) (c : Nat) (h : Cohort) : State :=
  [(0, (s.core c).copyEng), (1, (s.core c).gatherEng)].foldl (fun (t : State) e =>
    (List.filter (fun (x : Nat × Chain) => x.2.uid == h.uid && x.2.faulted &&
        !h.late.any (fun y => y.res.any fun r => r.eng == e.1 && r.slot == x.1) &&
        !s.agenda.any (fun d => d.row == .lateEngineFault && d.ops.take 3 == [c, e.1, x.1])) e.2.chains).foldl (fun (u : State) x =>
      let f (y : Engine) : Engine := { y with chains := Tbl.adj y.chains x.1 fun z => { z with state := 2 } }
      (u.onCore c fun co => if e.1 = 0 then { co with copyEng := f co.copyEng } else { co with gatherEng := f co.gatherEng }).push
        .engineEntryReach [c, e.1, x.1]) t) s

/-- R332, R337: the chain-resume record of the frame taken up, if it is valid. -/
def State.resumeChain (s : State) (c : Nat) (h : Cohort) : State :=
  let img := h.image
  if s.peekN (img + 0x8028) 8 % 2 = 0 then s.giveUpChains c h
  else
    let a := img + 0xe900
    let b := s.peekN a 1
    let loops := (List.range 4).map fun i => (s.peekN (a + 16 + 8 * i) 4, s.peekN (a + 20 + 8 * i) 4)
    let f (e : Engine) : Engine := e.resumeAt (b % 8) (s.peekN (a + 4) 4) (s.peekN (a + 8) 8) loops
    (s.onCore c fun co => if b / 8 = 0 then { co with copyEng := f co.copyEng } else { co with gatherEng := f co.gatherEng }).push
      .engineEntryReach [c, b / 8, b % 8]

/-- R332: the return from a trap whose frame is accepted: the saved state is reloaded, the entries are re-injected, the chain
resumes, and what stayed pending traps at once (R333, R335, R343). -/
def State.leaveTrap (s : State) (c k : Nat) (h : Cohort) : State :=
  let h1 := s.getQs (h.image + 0x2200) (h.image + 0x2040) 60 (s.loadFlow h)
  let h2 : Cohort := { h1 with handler := false, debug := false, refused := false, stopped := h.late != [] }
  let s1 := if h.wake.getLsbD 1 && h.parked.isSome then (s.setCohort c k h2.wakeUp).acquireDev c k else s.setCohort c k h2
  let s2 := (s1.reinjectAll c k h.image).resumeChain c h
  if h.late = [] then s2 else s2.pushOnce .trapEntry [c, k]

end Sys2Proof.Machine
end

