-- ==== Sys2Proof/Machine/Bounds.lean ====
section
/-! DEFINITION. The bound registers of a context (R345, R399) and the checks that they make on writes (R159, R400, R401). -/

namespace Sys2Proof.Machine

open Sys2Proof

/-- Bound register `n` of a context (R345). -/
def State.boundReg (s : State) (asid n : Nat) : BoundReg := Tbl.at s.bounds (asid * 32 + n) {}

/-- Bound register `n` of a context put in place. -/
def State.setBound (s : State) (asid n : Nat) (r : BoundReg) : State := { s with bounds := Tbl.put s.bounds (asid * 32 + n) r }

/-- R399: the register checks writes. -/
def BoundReg.armed (r : BoundReg) : Bool := r.d0.getLsbD 63

/-- R399: the action: 0 flag, 1 clamp, 2 trap. -/
def BoundReg.action (r : BoundReg) : Nat := bitsAt r.d0 59 58

/-- R399: the element format. -/
def BoundReg.fmt (r : BoundReg) : Nat := bitsAt r.d0 57 52

/-- R399: the first byte of the range. -/
def BoundReg.start (r : BoundReg) : Nat := bitsAt r.d1 56 0

/-- R399: the first byte past the range. -/
def BoundReg.stop (r : BoundReg) : Nat := bitsAt r.d2 56 0

/-- R399: the tag that a bound's word has: fp32, i32 or n32 by the format. -/
def BoundReg.limTag (r : BoundReg) : Nat :=
  match Num.intOf r.fmt with
  | some (_, true) => 3
  | some (_, false) => 7
  | none => 0x11

/-- R399: the lower bound. -/
def BoundReg.lo (r : BoundReg) : Num.FVal := Num.valueOf r.limTag 0 (bitsAt r.d3 31 0)

/-- R399: the upper bound. -/
def BoundReg.hi (r : BoundReg) : Num.FVal := Num.valueOf r.limTag 0 (bitsAt r.d3 63 32)

/-- R399: an armed descriptor that means nothing. -/
def BoundReg.invalid (r : BoundReg) : Bool :=
  bitsAt r.d0 62 60 != 0 || bitsAt r.d0 51 32 != 0 || r.action == 3 || bitsAt r.d1 63 57 != 0 || bitsAt r.d2 63 57 != 0 ||
    r.fmt == 0 || !Num.goodTag r.fmt || r.stop ≤ r.start || Num.less r.hi r.lo || r.lo == .nan || r.hi == .nan ||
    ((Num.sxOf r.fmt).isSome && r.action == 1)

/-- R399: a descriptor as it loads: an invalid armed one is disarmed. -/
def BoundReg.loaded (r : BoundReg) : BoundReg := if r.armed && r.invalid then { r with d0 := r.d0 &&& 0x7fffffffffffffff } else r

/-- R400: the bytes of an element that a write of plain elements can match; none for shared-exponent formats. -/
def BoundReg.elemSize (r : BoundReg) : Option Nat := if (Num.sxOf r.fmt).isSome then none else some (Num.bitsOf r.fmt / 8)

/-- R400: a value is out of bounds. -/
def BoundReg.outside (r : BoundReg) (v : Num.FVal) : Bool := v == .nan || Num.less v r.lo || Num.less r.hi v

/-- R400: a written element of `n` bytes fails. -/
def BoundReg.fails (r : BoundReg) (n b : Nat) : Bool := r.elemSize != some n || r.outside (Num.valueOf r.fmt 0 b)

/-- R400: what a failing element of matching size is written as under clamp. -/
def BoundReg.clamp (r : BoundReg) (b : Nat) : Nat :=
  if Num.less r.hi (Num.valueOf r.fmt 0 b) then Num.convert r.limTag 0 r.fmt true 2 0 0 (bitsAt r.d3 63 32)
  else Num.convert r.limTag 0 r.fmt true 3 0 0 (bitsAt r.d3 31 0)

/-- The armed registers of a context whose range holds a byte of a write, by number (R159). -/
def State.boundsOn (s : State) (asid a n : Nat) : List (Nat × BoundReg) :=
  (List.range 32).filterMap fun i =>
    let r := s.boundReg asid i
    if r.armed && r.start < a + n && a < r.stop then some (i, r) else none

/-- What the checks of one write find: the value to be written, the registers that fail, and whether one of them traps. -/
structure Checked where
  val : Nat
  failed : BitVec 32 := 0
  trap : Bool := false
  deriving DecidableEq, Repr

/-- R159: the checks of one written value of `n` bytes. -/
def checkWrite (rs : List (Nat × BoundReg)) (n b : Nat) : Checked :=
  let bad := rs.filter fun e => e.2.fails n b
  { val := match bad.find? fun e => e.2.action == 1 with
      | some e => if e.2.elemSize = some n then e.2.clamp b % 256 ^ n else b
      | none => b
    failed := bad.foldl (fun m e => m ||| (1#32 <<< e.1)) 0
    trap := bad.any fun e => e.2.action == 2 }

/-- R64, R159: the failing registers set their bits in the cohort's `bstat`. -/
def State.setBstat (s : State) (c k : Nat) (m : BitVec 32) : State :=
  if m = 0 then s else s.onCohort c k fun h => { h with bstat := h.bstat ||| m }

/-- R159: the checks of a lane's written value, which is `y` for `CAS` and `x` otherwise. -/
def State.checkLane (s : State) (asid size : Nat) (cas : Bool) (a : LaneAcc) : Checked :=
  checkWrite (s.boundsOn asid a.va size) size ((if cas then a.y else a.x) % 256 ^ size)

/-- R159: the lanes of a write with clamped values. -/
def State.clampLanes (s : State) (asid size : Nat) (cas : Bool) (ls : List LaneAcc) : List LaneAcc :=
  ls.map fun a => if cas then { a with y := (s.checkLane asid size cas a).val } else { a with x := (s.checkLane asid size cas a).val }

/-- R159: the registers that the lanes of a write fail. -/
def State.failedBounds (s : State) (asid size : Nat) (cas : Bool) (ls : List LaneAcc) : BitVec 32 :=
  ls.foldl (fun m a => m ||| (s.checkLane asid size cas a).failed) 0

/-- R159: the lane whose write traps. DESIGN CHOICE (log entry 77): where several lanes fail, the frame has the address of the lowest; the spec names none. -/
def State.boundTrap (s : State) (asid size : Nat) (cas : Bool) (ls : List LaneAcc) : Option LaneAcc :=
  ls.find? fun a => (s.checkLane asid size cas a).trap

end Sys2Proof.Machine
end

