-- ==== Sys2Proof/Machine/Arbiter.lean ====
section
/-! DEFINITION. The firing schedule (R286 to R288): grants counted against the budget of an activity at an arbiter. -/

namespace Sys2Proof.Machine

open Sys2Proof

/-- Where the count of grants of an activity at an arbiter is kept. -/
def fsCountKey (cls ix act : Nat) : Nat := (cls * 64 + ix) * 8 + act

/-- Where the budget in force of an activity at the arbiters of a class is kept. -/
def fsBudgetKey (cls act : Nat) : Nat := 0x10000 + cls * 8 + act

/-- Where the boot value of refresh's budget at a class is kept. -/
def fsBootKey (cls : Nat) : Nat := 0x20000 + cls

/-- R287: the offset of a budget register. -/
def fsOffset (cls act : Nat) : Nat := 0x1000 + 0x40 * cls + 8 * act

/-- R287: the ceiling of a budget. -/
def fsCeiling (b : Nat) : Nat := b % 2 ^ 17

/-- R287: the floor of a budget. -/
def fsFloor (b : Nat) : Nat := b / 2 ^ 32 % 2 ^ 17

/-- The budget in force. -/
def State.fsBudget (s : State) (cls act : Nat) : Nat := Tbl.at s.fs (fsBudgetKey cls act) 0x10000

/-- R286: the activity has not reached its ceiling at an arbiter in this period. -/
def State.fsOpen (s : State) (cls ix act : Nat) : Bool := Tbl.at s.fs (fsCountKey cls ix act) 0 < fsCeiling (s.fsBudget cls act)

/-- R286, R287: one grant counted; the one that reaches the ceiling sets the activity's bit of `FSSTAT`. -/
def State.fsGrant (s : State) (cls ix act : Nat) : State :=
  let n := Tbl.at s.fs (fsCountKey cls ix act) 0 + 1
  let s1 : State := { s with fs := Tbl.put s.fs (fsCountKey cls ix act) n }
  if fsCeiling (s.fsBudget cls act) ≤ n then s1.setHub 0x1100 (s1.hubReg 0x1100 ||| BitVec.ofNat 64 (2 ^ (8 * cls + act))) else s1

/-- R13, R286: the column link from a compute router to a row of slice routers, numbered over the package. -/
def columnLink (src dst : Nat) : Nat := src % 8 * 8 + src / 8 % 2 * 4 + (dst / 8 - 2) % 4

/-- R286: the controller channel of a line, as class and number: counted by home slice for near memory (log entry 31). -/
def ctlArbiter (line : Nat) : Nat × Nat := if line * 128 < nearEnd then (1, homeOf (line * 128)) else (2, farChannel line)

/-- R286: the arbiters that a line of near or far memory passes, as class and number: its home slice, the column link from the compute router where the
request starts, and, where the slice does not hold the line, the channel of its controller (log entry 31). -/
def State.fsPath (s : State) (src : Option Nat) (line : Nat) : List (Nat × Nat) :=
  let n := homeOf (line * 128)
  [(0, n)] ++ (match src with | some r => [(3, columnLink r (sliceRouter n))] | none => []) ++
    (if (s.slice n).holds line then [] else [ctlArbiter line])

/-- R286: the activity that a row which is due asks for, and the arbiters that it passes. -/
def State.fsAsks (s : State) (d : Due) : Option (Nat × List (Nat × Nat)) :=
  match d.row with
  | .scrubLine => some (1, [ctlArbiter (d.ops.headD 0)])
  | .hostRead => some (6, (linesOf ((List.range (d.ops.getD 2 0)).map (d.ops.getD 1 0 + ·))).flatMap (s.fsPath none))
  | .hostWrite => some (6, (linesOf ((List.range (d.ops.getD 2 0)).map (d.ops.getD 1 0 + ·))).flatMap (s.fsPath none))
  | .scanTest => some (2, (linesOf ((linesIn (s.scan.package + 0x100) (s.peekN (s.scan.package + 0x18) 8)).map (· * 128))).flatMap (s.fsPath none))
  | .awContribution => (Tbl.find? s.accs (d.ops.headD 0)).map fun a => (5, [(3, columnLink (coreRouter a.core) (unitRouter 1))])
  | .sliceAccess => (Tbl.find? s.accs (d.ops.headD 0)).bind fun a =>
      if a.chain = 0 then none else some (4, (linesOf (a.lanes.map (·.pa))).flatMap (s.fsPath none))
  | _ => none

/-- R286: an activity takes priority at an arbiter: what is left of its floor fills the cycles that are left of the period. -/
def State.fsUrgent (s : State) (act : Nat) (p : Nat × Nat) : Bool :=
  s.fsOpen p.1 p.2 act && 65536 - s.net.hubClock % 65536 + Tbl.at s.fs (fsCountKey p.1 p.2 act) 0 ≤ fsFloor (s.fsBudget p.1 act)

/-- R286: traffic yields at an arbiter to an activity with requests that takes priority. `act` is its own activity, or 8 for none. -/
def State.fsYields (s : State) (act : Nat) (path : List (Nat × Nat)) : Bool :=
  let asks := (s.agenda ++ s.hostWait.take 1).filterMap s.fsAsks
  path.any fun p => !(s.fsUrgent act p) && asks.any fun x => x.1 != act && x.2.contains p && s.fsUrgent x.1 p

/-- R286: a grant at every arbiter of a path; none where the activity waits, since it has reached its ceiling at one of them or yields to another there. -/
def State.fsPass (s : State) (act : Nat) (path : List (Nat × Nat)) : Option State :=
  if (path.all fun p => s.fsOpen p.1 p.2 act) && !s.fsYields act path then some (path.foldl (fun (t : State) p => t.fsGrant p.1 p.2 act) s) else none

/-- R286: the grants for the lines of near and far memory that some addresses touch, requested at a compute router or at the hub. The lines of one
request are granted together (log entry 31). -/
def State.fsLines (s : State) (act : Nat) (src : Option Nat) (pas : List Nat) : Option State := s.fsPass act ((linesOf pas).flatMap (s.fsPath src))

/-- R286: the grants of an entry of a chain at the column links; those at slices and controllers follow where its accesses arrive. -/
def State.fsLinks (s : State) (act router : Nat) (pas : List Nat) : Option State :=
  s.fsPass act ((linesOf pas).map fun line => (3, columnLink router (sliceRouter (homeOf (line * 128)))))

/-- R288: the write of a budget is refused: floors of the class that sum to more than 65,536, a floor above its ceiling, a value out of
range, or a budget of refresh below its boot floor. -/
def State.fsRefuses (s : State) (cls act v : Nat) : Bool :=
  let floors := (List.range 8).foldl (fun n a => n + if a = act then fsFloor v else fsFloor (s.hubReg (fsOffset cls a)).toNat) 0
  65536 < floors || fsCeiling v < fsFloor v || 65536 < fsCeiling v ||
    (act == 0 && (fsFloor v < Tbl.at s.fs (fsBootKey cls) 0 || fsCeiling v < Tbl.at s.fs (fsBootKey cls) 0))

/-- FSBUD_WRITE (R287, R288): a budget written, for the next period on, or the write refused and recorded in `FSSTAT`. -/
def execFsbudWrite (s : State) : Out :=
  let cls := s.arg 0
  let act := s.arg 1
  let v := s.arg 2
  if 4 ≤ cls ∨ 8 ≤ act then .next s
  else if s.fsRefuses cls act v then .next (s.setHub 0x1100 (s.hubReg 0x1100 ||| BitVec.ofNat 64 (2 ^ 63)))
  else .next (s.setHub (fsOffset cls act) (BitVec.ofNat 64 (fsFloor v * 2 ^ 32 + fsCeiling v)))

/-- FS_PERIOD_START (R286, R287): the arbiters of a class start a period: their counts are 0, and the budgets written are in force. -/
def execFsPeriodStart (s : State) : Out :=
  let cls := s.arg 0
  if 4 ≤ cls then .next s
  else
    let fs1 := List.filter (fun (e : Nat × Nat) => e.1 < fsCountKey cls 0 0 || fsCountKey (cls + 1) 0 0 ≤ e.1) s.fs
    .next { s with fs := (List.range 8).foldl (fun (t : Tbl Nat) a => Tbl.put t (fsBudgetKey cls a) (s.hubReg (fsOffset cls a)).toNat) fs1 }

end Sys2Proof.Machine
end

