-- ==== Sys2Proof/Machine/Collective.lean ====
section
/-! DEFINITION. Collective windows and combine ports (R348 to R358, R363, R366, R370): contributions, inputs, rounds, spills, halts, and the
rows of windows. -/

namespace Sys2Proof.Machine

open Sys2Proof

/-! Windows (R349). -/

/-- The window's mode: 0 off, 1 reduce, 2 multicast, 3 gather. -/
def State.awMode (s : State) (w : Nat) : Nat := bitsAt (s.aw w 0) 26 24

/-- The window's element type. -/
def State.awType (s : State) (w : Nat) : Nat := bitsAt (s.aw w 0) 23 18

/-- The window's operation. -/
def State.awOp (s : State) (w : Nat) : Nat := bitsAt (s.aw w 0) 17 15

/-- The window's output type. -/
def State.awOtype (s : State) (w : Nat) : Nat := bitsAt (s.aw w 0) 11 6

/-- The window's port. -/
def State.awPort (s : State) (w : Nat) : Nat := bitsAt (s.aw w 0) 31 27

/-- The window's collective. -/
def State.awColl (s : State) (w : Nat) : Nat := bitsAt (s.aw w 0) 63 48

/-- Segments in a bucket. -/
def State.awNseg (s : State) (w : Nat) : Nat := bitsAt (s.aw w 8) 8 0

/-- The window has halted (R366). -/
def State.awHalted (s : State) (w : Nat) : Bool := (s.aw w 0x38).getLsbD 63

/-- A field of `AWSTAT` that counts, one more, wrapping. -/
def State.awCount (s : State) (w hi lo : Nat) : State :=
  let x := s.aw w 0x38
  let n := bitsAt x hi lo
  let m := (n + 1) % 2 ^ (hi + 1 - lo)
  s.setHub (0x200000 + 64 * w + 0x38) (BitVec.ofNat 64 (x.toNat - n * 2 ^ lo + m * 2 ^ lo))

/-! Elements of a segment (R351). -/

/-- The elements of a segment in its 256 bytes. -/
def segElems (ty : Nat) : Nat := if ty = 0x13 then 128 else if (Num.sxOf ty).isSome then 224 else 64

/-- The bytes of an output segment (R351). -/
def outSize (ty oty : Nat) : Nat := if (Num.sxOf oty).isSome then 256 else if oty = 0x13 then 2 * segElems ty else if oty = 0x11 then 4 * segElems ty else 256

/-- The first byte and the length of the bytes that hold element `e` of a payload of a type. -/
def elemPlace (ty e : Nat) : Nat × Nat :=
  match Num.sxOf ty with
  | some m =>
    let lo := 4 * m * (e / 32) + m * (e % 32) / 8
    (lo, 4 * m * (e / 32) + (m * (e % 32) + m - 1) / 8 - lo + 1)
  | none => if ty = 0x13 then (2 * e, 2) else (4 * e, 4)

/-- The bits of element `e`. -/
def elemBitsAt (ty : Nat) (data : List Byte) (e : Nat) : Nat :=
  match Num.sxOf ty with
  | some m => leNat ((data.drop (4 * m * (e / 32))).take (4 * m)) / 2 ^ (m * (e % 32)) % 2 ^ m
  | none => leNat ((data.drop (elemPlace ty e).1).take (elemPlace ty e).2)

/-- R357: an element widened: exactly to FP32, or one of 32 bits as it stands. -/
def widenElem (ty : Nat) (data : List Byte) (e : Nat) : Word :=
  if ty = 3 ∨ ty = 7 ∨ ty = 0x11 then BitVec.ofNat 32 (elemBitsAt ty data e)
  else BitVec.ofNat 32 (Num.pack .fp32 0 false 0 0 (Num.valueOf ty ((data.getD (248 + e / 32) 0).toNat) (elemBitsAt ty data e)))

/-- The elements whose bytes touch a poisoned granule of the payload (R397). -/
def badElems (ty : Nat) (bad : List Nat) : List Nat :=
  if bad = [] then [] else (List.range (segElems ty)).filter fun e =>
    bad.any fun g => (elemPlace ty e).1 < 16 * g + 16 && 16 * g < (elemPlace ty e).1 + (elemPlace ty e).2

/-- R351, R353: the bytes of a segment's 256 that have to be written: all, but for shared-exponent types the planes. -/
def dataBytes (mode ty : Nat) : List Nat :=
  match Num.sxOf ty with
  | some m => if mode = 1 then List.range (28 * m) ++ (List.range 7).map (248 + ·) else List.range 256
  | none => List.range 256

/-! Buckets and slots (R354, R356, R363). -/

/-- A bucket as it stands; one not yet touched is in round 0. -/
def State.bucket (s : State) (w tag : Nat) : Bucket := (s.ul.buckets.find? fun b => b.win == w && b.tag == tag).getD { win := w, tag := tag }

/-- The engine changed. -/
def State.onUl (s : State) (f : Uliah → Uliah) : State := { s with ul := f s.ul }

/-- A bucket put in place. -/
def State.setBucket (s : State) (b : Bucket) : State :=
  s.onUl fun u => { u with buckets := b :: u.buckets.filter fun x => !(x.win == b.win && x.tag == b.tag) }

/-- The input slots of a port that are in use: by segments being assembled and by inputs, but for those in the spill area. -/
def State.slotsUsed (s : State) (p : Nat) : Nat :=
  (s.ul.parts.filter fun x => s.awPort x.win == p && x.spilled.isNone).length +
    (List.filter (fun (e : Nat × Segment) => s.awPort e.2.win == p && e.2.spilled.isNone) s.ul.inputs).length

/-! Port traffic to memory (R286, R365, R369). -/

/-- R276 to R278, R286: reads and writes of a port at the home slices of some addresses go on; none where a slice has no room for one, or collective traffic
has used up its budget. -/
def State.portPass (s : State) (reads writes : List Nat) : Option State :=
  if (linesOf reads).all s.readReady && (linesOf writes).all s.writeReady then s.fsLines 5 none (reads ++ writes) else none

/-- The addresses of the granules of `n` bytes. -/
def spanOf (pa n : Nat) : List Nat := if n = 0 then [] else (List.range ((pa + n - 1) / 16 + 1 - pa / 16)).map fun i => (pa / 16 + i) * 16

/-- Bytes of a port written at their home slices, with the poison of some of their granules (R397). -/
def State.portWrite (s : State) (pa : Nat) (bs : List Byte) (bad : List Nat) : State :=
  let s1 := (List.range ((bs.length + 15) / 16)).foldl (fun (t : State) i => t.homeWrite (pa + 16 * i) ((bs.drop (16 * i)).take 16)) s
  bad.foldl (fun (t : State) g => t.taint (pa + 16 * g) 16) s1

/-- Bytes read by a port at their home slices, and those of their granules that are poisoned. -/
def State.portRead (s : State) (pa n : Nat) : List Byte × List Nat × State :=
  let t := (spanOf pa n).foldl (fun (t : State) a => (t.homeRead a 16 0).2) s
  (t.peekBytes pa n, (List.range ((n + 15) / 16)).filter fun g => t.poisoned (pa + 16 * g) 16, t)

/-! Spilling (R363). DESIGN CHOICE (log entry 33): the spec gives the spill area no layout; it is an array of places of 4,352 bytes. -/

/-- The pages of a window's spill area; one outside near and far memory has none. -/
def State.spillPages (s : State) (w : Nat) : Nat := if isHomed (bitsAt (s.aw w 0x20) 51 12 * 4096) then bitsAt (s.aw w 0x28) 63 32 else 0

/-- The address of a place of a window's spill area. -/
def State.spillPa (s : State) (w k : Nat) : Nat := bitsAt (s.aw w 0x20) 51 12 * 4096 + 4352 * k

/-- The places of a window's spill area that are taken. -/
def Uliah.spillUsed (u : Uliah) (w : Nat) : List Nat :=
  (Tbl.vals u.inputs).filterMap (fun x => if x.win = w then x.spilled else none) ++
    (Tbl.vals u.handlers).filterMap (fun x => if x.win = w then x.spilled else none) ++ u.parts.filterMap fun x => if x.win = w then x.spilled else none

/-- R363: the lowest free place of a window's spill area; none where it is full. -/
def State.spillPlace (s : State) (w : Nat) : Option Nat :=
  let l := s.ul.spillUsed w
  ((List.range (l.length + 1)).find? fun k => !l.contains k).bind fun k => if 4352 * (k + 1) ≤ 4096 * s.spillPages w then some k else none

/-- R363: something of a window written to a free place of its spill area; none where there is none or its write has to wait. -/
def State.putSpill (s : State) (w : Nat) (bs : List Byte) (bad : List Nat) : Option (Nat × State) :=
  (s.spillPlace w).bind fun k =>
    (s.portPass [] (spanOf (s.spillPa w k) bs.length)).map fun t => (k, t.portWrite (s.spillPa w k) bs bad)

/-- R355: the identifier of an input with its type, operation and length, as its header has them. -/
def State.inputHeader (s : State) (x : Segment) : Nat :=
  s.awColl x.win * 2 ^ 240 + x.tag * 2 ^ 224 + x.round * 2 ^ 216 + x.seg * 2 ^ 208 + x.rlo * 2 ^ 192 + x.rhi * 2 ^ 176 + s.awType x.win * 2 ^ 162 +
    s.awOp x.win * 2 ^ 159 + x.data.length % 2 ^ 16 * 2 ^ 32

/-- R363: an input put in the spill area. -/
def State.spillInput (s : State) (x : Segment) : Option (Segment × State) :=
  (s.putSpill x.win (leBytes 32 (s.inputHeader x) ++ x.data) (x.bad.map (2 + ·))).map fun z => ({ x with data := [], bad := [], spilled := some z.1 }, z.2)

/-- R363: an input with its payload, read from the spill area where it stands there. -/
def State.fetchInput (s : State) (x : Segment) : Segment × State :=
  match x.spilled with
  | none => (x, s)
  | some k =>
    let a := s.spillPa x.win k
    let r := s.portRead (a + 32) (s.peekN (a + 4) 2)
    ({ x with data := r.1, bad := r.2.1, spilled := none }, r.2.2)

/-- R363: a partial with the position that its handler waits at, as the spill area has them. -/
def Sum.image (p : Sum) (z : Nat × Nat × Nat) : List Byte :=
  [p.rlo, p.rhi, p.elems.length, p.data.length, p.exps.length, z.1, z.2.1, z.2.2].flatMap (leBytes 2) ++
    p.exps.map (BitVec.ofNat 8) ++ leBytes (16 - p.exps.length) 0 ++ leBytes 32 (p.bad.foldl (fun n g => n + 2 ^ g) 0) ++
    p.elems.flatMap (fun w => leBytes 4 w.toNat) ++ p.data

/-- R363: a partial from its image. -/
def Sum.ofImage (b : List Byte) : Sum :=
  let n (i : Nat) : Nat := leNat ((b.drop (2 * i)).take 2)
  { rlo := n 0, rhi := n 1
    elems := (List.range (n 2)).map fun i => BitVec.ofNat 32 (leNat ((b.drop (64 + 4 * i)).take 4))
    exps := ((b.drop 16).take (n 4)).map (·.toNat)
    data := (b.drop (64 + 4 * n 2)).take (n 3)
    bad := (List.range 256).filter fun g => (leNat ((b.drop 32).take 32)).testBit g }

/-- The bytes of a partial's image. -/
def State.partSpan (s : State) (w k : Nat) : Nat := 64 + 4 * s.peekN (s.spillPa w k + 4) 2 + s.peekN (s.spillPa w k + 6) 2

/-- R363: a handler that waits in `UCOMB` with its partial in the spill area, as far as it can be written there. -/
def State.spillPart (s : State) (id : Nat) (h : Handler) : State :=
  match h.comb, h.part with
  | some z, some p => (s.putSpill h.win (p.image z) []).elim s fun r =>
      { r.2 with ul := { r.2.ul with handlers := Tbl.put r.2.ul.handlers id { h with part := none, spilled := some r.1 } } }
  | _, _ => s

/-- R363: the handler's partial read back where it stands in the spill area; none where the read has to wait. -/
def State.fetchPart (s : State) (h : Handler) : Option (Handler × State) :=
  match h.spilled with
  | none => some (h, s)
  | some k =>
    let a := s.spillPa h.win k
    let n := s.partSpan h.win k
    (s.portPass (spanOf a n) []).map fun t =>
      let r := t.portRead a n
      ({ h with part := some (Sum.ofImage r.1), spilled := none }, r.2.2)

/-- R363: a bucket spills, as far as the spill area has room: its inputs, its segments being assembled and its partials stand there, and their slots are
free. -/
def State.spill (s : State) (w tag : Nat) : State :=
  let b := s.bucket w tag
  if s.spillPages w == 0 then s
  else
    let s0 := if b.spilled then s else (s.setBucket { b with spilled := true }).awCount w 39 32
    let s1 := (List.filter (fun (e : Nat × Segment) => e.2.win == w && e.2.tag == tag && e.2.spilled.isNone) s0.ul.inputs).foldl
      (fun (t : State) e => (t.spillInput e.2).elim t fun z => z.2.onUl fun u => { u with inputs := Tbl.put u.inputs e.1 z.1 }) s0
    let s2 := (s1.ul.parts.filter fun x => x.win == w && x.tag == tag && x.spilled.isNone).foldl
      (fun (t : State) x => (t.putSpill w (leBytes 32 0 ++ (List.range 256).map fun i => Tbl.at x.bytes i 0) []).elim t fun z =>
        z.2.onUl fun u => { u with parts := u.parts.map fun y => if y = x then { x with spilled := some z.1 } else y }) s1
    (List.filter (fun (e : Nat × Handler) => e.2.win == w && e.2.tag == tag) s2.ul.handlers).foldl (fun (t : State) e => t.spillPart e.1 e.2) s2

/-- A range recorded of a group (R363). -/
def Segment.range (x : Segment) : Nat × Nat × Nat × Nat × Nat × Nat := (x.win, x.tag, x.round, x.seg, x.rlo, x.rhi)

/-- A handler is live for the group (R356). -/
def State.groupLive (s : State) (w tag round seg : Nat) : Bool :=
  (Tbl.vals s.ul.handlers).any fun h => h.win == w && h.tag == tag && h.round == round && h.seg == seg

/-- R356: the first input of a group of the current round starts its handler. -/
def State.rouse (s : State) (w tag seg : Nat) : State :=
  if (s.bucket w tag).begun.contains seg then s else s.pushOnce .handlerStart [w, tag, seg]

/-- An input put in its slot, or in the spill area, with its range recorded. -/
def State.holdInput (s : State) (x : Segment) : State :=
  let id := s.nextId
  let s1 : State := ({ s with nextId := id + 1 } : State).onUl fun u => { u with inputs := Tbl.put u.inputs id x, seen := x.range :: u.seen }
  if x.round = (s.bucket x.win x.tag).round then s1.rouse x.win x.tag x.seg else s1

/-- R354, R363: an input arrives at its window: a duplicate is discarded and counted, and another is held; none where no slot is free and it is
not accepted. -/
def State.acceptInput (s : State) (x : Segment) : Option State :=
  let b := s.bucket x.win x.tag
  if s.awHalted x.win then some s
  else if 128 ≤ (x.round + 256 - b.round) % 256 || s.ul.seen.contains x.range then some (s.awCount x.win 55 40)
  else if !b.spilled && s.slotsUsed (s.awPort x.win) < 512 then some (s.holdInput x)
  else ((if b.spilled then s else s.spill x.win x.tag).spillInput x).map fun z => z.2.holdInput z.1

/-! Halts (R366). -/

/-- What a window holds is discarded: its buckets, handlers, assemblies and inputs. -/
def Uliah.discard (u : Uliah) (w : Nat) : Uliah :=
  { u with
    handlers := List.filter (fun (e : Nat × Handler) => e.2.win != w) u.handlers
    buckets := u.buckets.filter (·.win != w)
    parts := u.parts.filter (·.win != w)
    inputs := List.filter (fun (e : Nat × Segment) => e.2.win != w) u.inputs
    seen := u.seen.filter (·.1 != w) }

/-- R366, R369: 0 stored to the signal object of a window that has halted, once the port may write there; until then it is owed. -/
def State.payHalt (s : State) (sig : Nat) : State :=
  if isHomed sig then
    (match s.portPass [] [sig] with
      | some t => t.homeWrite sig (leBytes 8 0)
      | none => s.onUl fun u => { u with owed := u.owed ++ [sig] })
  else match regionOf sig with
    | .peer p off => (s.writePeer { peer := p, off := off, kind := .store, size := 8, data := 0 }).2
    | .core c .scratch _ => if s.present c then s.poke sig (leBytes 8 0) else s
    | _ => s

/-- R366: what is owed to signal objects is tried again. -/
def State.payOwed (s : State) : State := s.ul.owed.foldl State.payHalt (s.onUl fun u => { u with owed := [] })

/-- R366: a fault halts the window: `AWSTAT` keeps the first code and its word, the handlers stop, the signal object takes 0, and a record of
code 7 is written. `extra` goes into the record's address (log entry 34). -/
def State.haltWindow (s : State) (w code word extra : Nat) : State :=
  let x := s.aw w 0x38
  let y : Nat := x.toNat % 2 ^ 63 - (x.toNat % 2 ^ 16) + 2 ^ 63 + code * 2 ^ 12 + word % 2 ^ 12
  let s1 := (s.setHub (0x200000 + 64 * w + 0x38) (BitVec.ofNat 64 y)).onUl (·.discard w)
  let sig := bitsAt (s1.aw w 0x30) 51 0
  let s2 := if sig = 0 then s1 else s1.payHalt sig
  s2.errRec 5 (s2.awPort w) 7 w extra 0 1 y

/-! Setting a window up (R349, R350). -/

/-- The bits of a window register that a write reaches (R349). -/
def awMask (off : Nat) : DWord :=
  match off with
  | 0x00 => 0xffff0fffffffffc0
  | 0x08 => 0x1ff
  | 0x10 => 0xffffffff00ff01ff
  | 0x18 => 0x000fffffffffffff
  | 0x20 => 0x000ffffffffff000
  | 0x28 => 0xffffffffffffffff
  | 0x30 => 0x000fffffffffffff
  | _ => 0

/-- R350: the types that each mode takes, with their operations and output types. -/
def awTypesOk (mode ty op oty : Nat) : Bool :=
  if mode = 1 then
    if ty = 3 ∨ ty = 7 then op < 6 && oty == ty
    else if ty = 0x11 ∨ ty = 0x13 then op < 3 && (oty == 0x11 || oty == 0x13)
    else (Num.sxOf ty).isSome && op < 3 && (oty == 0x11 || oty == 0x13 || oty == ty)
  else (mode == 2 || mode == 3) && Num.goodTag ty && op == 0 && oty == ty

/-- R350: the checks of a window that is to be turned on. -/
def State.awOk (s : State) (w : Nat) (v : DWord) : Bool :=
  let r := s.aw w 0x10
  let t := s.aw w 0x28
  awTypesOk (bitsAt v 26 24) (bitsAt v 23 18) (bitsAt v 17 15) (bitsAt v 11 6) &&
    decide (bitsAt r 47 32 + bitsAt r 8 0 ≤ bitsAt r 63 48) && (bitsAt t 31 0 == 0 || 1 ≤ bitsAt t 63 32) && decide (bitsAt v 31 27 ≤ 19) &&
    decide (bitsAt v 14 12 ≤ 1)

/-- AWCFG_ENABLE (R349, R350): a window that is off is checked and turned on, its counters cleared; one that fails stays off, with fault code 1.
The counters stay for a reserved mode, as the rule clears them for modes 1 to 3. -/
def execAwcfgEnable (s : State) : Out :=
  let w := s.arg 0
  let v := BitVec.ofNat 64 (s.arg 1) &&& awMask 0
  let a := 0x200000 + 64 * w
  if 256 ≤ w ∨ s.awMode w ≠ 0 then .next s
  else if s.awOk w v then .next ((((s.setHub a v).setHub (a + 0x38) 0).onUl (·.discard w)))
  else .next ((s.setHub a (v &&& 0xfffffffff8ffffff)).setHub (a + 0x38)
    ((if 3 < bitsAt v 26 24 then s.aw w 0x38 &&& 0x7fffffffffff0fff else 0) ||| 0x1000))

/-- AWCFG_DISABLE (R349, R366): the window is off, no longer halted, and every bucket of it is discarded. -/
def execAwcfgDisable (s : State) : Out :=
  let w := s.arg 0
  if 256 ≤ w then .next s
  else
    let s1 := s.setHub (0x200000 + 64 * w) (BitVec.ofNat 64 (s.arg 1) &&& awMask 0 &&& 0xfffffffff8ffffff)
    .next ((s1.setHub (0x200000 + 64 * w + 0x38) (s1.aw w 0x38 &&& 0x7fffffffffffffff)).onUl (·.discard w))

/-- AW_REGISTER_WRITE (R349): another register of a window that is off; ignored while the window is on. -/
def execAwRegisterWrite (s : State) : Out :=
  let w := s.arg 0
  let r := s.arg 1
  if 256 ≤ w ∨ r = 0 ∨ s.awMode w ≠ 0 ∨ awMask r = 0 then .next s
  else .next (s.setHub (0x200000 + 64 * w + r) (BitVec.ofNat 64 (s.arg 2) &&& awMask r))

/-! Contributions (R352, R353, R369). -/

/-- R353: the round that a complete segment of a rank belongs to: the current one, or the first after it that has no input of the rank yet. -/
def State.nextRound (s : State) (x : Assembly) (rank : Nat) : Nat :=
  let b := s.bucket x.win x.tag
  ((List.range 128).map fun (i : Nat) => (b.round + i) % 256).find? (fun r => !s.ul.seen.contains (x.win, x.tag, r, x.seg, rank, rank)) |>.getD b.round

/-- R353, R363: the assembly that takes bytes of a rank: the one that there is, or a new one in a slot or in the spill area; none where there is no room. -/
def State.openPart (s : State) (w tag seg rank : Nat) : Option (Assembly × State) :=
  match s.ul.parts.find? fun x => x.win == w && x.tag == tag && x.seg == seg && x.rank == rank with
  | some x => some (x, s)
  | none =>
    let x : Assembly := { win := w, tag := tag, seg := seg, rank := rank, bytes := [] }
    if !(s.bucket w tag).spilled && s.slotsUsed (s.awPort w) < 512 then some (x, s)
    else ((if (s.bucket w tag).spilled then s else s.spill w tag).putSpill w (leBytes 288 0) []).map fun z => ({ x with spilled := some z.1 }, z.2)

/-- R363: bytes put into an assembly, in the spill area where it stands there; none where that has to wait. -/
def State.fillPart (s : State) (x : Assembly) (i : Nat) (bs : List Byte) : Option State :=
  match x.spilled with
  | none => some s
  | some k => (s.portPass [] (spanOf (s.spillPa x.win k + 32 + i) bs.length)).map fun t => t.homeWrite (s.spillPa x.win k + 32 + i) bs

/-- R353: the 256 bytes of an assembly that is complete. -/
def State.partData (s : State) (x : Assembly) : List Byte × State :=
  match x.spilled with
  | none => ((List.range 256).map fun i => Tbl.at x.bytes i 0, s)
  | some k => let r := s.portRead (s.spillPa x.win k + 32) 256; (r.1, r.2.2)

/-- R353: bytes of a rank put into its segment, which becomes an input once every data byte has come; none where no slot is free. -/
def State.assemble (s : State) (w off rank : Nat) (bs : List Byte) : Option State :=
  let tag := off / 2 ^ 16 % 2 ^ 16
  let seg := off / 2 ^ 8 % 2 ^ 8
  (s.openPart w tag seg rank).bind fun z =>
    (z.2.fillPart z.1 (off % 256) bs).bind fun s1 =>
      let x1 : Assembly := { z.1 with bytes := bs.zipIdx.foldl (fun (t : Tbl Byte) b => Tbl.put t (off % 256 + b.2) b.1) z.1.bytes }
      let rest := s1.ul.parts.filter fun y => !(y.win == w && y.tag == tag && y.seg == seg && y.rank == rank)
      if (dataBytes (s1.awMode w) (s1.awType w)).all fun i => Tbl.has x1.bytes i then
        let d := s1.partData x1
        (d.2.onUl fun u => { u with parts := rest }).acceptInput
          { win := w, tag := tag, seg := seg, round := s1.nextRound x1 rank, rlo := rank, rhi := rank, data := d.1 }
      else some (s1.onUl fun u => { u with parts := rest ++ [x1] })

/-- The lanes of a contribution accepted one after the other. -/
def State.contribute (s : State) (c size : Nat) : List LaneAcc → Option State
  | [] => some s
  | x :: r =>
    match regionOf x.pa with
    | .alias_ w off =>
      if s.awHalted w || !s.mayContribute c w off then State.contribute s c size r
      else (s.assemble w off (bitsAt (s.aw w 0x10) 47 32 + (c - bitsAt (s.aw w 0x10) 23 16)) (leBytes size x.x)).bind fun t => State.contribute t c size r
    | _ => State.contribute s c size r

/-- AW_CONTRIBUTION (R286, R353, R369): a contribution reaches its window's port, in the order of its core's stores, and is acknowledged once accepted.
One that finds no slot waits there, with `stamp` set, and its cohort's store queue behind it (R363). -/
def execAwContribution (s : State) : Out :=
  let id := s.arg 0
  match Tbl.find? s.accs id with
  | none => .next s
  | some a =>
    if a.stage != 0 then .next s
    else if s.accs.any fun e => e.1 < id && e.2.core == a.core && e.2.stage == 0 && e.2.toAlias then .next (s.push .awContribution [id])
    else match (s.contribute a.core a.size a.lanes).bind fun t => t.fsPass 5 [(3, columnLink (coreRouter a.core) (unitRouter 1))] with
      | none => .next (({ s with accs := Tbl.put s.accs id { a with stamp := 1 } } : State).push .awContribution [id])
      | some t => .next (t.answer id a [] 0 [])

/-! Segments that travel (R355, R370). -/

/-- R355: the window that takes a segment of a header: the one named, or another one, that is on and whose collective matches; none where it is of another
type or operation. -/
def State.takesSegment (s : State) (w header : Nat) : Option Nat :=
  let mine (w : Nat) : Bool := s.awMode w != 0 && s.awColl w == header / 2 ^ 240 % 2 ^ 16
  ((w :: List.range 256).find? mine).bind fun v => if s.awType v = header / 2 ^ 162 % 64 ∧ s.awOp v = header / 2 ^ 159 % 8 then some v else none

/-- R355: the input that a header and its payload are, for window `w`. -/
def segmentOf (w header payload bad : Nat) : Segment :=
  { win := w, tag := header / 2 ^ 224 % 2 ^ 16, round := header / 2 ^ 216 % 256, seg := header / 2 ^ 208 % 256, rlo := header / 2 ^ 192 % 2 ^ 16
    rhi := header / 2 ^ 176 % 2 ^ 16, data := leBytes (header / 2 ^ 32 % 2 ^ 16) payload
    bad := (List.range 256).filter fun g => bad.testBit g }

/-- SEGMENT_RECEIVE (R355, R363, R370): an input arrives from another port, or over the Ultra Ethernet port that operand 4 counts from 1. One that no window
takes is discarded and recorded. One that finds no slot waits in its port's send, or is not acknowledged and so sent again. -/
def execSegmentReceive (s : State) : Out :=
  let w := s.arg 0
  let header := s.arg 1
  let ue := s.arg 4
  let done (t : State) : State := if ue = 0 then t else t.onUl fun u => { u with acks := u.acks ++ [(ue - 1, header)] }
  match s.takesSegment w header with
  | none => .next (done (s.errRec 5 (s.awPort w) 5 (header / 2 ^ 240) 0 0 1 (header / 2 ^ 64 % 2 ^ 64)))
  | some v =>
    match s.acceptInput (segmentOf v header (s.arg 2) (s.arg 3)) with
    | none => if ue = 0 then .next (s.push .segmentReceive s.ev) else .next s
    | some t => .next (done t)

/-- R370: the time after which port `p` sends a packet again. -/
def State.ueTimeout (s : State) (p : Nat) : Nat := (s.hubReg (0x480000 + 8 * p)).toNat % 2 ^ 32

/-- UE_RETRANSMIT (R370): the timeout of a packet sent over Ultra Ethernet has passed, and it is sent again. With operand 1 set it has been acknowledged
first, and is done. -/
def execUeRetransmit (s : State) : Out :=
  let id := s.arg 0
  match Tbl.find? s.ul.sent id with
  | none => .next s
  | some x =>
    if s.arg 1 = 1 then .next (s.onUl fun u => { u with sent := Tbl.del u.sent id })
    else if s.net.hubClock < x.since + s.ueTimeout x.port then .next s
    else .next (s.onUl fun u => { u with sent := Tbl.put u.sent id { x with tries := x.tries + 1, since := s.net.hubClock } })

/-! Handlers (R356, R359, R363). -/

/-- HANDLER_START (R356, R359): a handler starts for the first input of a group of its bucket's round, if its port has fewer than 64. -/
def execHandlerStart (s : State) : Out :=
  let w := s.arg 0
  let tag := s.arg 1
  let seg := s.arg 2
  let b := s.bucket w tag
  if s.awMode w = 0 || s.awHalted w || b.begun.contains seg || s.groupLive w tag b.round seg ||
      !(Tbl.vals s.ul.inputs).any (fun x => x.win == w && x.tag == tag && x.seg == seg && x.round == b.round) then .next s
  else if 64 ≤ (List.filter (fun (e : Nat × Handler) => s.awPort e.2.win == s.awPort w) s.ul.handlers).length then .next (s.push .handlerStart s.ev)
  else
    let h : Handler :=
      { win := w, tag := tag, seg := seg, round := b.round, pc := bitsAt (s.aw w 0) 43 32
        e := [(1, BitVec.ofNat 64 tag), (2, BitVec.ofNat 64 seg), (3, BitVec.ofNat 64 b.round), (4, BitVec.ofNat 64 w)] }
    .next ((({ s with nextId := s.nextId + 1 } : State).setBucket { b with begun := b.begun ++ [seg] }).onUl fun u =>
      { u with handlers := Tbl.put u.handlers s.nextId h })

/-- BUCKET_SPILL (R363): a handler of the group has waited its window's time limit for one rank, and the bucket spills. -/
def execBucketSpill (s : State) : Out :=
  let w := s.arg 0
  let lim := bitsAt (s.aw w 0x28) 31 0
  if lim != 0 && (Tbl.vals s.ul.handlers).any (fun h =>
      h.win == w && h.tag == s.arg 1 && h.seg == s.arg 2 && h.comb.isSome && decide (h.since + lim ≤ s.net.hubClock)) then
    .next (s.spill w (s.arg 1))
  else .next s

/-- R354: the bucket's round advances: inputs of the old round that no handler waits for go, and handlers start for inputs held for the new
one. -/
def State.advanceRound (s : State) (w tag : Nat) : State :=
  let b := s.bucket w tag
  let r := (b.round + 1) % 256
  let s1 := (s.awCount w 31 16).setBucket { b with round := r, doneSegs := [], begun := [], spilled := false }
  let stays (x : Segment) : Bool := !(x.win == w && x.tag == tag && x.round == b.round) || s.groupLive w tag b.round x.seg
  let s2 := s1.onUl fun u =>
    { u with
      inputs := List.filter (fun (e : Nat × Segment) => stays e.2) u.inputs
      seen := u.seen.filter fun z => !(z.1 == w && z.2.1 == tag && z.2.2.1 == b.round && !s.groupLive w tag b.round z.2.2.2.1) }
  let segs := ((List.filter (fun (e : Nat × Segment) => e.2.win == w && e.2.tag == tag && e.2.round == r) s2.ul.inputs).map fun e => e.2.seg).eraseDups
  segs.foldl (fun (t : State) g => t.rouse w tag g) s2

/-- A handler ends (R361): what is left of its group's inputs goes with a round that is over. -/
def State.endHandler (s : State) (id : Nat) (h : Handler) : State :=
  let stale := h.round != (s.bucket h.win h.tag).round
  let mine (x : Segment) : Bool := x.win == h.win && x.tag == h.tag && x.round == h.round && x.seg == h.seg
  s.onUl fun u =>
    { u with
      handlers := Tbl.del u.handlers id
      inputs := if stale then List.filter (fun (e : Nat × Segment) => !mine e.2) u.inputs else u.inputs
      seen := if stale then u.seen.filter fun z => !(z.1 == h.win && z.2.1 == h.tag && z.2.2.1 == h.round && z.2.2.2.1 == h.seg) else u.seen }

end Sys2Proof.Machine
end

