-- ==== Sys2Proof/Machine/Bank.lean ====
section
/-! DEFINITION. The banks of a core's stores: accesses that arrive there, and full bits that are set (R143, R200, R229, R232). -/

namespace Sys2Proof.Machine

open Sys2Proof

/-- The granules that an access touches are full. -/
def State.allFull (s : State) (a : Access) : Bool := a.lanes.all fun x => s.isFull x.pa

/-- R229: the bank of a scratchpad granule, at an offset of the window. -/
def bankOf (off : Nat) : Nat := off / 16 % 32

/-- A bank serves an access: a full-empty load waits until its granules are full, and `.fec` clears them in the same access. Accesses of several
granules are one for each granule (R229). DESIGN CHOICE (log entry 78): the order in which a bank serves the accesses that wait for it is that of their
rows, whatever agent they come from. -/
def State.bankServe (s : State) (id : Nat) : State :=
  match Tbl.find? s.accs id with
  | none => s
  | some a =>
    if a.stage != 0 then s
    else if s.overtakes id a then s.push .bankAccess [id]
    else if a.full != 0 && !s.allFull a then
      if a.stamp = 0 then { s with accs := Tbl.put s.accs id { a with stamp := s.nextId }, nextId := s.nextId + 1 } else s
    else
      let r := (s.captureQueue a).serve a
      let s1 : State := if a.full = 2 then { r.2.2 with full := r.2.2.full.filter fun g => !a.lanes.any fun x => x.pa / 16 == g } else r.2.2
      s1.answer id a r.1 r.2.1 []

/-- R232: the loads that wait at the banks, in the order in which a fill releases them: those of `.fe`, then those of `.fec` by
the time that they have waited. -/
def State.bankWaiters (s : State) : List Nat :=
  let ws := List.filter (fun (e : Nat × Access) => e.2.stage == 0 && e.2.full != 0 && e.2.stamp != 0) s.accs
  ((ws.filter fun e => e.2.full == 1) ++ sortBy (fun (e : Nat × Access) => e.2.stamp) (ws.filter fun e => e.2.full == 2)).map Prod.fst

/-- R200, R232: full bits set, and what waited for them released. Those of frames that no handle holds stay empty (R234). -/
def State.fillGranules (s : State) (gs : List Nat) : State :=
  let new := gs.filter fun g => !s.full.contains g && !s.frameless (16 * g)
  if new = [] then s
  else
    let s1 : State := { s with full := new.foldl insNat s.full }
    s1.bankWaiters.foldl (fun t id => t.bankServe id) s1

end Sys2Proof.Machine
end

