-- ==== Sys2Proof/Machine/MemoryOps.lean ====
section
/-! DEFINITION. Loads, stores and atomics (R139 to R153, R158, R159), with the steps that hardware takes for them. -/

namespace Sys2Proof.Machine

open Sys2Proof

/-- The lanes of an access: an address and operands in each writing lane. -/
def lanesAt (m : Mask) (va x y : Nat → Nat) : List LaneAcc := (lanesOf m).map fun l => { lane := l, va := va l, x := x l, y := y l }

/-- R139: the alignment fault of a lane whose address is not a multiple of the size. DESIGN CHOICE (log entry 77): where several lanes are misaligned, the
frame has the address of the lowest; the spec names no lane. -/
def misaligned (size : Nat) (ls : List LaneAcc) : Option Bad :=
  (ls.find? fun a => a.va % size != 0).map fun a => { code := 11, sub := 1, addr := a.va }

/-- The low bytes of a data register, or of a pair for 8 bytes (R146, R149). -/
def Cohort.dataAt (h : Cohort) (d size l : Nat) : Nat := if size = 8 then (h.pair d l).toNat else (h.lane d l).toNat % 256 ^ size

/-! Loads (R141 to R145). -/

/-- R141: a load begins; a full-empty load keeps its split at the instruction (R143). -/
def State.beginLoad (s : State) (w : Who) (x : MemShape) (m : Mask) (ls : List LaneAcc) : State :=
  let op := x.toLoad (w.h.seq + 1) w.word w.len w.sp.pc m ls w.h.handler
  if x.full = 0 then s.startLoad w.c w.k op
  else
    (s.onCohort w.c w.k fun h => h.onSplit w.i fun sp => { sp with pc := w.sp.pc, state := 5, hold := .full (w.h.seq + 1) }).startLoad
      w.c w.k { op with split := some w.i }

/-- R141, R142: a load of a shape at addresses. -/
def loadWith (u : Uses) (x : MemShape) (g : Nat) (addr : Cohort → Nat → Nat) (s : State) : Out :=
  let ls (w : Who) : List LaneAcc := lanesAt (w.h.writing w.sp g) (addr w.h) (fun _ => 0) (fun _ => 0)
  issue (fun _ _ => { u with acc := 0x80, path := some x.path, load := true, whole := false, guard := g })
    (fun w _ => misaligned x.size (ls w)) noHold
    (fun w t => t.beginLoad w x (w.h.writing w.sp g) (ls w)) s

/-- The shape of a load with a qualifier of R66: 0 path g, 1 path t, 2 `.fe`, 3 `.fec`. -/
def ldShape (size : Nat) (o : OpLd) : MemShape :=
  { kind := .load, size := size, dst := o.d, path := if o.u = 1 then 1 else 0, reuse := o.r, full := o.u - 1 }

/-- R141: a load into a lane register or a pair. -/
def loadLanes (size : Nat) (o : OpLd) (s : State) : Out :=
  let a := addrUses o.a o.o
  loadWith { a with vd := dataRegs o.d size, pairs := a.pairs ++ dataPairs o.d size } (ldShape size o) o.g
    (fun h l => h.laneAddr o.a o.o size l) s

/-- `LD.32` (R141). -/
def execLd32 (o : OpLd) (s : State) : Out := loadLanes 4 o s

/-- `LD.64` (R141). -/
def execLd64 (o : OpLd) (s : State) : Out := loadLanes 8 o s

/-- R141: the shape of a narrow load: 0 `i8`, 1 `n8`, 2 `i16`, 3 `n16`. -/
def ldnShape (o : OpLdn) : MemShape :=
  { kind := .load, size := if o.u < 2 then 1 else 2, dst := o.d, reuse := o.r, ext := 1 - o.u % 2,
    tag := match o.u with | 0 => 1 | 1 => 5 | 2 => 2 | _ => 6 }

/-- `LD.i8`, `LD.n8`, `LD.i16`, `LD.n16` (R141). -/
def execLdNarrow (o : OpLdn) (s : State) : Out :=
  loadWith { addrUses (2 * o.a) o.o with vd := [o.d] } (ldnShape o) o.g
    (fun h l => h.laneAddr (2 * o.a) o.o (ldnShape o).size l) s

/-- R142: a constant-path load, one address for all lanes. -/
def loadConst (size : Nat) (o : OpLdk) (s : State) : Out :=
  loadWith { us := [o.b], vd := dataRegs o.d size, pairs := dataPairs o.d size }
    { kind := .load, size := size, dst := o.d, path := 2, reuse := o.r } o.g (fun h _ => h.baseAddr o.b o.o size) s

/-- `LDK.32` (R142). -/
def execLdk32 (o : OpLdk) (s : State) : Out := loadConst 4 o s

/-- `LDK.64` (R142). -/
def execLdk64 (o : OpLdk) (s : State) : Out := loadConst 8 o s

/-- `QLD` (R142): once an issue. -/
def execQld (o : OpQld) (s : State) : Out :=
  let ls (w : Who) : List LaneAcc := [{ lane := 0, va := w.h.baseAddr o.b o.o 8 }]
  issue (fun _ _ => { us := [o.b], ud := [o.d], acc := 0x80, path := some 0, load := true })
    (fun w _ => misaligned 8 (ls w)) noHold
    (fun w t => t.beginLoad w { kind := .load, size := 8, dst := o.d, reuse := o.r, uniform := true } w.sp.entry (ls w)) s

/-! Stores (R146 to R148). -/

/-- A write that the bound registers check (R159): a failing register with action trap stops the cohort before the instruction. -/
def boundHold (size : Nat) (cas : Bool) (ls : Who → List LaneAcc) (w : Who) (t : State) : Option State :=
  match t.boundTrap w.h.asid size cas (ls w) with
  | some a => some ((t.setBstat w.c w.k (t.failedBounds w.h.asid size cas (ls w))).stopAt w { code := 15, addr := a.va })
  | none => none

/-- R146, R159: a store begins with clamped data; failing registers set their bits. -/
def State.beginStore (s : State) (w : Who) (x : MemShape) (m : Mask) (ls : List LaneAcc) : State :=
  (s.setBstat w.c w.k (s.failedBounds w.h.asid x.size false ls)).queueStore w.c w.k
    (x.toStore (w.h.seq + 1) w.word w.len w.sp.pc m (s.clampLanes w.h.asid x.size false ls) w.h.handler)

/-- R147, R154: the classes of the store that a split makes at some addresses. -/
def Who.storeCls (w : Who) (s : State) (ls : List LaneAcc) : Nat := s.storeCls w.c w.h.asid (s.gangOf w.c w.h) ls

/-- `ST` (R146). -/
def execSt (o : OpSt) (s : State) : Out :=
  let size := 2 ^ o.z
  let a := addrUses o.a o.o
  let ls (w : Who) : List LaneAcc :=
    lanesAt (w.h.writing w.sp o.g) (w.h.laneAddr o.a o.o size) (w.h.dataAt o.s size) (fun _ => 0)
  issue (fun w t => { a with
      vs := a.vs ++ dataRegs o.s size, pairs := a.pairs ++ dataPairs o.s size, guard := o.g, acc := w.storeCls t (ls w), store := true })
    (fun w _ => misaligned size (ls w)) (boundHold size false ls)
    (fun w t => t.beginStore w { kind := .store, size := size, reuse := o.r, load := false } (w.h.writing w.sp o.g) (ls w)) s

/-- `QST` (R146): once an issue. -/
def execQst (o : OpQst) (s : State) : Out :=
  let ls (w : Who) : List LaneAcc := [{ lane := 0, va := w.h.baseAddr o.a o.o 8, x := (w.h.uq o.s).toNat }]
  issue (fun w t => { us := [o.a, o.s], acc := w.storeCls t (ls w), store := true })
    (fun w _ => misaligned 8 (ls w)) (boundHold 8 false ls)
    (fun w t => t.beginStore w { kind := .store, size := 8, reuse := o.r, uniform := true, load := false } (w.h.active w.sp) (ls w)) s

/-! Atomics (R149 to R153). -/

/-- R149: the tag that a floating type's operand may have beside raw; integers take any. -/
def badAtomTag (ty tag : Nat) : Bool :=
  match ty with
  | 4 => tag != 0 && tag != 0x11
  | 5 => tag != 0 && tag != 0x13
  | 6 => tag != 0 && tag != 0x14
  | 7 => tag != 0 && tag != 0x15
  | _ => false

/-- R149: the lanes of an `ATOM` or `REDM`: no offset, and the operand's low bytes. -/
def Who.atomLanes (w : Who) (o : OpAtom) : List LaneAcc :=
  lanesAt (w.h.writing w.sp o.g) (fun l => (w.h.pair o.a l).toNat) (w.h.dataAt o.d (typeSize o.t)) (fun _ => 0)

/-- R149: what an `ATOM` or `REDM` names. -/
def usesAtom (o : OpAtom) : Uses :=
  { vs := pairOf o.a ++ dataRegs o.d (typeSize o.t), pairs := o.a :: dataPairs o.d (typeSize o.t), whole := false, guard := o.g }

/-- R139, R149: the tag fault and then the alignment fault of an atomic. -/
def atomCheck (ty : Nat) (tags : Who → List Nat) (ls : Who → List LaneAcc) (w : Who) (_ : State) : Option Bad :=
  if (tags w).any (badAtomTag ty) then some { code := 6 } else misaligned (typeSize ty) (ls w)

/-- `ATOM` (R151); the operand of `exch` is checked by the bound registers (R159). -/
def execAtom (o : OpAtom) (s : State) : Out :=
  let size := typeSize o.t
  let x : MemShape := { kind := .atom o.o o.t, size := size, dst := o.d, tag := atomTag o.t, scope := o.s }
  issue (fun _ _ => { usesAtom o with vd := dataRegs o.d size, acc := 0xc0, load := true })
    (atomCheck o.t (fun w => [w.h.vtag o.d]) (·.atomLanes o))
    (fun w t => if o.o = 6 then boundHold size false (·.atomLanes o) w t else none)
    (fun w t =>
      let ls := w.atomLanes o
      if o.o = 6 then
        (t.setBstat w.c w.k (t.failedBounds w.h.asid size false ls)).beginLoad w x (w.h.writing w.sp o.g) (t.clampLanes w.h.asid size false ls)
      else t.beginLoad w x (w.h.writing w.sp o.g) ls) s

/-- `REDM` (R151): through the store queue (R153). -/
def execRedm (o : OpAtom) (s : State) : Out :=
  issue (fun _ _ => { usesAtom o with acc := 0x40, store := true })
    (atomCheck o.t (fun w => [w.h.vtag o.d]) (·.atomLanes o)) noHold
    (fun w t =>
      t.queueStore w.c w.k
        (({ kind := .redm o.o o.t, size := typeSize o.t, scope := o.s, load := false } : MemShape).toStore (w.h.seq + 1) w.word w.len w.sp.pc
          (w.h.writing w.sp o.g) (w.atomLanes o) w.h.handler)) s

/-- R67: the register that holds the new value of a `CAS`. -/
def casNew (o : OpCas) : Nat := if typeSize o.t = 8 then o.d + 2 else o.d + 1

/-- R67, R149: the lanes of a `CAS`, with its comparand and its new value. -/
def Who.casLanes (w : Who) (o : OpCas) : List LaneAcc :=
  lanesAt (w.h.writing w.sp o.g) (fun l => (w.h.pair o.a l).toNat) (w.h.dataAt o.d (typeSize o.t)) (w.h.dataAt (casNew o) (typeSize o.t))

/-- `CAS` (R151): its new value is checked by the bound registers (R159). -/
def execCas (o : OpCas) (s : State) : Out :=
  let size := typeSize o.t
  let x : MemShape := { kind := .cas o.t, size := size, dst := o.d, tag := atomTag o.t, scope := o.s }
  issue (fun _ _ =>
      { vs := pairOf o.a ++ dataRegs o.d size ++ dataRegs (casNew o) size, vd := dataRegs o.d size
        pairs := if size = 8 then [o.a] else [o.a, o.d], quads := if size = 8 then [o.d] else []
        whole := false, guard := o.g, acc := 0xc0, load := true })
    (atomCheck o.t (fun w => [w.h.vtag o.d, w.h.vtag (casNew o)]) (·.casLanes o))
    (boundHold size true (·.casLanes o))
    (fun w t =>
      let ls := w.casLanes o
      (t.setBstat w.c w.k (t.failedBounds w.h.asid size true ls)).beginLoad w x (w.h.writing w.sp o.g) (t.clampLanes w.h.asid size true ls)) s

/-! What hardware does for them. -/

/-- R335, R336: the oldest store of a cohort fails: a late store fault, which a bisque region armed before the store rolls back. It
stays pending in handler mode. -/
def State.lateStore (s : State) (c k : Nat) (h : Cohort) (st : StoreOp) (va : Nat) : State :=
  let young := match h.bisque with
    | some b => b.seq < st.seq && !st.handler
    | none => false
  let x : Cause := { code := if young then 20 else 21, pc := st.pc, word := st.word, len := st.len, addr := va, at_ := st.seq }
  let h1 : Cohort := { h with late := h.late ++ [x] }
  if h.ending then ((s.setCohort c k { h with stores := [] }).launchErr h.launch 5 h.stage c k st.pc.toNat).notify c k
  else (s.setCohort c k (if h.handler then h1 else h1.halt)).notify c k

/-- STORE_LEAVE_QUEUE (R147, R253, R363): the oldest store leaves once the loads before it have bound, its pages are translated and no contribution of the
cohort waits at its port. -/
def execStoreLeaveQueue (s : State) : Out :=
  let c := s.arg 0
  let k := s.arg 1
  match s.cohort? c k with
  | none => .next s
  | some h =>
    match h.stores with
    | [] => .next s
    | st :: _ =>
      if h.writeStuck st.seq || h.loads.any (fun y => y.seq < st.seq && (y.stage == 0 || (y.stage == 1 && y.full == 0))) || s.portHolds h.uid then .next s
      else match s.storeMiss c h st with
        | some vpn => .next (s.pushOnce .translationWalkComplete [c, h.asid, vpn])
        | none => match s.storeFails c h st with
          | some va => .next (s.lateStore c k h st va)
          | none => .next (s.leaveStore c k h st)

/-- R324: a failed walk of a page reaches the accesses of a cohort that wait for it: its first waiting load, and its oldest store. -/
def State.walkFails (s : State) (c k asid vpn : Nat) : State :=
  match s.cohort? c k with
  | none => s
  | some h =>
    let gang := s.gangOf c h
    let miss (a : Acc) (l : LaneAcc) : Bool := l.va / 4096 == vpn && s.find c asid gang a l.va == .miss
    let s1 := match h.loads.find? fun x => x.stage == 0 && !h.mustFollow x && x.lanes.any (miss x.kind.acc) with
      | some x => s.faultLoad c k x.seq 18 ((x.lanes.find? (miss x.kind.acc)).elim 0 (·.va))
      | none => s
    match s1.cohort? c k with
    | none => s1
    | some h1 =>
      match h1.stores with
      | [] => s1
      | st :: _ =>
        match st.lanes.find? (miss st.kind.acc) with
        | some a => if h1.writeStuck st.seq then s1 else s1.lateStore c k h1 st a.va
        | none => s1

/-- R325: the accesses of a cohort that waited for a translation go on. -/
def State.walkDone (s : State) (c k : Nat) : State :=
  match s.cohort? c k with
  | none => s
  | some h =>
    let s1 := (h.loads.filter fun x => x.stage == 0).foldl (fun t x => t.advanceLoad c k x.seq) s
    if h.stores.isEmpty then s1 else s1.pushOnce .storeLeaveQueue [c, k]

/-- TRANSLATION_WALK_COMPLETE (R325): the walk of a page ends; waiting accesses proceed or fault. -/
def execTranslationWalkComplete (s : State) : Out :=
  let c := s.arg 0
  let asid := s.arg 1
  let va := s.arg 2 * 4096
  let ks := (List.filter (fun (e : Nat × Cohort) => e.2.asid == asid) (s.core c).cohorts).map Prod.fst
  match (s.core c).tlbFind asid va with
  | some _ => .next (ks.foldl (fun t k => t.walkDone c k) s)
  | none =>
    if 2 ^ 57 ≤ va then .next (ks.foldl (fun t k => t.walkDone c k) s)
    else match s.walk asid va with
    | some e => .next (ks.foldl (fun t k => t.walkDone c k) ((s.walkReads asid va).onCore c fun co => co.tlbFill e))
    | none => .next (ks.foldl (fun t k => (t.walkFails c k asid (s.arg 2)).walkDone c k) (s.walkReads asid va))

/-- The line's bytes may enter a cache of the core: no write of the core to it is on its way, and none of it is poisoned. -/
def State.mayFill (s : State) (c line : Nat) : Bool :=
  !(Tbl.has s.shadows line) && !s.accs.any fun e => e.2.core == c && e.2.stage == 0 && e.2.kind != .load && e.2.lanes.any fun a => a.pa / 128 == line

/-- R243 to R246: the line that an access brought is put into the cache of its path. -/
def State.fillCache (s : State) (a : Access) : State :=
  match a.lanes with
  | [] => s
  | x :: _ =>
    let line := x.pa / 128
    if a.kind != .load || !isHomed x.pa || !s.mayFill a.core line then s
    else
      let data := s.peekBytes (line * 128) 128
      match a.path with
      | 0 =>
        if a.reuse = 3 then s
        else
          let sm := match s.whereIs a.uid with
            | some (c, k) => (match s.cohort? c k with
              | some h => s.find c h.asid (s.gangOf c h) .load x.va == .ok x.pa true
              | none => false)
            | none => false
          let r := s.frameFor a.core line sm a.reuse a.pix
          a.lanes.foldl (fun t y =>
            if t.poisoned y.pa a.size then t
            else t.onCore a.core fun co => { co with l1 := Tbl.adj co.l1 r.1 fun f0 =>
              let f : L1Frame := { f0 with pix := if f0.filled = 0 then a.pix else f0.pix, sm := f0.sm && sm }
              { (if t.poisoned (line * 128) 128 then f.fill 0 (y.pa % 128 / 16) data
                 else f.fill (Tbl.at co.pred a.pix 2) (y.pa % 128 / 16) data) with
                rrpv := a.reuse, used := insNat f.used (y.pa % 128 / 16) } }) r.2
      | 1 => if s.poisoned (line * 128) 128 then s else s.onCore a.core fun co => { co with tcache := cacheUse co.tcache line data 8 128 }
      | _ =>
        if s.poisoned (line * 128) 128 then s
        else s.onCore a.core fun co =>
          { co with kcache := cacheUse co.kcache (x.pa / 64) ((data.drop (x.pa % 128 / 64 * 64)).take 64) 4 256 }

/-- R252: the bytes that a core's L1 holds of a line brought up to those of memory, where a load has found those: but for dirty ones, those of poisoned
granules and those that a store of the core is on its way to change. -/
def State.refreshL1 (s : State) (c line : Nat) : State :=
  match (s.core c).l1Find line with
  | none => s
  | some (k, f) =>
    let late := (Tbl.vals s.accs).filter fun e => e.core == c && e.stage == 0 && e.kind != .load
    let pas := ((List.range 128).map (line * 128 + ·)).filter fun pa =>
      f.has pa && !f.dirty.contains pa && !s.poisoned pa 1 && !late.any fun e => touches e.lanes e.size pa 1
    if Tbl.has s.shadows line then s
    else s.onCore c fun co => { co with l1 := Tbl.adj co.l1 k fun g => { g with bytes := pas.foldl (fun b pa => Mem.wr b pa (Mem.rd s.mem pa)) g.bytes } }

/-- LOAD_DATA_RETURN (R141): an access of a load comes back; with the last one the lanes are written. A chain takes what it reads itself. -/
def execLoadDataReturn (s : State) : Out :=
  let uid := s.arg 0
  let seq := s.arg 1
  let id := s.arg 2
  match Tbl.find? s.accs id with
  | none => .next s
  | some a =>
    if a.stage != 1 then .next s
    else if a.chain != 0 then .next ((({ s with accs := Tbl.del s.accs id } : State).chainRead a.core a.chain id a.lanes none).nudgeInvals)
    else
      let x := a.lanes.headD { lane := 0, va := 0 }
      let s0 := ({ s with accs := Tbl.del s.accs id } : State).fillCache a
      let s1 := (if a.path = 0 ∧ isHomed x.pa then s0.refreshL1 a.core (x.pa / 128) else s0).nudgeInvals
      if s1.accs.any fun x => x.2.uid == uid && x.2.seq == seq then .next s1
      else match s1.whereIs uid with
        | none => .next s1
        | some (c, k) => .next (s1.finishLoad c k seq)

/-- WRITE_ACKNOWLEDGEMENT (R155): a write's acknowledgement reaches its core; what waits for it is looked at again. -/
def execWriteAcknowledgement (s : State) : Out :=
  match Tbl.find? s.accs (s.arg 0) with
  | none => .next s
  | some a =>
    let s1 : State := { s with accs := Tbl.del s.accs (s.arg 0) }
    if a.chain != 0 then .next ((s1.chainAcked a.core (s.arg 0)).nudgeInvals)
    else
      let bs := (List.filter (fun (e : Nat × Block) => e.2.uids.contains a.uid) (s1.core a.core).blocks).map Prod.fst
      let s2 := (Tbl.keys (s1.core a.core).cohorts).foldl (fun (t : State) k => t.notify a.core k) s1
      .next (bs.foldl (fun (t : State) b => t.checkBlock a.core b) s2.nudgeInvals)

end Sys2Proof.Machine
end

