-- ==== Sys2Proof/Machine/Fence.lean ====
section
/-! DEFINITION. Fences and the write-back and invalidation of ranges (R154 to R157). -/

namespace Sys2Proof.Machine

open Sys2Proof

/-- A fence has issued (R155): it completes once what it covers has performed. -/
def State.addFence (s : State) (w : Who) (scope pred succ paths : Nat) : State :=
  (s.onCohort w.c w.k fun h => { h with fences := h.fences ++
    [{ seq := h.seq, scope := scope, pred := pred, succ := succ, paths := paths, handler := h.handler }] }).pushOnce .fenceComplete [w.c, w.k]

/-- `FENCE` (R155). -/
def execFence (o : OpFence) (s : State) : Out :=
  issue (fun _ _ => {}) noCheck noHold (fun w t => t.addFence w o.s o.p o.c 0) s

/-- `PFENCE` (R156). -/
def execPfence (n : Nat) (s : State) : Out :=
  issue (fun _ _ => {}) noCheck noHold (fun w t => t.addFence w 2 0 0 n) s

/-! Ranges (R157). -/

/-- The translations of a context's pages that meet a range, from a table page down; `base` is the first address that the table
covers. -/
def State.leavesFrom (s : State) (asid lo hi : Nat) (smDefault : Bool) : Nat → Nat → Nat → List TlbEntry
  | 0, _, _ => []
  | n + 1, page, base =>
    (List.range 512).flatMap fun i =>
      let va := base + i * 2 ^ (12 + 9 * n)
      if va + 2 ^ (12 + 9 * n) ≤ lo || hi ≤ va then []
      else
        let a := page * 4096 + i * 8
        let pte := (s.narrow (a / 128)).peekN a 8
        if !isHomed a || s.poisoned a 8 || pte % 2 = 0 || pte / 2 ^ 52 != 0 || pte / 2 ^ 7 % 32 != 0 then []
        else if pte / 2 % 8 = 0 then
          (if n = 0 ∨ pte / 2 ^ 6 % 2 = 1 then [] else State.leavesFrom s asid lo hi smDefault n (pte / 2 ^ 12 % 2 ^ 40) va)
        else (leafOf asid va n pte smDefault).toList

/-- The translations that reach the pages of a range: those of the core's buffer and those of the context's tables. -/
def State.leaves (s : State) (c asid lo hi : Nat) : List TlbEntry :=
  ((s.core c).tlb.filter fun e => e.asid == asid && e.vpn * 2 ^ e.bits < hi && lo < (e.vpn + 1) * 2 ^ e.bits) ++
    s.leavesFrom asid lo hi ((s.ctx asid 0).getLsbD 3) 5 ((s.ctx asid 8).toNat / 2 ^ 12 % 2 ^ 40) 0

/-- R157: an address of the range maps the line. -/
def TlbEntry.mapsLine (e : TlbEntry) (lo hi line : Nat) : Bool :=
  let p := e.ppn * 2 ^ e.bits
  p ≤ line * 128 && line * 128 < p + 2 ^ e.bits &&
    (let va := e.vpn * 2 ^ e.bits + (line * 128 - p)
     decide (va < hi) && decide (lo < va + 128))

/-- R157: the frames of the core's L1 whose line an address of the range maps. -/
def State.rangeFrames (s : State) (c asid lo hi : Nat) : Tbl L1Frame :=
  let es := s.leaves c asid lo hi
  List.filter (fun (e : Nat × L1Frame) => es.any fun t => t.mapsLine lo hi e.2.line) (s.core c).l1

/-- R157: the range that two registers name, clipped at 2^57. -/
def Who.range (w : Who) (a l : Nat) : Nat × Nat := ((w.h.uq a).toNat, min ((w.h.uq a).toNat + (w.h.uq l).toNat) (2 ^ 57))

/-- The older stores of the cohort leave the queue first (R157). -/
def storesFirst (w : Who) (t : State) : Option State := if w.h.stores.isEmpty then none else some t

/-- R157: the dirty bytes of the frames go home; `drop` also invalidates the frames. -/
def State.flushFrames (s : State) (w : Who) (fs : Tbl L1Frame) (drop : Bool) : State :=
  fs.foldl (fun (t : State) e =>
    let t1 := t.writeBack w.c w.h.uid (w.h.seq + 1) e.2
    t1.onCore w.c fun co =>
      if drop then ({ co with l1 := Tbl.del co.l1 e.1 } : CoreSt).train e.2
      else { co with l1 := Tbl.adj co.l1 e.1 fun f => { f with dirty := [] } }) s

/-- `WBR` (R157): dirty bytes of the range's blocks go home; the blocks stay. -/
def execWbr (a l : Nat) (s : State) : Out :=
  issue (fun _ _ => { us := [a, l], acc := 0x40 }) noCheck storesFirst
    (fun w t =>
      let r := w.range a l
      if w.h.uq l = 0 then t
      else t.flushFrames w (t.rangeFrames w.c w.h.asid r.1 r.2) false) s

/-- `INVR` (R157): dirty bytes go home, every block of the range goes, and younger loads on path g wait for its completion. -/
def execInvr (a l : Nat) (s : State) : Out :=
  issue (fun _ _ => { us := [a, l], acc := 0xc0 }) noCheck storesFirst
    (fun w t =>
      let r := w.range a l
      if w.h.uq l = 0 then t
      else (t.flushFrames w (t.rangeFrames w.c w.h.asid r.1 r.2) true).addFence w 2 0 0 4) s

/-- R155, R268: nothing that a fence covers is pending. A program's fence also waits for what a trap keeps until the return from it; DEDUCED (log entry
47), a handler's does not. -/
def State.fencePassed (s : State) (c : Nat) (h : Cohort) (f : Fence) (scope cls : Nat) : Bool :=
  !s.pendingAcc c { h with handler := f.handler } f.seq scope cls && (f.handler || !s.keptAcc c h f.seq cls)

/-- R155 to R157: what a fence waits for has performed. The stores that a `PFENCE` waits for are those to alias windows as well (R156). -/
def State.fenceDone (s : State) (c : Nat) (h : Cohort) (f : Fence) : Bool :=
  if f.paths = 4 then !s.accs.any fun e => e.2.uid == h.uid && e.2.seq == f.seq
  else if f.paths = 0 then s.fencePassed c h f f.scope f.pred
  else f.paths / 4 % 2 == 0 || s.fencePassed c h f 2 0x41

/-- R155, R156: what a fence's completion does to the core's caches. -/
def CoreSt.fenceCaches (co : CoreSt) (f : Fence) : CoreSt :=
  if f.paths = 4 then co
  else if f.paths = 0 then (if 1 ≤ f.scope ∧ f.pred &&& 0xaa ≠ 0 then co.invalidate else co)
  else { co with kcache := if f.paths / 2 % 2 = 1 then [] else co.kcache, tcache := if f.paths % 2 = 1 then [] else co.tcache }

/-- FENCE_COMPLETE (R155): the fences of a cohort whose older accesses have performed complete. -/
def execFenceComplete (s : State) : Out :=
  let c := s.arg 0
  let k := s.arg 1
  match s.cohort? c k with
  | none => .next s
  | some h =>
    let done := h.fences.filter fun f => s.fenceDone c h f
    if done = [] then .next s
    else
      let s1 := (s.setCohort c k { h with fences := h.fences.filter fun f => !s.fenceDone c h f }).onCore c fun co =>
        done.foldl (fun (x : CoreSt) f => x.fenceCaches f) co
      .next (s1.notify c k)

end Sys2Proof.Machine
end

