-- ==== Sys2Proof/Machine/Engine.lean ====
section
/-! DEFINITION. The engines of a core and their command chains (R188 to R204), with the register window (R247 to R249). -/

namespace Sys2Proof.Machine

open Sys2Proof

/-! Starting a chain (R189). -/

/-- R189: a head that is no entry of the block's allocation. -/
def headCheck (a : Nat) (w : Who) (t : State) : Option Bad :=
  let q := (w.h.uq a).toNat
  let size := (t.block? w.c w.h.slot).elim 0 (·.size)
  if q % 32 != 0 || size < q + 32 then some { code := 12 } else none

/-- R188, R189: a chain takes the lowest free slot of its engine; the split waits while there is none. -/
def startChain (e a acc : Nat) (s : State) : Out :=
  issue (fun _ _ => { us := [a], acc := acc }) (headCheck a)
    (fun w t => match Tbl.lowestFree ((t.core w.c).eng e).chains 8 with
      | some _ => none
      | none => some (t.waitIn w 6 (.engine e)))
    (fun w t =>
      match Tbl.lowestFree ((t.core w.c).eng e).chains 8 with
      | none => t
      | some n =>
        let q := (w.h.uq a).toNat
        let x : Chain := { block := w.h.slot, uid := w.h.uid, slot := w.k, pc := w.sp.pc, word := w.word, asid := w.h.asid, seq := w.h.seq + 1,
                           head := q, off := q, inRegion := w.h.bisque.isSome && !w.h.handler, handler := w.h.handler }
        (t.onCore w.c fun co => co.onEng e fun y =>
          { chains := Tbl.put y.chains n x, cache := y.cache.filter fun z => z.1 != n }).push .engineEntryReach [w.c, e, n]) s

/-- `CEGO` (R189). -/
def execCego (a : Nat) (s : State) : Out := startChain 0 a 0x30 s

/-- `GXGO` (R189). -/
def execGxgo (a : Nat) (s : State) : Out := startChain 1 a 0x02 s

/-! Entries (R190, R191). -/

/-- A chain entry. -/
structure Entry where
  aux : Nat
  ord : Bool
  reuse : Nat
  nf : Bool
  opf : Nat
  op : Nat
  gen : Nat
  a : Nat
  b : Nat
  g : Nat
  deriving DecidableEq, Repr

/-- R190: the entry that 32 bytes hold. -/
def entryAt (bs : List Byte) : Entry :=
  let h := leNat (bs.take 8)
  { aux := h / 2 ^ 48, ord := h / 2 ^ 47 % 2 == 1, reuse := h / 2 ^ 45 % 4, nf := h / 2 ^ 44 % 2 == 1, opf := h / 2 ^ 40 % 16,
    op := h / 2 ^ 32 % 256, gen := h % 2 ^ 32, a := leNat ((bs.drop 8).take 8), b := leNat ((bs.drop 16).take 8), g := leNat (bs.drop 24) }

/-- R191: a target that is no entry of the allocation. -/
def badTarget (t size : Nat) : Bool := t % 32 != 0 || size < t + 32

/-- R191: the entry raises the chain-format fault on engine `e` in an allocation of `size` bytes. DESIGN CHOICE (log entry 98): so do bits [63:32] of G that
are not zero in a set-full, loop, conditional or link entry, which the table neither uses nor marks 0, and a log2 element size of 5 to 7, which lies outside
its range and in no item of the rule's list. -/
def Entry.malformed (x : Entry) (e size : Nat) : Bool :=
  match x.op with
  | 1 => e != 0 || x.aux != 0 || x.opf != 0 || x.g % 2 ^ 32 == 0 || x.g / 2 ^ 32 != 0
  | 2 => e != 0 || x.opf != 0
  | 3 => e != 0 || x.opf % 8 != 0 || x.g / 2 ^ 38 != 0
  | 4 => e != 0 || x.aux != 0 || x.opf != 0 || x.g % 2 ^ 32 == 0 || x.g / 2 ^ 32 != 0
  | 5 => x.aux != 0 || 4 ≤ x.opf || x.g != 0
  | 6 => x.aux != 0 || x.opf != 0 || x.b != 0 || x.g / 2 ^ 32 != 0 || x.g == 0 || x.g % 16 != 0
  | 7 => x.aux == 0 || x.opf != 0 || x.a != 0 || x.b != 0 || x.g / 2 ^ 32 != 0 || badTarget x.g size
  | 8 => 2 ≤ x.aux || 6 ≤ x.opf % 8 || x.g / 2 ^ 32 != 0 || (if 8 ≤ x.opf then x.g != 0 else badTarget x.g size)
  | 9 => x.aux != 0 || x.opf != 0 || x.a != 0 || x.b != 0 || x.g / 2 ^ 32 != 0 || badTarget x.g size
  | 10 => x.aux != 0 || x.opf != 0 || x.a != 0 || x.b != 0 || x.g != 0
  | 11 => e != 1 || x.aux != 0 || x.opf != 0 || x.g / 2 ^ 38 != 0 || 5 ≤ x.g / 2 ^ 35 || x.g % 4 != 0 ||
      size < x.g % 2 ^ 19 + 4 * (x.g / 2 ^ 19 % 2 ^ 16 + 1)
  | _ => true

/-! The register window (R247 to R249). -/

/-- The cohort that a window slot belongs to (R248). -/
def State.ownerOf (s : State) (c slot : Nat) : Option Nat := Tbl.find? (s.core c).owners slot

/-- R247: a byte of the window that may be written. -/
def State.windowOk (s : State) (c off : Nat) : Bool :=
  let o := off % 0x4000
  match s.ownerOf c (off / 0x4000) with
  | none => false
  | some uid => match s.cohortBy uid with
    | none => false
    | some h => if o < 0x2000 then o / 128 < h.budget else o < 0x2040 && o - 0x2000 < h.budget

/-- R249: one byte of a lane register or of its tag written. -/
def Cohort.windowByte (h : Cohort) (o : Nat) (b : Byte) : Cohort :=
  if o < 0x2000 then
    let r := h.vreg (o / 128)
    let l := o % 128 / 4
    let old := (r.lane l).toNat
    let sh := 8 * (o % 4)
    let new := BitVec.ofNat 32 (old - old / 2 ^ sh % 256 * 2 ^ sh + b.toNat * 2 ^ sh)
    { h with v := Tbl.put h.v (o / 128) { r with val := (List.range 32).map fun j => if j = l then new else r.lane j }, dirty := insNat h.dirty (o / 128) }
  else
    let r := h.vreg (o - 0x2000)
    { h with v := Tbl.put h.v (o - 0x2000) { r with tag := b.toNat % 64 } }

/-- R249: the poison of a lane word after a window write. -/
def Cohort.windowPoison (h : Cohort) (word : Nat) (bad : Bool) : Cohort :=
  let r := h.vreg (word / 32)
  let m : Mask := 1#32 <<< (word % 32)
  { h with v := Tbl.put h.v (word / 32) { r with poison := if bad then r.poison ||| m else r.poison &&& ~~~m } }

/-- R397: the bytes of one granule written where they stand by an engine, whole doublewords as such, with the poison that they bring. -/
def State.granuleWrite (s : State) (g : Nat) (bs : List (Nat × Byte × Bool)) : State :=
  let half (d : Nat) : List (Nat × List Byte) :=
    let mine := bs.filter fun x => x.1 / 8 == d
    let whole := (List.range 8).map fun i => mine.reverse.find? fun x => x.1 % 8 == i
    if whole.all Option.isSome then [(8 * d, whole.filterMap fun o => o.map fun x => x.2.1)] else mine.map fun x => (x.1, [x.2.1])
  let ws := half (2 * g) ++ half (2 * g + 1)
  let s1 := if isHomed (16 * g) then s.land ws else ws.foldl (fun (t : State) w => t.homeWrite w.1 w.2) s
  if bs.any (·.2.2) then s1.taint (16 * g) 16
  else if (List.range 16).all fun i => bs.any fun x => x.1 % 16 == i then { s1 with poison := remNat s1.poison g }
  else s1

/-- Bytes written at some addresses of one kind, granule by granule; each line of near and far memory takes one write at its slice (R278). -/
def State.granulesWrite (s : State) (l : List (Nat × Byte × Bool)) : State :=
  let lines := ((l.filter fun x => isHomed x.1).map fun x => x.1 / 128).eraseDups
  ((l.map fun x => x.1 / 16).eraseDups).foldl (fun (t : State) g => t.granuleWrite g (l.filter fun x => x.1 / 16 == g)) (lines.foldl State.lineWritten s)

/-- R248: line `r` of a cohort that is out stands in its image: written back where the core's cache still holds it dirty, and zero where it was never
written. -/
def State.imageLine (s : State) (uid r : Nat) : State :=
  match s.cohortBy uid with
  | none => s
  | some h =>
    let s1 := if h.dirty.contains r || h.imaged.contains r then s else s.homeWrite (h.image + 128 * r) (leBytes 128 0)
    ((s1.writeLine uid r).dropLine uid r).onUid uid fun y => { y with imaged := insNat y.imaged r }

/-- R249: bytes of a slot's window written to a resident cohort. -/
def Cohort.windowBytes (h : Cohort) (bs : List (Nat × Byte × Bool)) : Cohort :=
  let words := ((bs.filter fun x => x.1 < 0x2000).map fun x => x.1 / 4).eraseDups
  words.foldl (fun (y : Cohort) wd =>
    let mine := bs.filter fun x => x.1 / 4 == wd
    if mine.any (·.2.2) then y.windowPoison wd true
    else if (List.range 4).all fun i => mine.any fun x => x.1 % 4 == i then y.windowPoison wd false else y)
    (bs.foldl (fun (y : Cohort) x => y.windowByte x.1 x.2.1) h)

/-- R248, R249: bytes of one slot's window written to its owner: to its cached lines where it is resident, and otherwise to its image. -/
def State.windowWrite (s : State) (uid : Nat) (bs : List (Nat × Byte × Bool)) : State :=
  let ls := (bs.filterMap fun x => if x.1 < 0x2000 then some (x.1 / 128) else none).eraseDups
  match s.whereIs uid with
  | some (c, k) => (ls.foldl (fun (t : State) r => t.fillLine c k r) s).onCohort c k (·.windowBytes bs)
  | none =>
    match s.cohortBy uid with
    | none => s
    | some h =>
      let tags := bs.filter fun x => 0x2000 ≤ x.1
      let s1 := ls.foldl (fun (t : State) r => t.imageLine uid r) s
      (s1.granulesWrite (bs.map fun x => (h.image + x.1, (if x.1 < 0x2000 then x.2.1 else x.2.1 &&& 0x3f), x.2.2))).onOut uid fun y =>
        tags.foldl (fun (y : Cohort) x => y.windowByte x.1 x.2.1) y

/-- R248: the owners of every window slot, by core and slot. -/
def State.windowOwners (s : State) : Tbl Nat :=
  s.cores.flatMap fun (e : Nat × CoreSt) => e.2.owners.map fun (x : Nat × Nat) => (e.1 * 32 + x.1, x.2)

/-- BANK_ACCESS (R200, R229, R249): a bank serves an access that has arrived. An engine's write sets the full bits of its granules, and one to a register
window goes to the cohort that its entry was bound to. -/
def execBankAccess (s : State) : Out :=
  let id := s.arg 0
  match Tbl.find? s.accs id with
  | none => .next s
  | some a =>
    match regionOf (a.lanes.headD { lane := 0, va := 0 }).pa with
    | .core _ .regWindow _ =>
      if a.stage != 0 then .next s
      else if s.overtakes id a then .next (s.push .bankAccess [id])
      else .next ((s.windowWrite a.owner (a.lanes.map fun x => (x.pa % 0x4000, BitVec.ofNat 8 x.x, x.y == 1))).answer id a [] 0 [])
    | _ =>
      let s1 := s.bankServe id
      if a.fills && a.stage == 0 && (Tbl.find? s1.accs id).elim true (·.stage != 0) then .next (s1.fillGranules ((a.lanes.map (·.pa / 16)).eraseDups))
      else .next s1

/-! Data (R194 to R200). -/

/-- Where a byte that an entry writes comes from. -/
inductive ESrc where
  | mem (va : Nat)
  | const (b : Byte)
  deriving DecidableEq, Repr

/-- A signed field of 26 bits. -/
def stride26 (x : Nat) : Int := Num.sintOf 26 x

/-- An address moved by a signed distance. -/
def addI (a : Nat) (d : Int) : Nat := (((a : Int) + d) % (2 ^ 64 : Nat)).toNat

/-- R194 to R197: what a data entry writes: for each of its units, bytes from sources to addresses. `idx` is a gather's index
list, and `pass` what a trailer holds. -/
def Entry.units (x : Entry) (idx : List Nat) (pass : Nat) : List (List (ESrc × Nat)) :=
  let row (src dst n : Nat) : List (ESrc × Nat) := (List.range n).map fun j => (.mem (src + j), dst + j)
  let rowb := x.g % 2 ^ 12 + 1
  match x.op with
  | 1 => (List.range (x.g % 2 ^ 32)).map fun i => [(.mem (x.a + i), x.b + i)]
  | 2 => (List.range (x.aux + 1)).map fun (r : Nat) =>
      row (addI x.a (r * stride26 (x.g / 2 ^ 12 % 2 ^ 26))) (addI x.b (r * stride26 (x.g / 2 ^ 38))) rowb
  | 3 => ((List.range (x.aux + 1)).map fun (r : Nat) => row (addI x.a (r * stride26 (x.g / 2 ^ 12 % 2 ^ 26))) (x.b + r * rowb) rowb) ++
      (if 8 ≤ x.opf then
        [((leBytes 8 (pass * 2 ^ 32 + x.gen)).zipIdx.map fun v => (.const v.1, x.b + ((x.aux + 1) * rowb + 15) / 16 * 16 + v.2))]
       else [])
  | 4 => (List.range (x.g % 2 ^ 32)).map fun i => [(.const (BitVec.ofNat 8 (x.b / 256 ^ ((x.a + i) % 8))), x.a + i)]
  | _ =>
    let k := 2 ^ (x.g / 2 ^ 35 % 8)
    idx.zipIdx.map fun j => row (x.a + j.1 * k) (x.b + j.2 * k) k

/-- R197, R199: an engine write may go to the address; a gather's stays in the issuing core. -/
def writeTargetOk (c e pa : Nat) : Bool :=
  if e = 0 then true
  else match regionOf pa with
    | .core c' p _ => c' == c && (p == .scratch || p == .tile || p == .regWindow)
    | _ => false

/-- The bytes of one unit translated, or the address that fails. -/
def State.translateUnit (s : State) (c e asid gang : Nat) : List (ESrc × Nat) → Except Nat (List EByte) × State
  | [] => (.ok [], s)
  | (src, dst) :: r =>
    let rd : Except Nat EByte × State := match src with
      | .const b => (.ok { src := none, val := b, va := dst, pa := 0 }, s)
      | .mem va => match s.findNow c asid gang .engRead va with
        | (.ok pa _, s1) => (.ok { src := some pa, sva := va, val := 0, va := dst, pa := 0 }, s1)
        | (_, s1) => (.error va, s1)
    match rd with
    | (.error va, s1) => (.error va, s1)
    | (.ok b, s1) =>
      match s1.findNow c asid gang (if e = 0 then .copyWrite else .gatherWrite) dst with
      | (.ok pa _, s2) =>
        if !writeTargetOk c e pa then (.error dst, s2)
        else match State.translateUnit s2 c e asid gang r with
          | (.ok l, s3) => (.ok ({ b with pa := pa } :: l), s3)
          | z => z
      | (_, s2) => (.error dst, s2)

/-- The units translated up to the first that fails, with the address that fails. -/
def State.translateUnits (s : State) (c e asid gang : Nat) : List (List (ESrc × Nat)) → List (List EByte) × Option Nat × State
  | [] => ([], none, s)
  | u :: r =>
    match s.translateUnit c e asid gang u with
    | (.error va, s1) => ([], some va, s1)
    | (.ok l, s1) =>
      let z := State.translateUnits s1 c e asid gang r
      (l :: z.1, z.2)

/-- R247: a register window refuses a write at a physical address. -/
def State.refusesWrite (s : State) (pa : Nat) : Bool :=
  match regionOf pa with
  | .core c .regWindow off => !s.windowOk c off
  | _ => false

/-- R247: the first of some virtual addresses whose write a register window refuses. -/
def State.windowRefuses (s : State) (c e asid gang : Nat) (vas : List Nat) : Option Nat :=
  vas.find? fun va => match (s.findNow c asid gang (if e = 0 then .copyWrite else .gatherWrite) va).1 with
    | .ok pa _ => s.refusesWrite pa
    | _ => false

/-- R199, R245: the blocks of the issuing core's L1 that some bytes overlap go, dirty ones home first. -/
def State.dropBlocks (s : State) (c : Nat) (pas : List Nat) : State :=
  (((pas.filter isHomed).map (· / 128)).eraseDups).foldl (fun (t : State) line => match (t.core c).l1Find line with
    | some (k, _) => t.evictL1 c k
    | none => t) s

/-- An access of a chain that leaves the core: one lane for each byte, or the operand of a signal. -/
def chainAccess (c e n : Nat) (kind : AccKind) (scope size reuse : Nat) (lanes : List LaneAcc) : Access :=
  { core := c, uid := 0, seq := 0, kind := kind, scope := scope, size := size, path := 0, reuse := reuse, lanes := lanes, data := [], stage := 0, pix := 0
    chain := chainCode e n }

/-- R190, R199, R275: the reads that an entry needs leave, and the chain waits for them. -/
def State.chainReads (s : State) (c e n reuse : Nat) (p : Plan) : State :=
  let lanes := p.bytes.zipIdx.filterMap fun b => b.1.src.map fun pa => ({ lane := b.2, va := b.1.sva, pa := pa } : LaneAcc)
  (byteRuns lanes).foldl (fun (t : State) r =>
    (t.launchAcc (chainAccess c e n .load 2 1 reuse r)).onChain c e n fun y => { y with reads := y.reads ++ [t.nextId] })
    (s.onChain c e n fun y => { y with plan := some p, lost := none })

/-- R199, R200, R245, R248: the bytes that an entry writes leave; a write to a register window is for the cohort that owned the slot at the reach. -/
def State.chainWrites (s : State) (c e n : Nat) (ch : Chain) (nf : Bool) (lanes : List LaneAcc) : State :=
  (byteRuns lanes).foldl (fun (t : State) r =>
    let owner := match regionOf (r.headD { lane := 0, va := 0 }).pa with
      | .core c' .regWindow off => Tbl.at ch.owners (c' * 32 + off / 0x4000) 0
      | _ => 0
    (t.launchAcc { chainAccess c e n .store 2 1 0 r with fills := !nf, owner := owner }).onChain c e n fun y =>
      { y with pending := y.pending ++ [t.nextId] }) (s.dropBlocks c (lanes.map (·.pa)))

/-! Bound checks of engine writes (R401). -/

/-- The elements of a register's range that some written bytes touch, from the range's start. -/
def BoundReg.touched (r : BoundReg) (l : List (Nat × Byte)) : List Nat :=
  let k := r.elemSize.getD 1
  ((l.filter fun x => r.start ≤ x.1 && x.1 < r.stop).map fun x => (x.1 - r.start) / k).eraseDups

/-- The value of an element, if it is written whole. -/
def BoundReg.wholeElem (r : BoundReg) (l : List (Nat × Byte)) (i : Nat) : Option Nat :=
  match r.elemSize with
  | none => none
  | some k =>
    let bs := (List.range k).map fun j => (l.find? fun x => x.1 == r.start + i * k + j).map Prod.snd
    if bs.all Option.isSome then some (leNat (bs.filterMap id)) else none

/-- R400, R401: an element fails: one written in part counts as of mismatched size. -/
def BoundReg.elemFails (r : BoundReg) (l : List (Nat × Byte)) (i : Nat) : Bool :=
  match r.wholeElem l i with
  | none => true
  | some v => r.outside (Num.valueOf r.fmt 0 v)

/-- R401: the byte that is written at an address once the clamping registers have acted, the lowest-numbered first. -/
def clampByte (rs : List (Nat × BoundReg)) (l : List (Nat × Byte)) (x : Nat × Byte) : Byte :=
  (rs.findSome? fun e =>
    let r := e.2
    match r.elemSize with
    | none => none
    | some k =>
      if r.action = 1 ∧ r.start ≤ x.1 ∧ x.1 < r.stop then
        match r.wholeElem l ((x.1 - r.start) / k) with
        | some v => if r.outside (Num.valueOf r.fmt 0 v) then some (BitVec.ofNat 8 (r.clamp v / 256 ^ ((x.1 - r.start) % k))) else none
        | none => none
      else none).getD x.2

/-- R345, R400: bits of `bstat` set of a cohort that is out, which its restore reads from its image. -/
def State.awayBstat (s : State) (c uid : Nat) (m : BitVec 32) : State :=
  match (s.core c).away.find? (·.uid == uid) with
  | none => s
  | some h =>
    let a := h.image + 0x20b0
    (s.onCore c fun co => { co with away := co.away.map fun x => if x.uid = uid then { x with bstat := x.bstat ||| m } else x }).putImg a
      (leBytes 4 (s.peekN a 4 ||| m.toNat))

/-- The armed bound registers of a context. -/
def State.armedBounds (s : State) (asid : Nat) : Tbl BoundReg :=
  (List.range 32).filterMap fun n => if (s.boundReg asid n).armed then some (n, s.boundReg asid n) else none

/-- R401: the checks of an entry's writes against some registers: `bstat` bits of the issuing cohort, and an error record for each register that would
trap. -/
def State.engineBounds (s : State) (c uid asid off : Nat) (regs : Tbl BoundReg) (l : List (Nat × Byte)) : List (Nat × BoundReg) × State :=
  let rs : List (Nat × BoundReg) := regs.filter fun e => l.any fun x => e.2.start ≤ x.1 && x.1 < e.2.stop
  let bad := rs.filterMap fun e =>
    let f := (e.2.touched l).filter fun i => e.2.elemFails l i
    if f = [] then none else some (e.1, e.2, f.length)
  let m : BitVec 32 := bad.foldl (fun m e => m ||| (1#32 <<< e.1)) 0
  let s1 := match s.whereIs uid with
    | some (c', k) => s.setBstat c' k m
    | none => s.awayBstat c uid m
  (rs, bad.foldl (fun (t : State) e => if e.2.1.action = 2 then t.errRec 0 c 8 e.1 0 asid e.2.2 off else t) s1)

/-! Reaching an entry (R192, R193, R203). -/

/-- R193: a chain ends: its slot is free, and what waits for it goes on. -/
def State.endChain (s : State) (c e n : Nat) (x : Chain) : State :=
  let s1 := (s.onCore c fun co => co.onEng e fun y => { chains := Tbl.del y.chains n, cache := y.cache.filter fun z => z.1 != n }).retryHolds c
    fun y => y == .engine e
  let s2 := match s1.whereIs x.uid with
    | some (c', k) => s1.notify c' k
    | none => s1
  s2.checkBlock c x.block

/-- R203: the chain stops at a faulting entry, and the fault is on its way to its cohort. Subcode 2 is poison. -/
def State.chainFault (s : State) (c e n sub va progress : Nat) : State :=
  (s.onChain c e n fun x => { x with faulted := true, progress := progress, entry := [], plan := none, reads := [], lost := none, due := none }).push .lateEngineFault [c, e, n, sub, va]

/-- R193, R204, R317: a chain that goes no further ends once its writes to peers are acknowledged. -/
def State.giveUpChain (s : State) (c e n : Nat) (x : Chain) : State :=
  if x.pending = [] then s.endChain c e n x
  else (s.onChain c e n fun y => { y with state := 2 }).push .engineEntryReach [c, e, n]

/-- R192: the bytes of the entry at an offset as the engine takes them, from its cache where the generation word there is the same; none where what it
reads is poisoned. -/
def State.reachBytes (s : State) (c e n base off : Nat) : Option (List Byte) :=
  let a := coreBase c + base + off
  let old := ((s.core c).eng e).cache.find? fun z => z.1 == n && z.2.1 == off
  match old with
  | some z =>
    if s.poisoned a 4 then none
    else if leNat (z.2.2.take 4) = s.peekN a 4 then some z.2.2
    else if s.poisoned a 32 then none else some (s.peekBytes a 32)
  | none => if s.poisoned a 32 then none else some (s.peekBytes a 32)

/-- R192, R248, R401: the chain has its snapshot of the entry at an offset, of the owners of the window slots and of the bound registers. -/
def State.reachEntry (s : State) (c e n off asid : Nat) (bs : List Byte) : State :=
  (s.onChain c e n fun x => { x with
    entry := bs, owners := s.windowOwners, regs := s.armedBounds asid, drained := false, plan := none, reads := [], lost := none, due := none }).onCore c fun co => co.onEng e fun y =>
    { y with cache := ((n, off, bs) :: y.cache.filter fun z => !(z.1 == n && z.2.1 == off)).take 16 }

/-- The chain at another entry, which it reaches next. -/
def State.chainTo (s : State) (c e n off : Nat) : State :=
  (s.onChain c e n fun x => { x with off := off, progress := 0, state := 0, entry := [] }).push .engineEntryReach [c, e, n]

/-- The chain still at its entry, and looked at again. -/
def State.chainStays (s : State) (c e n : Nat) : State := s.push .engineEntryReach [c, e, n]

/-- R197: a gather's index list, unless a granule of it is poisoned. -/
def State.indexList (s : State) (c base : Nat) (x : Entry) : Option (List Nat) :=
  let a := coreBase c + base + x.g % 2 ^ 19
  let n := x.g / 2 ^ 19 % 2 ^ 16 + 1
  if s.poisoned a (4 * n) then none else some ((List.range n).map fun i => s.peekN (a + 4 * i) 4)

/-- R195: the units of an entry before its trailer. -/
def Entry.dataUnits (x : Entry) : Nat := if x.op = 3 then x.aux + 1 else 2 ^ 32

/-- R194: writing some units would change the source bytes of others. -/
def State.spoils (s : State) (c asid gang : Nat) (l : List EByte) (rest : List (ESrc × Nat)) : Bool :=
  rest.any fun u => match u.1 with
    | .const _ => false
    | .mem va => l.any (·.va == va) || (match (s.findNow c asid gang .engRead va).1 with
      | .ok pa _ => l.any (·.pa == pa)
      | _ => false)

/-- R193: the `aux - remaining` count of a chain's innermost loop. -/
def Chain.pass (ch : Chain) : Nat :=
  match ch.loops.getLast? with
  | some t => t.2.2 - t.2.1
  | none => 0

/-- R197, R203: the units of an entry, or the fault of a gather whose index list is poisoned or names a misaligned element: subcode, address and progress. -/
def State.entryUnits (s : State) (c : Nat) (ch : Chain) (bl : Block) (x : Entry) : Except (Nat × Nat × Nat) (List (List (ESrc × Nat))) :=
  match (if x.op = 11 then s.indexList c bl.base x else some []) with
  | none => .error (2, x.g % 2 ^ 19, ch.progress)
  | some l =>
    let k := 2 ^ (x.g / 2 ^ 35 % 8)
    match (if x.op = 11 then (List.range l.length).find? fun j => (x.a + l.getD j 0 * k) % k != 0 else none) with
    | some j => .error (0, x.a + l.getD j 0 * k, max ch.progress j)
    | none => .ok (x.units l ch.pass)

/-- R247: the address of a byte that a register window refuses, of all those that an entry has yet to write when it is reached. -/
def State.refusedAtReach (s : State) (c e : Nat) (ch : Chain) (bl : Block) (x : Entry) : Option Nat :=
  if ! [1, 2, 3, 4, 11].contains x.op then none
  else match s.entryUnits c ch bl x with
    | .error _ => none
    | .ok all => s.windowRefuses c e ch.asid bl.gang (((all.drop ch.progress).flatten).map Prod.snd)

/-- R194 to R200: what an entry has read is written, within the bounds that the registers of its reach set (R401); the chain goes on, stays for the units that
are left, or faults once what it writes has performed. -/
def State.writePlan (s : State) (c e n : Nat) (ch : Chain) (x : Entry) (p : Plan) : State :=
  let vals := p.bytes.map fun b => (b.va, b.val)
  let bd := s.engineBounds c ch.uid ch.asid ch.off ch.regs vals
  let lanes := p.bytes.map fun b => ({ lane := 0, va := b.va, pa := b.pa, x := (clampByte bd.1 vals (b.va, b.val)).toNat, y := if b.bad then 1 else 0 } : LaneAcc)
  let s1 := (bd.2.chainWrites c e n ch x.nf lanes).onChain c e n fun y => { y with plan := none, due := p.fault }
  if p.fault.isSome then s1.chainStays c e n
  else if p.more then (s1.onChain c e n fun y => { y with progress := p.next }).chainStays c e n
  else s1.chainTo c e n (ch.off + 32)

/-- R194 to R203: a data entry's units, from the one that a resumed chain has reached: their reads leave, or, where there is nothing to read, their
writes. A trailer waits until every write is acknowledged (R195). DESIGN CHOICE (log entry 89): an entry that fails performs the units before the one that
fails, but none where those would change source bytes that it has yet to read, so that a resumed one still reads them as they stood. -/
def State.startUnits (s : State) (c e n : Nat) (ch : Chain) (bl : Block) (x : Entry) : State :=
  if x.dataUnits ≤ ch.progress && ch.pending != [] then s
  else match s.entryUnits c ch bl x with
    | .error f => s.chainFault c e n f.1 f.2.1 f.2.2
    | .ok all =>
      let last := if ch.progress < x.dataUnits then min all.length x.dataUnits else all.length
      let units := (all.take last).drop ch.progress
      let z := s.translateUnits c e ch.asid bl.gang units
      let flat := z.1.flatten
      let rest := (units.drop z.1.length).flatten
      match z.2.2.fsLinks 4 (coreRouter c) (flat.map (·.pa) ++ flat.filterMap (·.src)) with
      | none => z.2.2.chainStays c e n
      | some s1 =>
        if z.2.1.isSome && s1.spoils c ch.asid bl.gang flat rest then s1.chainFault c e n 0 (z.2.1.getD 0) ch.progress
        else
          let p : Plan := { bytes := flat, fault := z.2.1.map fun va => (0, va, ch.progress + z.1.length), next := last, more := last < all.length }
          if flat.all (·.src.isNone) then s1.writePlan c e n ch x p else s1.chainReads c e n x.reuse p

/-- R194 to R203, R384: a data entry goes on: from the fault that its writes held back, from what it has read, or from its next units. A read that failed is an
address error of the chain. DESIGN CHOICE (log entry 94): an entry reads all the bytes of its units before it writes any, and a later entry of the chain reads what
an earlier one has written where that write has gone before it. -/
def State.dataEntry (s : State) (c e n : Nat) (ch : Chain) (bl : Block) (x : Entry) : State :=
  match ch.due, ch.plan with
  | some f, _ => if ch.pending = [] then s.chainFault c e n f.1 f.2.1 f.2.2 else s
  | none, some p =>
    if ch.reads != [] then s
    else match ch.lost with
      | some va => s.chainFault c e n 0 va ch.progress
      | none => s.writePlan c e n ch x p
  | none, none => s.startUnits c e n ch bl x

/-- R193, R202: a signal entry: the decrement goes where atomics of its scope perform. -/
def State.signalEntry (s : State) (c e n : Nat) (ch : Chain) (bl : Block) (x : Entry) : State :=
  if x.a % 8 != 0 then s.chainFault c e n 0 x.a 0
  else match s.findNow c ch.asid bl.gang .atomic x.a with
    | (.ok pa _, s1) =>
      match s1.fsLinks 4 (coreRouter c) [pa] with
      | none => s1.chainStays c e n
      | some s2 =>
        let s3 := s2.dropBlocks c [pa]
        let one : LaneAcc := { lane := 0, va := x.a, pa := pa, x := if x.b = 0 then 1 else x.b }
        ((s3.launchAcc (chainAccess c e n .sub x.opf 8 0 [one])).onChain c e n fun y => { y with pending := y.pending ++ [s3.nextId] }).chainTo c e n (ch.off + 32)
    | (_, s1) => s1.chainFault c e n 0 x.a 0

/-- The core store that holds a granule, if one does. -/
def storeOf (pa : Nat) : Option (Nat × Part) :=
  match regionOf pa with
  | .core c p _ => if p = .scratch ∨ p = .tile then some (c, p) else none
  | _ => none

/-- R200: a set-full entry. -/
def State.setFullEntry (s : State) (c e n : Nat) (ch : Chain) (bl : Block) (x : Entry) : State :=
  if x.a % 16 != 0 then s.chainFault c e n 0 x.a 0
  else
    let z := s.translateUnits c 0 ch.asid bl.gang ((List.range (x.g / 16)).map fun i => [(.const 0, x.a + 16 * i)])
    let pas := z.1.flatten.map (·.pa)
    match z.2.1 with
    | some va => z.2.2.chainFault c e n 0 va 0
    | none =>
      match pas with
      | [] => z.2.2.chainTo c e n (ch.off + 32)
      | p :: _ =>
        if (storeOf p).isNone || pas.any fun q => storeOf q != storeOf p then z.2.2.chainFault c e n 0 x.a 0
        else (z.2.2.fillGranules (pas.map (· / 16))).chainTo c e n (ch.off + 32)

/-- R193: the loop records after a loop entry, with the next offset; none for a fifth nested loop. -/
def Chain.loop (ch : Chain) (x : Entry) : Option (List (Nat × Nat × Nat) × Nat) :=
  let top := match ch.loops.getLast? with
    | some t => if t.1 = ch.off then some t else none
    | none => none
  let next (rest : List (Nat × Nat × Nat)) (rem aux : Nat) : List (Nat × Nat × Nat) × Nat :=
    if rem = 0 then (rest, ch.off + 32) else (rest ++ [(ch.off, rem, aux)], x.g)
  match top with
  | some t => some (next ch.loops.dropLast (t.2.1 - 1) t.2.2)
  | none => if 4 ≤ ch.loops.length then none else some (next ch.loops (x.aux - 1) x.aux)

/-- R193: a conditional entry reads its word: the chain goes on, or pauses. -/
def State.condEntry (s : State) (c e n : Nat) (ch : Chain) (bl : Block) (x : Entry) : State :=
  let k := if x.aux = 1 then 8 else 4
  if x.a % k != 0 then s.chainFault c e n 0 x.a 0
  else match ch.plan with
    | none =>
      (match s.findNow c ch.asid bl.gang .engRead x.a with
        | (.ok pa _, s0) =>
          (match s0.fsLinks 4 (coreRouter c) [pa] with
            | none => s0.chainStays c e n
            | some s1 => s1.chainReads c e n x.reuse
                { bytes := (List.range k).map fun i => { src := some (pa + i), sva := x.a + i, val := 0, va := x.a + i, pa := pa + i } })
        | (_, s1) => s1.chainFault c e n 0 x.a 0)
    | some p =>
      if ch.reads != [] then s
      else if ch.lost.isSome then s.chainFault c e n 0 x.a 0
      else if p.bytes.any (·.bad) then s.chainFault c e n 2 x.a 0
      else
        let s1 := s.onChain c e n fun y => { y with plan := none }
        let hit := condU (x.opf % 8) (leNat (p.bytes.map (·.val))) (x.b % 256 ^ k)
        if 8 ≤ x.opf then
          (if hit then s1.chainTo c e n (ch.off + 32)
           else (s1.onChain c e n fun y => { y with state := 1 }).push .conditionalWaitPauseEnd [c, e, n])
        else s1.chainTo c e n (if hit then x.g else ch.off + 32)

/-- A store goes to the scratchpad of core `c`, or may still do so: an address that does not translate yet is taken to. -/
def State.toScratch (s : State) (c : Nat) (h : Cohort) (gang : Nat) (lanes : List LaneAcc) : Bool :=
  lanes.any fun a => match (s.findNow c h.asid gang .store a.va).1 with
    | .ok pa _ => (match regionOf pa with | .core c' .scratch _ => c' == c | _ => false)
    | _ => true

/-- R189: older stores of the cohort to the core's own scratchpad have not performed: queued, on their way, or kept by a trap for the return from it. -/
def State.chainWaits (s : State) (c : Nat) (x : Chain) : Bool :=
  (match s.cohortBy x.uid with
    | some h =>
      let gang := (s.chainBlock c x).gang
      h.stores.any (fun st => st.seq < x.seq && s.toScratch c h gang st.lanes) ||
        ((h.handler || (s.whereIs x.uid).isNone) && (s.frameEntries h x.seq).any fun r => r.kind == 1 && s.toScratch c h gang r.lanes)
    | none => false) ||
  s.accs.any fun a => a.2.uid == x.uid && a.2.seq < x.seq && a.2.stage == 0 && a.2.kind != .load && a.2.lanes.any fun l =>
    match regionOf l.pa with | .core c' .scratch _ => c' == c | _ => false

/-- R193: the scopes at which the chain's earlier accesses have to have performed before an entry acts: the device for an entry with ord, a set-full, a
conditional and an end, which waits for peers too, and a signal's own. -/
def Entry.drains (x : Entry) : List Nat :=
  (if x.ord then [2] else []) ++ (match x.op with | 5 => [x.opf] | 6 => [2] | 8 => [2] | 10 => [2, 3] | _ => [])

/-- R193: none of the chain's writes has yet to perform at one of some scopes. -/
def State.chainClear (s : State) (ch : Chain) (scopes : List Nat) : Bool :=
  ch.pending.all fun id => (Tbl.find? s.accs id).elim true fun a => !(scopes.any a.counts)

/-- R193: an entry that the chain has reached acts, once what it drains has performed. -/
def State.actEntry (s : State) (c e n : Nat) (ch : Chain) (bl : Block) (x : Entry) : State :=
  if !ch.drained && !s.chainClear ch x.drains then s
  else
    let s1 := if ch.drained then s else s.onChain c e n fun y => { y with drained := true }
    match x.op with
    | 5 => s1.signalEntry c e n ch bl x
    | 6 => s1.setFullEntry c e n ch bl x
    | 7 => match ch.loop x with
      | some (l, off) => (s1.onChain c e n fun y => { y with loops := l }).chainTo c e n off
      | none => s1.chainFault c e n 0 0 0
    | 8 => s1.condEntry c e n ch bl x
    | 9 => s1.chainTo c e n x.g
    | 10 => s1.endChain c e n ch
    | _ => s1.dataEntry c e n ch bl x

/-- A fault of the chain is still on its way to its cohort. -/
def State.faultDue (s : State) (c e n : Nat) : Bool := s.agenda.any fun d => d.row == .lateEngineFault && d.ops.take 3 == [c, e, n]

/-- R192, R203, R247: a chain reaches its next entry, takes its snapshot, and acts on it unless it faults. -/
def State.reachNext (s : State) (c e n : Nat) (ch : Chain) (bl : Block) : State :=
  if s.chainWaits c ch then s.chainStays c e n
  else if bl.size < ch.off + 32 then s.chainFault c e n 0 ch.off 0
  else
    match s.reachBytes c e n bl.base ch.off with
    | none => s.chainFault c e n 2 ch.off 0
    | some bs =>
      let s1 := s.reachEntry c e n ch.off ch.asid bs
      let x := entryAt bs
      if x.malformed e bl.size then s1.chainFault c e n 0 ch.off 0
      else
        let ch1 : Chain := { ch with entry := bs, owners := s.windowOwners, regs := s.armedBounds ch.asid, drained := false, plan := none, reads := [], lost := none, due := none }
        match s1.refusedAtReach c e ch1 bl x with
        | some va => s1.chainFault c e n 0 va ch.progress
        | none => s1.actEntry c e n ch1 bl x

/-- ENGINE_ENTRY_REACH (R192, R193): a chain reaches an entry, or goes on with the one that it has reached. A chain of a killed launch stops at its next reach,
and where a conditional entry in wait mode reads its word again (R204); a faulted one whose cohort has gone stops once its fault has been recorded (R203). -/
def execEngineEntryReach (s : State) : Out :=
  let c := s.arg 0
  let e := s.arg 1
  let n := s.arg 2
  match s.chainAt c e n with
  | none => .next s
  | some ch =>
    let bl := s.chainBlock c ch
    if ch.state == 2 then .next (s.giveUpChain c e n ch)
    else if ch.faulted then
      (if (s.cohortBy ch.uid).elim true (·.ending) && !s.faultDue c e n then .next (s.giveUpChain c e n ch) else .next s)
    else if bl.killed && (ch.entry == [] || ((entryAt ch.entry).op == 8 && ch.plan.isNone)) then .next (s.giveUpChain c e n ch)
    else if ch.state != 0 then .next s
    else if ch.entry != [] then .next (s.actEntry c e n ch bl (entryAt ch.entry))
    else .next (s.reachNext c e n ch bl)

/-- CONDITIONAL_WAIT_PAUSE_END (R193): the pause of a conditional entry ends, and the chain reads the word again. -/
def execConditionalWaitPauseEnd (s : State) : Out :=
  let c := s.arg 0
  let e := s.arg 1
  let n := s.arg 2
  match s.chainAt c e n with
  | none => .next s
  | some ch =>
    if ch.state != 1 then .next s
    else .next ((s.onChain c e n fun y => { y with state := 0 }).chainStays c e n)

/-- R337: the chain-resume record of a stopped chain. -/
def Chain.resume (x : Chain) (e n : Nat) : Resume :=
  { eng := e, slot := n, off := x.off, progress := x.progress, loops := x.loops.map fun l => (l.1, l.2.1) }

/-- R341: a rollback of a cohort that is out, in its image: the snapshot's lines and tags take the place of the lane lines, whose cached copies are
dropped, the entries of the frame younger than the `BISQ` go, and one split stands at the resume address. -/
def State.rollbackOut (s : State) (c : Nat) (h : Cohort) (b : Bisque) : State :=
  let img := h.image
  let z := h.rollback b
  let s1 := b.regs.foldl (fun (t : State) e =>
    ((t.saveLine z e.1).putImg (img + 0x2000 + e.1) (leBytes 1 e.2.tag)).dropLine h.uid e.1) ((s.settle img 0x10000).dropTransfers c h b.seq)
  let reps := ((List.range (min 32 (s1.peekN (img + 0x8020) 8))).map fun i => (s1.getReplay (img + 0x8100 + 0x340 * i)).1).filter fun r => r.seq ≤ b.seq
  let s2 := reps.zipIdx.foldl (fun (t : State) e => e.1.put t (img + 0x8100 + 0x340 * e.2)) (s1.putImg (img + 0x8020) (leBytes 8 reps.length))
  (s2.saveFlow img z).onOut h.uid fun _ => b.regs.foldl (fun (y : Cohort) e =>
    { y with absent := insNat y.absent e.1, dirty := remNat y.dirty e.1, imaged := insNat y.imaged e.1 }) z

/-- R337, R341: a fault of a chain whose cohort is out: the frame takes its cause, and the trap is pending. One that has a trap pending, or is in its
handler, takes it after its return. -/
def State.faultOut (s : State) (c : Nat) (h : Cohort) (x : Cause) : State :=
  if h.handler || h.pending then s.onOut h.uid fun y => { y with late := y.late ++ [x] }
  else
    let img := h.image
    let x' : Cause := { x with rolled := x.code == 20 }
    let s1 := match h.bisque with
      | some b => if x.code = 20 then s.rollbackOut c h b else s
      | none => s
    let s2 := (s1.putImg (img + 0x8000) (leBytes 8 (x'.word64 true) ++ leBytes 8 x.pc.toNat ++ leBytes 8 (x.len * 2 ^ 32 + x.word) ++
      leBytes 8 x.addr)).putImg (img + 0x8028) (leBytes 8 (if x.res.isSome then 1 else 0))
    let s3 := match x.res with
      | some r => s2.putImg (img + 0xe900) (r.bytes ++ leBytes 16 0)
      | none => s2
    (s3.putImg (img + 0x20a4) (leBytes 4 (s3.peekN (img + 0x20a4) 4 ||| 0x40))).onOut h.uid fun y => { y with pending := true }

/-- LATE_ENGINE_FAULT (R203, R337): the fault of a chain reaches its cohort, which traps at its next boundary; a cohort that has
exited leaves an error of the launch instead. One that is out finds its trap pending (R341). -/
def execLateEngineFault (s : State) : Out :=
  let c := s.arg 0
  let e := s.arg 1
  let n := s.arg 2
  let sub := s.arg 3
  match s.chainAt c e n with
  | none => .next s
  | some ch =>
    let bl := s.chainBlock c ch
    match s.cohortBy ch.uid with
    | none => .next ((s.launchErr bl.launch 2 bl.stage c ch.slot ch.pc.toNat).giveUpChain c e n ch)
    | some h =>
      if h.ending then .next ((s.launchErr bl.launch 2 bl.stage c ch.slot ch.pc.toNat).giveUpChain c e n ch)
      else
        let roll := ch.inRegion && (match h.bisque with | some b => b.seq < ch.seq | none => false)
        let x : Cause := { code := if roll then 20 else 22, sub := if roll then 1 else sub, pc := ch.pc, word := ch.word, addr := s.arg 4,
                           res := if roll then none else some (ch.resume e n) }
        let s1 := if roll then s.giveUpChain c e n ch else s
        match s1.whereIs ch.uid with
        | some (c', k) =>
          .next ((s1.onCohort c' k fun y =>
            let z : Cohort := { y with late := y.late ++ [x] }
            if y.handler then z else z.halt).notify c' k)
        | none => .next (s1.faultOut c h x)

end Sys2Proof.Machine
end

