-- ==== Sys2Proof/Machine/Fabric.lean ====
section
/-! DEFINITION. The scale-up fabric (R381 to R384, R418): packets and acknowledgements, lanes, accesses to peers that are answered or fail, and
accesses that a peer makes here. -/

namespace Sys2Proof.Machine

open Sys2Proof

/-- A link changed. -/
def State.onLink (s : State) (l : Nat) (f : Link → Link) : State := { s with links := Tbl.put s.links l (f (Tbl.at s.links l {})) }

/-! Answers to the package's own accesses (R384). -/

/-- R384: an access to a peer is over; a write is acknowledged to what waits for it. -/
def State.peerDone (s : State) (id : Nat) (x : PeerAcc) (got : List LaneAcc) (bad : Mask) : State :=
  let s1 : State := { s with peers := Tbl.del s.peers id }
  match Tbl.find? s1.accs x.access with
  | none => s1
  | some a => if a.stage = 0 then s1.answer x.access a got bad [] else s1

/-- R149, R151: what a lane's access leaves of the value that it finds. -/
def AccKind.leaves (kind : AccKind) (old : Nat) (a : LaneAcc) : Nat :=
  match kind with
  | .atom op ty => atomNew op ty old a.x
  | .cas _ => if old = a.x then a.y else old
  | _ => old

/-- R266: the values that the lanes of one access find in turn at a location that holds a value. -/
def AccKind.found (kind : AccKind) (old : Nat) : List LaneAcc → List LaneAcc
  | [] => []
  | a :: r => { a with x := old } :: AccKind.found kind (kind.leaves old a) r

/-- R384: a read of a peer fails: an address error of the load, as a replay entry, or of the chain. -/
def State.peerReadFails (s : State) (id : Nat) (x : PeerAcc) : State :=
  let s1 : State := { s with peers := Tbl.del s.peers id, accs := Tbl.del s.accs x.access }
  match Tbl.find? s.accs x.access with
  | none => s1
  | some y =>
    let va := (y.lanes.headD { lane := 0, va := 0 }).va
    if y.chain != 0 then (s1.chainRead y.core y.chain x.access [] (some va)).nudgeInvals
    else match s1.whereIs y.uid with
      | none => s1.nudgeInvals
      | some (c, k) => (s1.faultLoad c k y.seq 19 va).nudgeInvals

/-- R316, R384, R404: a write to a peer fails after it has left: an error of its launch and a record, and what waits for it goes on. -/
def State.peerWriteFails (s : State) (id : Nat) (x : PeerAcc) : State :=
  ((s.launchErr x.launch 6 x.stage x.core x.slot 0).errRec 6 (s.linkFor x.peer x.off) 13 x.peer 0 0 1 (x.core * 256 + x.slot)).peerDone id x [] 0

/-- R384, R398: a peer's response to an access: the value that its first lane finds, from which those of the others follow in lane order; `how` is 1 for
poison and 2 for an address error. PRESUMED (log entry 95): a write that the peer answers so has failed as one that no link carries. -/
def State.peerAnswer (s : State) (id value how : Nat) : State :=
  match Tbl.find? s.peers id with
  | none => s
  | some x =>
    if how = 2 then (if x.kind.returns then s.peerReadFails id x else s.peerWriteFails id x)
    else
      let lanes := (Tbl.find? s.accs x.access).elim [] (·.lanes)
      if x.engine && x.kind = .load then
        s.peerDone id x (lanes.zipIdx.map fun a => { a.1 with x := value / 256 ^ a.2 % 256, y := if how = 1 then 1 else 0 }) 0
      else s.peerDone id x (x.kind.found (value % 256 ^ x.size) lanes) (if how = 1 then maskOf fun l => lanes.any fun a => a.lane == l else 0)

/-- R382, R384: no link of the peer's mask has active lanes. -/
def State.peerCut (s : State) (p : Nat) : Bool :=
  (List.range 32).all fun l => !((s.hubReg (0x580000 + 8 * p)).getLsbD (32 + l) && s.linkLanes l != 0)

/-- PEER_ACCESS_TIMEOUT (R384): an access to a peer that every link has lost fails, and the peer is no longer reachable. A read fails as a load; a
write is recorded as an error of its launch and in the error ring, and what waits for it goes on. -/
def execPeerAccessTimeout (s : State) : Out :=
  let id := s.arg 0
  match Tbl.find? s.peers id with
  | none => .next s
  | some x =>
    if !s.peerCut x.peer || !(x.since.elim false fun t => t + 0x100000 ≤ s.net.hubClock) then .next s
    else
      let a := 0x580000 + 8 * x.peer
      let s1 := s.setHub a (s.hubReg a &&& 0xfffffffffffffffe)
      .next (if x.kind.returns then s1.peerReadFails id x else s1.peerWriteFails id x)

/-- FABRIC_ACK (R383, R418): a cumulative acknowledgement: every packet up to a sequence number has been received. Where the peer misses a packet, or its code
could not correct one, which operand 2 says, those that follow are sent once more. A link that retrains takes none. -/
def execFabricAck (s : State) : Out :=
  let l := s.arg 0
  let q := s.arg 1 % 2 ^ 16
  let k := Tbl.at s.links l {}
  if k.width = 0 || k.retrain.isSome then .next s
  else
    let s1 := if k.unacked.any fun e => e.seq == q then
        s.onLink l fun k => { k with lastAck := q, unacked := ((k.unacked.dropWhile fun e => e.seq != q).drop 1) }
      else s
    if s.arg 2 = 0 then .next s1 else .next ((s1.onLink l Link.replay).linkRecord l)

/-! Accesses of a peer (R381). -/

/-- The operands of the accesses that a packet of a peer carries: eight for each. -/
def accessOps : Nat → List Nat → List (List Nat)
  | 0, _ => []
  | n + 1, l => if l = [] then [] else l.take 8 :: accessOps n (l.drop 8)

/-- R381, R414: an access of a peer is due; one for a core whose stack is checkpointed is held with its other packets. -/
def State.peerArrives (s : State) (l : Nat) (ops : List Nat) : State :=
  let d : Due := { row := .peerAccessReceive, ops := ops ++ [l] }
  let off := ops.getD 3 0
  if off / 2 ^ 38 = 1 ∧ off % 2 ^ 32 / 2 ^ 24 < 256 then s.toStack (off % 2 ^ 32 / 2 ^ 24 / 32) d else s.pushAll [d]

/-- FABRIC_PACKET_RECEIVE (R383, R418): a packet arrives. One out of sequence is a repeat, or follows a lost one: it is discarded, and what has been received is
acknowledged once more, which asks for a missing one. Otherwise it is acknowledged and performs: `what` is 0 for accesses of a peer, whose operands follow,
eight for each, and 1 for the response to access `id` with its value and how it was answered. -/
def execFabricPacketReceive (s : State) : Out :=
  let l := s.arg 0
  let q := s.arg 1 % 2 ^ 16
  let k := Tbl.at s.links l {}
  if k.width = 0 || k.retrain.isSome then .next s
  else if q != k.expected then
    .next (s.onLink l fun k => { k with
      wire := k.wire ++ [.ack ((k.expected + 2 ^ 16 - 1) % 2 ^ 16) ((q + 2 ^ 16 - k.expected) % 2 ^ 16 < 2 ^ 15)] })
  else
    let s1 := s.onLink l fun k => { k with expected := (k.expected + 1) % 2 ^ 16, wire := k.wire ++ [.ack q false] }
    if s.arg 2 = 0 then .next ((accessOps 128 (s.ev.drop 3)).foldl (fun (t : State) ops => t.peerArrives l ops) s1)
    else .next (s1.peerAnswer (s.arg 3) (s.arg 4) (s.arg 5))

/-- R381: the physical address that an offset of this package's window names. -/
def peerTarget (off : Nat) : Option Nat :=
  if !peerOffOk off then none else if off / 2 ^ 38 = 0 then some off else some (0xf00000000000 + off % 2 ^ 32)

/-- R381: the kinds of access that a peer makes: load, store, atomic, reduction, compare-and-swap, signal, engine write, engine read. -/
def peerKind (kind op ty : Nat) : Option (AccKind × Acc) :=
  match kind with
  | 0 => some (.load, .load)
  | 1 => some (.store, .store)
  | 2 => some (.atom op ty, .atomic)
  | 3 => some (.redm op ty, .atomic)
  | 4 => some (.cas ty, .atomic)
  | 5 => some (.sub, .atomic)
  | 6 => some (.store, .copyWrite)
  | 7 => some (.load, .engRead)
  | _ => none

/-- R199, R247: a register window takes every byte of a peer's engine write. -/
def State.peerWindowOk (s : State) (pa n : Nat) : Bool :=
  match regionOf pa with
  | .core c .regWindow off => (List.range n).all fun i => s.windowOk c (off + i)
  | _ => true

/-- R199, R247, R397: an engine write of a peer, which sets full bits unless `nf`; bit i of `bad` says that its byte i is poisoned. -/
def State.peerEngineWrite (s : State) (pa : Nat) (bs : List Byte) (nf : Bool) (bad : Nat) : State :=
  let marked := bs.zipIdx.map fun b => (pa + b.2, b.1, bad.testBit b.2)
  match regionOf pa with
  | .core c .regWindow off =>
    (match s.ownerOf c (off / 0x4000) with
      | some uid => s.windowWrite uid (marked.map fun x => (x.1 % 0x4000, x.2))
      | none => s)
  | .core .. =>
    let s1 := s.granulesWrite (marked.filter fun x => !s.frameless x.1)
    if nf then s1 else s1.fillGranules ((marked.map fun x => x.1 / 16).eraseDups)
  | _ => s.granulesWrite marked

/-- R276, R277: the lines of a peer's access at their slices. -/
def State.peerLines (s : State) (kind : AccKind) (pa n : Nat) : State :=
  if !isHomed pa then s
  else (linesIn pa n).foldl (fun (t : State) line =>
    if kind = .load then t.lineRead line 0 else if kind = .store then t.lineWritten line else t.lineAtomic line) s

/-- R276 to R278: the lines of a peer's access do not make it wait at their slices. -/
def State.peerReady (s : State) (kind : AccKind) (pa n : Nat) : Bool :=
  !isHomed pa || (linesIn pa n).all fun line => if kind = .store then s.writeReady line else s.readReady line

/-- R383, R404: an answer to a peer at the port of the link that its access came by, with a record of the poison that it takes along. -/
def State.sendReply (s : State) (l pa : Nat) (r : Reply) : State :=
  let s1 := s.onLink l fun k => { k with port := k.port ++ [.reply r] }
  if r.bad then s1.errRec 6 l 4 0 pa 0 1 0 else s1

/-- R381, R398: an access of a peer with its operands: kind, operation (1 for an engine write that sets no full bits), type, offset, size in bytes, value,
second value (of an engine write the bytes that are poisoned), the name under which the peer waits for the answer, and the link. A read of poison is answered
with poison, and an access that the map does not allow as an address error. -/
def State.peerReceive (s : State) (ops : List Nat) : State :=
  let arg (i : Nat) : Nat := ops.getD i 0
  let size := arg 4
  let answer (v : Nat) (bad err : Bool) (pa : Nat) (t : State) : State := t.sendReply (arg 8) pa { what := arg 7, value := v, bad := bad, err := err }
  match peerKind (arg 0) (arg 1) (arg 2), peerTarget (arg 3) with
  | some (kind, acc), some pa =>
    if !s.reaches acc pa || !s.peerWindowOk pa size then answer 0 false true pa s
    else if !s.peerReady kind pa size then s.push .peerAccessReceive ops
    else if acc == .copyWrite then answer 0 false false pa (s.peerEngineWrite pa (leBytes size (arg 5)) (arg 1 == 1) (arg 6))
    else
      let x : LaneAcc := { lane := 0, va := 0, pa := pa, x := arg 5, y := arg 6 }
      let a : Access :=
        { core := 0, uid := 0, seq := 0, kind := kind, scope := 3, size := size, path := 0, reuse := 0, lanes := [x], data := [], stage := 0, pix := 0 }
      let r := (s.peerLines kind pa size).serve a
      answer ((r.1.headD { lane := 0, va := 0 }).x) (kind.returns && r.2.1 != 0) false pa r.2.2
  | _, _ => answer 0 false true 0 s

/-- PEER_ACCESS_RECEIVE (R381, R398): a peer's access acts as a local access of its class, without translation. -/
def execPeerAccessReceive (s : State) : Out := .next (s.peerReceive s.ev)

/-! Lanes (R418). -/

/-- R418: the lowest-numbered group of a width that holds no failed lane. -/
def goodGroup (bad : List Nat) (w : Nat) : Option Nat := (List.range (16 / w)).find? fun g => (List.range w).all fun i => !bad.contains (g * w + i)

/-- R418: the widest width that the good lanes allow. -/
def widest (bad : List Nat) : Nat := ([16, 8, 4].find? fun w => (goodGroup bad w).isSome).getD 0

/-- R418: the lanes that the link runs on. -/
def Link.lanes (k : Link) : List Nat :=
  if k.width = 0 then [] else match goodGroup k.badLanes k.width with
    | some g => (List.range k.width).map (g * k.width + ·)
    | none => []

/-- The accesses that a link has in flight to peers which it was the last to reach fail after their time (R384). -/
def State.cutLink (s : State) : State :=
  (List.filter (fun (e : Nat × PeerAcc) => s.peerCut e.2.peer) s.peers).foldl (fun (t : State) e => t.pushOnce .peerAccessTimeout [e.1]) s

/-- LANE_FAILURE (R418): a lane fails. A link that runs on it stops to retrain on the widest width that is left; with none left it is lost. -/
def execLaneFailure (s : State) : Out :=
  let l := s.arg 0
  let lane := s.arg 1
  let k := Tbl.at s.links l {}
  if 16 ≤ lane ∨ k.badLanes.contains lane then .next s
  else
    let bad := insNat k.badLanes lane
    let w := min (k.retrain.getD k.width) (widest bad)
    if !(k.lanes.contains lane) && k.retrain.isNone then .next (s.onLink l fun k => { k with badLanes := bad })
    else if w = 0 then .next (((s.onLink l fun k => { k with badLanes := bad, width := 0, retrain := none }).linkRecord l).cutLink)
    else .next ((s.onLink l fun k => { k with badLanes := bad, retrain := some w }).pushOnce .linkRetrainDone [l])

/-- LINK_RETRAIN_DONE (R383, R404, R418): retraining ends, and the sender replays every packet after the last one acknowledged. A replay or a narrower
link leaves a record. -/
def execLinkRetrainDone (s : State) : Out :=
  let l := s.arg 0
  let k := Tbl.at s.links l {}
  match k.retrain with
  | none => .next s
  | some w =>
    if k.unacked = [] ∧ k.width ≤ w then .next (s.onLink l fun k => { k with width := w, retrain := none })
    else .next ((s.onLink l fun k => { k with width := w, retrain := none }.replay).linkRecord l)

/-- FLCTL_RETRAIN (R418): software asks a link to retrain at the widest width that its good lanes allow. -/
def execFlctlRetrain (s : State) : Out :=
  let l := s.arg 0
  let w := widest (Tbl.at s.links l {}).badLanes
  if 32 ≤ l ∨ s.arg 1 / 2 ^ 63 % 2 = 0 ∨ w = 0 then .next s
  else .next ((s.onLink l fun k => { k with retrain := some w }).pushOnce .linkRetrainDone [l])

end Sys2Proof.Machine
end

