-- ==== Sys2Proof/Machine/LaunchUnit.lean ====
section
/-! DEFINITION. The launch unit's reading of records and images, its checks, and acceptance (R298 to R302, R309, R344, R376 to
R380). -/

namespace Sys2Proof.Machine

open Sys2Proof

/-! The memory that the hub reads and writes for a context. -/

/-- Bytes that the model does not hold: those of a peer (log entry 2). -/
def State.drawBytes (s : State) (n : Nat) : List Byte × State :=
  (List.range n).foldl (fun (z : List Byte × State) _ => (z.1 ++ [z.2.draw.1.truncate 8], z.2.draw.2)) ([], s)

/-- A range of bytes cut at the bounds of granules: addresses and lengths. -/
def granulesOf (va n : Nat) : List (Nat × Nat) :=
  (List.range ((va % 16 + n + 15) / 16)).map fun (i : Nat) =>
    let a := if i = 0 then va else va / 16 * 16 + 16 * i
    (a, min (va + n) (va / 16 * 16 + 16 * i + 16) - a)

/-- The physical address that the hub finds for an address of a context and a kind of access. A context without a valid entry has none. -/
def State.hubPa (s : State) (asid : Nat) (acc : Acc) (va : Nat) : Option Nat :=
  if !s.ctxValid asid then none
  else match s.findHub asid acc va with
    | .ok pa _ => some pa
    | _ => none

/-- Bytes read through a translation, each line at its home slice (R152, R298); none where an address fails or a granule is
poisoned. -/
def State.readVia (s : State) (tr : Nat → Option Nat) (va n : Nat) : Option (List Byte) × State :=
  (granulesOf va n).foldl
    (fun (z : Option (List Byte) × State) x =>
      match z.1, tr x.1 with
      | some bs, some pa =>
        match regionOf pa with
        | .peer .. =>
          let r := z.2.drawBytes x.2
          (some (bs ++ r.1), r.2)
        | _ =>
          let t := z.2.narrow (pa / 128)
          if t.poisoned pa x.2 then (none, t) else (some (bs ++ t.peekBytes pa x.2), t)
      | _, _ => (none, z.2))
    (some [], s)

/-- Bytes read by the hub in a context. -/
def State.hubRead (s : State) (asid va n : Nat) : Option (List Byte) × State := s.readVia (s.hubPa asid .load) va n

/-- Bytes written by the hub in a context at an address that it has checked; one that fails now writes nothing. -/
def State.hubWrite (s : State) (asid launch va : Nat) (bs : List Byte) : State :=
  match s.hubPa asid .store va with
  | none => s
  | some pa =>
    match regionOf pa with
    | .peer p off => (s.writePeer { peer := p, off := off, kind := .store, size := bs.length, data := leNat bs, launch := launch }).2
    | _ => s.homeWrite pa bs

/-- R313: the host bus address of a completion word in host memory. DESIGN CHOICE (log entry 90): the context's pages name host memory where their
physical address is in no range of R14; the spec does not say how an address names it. -/
def State.hostWord (s : State) (asid va : Nat) : Option Nat :=
  if !s.ctxValid asid || 2 ^ 57 ≤ va then none
  else (s.walk asid va).bind fun e => if e.w && regionOf (e.pa va) == .unmapped then some (e.pa va) else none

/-- R313, R374: a completion word stored, in host memory or at its home. -/
def State.writeWord (s : State) (asid launch va v : Nat) : State :=
  match s.hostWord asid va with
  | some a => { s.hostTouch a 8 true with hostMem := Mem.wrBytes s.hostMem a (leBytes 8 v) }
  | none => s.hubWrite asid launch va (leBytes 8 v)

/-- R301, R313: a completion object of a kind that may be used: a signal object takes an atomic, and a completion word a store, which reaches host
memory at system scope alone. -/
def State.cdestOk (s : State) (asid cdest kind scope : Nat) : Bool :=
  cdest % 8 == 0 &&
    (if kind = 2 then (s.hubPa asid .store cdest).isSome || (scope == 3 && (s.hostWord asid cdest).isSome)
     else (s.hubPa asid .atomic cdest).isSome)

/-- R312: 1 subtracted from a signal object where atomics perform. -/
def State.hubSub (s : State) (asid launch va : Nat) : State :=
  match s.hubPa asid .atomic va with
  | none => s
  | some pa =>
    match regionOf pa with
    | .peer p off => (s.writePeer { peer := p, off := off, kind := .sub, size := 8, data := 1, launch := launch }).2
    | _ =>
      let s1 := if isHomed pa then s.lineAtomic (pa / 128) else s
      if s1.poisoned pa 8 then s1 else (s1.atomAt .sub { lane := 0, va := va, pa := pa, x := 1 }).2

/-- A field of `n` bytes of a block of bytes. -/
def fld (bs : List Byte) (off n : Nat) : Nat := leNat ((bs.drop off).take n)

/-! Versioned blocks (R344). -/

/-- R344: a versioned block of `n` bytes at its snapshot: a cached copy of the same generation, else the block as it stands. Answers
the block and the cache with it in front. -/
def snap (cache : List (Nat × List Byte)) (key : Nat) (bs : List Byte) (size : Nat) : List Byte × List (Nat × List Byte) :=
  match cache.find? fun e => e.1 == key && fld e.2 0 4 == fld bs 0 4 with
  | some e => (e.2, cache)
  | none => (bs, ((key, bs) :: cache.filter fun e => e.1 != key).take size)

/-- R298, R344: the launch record at an address, through the launch unit's 64 cached records; none where it is misaligned or cannot be
read. -/
def State.snapRecord (s : State) (tr : Nat → Option Nat) (va : Nat) : Option (List Byte) × State :=
  if va % 256 != 0 then (none, s)
  else match s.readVia tr va 256, tr va with
    | (some bs, t), some pa =>
      let r := snap t.recCache pa bs 64
      (some r.1, { t with recCache := r.2 })
    | (_, t), _ => (none, t)

/-- R399: four doublewords as a bound register. -/
def boundOf (bs : List Byte) : BoundReg :=
  { d0 := BitVec.ofNat 64 (fld bs 0 8), d1 := BitVec.ofNat 64 (fld bs 8 8), d2 := BitVec.ofNat 64 (fld bs 16 8), d3 := BitVec.ofNat 64 (fld bs 24 8) }

/-- The cached descriptors of a context, 32 at most (R344), with a new one in front. -/
def trimBounds (cache : List (Nat × List Byte)) (asid : Nat) : List (Nat × List Byte) :=
  let mine (e : Nat × List Byte) : Bool := e.1 / 2 ^ 64 == asid
  ((cache.filter mine).take 32) ++ cache.filter fun e => !mine e

/-- R344, R399: bound register `n` of a context loaded from a descriptor. One that cannot be read or is invalid leaves the register
disarmed and a record of code 9, by the unit of a class and index. -/
def State.loadBound (s : State) (cls ix asid n va : Nat) : State :=
  match s.hubRead asid va 32 with
  | (none, t) => (t.setBound asid n { t.boundReg asid n with d0 := (t.boundReg asid n).d0 &&& 0x7fffffffffffffff }).errRec cls ix 9 n 0 asid 1 0
  | (some bs, t) =>
    let r := snap t.bndCache (asid * 2 ^ 64 + va) bs (32 * 4096)
    let b := boundOf r.1
    let t1 := ({ t with bndCache := trimBounds r.2 asid } : State).setBound asid n b.loaded
    if b.armed && b.invalid then t1.errRec cls ix 9 n 0 asid 1 b.d0.toNat else t1

/-! The checks of a record (R301). -/

/-- R298: the first reason: version, kind, reserved fields. -/
def recordBad (b : List Byte) : Bool :=
  let ns := fld b 5 1
  fld b 4 1 != 3 || fld b 6 1 / 4 != 0 || fld b 7 1 / 4 != 0 || fld b 0x18 8 % 4 == 3 || fld b 0x18 8 / 4 % 64 != 0 ||
    fld b 0x18 8 / 2 ^ 10 % 2 ^ 22 != 0 || fld b 0x55 3 != 0 || 32 < fld b 0x54 1 ||
    ns < 8 && (b.drop (0xc0 + 8 * ns)).any (· != 0)

/-- R301: the second reason: image, cdest, status and btab. -/
def State.recordUnusable (s : State) (asid : Nat) (b : List Byte) : Bool :=
  let img := fld b 8 8
  let st := fld b 0x20 8
  let nb := fld b 0x54 1
  img % 64 != 0 || st % 64 != 0 || (s.hubRead asid img 64).1.isNone ||
    !s.cdestOk asid (fld b 0x10 8) (fld b 0x18 8 % 4) (fld b 0x18 8 / 256 % 4) ||
    (st != 0 && ((granulesOf st 64).any fun x => (s.hubPa asid .store x.1).isNone)) ||
    (nb != 0 && (s.hubRead asid (fld b 0x58 8) (32 * nb)).1.isNone)

/-- R77: the checks of an image's header, against the record's stage count. -/
def headerBad (h : List Byte) (ns : Nat) : Bool :=
  fld h 0 4 != 0x39564c46 || fld h 4 2 != 1 || fld h 6 1 != ns || ns == 0 || 8 < ns || fld h 7 1 / 2 != 0 || fld h 0xc 4 % 2 != 0 ||
    16 < fld h 0x2c 1 || (fld h 0x1c 4 == 0) != (fld h 0x2c 1 == 0) || fld h 0x2d 19 != 0

/-- R77: the checks of a stage entry of an image. -/
def stageBad (e : List Byte) (codeLen : Nat) : Bool :=
  let reg (i : Nat) : Nat := fld e (0xc + i) 1
  let role (i : Nat) : Nat := fld e (0x10 + i) 1
  fld e 0 4 % 2 != 0 || codeLen ≤ fld e 0 4 || fld e 4 1 == 0 || 32 < fld e 4 1 || role 0 + role 1 + role 2 + role 3 != fld e 4 1 ||
    ((List.range 4).any fun i => 64 < reg i || (role i != 0 && reg i == 0)) || fld e 5 1 == 0 || 12 < fld e 5 1 || 64 < fld e 6 1 ||
    16 < fld e 7 1 || 32 < fld e 0x14 1 || fld e 8 4 % 16 != 0 || 524288 < fld e 8 4 || fld e 0x15 11 != 0

/-- R77: the checks of a channel entry of an image. -/
def chanBad (e : List Byte) (ns : Nat) : Bool :=
  15 < fld e 0 1 || ns ≤ fld e 1 1 || ns ≤ fld e 2 1 || fld e 3 1 == 0 || 16 < fld e 3 1 || fld e 4 2 < 16 || 256 < fld e 4 2 ||
    fld e 4 2 % 16 != 0 || fld e 6 2 != 0

/-- R77, R309: a channel entry. -/
def chanOf (e : List Byte) : ChanDecl := { ch := fld e 0 1, src := fld e 1 1, dst := fld e 2 1, slots := fld e 3 1, size := fld e 4 2 }

/-- R77, R299: a stage from its entries in the image and in the record, with the address of its code. -/
def stageOf (code : Nat) (e : List Byte) (w : Nat) : StageSt :=
  { entry := code + fld e 0 4, cohorts := fld e 4 1, gang := fld e 5 1, handles := fld e 6 1, acc := fld e 7 1, scratch := fld e 8 4
    regs := (List.range 4).map fun (i : Nat) => fld e (0xc + i) 1, roles := (List.range 4).map fun (i : Nat) => fld e (0x10 + i) 1
    bounds := fld e 0x14 1, gx := w % 2 ^ 16, gy := w / 2 ^ 16 % 2 ^ 16, gz := w / 2 ^ 32 % 2 ^ 8, qlog := w / 2 ^ 40 % 32
    workers := w / 2 ^ 45 % 256, qd := w / 2 ^ 53 % 2 == 1 }

/-- R299: the blocks of a static stage. -/
def StageSt.total (s : StageSt) : Nat := s.gx * s.gy * s.gz

/-- R299, R301: a stage entry of the record that breaks its rules. -/
def StageSt.breaks (s : StageSt) (w : Nat) : Bool :=
  w / 2 ^ 54 != 0 || 16 < s.qlog ||
    (if s.qd then s.gx != 0 || s.gy != 0 || s.gz != 0 || s.qlog == 0 || s.workers == 0
     else s.workers != 0 || s.gx == 0 || s.gy == 0 || s.gz == 0 || s.total % s.gang != 0)

/-- R309: a channel that its stages do not allow. -/
def chanBreaks (st : List StageSt) (d : ChanDecl) : Bool :=
  let f := st.getD d.src {}
  let t := st.getD d.dst {}
  f.qd || t.qd || (d.src != d.dst && (f.total != t.total || f.gang != t.gang))

/-- R303, R309: the stages whose gangs are placed with those of stage `n`: the stages that channels join to it, rising. -/
def partners (st : List StageSt) (ch : List ChanDecl) (n : Nat) : List Nat :=
  let grow (l : List Nat) : List Nat :=
    ch.foldl (fun l d => if l.contains d.src || l.contains d.dst then insNat (insNat l d.src) d.dst else l) l
  (List.range st.length).foldl (fun l _ => grow l) [n]

/-- R230: the channel area of a stage's blocks: the slots of the channels that they receive on, each with its header. -/
def chanArea (ch : List ChanDecl) (n : Nat) : Nat :=
  ch.foldl (fun a d => if d.dst = n then a + d.slots * (d.size + 16) else a) 0

/-! What blocks take of a core (R303). -/

/-- What the blocks of a core hold of it: resident slots, cohort slots, rename entries, runs of the scratchpad and runs of banks. -/
structure Taken where
  slots : List Nat := []
  cohorts : List Nat := []
  handles : Nat := 0
  scratch : List (Nat × Nat) := []
  banks : List (Nat × Nat) := []
  deriving DecidableEq, Repr

/-- The lowest multiple of `step` below `top` where a run of `n` fits beside the runs taken. -/
def lowestRun (taken : List (Nat × Nat)) (step n top : Nat) : Option Nat :=
  (List.range (top / step)).findSome? fun (i : Nat) =>
    let a := i * step
    if a + n ≤ top && taken.all fun r => r.2 == 0 || a + n ≤ r.1 || r.1 + r.2 ≤ a then some a else none

/-- The lowest `n` numbers below `top` that are not taken, if there are as many. -/
def lowestOf (taken : List Nat) (n top : Nat) : Option (List Nat) :=
  let l := ((List.range top).filter fun k => !taken.contains k).take n
  if l.length = n then some l else none

/-- What a block of a stage gets of a core: resident slot, cohort slots, scratchpad base and first bank. -/
structure Room where
  slot : Nat
  cohorts : List Nat
  base : Nat
  bank : Nat
  deriving DecidableEq, Repr

/-- R230, R236, R241, R303, R304: room for a block of a stage with a channel area. -/
def Taken.room (t : Taken) (st : StageSt) (area : Nat) : Option Room :=
  match lowestOf t.slots 1 8, lowestOf t.cohorts st.cohorts 32, lowestRun t.scratch 512 (st.scratch + area) 0x80000, lowestRun t.banks 1 st.acc 16 with
  | some [b], some ks, some base, bank =>
    if t.handles + st.handles ≤ 256 then
      (match bank with
        | some f => some { slot := b, cohorts := ks, base := base, bank := f }
        | none => if st.acc = 0 then some { slot := b, cohorts := ks, base := base, bank := 0 } else none)
    else none
  | _, _, _, _ => none

/-- The core with the block in its room. -/
def Taken.add (t : Taken) (r : Room) (st : StageSt) (area : Nat) : Taken :=
  { slots := r.slot :: t.slots, cohorts := r.cohorts ++ t.cohorts, handles := t.handles + st.handles
    scratch := (r.base, st.scratch + area) :: t.scratch, banks := (r.bank, st.acc) :: t.banks }

/-- R303: a core with what a group has taken of it so far. -/
def takenAt (base : Nat → Option Taken) (t : Tbl Taken) (c : Nat) : Option Taken := (Tbl.find? t c).or (base c)

/-- R303: a gang of a stage put on the run of cores from `c` on, if every block of it has room. -/
def addGang (base : Nat → Option Taken) (st : StageSt) (area c : Nat) (t : Tbl Taken) : Option (Tbl Taken) :=
  (List.range st.gang).foldl (fun (z : Option (Tbl Taken)) (k : Nat) =>
    z.bind fun u => (takenAt base u (c + k)).bind fun x => (x.room st area).map fun m => Tbl.put u (c + k) (x.add m st area)) (some t)

/-- R303: first cores for the gangs of a group such that all of it has room at once: each gang in the first of its choices that leaves room for
the rest. -/
def fitGroup (base : Nat → Option Taken) (st : List StageSt) (ch : List ChanDecl) (choices : Nat → Tbl Taken → List Nat) :
    List Nat → Tbl Taken → Option (List Nat)
  | [], _ => some []
  | n :: r, t => (choices n t).findSome? fun c =>
      (addGang base (st.getD n {}) (chanArea ch n) c t).bind fun u => (fitGroup base st ch choices r u).map (c :: ·)

/-- R301: the group of a stage fits the admitted cores of an empty package. -/
def fitsEmpty (st : List StageSt) (ch : List ChanDecl) (runs : List (List Nat)) (n : Nat) : Bool :=
  (fitGroup (fun _ => some {}) st ch (fun m _ => runs.getD m []) (partners st ch n) []).isSome

/-- R306: the first cores of the runs of `g` consecutive admitted and present cores. -/
def State.runsOf (s : State) (mask : BitVec 256) (g : Nat) : List Nat :=
  (List.range (257 - g)).filter fun c => (List.range g).all fun (k : Nat) => mask.getLsbD (c + k) && s.present (c + k)

/-! Acceptance. -/

/-- The outcome of the checks: a reason of R301, or the launch. -/
inductive Verdict where
  | reject (reason : Nat)
  | accept (l : Launch)
  deriving DecidableEq, Repr

/-- The entries of `size` bytes of a table. -/
def entriesOf (bs : List Byte) (size n : Nat) : List (List Byte) := (List.range n).map fun (i : Nat) => (bs.drop (size * i)).take size

/-- R301: the checks of a record whose bytes the launch unit has. -/
def State.checkRecord (s : State) (src : Source) (asid level : Nat) (privileged : Bool) (b : List Byte) : Verdict :=
  let ns := fld b 5 1
  let img := fld b 8 8
  if recordBad b then .reject 1
  else if s.recordUnusable asid b then .reject 2
  else
    let h := (s.hubRead asid img 64).1.getD []
    if headerBad h ns then .reject 3
    else
      match (s.hubRead asid (img + fld h 0x28 4) (32 * ns)).1, (s.hubRead asid (img + fld h 0x1c 4) (8 * fld h 0x2c 1)).1 with
      | some sb, some cb =>
        let es := entriesOf sb 32 ns
        let cs := entriesOf cb 8 (fld h 0x2c 1)
        let ch := cs.map chanOf
        let ws := (List.range ns).map fun (i : Nat) => fld b (0xc0 + 8 * i) 8
        let st := (es.zip ws).map fun e => stageOf (img + fld h 8 4) e.1 e.2
        let mask := BitVec.ofNat 256 (fld b 0x30 32)
        let runs := st.map fun x => s.runsOf mask x.gang
        if es.any (stageBad · (fld h 0xc 4)) || cs.any (chanBad · ns) || (ch.map (·.ch)).eraseDups.length != ch.length then .reject 3
        else if (st.zip ws).any fun e => e.1.breaks e.2 then .reject 4
        else if st.any fun x => fld b 0x54 1 < x.bounds then .reject 5
        else if ch.any (chanBreaks st) then .reject 6
        else if (List.range ns).any fun n => !fitsEmpty st ch runs n then .reject 7
        else if fld b 0x18 8 % 4 = 2 && !privileged then .reject 8
        else .accept
          { src := src, asid := asid, level := min (fld b 7 1) level, image := img, dataBase := img + fld h 0x10 4, cdest := fld b 0x10 8
            kind := fld b 0x18 8 % 4, scope := fld b 0x18 8 / 256 % 4, cseq := fld b 0x1c 4, status := fld b 0x20 8
            seed := if fld b 6 1 / 2 % 2 = 1 then fld b 0x28 8 else fld h 0x20 8, det := fld b 6 1 % 2 == 1, coremask := mask
            wdog := fld b 0x50 4, nbound := fld b 0x54 1, btab := fld b 0x58 8
            args := (List.range 12).map fun (i : Nat) => BitVec.ofNat 64 (fld b (0x60 + 8 * i) 8), stages := st, chans := ch, eligible := runs }
      | _, _ => .reject 2

/-- R300: the loads of bound registers at acceptance. -/
def State.loadBounds (s : State) (l : Launch) : State :=
  let first := !s.begun.contains l.asid
  let s1 := (List.range l.nbound).foldl (fun (t : State) (n : Nat) => t.loadBound 10 0 l.asid n (l.btab + 32 * n)) s
  if first then
    ({ (List.range 32).foldl (fun (t : State) n => if n < l.nbound then t else t.setBound l.asid n {}) s1 with
      begun := insNat s1.begun l.asid } : State)
  else s1

/-- R315: the first two doublewords of a status block. -/
def statusHead (state reason seed : Nat) : List Byte := leBytes 8 (reason * 256 + state) ++ leBytes 8 seed

/-- R301, R313: what a rejected or killed launch stores at cdest, unless cdest itself is unusable. -/
def State.wakeCdest (s : State) (asid launch cdest kind scope cseq : Nat) : State :=
  if !s.cdestOk asid cdest kind scope then s
  else if kind = 2 then s.writeWord asid launch cdest cseq
  else s.hubWrite asid launch cdest (leBytes 8 0)

/-- R312, R315: writes to peers under a launch's name, its status block among them, that are not acknowledged. -/
def State.peersOwe (s : State) (id : Nat) : Bool := (Tbl.vals s.peers).any fun x => x.launch == id

/-- R301, R312: the store at cdest after a rejection, once a status block written to a peer is acknowledged. Operands: the name that the write has, the
context, cdest, its kind and scope, and the sequence value. -/
def State.endReject (s : State) (ops : List Nat) : State :=
  let arg (i : Nat) : Nat := ops.getD i 0
  if s.peersOwe (arg 0) then s.push .launchAccept ops else s.wakeCdest (arg 1) (arg 0) (arg 2) (arg 3) (arg 4) (arg 5)

/-- R301: what a rejection whose record was read writes: the status block, then cdest. -/
def State.reportReject (s : State) (asid : Nat) (b : List Byte) (reason : Nat) : State :=
  let st := fld b 0x20 8
  let id := s.nextId
  let s0 : State := { s with nextId := id + 1 }
  let s1 := if st = 0 ∨ st % 64 ≠ 0 then s0 else s0.hubWrite asid id st (statusHead 5 reason 0 ++ leBytes 48 0)
  s1.endReject [id, asid, fld b 0x10 8, fld b 0x18 8 % 4, fld b 0x18 8 / 256 % 4, fld b 0x1c 4]

/-- The cohort of a submission by `SPAWN`, resident or out, with its slot. -/
def State.spawner (s : State) (uid : Nat) : Option (Nat × Cohort) :=
  match s.whereIs uid with
  | some (c, k) => (s.cohort? c k).map fun h => (k, h)
  | none => match s.awayAt uid with
    | some c => ((s.core c).away.find? (·.uid == uid)).map fun h => (0, h)
    | none => none

/-- R316: a rejected `SPAWN` is an error of the launch that it came from. -/
def State.spawnRejected (s : State) (src : Source) : State :=
  match src with
  | .spawn core uid split l =>
    match s.spawner uid with
    | some (k, h) => s.launchErr l 3 h.stage core k (((h.split? split).map fun sp => (sp.pc - 4).toNat).getD 0)
    | none => s.launchErr l 3 0 core 0 0
  | _ => s

/-- R301, R404: a record rejected without being read leaves a record of code 14. -/
def State.rejectUnread (s : State) (src : Source) (asid addr : Nat) : State :=
  let d := match src with
    | .hostQueue _ => 0
    | .mgmt => 1
    | .spawn .. => 2
  (s.errRec 10 0 14 d 0 asid 1 addr).spawnRejected src

/-- R302, R315: an accepted launch takes its place behind the others; its bound registers load and its status block says so. -/
def State.enterLaunch (s : State) (l : Launch) : State :=
  let id := s.nextId
  let s1 := ({ s with nextId := id + 1, launches := Tbl.put s.launches id l } : State).loadBounds l
  (if l.status = 0 then s1 else s1.hubWrite l.asid id l.status (statusHead 1 0 l.seed)).pushOnce .schedule []

/-- R301: a record that was read is checked, and accepted or rejected. -/
def State.judge (s : State) (src : Source) (asid level : Nat) (privileged : Bool) (b : List Byte) : State :=
  match s.checkRecord src asid level privileged b with
  | .accept l => s.enterLaunch l
  | .reject r => (s.reportReject asid b r).spawnRejected src

/-- R380: a v2 entry as a record. Fields that the record has no room for are carried as reserved bits that its checks refuse. -/
def v2Record (e : List Byte) (cap : Nat) : List Byte :=
  let g := fld e 8 8
  let gx := g % 2 ^ 16
  let gy := max 1 (g / 2 ^ 16 % 2 ^ 16)
  let gz := max 1 (g / 2 ^ 32 % 2 ^ 16)
  let bad := g / 2 ^ 48 != 0 || fld e 0x1c 4 != 0
  leBytes 4 0 ++ [3#8, 1#8, if bad then 0x80#8 else 0#8, BitVec.ofNat 8 (min 1 cap)] ++ (e.take 8) ++ ((e.drop 0x10).take 8) ++
    leBytes 8 (fld e 0x18 4 * 2 ^ 32 + 3 * 256 + 2) ++ leBytes 16 0 ++ leBytes 32 (2 ^ 256 - 1) ++ leBytes 16 0 ++ ((e.drop 0x20).take 32) ++ leBytes 64 0 ++
    leBytes 8 ((if 255 < gz then 2 ^ 63 else 0) + gz % 256 * 2 ^ 32 + gy * 2 ^ 16 + gx) ++ leBytes 56 0

/-- R378, R379, R301: the entry of a queue that names a record in a context, with its second doubleword's reserved part: checked, read
and judged. A record that is not read, because the entry has a reserved bit set, the context has no valid entry or the address fails, is rejected
with a record of code 14. -/
def State.judgeEntry (s : State) (src : Source) (asid level va : Nat) (reserved privileged : Bool) : State :=
  if reserved || !s.ctxValid asid then s.rejectUnread src asid va
  else match s.snapRecord (s.hubPa asid .load) va with
    | (some b, t) => t.judge src asid level privileged b
    | (none, t) => t.rejectUnread src asid va

/-- The register of host queue `n` at an offset (R376). -/
def State.hq (s : State) (n off : Nat) : DWord := s.hubReg (0x500000 + 64 * n + off)

/-- R376: bytes of a queue's ring, in host memory or device memory. -/
def State.ringBytes (s : State) (base : DWord) (off n : Nat) : List Byte :=
  let a := bitsAt base 51 6 * 64 + off
  if base.getLsbD 63 then ((s.narrow (a / 128)).narrow ((a + n - 1) / 128)).peekBytes a n else Mem.rdBytes s.hostMem a n

/-- R374, R376: the launch unit reads bytes of a queue's ring at their home slices. -/
def State.readRing (s : State) (base : DWord) (off n : Nat) : List Byte × State :=
  let a := bitsAt base 51 6 * 64 + off
  (s.ringBytes base off n, if base.getLsbD 63 then (linesIn a n).foldl (fun (t : State) line => (t.lineRead line 0).narrow line) s else s.hostTouch a n false)

/-- R376 to R380: the entry of a host queue accepted: its head moves past it. -/
def State.judgeHost (s : State) (n entry : Nat) : State :=
  let cfg := s.hq n 8
  let asid := bitsAt cfg 31 20
  let cap := bitsAt cfg 19 18
  let i := entry % 2 ^ bitsAt cfg 7 4
  let s1 := s.setHub (0x500010 + 64 * n) (BitVec.ofNat 64 ((entry + 1) % 2 ^ 16))
  if bitsAt cfg 17 16 = 1 then
    let r := s1.readRing (s1.hq n 0) (64 * i) 64
    let b := v2Record r.1 cap
    (if s1.ctxValid asid then r.2.judge (.hostQueue n) asid cap true b else r.2.reportReject asid b 9)
  else
    let r := s1.readRing (s1.hq n 0) (16 * i) 16
    let e := r.1
    r.2.judgeEntry (.hostQueue n) asid cap (fld e 0 8) (fld e 8 8 != 0) false

/-- R302, R376, R377: the submission may be accepted: it came in an earlier hub-clock cycle, and its queue is open (R426)
and enabled and its entry is the queue's next. -/
def State.mayAccept (s : State) (x : Submission) : Bool :=
  x.at_ < s.net.hubClock && match x.src with
  | .hostQueue n => s.boot.stage == 5 && (s.hq n 8).getLsbD 0 && (s.hq n 0x10).toNat % 2 ^ 16 == x.addr
  | _ => true

/-- R302: the level that a waiting record has, as it stands. -/
def State.levelOf (s : State) (x : Submission) : Nat :=
  let prio (asid va cap : Nat) : Nat := match (s.snapRecord (s.hubPa asid .load) va).1 with
    | some b => min (fld b 7 1 % 4) cap
    | none => 0
  match x.src with
  | .hostQueue n =>
    let cfg := s.hq n 8
    let cap := bitsAt cfg 19 18
    if bitsAt cfg 17 16 = 1 then min 1 cap
    else prio (bitsAt cfg 31 20) (fld (s.ringBytes (s.hq n 0) (16 * (x.addr % 2 ^ bitsAt cfg 7 4)) 8) 0 8) cap
  | .mgmt => prio (x.asid % 4096) x.addr 3
  | .spawn .. => match x.bytes with
    | some b => min (fld b 7 1 % 4) x.level
    | none => 0

/-- R302: two records come from one source, which keeps their order: one queue, or the `SPAWN`s of one core. -/
def Source.same : Source → Source → Bool
  | .mgmt, .mgmt => true
  | .hostQueue n, .hostQueue m => n == m
  | .spawn c .., .spawn d .. => c == d
  | _, _ => false

/-- R302: the order of records that come in one hub-clock cycle: the management queue, the host queues by number, and `SPAWN`s by core. -/
def Source.rank : Source → Nat
  | .mgmt => 0
  | .hostQueue n => 1 + n
  | .spawn c .. => 65 + c

/-- R302: the first record of each source, of those that may be accepted. -/
def State.firstRecords (s : State) : List (Nat × Submission) :=
  List.filter (fun (e : Nat × Submission) => s.mayAccept e.2 && s.waiting.all fun y => e.1 ≤ y.1 || !y.2.src.same e.2.src || !s.mayAccept y.2) s.waiting

/-- R302: the waiting record that is accepted next: of the highest level, the one that came first. -/
def State.nextAccept (s : State) : Option (Nat × Submission) :=
  let ok := s.firstRecords
  let top := ok.foldl (fun a e => max a (s.levelOf e.2)) 0
  (sortBy (fun (e : Nat × Submission) => e.2.at_ * 512 + e.2.src.rank) (ok.filter fun e => s.levelOf e.2 == top)).head?

/-- R135: the split that waits for a submission goes on. -/
def State.releaseSpawn (s : State) (src : Source) (id : Nat) : State :=
  match src with
  | .spawn _ uid _ _ => match s.whereIs uid with
    | some (c, k) => s.onCohort c k fun h => h.retryAll (· == .launch id)
    | none => s
  | _ => s

/-- R301, R302: a waiting record accepted or rejected. -/
def State.take (s : State) (id : Nat) (x : Submission) : State :=
  let s1 := ({ s with waiting := Tbl.del s.waiting id } : State)
  let s2 := match x.src with
    | .hostQueue n => s1.judgeHost n x.addr
    | .mgmt => s1.judgeEntry .mgmt (x.asid % 4096) 3 x.addr (4096 ≤ x.asid) true
    | .spawn .. => match x.bytes with
      | some b => s1.judge x.src x.asid x.level false b
      | none => s1.rejectUnread x.src x.asid x.addr
  s2.releaseSpawn x.src id

/-- The launch unit looks at the records that wait, if there are any. -/
def State.pokeLaunch (s : State) : State := if s.waiting = [] then s else s.pushOnce .launchAccept []

/-- LAUNCH_ACCEPT (R301, R302): the launch unit takes the waiting record that comes first, unless 64 launches are live, and looks again. With operands it
ends a rejection. -/
def execLaunchAccept (s : State) : Out :=
  if s.ev != [] then .next (s.endReject s.ev)
  else if 64 ≤ s.launches.length then .next s
  else match s.nextAccept with
    | none => .next (if (Tbl.vals s.waiting).any fun x => s.net.hubClock ≤ x.at_ then s.push .launchAccept [] else s)
    | some (id, x) => .next (s.take id x).pokeLaunch

/-- A record put before the launch unit (R314). -/
def State.submit (s : State) (x : Submission) : State :=
  ({ s with nextId := s.nextId + 1, waiting := Tbl.put s.waiting s.nextId { x with at_ := s.net.hubClock } } : State).pokeLaunch

end Sys2Proof.Machine
end

