-- ==== Sys2Proof/Machine/Host.lean ====
section
/-! DEFINITION. The host's accesses (R375), host queues (R376, R377), the management queue (R379), and the writes of hub registers by their access
kinds (R6). -/

namespace Sys2Proof.Machine

open Sys2Proof

/-! Host queues (R376, R377). -/

/-- Host queue `n`'s register at an offset written. -/
def State.setHq (s : State) (n off : Nat) (v : DWord) : State := s.setHub (0x500000 + 64 * n + off) v

/-- HQ_DOORBELL (R376, R377): a tail written: the entries from the head up to it are submitted, unless it lies more than the ring's entries beyond the
head, or behind it. -/
def execHqDoorbell (s : State) : Out :=
  let n := s.arg 0
  let tail := s.arg 1 % 2 ^ 16
  let head := (s.hq n 0x10).toNat % 2 ^ 16
  let k := bitsAt (s.hq n 8) 7 4
  let d := (tail + 2 ^ 16 - head) % 2 ^ 16
  if 64 ≤ n then .next s
  else if 2 ^ k < d then .next (s.setHq n 0x20 (s.hq n 0x20 ||| 2))
  else
    let named := (List.range d).map fun (i : Nat) => (head + i) % 2 ^ 16
    let mine (x : Submission) : Bool := x.src == .hostQueue n
    let s1 : State := { s.setHq n 0x18 (BitVec.ofNat 64 tail) with
      waiting := List.filter (fun (e : Nat × Submission) => !mine e.2 || named.contains e.2.addr) s.waiting }
    .next (named.foldl (fun (t : State) a =>
      if (Tbl.vals t.waiting).any fun x => mine x && x.addr == a then t
      else t.submit { src := .hostQueue n, addr := a, asid := 0, level := 0, bytes := none }) s1)

/-- The bits of `HQCFG` that a write reaches. -/
def hqMask : DWord := 0xffff00f1

/-- HQ_ENABLE (R377): a queue that is not enabled is checked and enabled; a configuration that fails leaves it disabled and sets bad configuration. -/
def execHqEnable (s : State) : Out :=
  let n := s.arg 0
  let v := BitVec.ofNat 64 (s.arg 1) &&& hqMask
  if 64 ≤ n || (s.hq n 8).getLsbD 0 then .next s
  else if bitsAt v 17 16 < 2 && 2 ≤ bitsAt v 7 4 && bitsAt v 7 4 ≤ 12 && s.ctxValid (bitsAt v 31 20) then
    .next (s.setHq n 8 (v ||| 1)).pokeLaunch
  else .next ((s.setHq n 8 (v &&& 0xffff00f0)).setHq n 0x20 (s.hq n 0x20 ||| 4))

/-- HQ_DISABLE (R377): the queue is disabled, and the write's other fields are ignored. -/
def execHqDisable (s : State) : Out :=
  let n := s.arg 0
  if 64 ≤ n then .next s else .next (s.setHq n 8 (s.hq n 8 &&& 0xfffffffffffffffe))

/-- HQBASE_WRITE (R377): ignored while the queue is enabled. -/
def execHqbaseWrite (s : State) : Out :=
  let n := s.arg 0
  if 64 ≤ n || (s.hq n 8).getLsbD 0 then .next s else .next (s.setHq n 0 (BitVec.ofNat 64 (s.arg 1) &&& 0x800fffffffffffc0))

/-- Entries of the management queue submitted, each as its two doublewords. -/
def State.submitMgmt (s : State) : List Nat → State
  | a :: b :: r => (State.submitMgmt (s.submit { src := .mgmt, addr := a, asid := b, level := 3, bytes := none }) r)
  | _ => s

/-- MGMT_DOORBELL (R379): the host complex rings its queue; the operands are the entries that it has written, two doublewords each. -/
def execMgmtDoorbell (s : State) : Out := .next (s.submitMgmt (s.ev.take 512))

/-! Register writes (R5, R6). -/

/-- The bits of a register without a row of its own that a write reaches, where it is read and written (R6). -/
def rwMask (off : Nat) : DWord :=
  if 0x580000 ≤ off ∧ off < 0x580100 then 0xffffffff00000001
  else if off = 0x600018 then 0xffffffff
  else if off = 0x680008 then 0x000ffffffffffff8
  else if off = 0x680010 then 0xffffffff
  else if 0x700000 ≤ off ∧ off < 0x700200 ∧ off % 0x40 = 8 then 0x000ffffffffff000
  else if 0x700000 ≤ off ∧ off < 0x700200 ∧ off % 0x40 = 0x10 then 0xffffffffffffffff
  else if 0x400000 ≤ off ∧ off < 0x408000 then
    (match off % 32 with | 0 => 0xffffffffffffffff | 8 => 0xffffffffffffffff | 16 => 1 | _ => 0)
  else if 0x480000 ≤ off ∧ off < 0x480040 then 0x3ffffffff
  else 0

/-- The bits of a register that writing 1 clears (R6). -/
def w1cMask (off : Nat) : DWord :=
  if off = 0x1100 then 0x80000000ffffffff
  else if 0x500000 ≤ off ∧ off < 0x501000 ∧ off % 64 = 0x20 then 6
  else 0

/-- R347: a reserved command is ignored and recorded as refused, unless a command is under way. -/
def State.refuseCmd (s : State) : State :=
  if (s.hubReg 0x2008).getLsbD 63 then s else s.setHub 0x2008 (s.hubReg 0x2008 ||| 0x4000000000000000)

/-- REGISTER_WRITE (R5, R6): a hub register without a row of its own, by its access kind. A word of program memory is written whole (R359), a
power limit out of range is ignored (R423), and a reserved context command is refused (R347). -/
def execRegisterWrite (s : State) : Out :=
  let off := s.arg 0
  let v := BitVec.ofNat 64 (s.arg 1)
  if 0x300000 ≤ off ∧ off < 0x304000 then
    let i := (off - 0x300000) / 4
    .next { s with ul := { s.ul with prog := Tbl.put s.ul.prog i (v.truncate 32), badWords := remNat s.ul.badWords i } }
  else if off = 0x2000 then .next s.refuseCmd
  else if off = 0x720100 then
    let w := v.toNat % 2 ^ 16
    .next (if 1000 ≤ w ∧ w ≤ 4000 then s.setHub off (BitVec.ofNat 64 w) else s)
  else
    let m := rwMask off ||| w1cMask off
    if m = 0 then .next s
    else .next (s.setHub off ((s.hubReg off &&& ~~~m) ||| (v &&& rwMask off) ||| (s.hubReg off &&& w1cMask off &&& ~~~v)))

/-- The row that a write of a hub register is (R6). -/
def registerRow (off v : Nat) : Due :=
  let plain : Due := { row := .registerWrite, ops := [off, v] }
  let asid := v % 2 ^ 12
  let page := v / 2 ^ 12 % 2 ^ 40
  if 0x1000 ≤ off ∧ off < 0x1100 then { row := .fsbudWrite, ops := [(off - 0x1000) / 0x40, off % 0x40 / 8, v] }
  else if off = 0x2000 then
    (match v / 2 ^ 60 with
    | 1 => { row := .ctxSwapOut, ops := [asid, page] }
    | 2 => { row := .ctxRestore, ops := [asid, page] }
    | 3 => { row := .ctxEvictGroups, ops := [asid, page] }
    | 4 => { row := .ctxRestoreGroups, ops := [asid, page] }
    | 5 => { row := .ctxFlushLines, ops := [asid, page] }
    | _ => plain)
  else if off = 0x2010 then
    { row := if v / 2 ^ 63 = 1 then .tlbinvAll else .tlbinvPage, ops := [asid, v / 2 ^ 12 % 2 ^ 45] }
  else if 0x100000 ≤ off ∧ off < 0x140000 then { row := .ctxTableWrite, ops := [(off - 0x100000) / 64, off % 64, v] }
  else if 0x200000 ≤ off ∧ off < 0x204000 then
    let w := (off - 0x200000) / 64
    (if off % 64 != 0 then { row := .awRegisterWrite, ops := [w, off % 64, v] }
     else if v / 2 ^ 24 % 8 = 0 then { row := .awcfgDisable, ops := [w, v] } else { row := .awcfgEnable, ops := [w, v] })
  else if 0x500000 ≤ off ∧ off < 0x501000 then
    let n := (off - 0x500000) / 64
    (match off % 64 with
    | 0x00 => { row := .hqbaseWrite, ops := [n, v] }
    | 0x08 => if v % 2 = 1 then { row := .hqEnable, ops := [n, v] } else { row := .hqDisable, ops := [n, v] }
    | 0x18 => { row := .hqDoorbell, ops := [n, v % 2 ^ 16] }
    | _ => plain)
  else if 0x580200 ≤ off ∧ off < 0x580300 then { row := .flctlRetrain, ops := [(off - 0x580200) / 8, v] }
  else if off = 0x600000 then (if v / 2 ^ 63 = 1 then { row := .errRingEnable, ops := [v] } else { row := .errRingDisable, ops := [v] })
  else if off = 0x600008 then { row := .errcfgWrite, ops := [v] }
  else if off = 0x680000 then { row := .scanApply, ops := [v] }
  else if 0x700000 ≤ off ∧ off < 0x700200 ∧ off % 0x40 = 0 then
    let st := (off - 0x700000) / 0x40
    (match v / 2 ^ 60 with
    | 1 => { row := .stkEnterCheckpoint, ops := [st] }
    | 2 => { row := .stkTakeCheckpoint, ops := [st] }
    | 3 => { row := .stkLeaveCheckpoint, ops := [st] }
    | 4 => { row := .stkWarmResetRestore, ops := [st] }
    | 5 => { row := .stkWarmResetNoRestore, ops := [st] }
    | _ => plain)
  else if 0x710000 ≤ off ∧ off < 0x718000 then { row := .wbctxWrite, ops := [(off - 0x710000) / 8, v] }
  else if off = 0x720018 then
    (match v / 2 ^ 60 with
    | 1 => { row := .rtRaiseTestFloor }
    | 2 => { row := .rtSignBindingMap }
    | _ => plain)
  else plain

/-! The host's accesses (R375, R386, R427). -/

/-- R375: the bytes of an access that lie in near memory: BAR 2 and CXL.mem reach no others. -/
def nearPart (a n : Nat) : Nat := min n (nearEnd - a)

/-- R286, R375: a host access to `n` bytes of near memory goes on at their slices; none where it has to wait there. -/
def State.hostPass (s : State) (a n : Nat) (writes : Bool) : Option State :=
  if (linesIn a n).all fun line => if writes then s.writeReady line else s.readReady line then s.fsLines 6 none ((List.range n).map (a + ·)) else none

/-- An answer to the host (R375, R398). -/
def State.hostReply (s : State) (a v : Nat) (bad : Bool) : State := { s with hostOut := s.hostOut ++ [{ what := a, value := v, bad := bad }] }

/-- R375: a host write of `n` bytes performs; none where it waits. BAR 0 writes a hub register of 8 bytes; program memory, which only the host complex writes
(R359), takes no host write. BAR 2 and CXL.mem (1) write near memory at the home slices, in the host DMA budget of the firing schedule (R286), and drop the
bytes beyond it. BAR 0 takes no write while boot has stopped (R427). -/
def State.hostWriteNow (s : State) (bar a n v : Nat) : Option State :=
  if bar = 0 then
    (if s.boot.halted || n != 8 || a % 8 != 0 || (decide (0x300000 ≤ a) && decide (a < 0x304000)) then some s
     else some { s with agenda := s.agenda ++ [registerRow a (v % 2 ^ 64)], hostRow := some (registerRow a (v % 2 ^ 64)) })
  else (s.hostPass a (nearPart a n) true).map fun t => t.homeWrite a (leBytes (nearPart a n) v)

/-- R375, R398: a host read of `n` bytes performs, and its answer leaves the package; none where it waits. Beyond near memory BAR 2 reads zero. Poison is
sent as such, with a record of code 4. While boot has stopped BAR 0 answers `BOOTSTAT` alone (R427). -/
def State.hostReadNow (s : State) (bar a n : Nat) : Option State :=
  if bar = 0 then
    (if s.boot.halted && a / 8 * 8 != 0x720000 then some s else some (s.hostReply a (leNat ((List.range n).map fun i => s.peek (hubBase + a + i))) false))
  else
    (s.hostPass a (nearPart a n) false).map fun t0 =>
      let t := (linesIn a (nearPart a n)).foldl (fun (u : State) line => (u.lineRead line 0).narrow line) t0
      let v := t.peekN a (nearPart a n)
      if nearPart a n != 0 && t.poisoned a (nearPart a n) then (t.errRec 9 0 4 0 a 0 1 0).hostReply a v true else t.hostReply a v false

/-- R375: an access of the host performs, in posted-write order: after those before it and the register write that they left due; none where it waits. -/
def State.hostNow (s : State) (d : Due) : Option State :=
  let arg (i : Nat) : Nat := d.ops.getD i 0
  if s.hostRow.any s.agenda.contains then none
  else if d.row = .hostWrite then s.hostWriteNow (arg 0) (arg 1) (arg 2) (arg 3)
  else s.hostReadNow (arg 0) (arg 1) (arg 2)

/-- R375: the accesses of the host that wait, in order, as far as they go on. -/
def State.hostDrain (s : State) : List Due → State
  | [] => { s with hostWait := [] }
  | d :: r =>
    match s.hostNow d with
    | some t => State.hostDrain t r
    | none => { s with hostWait := d :: r }

/-- An access of the host arrives: it performs, unless it has to wait behind others. Nothing answers while the package is off. -/
def State.hostArrives (s : State) (d : Due) : State :=
  if s.boot.stage = 0 then s else if s.hostWait = [] then s.hostDrain [d] else { s with hostWait := s.hostWait ++ [d] }

/-- HOST_WRITE (R375). Operands: BAR, address, bytes and value. -/
def execHostWrite (s : State) : Out := .next (s.hostArrives { row := .hostWrite, ops := s.ev })

/-- HOST_READ (R375, R398). Operands: BAR, address and bytes. -/
def execHostRead (s : State) : Out := .next (s.hostArrives { row := .hostRead, ops := s.ev })

end Sys2Proof.Machine
end

