-- ==== Sys2Proof/Machine/NetworkOps.lean ====
section
/-! DEFINITION. The rows of the network: one hop of a packet (R270), and the detection of and recovery from deadlock (R282 to R285). -/

namespace Sys2Proof.Machine

open Sys2Proof

/-- PACKET_ROUTE (R270): a router takes a packet one hop on. -/
def execPacketRoute (s : State) : Out := .next (s.hop (s.arg 0))

/-! Detection (R282). -/

/-- The input that the head packet of an input waits for; none where the head can move, where a packet of its flow that escaped holds it (R285), or where there
is none. -/
def Net.waitsFor (n : Net) (key : Nat) : Option Nat :=
  match n.queue key with
  | [] => none
  | id :: _ =>
    match Tbl.find? n.packets id with
    | none => none
    | some p => if n.canMove id p || n.flowHeld id p then none else some p.nextInput

/-- A probe that is dropped: its origin launches a new one after a further 4,096 hub-clock cycles. -/
def State.dropProbe (s : State) (id : Nat) (l : List Nat) : State :=
  { s with net := { s.net with
    probes := Tbl.del s.net.probes id
    stuck := Tbl.adj s.net.stuck (l.headD 0) fun _ => s.net.hubClock } }

/-- An input whose head has been unable to move for 4,096 hub-clock cycles and that has no probe under way. -/
def Net.probeDue (n : Net) (key : Nat) : Bool :=
  (Tbl.find? n.stuck key).elim false (fun t => t + 4096 ≤ n.hubClock) && (n.waitsFor key).isSome &&
    !(Tbl.vals n.probes).any (fun l => l.headD 0 == key) && !(Tbl.vals n.found).any fun x => x.inputs.contains key

/-- PROBE_LAUNCH (R282): a blocked input launches a probe that names it. -/
def execProbeLaunch (s : State) : Out :=
  let key := s.arg 0
  if s.net.probeDue key then
    let id := s.nextId
    .next (({ s with nextId := id + 1, net := { s.net with probes := Tbl.put s.net.probes id [key] } } : State).push .probeHop [id])
  else .next s

/-- R282: an input holds a probe from a lower origin than `origin`: one that it launched or that has passed it. -/
def Net.lowerProbe (n : Net) (key origin : Nat) : Bool :=
  (Tbl.vals n.probes).any fun l => l.headD 0 < origin && l.contains key

/-- PROBE_HOP (R282): a probe follows the chain by one input; it is dropped, finds a cycle, or goes on. -/
def execProbeHop (s : State) : Out :=
  let id := s.arg 0
  match Tbl.find? s.net.probes id with
  | none => .next s
  | some l =>
    let origin := l.headD 0
    match s.net.waitsFor (l.getLastD 0) with
    | none => .next (s.dropProbe id l)
    | some nxt =>
      if nxt = origin then
        let x : Cycle := { time := s.net.hubClock, inputs := l }
        .next (({ s with net := { s.net with probes := Tbl.del s.net.probes id, found := Tbl.put s.net.found id x } } : State).push
          .recoveryGrant [id])
      else if 16 ≤ l.length || s.net.lowerProbe nxt origin || (s.net.waitsFor nxt).isNone then .next (s.dropProbe id l)
      else .next (({ s with net := { s.net with probes := Tbl.put s.net.probes id (l ++ [nxt]) } } : State).push .probeHop [id])

/-! Recovery (R283 to R285). -/

/-- Every input of the list waits for the next one, and the last for the first. -/
def Net.isCycle (n : Net) (l : List Nat) : Bool :=
  (l.zip (l.tail ++ l.take 1)).all fun e => n.waitsFor e.1 == some e.2

/-- R284: the slice router of a column with the lowest row whose escape buffer has room. -/
def Net.escapeRouter (n : Net) (col : Nat) : Nat :=
  (([2, 3, 4, 5].map fun y => 8 * y + col).find? fun r => (Tbl.at n.escape r []).length < 128).getD (16 + col)

/-- R284: a packet moved over the escape link to the escape buffer of its current column, behind those that came before. -/
def State.escapePacket (s : State) (id : Nat) : State :=
  match Tbl.find? s.net.packets id with
  | none => s
  | some p =>
    let r := s.net.escapeRouter (p.here % 8)
    ({ s with net := { s.net with
        packets := Tbl.put s.net.packets id { p with here := r, from_ := r, escaped := true }
        escape := Tbl.put s.net.escape r (Tbl.at s.net.escape r [] ++ [id]) } } : State).pushOnce .escapeReinject [r]

/-- R284: every packet held in the inputs of a cycle goes to an escape buffer, the one sent first first; the inputs and their rotation slots are then
empty. -/
def State.escalate (s : State) (l : List Nat) : State :=
  let ids := sortBy id (l.flatMap s.net.queue)
  ids.foldl State.escapePacket (l.foldl (fun t key => { t with net := { t.net with
    inputs := Tbl.del t.net.inputs key, rotation := Tbl.del t.net.rotation key, stuck := Tbl.del t.net.stuck key } }) s)

/-- R284: how often the same inputs have been rotated, with the first detection less than 65,536 hub-clock cycles before `now`. -/
def Net.again (n : Net) (x : Cycle) : List (List Nat × Nat) :=
  n.rotated.filter fun e => sortBy id e.1 == sortBy id x.inputs && x.time < e.2 + 65536

/-- RECOVERY_GRANT (R283, R284): the hub grants recovery to one cycle at a time: one detected for the third time is escalated, and
otherwise the rotation token is sent. -/
def execRecoveryGrant (s : State) : Out :=
  let id := s.arg 0
  match Tbl.find? s.net.found id with
  | none => .next s
  | some x =>
    if (Tbl.vals s.net.found).any (·.granted) then .next (if x.granted then s else s.push .recoveryGrant [id])
    else if !s.net.isCycle x.inputs then .next { s with net := { s.net with found := Tbl.del s.net.found id } }
    else if 2 ≤ (s.net.again x).length then
      .next (({ s with net := { s.net with found := Tbl.del s.net.found id } } : State).escalate x.inputs)
    else
      .next (({ s with net := { s.net with found := Tbl.put s.net.found id { x with granted := true } } } : State).push
        .rotationTokenReturn [id])

/-- R283: the head packet of an input moved one hop into the rotation slot of the next input, given the queues as they all stood. -/
def State.rotateOne (n : Net) (s : State) (e : Nat × Nat) : State :=
  match n.queue e.1 with
  | [] => s
  | id :: _ =>
    match Tbl.find? n.packets id with
    | none => s
    | some p => ((s.leaveInput id p).enterNext id p).onNet fun m => { m with rotation := Tbl.put m.rotation e.2 id }

/-- ROTATION_TOKEN_RETURN (R283, R284): every head packet of the cycle moves one hop into the next input's rotation slot. Where the
token found a rotation slot occupied, the cycle is escalated. -/
def execRotationTokenReturn (s : State) : Out :=
  let id := s.arg 0
  match Tbl.find? s.net.found id with
  | none => .next s
  | some x =>
    let s1 := s.onNet fun n => { n with found := Tbl.del n.found id }
    if !s.net.isCycle x.inputs then .next s1
    else if x.inputs.any fun k => Tbl.has s.net.rotation k then .next (s1.escalate x.inputs)
    else
      let first := ((s.net.again x).map Prod.snd).headD x.time
      let s2 := (x.inputs.zip (x.inputs.tail ++ x.inputs.take 1)).foldl (State.rotateOne s.net) s1
      .next (s2.onNet fun n => { n with rotated := (n.rotated ++ [(x.inputs, first)]).drop (n.rotated.length - 7) })

/-- ESCAPE_REINJECT (R284, R285): the oldest packet of an escape buffer goes on once its route has credit and no earlier packet of its flow that
escaped is still on its way. -/
def execEscapeReinject (s : State) : Out :=
  let r := s.arg 0
  match Tbl.at s.net.escape r [] with
  | [] => .next s
  | id :: rest =>
    let s1 := s.onNet fun n => { n with escape := if rest = [] then Tbl.del n.escape r else Tbl.put n.escape r rest }
    let s2 := if rest = [] then s1 else s1.pushOnce .escapeReinject [r]
    match Tbl.find? s.net.packets id with
    | none => .next s2
    | some p =>
      if s.net.flowHeld id p then .next (s.push .escapeReinject [r])
      else if p.here = p.dst then .next (s2.deliver id p)
      else if s.net.room p.nextInput then .next (s2.enterNext id p)
      else .next (s.push .escapeReinject [r])

end Sys2Proof.Machine
end

