-- ==== Sys2Proof/Machine/Reliability.lean ====
section
/-! DEFINITION. Errors of storage and transmission, scrubbing, error-ring set-up, the scan controller and the known-answer mode (R396 to R407). -/

namespace Sys2Proof.Machine

open Sys2Proof

/-! The error ring (R402). -/

/-- ERR_RING_ENABLE (R402): the ring's base is taken and its counters cleared, unless the ring is enabled already. -/
def execErrRingEnable (s : State) : Out :=
  if (s.hubReg 0x600000).getLsbD 63 then .next s
  else
    .next ((((s.setHub 0x600000 (BitVec.ofNat 64 (s.arg 0) &&& 0x000fffffffffffc0 ||| 0x8000000000000000)).setHub 0x600010 0).setHub
      0x600018 0).setHub 0x600020 0)

/-- ERR_RING_DISABLE (R402): the ring is disabled, and the write's other fields are ignored. -/
def execErrRingDisable (s : State) : Out := .next (s.setHub 0x600000 (s.hubReg 0x600000 &&& 0x7fffffffffffffff))

/-- ERRCFG_WRITE (R402): ignored while the ring is enabled, and for a reserved size. -/
def execErrcfgWrite (s : State) : Out :=
  let k := s.arg 0 % 16
  if (s.hubReg 0x600000).getLsbD 63 ∨ 10 ≤ k then .next s else .next (s.setHub 0x600008 (BitVec.ofNat 64 k))

/-! Errors that strike (R396). Unit 256 + p of structure 10 is Ethernet port p. Structures are numbered in the order of its table, from 0 (log entry 32): 0 memory, 1 slice, 2 L1,
3 scratchpad or tile store, 4 accumulator store, 5 lane register cache, 6 registers and tables of a cohort, 7 refetched caches,
8 program memory, 9 on-chip links, 10 scale-up and Ethernet links. -/

/-- R403: the class of the unit that reports an error in a structure at an address. -/
def errClass (st ix pa : Nat) : Nat :=
  match st with
  | 0 => if pa < nearEnd then 2 else 3
  | 1 => 1
  | 8 => 5
  | 9 => 4
  | 10 => if ix < 256 then 6 else 7
  | _ => 0

/-- R404: corrections counted for the unit's record of the period. -/
def State.countFixed (s : State) (cls ix st n : Nat) : State :=
  if n = 0 then s
  else
    let old := Tbl.at s.corrected (cls * 4096 + ix) (st, 0)
    { s with corrected := Tbl.put s.corrected (cls * 4096 + ix) (old.1, old.2 + n) }

/-- ERR_CORRECTION_PERIOD (R404): a unit that has corrected errors in the period writes one record of code 1. -/
def execErrCorrectionPeriod (s : State) : Out :=
  let key := s.arg 0 * 4096 + s.arg 1
  match Tbl.find? s.corrected key with
  | none => .next s
  | some x => .next (({ s with corrected := Tbl.del s.corrected key } : State).errRec (s.arg 0) (s.arg 1) 1 x.1 0 0 x.2 0)

/-- R404: the record of an uncorrectable error, with its syndrome, which the spec leaves open. -/
def State.errStruck (s : State) (st ix pa asid : Nat) : State := s.draw.2.errRec (errClass st ix pa) ix 2 st pa asid 1 s.draw.1.toNat

/-- R396: an uncorrectable error in a granule of a core's L1: a clean granule is dropped, to be read again; one with dirty bytes is poisoned. -/
def State.strikeL1 (s : State) (c pa : Nat) : State :=
  match (s.core c).l1Find (pa / 128) with
  | none => s
  | some (k, f) =>
    let g := pa % 128 / 16
    if f.dirty.any fun b => b / 16 == pa / 16 then
      (s.onCore c fun co => { co with l1 := Tbl.adj co.l1 k fun x => { x with poison := insNat x.poison g } }).errStruck 2 c pa 0
    else (s.onCore c fun co => { co with l1 := Tbl.adj co.l1 k fun x => { x with valid := remNat x.valid g } }).countFixed 0 c 2 1

/-- R396: the caches of a core that are only read again lose the entries of an address. -/
def CoreSt.refetch (co : CoreSt) (a : Nat) : CoreSt :=
  { co with
    kcache := co.kcache.filter fun e => e.1 != a / 64
    tcache := co.tcache.filter fun e => e.1 != a / 128
    tlb := co.tlb.filter fun e => e.vpn != a / 2 ^ e.bits
    copyEng := { co.copyEng with cache := co.copyEng.cache.filter fun z => z.2.1 != a }
    gatherEng := { co.gatherEng with cache := co.gatherEng.cache.filter fun z => z.2.1 != a } }

/-- R396: an error that the code of structure `st` cannot correct, in unit `ix` at `a`. In the lane register cache `a` names a slot, a register
and a lane, and for structure 6 a slot. -/
def State.strike (s : State) (st ix a : Nat) : State :=
  match st with
  | 0 => if isHomed a then (s.taint a 1).errStruck 0 ix a 0 else s
  | 1 => if isHomed a then (s.taint a 1).errStruck 1 ix a 0 else s
  | 2 => s.strikeL1 ix a
  | 3 => match regionOf a with
    | .core c .scratch _ => (s.taint a 1).errStruck 3 c a 0
    | .core c .tile _ => (s.taint a 1).errStruck 3 c a 0
    | _ => s
  | 4 => match regionOf a with
    | .core c .acc _ => ({ s with accPoison := insNat s.accPoison (a / 4) } : State).errStruck 4 c a 0
    | _ => s
  | 5 =>
    let k := a / 8192
    let r := a / 32 % 256
    (match s.cohort? ix k with
    | none => s
    | some h =>
      if h.absent.contains r then s
      else
        let v := h.vreg r
        (s.setCohort ix k { h with v := Tbl.put h.v r { v with poison := v.poison ||| (1#32 <<< (a % 32)) } }).errStruck 5 ix 0 h.asid)
  | 6 => match s.cohort? ix a with
    | none => s
    | some h => (s.errStruck 6 ix 0 h.asid).endCohort ix a (some (1, 0))
  | 7 => (s.onCore ix (·.refetch a)).countFixed 0 ix 7 1
  | 8 => { s with ul := { s.ul with badWords := insNat s.ul.badWords a } }
  | 10 => if 256 ≤ ix then s.countFixed 7 (ix % 256) 10 1 else ({ s with links := Tbl.put s.links ix (Tbl.at s.links ix {}).replay } : State).linkRecord ix
  | _ => s

/-- UNCORRECTABLE_ERROR (R396): an error strikes. One that the structure's code corrects, or that a link sends again, is only counted; a packet of Ultra
Ethernet that is lost is not acknowledged, so its timeout sends it again (R370). -/
def execUncorrectableError (s : State) : Out :=
  let st := s.arg 0
  let ix := s.arg 1
  if s.arg 3 != 0 || st == 9 then .next (s.countFixed (errClass st ix (s.arg 2)) (ix % 256) st 1) else .next (s.strike st ix (s.arg 2))

/-- SCRUB_LINE (R397): a line of memory read and rewritten under activity 1 of the firing schedule; `n` errors in it are corrected, and its
poison stays. -/
def execScrubLine (s : State) : Out :=
  let line := s.arg 0
  let pa := line * 128
  if !isHomed pa then .next s
  else
    let ix := homeOf pa
    let cls := errClass 0 ix pa
    match s.fsPass 1 [ctlArbiter line] with
    | none => .next (s.push .scrubLine s.ev)
    | some t => .next (t.countFixed cls ix 0 (s.arg 1))

/-! The scan controller (R405, R406). -/

/-- R406: `SCANSTAT`. -/
def State.scanStat (s : State) (busy : Bool) (result core : Nat) : State :=
  s.setHub 0x680018 (BitVec.ofNat 64 ((if busy then 2 ^ 63 else 0) + result * 256 + core))

/-- R405: what is wrong with a package at an address: its result code, or none. Its digest covers the header and the body. -/
def State.packageBad (s : State) (pa core : Nat) : Option Nat :=
  let rd (off n : Nat) : Nat := s.peekN (pa + off) n
  if !s.present core then some 5
  else if nearEnd < pa + 0x100 || s.poisoned pa 0x100 || rd 0 4 != 0x53544c56 || rd 4 2 != 1 || rd 6 2 != 0 || rd 0x10 4 != 0x940 ||
      rd 0x20 32 != 0 || rd 0xf2 14 != 0 then some 3
  else if nearEnd < pa + 0x100 + rd 0x18 8 then some 3
  else if rd 0x40 64 != Config.shake256 (0x40 + rd 0x18 8) (rd 0 0x40 + rd 0x100 (rd 0x18 8) * 256 ^ 0x40) ||
      !Config.verify Config.testKey (rd 0x40 64) (rd 0x80 114) then some 2
  else if rd 8 8 < (s.hubReg 0x720010).toNat then some 4
  else none

/-- SCAN_APPLY (R406): an apply command: the package is checked, and the core is held. -/
def execScanApply (s : State) : Out :=
  let v := s.arg 0
  let core := v / 2 ^ 52 % 256
  let pa := v / 64 % 2 ^ 46 * 64
  if s.scan.stage != 0 || v / 2 ^ 60 % 16 != 1 then .next s
  else
    let s1 := ((s.setHub 0x680000 (BitVec.ofNat 64 v &&& 0xffffffffffffffc0)).scanStat true 0 core).narrow (pa / 128)
    match s1.packageBad pa core with
    | some r => .next (({ s1 with scan := { s1.scan with stage := 2, core := core, package := pa, result := r, vectors := 0 } } : State).push .scanComplete [])
    | none =>
      let s2 : State := { s1 with scan := { s1.scan with stage := 1, core := core, package := pa, result := 0, vectors := 0 } }
      .next ((s2.onCore core fun co => { co with held := true }).push .scanTest [])

/-- R406: the addresses of the body of the package that the scan controller applies, a line at a time. -/
def State.scanLines (s : State) : List Nat := (linesIn (s.scan.package + 0x100) (s.peekN (s.scan.package + 0x18) 8)).map (· * 128)

/-- SCAN_TEST (R406): once the core holds no block, its island runs at 1.8 GHz and the vectors are applied, read under activity 2 of the firing schedule.
Whether every response matches is a free value. A pass lifts the hold. -/
def execScanTest (s : State) : Out :=
  if s.scan.stage != 1 || (s.core s.scan.core).blocks != [] then .next s
  else match (if (linesOf s.scanLines).all s.readReady then s.fsLines 2 none s.scanLines else none) with
  | none => .next (s.pushOnce .scanTest [])
  | some s0 =>
    let t := (linesOf s.scanLines).foldl (fun (u : State) line => u.lineRead line 0) s0
    let pass := t.draw.1.getLsbD 0
    let s1 := t.draw.2.onCore s.scan.core fun co => { co with govStep := 0, held := !pass }
    let n := s.peekN (s.scan.package + 0x14) 4
    let serial := s.peekN (s.scan.package + 8) 8
    let s2 : State := { s1 with scan := { s1.scan with
      stage := 2, result := if pass then 0 else 1, vectors := n, passed := if pass then serial else s1.scan.passed } }
    .next ((s2.push .scanComplete []).pushOnce .schedule [])

/-- R313, R406: a doubleword stored at a physical address as a release at `.sys`: at home, in a scratchpad, at a peer, or where no range of R14 has the
address in host memory (log entry 90). -/
def State.storeSys (s : State) (pa v : Nat) : State :=
  match regionOf pa with
  | .peer p off => (s.writePeer { peer := p, off := off, kind := .store, size := 8, data := v }).2
  | .core c .scratch _ => if s.present c then s.poke pa (leBytes 8 v) else s
  | .near => s.homeWrite pa (leBytes 8 v)
  | .far => s.homeWrite pa (leBytes 8 v)
  | .unmapped => { s.hostTouch pa 8 true with hostMem := Mem.wrBytes s.hostMem pa (leBytes 8 v) }
  | _ => s

/-- SCAN_COMPLETE (R406): the record, the status, and then the completion word. -/
def execScanComplete (s : State) : Out :=
  if s.scan.stage != 2 then .next s
  else
    let x := s.scan
    let s1 := s.errRec 8 x.core 12 x.result 0 0 x.vectors (s.peekN (x.package + 8) 8)
    let s2 := ({ s1 with scan := { s1.scan with stage := 0 } } : State).scanStat false x.result x.core
    let cw := (s2.hubReg 0x680008).toNat % 2 ^ 52 / 8 * 8
    .next (s2.storeSys cw ((s2.hubReg 0x680010).toNat % 2 ^ 32))

/-! Known-answer mode (R407). -/

/-- The slots of the cohorts homed on a port (R210). -/
def CoreSt.homed (co : CoreSt) (p : Nat) : List Nat := (Tbl.keys co.cohorts).filter (· % 4 == p)

/-- R407: a cohort homed on the port is in known-answer mode. -/
def State.katOn (s : State) (c p : Nat) : Bool := ((s.core c).homed p).any fun k => (s.cohort? c k).elim false fun h => (s.ctx h.asid 0).getLsbD 1

/-- R407: a lane's mismatch is confirmed: it turns grey in the cohorts homed on the port, with a record of code 11, and the core is held. -/
def State.katConfirm (s : State) (c p l : Nat) : State :=
  let hit := ((s.core c).homed p).filter fun k => (s.cohort? c k).elim false fun h => h.alive.getLsbD l
  let s1 := (s.onCore c fun x => { x with held := true }).errRec 0 c 11 l 0 0 hit.length (p * 256)
  hit.foldl (fun (t : State) k => t.turnGrey c k (1#32 <<< l) 0) s1

/-- KAT_INJECT (R407): an idle cycle of a port's quad injects a known-answer operation; `bad` has a bit for each lane whose result mismatches. Every such
lane becomes suspect; while lanes are suspect an operation targets the lowest of them. -/
def execKatInject (s : State) : Out :=
  let c := s.arg 0
  let p := s.arg 1
  let bad := BitVec.ofNat 32 (s.arg 2)
  let old := Tbl.at (s.core c).suspect p 0
  let l := lowestLane old
  let suspects (m : Mask) (t : State) : State :=
    t.onCore c fun x => { x with suspect := if m = 0 then Tbl.del x.suspect p else Tbl.put x.suspect p m }
  if !s.katOn c p then .next s
  else
    let s1 := s.onCore c fun x => { x with katNext := Tbl.put x.katNext p ((Tbl.at x.katNext p 0 + 1) % 4) }
    if old = 0 then
      .next ((lanesOf bad).foldl (fun (t : State) n => t.errRec 0 c 10 n 0 0 1 (p * 256)) (suspects bad s1))
    else
      let s2 := suspects (old &&& ~~~(1#32 <<< l)) s1
      .next (if bad.getLsbD l then s2.katConfirm c p l else s2)

end Sys2Proof.Machine
end

