-- ==== Sys2Proof/Machine/Flags.lean ====
section
/-! DEFINITION. The conditions of compares (R60) and the sticky flags of the cohort status word (R97, R125, R328). -/

namespace Sys2Proof.Machine

open Sys2Proof

/-- R60: a condition on two numbers. -/
def condI (c : Nat) (x y : Int) : Bool :=
  match c with
  | 0 => x == y
  | 1 => x != y
  | 2 => x < y
  | 3 => x ≤ y
  | 4 => y < x
  | _ => y ≤ x

/-- R60: two values are numbers and equal; -0 equals +0. -/
def sameVal (x y : Num.FVal) : Bool := x != .nan && y != .nan && !Num.less x y && !Num.less y x

/-- R60: a condition on two floating values. -/
def condF (c : Nat) (x y : Num.FVal) : Bool :=
  match c with
  | 0 => sameVal x y
  | 1 => !sameVal x y
  | 2 => Num.less x y
  | 3 => Num.less x y || sameVal x y
  | 4 => Num.less y x
  | 5 => Num.less y x || sameVal x y
  | 6 => x != .nan && y != .nan
  | _ => x == .nan || y == .nan

/-- R97: a shuffle has read a grey lane. -/
def Cohort.flagGrey (h : Cohort) (b : Bool) : Cohort := if b then { h with greyread := true } else h

/-- R125: an arrival's count differs from the phase's. -/
def Cohort.flagMismatch (h : Cohort) (b : Bool) : Cohort := if b then { h with mismatch := true } else h

end Sys2Proof.Machine
end

