-- ==== Sys2Proof/Machine/Special.lean ====
section
/-! DEFINITION. The transcendental functions of R88 on fp32: each value is computed in fixed point with far more bits than
the hardest input needs, and rounded once, to nearest even. -/

namespace Sys2Proof.Num

/-- The bits after the point of the fixed-point values here. -/
def fixBits : Nat := 512

/-- Pi in fixed point, rounded down. -/
def piFix : Nat := 0x3243f6a8885a308d313198a2e03707344a4093822299f31d0082efa98ec4e6c89452821e638d01377be5466cf34e90c6cc0ac29b7c97c50dd3f84d5b5b5470917

/-- The natural logarithm of 2 in fixed point, rounded down. -/
def ln2Fix : Nat := 0xb17217f7d1cf79abc9e3b39803f2f6af40f343267298b62d8a0d175b8baafa2be7b876206debac98559552fb4afa1b10ed2eae35c138214427573b291169b825

/-- The sum of `t`, `t * x / k`, `t * x^2 / (k * (k + 1))` and so on: the exponential series. -/
def expSeries (x : Nat) : Nat → Nat → Nat → Nat
  | 0, _, _ => 0
  | n + 1, k, t => t + expSeries x n (k + 1) (t * x / 2 ^ fixBits / k)

/-- The exponential of a fixed-point number below 1. -/
def expFix (x : Nat) : Nat := expSeries x 110 1 (2 ^ fixBits)

/-- The alternating series of sine and cosine: terms divided by `k * (k + 1)`, with `x2` the square of the argument. -/
def trigSeries (x2 : Nat) : Nat → Nat → Nat → Int
  | 0, _, _ => 0
  | n + 1, k, t => (t : Int) - trigSeries x2 n (k + 2) (t * x2 / 2 ^ fixBits / (k * (k + 1)))

/-- The sine of a fixed-point number below 2. -/
def sinFix (x : Nat) : Nat := (trigSeries (x * x / 2 ^ fixBits) 80 2 x).toNat

/-- The cosine of a fixed-point number below 2. -/
def cosFix (x : Nat) : Nat := (trigSeries (x * x / 2 ^ fixBits) 80 1 (2 ^ fixBits)).toNat

/-- The series of the inverse hyperbolic tangent, with `z2` the square of the argument. -/
def atanhSeries (z2 : Nat) : Nat → Nat → Nat → Nat
  | 0, _, _ => 0
  | n + 1, k, t => t / k + atanhSeries z2 n (k + 2) (t * z2 / 2 ^ fixBits)

/-- The natural logarithm of `y / 2 ^ b` for a `y` from `2 ^ b` to `2 ^ (b + 1)`. -/
def lnFix (y b : Nat) : Nat :=
  let z := (y - 2 ^ b) * 2 ^ fixBits / (y + 2 ^ b)
  2 * atanhSeries (z * z / 2 ^ fixBits) 160 1 z

/-- A finite magnitude in fixed point. -/
def toFix (m : Nat) (e : Int) : Nat :=
  if 0 ≤ e + fixBits then m * 2 ^ (e + fixBits).toNat else m / 2 ^ (-(e + fixBits)).toNat

/-- A fixed-point magnitude, not exact, rounded to fp32 to nearest even. -/
def fromFix (neg : Bool) (x : Nat) (e : Int) : Nat := roundFin .fp32 0 false neg x (e - fixBits) true 0 0

/-- R88: `2^x`. -/
def fex2 (a : Nat) : Nat :=
  match unpack .fp32 a with
  | .nan => Fmt.nan .fp32
  | .inf s => if s then 0 else Fmt.infBits .fp32 false
  | .fin s m e =>
    if m = 0 then 0x3f800000
    else if 7 < (Nat.log2 m : Int) + e then (if s then 0 else Fmt.infBits .fp32 false)
    else
      let x := toFix m e
      let n := x / 2 ^ fixBits
      let f := x % 2 ^ fixBits
      let k : Int := if s then (if f = 0 then -(n : Int) else -(n : Int) - 1) else n
      let g := if s && f != 0 then 2 ^ fixBits - f else f
      if f = 0 then roundFin .fp32 0 false false 1 k false 0 0
      else fromFix false (expFix (g * ln2Fix / 2 ^ fixBits)) k

/-- R88: the base-2 logarithm. -/
def flg2 (a : Nat) : Nat :=
  match unpack .fp32 a with
  | .nan => Fmt.nan .fp32
  | .inf s => if s then Fmt.nan .fp32 else Fmt.infBits .fp32 false
  | .fin s m e =>
    if m = 0 then Fmt.infBits .fp32 true
    else if s then Fmt.nan .fp32
    else
      let b := Nat.log2 m
      let k : Int := (b : Int) + e
      if m = 2 ^ b then (if k = 0 then 0 else roundFin .fp32 0 false (decide (k < 0)) k.natAbs 0 false 0 0)
      else
        let l : Int := k * (2 ^ fixBits : Nat) + ((lnFix m b * 2 ^ fixBits / ln2Fix : Nat) : Int)
        fromFix (decide (l < 0)) l.natAbs 0

/-- The sine or cosine of a finite magnitude, by quarter turns; `quarter` is 0 for the sine and 1 for the cosine. -/
def trig (neg : Bool) (m : Nat) (e : Int) (quarter : Nat) : Nat :=
  let x := 2 * toFix m e
  let q := (x / piFix + quarter) % 4
  let r := x % piFix / 2
  fromFix (neg != decide (2 ≤ q)) (if q % 2 = 0 then sinFix r else cosFix r) 0

/-- R88: the sine. -/
def fsin (a : Nat) : Nat :=
  match unpack .fp32 a with
  | .nan => Fmt.nan .fp32
  | .inf _ => Fmt.nan .fp32
  | .fin s m e => if m = 0 then a else trig s m e 0

/-- R88: the cosine. -/
def fcos (a : Nat) : Nat :=
  match unpack .fp32 a with
  | .nan => Fmt.nan .fp32
  | .inf _ => Fmt.nan .fp32
  | .fin _ m e => if m = 0 then 0x3f800000 else trig false m e 1

/-- R88: the hyperbolic tangent, `(1 - E) / (1 + E)` with `E` the exponential of minus twice the magnitude. -/
def ftanh (a : Nat) : Nat :=
  match unpack .fp32 a with
  | .nan => Fmt.nan .fp32
  | .inf s => if s then 0xbf800000 else 0x3f800000
  | .fin s m e =>
    if m = 0 then a
    else if 4 ≤ (Nat.log2 m : Int) + e then (if s then 0xbf800000 else 0x3f800000)
    else
      let t := 2 * toFix m e
      let k := t / ln2Fix + 1
      let x := expFix (k * ln2Fix - t) / 2 ^ k
      fromFix s ((2 ^ fixBits - x) * 2 ^ fixBits / (2 ^ fixBits + x)) 0

end Sys2Proof.Num
end

