-- ==== Sys2Proof/Machine/LaneFp.lean ====
section
/-! DEFINITION. The FP32, packed-half and FP64 lane instructions, the special functions, the compares and the predicate
instructions (R87 to R92). -/

namespace Sys2Proof.Machine

open Sys2Proof

/-- R34: the rounding mode of the split. -/
def Split.mode (sp : Split) : Nat := sp.frm.toNat % 8

/-- R32: an operand tagged neither raw nor with the operation's format. -/
def wrongTag (f t : Nat) : Bool := t != 0 && t != f

/-! FP32 (R87). -/

/-- R32, R87: the operands of an FP32 instruction of two sources have other tags. -/
def badF2 (o : OpA) (w : Who) : Bool := wrongTag 0x11 (w.h.vtag o.a) || wrongTag 0x11 (w.h.tagB o.q o.b)

/-- R87: an FP32 instruction of two sources, by its mode and the operands' bits. -/
def float2 (o : OpA) (f : Nat → Nat → Nat → Nat) (s : State) : Out :=
  issueOwn (usesA o) (tagCheck (badF2 o))
    (fun w h => h.setLanes o.d (w.h.writing w.sp o.g) 0x11 fun l =>
      BitVec.ofNat 32 (f w.sp.mode (w.h.lane o.a l).toNat (w.h.opB o.q o.b l).toNat)) s

/-- R87, R88: an FP32 instruction of one source. -/
def float1 (o : OpU) (f : Nat → Nat → Nat) (s : State) : Out :=
  issueOwn (usesU o) (tagCheck fun w => wrongTag 0x11 (w.h.vtag o.a))
    (fun w h => h.setLanes o.d (w.h.writing w.sp o.g) 0x11 fun l => BitVec.ofNat 32 (f w.sp.mode (w.h.lane o.a l).toNat)) s

/-- R51, R52: a sixteen-bit FP32 form `d := d op s`. -/
def floatHalf (r d : Nat) (f : Nat → Nat → Nat → Nat) (s : State) : Out :=
  issueOwn (halfUses r d) (tagCheck fun w => wrongTag 0x11 (w.h.vtag d) || wrongTag 0x11 (w.h.vtag r))
    (fun w h => h.setLanes d (w.h.writing w.sp 0) 0x11 fun l =>
      BitVec.ofNat 32 (f w.sp.mode (w.h.lane d l).toNat (w.h.lane r l).toNat)) s

/-- `FADD` (R87). -/
def execFadd (o : OpA) (s : State) : Out := float2 o (fun r a b => Num.fadd .fp32 r a b) s

/-- `FSUB` (R87). -/
def execFsub (o : OpA) (s : State) : Out := float2 o (fun r a b => Num.fsub .fp32 r a b) s

/-- `FMUL` (R87). -/
def execFmul (o : OpA) (s : State) : Out := float2 o (fun r a b => Num.fmul .fp32 r a b) s

/-- `FMIN` (R87). -/
def execFmin (o : OpA) (s : State) : Out := float2 o (fun _ a b => Num.fmin .fp32 a b) s

/-- `FMAX` (R87). -/
def execFmax (o : OpA) (s : State) : Out := float2 o (fun _ a b => Num.fmax .fp32 a b) s

/-- `FMINN` (R87). -/
def execFminn (o : OpA) (s : State) : Out := float2 o (fun _ a b => Num.fminn .fp32 a b) s

/-- `FMAXN` (R87). -/
def execFmaxn (o : OpA) (s : State) : Out := float2 o (fun _ a b => Num.fmaxn .fp32 a b) s

/-- `FFMA` (R87): D's tag is checked as an operand's. -/
def execFfma (o : OpA) (s : State) : Out :=
  issueOwn (usesAcc o) (tagCheck fun w => badF2 o w || wrongTag 0x11 (w.h.vtag o.d))
    (fun w h => h.setLanes o.d (w.h.writing w.sp o.g) 0x11 fun l =>
      BitVec.ofNat 32 (Num.ffma .fp32 w.sp.mode (w.h.lane o.a l).toNat (w.h.opB o.q o.b l).toNat (w.h.lane o.d l).toNat)) s

/-- `FRCP` (R88). -/
def execFrcp (o : OpU) (s : State) : Out := float1 o (fun _ a => Num.frcp .fp32 0 a) s

/-- `FRSQ` (R88). -/
def execFrsq (o : OpU) (s : State) : Out := float1 o (fun _ a => Num.frsq .fp32 a) s

/-- `FSQRT` (R88). -/
def execFsqrt (o : OpU) (s : State) : Out := float1 o (fun r a => Num.fsqrt .fp32 r a) s

/-- `FEX2` (R88). -/
def execFex2 (o : OpU) (s : State) : Out := float1 o (fun _ a => Num.fex2 a) s

/-- `FLG2` (R88). -/
def execFlg2 (o : OpU) (s : State) : Out := float1 o (fun _ a => Num.flg2 a) s

/-- `FSIN` (R88). -/
def execFsin (o : OpU) (s : State) : Out := float1 o (fun _ a => Num.fsin a) s

/-- `FCOS` (R88). -/
def execFcos (o : OpU) (s : State) : Out := float1 o (fun _ a => Num.fcos a) s

/-- `FTANH` (R88). -/
def execFtanh (o : OpU) (s : State) : Out := float1 o (fun _ a => Num.ftanh a) s

/-- `FADD d, s` in sixteen bits (R52). -/
def execFadd16 (q d : Nat) (s : State) : Out := floatHalf q d (fun r a b => Num.fadd .fp32 r a b) s

/-- `FSUB d, s` in sixteen bits (R52). -/
def execFsub16 (q d : Nat) (s : State) : Out := floatHalf q d (fun r a b => Num.fsub .fp32 r a b) s

/-- `FMUL d, s` in sixteen bits (R52). -/
def execFmul16 (q d : Nat) (s : State) : Out := floatHalf q d (fun r a b => Num.fmul .fp32 r a b) s

/-- `FMIN d, s` in sixteen bits (R52). -/
def execFmin16 (q d : Nat) (s : State) : Out := floatHalf q d (fun _ a b => Num.fmin .fp32 a b) s

/-- `FMAX d, s` in sixteen bits (R52). -/
def execFmax16 (q d : Nat) (s : State) : Out := floatHalf q d (fun _ a b => Num.fmax .fp32 a b) s

/-! Packed half (R89). -/

/-- R32: the format of a packed-half instruction from its operands' tags: they agree, and where all are raw `frm.hfmt` says. -/
def halfTag (tags : List Nat) (hfmt : Bool) : Option Nat :=
  match tags.filter (· != 0) with
  | [] => some (if hfmt then 0x13 else 0x12)
  | t :: r => if (t = 0x12 ∨ t = 0x13) ∧ r.all (· == t) then some t else none

/-- R34: the default packed-half format of the split. -/
def Split.hfmt (sp : Split) : Bool := sp.frm.getLsbD 3

/-- The floating format of a packed-half tag. -/
def halfFmt (t : Nat) : Num.Fmt := if t = 0x13 then .bf16 else .fp16

/-- Element `e` of a packed word (R27). -/
def elem (x : Word) (e : Nat) : Nat := x.toNat / 2 ^ (16 * e) % 2 ^ 16

/-- A packed word from its two elements (R27). -/
def packed (x y : Nat) : Word := BitVec.ofNat 32 (x + 2 ^ 16 * y)

/-- R89: a packed-half instruction, by its format, mode and the operands' words; `acc` where d is read as an operand. -/
def packedHalf (o : OpA) (acc : Bool) (f : Num.Fmt → Nat → Word → Word → Word → Word) (s : State) : Out :=
  let tags (h : Cohort) : List Nat := [h.vtag o.a, h.tagB o.q o.b] ++ if acc then [h.vtag o.d] else []
  issueOwn (if acc then usesAcc o else usesA o) (tagCheck fun w => (halfTag (tags w.h) w.sp.hfmt).isNone)
    (fun w h =>
      let t := (halfTag (tags w.h) w.sp.hfmt).getD 0x12
      h.setLanes o.d (w.h.writing w.sp o.g) t fun l =>
        f (halfFmt t) w.sp.mode (w.h.lane o.a l) (w.h.opB o.q o.b l) (w.h.lane o.d l)) s

/-- R89: the two elements computed apart. -/
def each2 (f : Nat → Nat → Nat) (a b : Word) : Word := packed (f (elem a 0) (elem b 0)) (f (elem a 1) (elem b 1))

/-- `HADD` (R89). -/
def execHadd (o : OpA) (s : State) : Out := packedHalf o false (fun t r a b _ => each2 (Num.fadd t r) a b) s

/-- `HSUB` (R89). -/
def execHsub (o : OpA) (s : State) : Out := packedHalf o false (fun t r a b _ => each2 (Num.fsub t r) a b) s

/-- `HMUL` (R89). -/
def execHmul (o : OpA) (s : State) : Out := packedHalf o false (fun t r a b _ => each2 (Num.fmul t r) a b) s

/-- `HMIN` (R89). -/
def execHmin (o : OpA) (s : State) : Out := packedHalf o false (fun t _ a b _ => each2 (Num.fmin t) a b) s

/-- `HMAX` (R89). -/
def execHmax (o : OpA) (s : State) : Out := packedHalf o false (fun t _ a b _ => each2 (Num.fmax t) a b) s

/-- `HFMA` (R89): one rounding an element, D's tag checked with the others. -/
def execHfma (o : OpA) (s : State) : Out :=
  packedHalf o true (fun t r a b d =>
    packed (Num.ffma t r (elem a 0) (elem b 0) (elem d 0)) (Num.ffma t r (elem a 1) (elem b 1) (elem d 1))) s

/-- `HDOT2` (R89): one rounding of the whole sum; element 1 is +0. -/
def execHdot2 (o : OpA) (s : State) : Out :=
  packedHalf o false (fun t r a b _ => packed (Num.fdot2 t r (elem a 0) (elem b 0) (elem a 1) (elem b 1)) 0) s

/-! FP64 (R90). -/

/-- R90: the operands of an FP64 instruction of two sources have other tags. -/
def badD2 (o : OpA) (w : Who) : Bool := wrongTag 0x10 (w.h.vtag o.a) || wrongTag 0x10 (w.h.tagB o.q o.b)

/-- R90: an FP64 instruction of two sources. -/
def double2 (o : OpA) (f : Nat → Nat → Nat → Nat) (s : State) : Out :=
  issueOwn (uses64 o) (tagCheck (badD2 o))
    (fun w h => h.setPair o.d (w.h.writing w.sp o.g) 0x10 fun l =>
      BitVec.ofNat 64 (f w.sp.mode (w.h.pair o.a l).toNat (w.h.opB64 o.q o.b l).toNat)) s

/-- R90: an FP64 instruction of one source. -/
def double1 (o : OpU) (f : Nat → Nat → Nat) (s : State) : Out :=
  issueOwn (usesU64 o) (tagCheck fun w => wrongTag 0x10 (w.h.vtag o.a))
    (fun w h => h.setPair o.d (w.h.writing w.sp o.g) 0x10 fun l => BitVec.ofNat 64 (f w.sp.mode (w.h.pair o.a l).toNat)) s

/-- `DADD` (R90). -/
def execDadd (o : OpA) (s : State) : Out := double2 o (fun r a b => Num.fadd .fp64 r a b) s

/-- `DSUB` (R90). -/
def execDsub (o : OpA) (s : State) : Out := double2 o (fun r a b => Num.fsub .fp64 r a b) s

/-- `DMUL` (R90). -/
def execDmul (o : OpA) (s : State) : Out := double2 o (fun r a b => Num.fmul .fp64 r a b) s

/-- `DMIN` (R90). -/
def execDmin (o : OpA) (s : State) : Out := double2 o (fun _ a b => Num.fmin .fp64 a b) s

/-- `DMAX` (R90). -/
def execDmax (o : OpA) (s : State) : Out := double2 o (fun _ a b => Num.fmax .fp64 a b) s

/-- `DFMA` (R90): the pair d is the addend. -/
def execDfma (o : OpA) (s : State) : Out :=
  issueOwn (uses64Acc o) (tagCheck fun w => badD2 o w || wrongTag 0x10 (w.h.vtag o.d))
    (fun w h => h.setPair o.d (w.h.writing w.sp o.g) 0x10 fun l =>
      BitVec.ofNat 64 (Num.ffma .fp64 w.sp.mode (w.h.pair o.a l).toNat (w.h.opB64 o.q o.b l).toNat (w.h.pair o.d l).toNat)) s

/-- `DRCP` (R90). -/
def execDrcp (o : OpU) (s : State) : Out := double1 o (fun r a => Num.frcp .fp64 r a) s

/-- `DSQRT` (R90). -/
def execDsqrt (o : OpU) (s : State) : Out := double1 o (fun r a => Num.fsqrt .fp64 r a) s

/-! Compares and predicates (R91, R92). -/

/-- R91: a compare writes pd in the writing lanes. -/
def compare (o : OpCmp) (u : Uses) (bad : Who → Bool) (f : Who → Nat → Bool) (s : State) : Out :=
  issueOwn u (tagCheck bad) (fun w h => h.setPred o.p (w.h.writing w.sp o.g) (maskOf (f w))) s

/-- R60: the registers of a compare of words. -/
def usesCmp (o : OpCmp) : Uses := laneUses (if o.q = 1 then [o.a] else [o.a, o.b]) (if o.q = 1 then [o.b] else []) [] o.g

/-- R91: the registers of a compare of pairs. -/
def usesCmp64 (o : OpCmp) : Uses :=
  { laneUses (pairOf o.a ++ if o.q = 1 then [] else pairOf o.b) (if o.q = 1 then [o.b] else []) [] o.g with
    pairs := o.a :: if o.q = 1 then [] else [o.b] }

/-- `ICMP` (R60, R91): signed. -/
def execIcmp (o : OpCmp) (s : State) : Out :=
  compare o (usesCmp o) (fun _ => false) (fun w l => condI o.c (w.h.lane o.a l).toInt (w.h.opB o.q o.b l).toInt) s

/-- `NCMP` (R60, R91): unsigned. -/
def execNcmp (o : OpCmp) (s : State) : Out :=
  compare o (usesCmp o) (fun _ => false) (fun w l => condI o.c (w.h.lane o.a l).toNat (w.h.opB o.q o.b l).toNat) s

/-- `FCMP` (R60, R91): the operands of `FADD`. -/
def execFcmp (o : OpCmp) (s : State) : Out :=
  compare o (usesCmp o) (fun w => wrongTag 0x11 (w.h.vtag o.a) || wrongTag 0x11 (w.h.tagB o.q o.b))
    (fun w l => condF o.c (Num.unpack .fp32 (w.h.lane o.a l).toNat) (Num.unpack .fp32 (w.h.opB o.q o.b l).toNat)) s

/-- `DCMP` (R60, R91): the operands of `DADD`. -/
def execDcmp (o : OpCmp) (s : State) : Out :=
  compare o (usesCmp64 o) (fun w => wrongTag 0x10 (w.h.vtag o.a) || wrongTag 0x10 (w.h.tagB o.q o.b))
    (fun w l => condF o.c (Num.unpack .fp64 (w.h.pair o.a l).toNat) (Num.unpack .fp64 (w.h.opB64 o.q o.b l).toNat)) s

/-- R92: a predicate instruction of two sources. -/
def pred2 (o : OpP) (f : Mask → Mask → Mask) (s : State) : Out :=
  issueOwn (laneUses [] [] [] o.g) noCheck
    (fun w h => h.setPred o.d (w.h.writing w.sp o.g) (f (w.h.pred o.a) (w.h.pred o.b))) s

/-- `PAND` (R92). -/
def execPand (o : OpP) (s : State) : Out := pred2 o (fun a b => a &&& b) s

/-- `POR` (R92). -/
def execPor (o : OpP) (s : State) : Out := pred2 o (fun a b => a ||| b) s

/-- `PXOR` (R92). -/
def execPxor (o : OpP) (s : State) : Out := pred2 o (fun a b => a ^^^ b) s

/-- `PNOT` (R92). -/
def execPnot (o : OpPn) (s : State) : Out :=
  issueOwn (laneUses [] [] [] o.g) noCheck (fun w h => h.setPred o.d (w.h.writing w.sp o.g) (~~~(w.h.pred o.a))) s

end Sys2Proof.Machine
end

