-- ==== Sys2Proof/Machine/LaneConv.lean ====
section
/-! DEFINITION. Conversions and shared-exponent access (R93 to R96), the operations across lanes (R97 to R100), and the moves
between register classes and special registers (R64, R103, R104, R163, R164). -/

namespace Sys2Proof.Machine

open Sys2Proof

/-! Conversions (R93, R94). -/

/-- The destination of a conversion is a pair: a 64-bit target, or `CVT.raw` of a 64-bit source (R93). -/
def wideDest (src tgt : Nat) : Bool := Num.wideTag tgt || (tgt == 0 && Num.wideTag src)

/-- R93: the registers of a conversion, by its source's tag. -/
def usesCvt (o : OpCvt) (w : Who) : Uses :=
  let src := w.h.vtag o.a
  let wide := wideDest src o.t
  { laneUses (if Num.wideTag src && o.a % 2 == 0 then pairOf o.a else [o.a]) [] (if wide then pairOf o.d else [o.d]) o.g with
    pairs := if wide then [o.d] else [] }

/-- R29: the shared exponent of a register, from its lowest lane that is not grey. -/
def Cohort.sxExp (h : Cohort) (n : Nat) : Nat := (h.lane n (lowestLane (~~~h.dmask))).toNat / 2 ^ 24

/-- The bits of a lane's element of a register, a pair where its tag is 64-bit (R21, R27). -/
def Cohort.elemBits (h : Cohort) (n l : Nat) : Nat :=
  if Num.wideTag (h.vtag n) then (h.pair n l).toNat else (h.lane n l).toNat

/-- The value of a lane's element (R28, R93). -/
def Cohort.elemVal (h : Cohort) (n l : Nat) : Num.FVal := Num.valueOf (h.vtag n) (h.sxExp n) (h.elemBits n l)

/-- R38: the split's dither phase advances after a conversion under DTH. -/
def Cohort.advancePhase (h : Cohort) (w : Who) : Cohort :=
  if w.sp.mode = 5 then h.onSplit w.i fun sp => { sp with dph := sp.dph + 1 } else h

/-- A word of a shared-exponent register from its exponent and mantissa (R29). -/
def sxWord (e : Nat) (m : Int) : Word := BitVec.ofNat 32 (e * 2 ^ 24 + Num.intBits 24 m)

/-- R29, R94, R96: a block written: each writing lane gets its mantissa and E, and every other lane that is not grey gets E. -/
def Cohort.setBlockLanes (h : Cohort) (n : Nat) (m : Mask) (tag e : Nat) (f : Nat → Int) : Cohort :=
  if m = 0 then h.setLanes n 0 tag fun _ => 0
  else h.setLanes n (~~~h.dmask) tag fun l =>
    if inMask m l then sxWord e (f l) else BitVec.ofNat 32 (e * 2 ^ 24 + (h.lane n l).toNat % 2 ^ 24)

/-- R94: the conversion of the writing lanes into one block. -/
def Cohort.toBlock (h : Cohort) (w : Who) (o : OpCvt) : Cohort :=
  let m := w.h.writing w.sp o.g
  let vals := (List.range 32).map fun l => if inMask m l then w.h.elemVal o.a l else Num.FVal.fin false 0 0
  let r := Num.toSX vals (o.t - 0x20) (o.s == 1) w.sp.mode w.sp.dph.toNat
  (h.setBlockLanes o.d m o.t r.1 fun l => r.2.getD l 0).advancePhase w

/-- R93: the conversion of each writing lane's element. -/
def Cohort.toElems (h : Cohort) (w : Who) (o : OpCvt) : Cohort :=
  let m := w.h.writing w.sp o.g
  let src := w.h.vtag o.a
  let f (l : Nat) : Nat :=
    if o.t = 0 then w.h.elemBits o.a l
    else Num.convert src (w.h.sxExp o.a) o.t (o.s == 1) w.sp.mode l w.sp.dph.toNat (w.h.elemBits o.a l)
  (if wideDest src o.t then h.setPair o.d m o.t fun l => BitVec.ofNat 64 (f l)
   else h.setLanes o.d m o.t fun l => BitVec.ofNat 32 (f l)).advancePhase w

/-- R33, R93: a reserved target, or a 64-bit source in an odd register. -/
def badCvt (o : OpCvt) (w : Who) : Bool := !Num.goodTag o.t || (Num.wideTag (w.h.vtag o.a) && o.a % 2 == 1)

/-- R93, R94: a conversion by its target. -/
def convertLanes (o : OpCvt) (bad : Who → Bool) (s : State) : Out :=
  issue (fun w _ => usesCvt o w) (tagCheck bad) noHold
    (fun w t => t.onCohort w.c w.k fun h => if (Num.sxOf o.t).isSome then h.toBlock w o else h.toElems w o) s

/-- `CVT` (R93). -/
def execCvt (o : OpCvt) (s : State) : Out := convertLanes o (badCvt o) s

/-- `CVTB` (R94): the source or the target is a block. -/
def execCvtb (o : OpCvt) (s : State) : Out :=
  convertLanes o (fun w => badCvt o w || ((Num.sxOf o.t).isNone && (Num.sxOf (w.h.vtag o.a)).isNone)) s

/-- `SXEXP` (R95). -/
def execSxexp (o : OpU) (s : State) : Out :=
  issueOwn (usesU o) (tagCheck fun w => (Num.sxOf (w.h.vtag o.a)).isNone)
    (fun w h => h.setLanes o.d (w.h.writing w.sp o.g) 0 fun _ => BitVec.ofNat 32 (w.h.sxExp o.a)) s

/-- R96: the control word, if there is one: b in the lowest writing lane, or a uniform b. -/
def sxControl (o : OpA) (w : Who) : Option Nat :=
  let m := w.h.writing w.sp o.g
  if o.q = 1 then some ((w.h.uq o.b).toNat % 2 ^ 32)
  else if m = 0 then none else some (w.h.lane o.b (lowestLane m)).toNat

/-- R96: the tag that a control word selects. -/
def sxTag (o : OpA) (w : Who) (c : Nat) : Nat := if c / 256 % 64 = 0 then w.h.vtag o.a else c / 256 % 64

/-- R96: the check on the control word is precise and has code 6. It is made as the instruction executes, by the lanes that are left to write
(R224, R225). -/
def sxsetHold (o : OpA) (w : Who) (t : State) : Option State :=
  match sxControl o w with
  | some c => if (Num.sxOf (sxTag o w c)).isNone then some (t.stopAt w { code := 6 }) else none
  | none => none

/-- `SXSET` (R96). -/
def execSxset (o : OpA) (s : State) : Out :=
  issue (fun _ _ => usesA o) noCheck (sxsetHold o)
    (fun w t => t.onCohort w.c w.k fun h =>
      match sxControl o w with
      | none => h
      | some c =>
        let t := sxTag o w c
        h.setBlockLanes o.d (w.h.writing w.sp o.g) t (c % 256) fun l => Num.sintOf (t - 0x20) (w.h.lane o.a l).toNat) s

/-! Shuffles (R97). -/

/-- R97: the source lane, by the mode: 0 idx, 1 up, 2 down, 3 xor. -/
def shflSrc (mode l k : Nat) : Nat :=
  match mode with
  | 0 => k
  | 1 => if l < k then l else l - k
  | 2 => if 31 < l + k then l else l + k
  | _ => l ^^^ k

/-- The source lane of lane `l`. -/
def Who.shflFrom (w : Who) (mode : Nat) (o : OpA) (l : Nat) : Nat := shflSrc mode l ((w.h.opB o.q o.b l).toNat % 32)

/-- R224: the writing lanes to which a shuffle brings poison, or whose own selector is poisoned. -/
def Who.shflEat (w : Who) (mode : Nat) (o : OpA) : Mask :=
  let m := w.h.writing w.sp o.g
  let uni := o.q = 1 && o.b != 0 && (Tbl.at w.h.q o.b {}).poison
  maskOf fun l => inMask m l &&
    (uni || (o.q != 1 && inMask (w.h.vreg o.b).poison l) ||
      (let j := w.shflFrom mode o l
       inMask (w.h.vreg o.a).poison j && !inMask w.h.dmask j && inMask w.sp.entry j))

/-- R97: a shuffle. -/
def shuffle (mode : Nat) (o : OpA) (s : State) : Out :=
  issue (fun w _ => { usesA o with eat := some (w.shflEat mode o) }) noCheck noHold
    (fun w t => t.onCohort w.c w.k fun h =>
      let m := w.h.writing w.sp o.g
      let grey := (lanesOf m).any fun l => inMask w.h.dmask (w.shflFrom mode o l)
      (h.setLanes o.d m (if grey then 0 else w.h.vtag o.a) fun l =>
        let j := w.shflFrom mode o l
        if inMask w.h.dmask j || !inMask w.sp.entry j then 0 else w.h.lane o.a j).flagGrey grey) s

/-- `SHFL.idx` (R97). -/
def execShflIdx (o : OpA) (s : State) : Out := shuffle 0 o s

/-- `SHFL.up` (R97). -/
def execShflUp (o : OpA) (s : State) : Out := shuffle 1 o s

/-- `SHFL.down` (R97). -/
def execShflDown (o : OpA) (s : State) : Out := shuffle 2 o s

/-- `SHFL.xor` (R97). -/
def execShflXor (o : OpA) (s : State) : Out := shuffle 3 o s

/-! Votes, reductions, election (R98 to R100). -/

/-- `VOTE.any` (R98). -/
def execVoteAny (o : OpVoteP) (s : State) : Out :=
  issueOwn (laneUses [] [] [] o.g) noCheck
    (fun w h =>
      let m := w.h.writing w.sp o.g
      h.setPred o.p m (if w.h.pred o.s &&& m = 0 then 0 else BitVec.allOnes 32)) s

/-- `VOTE.all` (R98). -/
def execVoteAll (o : OpVoteP) (s : State) : Out :=
  issueOwn (laneUses [] [] [] o.g) noCheck
    (fun w h =>
      let m := w.h.writing w.sp o.g
      h.setPred o.p m (if w.h.pred o.s &&& m = m then BitVec.allOnes 32 else 0)) s

/-- `VOTE.ballot` (R98). -/
def execVoteBallot (o : OpVoteB) (s : State) : Out :=
  issueOwn (laneUses [] [] [o.d] o.g) noCheck
    (fun w h =>
      let m := w.h.writing w.sp o.g
      h.setLanes o.d m 0 fun _ => w.h.pred o.s &&& m) s

/-- R61, R99: the combine of two values, by its code. -/
def combine (k mode : Nat) (a b : Word) : Word :=
  let f (x : Nat) : Word := BitVec.ofNat 32 x
  match k with
  | 0 => a + b
  | 1 => if b.toInt < a.toInt then b else a
  | 2 => if a.toInt < b.toInt then b else a
  | 3 => if b.toNat < a.toNat then b else a
  | 4 => if a.toNat < b.toNat then b else a
  | 5 => a &&& b
  | 6 => a ||| b
  | 7 => a ^^^ b
  | 8 => f (Num.fadd .fp32 mode a.toNat b.toNat)
  | 9 => f (Num.fmin .fp32 a.toNat b.toNat)
  | 10 => f (Num.fmax .fp32 a.toNat b.toNat)
  | 11 => f (Num.fminn .fp32 a.toNat b.toNat)
  | _ => f (Num.fmaxn .fp32 a.toNat b.toNat)

/-- R44: an absent value passes its partner through. -/
def combineOpt (k mode : Nat) : Option Word → Option Word → Option Word
  | some a, some b => some (combine k mode a b)
  | none, b => b
  | a, none => a

/-- One level of the tree of R44: neighbours combined. -/
def pairUp (k mode : Nat) : List (Option Word) → List (Option Word)
  | a :: b :: r => combineOpt k mode a b :: pairUp k mode r
  | l => l

/-- R44: the pairwise tree over 32 lanes. -/
def pairwiseTree (k mode : Nat) (l : List (Option Word)) : Option Word :=
  (pairUp k mode (pairUp k mode (pairUp k mode (pairUp k mode (pairUp k mode l))))).headD none

/-- The values of the contributing lanes. -/
def Who.contrib (w : Who) (o : OpRed) : List (Option Word) :=
  (List.range 32).map fun l => if inMask (w.h.writing w.sp o.g) l then some (w.h.lane o.a l) else none

/-- R99: the combine is one of the floating ones. -/
def isFloatOp (k : Nat) : Bool := 8 ≤ k

/-- The tag check of `RED` and `SCAN` (R99). -/
def badRed (o : OpRed) (w : Who) : Bool := isFloatOp o.k && wrongTag 0x11 (w.h.vtag o.a)

/-- `RED` (R44, R99). -/
def execRed (o : OpRed) (s : State) : Out :=
  issueOwn (laneUses [o.a] [] [o.d] o.g) (tagCheck (badRed o))
    (fun w h => h.setLanes o.d (w.h.writing w.sp o.g) (if isFloatOp o.k then 0x11 else 0)
      fun _ => (pairwiseTree o.k w.sp.mode (w.contrib o)).getD 0) s

/-- `SCAN` (R45, R99): the prefix up to a lane. -/
def execScan (o : OpRed) (s : State) : Out :=
  issueOwn (laneUses [o.a] [] [o.d] o.g) (tagCheck (badRed o))
    (fun w h => h.setLanes o.d (w.h.writing w.sp o.g) (if isFloatOp o.k then 0x11 else 0)
      fun l => (((w.contrib o).take (l + 1)).foldl (combineOpt o.k w.sp.mode) none).getD 0) s

/-- `ELECT` (R100). -/
def execElect (p g : Nat) (s : State) : Out :=
  issueOwn (laneUses [] [] [] g) noCheck
    (fun w h =>
      let m := w.h.writing w.sp g
      h.setPred p m (1#32 <<< lowestLane m)) s

/-! Moves between classes (R103). -/

/-- R224: poison in the one lane whose word the instruction reads greys the split. -/
def Who.eatOne (w : Who) (n : Nat) (m : Mask) : Mask :=
  if inMask (w.h.vreg n).poison (lowestLane m) then w.sp.entry else 0

/-- `V2Q` (R103). -/
def execV2q (a d : Nat) (s : State) : Out :=
  issue (fun w _ => { vs := [a], ud := [d], eat := some (w.eatOne a (w.h.active w.sp)) }) noCheck noHold
    (fun w t => t.onCohort w.c w.k fun h =>
      let m := w.h.active w.sp
      if m = 0 then h.setQ d 0 0 else h.setQ d ((w.h.lane a (lowestLane m)).zeroExtend 64) (w.h.vtag a)) s

/-- `Q2V` (R103): 64-bit tags become raw. -/
def execQ2v (o : OpU) (s : State) : Out :=
  issueOwn (laneUses [] [o.a] [o.d] o.g) noCheck
    (fun w h => h.setLanes o.d (w.h.writing w.sp o.g) (if Num.wideTag (w.h.utag o.a) then 0 else w.h.utag o.a)
      fun _ => (w.h.uq o.a).truncate 32) s

/-! Special registers (R64, R104). -/

/-- The code of a handle's state in `tcfg` (R163). -/
def HState.code : HState → Nat
  | .free => 0 | .resident => 1 | .bound => 2 | .filling => 3 | .nonResident => 4 | .released => 5

/-- R163: the special register `tcfg` of a handle. -/
def Handle.tcfg (x : Handle) : DWord :=
  BitVec.ofNat 64 (x.rows + x.cols * 2 ^ 8 + x.tag * 2 ^ 17 + x.layout * 2 ^ 23 + x.breg * 2 ^ 26 + (if x.bchk then 2 ^ 31 else 0) +
    x.owner * 2 ^ 32 + x.state.code * 2 ^ 37 + x.log.length * 2 ^ 40 + x.phase * 2 ^ 44 + (if x.frames = 0 then 0 else x.frame) * 2 ^ 49)

/-- Handle `n` of the issuing cohort's block. -/
def State.myHandle (s : State) (w : Who) (n : Nat) : Handle := (s.block? w.c w.h.slot).elim {} fun b => Tbl.at b.handles n {}

/-- R64: the index names a special register. -/
def specialOk (s : State) (w : Who) (x : Nat) : Bool :=
  x ≤ 0xa || x == 0x10 || x == 0x11 || x == 0x18 || x == 0x19 || (0x40 ≤ x && x < 0x40 + s.handleCount w && x < 0x80)

/-- R64: the index names a special register that software may write. -/
def specialRw (x : Nat) : Bool := x == 0 || x == 0x10 || x == 0x11 || x == 0x18 || (0x40 ≤ x && x < 0x80)

/-- R64: the value of a special register other than `laneid`, which gives each lane its own index. -/
def specialVal (s : State) (w : Who) (x : Nat) : DWord :=
  match x with
  | 0 => w.sp.exec.zeroExtend 64
  | 1 => w.h.dmask.zeroExtend 64
  | 3 => BitVec.ofNat 64 w.h.cohortid
  | 4 => BitVec.ofNat 64 (w.h.blockid.1 % 2 ^ 32)
  | 5 => BitVec.ofNat 64 (w.h.blockid.2.1 % 2 ^ 32)
  | 6 => BitVec.ofNat 64 (w.h.blockid.2.2 % 2 ^ 32)
  | 7 => BitVec.ofNat 64 w.h.gangrank
  | 8 => BitVec.ofNat 64 w.h.stage
  | 9 => BitVec.ofNat 64 w.c
  | 0xa => BitVec.ofNat 64 (w.c / 32)
  | 0x10 => w.sp.frm.zeroExtend 64
  | 0x11 => w.sp.dph.zeroExtend 64
  | 0x18 => w.h.bstat.zeroExtend 64
  | 0x19 => BitVec.ofNat 64 (s.core w.c).lclk
  | _ => (s.myHandle w (x - 0x40)).tcfg

/-- `MOVX` (R63, R64, R104). -/
def execMovx (o : OpMovx) (s : State) : Out :=
  issue (fun w t => { vd := if o.c = 1 then [] else [o.d], ud := if o.c = 1 then [o.d] else [], whole := o.c = 1, guard := o.g,
                      illegal := !specialOk t w o.x }) noCheck noHold
    (fun w t => t.onCohort w.c w.k fun h =>
      let m := w.h.writing w.sp o.g
      if o.c = 1 then
        h.setQ o.d (if o.x = 2 then (if m = 0 then 0 else BitVec.ofNat 64 (lowestLane m)) else specialVal t w o.x) 0
      else h.setLanes o.d m 0 fun l => if o.x = 2 then BitVec.ofNat 32 l else (specialVal t w o.x).truncate 32) s

/-- R104: the value that `MOVS` writes, if there is one. -/
def movsVal (o : OpMovs) (w : Who) : Option DWord :=
  if o.c = 1 then some (w.h.uq o.d)
  else
    let m := w.h.active w.sp
    if m = 0 then none else some ((w.h.lane o.d (lowestLane m)).zeroExtend 64)

/-- R163, R164: the faults of a write of `tcfg`. -/
def tcfgBad (x : Handle) (v : DWord) : Option Bad :=
  let tag := bitsAt v 22 17
  let layout := bitsAt v 25 23
  if !Num.goodTag tag then some { code := 6 }
  else if x.state != .free && x.state != .released then some { code := 8 }
  else if 4 ≤ layout || tag == 0 || ((Num.sxOf tag).isSome != decide (2 ≤ layout)) then some { code := 9 }
  else none

/-- R163: the fields of `tcfg` that a write sets. -/
def Handle.configure (x : Handle) (v : DWord) : Handle :=
  { x with rows := bitsAt v 7 0, cols := bitsAt v 16 8, tag := bitsAt v 22 17, layout := bitsAt v 25 23, breg := bitsAt v 30 26,
           bchk := v.getLsbD 31 }

/-- R34, R69: `MOVS` writes mode 6 or 7 to `frm`, which is an illegal instruction. -/
def badMode (o : OpMovs) (w : Who) : Bool := o.x == 0x10 && (movsVal o w).any fun v => 6 ≤ v.toNat % 8

/-- R164: what `MOVS` refuses of a write of `tcfg`. With no lane to give a value there is none to check, and the handle's state is checked all the same
(R69). -/
def movsCheck (o : OpMovs) (w : Who) (s : State) : Option Bad :=
  if o.x < 0x40 then none
  else
    let x := s.myHandle w (o.x - 0x40)
    match movsVal o w with
    | none => if x.state != .free && x.state != .released then some { code := 8 } else none
    | some v => tcfgBad x v

/-- R104: the special register written. -/
def State.writeSpecial (s : State) (w : Who) (x : Nat) (v : DWord) : State :=
  match x with
  | 0 => s.onCohort w.c w.k fun h => h.onSplit w.i fun sp => { sp with exec := v.truncate 32 &&& sp.entry &&& ~~~h.dmask }
  | 0x10 => s.onCohort w.c w.k fun h => h.onSplit w.i fun sp => { sp with frm := v.truncate 4 }
  | 0x11 => s.onCohort w.c w.k fun h => h.onSplit w.i fun sp => { sp with dph := v.truncate 5 }
  | 0x18 => s.onCohort w.c w.k fun h => { h with bstat := h.bstat &&& ~~~(v.truncate 32) }
  | _ => s.setHandle w.c w.h.slot (x - 0x40) ((s.myHandle w (x - 0x40)).configure v)

/-- `MOVS` (R34, R63, R64, R104, R164). -/
def execMovs (o : OpMovs) (s : State) : Out :=
  issue (fun w t => { vs := if o.c = 1 then [] else [o.d], us := if o.c = 1 then [o.d] else [], illegal := !(specialOk t w o.x && specialRw o.x) || badMode o w,
                      eat := if o.c = 1 then none else some (w.eatOne o.d (w.h.active w.sp)) }) (movsCheck o) noHold
    (fun w t => match movsVal o w with
      | none => t
      | some v => t.writeSpecial w o.x v) s

end Sys2Proof.Machine
end

