-- ==== Sys2Proof/Machine/Fetch.lean ====
section
/-! DEFINITION. Fetching an instruction (R49, R69, R398): halfwords through the core's translation, and a fault where one half
cannot be read. -/

namespace Sys2Proof.Machine

open Sys2Proof

/-- What a fetch finds. -/
inductive Fetched where
  /-- bytes of the instruction, as many as its first halfword asks for -/
  | bytes (b : List Byte)
  /-- a fault at an address: subcode 0 translation, 1 address error, 2 poison (log entry 20) -/
  | bad (sub va : Nat)
  deriving DecidableEq, Repr

/-- One halfword through the code path (R49), from the home slice of its line (R275 to R277). -/
def State.fetchHalf (s : State) (c asid gang va : Nat) : Fetched × State :=
  match s.findNow c asid gang .fetch va with
  | (.ok pa _, s1) =>
    let s2 := (s1.lineRead (pa / 128) 0).narrow (pa / 128)
    if s2.poisoned pa 2 then (.bad 2 va, s2) else (.bytes (s2.peekBytes pa 2), s2)
  | (.noAddr, s1) => (.bad 1 va, s1)
  | (_, s1) => (.bad 0 va, s1)

/-- R49: the bytes of the instruction at an address; a fault on either half is one fault. -/
def State.fetchAt (s : State) (c asid gang pc : Nat) : Fetched × State :=
  match s.fetchHalf c asid gang pc with
  | (.bytes (b0 :: b1), s1) =>
    if b0.toNat % 2 = 0 then (.bytes (b0 :: b1), s1)
    else
      match s1.fetchHalf c asid gang (pc + 2) with
      | (.bytes b2, s2) => (.bytes (b0 :: b1 ++ b2), s2)
      | r => r
  | r => r

/-- The instruction at an address, if its bytes can be fetched and decode (R113). -/
def State.instrAt (s : State) (c k : Nat) (pc : DWord) : Option Instr :=
  match s.cohort? c k with
  | none => none
  | some h =>
    match (s.fetchAt c h.asid (s.gangOf c h) pc.toNat).1 with
    | .bytes b => match decode b with | .ok (i, _) => some i | .error _ => none
    | .bad .. => none

end Sys2Proof.Machine
end

