-- ==== Sys2Proof/Machine/Sync.lean ====
section
/-! DEFINITION. Barriers of blocks and gangs, monitors, signals and channels (R123 to R134, R281), with the steps that hardware
takes for them. -/

namespace Sys2Proof.Machine

open Sys2Proof

/-! Block barriers (R124 to R126). -/

/-- Barrier `n` of the issuing cohort's block. -/
def State.myBarrier (s : State) (w : Who) (n : Nat) : Barrier :=
  (s.block? w.c w.h.slot).elim {} fun b => Tbl.at b.bars n {}

/-- R125: every lane of the split has arrived in the current phase already. -/
def Who.arrivedAll (w : Who) (n : Nat) : Bool :=
  Tbl.has w.h.barLanes n && w.sp.entry &&& ~~~(w.h.arrivedLanes n) == 0

/-- R125: the phase that the cohort recorded at its last arrival has not completed. -/
def State.mustWait (s : State) (w : Who) (n : Nat) : Bool := (s.myBarrier w n).phase == Tbl.at w.h.barPhase n false

/-- R125: the lanes of the split wait to arrive again at a barrier of the block, or of the gang under `16 + n`. -/
def State.waitAgain (s : State) (w : Who) (n : Nat) : State :=
  (s.onCohort w.c w.k fun h => { h with rearrive := Tbl.put h.rearrive n (Tbl.at h.rearrive n 0 ||| w.sp.entry) }).waitIn w 2
    (if n < 16 then .barrier n true else .gangBarrier (n - 16) true)

/-- R228: the split waits anew for a completion that it waited for before a trap or a swap-out, and not to arrive again. -/
def Who.rewaits (w : Who) (n : Nat) : Bool := w.sp.rewait && Tbl.at w.h.rearrive n 0 &&& w.sp.entry == 0

/-- R126: the order that the completion of a wait gives: as `FENCE.blk` with predecessor {R} and successor {R, W}. -/
def State.waitDone (s : State) (w : Who) : State := (s.onCohort w.c w.k fun h => h.order 0 0x80 0xc0).pushOnce .fenceComplete [w.c, w.k]

/-- R125: the lanes of a split arrive at barrier `n`: the phase is recorded, and a cohort whose lanes have all arrived joins the
unit's queue. DESIGN CHOICE (log entry 84): the count that the cohort's arrival carries is that of its last split; the spec gives one count an arrival. -/
def State.arriveBar (s : State) (w : Who) (n count : Nat) : State :=
  (s.onCohort w.c w.k fun h => { h with
    barLanes := Tbl.put h.barLanes n (h.arrivedLanes n ||| w.sp.entry)
    barPhase := Tbl.put h.barPhase n (s.myBarrier w n).phase
    rearrive := Tbl.put h.rearrive n (Tbl.at h.rearrive n 0 &&& ~~~w.sp.entry)
    barCount := Tbl.put h.barCount n count }).cohortArrives w.c w.k n

/-- R126: what a barrier names: an arrival releases the split's accesses on path g and to scratchpads at block scope. -/
def usesBar (a : Nat) (w : Who) : Uses := { us := [a], rel := some { scope := 0, cls := 0xc0, by_ := w.sp.entry, near := true } }

/-- `BAR.aw` (R125): the split arrives and waits; one whose wait was resumed only waits (R228), and one whose lanes have all arrived
waits for the next phase to arrive in it. -/
def execBarAw (n a : Nat) (s : State) : Out :=
  issue (fun w _ => usesBar a w) noCheck
    (fun w t =>
      if w.rewaits n then (if t.mustWait w n then some (t.waitIn w 2 (.barrier n false)) else none)
      else if w.arrivedAll n then some (t.waitAgain w n)
      else some ((t.waitIn w 2 (.barrier n false)).arriveBar w n (w.h.uq a).toNat))
    (fun w t => t.waitDone w) s

/-- `BAR.arv` (R125). -/
def execBarArv (n a : Nat) (s : State) : Out :=
  issue (fun w _ => usesBar a w) noCheck
    (fun w t => if w.arrivedAll n then some (t.waitAgain w n) else none)
    (fun w t => t.arriveBar w n (w.h.uq a).toNat) s

/-- `BAR.wt` (R125). -/
def execBarWt (n a : Nat) (s : State) : Out :=
  issue (fun _ _ => { us := [a] }) noCheck
    (fun w t => if t.mustWait w n then some (t.waitIn w 2 (.barrier n false)) else none)
    (fun w t => t.waitDone w) s

/-- R125: the barrier after it has taken an arrival. -/
def Barrier.take (r : Barrier) (cid cnt : Nat) : Barrier :=
  { r with queue := r.queue.tail, arrived := r.arrived + 1, who := r.who ++ [cid], expected := if r.who = [] then cnt else r.expected }

/-- R125: the arrivals that wait for a core's barrier unit, by the order in which it takes them: the cycle in which each became complete and then the
cohort. -/
def CoreSt.arrivals (co : CoreSt) : List Nat :=
  (Tbl.vals co.blocks).flatMap fun b => (Tbl.vals b.bars).filterMap fun r => r.queue.head?.map fun q => q.1 * 64 + q.2.1

/-- R125: the unit may take the arrival at the head of a queue: it became complete in an earlier cycle, no other comes before it, and the unit has taken
none in this cycle. -/
def CoreSt.mayTake (co : CoreSt) (q : Nat × Nat × Nat) : Bool :=
  q.1 < co.lclk && co.barClk ≤ co.lclk && co.arrivals.all fun n => q.1 * 64 + q.2.1 ≤ n

/-- BARRIER_ARRIVAL_TAKEN (R125): the unit takes one cohort arrival; the phase may complete. -/
def execBarrierArrivalTaken (s : State) : Out :=
  let c := s.arg 0
  let b := s.arg 1
  let n := s.arg 2
  match s.block? c b with
  | none => .next s
  | some bl =>
    let r := Tbl.at bl.bars n {}
    match r.queue with
    | [] => .next s
    | q :: rest =>
      if !(s.core c).mayTake q then .next (s.pushOnce .barrierArrivalTaken [c, b, n])
      else
        let cid := q.2.1
        let cnt := min q.2.2 bl.ncohorts
        let r' := r.take cid cnt
        let s1 := (s.setBlock c b { bl with bars := Tbl.put bl.bars n r' }).onCore c fun co =>
          { co.onBlockCohorts b fun h => if h.cohortid = cid then h.flagMismatch (r.who != [] && cnt != r.expected) else h with barClk := co.lclk + 1 }
        let s2 := if r'.complete bl.live then s1.completeBarrier c b n else s1
        .next (if rest = [] then s2 else s2.pushOnce .barrierArrivalTaken [c, b, n])

/-! Gang barriers (R127). -/

/-- The gang barrier of the issuing block's side. -/
def State.myGangBar (s : State) (w : Who) (n : Nat) : GangBar :=
  match s.block? w.c w.h.slot with
  | none => {}
  | some b =>
    match Tbl.find? s.gangs b.gang with
    | none => {}
    | some g => Tbl.at g.bars (2 * n + g.side b.rank) {}

/-- R125, R127: every lane of the split has arrived at the gang barrier in the current phase already. -/
def Who.gangArrivedAll (w : Who) (n : Nat) : Bool :=
  Tbl.has w.h.gbarLanes n && w.sp.entry &&& ~~~(Tbl.at w.h.gbarLanes n 0) == 0

/-- R127: the recorded phase has not completed. -/
def State.mustWaitGang (s : State) (w : Who) (n : Nat) : Bool := (s.myGangBar w n).phase == Tbl.at w.h.gbarPhase n false

/-- R127: the lanes of a split arrive at gang barrier `n`. -/
def State.arriveGang (s : State) (w : Who) (n count : Nat) : State :=
  (s.onCohort w.c w.k fun h => { h with
    gbarLanes := Tbl.put h.gbarLanes n (Tbl.at h.gbarLanes n 0 ||| w.sp.entry)
    gbarPhase := Tbl.put h.gbarPhase n (s.myGangBar w n).phase
    rearrive := Tbl.put h.rearrive (16 + n) (Tbl.at h.rearrive (16 + n) 0 &&& ~~~w.sp.entry)
    gbarCount := Tbl.put h.gbarCount n count }).blockArrives w.c w.h.slot n

/-- R127: what a gang barrier names: an arrival waits for what its release orders at device scope. -/
def usesGbar (a : Nat) (w : Who) : Uses := { us := [a], rel := some { scope := 2, cls := 0xc0, by_ := w.sp.entry } }

/-- `GBAR.aw` (R127). -/
def execGbarAw (n a : Nat) (s : State) : Out :=
  issue (fun w _ => usesGbar a w) noCheck
    (fun w t =>
      if w.rewaits (16 + n) then (if t.mustWaitGang w n then some (t.waitIn w 2 (.gangBarrier n false)) else none)
      else if w.gangArrivedAll n then some (t.waitAgain w (16 + n))
      else some ((t.waitIn w 2 (.gangBarrier n false)).arriveGang w n (w.h.uq a).toNat))
    (fun _ t => t) s

/-- `GBAR.arv` (R127). -/
def execGbarArv (n a : Nat) (s : State) : Out :=
  issue (fun w _ => usesGbar a w) noCheck
    (fun w t => if w.gangArrivedAll n then some (t.waitAgain w (16 + n)) else none)
    (fun w t => t.arriveGang w n (w.h.uq a).toNat) s

/-- `GBAR.wt` (R127). -/
def execGbarWt (n a : Nat) (s : State) : Out :=
  issue (fun _ _ => { us := [a] }) noCheck
    (fun w t => if t.mustWaitGang w n then some (t.waitIn w 2 (.gangBarrier n false)) else none)
    (fun _ t => t) s

/-- GBAR_PHASE_MESSAGE (R127): the other side of a gang sees that side `d` has completed its local phase. A message that the other
side has no room for yet waits. -/
def execGbarPhaseMessage (s : State) : Out :=
  let gid := s.arg 0
  let n := s.arg 1
  let d := 1 - s.arg 2
  match Tbl.find? s.gangs gid with
  | none => .next s
  | some g =>
    let r := Tbl.at g.bars (2 * n + d) {}
    if r.seen then .next (s.push .gbarPhaseMessage [gid, n, s.arg 2])
    else .next (({ s with gangs := Tbl.put s.gangs gid { g with bars := Tbl.put g.bars (2 * n + d) { r with seen := true } } } : State).releaseSide
      gid n d)

/-! Monitors (R128, R129, R265). -/

/-- R128: the bytes that an `MWAIT` compares. -/
def OpWidth (o : OpMwait) : Nat := if o.w = 1 then 8 else 4

/-- The physical address of an `MWAIT`, in near or far memory. -/
def State.mwaitAddr (s : State) (w : Who) (o : OpMwait) : Found :=
  match (s.findNow w.c w.h.asid (s.gangOf w.c w.h) .load (w.h.uq o.a).toNat).1 with
  | .ok pa sm => if isHomed pa then .ok pa sm else .noAddr
  | r => r

/-- R128, R137: the precise faults of `MWAIT`. -/
def mwaitCheck (o : OpMwait) (w : Who) (s : State) : Option Bad :=
  let a := (w.h.uq o.a).toNat
  if a % OpWidth o != 0 then some { code := 11, sub := 1, addr := a }
  else match s.mwaitAddr w o with
    | .ok .. => none
    | .noAddr => some { code := 19, addr := a }
    | _ => some { code := 18, addr := a }

/-- R280: the monitors that a slice has armed. -/
def State.armedAt (s : State) (slice : Nat) : Nat := ((Tbl.vals s.monitors).filter fun m => homeOf m.addr == slice).length

/-- R128: an `MWAIT` whose address is good: status 1 at once, status 0 where the slice's table of 256 is full, else the cohort
parks with a monitor armed. DESIGN CHOICE (log entry 96): its read fills the slice with RRPV 2; the spec gives it no reuse code. -/
def State.mwaitAt (s : State) (w : Who) (o : OpMwait) (pa : Nat) : State :=
  let n := OpWidth o
  let r := s.homeRead pa n 2
  let v := (w.h.uq o.v).toNat % 256 ^ n
  let act := w.h.active w.sp
  if r.2.poisoned pa n then r.2.greyLanes w.c w.k w.sp.entry w.sp.pc.toNat
  else if condU o.c r.1 v then (r.2.onCohort w.c w.k fun h => h.setPred o.p act (BitVec.allOnes 32)).acquireDev w.c w.k
  else if 256 ≤ r.2.armedAt (homeOf pa) then r.2.onCohort w.c w.k fun h => h.setPred o.p act 0
  else
    let id := r.2.nextId
    let m : Monitor := { id := id, addr := pa, wide := o.w == 1, cond := o.c, cmp := v, uid := w.h.uid, asid := w.h.asid, core := w.c, slot := w.k }
    ({ r.2 with nextId := id + 1, monitors := Tbl.put r.2.monitors id m } : State).onCohort w.c w.k fun h =>
      let p : Parked := { split := w.i, pred := o.p, mon := id }
      if h.handler then { h with hparked := some p } else { h with parked := some p }

/-- R252: an older write of the cohort to some of the bytes has not performed, or one of its core that an earlier load may have returned (R253). -/
def State.behindWrite (s : State) (c : Nat) (h : Cohort) (pa n : Nat) : Bool :=
  (h.stores.any fun st => st.lanes.any fun a =>
    match (s.findNow c h.asid (s.gangOf c h) st.kind.acc a.va).1 with
    | .ok p _ => p < pa + n && pa < p + st.size
    | _ => false) ||
  s.accs.any fun e => e.2.core == c && e.2.stage == 0 && e.2.kind != .load && touches e.2.lanes e.2.size pa n

/-- R252, R276, R277: an `MWAIT` reads after the cohort's older writes of its bytes, and when the slice can take it. -/
def mwaitHold (o : OpMwait) (w : Who) (t : State) : Option State :=
  match t.mwaitAddr w o with
  | .ok pa _ => if t.behindWrite w.c w.h pa (OpWidth o) || !t.readReady (pa / 128) then some t else none
  | _ => none

/-- `MWAIT` (R128). -/
def execMwait (o : OpMwait) (s : State) : Out :=
  issue (fun _ _ => { us := [o.a, o.v], acc := 0x80, path := some 0 }) (mwaitCheck o) (mwaitHold o)
    (fun w t =>
      let t1 := (t.findNow w.c w.h.asid (t.gangOf w.c w.h) .load (w.h.uq o.a).toNat).2
      match t1.mwaitAddr w o with
      | .ok pa _ => t1.mwaitAt w o pa
      | _ => t1) s

/-- R343: the bit of the wake word that a firing sets: as of a stopped program where the cohort is in its handler and the program's monitor fires. -/
def Cohort.wakeBit (h : Cohort) (mon : Nat) : BitVec 2 := if h.handler && h.hparked.all (·.mon != mon) then 2 else 1

/-- R343: a firing put into the wake word of a cohort's image. -/
def State.wakeImage (s : State) (h : Cohort) (mon : Nat) : State :=
  s.putImg (h.image + 0x20a8) (leBytes 4 (s.peekN (h.image + 0x20a8) 4 ||| (h.wakeBit mon).toNat))

/-- R129, R343: a firing kept in the wake word of a cohort that is out, in its image. -/
def State.wakeAway (s : State) (c uid mon : Nat) : State :=
  match (s.core c).away.find? (·.uid == uid) with
  | none => s
  | some h =>
    ((s.onCore c fun co => { co with away := co.away.map fun x => if x.uid = uid then { x with wake := x.wake ||| h.wakeBit mon } else x }).wakeImage
      h mon).pushOnce .schedule []

/-- R129, R342, R343: the same of a cohort whose group is evicted. -/
def State.wakeSaved (s : State) (uid mon : Nat) : State :=
  match ((s.saved.flatMap (·.blocks)).flatMap (·.cohorts)).find? (·.uid == uid) with
  | none => s
  | some h =>
    ({ s with saved := s.saved.map fun g => { g with blocks := g.blocks.map fun b =>
        { b with cohorts := b.cohorts.map fun x => if x.uid = uid then { x with wake := x.wake ||| h.wakeBit mon } else x } } } : State).wakeImage
      h mon

/-- MONITOR_WAKE (R128, R129): the wake of monitor `mon` reaches its cohort: parked, stopped, or out of its core. -/
def execMonitorWake (s : State) : Out :=
  let uid := s.arg 0
  let mon := s.arg 1
  match s.whereIs uid with
  | some (c, k) =>
    match s.cohort? c k with
    | none => .next s
    | some h =>
      if h.hparked.any (·.mon == mon) then .next ((s.setCohort c k h.wakeHandler).acquireDev c k)
      else if h.parked.any (·.mon == mon) then
        if h.stopped || h.handler then .next (s.setCohort c k { h with wake := h.wake ||| 2 })
        else .next ((s.setCohort c k h.wakeUp).acquireDev c k)
      else .next s
  | none =>
    match s.awayAt uid with
    | some c => .next (s.wakeAway c uid mon)
    | none => .next (s.wakeSaved uid mon)

/-! Signals (R130). -/

/-- R130: a misaligned signal object. -/
def sigdCheck (o : OpSigd) (w : Who) (_ : State) : Option Bad :=
  if (w.h.uq o.a).toNat % 8 != 0 then some { code := 11, sub := 1, addr := (w.h.uq o.a).toNat } else none

/-- R130: the decrement that the store queue takes. -/
def Who.sigdStore (w : Who) (o : OpSigd) (seq : Nat) : StoreOp :=
  { seq := seq, word := w.word, len := w.len, pc := w.sp.pc, kind := .sub, scope := o.s, size := 8, mask := w.h.active w.sp,
    lanes := [{ lane := 0, va := (w.h.uq o.a).toNat, x := if o.v = 0 then 1 else (w.h.uq o.v).toNat }], handler := w.h.handler }

/-- R130: the scope that a `SIGD` releases at: that of its encoding, or the system for an object of a peer. -/
def Who.sigdScope (w : Who) (o : OpSigd) (s : State) : Nat :=
  match (s.findNow w.c w.h.asid (s.gangOf w.c w.h) .atomic (w.h.uq o.a).toNat).1 with
  | .ok pa _ => (match regionOf pa with | .peer .. => 3 | _ => o.s)
  | _ => o.s

/-- `SIGD` (R130): it waits for what it releases, and its decrement then follows the cohort's stores. -/
def execSigd (o : OpSigd) (s : State) : Out :=
  issue (fun w t => { us := [o.a, o.v], acc := 0x40, store := true, rel := some { scope := w.sigdScope o t, cls := 0xff } }) (sigdCheck o) noHold
    (fun w t => t.queueStore w.c w.k (w.sigdStore o (w.h.seq + 1))) s

/-! Channels (R131 to R134, R281). -/

/-- R134: the channel that a block sends on, or receives on, by its number. -/
def State.chanFor (s : State) (w : Who) (ch : Nat) (send : Bool) : Option Nat :=
  (s.block? w.c w.h.slot).bind fun b => Tbl.find? (if send then b.sends else b.recvs) ch

/-- Channel `id`. -/
def State.chan (s : State) (id : Nat) : Chan :=
  Tbl.at s.chans id { sender := (0, 0), receiver := (0, 0), slots := 0, size := 0, free := 0 }

/-- The registers of a channel operation: one, or an even pair (R65). -/
def chanRegs (n a : Nat) : List Nat := if n = 1 then pairOf a else [a]

/-- R131: the payload: all lanes of each register, grey lanes zero, cut to the slot size. -/
def Who.payload (w : Who) (regs : List Nat) (size : Nat) : List Byte :=
  ((regs.flatMap fun r => (List.range 32).flatMap fun l =>
    leBytes 4 (if inMask w.h.dmask l then 0 else (w.h.lane r l).toNat))).take size

/-- `SEND` (R131, R281): it takes a free slot and its payload leaves; held while none is free. -/
def execSend (o : OpSend) (s : State) : Out :=
  issue (fun w t => { vs := chanRegs o.n o.a, pairs := if o.n = 1 then [o.a] else [], illegal := (t.chanFor w o.c true).isNone,
                      rel := some { scope := 2, cls := 0xff } }) noCheck
    (fun w t => match t.chanFor w o.c true with
      | some id => if (t.chan id).free = 0 then some (t.waitIn w 3 (.channel o.c)) else none
      | none => none)
    (fun w t =>
      match t.chanFor w o.c true with
      | none => t
      | some id =>
        let x := t.chan id
        let regs := chanRegs o.n o.a
        let y := { x with free := x.free - 1, flight := x.flight ++ [(w.payload regs x.size, regs.map w.h.vtag)] }
        ({ t with chans := Tbl.put t.chans id y } : State).sendTo 3 0 (coreRouter x.sender.1) (coreRouter x.receiver.1) (corePort x.receiver.1)
          { row := .channelPacketReceive, ops := [id] }) s

/-- R270, R281: the acknowledgement of a channel packet leaves for the sender; between two blocks of one router nothing travels. -/
def State.ackChannel (s : State) (x : Chan) : State :=
  if coreRouter x.sender.1 = coreRouter x.receiver.1 then s
  else s.sendTo 1 4 (coreRouter x.receiver.1) (coreRouter x.sender.1) (corePort x.sender.1) { row := .writeAcknowledgement, ops := [0] }

/-- CHANNEL_PACKET_RECEIVE (R281): the oldest payload on its way performs in its slot, its acknowledgement leaves, and receivers held try again. -/
def execChannelPacketReceive (s : State) : Out :=
  let id := s.arg 0
  let x := s.chan id
  match x.flight with
  | [] => .next s
  | p :: r =>
    .next (((({ s with chans := Tbl.put s.chans id { x with flight := r, full := x.full ++ [p] } } : State).onCore x.receiver.1 fun co =>
      co.onBlockCohorts x.receiver.2 fun h => h.retryAll fun y => match y with | .channel _ => true | _ => false).ackChannel x).checkBlock
        x.sender.1 x.sender.2)

/-- R132: the word of a payload, zero beyond the slot size. DESIGN CHOICE (log entry 81): it is zero, and its register raw, also inside the slot where the
`SEND` wrote fewer registers than the `RECV` reads; the spec gives no value there. -/
def payloadWord (p : List Byte) (i : Nat) : Word := BitVec.ofNat 32 (leNat ((p.drop (4 * i)).take 4))

/-- R132: a register received: words of the payload in the lanes that write, with the header's tag unless the slot cut it short. -/
def Cohort.receive (h : Cohort) (m : Mask) (p : List Byte × List Nat) (size r i : Nat) : Cohort :=
  h.setLanes r m (if size < 128 * (i + 1) then 0 else p.2.getD i 0) fun l => payloadWord p.1 (32 * i + l)

/-- `RECV` (R132, R281): it takes the oldest full slot and returns a credit; held while none is full. It acquires at device
scope. -/
def execRecv (o : OpRecv) (s : State) : Out :=
  issue (fun w t => { vd := chanRegs o.n o.d, pairs := if o.n = 1 then [o.d] else [], illegal := (t.chanFor w o.c false).isNone }) noCheck
    (fun w t => match t.chanFor w o.c false with
      | some id => if (t.chan id).full = [] then some (t.waitIn w 3 (.channel o.c)) else none
      | none => none)
    (fun w t =>
      match t.chanFor w o.c false with
      | none => t
      | some id =>
        let x := t.chan id
        match x.full with
        | [] => t
        | p :: rest =>
          let m := w.h.active w.sp
          let t1 := (t.onCohort w.c w.k fun h =>
            let h1 := h.receive m p x.size o.d 0
            if o.n = 1 then h1.receive m p x.size (o.d + 1) 1 else h1).acquireDev w.c w.k
          ({ t1 with chans := Tbl.put t1.chans id { x with full := rest } } : State).sendTo 1 0 (coreRouter x.receiver.1) (coreRouter x.sender.1)
            (corePort x.sender.1) { row := .channelCredit, ops := [id] }) s

/-- CHANNEL_CREDIT (R281): a credit raises the sender's free count, and senders held try again. -/
def execChannelCredit (s : State) : Out :=
  let id := s.arg 0
  let x := s.chan id
  if x.slots ≤ x.free + x.flight.length + x.full.length then .next s
  else
    .next (({ s with chans := Tbl.put s.chans id { x with free := x.free + 1 } } : State).onCore x.sender.1 fun co =>
      co.onBlockCohorts x.sender.2 fun h => h.retryAll fun y => match y with | .channel _ => true | _ => false)

/-- R133: the state word of a channel. -/
def Chan.word (x : Chan) : DWord :=
  BitVec.ofNat 64 (x.full.length + x.free * 2 ^ 8 + x.slots * 2 ^ 16 + x.size / 16 * 2 ^ 24)

/-- The channel of that number, in either direction (R134). -/
def State.chanEither (s : State) (w : Who) (ch : Nat) : Option Nat :=
  match s.chanFor w ch true with
  | some id => some id
  | none => s.chanFor w ch false

/-- `CHQ` (R133, R134): legal on both sides. -/
def execChq (c d : Nat) (s : State) : Out :=
  issue (fun w t => { ud := [d], illegal := (t.chanEither w c).isNone }) noCheck noHold
    (fun w t => match t.chanEither w c with
      | some id => t.onCohort w.c w.k fun h => h.setQ d (t.chan id).word 0
      | none => t) s

/-- CHANNEL_STALL (R134): a `SEND` or `RECV` held for the watchdog count traps; not in handler mode. -/
def execChannelStall (s : State) : Out :=
  let c := s.arg 0
  let k := s.arg 1
  match s.cohort? c k with
  | none => .next s
  | some h =>
    match h.split? (s.arg 2) with
    | none => .next s
    | some sp =>
      let dog := (Tbl.find? s.launches h.launch).elim 0 (·.wdog)
      if sp.state != 3 || dog == 0 || sp.timer < dog || h.stopped || h.handler then .next s
      else
        let word := match (s.fetchAt c h.asid (s.gangOf c h) sp.pc.toNat).1 with
          | .bytes b => leNat b
          | .bad .. => 0
        .next (s.trapWith c k { code := 14, pc := sp.pc, word := word })

end Sys2Proof.Machine
end

