-- ==== Sys2Proof/Machine/Worklist.lean ====
section
/-! DEFINITION. Work lists: stage queues and the termination detector (R205, R206, R310). -/

namespace Sys2Proof.Machine

open Sys2Proof

/-- The launch of the issuing cohort. -/
def State.myLaunch (s : State) (w : Who) : Option Launch := Tbl.find? s.launches w.h.launch

/-- Stage `n` of the issuing cohort's launch, where it has a queue (R299). -/
def State.queueStage (s : State) (w : Who) (n : Nat) : Option StageSt :=
  match s.myLaunch w with
  | none => none
  | some l => match l.stages[n]? with
    | some st => if st.qlog = 0 then none else some st
    | none => none

/-- R299: the queue holds all its 2^qlog items. -/
def StageSt.fullQueue (st : StageSt) : Bool := 2 ^ st.qlog ≤ st.queue.length

/-- A stage of the issuing cohort's launch changed. -/
def State.onStage (s : State) (l n : Nat) (f : StageSt → StageSt) : State :=
  { s with launches := Tbl.adj s.launches l fun x => { x with stages := x.stages.mapIdx fun i st => if i = n then f st else st } }

/-- `WPUSH` (R205, R310): it waits for what it releases, is held while the queue is full, and appends its item. -/
def execWpush (n a : Nat) (s : State) : Out :=
  issue (fun w t => { us := [a], illegal := (t.queueStage w n).isNone, rel := some { scope := 2, cls := 0xff } }) noCheck
    (fun w t => match t.queueStage w n with
      | some st => if st.fullQueue then some (t.waitIn w 7 (.queue n)) else none
      | none => none)
    (fun w t => (t.onStage w.h.launch n fun st => { st with queue := st.queue ++ [w.h.uq a] }).pushOnce .schedule []) s

/-- The splits of a launch that hold a push to a stage's queue try it again. -/
def State.retryPushes (s : State) (l n : Nat) : State :=
  { s with cores := Tbl.mapv s.cores fun _ co => co.onCohorts fun h => if h.launch = l then h.retryAll (· == .queue n) else h }

/-- The status of a work-list instruction in the active lanes (R205). -/
def State.status (s : State) (w : Who) (p : Nat) (b : Bool) : State :=
  s.onCohort w.c w.k fun h => h.setPred p (w.h.active w.sp) (if b then BitVec.allOnes 32 else 0)

/-- `WPOP` (R205, R206): the oldest item of the block's own stage with status 1, or zero with status 0. Either way the cohort no
longer holds an earlier item. DESIGN CHOICE (log entry 100): in a stage that has no queue it answers as for an empty one; the spec is silent on it. -/
def execWpop (p d : Nat) (s : State) : Out :=
  issue (fun _ _ => { ud := [d] }) noCheck noHold
    (fun w t =>
      let t1 := t.onCohort w.c w.k fun h => { h with holds := false }
      match (t.queueStage w w.h.stage).map (·.queue) with
      | some (x :: r) =>
        let t2 := (t1.onStage w.h.launch w.h.stage fun st => { st with queue := r }).onCohort w.c w.k fun h => { h.setQ d x 0 with holds := true }
        ((((t2.status w p true).acquireDev w.c w.k).retryPushes w.h.launch w.h.stage).pushOnce .schedule [])
      | _ => ((t1.onCohort w.c w.k fun h => h.setQ d 0 0).status w p false).pushOnce .schedule []) s

/-- `QUIES` (R205, R206): it ends the holding of an item and asks the termination detector. -/
def execQuies (p : Nat) (s : State) : Out :=
  issue (fun _ _ => {}) noCheck noHold
    (fun w t =>
      let t1 := (t.onCohort w.c w.k fun h => { h with holds := false }).detectQuiet w.h.launch
      (t1.status w p (t1.quiescent w.h.launch)).pushOnce .schedule []) s

end Sys2Proof.Machine
end

