-- ==== Sys2Proof/Machine/Placement.lean ====
section
/-! DEFINITION. Placement and scheduling of blocks, their start and end, and the end of launches (R220, R230, R231, R303 to R317,
R339). -/

namespace Sys2Proof.Machine

open Sys2Proof

/-! Choosing a core (R303 to R306). -/

/-- What the blocks of core `c` hold of it. -/
def State.takenOf (s : State) (c : Nat) : Taken :=
  let co := s.core c
  let bs := Tbl.vals co.blocks
  { slots := Tbl.keys co.blocks, cohorts := Tbl.keys co.cohorts, handles := bs.foldl (fun a b => a + b.nHandles) 0
    scratch := bs.map fun b => (b.base, b.size + b.chanSize), banks := bs.map fun b => (b.accBase, b.accN) }

/-- The launch unit may place on core `c`: it is present, not held (R406), and its stack takes no checkpoint (R414; log entry 41). -/
def State.placeable (s : State) (c : Nat) : Bool := s.present c && !(s.core c).held && (Tbl.at s.stackTbl (c / 32) {}).step == 0

/-- What a core on which the launch unit may place has taken of it. -/
def State.takenNow (s : State) (c : Nat) : Option Taken := if s.placeable c then some (s.takenOf c) else none

/-- R303: the room on core `c` for a block of a stage. -/
def State.roomOn (s : State) (c : Nat) (st : StageSt) (area : Nat) : Option Room := (s.takenNow c).bind fun t => t.room st area

/-- The task that a stage's next gang starts with: of one lost at a warm reset, or of the next one (R306, R416). -/
def StageSt.nextTask (st : StageSt) : Nat := st.redo.headD st.placed

/-- R306: the counter-based generator. -/
def mix64 (seed stage idx : Nat) : Nat :=
  let m := 2 ^ 64
  let x := (seed + 0x9e3779b97f4a7c15 * (stage % 256 * 2 ^ 56 + idx % 2 ^ 56 + 1)) % m
  let y := (x ^^^ (x / 2 ^ 30)) * 0xbf58476d1ce4e5b9 % m
  let z := (y ^^^ (y / 2 ^ 27)) * 0x94d049bb133111eb % m
  z ^^^ (z / 2 ^ 31)

/-- R306: the place in the eligible list that a block is drawn. -/
def drawIndex (seed stage idx n : Nat) : Nat := mix64 seed stage idx / 2 ^ 32 * n / 2 ^ 32

/-- R306: the first cores that a gang may use: all eligible ones in free mode, the drawn one in deterministic mode, or the next
upward whose run is present. -/
def State.candidates (s : State) (l : Launch) (n t0 : Nat) : List Nat :=
  let runs := l.eligible.getD n []
  let g := (l.stages.getD n {}).gang
  if l.det then
    let i := drawIndex l.seed n t0 runs.length
    ((runs.drop i ++ runs.take i).filter fun c => (List.range g).all fun (k : Nat) => s.present (c + k)).take 1
  else runs

/-- R306: the cores in the order in which a single block prefers them: with the fewest resident blocks first, and of those the lower number. -/
def State.byBlocks (s : State) (t : Tbl Taken) (l : List Nat) : List Nat :=
  (List.range 8).flatMap fun k => l.filter fun c => (takenAt s.takenNow t c).any fun x => x.slots.length == k

/-- R306: the first cores that the next gang of a stage prefers, in order, beside what its group has taken. -/
def State.choices (s : State) (l : Launch) (n : Nat) (t : Tbl Taken) : List Nat :=
  let st := l.stages.getD n {}
  let cs := s.candidates l n st.nextTask
  if st.gang = 1 then s.byBlocks t cs else cs

/-- R303, R306: the first cores for the gangs of a group, if there is room for all of them at once. -/
def State.chooseCores (s : State) (l : Launch) (ns : List Nat) : Option (List Nat) := fitGroup s.takenNow l.stages l.chans (s.choices l) ns []

/-! Images (R320). -/

/-- Every cohort that has an image: resident, swapped out, or of an evicted group. -/
def State.allCohorts (s : State) : List Cohort :=
  ((Tbl.vals s.cores).flatMap fun co => Tbl.vals co.cohorts ++ co.away) ++ (s.saved.flatMap fun g => g.blocks.flatMap (·.cohorts))

/-- R320: the images of a context that no cohort has, rising. -/
def State.freeImages (s : State) (asid : Nat) : List Nat :=
  let base := (s.ctx asid 0x20).toNat / 2 ^ 16 % 2 ^ 36 * 2 ^ 16
  let used := (s.allCohorts.filter fun h => h.asid == asid).map (·.image)
  ((List.range ((s.ctx asid 0x28).toNat % 2 ^ 16)).map fun (i : Nat) => base + 0x10000 * i).filter fun a => !used.contains a

/-! Placing a group. -/

/-- A stage with its next gang placed. -/
def StageSt.placedOne (st : StageSt) : StageSt :=
  match st.redo with
  | [] => { st with placed := st.placed + st.gang }
  | _ :: r => { st with redo := r }

/-- R214: the role of a cohort, by the role counts. -/
def roleOf : List Nat → Nat → Nat
  | [], _ => 0
  | n :: r, k => if k < n then 0 else 1 + roleOf r (k - n)

/-- R299: a block's coordinates. -/
def StageSt.coords (st : StageSt) (task : Nat) : Nat × Nat × Nat :=
  if st.qd then (task, 0, 0) else (task % st.gx, task / st.gx % st.gy, task / st.gx / st.gy)

/-- R208, R219, R300: a cohort as it is before its first instruction, without its split: no line of its lane registers has been brought in. -/
def newCohort (id : Nat) (l : Launch) (n task rank slot cid uid image window : Nat) : Cohort :=
  let st := l.stages.getD n {}
  let h : Cohort :=
    { uid := uid, launch := id, stage := n, slot := slot, cohortid := cid, blockid := st.coords task, gangrank := rank, asid := l.asid
      image := image, budget := st.regs.getD (roleOf st.roles cid) 0, absent := List.range (st.regs.getD (roleOf st.roles cid) 0) }
  ((l.args.zipIdx.foldl (fun (x : Cohort) a => x.setQ (3 + a.2) a.1 0) h).setQ 1 (BitVec.ofNat 64 l.dataBase) 0).setQ 2 (BitVec.ofNat 64 window) 0

/-- R246: a launch new to a core finds its read-only caches empty. -/
def CoreSt.freshFor (co : CoreSt) (id : Nat) : CoreSt :=
  if (Tbl.vals co.blocks).any (·.launch == id) then co else { co with kcache := [], tcache := [] }

/-- R303, R304: rank `k` of a gang placed on core `c`; answers the place and the state. -/
def State.placeBlock (s : State) (id : Nat) (l : Launch) (n task gid window k c : Nat) : Option ((Nat × Nat) × State) :=
  let st := l.stages.getD n {}
  let area := chanArea l.chans n
  match s.roomOn c st area with
  | none => none
  | some r =>
    let imgs := s.freeImages l.asid
    if imgs.length < st.cohorts then none
    else
      let uid (i : Nat) : Nat := s.nextId + i
      let hs := r.cohorts.zipIdx.map fun e => (e.1, newCohort id l n task k r.slot e.2 (uid e.2) (imgs.getD e.2 0) window)
      let b : Block :=
        { launch := id, stage := n, task := task, gang := gid, rank := k, base := r.base, size := st.scratch, chanSize := area
          accBase := r.bank, accN := st.acc, nHandles := st.handles, ncohorts := st.cohorts, live := List.range st.cohorts
          uids := hs.map fun e => e.2.uid }
      let s1 := ({ s with nextId := s.nextId + st.cohorts } : State).onCore c fun co =>
        let co1 := co.freshFor id
        { co1 with
          blocks := Tbl.put co1.blocks r.slot b
          cohorts := hs.foldl (fun t e => Tbl.put t e.1 e.2) co1.cohorts
          owners := hs.foldl (fun t e => Tbl.put t e.1 e.2.uid) co1.owners }
      some ((c, r.slot), s1.push .blockStart [c, r.slot])

/-- R221, R303: a gang of a stage placed on the run from core `c0` on, its window at a base that the spec leaves open (log entry 2); answers its
members by rank. -/
def State.placeGang (s : State) (id : Nat) (l : Launch) (n t0 c0 : Nat) : Option (List (Nat × Nat) × State) :=
  let st := l.stages.getD n {}
  let gid := s.nextId
  let d := s.draw
  let window := d.1.toNat % 2 ^ 33 * 2 ^ 24
  let s1 : State := { d.2 with nextId := gid + 1 }
  let z := (List.range st.gang).foldl
    (fun (z : Option (List (Nat × Nat) × State)) (k : Nat) =>
      z.bind fun y => (y.2.placeBlock id l n (t0 + k) gid window k (c0 + k)).map fun w => (y.1 ++ [w.1], w.2))
    (some ([], s1))
  z.map fun y => (y.1, { y.2 with gangs := Tbl.put y.2.gangs gid { members := y.1, window := window } })

/-- R309: the two ends of one channel. -/
def State.joinChan (s : State) (d : ChanDecl) (x y : Nat × Nat) : State :=
  let id := s.nextId
  let s1 : State := { s with
    nextId := id + 1
    chans := Tbl.put s.chans id { sender := x, receiver := y, slots := d.slots, size := d.size, free := d.slots } }
  (s1.onBlock x.1 x.2 fun b => { b with sends := Tbl.put b.sends d.ch id }).onBlock y.1 y.2 fun b => { b with recvs := Tbl.put b.recvs d.ch id }

/-- R281, R309: the channels of a group placed: the members of each of its stages by rank. -/
def State.joinChans (s : State) (l : Launch) (made : Tbl (List (Nat × Nat))) : State :=
  l.chans.foldl
    (fun (t : State) d =>
      match Tbl.find? made d.src, Tbl.find? made d.dst with
      | some fs, some ts =>
        fs.zipIdx.foldl (fun (u : State) e =>
          u.joinChan d e.1 (ts.getD (if d.src = d.dst then (e.2 + 1) % ts.length else e.2) (0, 0))) t
      | _, _ => t) s

/-- R303: a group placed whole, or nothing: the gangs of the stages given, from the task of each that comes next. -/
def State.placeGroup (s : State) (id : Nat) (l : Launch) (ns : List Nat) : Option State :=
  let z := (s.chooseCores l ns).bind fun cs => (ns.zip cs).foldl
    (fun (z : Option (Tbl (List (Nat × Nat)) × State)) e =>
      z.bind fun y => (y.2.placeGang id l e.1 (l.stages.getD e.1 {}).nextTask e.2).map fun w => (Tbl.put y.1 e.1 w.1, w.2))
    (some ([], s))
  z.map fun y =>
    let s1 := y.2.joinChans l y.1
    let cnt := ns.foldl (fun a n => if (l.stages.getD n {}).redo = [] then a + (l.stages.getD n {}).gang else a) 0
    { s1 with launches := Tbl.adj s1.launches id fun x =>
        { x with
          placed := x.placed + cnt
          stages := x.stages.mapIdx fun i st => if ns.contains i then st.placedOne else st } }

/-! Choosing what runs next (R307, R339, R343). -/

/-- R307: a later stage's queue is more than three quarters full. -/
def Launch.backPressed (l : Launch) (n : Nat) : Bool :=
  l.stages.zipIdx.any fun e => n < e.2 && e.1.qlog != 0 && 3 * 2 ^ e.1.qlog < e.1.queue.length * 4

/-- R307, R309: the stages of the group that stage `n` has next, where it has one. A pass comes to a group at the highest of its stages. -/
def State.nextGroup (s : State) (id : Nat) (l : Launch) (n : Nat) : Option (List Nat) :=
  let st := l.stages.getD n {}
  if l.killed || l.backPressed n then none
  else if st.qd then
    (if st.queue != [] && st.placed - st.ended < st.workers && !s.quiescent id then some [n] else none)
  else
    let ps := partners l.stages l.chans n
    if (st.placed < st.total || st.redo != []) && ps.getLast? == some n then some ps else none

/-- R122, R339: every split of the block is parked, waiting or yielding. -/
def CoreSt.restful (co : CoreSt) (b : Nat) : Bool :=
  let hs := (Tbl.vals co.cohorts).filter (·.slot == b)
  hs != [] && hs.all fun h => !h.stopped && !h.leaving && !h.ending &&
    (h.isParked || ((Tbl.vals h.splits).all (fun sp => sp.state != 0) && h.overflow.all (fun sp => sp.state != 0)))

/-- R339: the blocks of core `c` that may make way for a block of a level: those of lower levels, lowest first and then by slot. -/
def State.yielders (s : State) (c level : Nat) : List Nat :=
  let co := s.core c
  let lev (x : Block) : Nat := (Tbl.find? s.launches x.launch).elim 4 (·.level)
  (List.range level).flatMap fun v => (List.filter (fun (e : Nat × Block) => lev e.2 == v && co.restful e.1) co.blocks).map Prod.fst

/-- R339: what core `c` has taken but for the cohort slots that are being given up, or could be for a block of a level. -/
def State.takenButSlots (s : State) (level c : Nat) : Option Taken :=
  let ys := s.yielders c level
  (s.takenNow c).map fun t =>
    { t with cohorts := (List.filter (fun (e : Nat × Cohort) => !e.2.leaving && !ys.contains e.2.slot) (s.core c).cohorts).map Prod.fst }

/-- R339: the blocks of core `c` that make way, in order, until `need` cohort slots are free. -/
def State.makeWay (s : State) (c level need : Nat) : List Nat :=
  let co := s.core c
  let count (b : Nat) : Nat := ((Tbl.vals co.cohorts).filter fun h => h.slot == b && !h.leaving).length
  let free := 32 - ((Tbl.vals co.cohorts).filter fun h => !h.leaving).length
  ((s.yielders c level).foldl (fun (z : List Nat × Nat) b => if need ≤ z.2 then z else (z.1 ++ [b], z.2 + count b)) ([], free)).1

/-- R339: the blocks swapped out so that a group may be placed, each gang on the first run where the group fits but for cohort slots and enough of
them can be freed. -/
def State.swapPlan (s : State) (l : Launch) (ns : List Nat) : List (Nat × Nat) :=
  match fitGroup (s.takenButSlots l.level) l.stages l.chans (fun n _ => s.candidates l n (l.stages.getD n {}).nextTask) ns [] with
  | none => []
  | some cs =>
    let need : Tbl Nat := (ns.zip cs).foldl (fun t e =>
      let st := l.stages.getD e.1 {}
      (List.range st.gang).foldl (fun t k => Tbl.put t (e.2 + k) (Tbl.at t (e.2 + k) 0 + st.cohorts)) t) []
    need.flatMap fun (e : Nat × Nat) => (s.makeWay e.1 l.level e.2).map fun b => (e.1, b)

/-- R339: the blocks that make way for the next group of a stage, where the group has no room. -/
def State.planFor (s : State) (id : Nat) (l : Launch) (n : Nat) : List (Nat × Nat) :=
  match s.nextGroup id l n with
  | none => []
  | some ns => if (s.chooseCores l ns).isSome then [] else s.swapPlan l ns

/-- R339, R340: a block's resident cohorts are told to leave. -/
def State.swapBlock (s : State) (c b : Nat) (auto : Bool) : State :=
  let ks := (List.filter (fun (e : Nat × Cohort) => e.2.slot == b && !e.2.ending) (s.core c).cohorts).map Prod.fst
  ks.foldl (fun (t : State) k => (t.onCohort c k fun h => { h with leaving := true, auto := h.auto || auto }).pushOnce .cohortSwapOut [c, k]) s

/-- PRIORITY_SWAP_OUT (R339): the launch unit swaps out blocks of lower levels for the launch's groups that wait. -/
def execPrioritySwapOut (s : State) : Out :=
  match Tbl.find? s.launches (s.arg 0) with
  | none => .next s
  | some l =>
    let plans := (List.range l.stages.length).reverse.map fun n => s.planFor (s.arg 0) l n
    .next (((plans.find? (· != [])).getD []).foldl (fun (t : State) e => t.swapBlock e.1 e.2 true) s)

/-- R343: a block of a launch, with a cohort that passes a test, which the launch unit brings back: its cohorts find slots on its core. -/
def State.comeback (s : State) (p : Cohort → Bool) (id : Nat) : Option (Nat × Nat) :=
  s.cores.findSome? fun e => if (Tbl.at s.stackTbl (e.1 / 32) {}).step != 0 then none else
    (e.2.away.find? fun h => h.launch == id && h.frozen == [] && p h &&
      e.2.cohorts.length + (e.2.away.filter (·.slot == h.slot)).length ≤ 32).map fun h => (e.1, h.slot)

/-- R311: a static stage whose blocks have all ended discards the items of its queue. -/
def State.discard (s : State) (id : Nat) : State :=
  match Tbl.find? s.launches id with
  | none => s
  | some l =>
    l.stages.zipIdx.foldl (fun (t : State) e =>
      if !e.1.qd && e.1.ended == e.1.total && e.1.queue != [] then
        let t1 := (List.range e.1.queue.length).foldl (fun (u : State) _ => u.launchErr id 4 e.2 0 0 0) t
        (({ t1 with launches := Tbl.adj t1.launches id fun x => { x with dropped := x.dropped + e.1.queue.length } } : State).onStage id e.2
          fun st => { st with queue := [] }).retryPushes id e.2
      else t) s

/-- R312: the launch has ended: every static block, no worker left, and quiescence where it has a queue. -/
def State.launchOver (s : State) (id : Nat) (l : Launch) : Bool :=
  !l.killed && l.stages.all (fun st => st.ended == (if st.qd then st.placed else st.total)) &&
    (l.stages.all (fun st => st.qlog == 0) || s.quiescent id)

/-- R317: every placed block of a killed launch has ended. -/
def Launch.killOver (l : Launch) : Bool := l.killed && l.stages.all fun st => st.ended == st.placed

/-- The end of a launch put on what is due, if it is over. -/
def State.checkLaunch (s : State) (id : Nat) : State :=
  match Tbl.find? s.launches id with
  | none => s
  | some l => if s.launchOver id l then s.pushOnce .launchComplete [id] else if l.killOver then s.pushOnce .launchKillComplete [id] else s

/-- R307: the launches of a level, in order of acceptance. -/
def State.ofLevel (s : State) (v : Nat) : List Nat := (List.filter (fun (e : Nat × Launch) => e.2.level == v) s.launches).map Prod.fst

/-- R307: the launches in the order of a pass: decreasing level, then order of acceptance. -/
def State.passOrder (s : State) : List Nat := [3, 2, 1, 0].flatMap s.ofLevel

/-- What a pass of `Schedule` does. -/
inductive Sched where
  /-- nothing can be placed -/
  | idle
  /-- a group is placed -/
  | placed (s : State)
  /-- a block that was swapped out comes back to its core -/
  | back (c b : Nat)
  deriving DecidableEq, Repr

/-- R307: one launch in a pass: the first group that can be placed, and whether one could not. -/
def State.tryStages (s : State) (id : Nat) (l : Launch) : List Nat → Sched × Bool
  | [] => (.idle, false)
  | n :: r =>
    match s.nextGroup id l n with
    | none => State.tryStages s id l r
    | some ns =>
      match s.placeGroup id l ns with
      | some t => (.placed t, false)
      | none => ((State.tryStages s id l r).1, true)

/-- R307: one pass over the launches of a level, up to the first group placed or block brought back that the launch unit swapped out; answers the launches
that have a group waiting too. -/
def State.pass (s : State) : List Nat → Bool → Sched × List Nat
  | [], _ => (.idle, [])
  | id :: r, blocked =>
    match Tbl.find? s.launches id with
    | none => State.pass s r blocked
    | some l =>
      match (if blocked then none else s.comeback (·.auto) id) with
      | some x => (.back x.1 x.2, [])
      | none =>
        match s.tryStages id l (List.range l.stages.length).reverse with
        | (.placed t, _) => (.placed t, [])
        | (_, w) =>
          let z := State.pass s r (blocked || w)
          (z.1, if w then id :: z.2 else z.2)

/-- R307, R343: one pass over the levels given: in each one a block whose wake word is set comes back before any other. -/
def State.passLevels (s : State) : List Nat → Bool → Sched × List Nat
  | [], _ => (.idle, [])
  | v :: r, blocked =>
    match (if blocked then none else (s.ofLevel v).findSome? (s.comeback (·.wake.getLsbD 0))) with
    | some x => (.back x.1 x.2, [])
    | none =>
      match s.pass (s.ofLevel v) blocked with
      | (.idle, ws) => ((State.passLevels s r (blocked || ws != [])).1, ws ++ (State.passLevels s r (blocked || ws != [])).2)
      | z => z

/-- SCHEDULE (R307, R308): one pass. A pass that places a group or brings a block back is followed by another. -/
def execSchedule (s : State) : Out :=
  let s0 := s.passOrder.foldl (fun (t : State) id => (t.discard id).checkLaunch id) s
  let s1 := if (s0.hubReg 0x2008).getLsbD 63 then s0.pushOnce .ctxcmdComplete [] else s0
  match s1.passLevels [3, 2, 1, 0] false with
  | (.placed t, _) => .next (t.pushOnce .schedule [])
  | (.back c b, _) =>
    let us := ((s1.core c).away.filter (·.slot == b)).map (·.uid)
    .next ((us.foldl (fun (t : State) u => t.pushOnce .cohortRestore [u]) s1).pushOnce .schedule [])
  | (.idle, ws) =>
    let can (id : Nat) : Bool := match Tbl.find? s1.launches id with
      | none => false
      | some l => (List.range l.stages.length).any fun n => s1.planFor id l n != []
    .next ((ws.filter can).foldl (fun (t : State) id => t.pushOnce .prioritySwapOut [id]) s1)

/-! The start and the end of a block. -/

/-- R231, R234, R241: bytes of a core's own store cleared: zero, empty and good. -/
def State.clearStore (s : State) (a n : Nat) : State :=
  if n = 0 then s
  else { s with mem := Mem.clear s.mem a n, full := remRange s.full (a / 16) (n / 16), poison := remRange s.poison (a / 16) (n / 16) }

/-- BLOCK_START (R208, R231, R241, R314): the allocation, the channel area and the banks are cleared, the core gives up copies of memory
that may be older than the submission, and the cohorts start. -/
def execBlockStart (s : State) : Out :=
  let c := s.arg 0
  let b := s.arg 1
  match s.block? c b with
  | none => .next s
  | some x =>
    if x.started then .next s
    else
      let entry := ((Tbl.find? s.launches x.launch).bind fun l => l.stages[x.stage]?).elim 0 (·.entry)
      let s1 := (s.clearStore (coreBase c + x.base) (x.size + x.chanSize)).clearStore (accBase c + x.accBase * 0x10000) (x.accN * 0x10000)
      let s2 : State := { s1 with accPoison := remRange s1.accPoison ((accBase c + x.accBase * 0x10000) / 4) (x.accN * 0x4000) }
      let s3 := (s2.setBlock c b { x with started := true }).onCore c fun co =>
        { co.invalidate with cohorts := Tbl.mapv co.cohorts fun _ h =>
            if h.slot = b ∧ h.ending = false then
              { h with splits := [(0, { pc := BitVec.ofNat 64 entry, entry := BitVec.allOnes 32, exec := BitVec.allOnes 32 })] }
            else h }
      .next (((Tbl.keys (s3.core c).cohorts).foldl (fun (t : State) k => t.notify c k) s3).checkBlock c b)

/-- R204, R215: the parts of the machine that belong to a block that has ended. -/
def State.freeBlock (s : State) (c b : Nat) (x : Block) : State :=
  let s1 := (Tbl.keys x.handles).foldl (fun (t : State) n => t.releaseHandle c b n) s
  let s2 := s1.onCore c fun co => { co with blocks := Tbl.del co.blocks b, grants := co.grants.filter fun g => g.slot != b }
  let gone := match Tbl.find? s2.gangs x.gang with
    | none => false
    | some g => !(List.range g.members.length).any fun k => (s2.member x.gang k).isSome
  let s3 : State := if gone then { s2 with gangs := Tbl.del s2.gangs x.gang } else s2
  let held (e : Nat × Chan) : Bool := (Tbl.vals s3.cores).any fun co => (Tbl.vals co.blocks).any fun y =>
    (Tbl.vals y.sends).contains e.1 || (Tbl.vals y.recvs).contains e.1
  { s3 with chans := s3.chans.filter held }

/-- R311, R312: the end of a block as its launch counts it. A block of a launch of kind 0 takes 1 from the completion object; for the last one
that is left to the launch's end, which writes the status block first (R315). -/
def State.countBlock (s : State) (id stage : Nat) : State :=
  let s1 := (s.onStage id stage fun st => { st with ended := st.ended + 1 }).discard id
  let s2 := match Tbl.find? s1.launches id with
    | none => s1
    | some l =>
      if l.killed || l.kind != 0 then s1
      else if s1.launchOver id l then { s1 with launches := Tbl.adj s1.launches id fun y => { y with completing := true } }
      else s1.hubSub l.asid id l.cdest
  (s2.checkLaunch id).pushOnce .schedule []

/-! Placement groups (R309, R414). -/

/-- The blocks placed, with their places. -/
def State.placedBlocks (s : State) : List ((Nat × Nat) × Block) :=
  s.cores.flatMap fun e => e.2.blocks.map fun (x : Nat × Block) => ((e.1, x.1), x.2)

/-- R309: the gangs that are placed together with a gang, joined by channels. -/
def gangsWith (bs : List ((Nat × Nat) × Block)) (g : Nat) : List Nat :=
  let links (b : Block) : List Nat := Tbl.vals b.sends ++ Tbl.vals b.recvs
  let grow (l : List Nat) : List Nat :=
    let ch := (bs.filter fun e => l.contains e.2.gang).flatMap fun e => links e.2
    (bs.filter fun e => (links e.2).any ch.contains).foldl (fun a e => insNat a e.2.gang) l
  (List.range 8).foldl (fun l _ => grow l) [g]

/-- R414: the blocks of every placement group that has a block on stack `st`. -/
def State.covered (s : State) (st : Nat) : List ((Nat × Nat) × Block) :=
  let bs := s.placedBlocks
  let gs := (((bs.filter fun e => e.1.1 / 32 == st).map fun e => e.2.gang).eraseDups.flatMap (gangsWith bs)).eraseDups
  bs.filter fun e => gs.contains e.2.gang

/-- R415: the stack in checkpoint mode that withholds the end of a block: its own, or the one that its placement group has a block on (log entry 41). -/
def State.withholder (s : State) (c b : Nat) : Option Nat :=
  if (Tbl.at s.stackTbl (c / 32) {}).mode then some (c / 32)
  else (List.range 8).find? fun st => (Tbl.at s.stackTbl st {}).mode && (s.covered st).any fun e => e.1 == (c, b)

/-- BLOCK_END (R215, R312): the block's resources are freed, and its launch counts it. In checkpoint mode the count is withheld until the next
complete checkpoint (R415); its row then names the launch, the stage, the gang and its first task in operands 3 to 6. -/
def execBlockEnd (s : State) : Out :=
  let c := s.arg 0
  let b := s.arg 1
  if s.arg 2 = 1 then .next (s.countBlock (s.arg 3) (s.arg 4))
  else match s.block? c b with
  | none => .next s
  | some x =>
    if !s.blockOver c b then .next s
    else
      let s1 := s.freeBlock c b x
      let d : Due := { row := .blockEnd, ops := [c, b, 1, x.launch, x.stage, x.gang, x.task - x.rank] }
      let s2 := match s.withholder c b with
        | some st => ({ s1 with stackTbl := Tbl.adj s1.stackTbl st fun y => { y with heldComps := y.heldComps ++ [d] } } : State).pushOnce .schedule []
        | none => s1.countBlock x.launch x.stage
      .next (if s2.scan.stage = 1 ∧ s2.scan.core = c ∧ (s2.core c).blocks = [] then s2.pushOnce .scanTest [] else s2)

/-! The end of a launch. -/

/-- R315: the status block at the end. -/
def Launch.finalStatus (l : Launch) (state : Nat) : List Byte :=
  statusHead state 0 l.seed ++ leBytes 8 l.nerr ++ leBytes 8 l.err0 ++ leBytes 8 l.err0pc ++ leBytes 8 l.placed ++ leBytes 8 l.dropped ++ leBytes 8 0

/-- R312, R315, R317: the end of a launch: the status block is written, and once every write to a peer is acknowledged the launch is no longer live and
its completion follows, after which a record that waits may be taken (R302). -/
def State.closeLaunch (s : State) (id : Nat) (l : Launch) (row : Instr) (state : Nat) (finish : State → State) : State :=
  let s1 : State := if l.closing != 0 then s
    else { (if l.status = 0 then s else s.hubWrite l.asid id l.status (l.finalStatus state)) with
           launches := Tbl.adj s.launches id fun x => { x with closing := state } }
  if s1.peersOwe id then s1.push row [id]
  else ((finish { s1 with launches := Tbl.del s1.launches id }).pokeLaunch).pushOnce .schedule []

/-- LAUNCH_COMPLETE (R312, R313): the status block first, then the completion by the launch's kind. -/
def execLaunchComplete (s : State) : Out :=
  let id := s.arg 0
  match Tbl.find? s.launches id with
  | none => .next s
  | some l =>
    if !s.launchOver id l then .next s
    else .next (s.closeLaunch id l .launchComplete (if l.nerr = 0 then 2 else 3) fun t =>
      if l.kind = 2 then t.writeWord l.asid id l.cdest l.cseq
      else if l.kind = 1 || l.completing then t.hubSub l.asid id l.cdest else t)

/-- LAUNCH_KILL_COMPLETE (R317): state 4, then 0 or the sequence value to cdest. -/
def execLaunchKillComplete (s : State) : Out :=
  let id := s.arg 0
  match Tbl.find? s.launches id with
  | none => .next s
  | some l =>
    if l.killOver then .next (s.closeLaunch id l .launchKillComplete 4 fun t => t.wakeCdest l.asid id l.cdest l.kind l.scope l.cseq) else .next s

end Sys2Proof.Machine
end

