-- ==== Sys2Proof/Machine/Save.lean ====
section
/-! DEFINITION. What eviction and checkpoints write of the stores, handles, barriers and channels of blocks, and how they read it back (R342, R414).
DESIGN CHOICE (log entry 61): the spec gives a save area no layout. -/

namespace Sys2Proof.Machine

open Sys2Proof

/-! Parts of stores: bytes, full bits and poison. -/

/-- The core whose accumulator store an address lies in. -/
def inAcc (a : Nat) : Bool := match regionOf a with | .core _ .acc _ => true | _ => false

/-- `n` bytes of a store from an address on. Banks have poison by element of 4 bytes, other stores by granule (R241, R396). -/
def State.savePart (s : State) (a n : Nat) : SavedPart :=
  { bytes := (s.mem.filter fun c => a ≤ c.1 && c.1 < a + n).map fun c => (c.1 - a, c.2)
    full := (s.full.filter fun g => a ≤ 16 * g && 16 * g < a + n).map fun g => g - a / 16
    poison := if inAcc a then (s.accPoison.filter fun e => a / 4 ≤ e && e < (a + n) / 4).map fun e => e - a / 4
      else (s.poison.filter fun g => a ≤ 16 * g && 16 * g < a + n).map fun g => g - a / 16 }

/-- A part put back from an address on, over what was there. -/
def State.loadPart (s : State) (a n : Nat) (p : SavedPart) : State :=
  let s1 := s.clearStore a n
  { s1 with
    mem := p.bytes.foldl (fun m c => Mem.wr m (a + c.1) c.2) s1.mem
    full := p.full.foldl (fun l g => insNat l (a / 16 + g)) s1.full
    poison := if inAcc a then s1.poison else p.poison.foldl (fun l g => insNat l (a / 16 + g)) s1.poison
    accPoison := if inAcc a then p.poison.foldl (fun l e => insNat l (a / 4 + e)) (remRange s1.accPoison (a / 4) (n / 4)) else s1.accPoison }

/-- The bytes that `n` bytes take in a save area: themselves, a full bit each 16 and a poison bit each 4. -/
def partSize (n : Nat) : Nat := n + (n + 127) / 128 + (n + 31) / 32

/-- Bits set from an address on, in bytes that are zero. -/
def Mem.setBits (m : Mem) (a : Nat) (l : List Nat) : Mem := l.foldl (fun m k => Mem.wr m (a + k / 8) (Mem.rd m (a + k / 8) ||| BitVec.ofNat 8 (2 ^ (k % 8)))) m

/-- Which of `n` bits from an address on are set. -/
def Mem.getBits (m : Mem) (a n : Nat) : List Nat := (List.range n).filter fun k => (Mem.rd m (a + k / 8)).getLsbD (k % 8)

/-- A part of `n` bytes written to a save area. -/
def State.putPart (s : State) (a n : Nat) (p : SavedPart) : State :=
  let m := p.bytes.foldl (fun m c => Mem.wr m (a + c.1) c.2) (Mem.clear s.mem a (partSize n))
  { s with
    mem := Mem.setBits (Mem.setBits m (a + n) p.full) (a + n + (n + 127) / 128) p.poison
    poison := remRange s.poison (a / 16) ((a % 16 + partSize n + 15) / 16) }

/-- A part of `n` bytes read from a save area. -/
def State.getPart (s : State) (a n : Nat) : SavedPart :=
  { bytes := (s.mem.filter fun c => a ≤ c.1 && c.1 < a + n).map fun c => (c.1 - a, c.2)
    full := Mem.getBits s.mem (a + n) ((n + 15) / 16)
    poison := Mem.getBits s.mem (a + n + (n + 127) / 128) ((n + 3) / 4) }

/-- Parts by address and length, written one after the other from an address on, and the address after them. -/
def State.putParts (s : State) (a : Nat) (l : List (Nat × Nat)) : Nat × State :=
  l.foldl (fun (z : Nat × State) p => (z.1 + partSize p.2, z.2.putPart z.1 p.2 (z.2.savePart p.1 p.2))) (a, s)

/-- Parts by address and length, read one after the other from an address on, and put back. -/
def State.getParts (s : State) (a : Nat) (l : List (Nat × Nat)) : State :=
  (l.foldl (fun (z : Nat × State) p => (z.1 + partSize p.2, z.2.loadPart p.1 p.2 (z.2.getPart z.1 p.2))) (a, s)).2

/-! Words: rename entries, logs, barriers and channel counts. -/

/-- Doublewords written from an address on. -/
def State.putWords (s : State) (a : Nat) (l : List Nat) : State := s.poke a (l.flatMap (leBytes 8))

/-- `n` doublewords read from an address on. -/
def State.getWords (s : State) (a n : Nat) : List Nat := (List.range n).map fun i => Mem.rdN s.mem (a + 8 * i) 8

/-- The state of a handle with a code of R163. -/
def HState.ofCode : Nat → HState
  | 1 => .resident
  | 2 => .bound
  | 3 => .filling
  | 4 => .nonResident
  | 5 => .released
  | _ => .free

/-- An entry of a log as doublewords. -/
def LogEntry.words (e : LogEntry) : List Nat :=
  [e.op, e.scalar, e.region, e.tag, e.layout, e.target, e.tlayout, e.rm, if e.sat then 1 else 0, e.phase]

/-- An entry of a log from its doublewords. -/
def LogEntry.ofWords (l : List Nat) : LogEntry :=
  { op := l.getD 0 0, scalar := l.getD 1 0, region := l.getD 2 0, tag := l.getD 3 0, layout := l.getD 4 0, target := l.getD 5 0, tlayout := l.getD 6 0
    rm := l.getD 7 0, sat := l.getD 8 0 == 1, phase := l.getD 9 0 }

/-- The doublewords of a handle in a save area: its rename entry and room for 8 entries of its log (R239). -/
def handleWords : Nat := 12 + 8 * 10

/-- A handle's rename entry and log (R236, R239). -/
def Handle.words (h : Handle) : List Nat :=
  let l := [h.state.code, h.owner, if h.bchk then 1 else 0, h.breg, h.layout, h.tag, h.cols, h.rows, h.phase, h.backing, if h.retBound then 1 else 0,
    h.log.length] ++ h.log.flatMap LogEntry.words
  l ++ List.replicate (handleWords - l.length) 0

/-- A handle with the rename entry and the log that doublewords have. -/
def Handle.ofWords (h : Handle) (l : List Nat) : Handle :=
  { h with
    state := HState.ofCode (l.getD 0 0), owner := l.getD 1 0, bchk := l.getD 2 0 == 1, breg := l.getD 3 0, layout := l.getD 4 0, tag := l.getD 5 0
    cols := l.getD 6 0, rows := l.getD 7 0, phase := l.getD 8 0, backing := l.getD 9 0, retBound := l.getD 10 0 == 1
    log := (List.range (l.getD 11 0)).map fun i => LogEntry.ofWords (l.drop (12 + 10 * i)) }

/-- The handles and the barrier state words of a block. -/
def Block.words (x : Block) : List Nat :=
  (Tbl.vals x.handles).flatMap Handle.words ++
    (List.range 16).flatMap fun n => let r := Tbl.at x.bars n {}; [if r.phase then 1 else 0, r.expected, r.arrived]

/-- How many doublewords a block has in a save area. -/
def Block.wordCount (x : Block) : Nat := x.handles.length * handleWords + 48

/-- A block with the handles and the barriers that doublewords have. -/
def Block.ofWords (x : Block) (l : List Nat) : Block :=
  let k := x.handles.length * handleWords
  { x with
    handles := x.handles.zipIdx.map fun e => (e.1.1, e.1.2.ofWords (l.drop (e.2 * handleWords)))
    bars := (List.range 16).foldl (fun (t : Tbl Barrier) n =>
      Tbl.put t n { Tbl.at t n {} with phase := l.getD (k + 3 * n) 0 == 1, expected := l.getD (k + 3 * n + 1) 0, arrived := l.getD (k + 3 * n + 2) 0 }) x.bars }

/-! Blocks and groups. -/

/-- R342: the stores of a block on a core: scratchpad allocation and channel area, frames, banks. -/
def blockParts (c : Nat) (x : Block) : List (Nat × Nat) :=
  (coreBase c + x.base, x.size + x.chanSize) ::
    ((Tbl.vals x.handles).filter (·.frames != 0)).map (fun h => (tileBase c + h.frame * 4096, h.frames * 4096)) ++
    [(accBase c + x.accBase * 0x10000, x.accN * 0x10000)]

/-- The bytes that a block takes in a save area. -/
def Block.savedSize (x : Block) : Nat := (blockParts 0 x).foldl (fun n p => n + partSize p.2) 0 + 8 * x.wordCount

/-- R342: a block written to a save area from an address on. -/
def State.saveBlock (s : State) (c b a : Nat) (x : Block) : SavedBlock × State :=
  let z := s.putParts a (blockParts c x)
  ({ core := c, slot := b, block := x, cohorts := (s.core c).away.filter (·.slot == b), grants := (s.core c).grants.filter (·.slot == b), at_ := a },
    z.2.putWords z.1 x.words)

/-- R342: the handles and barriers of a saved block as its save area has them. -/
def State.savedBlock (s : State) (e : SavedBlock) : Block :=
  e.block.ofWords (s.getWords (e.at_ + (blockParts 0 e.block).foldl (fun n p => n + partSize p.2) 0) e.block.wordCount)

/-- Blocks written one after the other, and the address after them. -/
def State.saveBlocks (s : State) (a : Nat) (l : List ((Nat × Nat) × Block)) : List SavedBlock × Nat × State :=
  l.foldl (fun (z : List SavedBlock × Nat × State) e =>
    let y := z.2.2.saveBlock e.1.1 e.1.2 z.2.1 e.2
    (z.1 ++ [y.1], z.2.1 + e.2.savedSize, y.2)) ([], a, s)

/-- R342: the counts of channels written from an address on: free and full slots. -/
def State.putCounts (s : State) (a : Nat) (t : Tbl Chan) : State := s.putWords a ((Tbl.vals t).flatMap fun x => [x.free, x.full.length])

/-- R342: channels with the counts that a save area has. -/
def State.getCounts (s : State) (a : Nat) (t : Tbl Chan) : Tbl Chan :=
  let l := s.getWords a (2 * t.length)
  t.zipIdx.map fun e => (e.1.1, { e.1.2 with free := l.getD (2 * e.2) 0, full := e.1.2.full.take (l.getD (2 * e.2 + 1) 0) })

/-- R342: the bytes of the save area of some blocks with the channels that end on them. -/
def savedSize (l : List ((Nat × Nat) × Block)) : Nat := l.foldl (fun n e => n + e.2.savedSize + 16 * (e.2.sends.length + e.2.recvs.length)) 0

/-- A save area of `n` bytes lies in near or far memory as a whole. -/
def areaHomed (a n : Nat) : Bool := isHomed a && (n == 0 || (isHomed (a + n - 1) && regionOf a == regionOf (a + n - 1)))

end Sys2Proof.Machine
end

