-- ==== Sys2Proof/Machine/SystemOps.lean ====
section
/-! DEFINITION. Traps and their return, control registers, `SPAWN` and `KILL` (R121, R135, R136, R317, R321, R329 to R333, R344). -/

namespace Sys2Proof.Machine

open Sys2Proof

/-! Traps. -/

/-- TRAP_ENTRY (R329, R338). -/
def execTrapEntry (s : State) : Out := .next (s.enterTrap (s.arg 0) (s.arg 1))

/-- `TRET` (R121, R332): refused where the frame or the image breaks the rules, else the saved state goes on. It reads the frame at its
issue, as an access of class R. -/
def execTret (s : State) : Out :=
  issue (fun _ _ => { priv := true, acc := 0x80 }) noCheck noHold
    (fun w t =>
      match t.cohort? w.c w.k with
      | none => t
      | some h => if t.refusesTret h then t.setCohort w.c w.k { h with refused := true } else t.leaveTrap w.c w.k h) s

/-- The split at hand takes a precise fault of a word that is no instruction, unless it may not issue now. -/
def State.badWord (s : State) (word len : Nat) (b : Bad) : State :=
  match s.who? with
  | none => s
  | some w =>
    if w.sp.state != 0 || !w.h.mayIssue then s
    else if w.h.atJoin w.sp then s.pushOnce .joinArrive [w.c, w.k, w.i]
    else s.stopAt { w with word := word, len := len } b

/-- ILLEGAL_INSTRUCTION (R57, R69): code 2, or code 4 where the third operand says that only its guard is wrong. -/
def execIllegalInstruction (s : State) : Out := .next (s.badWord (s.arg 0) (s.arg 1) { code := if s.arg 2 = 1 then 4 else 2 })

/-- INSTRUCTION_FETCH_FAULT (R69, R398): code 1. The frame has no word (log entry 20). -/
def execInstructionFetchFault (s : State) : Out := .next (s.badWord 0 2 { code := 1, sub := s.arg 0, addr := s.arg 1 })

/-! Control registers (R321). -/

/-- R5, R399: the bits of a bound register's doubleword that are not reserved. -/
def boundMask (k : Nat) : DWord :=
  match k with
  | 0 => 0x8ff00000ffffffff | 3 => 0xffffffffffffffff | _ => 0x01ffffffffffffff

/-- R5, R321, R399: a bound register's doubleword as it reads. -/
def BoundReg.dw (r : BoundReg) (k : Nat) : DWord :=
  (match k with | 0 => r.d0 | 1 => r.d1 | 2 => r.d2 | _ => r.d3) &&& boundMask k

/-- R5, R399: a doubleword of a bound register written. -/
def BoundReg.setDw (r : BoundReg) (k : Nat) (v : DWord) : BoundReg :=
  match k with
  | 1 => { r with d1 := v &&& boundMask 1 } | 2 => { r with d2 := v &&& boundMask 2 } | 3 => { r with d3 := v } | _ => r

/-- R321: the number names a control register. -/
def csrExists (n : Nat) : Bool := n ≤ 5 || (0x100 ≤ n && n < 0x180)

/-- R321: the control register may be written. -/
def csrWritable (n : Nat) : Bool := n == 3 || n == 4 || (0x100 ≤ n && n < 0x180)

/-- R321, R328: what a control register reads. -/
def State.csrValue (s : State) (h : Cohort) (n : Nat) : DWord :=
  match n with
  | 0 => BitVec.ofNat 64 h.asid
  | 1 => BitVec.ofNat 64 h.image
  | 2 => BitVec.ofNat 64 (h.image + 0x8000)
  | 3 => BitVec.ofNat 64 h.cstat
  | 4 => 0
  | 5 => match h.bisque with
    | some b => (b.addr &&& ~~~(1 : DWord)) ||| 1
    | none => 0
  | _ => (s.boundReg h.asid ((n - 0x100) / 4 % 32)).dw (n % 4)

/-- `CSRR` (R121, R321). -/
def execCsrr (c d : Nat) (s : State) : Out :=
  issue (fun _ _ => { ud := [d], priv := true, illegal := !csrExists c }) noCheck noHold
    (fun w t => t.onCohort w.c w.k fun h => h.setQ d (t.csrValue h c) 0) s

/-- R328: the flags of the status word that a write of ones clears. -/
def Cohort.clearFlags (h : Cohort) (v : DWord) : Cohort :=
  { h with refused := h.refused && !v.getLsbD 7, mismatch := h.mismatch && !v.getLsbD 1, greyread := h.greyread && !v.getLsbD 0 }

/-- R325: every core drops the translations of a context that a test picks. -/
def State.dropTlb (s : State) (asid : Nat) (f : TlbEntry → Bool) : State :=
  { s with cores := Tbl.mapv s.cores fun _ co => { co with tlb := co.tlb.filter fun e => !(e.asid == asid && f e) } }

/-- R325: the accesses that have left with a translation and have not performed. -/
def State.inFlight (s : State) : List Nat := (List.filter (fun (e : Nat × Access) => e.2.stage == 0) s.accs).map Prod.fst

/-- R321, R325: a write of `CTLBI`: the translations go at once, and the split waits until what used them has performed. -/
def State.ctlbi (s : State) (w : Who) (va : Nat) : State :=
  let s1 := s.dropTlb w.h.asid fun e => e.vpn == va % 2 ^ 57 / 2 ^ e.bits
  if s1.inFlight = [] then s1
  else
    let id := s1.nextId
    ({ s1 with nextId := id + 1, invals := Tbl.put s1.invals id s1.inFlight } : State).waitIn w 7 (.inval id)

/-- R344: a write of doubleword 0 of a bound register: it is loaded anew from the launch's table, where that has it. -/
def State.reloadBound (s : State) (w : Who) (n : Nat) : State :=
  match Tbl.find? s.launches w.h.launch with
  | none => s
  | some l => if l.btab = 0 ∨ l.nbound ≤ n then s else s.loadBound 0 w.c w.h.asid n (l.btab + 32 * n)

/-- R399: a doubleword of a bound register written directly. -/
def State.writeBound (s : State) (asid n k : Nat) (v : DWord) : State := s.setBound asid n ((s.boundReg asid n).setDw k v)

/-- R321: a control register written. -/
def State.csrWrite (s : State) (w : Who) (n : Nat) (v : DWord) : State :=
  if n = 3 then s.onCohort w.c w.k fun h => h.clearFlags v
  else if n = 4 then s.ctlbi w v.toNat
  else if n % 4 = 0 then s.reloadBound w ((n - 0x100) / 4)
  else s.writeBound w.h.asid ((n - 0x100) / 4) (n % 4) v

/-- What `CSRW` names. -/
def csrwUses (cnum qs : Nat) : Uses := { us := [qs], priv := true, illegal := !csrWritable cnum }

/-- `CSRW` (R121, R321). -/
def execCsrw (cnum qs : Nat) (s : State) : Out :=
  issue (fun _ _ => csrwUses cnum qs) noCheck noHold (fun w t => t.csrWrite w cnum (w.h.uq qs)) s

/-- CSR_CTLBI_WRITE (R321): `CSRW` to `CTLBI`. -/
def execCsrCtlbiWrite (_cnum qs : Nat) (s : State) : Out :=
  issue (fun _ _ => csrwUses 4 qs) noCheck noHold (fun w t => t.ctlbi w (w.h.uq qs).toNat) s

/-- CSR_CBND_RELOAD (R344): `CSRW` to doubleword 0 of a bound register. -/
def execCsrCbndReload (cnum qs : Nat) (s : State) : Out :=
  issue (fun _ _ => csrwUses cnum qs) noCheck noHold (fun w t => t.reloadBound w ((cnum - 0x100) / 4)) s

/-- CSR_CBND_WRITE (R399): `CSRW` to doubleword 1, 2 or 3 of a bound register. -/
def execCsrCbndWrite (cnum qs : Nat) (s : State) : Out :=
  issue (fun _ _ => csrwUses cnum qs) noCheck noHold
    (fun w t => t.writeBound w.h.asid ((cnum - 0x100) / 4) (cnum % 4) (w.h.uq qs)) s

/-- TLBINV_COMPLETE (R325): an invalidation completes once every access that used an old translation has performed. Number 0 is the
hub's own, and any other is a split's. -/
def execTlbinvComplete (s : State) : Out :=
  let id := s.arg 0
  match Tbl.find? s.invals id with
  | none => .next s
  | some l =>
    if l.any fun a => s.inFlight.contains a then .next s
    else
      let s1 : State := { s with invals := Tbl.del s.invals id }
      .next (if id = 0 then s1.setHub 0x2018 0
        else
          let s2 : State := { s1 with cores := Tbl.mapv s1.cores fun _ co => co.onCohorts fun h => h.retryAll (· == .inval id) }
          (s2.cores.flatMap fun e => (List.filter (fun (x : Nat × Cohort) => x.2.leaving) e.2.cohorts).map fun x => [e.1, x.1]).foldl
            (fun (t : State) l => t.pushOnce .cohortSwapOut l) s2)

/-! `SPAWN` and `KILL`. -/

/-- `SPAWN` (R135): the record is read at issue and goes to the launch unit, and the split waits for its answer. -/
def execSpawn (a : Nat) (s : State) : Out :=
  issue (fun _ _ => { us := [a], rel := some { scope := 2, cls := 0xff } }) noCheck noHold
    (fun w t =>
      let va := (w.h.uq a).toNat
      let t1 := (t.findNow w.c w.h.asid (t.gangOf w.c w.h) .load va).2
      let tr (x : Nat) : Option Nat := match t1.find w.c w.h.asid (t1.gangOf w.c w.h) .load x with
        | .ok pa _ => some pa
        | _ => none
      let r := t1.snapRecord tr va
      let level := (Tbl.find? r.2.launches w.h.launch).elim 0 (·.level)
      (r.2.submit { src := .spawn w.c w.h.uid w.i w.h.launch, addr := va, asid := w.h.asid, level := level, bytes := r.1 }).waitIn w 6
        (.launch r.2.nextId)) s

/-- R317: a cohort of a killed launch that is out ends where it is. -/
def State.killAway (s : State) (c : Nat) (h : Cohort) : State :=
  let s1 := (s.lateErrs h c 0).dropHeldWrites c h.slot h.uid
  { s1.onCore c fun co => { co with
      away := co.away.filter fun y => y.uid != h.uid
      owners := List.filter (fun (e : Nat × Nat) => e.2 != h.uid) co.owners
      lines := co.lines.filter fun e => e.1 != h.uid } with
    monitors := List.filter (fun (e : Nat × Monitor) => e.2.uid != h.uid) s1.monitors }

/-- R204, R317: every chain of a block comes to its next reach. -/
def State.reachChains (s : State) (c b : Nat) : State :=
  [(0, (s.core c).copyEng), (1, (s.core c).gatherEng)].foldl (fun (t : State) e =>
    (List.filter (fun (x : Nat × Chain) => x.2.block == b) e.2.chains).foldl (fun (u : State) x => u.pushOnce .engineEntryReach [c, e.1, x.1]) t) s

/-- R317: a block of a killed launch: its cohorts stop at once, wherever they are, and its chains at their next reach. -/
def State.killBlock (s : State) (c b : Nat) : State :=
  let ks := (List.filter (fun (e : Nat × Cohort) => e.2.slot == b) (s.core c).cohorts).map Prod.fst
  let s1 := ks.foldl (fun (t : State) k => t.endCohort c k none) (s.onBlock c b fun x => { x with killed := true })
  let s2 := ((s1.core c).away.filter (·.slot == b)).foldl (fun (t : State) h => t.killAway c h) s1
  (((s2.onBlock c b fun x => { x with live := [] }).releaseOrphans c b).reachChains c b).checkBlock c b

/-- R317: a launch killed: nothing more of it is placed, and its blocks stop. -/
def State.killLaunch (s : State) (id : Nat) : State :=
  let s1 : State := { s with launches := Tbl.adj s.launches id fun l =>
    { l with killed := true, stages := l.stages.map fun st => { st with ended := st.ended + st.redo.length * st.gang, redo := [] } } }
  let bs := s1.cores.flatMap fun e => (List.filter (fun (x : Nat × Block) => x.2.launch == id) e.2.blocks).map fun x => (e.1, x.1)
  let s2 := bs.foldl (fun (t : State) e => t.killBlock e.1 e.2) s1
  let lost := (s2.saved.flatMap (·.blocks)).filter (·.block.launch == id)
  let gone := lost.map (·.block)
  let uids := lost.flatMap fun b => b.cohorts.map (·.uid)
  let s3 := gone.foldl (fun (t : State) b => t.onStage id b.stage fun st => { st with ended := st.ended + 1 }) s2
  (({ s3 with
      saved := s3.saved.filter fun g => !g.blocks.any (·.block.launch == id)
      monitors := List.filter (fun (e : Nat × Monitor) => !uids.contains e.2.uid) s3.monitors } : State).checkLaunch id).pushOnce .schedule []

/-- `KILL` (R136, R317): every live launch whose completion object is at that address, but for one that has ended: its last block's end came first. -/
def execKill (a : Nat) (s : State) : Out :=
  issue (fun _ _ => { us := [a], priv := true }) noCheck noHold
    (fun w t =>
      let ids := (List.filter (fun (e : Nat × Launch) => e.2.cdest == (w.h.uq a).toNat && !e.2.killed && !t.launchOver e.1 e.2) t.launches).map Prod.fst
      ids.foldl (fun (u : State) id => u.killLaunch id) t) s

end Sys2Proof.Machine
end

