-- ==== Sys2Proof/Machine/Context.lean ====
section
/-! DEFINITION. The context table, the swap-out and restore of cohorts, the eviction and return of placement groups, lane lines, and
translation invalidation from the hub (R219, R320, R325, R339 to R347). -/

namespace Sys2Proof.Machine

open Sys2Proof

/-! Lane lines (R219, R340). -/

/-- LANE_LINE_FILL (R219): a line arrives in the lane register cache. -/
def execLaneLineFill (s : State) : Out := .next (s.fillLine (s.arg 0) (s.arg 1) (s.arg 2))

/-- R347: every lane register of a cohort that is out stands in its image, and no cache holds a line of it. -/
def State.flushLines (s : State) (h : Cohort) : State := (List.range h.budget).foldl (fun (t : State) r => t.imageLine h.uid r) s

/-- R340: the old core gives up the lines of a cohort that comes back on another core: the dirty ones go to the image. -/
def State.giveLines (s : State) (h : Cohort) : State × Cohort :=
  (List.range h.budget).foldl (fun (z : State × Cohort) r =>
    if z.2.absent.contains r then z
    else ((if z.2.dirty.contains r then z.1.saveLine z.2 r else z.1).dropLine h.uid r, z.2.loseLine r)) (s, h)

/-! Swap-out (R339). -/

/-- R326, R339 step 2: the parts of the front end's state that every swap-out writes: the tags of v0 to v63, `dmask`, `CSTAT`, the
wake word, the barrier phases and `bstat`. -/
def State.saveRest (s : State) (h : Cohort) : State :=
  let bits (t : Tbl Bool) : Nat := (List.range 16).foldl (fun (a : Nat) n => if Tbl.at t n false then a + 2 ^ n else a) 0
  let s1 := s.putImg (h.image + 0x2000) ((List.range 64).map fun r => BitVec.ofNat 8 (h.vtag r))
  s1.putImg (h.image + 0x20a0) (leBytes 4 h.dmask.toNat ++ leBytes 4 h.cstat ++ leBytes 4 h.wake.toNat ++
    leBytes 4 (bits h.barPhase + 2 ^ 16 * bits h.gbarPhase) ++ leBytes 4 h.bstat.toNat ++ leBytes 12 0)

/-- R339: what a cohort that leaves in handler mode writes to its own area. -/
def State.saveHandler (s : State) (h : Cohort) : State :=
  let s1 := ((s.settle h.image 0x10000).putQs (h.image + 0xf000) (h.image + 0xf200) 0 h).putPreds (h.image + 0xf240) h.p
  s1.putImg (h.image + 0xf260) ((h.splits.head?.map fun e => splitBytes (if h.hparked.isSome then { e.2 with state := 1 } else e.2)).getD (leBytes 32 0))

/-- R122, R339: what a swap-out waits for: the drain of R329, the writes of the store queue performed, arrivals not yet taken, and,
in handler mode, every issued instruction, a `CTLBI` among them, but for the stores behind one that has failed late: they wait for `TRET` with its
fault. -/
def State.mayLeave (s : State) (c : Nat) (h : Cohort) : Bool :=
  let started := (s.block? c h.slot).elim true (·.started)
  let queued := (s.block? c h.slot).elim false fun b => (Tbl.vals b.bars).any fun r => r.queue.any fun q => q.2.1 == h.cohortid
  started && !queued && s.drained c h && !(s.accs.any fun e => e.2.uid == h.uid && e.2.kind != .load && e.2.stage == 0) &&
    (!h.handler || (h.loads.isEmpty && h.stores.all (h.writeStuck ·.seq) && !h.stopped &&
      !(Tbl.vals h.splits).any fun sp => match sp.hold with | .inval _ => true | _ => false))

/-- COHORT_SWAP_OUT (R339, R341): a cohort that has drained writes its state and its frame to its image and leaves its slot. A cause
found in the drain goes into the frame, and the trap is pending. -/
def execCohortSwapOut (s : State) : Out :=
  let c := s.arg 0
  let k := s.arg 1
  match s.cohort? c k with
  | none => .next s
  | some h =>
    if !h.leaving || h.ending then .next s
    else if !s.mayLeave c h then
      let s1 := if h.stores.isEmpty then s else s.pushOnce .storeLeaveQueue [c, k]
      let s2 := if h.handler && h.stopped then s1.pushOnce .trapEntry [c, k] else s1
      .next ((Tbl.keys ((s2.block? c h.slot).elim [] (·.bars))).foldl (fun (t : State) n =>
        if ((t.block? c h.slot).elim false fun b => (Tbl.at b.bars n {}).queue.any fun q => q.2.1 == h.cohortid) then
          (t.pushOnce .barrierArrivalTaken [c, h.slot, n]).pushOnce .cohortSwapOut [c, k] else t) s2)
    else
      let cause := if h.handler then none else s.causeOf c h
      let s1 := if h.handler then s.saveHandler h else s.saveTrap c k h (cause.getD { code := 0 }) true
      match s1.cohort? c k with
      | none => .next s1
      | some h1 =>
        let h2 : Cohort := { h1 with pending := cause.isSome, stopped := false, leaving := false }
        let s2 := if h.handler then s1 else s1.putQs (h.image + 0x2200) (h.image + 0x2040) 0 h1
        let s3 := (s2.saveRest h2).onCore c fun co => { co with cohorts := Tbl.del co.cohorts k, away := co.away ++ [h2] }
        .next ((s3.pushOnce .schedule []).pushOnce .ctxcmdComplete [])

/-! Restore (R340). -/

/-- R340 step 1: the front end's state as the image has it. -/
def State.loadRest (s : State) (h : Cohort) : Cohort :=
  let a := h.image + 0x20a0
  let st := s.peekN (a + 4) 4
  let ph := s.peekN (a + 12) 4
  let tags (v : Tbl VReg) : Tbl VReg :=
    (List.range h.budget).foldl (fun (t : Tbl VReg) r =>
      let tag := s.peekN (h.image + 0x2000 + r) 1 % 64
      if tag = (Tbl.at t r {}).tag then t else Tbl.put t r { Tbl.at t r {} with tag := tag }) v
  { h with
    v := tags h.v
    dmask := BitVec.ofNat 32 (s.peekN a 4)
    refused := bits st 7 7 == 1, pending := bits st 6 6 == 1, handler := bits st 5 5 == 1, debug := bits st 4 4 == 1
    mismatch := bits st 1 1 == 1, greyread := bits st 0 0 == 1
    wake := BitVec.ofNat 2 (s.peekN (a + 8) 4)
    barPhase := (List.range 16).map fun (n : Nat) => (n, bits ph n n == 1)
    gbarPhase := (List.range 16).map fun (n : Nat) => (n, bits ph (16 + n) (16 + n) == 1)
    bstat := BitVec.ofNat 32 (s.peekN (a + 16) 4) }

/-- R339: the handler as its own area has it. -/
def State.loadHandler (s : State) (h : Cohort) : Cohort :=
  let h1 := s.getQs (h.image + 0xf000) (h.image + 0xf200) 0 h
  { h1 with
    p := s.getPreds (h.image + 0xf240), joins := [], overflow := []
    splits := match readSplit (s.peekN (h.image + 0xf260) 32) with | some sp => [(0, sp)] | none => [] }

/-- R343: the wake word applied at restore; a cohort whose program is stopped keeps it for its `TRET`. -/
def State.applyWake (s : State) (c k : Nat) : State :=
  match s.cohort? c k with
  | none => s
  | some h =>
    if h.wake = 0 then s
    else if h.handler then (if h.wake.getLsbD 0 then (s.setCohort c k h.wakeHandler).acquireDev c k else s)
    else if h.pending then s.setCohort c k { h with wake := 2 }
    else (s.setCohort c k h.wakeUp).acquireDev c k

/-- R340 steps 3 and 4: a pending trap's handler is entered, by what the frame holds; otherwise the frame's entries are re-injected. -/
def State.resumeOrTrap (s : State) (c k : Nat) : State :=
  match s.cohort? c k with
  | none => s
  | some h =>
    if h.handler then s
    else if h.pending then
      let word := s.peekN (h.image + 0x8000) 8
      let vec := if word % 256 = 17 then s.ctx h.asid 0x18 else s.ctx h.asid 0x10
      if vec = 0 then s.endCohort c k (some (5, s.peekN (h.image + 0x8008) 8))
      else s.setCohort c k (h.toHandler vec (word % 256 == 17) word)
    else (s.reinjectAll c k h.image).resumeChain c h

/-- The slot that a returning cohort takes: the one that it still owns, if it is free, else the lowest free one (R347). -/
def CoreSt.homeSlot (co : CoreSt) (uid : Nat) : Option Nat :=
  match List.find? (fun (e : Nat × Nat) => e.2 == uid && !Tbl.has co.cohorts e.1) co.owners with
  | some e => some e.1
  | none => (List.range 32).find? fun k => !Tbl.has co.cohorts k

/-- COHORT_RESTORE (R340): a cohort that is out takes a slot of the core that holds its block, and goes on. -/
def execCohortRestore (s : State) : Out :=
  let uid := s.arg 0
  match s.awayAt uid with
  | none => .next s
  | some c =>
    let co := s.core c
    match co.away.find? (fun h => h.uid == uid && h.frozen == []), co.homeSlot uid with
    | some h, some k =>
      let s0 := s.settle h.image 0x10000
      let h1 := s0.loadRest h
      let h2 := if h1.handler then s0.loadHandler h1 else s0.getQs (h.image + 0x2200) (h.image + 0x2040) 0 (s0.loadFlow h1)
      let s1 := s0.setCore c { co with
        cohorts := Tbl.put co.cohorts k { h2 with auto := false, asked := false, back := [] }
        away := co.away.filter fun x => x.uid != uid
        owners := Tbl.put (List.filter (fun (e : Nat × Nat) => e.2 != uid) co.owners) k uid }
      .next ((((s1.applyWake c k).resumeOrTrap c k).notify c k).pushOnce .ctxcmdComplete [])
    | _, _ => .next s

/-! Commands (R346, R347). -/

/-- R346, R347: a command is taken unless one is under way: its register with the page and the context as written, and busy. -/
def State.takeCmd (s : State) (cmd page asid : Nat) (f : State → State) : State :=
  if (s.hubReg 0x2008).getLsbD 63 then s
  else (f ((s.setHub 0x2000 (BitVec.ofNat 64 (cmd * 2 ^ 60 + page % 2 ^ 40 * 2 ^ 12 + asid % 2 ^ 12))).setHub 0x2008 0x8000000000000000)).pushOnce
    .ctxcmdComplete []

/-- The cohorts of a context that are out and whose block is placed, changed. -/
def State.onAway (s : State) (asid : Nat) (f : Cohort → Cohort) : State :=
  { s with cores := Tbl.mapv s.cores fun _ co => { co with away := co.away.map fun h => if h.asid = asid then f h else h } }

/-- CTX_SWAP_OUT (R347): command 1. -/
def execCtxSwapOut (s : State) : Out :=
  let asid := s.arg 0
  .next (s.takeCmd 1 (s.arg 1) asid fun t =>
    (t.cores.flatMap fun e => (List.filter (fun (x : Nat × Cohort) => x.2.asid == asid && !x.2.ending) e.2.cohorts).map fun x => (e.1, x.1)).foldl
      (fun (u : State) x => (u.onCohort x.1 x.2 fun h => { h with leaving := true, auto := false }).pushOnce .cohortSwapOut [x.1, x.2])
      (t.onAway asid fun h => { h with auto := false, asked := false, back := [] }))

/-- R347: the cohorts of a context that are out and placed and pass a test are to come back. -/
def State.recall (s : State) (asid : Nat) (p : Cohort → Bool) : State :=
  let s1 := s.onAway asid fun h => if p h then { h with auto := true, asked := true } else h
  ((Tbl.vals s1.cores).flatMap fun co => (co.away.filter fun h => h.asid == asid && h.asked).map (·.uid)).foldl
    (fun (t : State) u => t.pushOnce .cohortRestore [u]) s1

/-- CTX_RESTORE (R347): command 2. -/
def execCtxRestore (s : State) : Out := .next (s.takeCmd 2 (s.arg 1) (s.arg 0) fun t => t.recall (s.arg 0) fun _ => true)

/-- CTX_FLUSH_LINES (R347): command 5. -/
def execCtxFlushLines (s : State) : Out :=
  let asid := s.arg 0
  .next (s.takeCmd 5 (s.arg 1) asid fun t =>
    let hs := ((Tbl.vals t.cores).flatMap (·.away) ++ t.saved.flatMap fun g => g.blocks.flatMap (·.cohorts)).filter (·.asid == asid)
    hs.foldl (fun (u : State) h => u.flushLines h) t)

/-! Eviction and return of placement groups (R342). -/

/-- R342: the block may be evicted: its cohorts are out, no chain of it runs, no handle fills and no multiply runs. A tile write that has issued
performs first. -/
def State.mayEvict (s : State) (c b : Nat) (x : Block) : Bool :=
  let co := s.core c
  x.started && !((Tbl.vals co.cohorts).any (·.slot == b)) && !(Tbl.vals co.copyEng.chains).any (·.block == b) &&
    !(Tbl.vals co.gatherEng.chains).any (·.block == b) && !((Tbl.vals x.handles).any fun h => h.state == .filling || h.writes.any fun t => !t.held) && !co.mats.any (·.slot == b)

/-- The placed blocks of a context, with their places. -/
def State.blocksOf (s : State) (asid : Nat) : List ((Nat × Nat) × Block) :=
  s.cores.flatMap fun e => (List.filter (fun (x : Nat × Block) => (Tbl.find? s.launches x.2.launch).elim false (·.asid == asid)) e.2.blocks).map
    fun x => ((e.1, x.1), x.2)

/-- R342: a placement group written to its save area from an address on and taken off its cores. Its cohorts keep their slots until others take them
(R248), and their lines (R340). -/
def State.evictGroup (s : State) (asid page a : Nat) (mine : List ((Nat × Nat) × Block)) : State :=
  let ids := (mine.map fun e => e.2.gang).eraseDups
  let chs := mine.flatMap fun e => Tbl.vals e.2.sends ++ Tbl.vals e.2.recvs
  let chans := List.filter (fun (e : Nat × Chan) => chs.contains e.1) s.chans
  let z := s.saveBlocks a mine
  let g : SavedGroup :=
    { asid := asid, page := page, gangs := List.filter (fun (e : Nat × Gang) => ids.contains e.1) s.gangs, blocks := z.1, chans := chans, counts := z.2.1 }
  let s2 := mine.foldl (fun (t : State) e => (t.freeBlock e.1.1 e.1.2 e.2).onCore e.1.1 fun co =>
    { co with away := co.away.filter fun h => h.slot != e.1.2 }) (z.2.2.putCounts z.2.1 chans)
  ({ s2 with saved := s2.saved ++ [g] } : State).pushOnce .schedule []

/-- Groups evicted one after the other, each to where the last one ends. -/
def State.evictAll (s : State) (asid page a : Nat) : Nat → State
  | 0 => s
  | n + 1 =>
    match s.blocksOf asid with
    | [] => s
    | e :: r =>
      let gs := gangsWith (e :: r) e.2.gang
      let mine := (e :: r).filter fun x => gs.contains x.2.gang
      State.evictAll (s.evictGroup asid page a mine) asid page (a + savedSize mine) n

/-- CTX_EVICT_GROUPS (R342, R347): command 3: every group of the context, or none and refused. A save area that is not in near or far memory is refused
too (log entry 61). -/
def execCtxEvictGroups (s : State) : Out :=
  let asid := s.arg 0
  .next (s.takeCmd 3 (s.arg 1) asid fun t =>
    let bs := t.blocksOf asid
    let a := s.arg 1 % 2 ^ 40 * 4096
    if areaHomed a (savedSize bs) && bs.all fun e =>
        t.mayEvict e.1.1 e.1.2 e.2 && (t.core e.1.1).away.all fun h => h.slot != e.1.2 || h.frozen == [] then
      t.evictAll asid (s.arg 1) a bs.length
    else t.setHub 0x2008 0xc000000000000000)

/-- The frames of a core that its blocks' handles hold. -/
def CoreSt.framesTaken (co : CoreSt) : List (Nat × Nat) :=
  (Tbl.vals co.blocks).flatMap fun b => (Tbl.vals b.handles).map fun h => (h.frame, h.frames)

/-- R303, R342: the place on a core where a saved block may return. A block with grants keeps its slot and its banks, which its grant
words name (log entry 30). -/
def State.returnRoom (s : State) (c : Nat) (b : SavedBlock) : Option Room :=
  let t := s.takenOf c
  let st : StageSt := { cohorts := 0, handles := b.block.nHandles, acc := b.block.accN, scratch := b.block.size }
  if !s.placeable c then none
  else (t.room st b.block.chanSize).bind fun r =>
    if b.grants = [] then some r
    else if t.slots.contains b.slot || t.banks.any (fun x => x.1 < b.block.accBase + b.block.accN && b.block.accBase < x.1 + x.2) then none
    else some { r with slot := b.slot, bank := b.block.accBase }

/-- Runs of frames for the handles of a block that have some, each the lowest that is free beside those before it. -/
def frameRuns : List (Nat × Nat) → Tbl Handle → Option (Tbl Handle)
  | _, [] => some []
  | taken, (n, h) :: r =>
    if h.frames = 0 then (frameRuns taken r).map fun l => (n, h) :: l
    else match lowestRun taken 1 h.frames 256 with
      | none => none
      | some f => (frameRuns ((f, h.frames) :: taken) r).map fun l => (n, { h with frame := f }) :: l

/-- R268, R340: the cohorts of a saved block as they come to a core. Where that is another one, the old core first gives up their lines, and the new
one its coherent copies of memory, so that no access of theirs reads what is older than an earlier one. -/
def State.moveCohorts (s : State) (c : Nat) (b : SavedBlock) : List Cohort × State :=
  if b.core = c then (b.cohorts, s)
  else b.cohorts.foldl (fun (z : List Cohort × State) h =>
    let y := z.2.giveLines h
    (z.1 ++ [y.2], y.1)) ([], s.onCore c (·.invalidate))

/-- A saved block put back on a core, as its save area has it. -/
def State.returnBlock (s : State) (c gid : Nat) (b : SavedBlock) : Option ((Nat × Nat) × State) :=
  let y := s.savedBlock b
  match s.returnRoom c b, frameRuns (s.core c).framesTaken y.handles with
  | some r, some hs =>
    let x : Block := { y with gang := gid, base := r.base, accBase := r.bank, handles := hs }
    let m := s.moveCohorts c b
    let s1 := m.2.onCore c fun co =>
      let co1 := co.freshFor x.launch
      { co1 with blocks := Tbl.put co1.blocks r.slot x, away := co1.away ++ m.1.map fun h => { h with slot := r.slot }
                 grants := co1.grants ++ b.grants }
    some ((c, r.slot), s1.getParts b.at_ (blockParts c x))
  | _, _ => none

/-- R222: the places of a gang's members, where those of some ranks are new. The others have ended. -/
def replaced (old : List (Nat × Nat)) (new : List (Nat × (Nat × Nat))) : List (Nat × Nat) :=
  old.zipIdx.map fun m => ((new.find? fun e => e.1 == m.2).map Prod.snd).getD m.1

/-- A saved gang put back on the first run with room (R303, R306). -/
def State.returnGang (s : State) (g : SavedGroup) (gid : Nat) : Option State :=
  let bs := sortBy (fun (b : SavedBlock) => b.block.rank) (g.blocks.filter fun b => b.block.gang == gid)
  let runs := match bs with
    | [] => []
    | b :: _ => ((Tbl.find? s.launches b.block.launch).bind fun l => l.eligible[b.block.stage]?).getD []
  let go (c0 : Nat) : Option (List (Nat × (Nat × Nat)) × State) :=
    bs.foldl (fun (z : Option (List (Nat × (Nat × Nat)) × State)) b =>
      z.bind fun y => (y.2.returnBlock (c0 + b.block.rank) gid b).map fun w => (y.1 ++ [(b.block.rank, w.1)], w.2)) (some ([], s))
  let was : Gang := Tbl.at g.gangs gid { members := [], window := 0 }
  (runs.findSome? go).map fun y => { y.2 with gangs := Tbl.put y.2.gangs gid { was with members := replaced was.members y.1 } }

/-- R342: a saved group put back whole, or not at all; its channels find their ends again. -/
def State.returnGroup (s : State) (g : SavedGroup) : Option State :=
  let z := (Tbl.keys g.gangs).foldl (fun (z : Option State) gid => z.bind fun t => t.returnGang g gid) (some s)
  z.map fun t =>
    let placeOf (old : Nat × Nat) : Nat × Nat :=
      match g.blocks.find? fun b => b.core == old.1 && b.slot == old.2 with
      | some b => ((Tbl.at t.gangs b.block.gang { members := [], window := 0 }).members).getD b.block.rank old
      | none => old
    { t with
      chans := (t.getCounts g.counts g.chans).foldl (fun l e => Tbl.put l e.1 { e.2 with sender := placeOf e.2.sender, receiver := placeOf e.2.receiver }) t.chans
      saved := t.saved.erase g }

/-- R342, R347: the saved groups of a context and a page that can be placed now come back, and their cohorts are recalled. -/
def State.returnGroups (s : State) (asid page : Nat) : State :=
  (s.saved.filter fun g => g.asid == asid && g.page == page).foldl (fun (t : State) g =>
    ((t.returnGroup g).map fun u => u.recall asid fun h => g.blocks.any fun b => b.cohorts.any (·.uid == h.uid)).getD t) s

/-- CTX_RESTORE_GROUPS (R347): command 4. -/
def execCtxRestoreGroups (s : State) : Out :=
  .next (s.takeCmd 4 (s.arg 1) (s.arg 0) fun t => t.returnGroups (s.arg 0) (s.arg 1))

/-- CTXCMD_COMPLETE (R347): busy clears once the command has finished everywhere; what still waits tries again. -/
def execCtxcmdComplete (s : State) : Out :=
  let v := s.hubReg 0x2000
  let asid := bitsAt v 11 0
  let page := bitsAt v 51 12
  let cmd := bitsAt v 63 60
  if !(s.hubReg 0x2008).getLsbD 63 then .next s
  else
    let s1 := if cmd = 4 ∧ s.saved.any fun g => g.asid == asid && g.page == page then s.returnGroups asid page else s
    let leaving := (Tbl.vals s1.cores).any fun co => (Tbl.vals co.cohorts).any fun h => h.asid == asid && h.leaving
    let waiting := (Tbl.vals s1.cores).any fun co => co.away.any fun h => h.asid == asid && h.asked
    let saved := s1.saved.any fun g => g.asid == asid && g.page == page
    let busy := match cmd with
      | 1 => leaving
      | 2 => waiting
      | 4 => saved || waiting
      | _ => false
    if busy then .next s1 else .next (s1.setHub 0x2008 (s1.hubReg 0x2008 &&& 0x4000000000000000))

/-! The context table (R320). -/

/-- R320: the bits of a field that a write reaches. -/
def ctxMask (off : Nat) : DWord :=
  match off with
  | 0x00 => 0xf
  | 0x08 => 0x000ffffffffff000
  | 0x10 => 0xffffffffffffffff
  | 0x18 => 0xffffffffffffffff
  | 0x20 => 0x000fffffffff0000
  | 0x28 => 0xffff
  | _ => 0

/-- CTX_TABLE_WRITE (R300, R320): a live context takes the debug enable and the known-answer mode alone. A context that becomes valid has
had no launch. -/
def execCtxTableWrite (s : State) : Out :=
  let asid := s.arg 0
  let off := s.arg 1
  let a := 0x100000 + 64 * asid + off
  let live := (Tbl.vals s.launches).any (·.asid == asid)
  let m : DWord := if live then (if off = 0 then 6 else 0) else ctxMask off
  let old := s.hubReg a
  let new := (old &&& ~~~m) ||| (BitVec.ofNat 64 (s.arg 2) &&& m)
  let s1 := s.setHub a new
  .next (if off = 0 ∧ old.getLsbD 0 = false ∧ new.getLsbD 0 then { s1 with begun := remNat s1.begun asid } else s1)

/-! Translation invalidation from the hub (R325, R346, R347). -/

/-- R346, R347: an invalidation of a context is taken unless one is under way. -/
def State.tlbinv (s : State) (v : DWord) (asid : Nat) (f : TlbEntry → Bool) : State :=
  if (s.hubReg 0x2018).getLsbD 63 then s
  else
    let s1 := ((s.setHub 0x2010 v).setHub 0x2018 0x8000000000000000).dropTlb asid f
    ({ s1 with invals := Tbl.put s1.invals 0 s1.inFlight } : State).pushOnce .tlbinvComplete [0]

/-- TLBINV_ALL (R347). -/
def execTlbinvAll (s : State) : Out := .next (s.tlbinv (BitVec.ofNat 64 (2 ^ 63 + s.arg 1 % 2 ^ 45 * 2 ^ 12 + s.arg 0 % 2 ^ 12)) (s.arg 0) fun _ => true)

/-- TLBINV_PAGE (R347): the translations that map the page, whatever their size. -/
def execTlbinvPage (s : State) : Out :=
  .next (s.tlbinv (BitVec.ofNat 64 (s.arg 1 % 2 ^ 45 * 2 ^ 12 + s.arg 0 % 2 ^ 12)) (s.arg 0) fun e =>
    e.vpn == s.arg 1 % 2 ^ 45 * 2 ^ 12 / 2 ^ e.bits)

end Sys2Proof.Machine
end

