-- ==== Sys2Proof/Machine/Stacks.lean ====
section
/-! DEFINITION. Checkpoints of one stack, checkpoint mode, and warm reset (R412 to R417). -/

namespace Sys2Proof.Machine

open Sys2Proof

/-- A stack's state. -/
def State.stack (s : State) (st : Nat) : StackSt := Tbl.at s.stackTbl st {}

/-- WBCTX_WRITE (R412): ignored while the context has a live launch. -/
def execWbctxWrite (s : State) : Out :=
  let asid := s.arg 0
  if 4096 ≤ asid || (Tbl.vals s.launches).any (·.asid == asid) then .next s
  else .next (s.setHub (0x710000 + 8 * asid) (BitVec.ofNat 64 (s.arg 1 % 2)))

/-! Taking a checkpoint (R413, R414). -/

/-- R413: a register of stack `st`. -/
def State.stkReg (s : State) (st off : Nat) : Nat := (s.hubReg (0x700000 + 0x40 * st + off)).toNat

/-- R413: the address of a stack's checkpoint area. -/
def State.ckptArea (s : State) (st : Nat) : Nat := s.stkReg st 8 / 2 ^ 12 % 2 ^ 40 * 4096

/-- R413: the checkpoint and the log lie wholly in the far memory of the next stack. -/
def State.areaOk (s : State) (st : Nat) : Bool :=
  let a := s.ckptArea st
  let n := (s.stkReg st 0x10 % 2 ^ 32 + s.stkReg st 0x10 / 2 ^ 32) * 4096
  let lo := 0x100000000000 + (st + 1) % 8 * 2 ^ 38
  lo ≤ a && a + n ≤ lo + 2 ^ 38

/-- R342, R414: the bytes that the groups of a checkpoint take: what eviction saves of them, and the images of their cohorts. -/
def ckptSize (bs : List ((Nat × Nat) × Block)) : Nat :=
  savedSize bs + bs.foldl (fun n e => n + e.2.live.length * partSize 0x10000) 0

/-- R414 step 1: the cohorts of the covered groups are kept out; those that are resident leave, to come back at the end. -/
def State.freeze (s : State) (st : Nat) : State :=
  (s.covered st).foldl (fun (t : State) e =>
    let t1 := t.onCore e.1.1 fun co =>
      let co1 := co.onBlockCohorts e.1.2 fun h => { h with frozen := insNat h.frozen st }
      { co1 with cohorts := Tbl.mapv co1.cohorts fun _ h => if h.slot = e.1.2 then { h with back := insNat h.back st } else h }
    t1.swapBlock e.1.1 e.1.2 true) s

/-- R414 step 4: the cohorts kept out go on. -/
def State.thaw (s : State) (st : Nat) : State :=
  let s1 : State := { s with cores := Tbl.mapv s.cores fun _ co =>
    { co.onCohorts (fun h => { h with frozen := remNat h.frozen st }) with away := co.away.map fun h => { h with frozen := remNat h.frozen st } } }
  let us := ((Tbl.vals s1.cores).flatMap (·.away)).filter fun h => h.back != [] && h.frozen == []
  us.foldl (fun (t : State) h => t.pushOnce .cohortRestore [h.uid]) s1

/-- R414: once every cohort that a checkpoint took out is back, the checkpoint is over and the packets held are released. -/
def State.finishCheckpoint (s : State) (st : Nat) : State :=
  if (Tbl.vals s.cores).any fun co => co.away.any fun h => h.back.contains st then s.push .checkpointQuiet [st]
  else ((s.onStackSt st fun x => { x with step := 0 }).releasePackets st (s.stack st).packets).pushOnce .schedule []

/-- The end of a checkpoint, with what it leaves: the ends that are no longer withheld are counted, and the cohorts go on (R414 step 4). -/
def State.endCheckpoint (s : State) (st : Nat) (complete : Bool) (f : StackSt → StackSt) : State :=
  let x := f (s.stack st)
  let comps := if complete || !x.mode then x.heldComps else []
  let s1 := ({ s with stackTbl := Tbl.put s.stackTbl st { x with step := 3, forced := false, heldComps := if comps = [] then x.heldComps else [] } } : State).thaw st
  (s1.pushAll comps).finishCheckpoint st

/-- R414, R415: a checkpoint fails with a result: the previous one stays valid, unless the message log forced this one, which ends checkpoint mode. -/
def State.failCheckpoint (s : State) (st code : Nat) : State :=
  s.endCheckpoint st false fun x =>
    if x.forced then { x with result := code, mode := false, saved := none, log := [], logged := 0 } else { x with result := code }

/-- R413, R414: a checkpoint begins, if the area lies in the next stack's far memory and is large enough. -/
def State.beginCheckpoint (s : State) (st : Nat) (forced : Bool) : State :=
  let s1 := s.onStackSt st fun x => { x with forced := forced }
  if !s.areaOk st then s1.failCheckpoint st 2
  else if s.stkReg st 0x10 % 2 ^ 32 * 4096 < ckptSize (s.covered st) then s1.failCheckpoint st 1
  else ((s1.onStackSt st fun x => { x with step := 1 }).freeze st).pushOnce .checkpointQuiet [st]

/-- STK_ENTER_CHECKPOINT (R413): checkpoint mode is entered, unless the area does not lie in the next stack's far memory, and a checkpoint begins. -/
def execStkEnterCheckpoint (s : State) : Out :=
  let st := s.arg 0
  if (s.stack st).step != 0 then .next s
  else .next ((s.onStackSt st fun x => { x with mode := x.mode || s.areaOk st }).beginCheckpoint st false)

/-- STK_TAKE_CHECKPOINT (R414). -/
def execStkTakeCheckpoint (s : State) : Out :=
  if (s.stack (s.arg 0)).step != 0 then .next s else .next (s.beginCheckpoint (s.arg 0) false)

/-- STK_LEAVE_CHECKPOINT (R413): checkpoint mode ends; what it withheld is counted, and the log is dropped. -/
def execStkLeaveCheckpoint (s : State) : Out :=
  let st := s.arg 0
  let x := s.stack st
  if x.step != 0 then .next s
  else
    let s1 := (s.onStackSt st fun y => { y with mode := false, log := [], logged := 0, heldComps := [], result := 0 }).pushAll x.heldComps
    .next (s1.releasePackets st x.packets)

/-- R414 step 3: the covered groups saved into the checkpoint area, with the images of their cohorts. A tile write that has left the core is not part
of it. -/
def State.takeSnapshot (s : State) (st : Nat) : Checkpoint × State :=
  let bs := s.covered st
  let ids := (bs.map fun e => e.2.gang).eraseDups
  let chs := bs.flatMap fun e => Tbl.vals e.2.sends ++ Tbl.vals e.2.recvs
  let chans := List.filter (fun (e : Nat × Chan) => chs.contains e.1) s.chans
  let z := s.saveBlocks (s.ckptArea st) bs
  let hs := z.1.flatMap (·.cohorts)
  let y := hs.foldl (fun (y : Tbl Nat × Nat × State) h =>
    (Tbl.put y.1 h.image y.2.1, y.2.1 + partSize 0x10000, (y.2.2.settle h.image 0x10000).putPart y.2.1 0x10000
      ((y.2.2.settle h.image 0x10000).savePart h.image 0x10000))) ([], z.2.1 + 16 * chans.length, z.2.2.putCounts z.2.1 chans)
  ({ blocks := z.1
     gangs := List.filter (fun (e : Nat × Gang) => ids.contains e.1) s.gangs
     chans := chans, counts := z.2.1, images := y.1
     monitors := List.filter (fun (e : Nat × Monitor) => hs.any fun h => h.uid == e.2.uid) s.monitors }, y.2.2)

/-- CHECKPOINT_QUIET (R414): once every cohort of the groups is out, their dirty lane lines go to their images and the wait for quiet begins; once the groups
are quiet they are saved, the log is emptied, and the ends withheld are counted; and once the groups are restored the checkpoint is over. -/
def execCheckpointQuiet (s : State) : Out :=
  let st := s.arg 0
  let bs := s.covered st
  match (s.stack st).step with
  | 1 =>
    if bs.any fun e => ((Tbl.vals (s.core e.1.1).cohorts).any (·.slot == e.1.2)) || !e.2.started then .next s
    else
      let outs := bs.flatMap fun e => (s.core e.1.1).away.filter (·.slot == e.1.2)
      let s1 := outs.foldl (fun (t : State) h => t.flushLines h) s
      .next ((s1.onStackSt st fun x => { x with step := 2, since := s.net.hubClock }).pushOnce .checkpointQuiet [st])
  | 2 =>
    if !bs.all fun e => s.mayEvict e.1.1 e.1.2 e.2 then .next s
    else
      let k := s.takeSnapshot st
      .next (k.2.endCheckpoint st true fun x => { x with saved := some k.1, log := [], logged := 0, result := 0, taken := (x.taken + 1) % 2 ^ 16 })
  | 3 => .next (s.finishCheckpoint st)
  | _ => .next s

/-- CHECKPOINT_TIMEOUT (R414): the groups are not quiet within 2^24 hub-clock cycles: result 4. -/
def execCheckpointTimeout (s : State) : Out :=
  let x := s.stack (s.arg 0)
  if x.step = 2 ∧ x.since + 0x1000000 ≤ s.net.hubClock then .next (s.failCheckpoint (s.arg 0) 4) else .next s

/-- MSG_LOG_OVERFLOW (R415): the hub takes a checkpoint at once. -/
def execMsgLogOverflow (s : State) : Out :=
  let x := s.stack (s.arg 0)
  if x.step = 0 && x.mode && x.packets != [] then .next (s.beginCheckpoint (s.arg 0) true) else .next s

/-! Warm reset (R416, R417). -/

/-- A block taken off a core with nothing released: its cohorts, its chains, its multiplies and its grants go. -/
def CoreSt.removeBlock (co : CoreSt) (b : Nat) (uids : List Nat) : CoreSt :=
  let eng (e : Engine) : Engine := { e with chains := List.filter (fun (x : Nat × Chain) => x.2.block != b) e.chains }
  { co with
    blocks := Tbl.del co.blocks b
    cohorts := List.filter (fun (e : Nat × Cohort) => e.2.slot != b) co.cohorts
    away := co.away.filter fun h => h.slot != b
    owners := List.filter (fun (e : Nat × Nat) => !uids.contains e.2) co.owners
    lines := co.lines.filter fun e => !uids.contains e.1
    copyEng := eng co.copyEng, gatherEng := eng co.gatherEng
    grants := co.grants.filter fun g => g.slot != b
    mats := co.mats.filter fun m => m.slot != b
    frameWaits := co.frameWaits.filter fun r => r.slot != b }

/-- R416: the groups given go from every core with their gangs, channels, monitors and accesses. -/
def State.removeGroups (s : State) (bs : List ((Nat × Nat) × Block)) : State :=
  let uids := bs.flatMap fun e => e.2.uids
  let gs := bs.map fun e => e.2.gang
  let chs := bs.flatMap fun e => Tbl.vals e.2.sends ++ Tbl.vals e.2.recvs
  let s1 := bs.foldl (fun (t : State) e => t.onCore e.1.1 fun co => co.removeBlock e.1.2 e.2.uids) s
  { s1 with
    gangs := List.filter (fun (e : Nat × Gang) => !gs.contains e.1) s1.gangs
    chans := List.filter (fun (e : Nat × Chan) => !chs.contains e.1) s1.chans
    monitors := List.filter (fun (e : Nat × Monitor) => !uids.contains e.2.uid) s1.monitors
    accs := List.filter (fun (e : Nat × Access) => !uids.contains e.2.uid) s1.accs
    agenda := s1.agenda.filter fun d => !(d.row == .gbarPhaseMessage && gs.contains (d.ops.headD 0)) }

/-- R416 steps 1 and 2: the stack's incarnation advances, and its cores come up empty. -/
def State.wipe (s : State) (st : Nat) : State :=
  let lo := coreBase (32 * st)
  let hi := coreBase (32 * st + 32)
  let s1 := s.onStackSt st fun x => { x with incarn := (x.incarn + 1) % 2 ^ 16 }
  { s1 with
    cores := Tbl.mapv s1.cores fun c co => if c / 32 = st then { held := co.held, grantSerial := co.grantSerial } else co
    mem := Mem.clear s1.mem lo (hi - lo)
    full := remRange s1.full (lo / 16) ((hi - lo) / 16)
    poison := remRange s1.poison (lo / 16) ((hi - lo) / 16)
    accPoison := remRange s1.accPoison (lo / 4) ((hi - lo) / 4)
    accs := List.filter (fun (e : Nat × Access) => e.2.core / 32 != st) s1.accs }

/-- R416 step 3: a saved block put back into the resources that it held, as the checkpoint area has it. -/
def State.reloadBlock (s : State) (e : SavedBlock) : State :=
  let c := e.core
  let y := s.savedBlock e
  let x := { y with handles := Tbl.mapv y.handles fun _ h => { h with writes := h.writes.filter (·.held) } }
  (s.onCore c fun co =>
    { co with
      blocks := Tbl.put co.blocks e.slot x, away := co.away ++ e.cohorts.map fun h => { h with frozen := [] }
      grants := co.grants ++ e.grants }).getParts e.at_ (blockParts c x)

/-- R416: what a reloaded group of stack `st` still has on its way: credits, payloads in flight to other stacks (those to this one are in its log),
gang-barrier messages, and the cohorts that were resident. -/
def State.resumeGroups (s : State) (st : Nat) (k : Checkpoint) : State :=
  let s1 := k.chans.foldl (fun (t : State) e =>
    let y := { e.2 with free := e.2.slots - e.2.flight.length - e.2.full.length, flight := if e.2.receiver.1 / 32 = st then [] else e.2.flight }
    y.flight.foldl (fun (u : State) _ => u.push .channelPacketReceive [e.1]) { t with chans := Tbl.put t.chans e.1 y }) s
  let s2 := k.gangs.foldl (fun (t : State) e =>
    e.2.bars.foldl (fun (u : State) b => if b.2.done then u.push .gbarPhaseMessage [e.1, b.1 / 2, b.1 % 2] else u)
      { t with gangs := Tbl.put t.gangs e.1 e.2 }) s1
  let s3 := k.monitors.foldl (fun (t : State) e =>
    ({ t with monitors := Tbl.put t.monitors e.1 e.2 } : State).fire e.2.addr (if e.2.wide then 8 else 4)) s2
  ((k.blocks.flatMap (·.cohorts)).filter (·.auto)).foldl (fun (t : State) h => t.pushOnce .cohortRestore [h.uid]) s3

/-- R416 step 4: a logged access performs again. A load returns its value to no one. -/
def State.replayAccess (s : State) (a : Access) : State :=
  match regionOf (a.lanes.headD { lane := 0, va := 0 }).pa with
  | .core _ .regWindow _ => s.windowWrite a.owner (a.lanes.map fun x => (x.pa % 0x4000, BitVec.ofNat 8 x.x, x.y == 1))
  | _ =>
    let s1 := match a.kind with
      | .load => s
      | _ => (s.serve a).2.2
    let s2 : State := if a.full = 2 then { s1 with full := s1.full.filter fun g => !a.lanes.any fun x => x.pa / 16 == g } else s1
    if a.fills then s2.fillGranules ((a.lanes.map (·.pa / 16)).eraseDups) else s2

/-- R416 step 4: a logged packet is delivered again: an access, a payload of a channel, or an access of a peer, whose answer no one takes. -/
def State.replayItem (s : State) (x : LogItem) : State :=
  match x.acc, x.payload with
  | some a, _ => s.replayAccess a
  | none, some p => ({ s with chans := Tbl.adj s.chans (x.row.ops.headD 0) fun y => { y with flight := y.flight ++ [p] } } : State).pushAll [x.row]
  | none, none => if x.row.row = .peerAccessReceive then { s.peerReceive x.row.ops with links := s.links } else s

/-- R416: reads of the stack's windows by other agents that are outstanding are reissued, and writes that have performed are acknowledged. -/
def State.reissue (s : State) (st : Nat) : State :=
  let toMe (a : Access) : Bool := match regionOf (a.lanes.headD { lane := 0, va := 0 }).pa with
    | .core c .. => c / 32 == st
    | _ => false
  let coming (id : Nat) : Bool := (Tbl.vals s.net.packets).any fun p => p.dst < 16 && p.deliver == { row := .bankAccess, ops := [id] }
  (List.filter (fun (e : Nat × Access) => toMe e.2 && !coming e.1) s.accs).foldl (fun (t : State) e =>
    let a := e.2
    if a.kind = .load then
      let t1 := match t.whereIs a.uid with
        | none => t
        | some (c, k) => t.onCohort c k fun h => h.onLoad a.seq fun x =>
            { x with got := x.got.filter fun g => !a.lanes.any fun l => l.lane == g.lane
                     bad := x.bad &&& ~~~(maskOf fun l => a.lanes.any fun y => y.lane == l) }
      ({ t1 with accs := Tbl.put t1.accs e.1 { a with stage := 0, stamp := 0 } } : State).pushOnce .bankAccess [e.1]
    else if a.stage = 0 then t.pushOnce .bankAccess [e.1]
    else if a.kind.returns then t.push .loadDataReturn [a.uid, a.seq, e.1]
    else t.pushOnce .writeAcknowledgement [e.1]) s

/-- The part of a checkpoint that a test of gangs and launches keeps. -/
def Checkpoint.only (k : Checkpoint) (p : Block → Bool) : Checkpoint :=
  let bs := k.blocks.filter fun b => p b.block
  let hs := bs.flatMap (·.cohorts)
  let chs := bs.flatMap fun b => Tbl.vals b.block.sends ++ Tbl.vals b.block.recvs
  { blocks := bs
    gangs := List.filter (fun (e : Nat × Gang) => bs.any fun b => b.block.gang == e.1) k.gangs
    chans := List.filter (fun (e : Nat × Chan) => chs.contains e.1) k.chans
    counts := k.counts
    images := List.filter (fun (e : Nat × Nat) => hs.any fun h => h.image == e.1) k.images
    monitors := List.filter (fun (e : Nat × Monitor) => hs.any fun h => h.uid == e.2.uid) k.monitors }

/-- R416: a gang placed since the checkpoint is lost, and its launch places it again; the end of a lost worker is counted (log entry 41). -/
def State.redoGang (s : State) (launch stage first : Nat) : State :=
  match (Tbl.find? s.launches launch).bind fun l => l.stages[stage]? with
  | none => s
  | some y =>
    if y.qd || (Tbl.find? s.launches launch).elim false (·.killed) then s.countBlock launch stage
    else (s.onStage launch stage fun z => { z with redo := z.redo ++ [first] }).pushOnce .schedule []

/-- R424: the present cores of a stack, in the order in which they come up. -/
def State.stackCores (s : State) (st : Nat) : List Nat := ((List.range 32).map (32 * st + ·)).filter s.present

/-- R416 steps 3 to 6: with the islands up, the checkpointed groups are reloaded, the log is delivered and then the packets held; what the checkpoint does not
have is lost. A launch that has been cancelled meanwhile has its gangs counted. -/
def State.restoreStack (s : State) (st : Nat) : State :=
  let x := s.stack st
  let k : Checkpoint := (x.saved.map fun k => { k with chans := s.getCounts k.counts k.chans }).getD {}
  let back := k.only fun b => x.gone.any (fun g => g.1 == b.gang) && (Tbl.find? s.launches b.launch).elim false fun l => !l.killed
  let lost := (x.gone.filter fun g => !Tbl.has back.gangs g.1).eraseDups
  let s1 := s.onStackSt st fun y => { y with step := 0, gone := [], packets := [] }
  let s2 := lost.foldl (fun (t : State) g => t.redoGang g.2.1 g.2.2.1 g.2.2.2) s1
  let s3 := back.images.foldl (fun (t : State) e => (t.settle e.1 0x10000).loadPart e.1 0x10000 (t.getPart e.2 0x10000)) (back.blocks.foldl State.reloadBlock s2)
  let s4 := x.log.foldl State.replayItem (s3.resumeGroups st back)
  (s4.releasePackets st x.packets).reissue st

/-- R417: with the islands up again and nothing restored, the packets held are delivered. -/
def State.emptyStack (s : State) (st : Nat) : State :=
  let x := s.stack st
  (((s.onStackSt st fun y => { y with step := 0, packets := [] }).releasePackets st x.packets).reissue st).pushOnce .schedule []

/-- R416 step 2, R424: the next core of a stack under warm reset comes up; after the last one the reset goes on. -/
def State.stackRamp (s : State) (st : Nat) : State :=
  let x := s.stack st
  if x.step < 4 then s
  else if x.up < (s.stackCores st).length then (s.onStackSt st fun y => { y with up := y.up + 1 }).push .kilnRampStep [st]
  else if x.step = 4 then s.restoreStack st
  else s.emptyStack st

/-- R416 steps 1 and 2: a warm reset with restore begins: the groups go, and the islands are powered down. -/
def State.resetRestore (s : State) (st : Nat) : State :=
  let cov := s.covered st
  let ended := (s.stack st).heldComps.map fun d => (d.ops.getD 5 0, d.ops.getD 3 0, d.ops.getD 4 0, d.ops.getD 6 0)
  let gone := (cov.map fun e => (e.2.gang, e.2.launch, e.2.stage, e.2.task - e.2.rank)) ++ ended
  (((s.removeGroups cov).wipe st).onStackSt st fun y => { y with step := 4, up := 0, gone := gone, heldComps := [], result := 0 }).push .kilnRampStep [st]

/-- R417: a warm reset without restore: every launch with a block on the stack is cancelled, and the stack comes back empty. -/
def State.resetEmpty (s : State) (st result : Nat) : State :=
  let x := s.stack st
  let on (t : State) : List ((Nat × Nat) × Block) := t.placedBlocks.filter fun e => e.1.1 / 32 == st
  let s1 := ((on s).map fun e => e.2.launch).eraseDups.foldl (fun (t : State) id => t.killLaunch id) s
  let left := on s1
  let s2 := left.foldl (fun (t : State) e => t.freeBlock e.1.1 e.1.2 e.2) s1
  let s3 := (s2.wipe st).onStackSt st fun y => { y with step := 5, up := 0, saved := none, log := [], logged := 0, heldComps := [], result := result }
  let s4 := left.foldl (fun (t : State) e => t.countBlock e.2.launch e.2.stage) s3
  (s4.pushAll x.heldComps).push .kilnRampStep [st]

/-- STK_WARM_RESET_RESTORE (R416, R417): ignored while a checkpoint is under way; with no valid checkpoint the stack comes back empty, with result 3. -/
def execStkWarmResetRestore (s : State) : Out :=
  let st := s.arg 0
  let x := s.stack st
  if x.step != 0 then .next s
  else match x.saved with
    | some _ => .next (s.resetRestore st)
    | none => .next (s.resetEmpty st 3)

/-- STK_WARM_RESET_NO_RESTORE (R417). -/
def execStkWarmResetNoRestore (s : State) : Out :=
  if (s.stack (s.arg 0)).step != 0 then .next s else .next (s.resetEmpty (s.arg 0) 0)

end Sys2Proof.Machine
end

