-- ==== Sys2Proof/Machine/Clock.lean ====
section
/-! DEFINITION. What passes with the clocks: a core's timers and windows, and the periods and time limits of the hub (R114, R122, R134, R282, R286, R363,
R384, R404, R407, R414, R422, R423). Cycles are steps of the model: durations are no claim of it (log entry 14). -/

namespace Sys2Proof.Machine

open Sys2Proof

/-! A core's cycle. -/

/-- R122, R134: a split's timer after a cycle: a yield counts down, a held `SEND` or `RECV` counts up outside handler mode. -/
def Split.tick (sp : Split) (handler : Bool) : Split :=
  if sp.state = 4 then { sp with timer := sp.timer - 1 }
  else if sp.state = 3 && !handler then { sp with timer := sp.timer + 1 }
  else sp

/-- R114: a join's bound after a cycle. -/
def Join.tick (j : Join) : Join := if j.run then { j with timer := j.timer - 1 } else j

/-- A cohort's timers after a cycle; they stand still while it is stopped. -/
def Cohort.tick (h : Cohort) : Cohort :=
  if h.stopped then h
  else { h with splits := Tbl.mapv h.splits fun _ sp => sp.tick h.handler, joins := Tbl.mapv h.joins fun _ j => j.tick }

/-- The rows that a cohort's timers make due. -/
def Cohort.timersDue (h : Cohort) (c k wdog : Nat) : List Due :=
  if h.stopped then []
  else
    ((List.filter (fun (e : Nat × Split) => e.2.state == 4 && e.2.timer == 0) h.splits).map fun e => { row := .yieldExpire, ops := [c, k, e.1] }) ++
    ((List.filter (fun (e : Nat × Split) => e.2.state == 3 && wdog != 0 && decide (wdog ≤ e.2.timer) && !h.handler) h.splits).map fun e =>
      { row := .channelStall, ops := [c, k, e.1] }) ++
    ((List.filter (fun (e : Nat × Join) => e.2.run && e.2.timer == 0) h.joins).map fun e => { row := .rwaitTimeout, ops := [c, k, e.1] })

/-- A row put on what is due unless it is due already. -/
def State.pushDue (s : State) (d : Due) : State := s.pushOnce d.row d.ops

/-- A core-clock cycle of core `c`. -/
def State.tickCore (s : State) (c : Nat) : State :=
  let s1 := s.onCore c fun co => { co.onCohorts (·.tick) with lclk := co.lclk + 1 }
  let co := s1.core c
  let due := co.cohorts.flatMap fun (e : Nat × Cohort) => e.2.timersDue c e.1 ((Tbl.find? s1.launches e.2.launch).elim 0 (·.wdog))
  let s2 := due.foldl State.pushDue s1
  let s3 := if co.lclk % 65536 = 0 ∧ Tbl.has s2.corrected c then s2.push .errCorrectionPeriod [0, c] else s2
  if co.lclk % 4096 = 0 then s3.push .governorWindow [c] else s3

/-- R213, R407: a cycle of a port's quad: lanes that its instruction does not write are gated, all of them where none occupies it. A port that is
idle injects instead where a cohort of it is in known-answer mode, and that is not counted as idle. -/
def State.quadCycle (s : State) (c p : Nat) : State :=
  let co := s.core c
  let on := co.lclk < Tbl.at co.busy p 0
  if !on && s.katOn c p then s.pushOnce .katInject [c, p, 0]
  else s.onCore c fun co => { co with gated := co.gated + (32 - if on then (lanesOf (Tbl.at co.busyLanes p 0)).length else 0) }

/-! The hub's cycle. -/

/-- R384: since when an unacknowledged access to a peer has had no link. -/
def State.timePeers (s : State) : State :=
  { s with peers := Tbl.mapv s.peers fun _ x =>
      { x with since := if !s.peerCut x.peer then none else match x.since with | some t => some t | none => some s.net.hubClock } }

/-- The rows that the hub's time limits make due. -/
def State.hubDue (s : State) : List Due :=
  (if s.scan.stage = 1 ∧ (s.core s.scan.core).blocks = [] then [{ row := .scanTest }] else []) ++
  ((Tbl.keys s.net.stuck).filter s.net.probeDue).map (fun (k : Nat) => { row := .probeLaunch, ops := [k] }) ++
  ((Tbl.vals s.ul.handlers).filter fun h =>
    h.comb.isSome && bitsAt (s.aw h.win 0x28) 31 0 != 0 && h.since + bitsAt (s.aw h.win 0x28) 31 0 ≤ s.net.hubClock).map
      (fun h => { row := .bucketSpill, ops := [h.win, h.tag, h.seg] }) ++
  (List.filter (fun (e : Nat × UePacket) => decide (e.2.since + s.ueTimeout e.2.port ≤ s.net.hubClock)) s.ul.sent).map
    (fun e => { row := .ueRetransmit, ops := [e.1] }) ++
  (List.filter (fun (e : Nat × StackSt) => e.2.step != 0) s.stackTbl).map (fun e => { row := .checkpointQuiet, ops := [e.1] }) ++
  (List.filter (fun (e : Nat × StackSt) => e.2.step == 2 && decide (e.2.since + 0x1000000 ≤ s.net.hubClock)) s.stackTbl).map
    (fun e => { row := .checkpointTimeout, ops := [e.1] }) ++
  (List.filter (fun (e : Nat × PeerAcc) => e.2.since.elim false fun t => t + 0x100000 ≤ s.net.hubClock) s.peers).map
    (fun e => { row := .peerAccessTimeout, ops := [e.1] })

/-- The rows that a period of 65,536 hub-clock cycles makes due (R286, R404, R423). Those of cores are counted by their own clocks. -/
def State.periodDue (s : State) : List Due :=
  (List.range 4).map (fun (cls : Nat) => { row := .fsPeriodStart, ops := [cls] }) ++ [{ row := .powerEstimate }] ++
    ((Tbl.keys s.corrected).filter (4096 ≤ ·)).map fun (k : Nat) => { row := .errCorrectionPeriod, ops := [k / 4096, k % 4096] }

/-- A hub-clock cycle, in which the fabric ports send (R419). -/
def State.tickHub (s : State) : State :=
  let s0 : State := { s with net := { s.net with hubClock := s.net.hubClock + 1 } }
  let s1 := ((Tbl.keys s0.links).foldl State.linkSend s0).timePeers
  let s2 := s1.hubDue.foldl State.pushDue (s1.payOwed.hostDrain s1.hostWait)
  if s2.net.hubClock % 65536 = 0 then s2.periodDue.foldl State.pushDue s2 else s2

end Sys2Proof.Machine
end

