-- ==== Sys2Proof/Machine/Flow.lean ====
section
/-! DEFINITION. Branches, calls, splits and joins, exits, bisque regions, software traps and yields (R106 to R122). -/

namespace Sys2Proof.Machine

open Sys2Proof

/-- R50: the target of an offset in halfwords from an instruction. -/
def target (pc : DWord) (off : Nat) : DWord := pc + (sextTo 21 64 off <<< 1)

/-- The split moved to an address. -/
def Cohort.goTo (h : Cohort) (w : Who) (pc : DWord) : Cohort := h.onSplit w.i fun sp => { sp with pc := pc }

/-- R106: the lanes taken keep the split's entry; the others go on in a new split. -/
def Cohort.diverge (h : Cohort) (w : Who) (t : Mask) (tgt : DWord) : Cohort :=
  (h.newSplit { pc := w.sp.pc + 4, entry := w.sp.entry &&& ~~~t, exec := w.sp.exec &&& ~~~t, frm := w.sp.frm, dph := w.sp.dph,
                join := w.sp.join }).onSplit w.i fun sp => { sp with entry := t, exec := t, pc := tgt }

/-- `BRA` (R106). -/
def execBra (o g : Nat) (s : State) : Out :=
  issueOwn {} noCheck
    (fun w h =>
      let act := w.h.active w.sp
      let t := act &&& w.h.guardMask g
      if g = 0 ∨ t = act then h.goTo w (target w.sp.pc o)
      else if t = 0 then h
      else h.diverge w t (target w.sp.pc o)) s

/-- `CALL` (R107). -/
def execCall (o : Nat) (s : State) : Out :=
  issueOwn { ud := [63] } noCheck (fun w h => (h.setQ 63 (w.sp.pc + 4) 0).goTo w (target w.sp.pc o)) s

/-- R50: the target in register `n`, if it is odd. -/
def Who.oddTarget (w : Who) (n : Nat) : Option Nat := if (w.h.uq n).getLsbD 0 then some (w.h.uq n).toNat else none

/-- R50, R107: a jump to the target in register `n`; an odd one is a fault. -/
def jumpTo (n : Nat) (s : State) : Out :=
  issue (fun w _ => { us := [n], odd := w.oddTarget n }) noCheck noHold (fun w t => t.onCohort w.c w.k fun h => h.goTo w (w.h.uq n)) s

/-- `RET` (R107). -/
def execRet (s : State) : Out := jumpTo 63 s

/-- `JMPQ` (R107). -/
def execJmpq (a : Nat) (s : State) : Out := jumpTo a s

/-- `NOP` (R122). -/
def execNop (s : State) : Out := issueOwn {} noCheck (fun _ h => h) s

/-! Joins (R112 to R115). -/

/-- `RECONV` (R112): a sixteenth record is the last (R137). DESIGN CHOICE (log entry 83): it opens the lowest free one; the spec names none. -/
def execReconv (o : Nat) (s : State) : Out :=
  issueOwn {} (fun w _ => if 16 ≤ w.h.joins.length then some { code := 13 } else none)
    (fun w h =>
      match Tbl.lowestFree h.joins 16 with
      | none => h
      | some n =>
        let j : Join := { addr := target w.sp.pc o, mask := w.sp.entry, parent := w.sp.join }
        ({ h with joins := Tbl.put h.joins n j } : Cohort).onSplit w.i fun sp => { sp with join := some n }) s

/-- `RWAIT` (R114): a split that executes it, instead of parking there, executes a `NOP`. -/
def execRwait (a : Nat) (s : State) : Out := issueOwn { us := [a] } noCheck (fun _ h => h) s

/-- R113: the split is added to the lanes that a record has. -/
def Join.add (j : Join) (sp : Split) : Join :=
  let lo := lowestLane sp.entry
  { j with arrived := j.arrived ||| sp.entry, mexec := j.mexec ||| sp.exec,
           lead := if lo < j.lead then lo else j.lead, frm := if lo < j.lead then sp.frm else j.frm,
           dph := if lo < j.lead then sp.dph else j.dph, from_ := j.from_ ++ [(sp.entry, sp.frm, sp.dph)] }

/-- R113, R114: the bound of a join whose address holds an `RWAIT`, started by the first split of a group. -/
def State.joinBound (s : State) (c k : Nat) (h : Cohort) (j : Join) : Join :=
  if j.run then j
  else match s.instrAt c k j.addr with
    | some (.rwait a) =>
      let n := (h.uq a).toNat % 2 ^ 32
      { j with timer := n, run := n != 0 }
    | _ => j

/-- R113: split `i` parks at its innermost record, which merges if nothing else is awaited. -/
def State.joinArrive (s : State) (c k i : Nat) : State :=
  match s.cohort? c k with
  | none => s
  | some h =>
    match h.split? i with
    | none => s
    | some sp =>
      if !h.atJoin sp || sp.state != 0 || !h.mayIssue then s
      else
        let n := sp.join.getD 0
        let j := (Tbl.at h.joins n {}).add sp
        let h1 := ({ h with joins := Tbl.put h.joins n j } : Cohort).freeSplit i
        if h1.awaited j = 0 then s.setCohort c k (h1.merge n)
        else s.setCohort c k { h1 with joins := Tbl.put h1.joins n (s.joinBound c k h1 j) }

/-- JOIN_ARRIVE (R113). -/
def execJoinArrive (s : State) : Out := .next (s.joinArrive (s.arg 0) (s.arg 1) (s.arg 2))

/-- A bound of the join has run out. -/
def Cohort.boundOut (h : Cohort) (n : Nat) : Bool := (Tbl.find? h.joins n).any fun j => j.run && j.timer == 0

/-- RWAIT_TIMEOUT (R114): a bound that has run out merges the lanes arrived so far. Splits that stand at the join address arrive in this cycle: where they
are all that was absent, their arrival wins. -/
def execRwaitTimeout (s : State) : Out :=
  let c := s.arg 0
  let k := s.arg 1
  let n := s.arg 2
  match s.cohort? c k with
  | none => .next s
  | some h =>
    if h.boundOut n && !h.stopped then
      let here := List.filter (fun (e : Nat × Split) => e.2.join == some n && h.atJoin e.2) h.splits
      let s1 := here.foldl (fun (t : State) e => t.joinArrive c k e.1) s
      if (s1.cohort? c k).any fun y => !y.boundOut n then .next s1 else .next (s.setCohort c k (h.merge n))
    else .next s

/-! Exits (R116, R117). -/

/-- `EXITL` (R116). -/
def execExitl (s : State) : Out :=
  issue (fun _ _ => {}) noCheck noHold (fun w t => t.exitLanes w.c w.k (w.h.active w.sp)) s

/-- `EXIT` (R117). -/
def execExit (s : State) : Out := issue (fun _ _ => {}) noCheck noHold (fun w t => t.endCohort w.c w.k none) s

/-! Bisque regions (R118). -/

/-- R118: the cohort holds one live split and no parked one. -/
def Cohort.converged (h : Cohort) : Bool :=
  h.splits.length == 1 && h.overflow.isEmpty && (Tbl.vals h.joins).all fun j => j.arrived == 0

/-- R118: the snapshot of the masked registers below the budget, in the state at issue. -/
def Cohort.snapshot (h : Cohort) (w : Who) (mask : DWord) : Bisque :=
  { addr := w.sp.pc + 4, seq := h.seq, mask := mask
    regs := ((List.range 64).filter fun k => mask.getLsbD k && k < w.h.budget).map fun k => (k, w.h.vreg k)
    preds := w.h.p, exec := w.sp.exec, frm := w.sp.frm, dph := w.sp.dph }

/-- R118: the lane registers that a `BISQ` copies. -/
def Who.masked (w : Who) (a : Nat) : List Nat :=
  if a = 0 ∨ !w.h.converged then [] else (List.range 64).filter fun k => (w.h.uq a).getLsbD k && k < w.h.budget

/-- `BISQ` (R118): `BISQ q0` and a divergent cohort disarm only. -/
def execBisq (a : Nat) (s : State) : Out :=
  issue (fun w _ => { us := [a], kept := w.masked a }) noCheck noHold
    (fun w t => t.onCohort w.c w.k fun h =>
      { h with bisque := if a = 0 ∨ !w.h.converged then none else some (h.snapshot w (w.h.uq a)) }) s

/-! Traps and yields (R119, R120, R122). -/

/-- R119, R120: the split has gone past the instruction, and the cohort stops with a cause. -/
def State.softTrap (s : State) (w : Who) (code imm : Nat) : State :=
  s.trapWith w.c w.k { code := code, pc := w.sp.pc, word := w.word, len := w.len, addr := imm, past := some w.i }

/-- `TRAP` (R119). -/
def execTrap (i : Nat) (s : State) : Out := issue (fun _ _ => {}) noCheck noHold (fun w t => t.softTrap w 16 i) s

/-- `BRK` (R120): a `NOP` where the context's debug enable is clear. -/
def execBrk (i : Nat) (s : State) : Out :=
  issue (fun _ _ => {}) noCheck noHold
    (fun w t => if (t.ctx w.h.asid 0).getLsbD 2 then t.softTrap w 17 i else t) s

/-- `YIELD` (R122): 64 cycles. -/
def execYield (s : State) : Out :=
  issueOwn {} noCheck (fun w h => h.onSplit w.i fun sp => { sp with state := 4, timer := 64 }) s

/-- YIELD_EXPIRE (R122): the cycles of a yield have run out. -/
def execYieldExpire (s : State) : Out :=
  let c := s.arg 0
  let k := s.arg 1
  match s.cohort? c k with
  | none => .next s
  | some h =>
    if h.stopped then .next s
    else .next (s.setCohort c k (h.onSplit (s.arg 2) fun sp => if sp.state = 4 ∧ sp.timer = 0 then { sp with state := 0 } else sp))

end Sys2Proof.Machine
end

