-- ==== Sys2Proof/Machine/LaneInt.lean ====
section
/-! DEFINITION. The integer, bitwise and immediate lane instructions and their sixteen-bit forms (R52, R83 to R86). -/

namespace Sys2Proof.Machine

open Sys2Proof

/-- R83: a lane instruction of two sources: every writing lane gets the result, and the register is tagged raw. -/
def lane2 (o : OpA) (f : Word → Word → Word) (s : State) : Out :=
  issueOwn (usesA o) noCheck
    (fun w h => h.setLanes o.d (w.h.writing w.sp o.g) 0 fun l => f (w.h.lane o.a l) (w.h.opB o.q o.b l)) s

/-- R83: a fused lane instruction: the old destination is a source too. -/
def lane3 (o : OpA) (f : Word → Word → Word → Word) (s : State) : Out :=
  issueOwn (usesAcc o) noCheck
    (fun w h => h.setLanes o.d (w.h.writing w.sp o.g) 0 fun l => f (w.h.lane o.a l) (w.h.opB o.q o.b l) (w.h.lane o.d l)) s

/-- R83: a lane instruction of one source. -/
def lane1 (o : OpU) (f : Word → Word) (s : State) : Out :=
  issueOwn (usesU o) noCheck (fun w h => h.setLanes o.d (w.h.writing w.sp o.g) 0 fun l => f (w.h.lane o.a l)) s

/-- R51, R52: a sixteen-bit form `d := d op s`, never guarded. -/
def half2 (r d : Nat) (f : Word → Word → Word) (s : State) : Out :=
  issueOwn (halfUses r d) noCheck
    (fun w h => h.setLanes d (w.h.writing w.sp 0) 0 fun l => f (w.h.lane d l) (w.h.lane r l)) s

/-- R51, R52: a sixteen-bit form with an immediate. -/
def half1 (d : Nat) (f : Word → Word) (s : State) : Out :=
  issueOwn (laneUses [d] [] [d] 0) noCheck (fun w h => h.setLanes d (w.h.writing w.sp 0) 0 fun l => f (w.h.lane d l)) s

/-- R86: an immediate form. -/
def laneImm (d a g : Nat) (f : Word → Word) (s : State) : Out :=
  issueOwn (laneUses [a] [] [d] g) noCheck (fun w h => h.setLanes d (w.h.writing w.sp g) 0 fun l => f (w.h.lane a l)) s

/-- R83: the shift count of `SHL`, `SHR` and `SRA`. -/
def shCount (b : Word) : Nat := b.toNat % 256

/-- R83: `SHL` by a count; 0 from 32 on. -/
def shl (a : Word) (c : Nat) : Word := if 32 ≤ c then 0 else a <<< c

/-- R83: `SHR` by a count; 0 from 32 on. -/
def shr (a : Word) (c : Nat) : Word := if 32 ≤ c then 0 else a >>> c

/-- R83: `SRA` by a count, at most 31. -/
def sra (a : Word) (c : Nat) : Word := a.sshiftRight (min c 31)

/-- R83: the high word of the signed product. -/
def mulHigh (a b : Word) : Word := BitVec.ofInt 32 (a.toInt * b.toInt / 2 ^ 32)

/-- R83: the high word of the unsigned product. -/
def mulHighU (a b : Word) : Word := BitVec.ofNat 32 (a.toNat * b.toNat / 2 ^ 32)

/-- R83: the number of ones. -/
def popc (a : Word) : Word := BitVec.ofNat 32 ((List.range 32).filter a.getLsbD).length

/-- R83: the leading zeros; 32 for 0. -/
def clz (a : Word) : Word := if a = 0 then 32 else BitVec.ofNat 32 (31 - Nat.log2 a.toNat)

/-- R83: bit i moved to bit 31 - i. -/
def brev (a : Word) : Word := (List.range 32).foldl (fun r i => if a.getLsbD i then r ||| (1#32 <<< (31 - i)) else r) 0

/-- R84: the position of a field. -/
def bfPos (b : Word) : Nat := b.toNat % 32

/-- R84: the length of a field. -/
def bfLen (b : Word) : Nat := min (b.toNat / 256 % 64) 32

/-- R84: `BFX`. -/
def bfx (a b : Word) : Word :=
  let f := a.toNat / 2 ^ bfPos b % 2 ^ bfLen b
  if bfLen b = 0 then 0
  else if b.getLsbD 16 && f.testBit (bfLen b - 1) then BitVec.ofNat 32 (f + 2 ^ 32 - 2 ^ bfLen b) else BitVec.ofNat 32 f

/-- R84: `BFI` into the old destination. -/
def bfi (a b d : Word) : Word :=
  let m := BitVec.ofNat 32 ((2 ^ bfLen b - 1) * 2 ^ bfPos b)
  (d &&& ~~~m) ||| (BitVec.ofNat 32 (a.toNat % 2 ^ bfLen b * 2 ^ bfPos b) &&& m)

/-- R83: the smaller of two words by a signed order. -/
def imin (a b : Word) : Word := if b.toInt < a.toInt then b else a

/-- R83: the larger of two words by a signed order. -/
def imax (a b : Word) : Word := if a.toInt < b.toInt then b else a

/-- R83: the smaller of two words by an unsigned order. -/
def nmin (a b : Word) : Word := if b.toNat < a.toNat then b else a

/-- R83: the larger of two words by an unsigned order. -/
def nmax (a b : Word) : Word := if a.toNat < b.toNat then b else a

/-- `IADD` (R83). -/
def execIadd (o : OpA) (s : State) : Out := lane2 o (fun a b => a + b) s

/-- `ISUB` (R83). -/
def execIsub (o : OpA) (s : State) : Out := lane2 o (fun a b => a - b) s

/-- `IMUL` (R83). -/
def execImul (o : OpA) (s : State) : Out := lane2 o (fun a b => a * b) s

/-- `IMULH` (R83). -/
def execImulh (o : OpA) (s : State) : Out := lane2 o (fun a b => mulHigh a b) s

/-- `IMULHN` (R83). -/
def execImulhn (o : OpA) (s : State) : Out := lane2 o (fun a b => mulHighU a b) s

/-- `IMIN` (R83). -/
def execImin (o : OpA) (s : State) : Out := lane2 o (fun a b => imin a b) s

/-- `IMAX` (R83). -/
def execImax (o : OpA) (s : State) : Out := lane2 o (fun a b => imax a b) s

/-- `NMIN` (R83). -/
def execNmin (o : OpA) (s : State) : Out := lane2 o (fun a b => nmin a b) s

/-- `NMAX` (R83). -/
def execNmax (o : OpA) (s : State) : Out := lane2 o (fun a b => nmax a b) s

/-- `ISAD` (R83). -/
def execIsad (o : OpA) (s : State) : Out := lane2 o (fun a b => BitVec.ofNat 32 (a.toInt - b.toInt).natAbs) s

/-- `AND` (R83). -/
def execLand (o : OpA) (s : State) : Out := lane2 o (fun a b => a &&& b) s

/-- `OR` (R83). -/
def execLor (o : OpA) (s : State) : Out := lane2 o (fun a b => a ||| b) s

/-- `XOR` (R83). -/
def execLxor (o : OpA) (s : State) : Out := lane2 o (fun a b => a ^^^ b) s

/-- `ANDN` (R83). -/
def execAndn (o : OpA) (s : State) : Out := lane2 o (fun a b => a &&& ~~~b) s

/-- `SHL` (R83). -/
def execShl (o : OpA) (s : State) : Out := lane2 o (fun a b => shl a (shCount b)) s

/-- `SHR` (R83). -/
def execShr (o : OpA) (s : State) : Out := lane2 o (fun a b => shr a (shCount b)) s

/-- `SRA` (R83). -/
def execSra (o : OpA) (s : State) : Out := lane2 o (fun a b => sra a (shCount b)) s

/-- `ROT` (R83). -/
def execRot (o : OpA) (s : State) : Out := lane2 o (fun a b => a.rotateLeft (b.toNat % 32)) s

/-- `BFX` (R83, R84). -/
def execBfx (o : OpA) (s : State) : Out := lane2 o (fun a b => bfx a b) s

/-- `IMAD` (R83). -/
def execImad (o : OpA) (s : State) : Out := lane3 o (fun a b d => a * b + d) s

/-- `BFI` (R84). -/
def execBfi (o : OpA) (s : State) : Out := lane3 o (fun a b d => bfi a b d) s

/-- `IABS` (R83). -/
def execIabs (o : OpU) (s : State) : Out := lane1 o (fun a => BitVec.ofNat 32 a.toInt.natAbs) s

/-- `POPC` (R83). -/
def execPopc (o : OpU) (s : State) : Out := lane1 o (fun a => popc a) s

/-- `CLZ` (R83). -/
def execClz (o : OpU) (s : State) : Out := lane1 o (fun a => clz a) s

/-- `BREV` (R83). -/
def execBrev (o : OpU) (s : State) : Out := lane1 o (fun a => brev a) s

/-- `MOV` (R83): the tag of a goes with it (R84). -/
def execMov (o : OpU) (s : State) : Out :=
  issueOwn (usesU o) noCheck
    (fun w h => h.setLanes o.d (w.h.writing w.sp o.g) (w.h.vtag o.a) fun l => w.h.lane o.a l) s

/-- R84: the tag that `SEL` writes: where the two differ, that of the operand which the lowest writing lane selected. -/
def selTag (h : Cohort) (o : OpA) (m : Mask) : Nat :=
  let a := h.vtag o.a
  let b := h.tagB o.q o.b
  if a = b ∨ m = 0 then a else if inMask (h.guardMask o.g) (lowestLane m) then a else b

/-- `SEL` (R58, R83, R84): its g field is the select predicate, and it is never guarded. -/
def execSel (o : OpA) (s : State) : Out :=
  issueOwn { usesA o with guard := 0 } noCheck
    (fun w h =>
      let m := w.h.writing w.sp 0
      h.setLanes o.d m (selTag w.h o m) fun l => if inMask (w.h.guardMask o.g) l then w.h.lane o.a l else w.h.opB o.q o.b l) s

/-- `IADDC` (R85): the carry comes from v(d+1) and goes back to it. -/
def execIaddc (o : OpA) (s : State) : Out :=
  issueOwn { usesA o with vs := (o.d + 1) :: (usesA o).vs, vd := pairOf o.d, pairs := [o.d] } noCheck
    (fun w h =>
      h.setPair o.d (w.h.writing w.sp o.g) 0 fun l =>
        BitVec.ofNat 64 ((w.h.lane o.a l).toNat + (w.h.opB o.q o.b l).toNat + (w.h.lane (o.d + 1) l).toNat % 2)) s

/-- `IADDI` (R86). -/
def execIaddi (o : OpI) (s : State) : Out :=
  laneImm o.d o.a o.g (fun a => a + sextTo 9 32 o.i) s

/-- `IMULI` (R86). -/
def execImuli (o : OpI) (s : State) : Out :=
  laneImm o.d o.a o.g (fun a => a * sextTo 9 32 o.i) s

/-- `ANDI` (R86). -/
def execAndi (o : OpI) (s : State) : Out :=
  laneImm o.d o.a o.g (fun a => a &&& sextTo 7 32 o.i) s

/-- `ORI` (R86). -/
def execOri (o : OpI) (s : State) : Out :=
  laneImm o.d o.a o.g (fun a => a ||| sextTo 7 32 o.i) s

/-- `XORI` (R86). -/
def execXori (o : OpI) (s : State) : Out :=
  laneImm o.d o.a o.g (fun a => a ^^^ sextTo 7 32 o.i) s

/-- `ISUBRI` (R86). -/
def execIsubri (o : OpI) (s : State) : Out :=
  laneImm o.d o.a o.g (fun a => sextTo 7 32 o.i - a) s

/-- `SHLI` (R86). -/
def execShli (o : OpSh) (s : State) : Out := laneImm o.d o.a o.g (fun a => shl a o.s) s

/-- `SHRI` (R86). -/
def execShri (o : OpSh) (s : State) : Out := laneImm o.d o.a o.g (fun a => shr a o.s) s

/-- `SRAI` (R86). -/
def execSrai (o : OpSh) (s : State) : Out := laneImm o.d o.a o.g (fun a => sra a o.s) s

/-- `MOVI` (R59, R86): a is not a source. -/
def execMovi (o : OpMovi) (s : State) : Out :=
  issueOwn (laneUses [] [] [o.d] o.g) noCheck (fun w h => h.setLanes o.d (w.h.writing w.sp o.g) 0 fun _ => sextTo 13 32 o.i) s

/-- `MOV d, s` in sixteen bits (R52). -/
def execMov16 (r d : Nat) (s : State) : Out :=
  issueOwn (laneUses [r] [] [d] 0) noCheck (fun w h => h.setLanes d (w.h.writing w.sp 0) (w.h.vtag r) fun l => w.h.lane r l) s

/-- `IADD d, s` in sixteen bits (R52). -/
def execIadd16 (r d : Nat) (s : State) : Out := half2 r d (fun a b => a + b) s

/-- `ISUB d, s` in sixteen bits (R52). -/
def execIsub16 (r d : Nat) (s : State) : Out := half2 r d (fun a b => a - b) s

/-- `IMUL d, s` in sixteen bits (R52). -/
def execImul16 (r d : Nat) (s : State) : Out := half2 r d (fun a b => a * b) s

/-- `AND d, s` in sixteen bits (R52). -/
def execAnd16 (r d : Nat) (s : State) : Out := half2 r d (fun a b => a &&& b) s

/-- `OR d, s` in sixteen bits (R52). -/
def execOr16 (r d : Nat) (s : State) : Out := half2 r d (fun a b => a ||| b) s

/-- `XOR d, s` in sixteen bits (R52). -/
def execXor16 (r d : Nat) (s : State) : Out := half2 r d (fun a b => a ^^^ b) s

/-- `SHLI d, imm5` in sixteen bits (R52). -/
def execShli16 (i d : Nat) (s : State) : Out := half1 d (fun a => shl a i) s

/-- `SHRI d, imm5` in sixteen bits (R52). -/
def execShri16 (i d : Nat) (s : State) : Out := half1 d (fun a => shr a i) s

/-- `SRAI d, imm5` in sixteen bits (R52). -/
def execSrai16 (i d : Nat) (s : State) : Out := half1 d (fun a => sra a i) s

/-- `ADDI d, imm5` in sixteen bits (R52). -/
def execAddi16 (i d : Nat) (s : State) : Out := half1 d (fun a => a + imm5 i) s

end Sys2Proof.Machine
end

