-- ==== Sys2Proof/Machine/Boot.lean ====
section
/-! DEFINITION. Power-good, the kiln ramp, boot, the root of trust, and the loss of power (R386, R408 to R411, R424 to R427). -/

namespace Sys2Proof.Machine

open Sys2Proof

/-- What has to do with boot changed. -/
def State.onBoot (s : State) (f : Boot → Boot) : State := { s with boot := f s.boot }

/-- R427: `BOOTSTAT` shows the stage reached and the failure. -/
def State.bootStat (s : State) (stage failure : Nat) : State := s.setHub 0x720000 (BitVec.ofNat 64 (stage * 2 ^ 56 + failure * 2 ^ 48))

/-- R426, R427: boot goes on to a stage. -/
def State.bootStage (s : State) (stage : Nat) : State := (s.onBoot fun b => { b with stage := stage }).bootStat stage 0

/-- R426, R427: boot stops with a failure. -/
def State.bootFails (s : State) (failure : Nat) : State := (s.onBoot fun b => { b with halted := true }).bootStat s.boot.stage failure

/-- R426: a measurement recorded. -/
def State.measure (s : State) (i v : Nat) : State := s.onBoot fun b => { b with measured := Tbl.put b.measured i v }

/-- R426: the copy of an image that runs: the first one whose signature with the release key passes. -/
def goodCopy (image : Nat) : Option Nat :=
  [0, 1].find? fun c => Config.verify Config.releaseKey (Config.imageDigest image c) (Config.imageSignature image c)

/-- R425: the device identity key, private and public: the key pair of the SHAKE256 digest of the device secret. -/
def identityKey : Nat × Nat := Config.keyPair (Config.shake256 32 Config.secret)

/-! The kiln ramp (R421, R424). -/

/-- R424: what comes up, in order: islands by their numbers, then the four optical dies as 288 to 291 and the eight Ethernet ports as 292 to 299. -/
def State.rampOrder (s : State) : List Nat :=
  [287, 286] ++ (List.range 6).map (272 + ·) ++ (List.range 16).map (256 + ·) ++ (List.range 8).map (278 + ·) ++
    (List.range 256).filter (fun c => s.present c) ++ (List.range 12).map (288 + ·)

/-- R424: one of them comes up: a core empty, an optical die with its links at 16 lanes, an Ethernet port with its link (log entry 6). -/
def State.rampUp (s : State) (x : Nat) : State :=
  if x < 256 then { s with cores := Tbl.put s.cores x {} }
  else if 292 ≤ x then s.setHub (0x480000 + 8 * (x - 292)) (s.hubReg (0x480000 + 8 * (x - 292)) ||| 0x8000000000000000)
  else if 288 ≤ x then { s with links := (List.range 8).foldl (fun t l => Tbl.put t (8 * (x - 288) + l) { width := 16 }) s.links }
  else s

/-- KILN_RAMP_STEP (R424): the next island comes up. The cores wait for the binding map, which says which are present. With an operand it is the next core of a
stack under warm reset (R416). -/
def execKilnRampStep (s : State) : Out :=
  let n := s.boot.islands
  if s.ev != [] then .next (s.stackRamp (s.arg 0))
  else if s.boot.stage = 0 || (32 ≤ n && s.boot.stage < 3) then .next s
  else
    match s.rampOrder[n]? with
    | none => .next s
    | some x => .next (((s.rampUp x).onBoot fun b => { b with islands := n + 1 }).pushOnce .kilnRampStep [])

/-- POWER_GOOD (R424 to R427): island 287 comes up, the root of trust derives the identity key and measures the ROM, and the ROM runs. -/
def execPowerGood (s : State) : Out :=
  if s.boot.stage != 0 then .next s
  else
    let s1 := ((s.bootStage 1).onBoot fun b => { b with identity := some identityKey, islands := 1 }).measure 1 (Config.digest 1 0)
    .next ((s1.push .kilnRampStep []).push .bootLoader [])

/-! The binding map (R408 to R411). -/

/-- R409, R410: a doubleword of a copy of the map: as service software has written it, or as the flash was delivered. -/
def Boot.mapWord (b : Boot) (copy i : Nat) : DWord := (Tbl.find? b.flash (copy * 512 + i)).getD (Config.bindingMap copy i)

/-- R410: service software has written some of a copy. -/
def Boot.rewritten (b : Boot) (copy : Nat) : Bool := b.flash.any fun e => e.1 / 512 == copy

/-- R409: the entry of a core in a copy of the map. -/
def Boot.mapEntry (b : Boot) (copy c : Nat) : DWord := b.mapWord copy (8 + c)

/-- R409: a field of an entry. -/
def entryFe (e : DWord) : Nat := bitsAt e 55 50
/-- R409: the slab of half 0. -/
def entryS0 (e : DWord) : Nat := bitsAt e 47 42
/-- R409: the slab of half 1. -/
def entryS1 (e : DWord) : Nat := bitsAt e 41 36
/-- R409: the wide partner, 63 for none. -/
def entryWide (e : DWord) : Nat := bitsAt e 35 30

/-- R8: the three slabs that a front end reaches. -/
def slabsOf (fe : Nat) : List Nat :=
  let z := Config.nearest fe
  let a := z.1.val
  let b := if a ≤ z.2.1.val then z.2.1.val + 1 else z.2.1.val
  let c := if min a b ≤ z.2.2.val then z.2.2.val + 1 else z.2.2.val
  [a, b, if max a b ≤ c then c + 1 else c]

/-- R409: an entry is well formed by itself, valid or not. -/
def entryOk (e : DWord) : Bool :=
  bitsAt e 62 56 == 0 && bitsAt e 49 48 == 0 && bitsAt e 29 0 == 0 && entryFe e < 34 && (slabsOf (entryFe e)).contains (entryS0 e) &&
    (slabsOf (entryFe e)).contains (entryS1 e) && (entryWide e == 63 || (slabsOf (entryFe e)).contains (entryWide e))

/-- R409: two valid entries of one stack share nothing, and no wide partner supplies a half. -/
def entriesClash (x y : DWord) : Bool :=
  entryFe x == entryFe y || entryS0 x == entryS0 y || entryS1 x == entryS1 y || (entryWide x != 63 && entryWide x == entryWide y)

/-- R409: the valid entries of a stack in a copy of the map, with their cores. -/
def Boot.stackEntries (b : Boot) (copy st : Nat) : List (Nat × DWord) :=
  ((List.range 32).map fun k => (32 * st + k, b.mapEntry copy (32 * st + k))).filter fun e => e.2.getLsbD 63

/-- R409: no entry of a copy is malformed. A core that is absent has no halves. -/
def Boot.entriesOk (b : Boot) (copy : Nat) : Bool :=
  (List.range 256).all (fun c => entryOk (b.mapEntry copy c)) &&
    (List.range 8).all fun st =>
      let es := b.stackEntries copy st
      (es.all fun x => es.all fun y => x.1 == y.1 || !entriesClash x.2 y.2) &&
        (List.range 32).all fun k =>
          let w := entryWide (b.mapEntry copy (32 * st + k))
          w == 63 || es.all fun y => w != entryS0 y.2 && w != entryS1 y.2

/-- R409: a copy's generation. -/
def Boot.mapGeneration (b : Boot) (copy : Nat) : Nat := bitsAt (b.mapWord copy 0) 63 32

/-- A number of `n` doublewords of a copy of the map from index `i` on. -/
def Boot.mapPart (b : Boot) (copy i n : Nat) : Nat := (List.range n).foldl (fun a k => a + (b.mapWord copy (i + k)).toNat * 2 ^ (64 * k)) 0

/-- R409: the digest of a copy is that of its header and entries, and its signature verifies with the device identity key. -/
def Boot.mapAuthentic (b : Boot) (copy : Nat) : Bool :=
  b.mapPart copy 264 8 == Config.shake256 (8 * 264) (b.mapPart copy 0 264) &&
    Config.verify identityKey.2 (b.mapPart copy 264 8) (b.mapPart copy 272 15 % 2 ^ 912)

/-- R409, R410: a copy is valid: its header, its entries, and its digest and signature. What service software has written is valid once the root of trust
has signed it. -/
def Boot.mapValid (b : Boot) (copy : Nat) : Bool :=
  bitsAt (b.mapWord copy 0) 31 0 == 0x504d4256 && ((List.range 7).all fun i => b.mapWord copy (i + 1) == 0) && b.entriesOk copy &&
    (b.signed.contains copy || (!b.rewritten copy && b.mapAuthentic copy))

/-- R426: the digest of a copy of the map (log entry 5). -/
def Boot.mapDigest (b : Boot) (copy : Nat) : Nat :=
  if b.rewritten copy then Config.sha3 (b.mapPart copy 0 264) else Config.digest 5 copy

/-- R410: the copy of the map that boot uses. -/
def State.mapCopy (s : State) : Option Nat :=
  match s.boot.mapValid 0, s.boot.mapValid 1 with
  | true, true => some (if s.boot.mapGeneration 0 < s.boot.mapGeneration 1 then 1 else 0)
  | true, false => some 0
  | false, true => some 1
  | false, false => none

/-- R10: the two slabs of a neighbour pair are adjacent. DESIGN CHOICE (log entry 86): where the two halves of a core come from different slabs, the slabs
of the halves numbered 0 are compared; the spec speaks of the slabs of a pair only. -/
def Boot.pairAdjacent (b : Boot) (copy k : Nat) : Bool :=
  let x := b.mapEntry copy (2 * k)
  let y := b.mapEntry copy (2 * k + 1)
  x.getLsbD 63 && y.getLsbD 63 && Config.adjacent (entryS0 x) (entryS0 y)

/-- The numbers of a word of 64 bits that a test picks. -/
def bitWord (n : Nat) (f : Nat → Bool) : DWord :=
  BitVec.ofNat 64 ((List.range 64).foldl (fun (a : Nat) i => if f (64 * n + i) then a + 2 ^ i else a) 0)

/-- R17, R410, R411: `CPRES`, `PAIROK` and `BMAPSTAT` filled from a copy of the map. -/
def State.useMap (s : State) (copy : Nat) : State :=
  let s1 := (List.range 4).foldl (fun (t : State) n => t.setHub (8 + 8 * n) (bitWord n fun c => (s.boot.mapEntry copy c).getLsbD 63)) s
  let s2 := (List.range 2).foldl (fun (t : State) n => t.setHub (0x28 + 8 * n) (bitWord n (s.boot.pairAdjacent copy))) s1
  (s2.setHub 0x720008 (BitVec.ofNat 64 (copy * 2 ^ 40 + (if s.boot.mapValid (1 - copy) then 2 ^ 32 else 0) + s.boot.mapGeneration copy))).onBoot fun b =>
    { b with mapCopy := copy }

/-- R412: core `c` has a wide partner. -/
def State.hasWide (s : State) (c : Nat) : Bool :=
  (s.boot.mapEntry s.boot.mapCopy c).getLsbD 63 && entryWide (s.boot.mapEntry s.boot.mapCopy c) != 63

/-! Boot (R426). -/

/-- BOOT_LOADER (R426): the ROM verifies the loader and starts it, or boot stops with failure 1. -/
def execBootLoader (s : State) : Out :=
  if s.boot.stage != 1 || s.boot.halted then .next s
  else match goodCopy 1 with
    | none => .next (s.bootFails 1)
    | some c => .next (((s.bootStage 2).measure 2 (Config.digest 2 c)).push .bootOs [])

/-- BOOT_OS (R410, R426): with near memory up, the loader reads the binding map, and verifies and starts the operating system. Failures are 3
and 2. -/
def execBootOs (s : State) : Out :=
  if s.boot.stage != 2 || s.boot.halted then .next s
  else if s.boot.islands < 32 then .next (s.push .bootOs [])
  else match s.mapCopy with
    | none => .next (s.bootFails 3)
    | some m =>
      let s1 := s.useMap m
      match goodCopy 2 with
      | none => .next (s1.bootFails 2)
      | some c => .next ((((s1.bootStage 3).measure 3 (Config.digest 3 c)).pushOnce .kilnRampStep []).push .bootFirmware [])

/-- R426, R427: the operating system verifies the firmware set and the Uliah programs, and the firmware runs; or boot stops with failure 4. The rest is
measured. -/
def State.startFirmware (s : State) : State :=
  match goodCopy 3 with
  | none => s.bootFails 4
  | some c =>
    let s1 := ((s.bootStage 4).measure 4 (Config.digest 4 c)).measure 5 (s.boot.mapDigest s.boot.mapCopy)
    (s1.measure 6 (Config.sha3 (s1.hubReg 0x720010).toNat)).push .bootFirmware []

/-- R287, R426: the firmware loads the Uliah programs and sets the refresh floors, and the host queues are open. -/
def State.finishBoot (s : State) : State :=
  let s1 : State := { s.bootStage 5 with ul := { s.ul with prog := (List.range 4096).map fun (i : Nat) => (i, Config.uliahProgram i) } }
  [1, 2].foldl (fun (t : State) cls =>
    let f := (Config.refreshFloor cls).toNat
    ({ t with fs := Tbl.put (Tbl.put t.fs (fsBootKey cls) f) (fsBudgetKey cls 0) (f * 2 ^ 32 + 0x10000) } : State).setHub (fsOffset cls 0)
      (BitVec.ofNat 64 (f * 2 ^ 32 + 0x10000))) s1

/-- BOOT_FIRMWARE (R426, R427): boot goes on from the operating system to the firmware, and from there to ready. -/
def execBootFirmware (s : State) : Out :=
  if s.boot.halted then .next s
  else if s.boot.stage = 3 then .next s.startFirmware
  else if s.boot.stage = 4 then .next s.finishBoot
  else .next s

/-! The root of trust (R406, R410, R427). -/

/-- RT_RAISE_TEST_FLOOR (R406, R427): the test floor becomes the serial of the last package that passed. -/
def execRtRaiseTestFloor (s : State) : Out :=
  if s.scan.passed = 0 then .next s else .next (s.setHub 0x720010 (BitVec.ofNat 64 s.scan.passed))

/-- R410: doublewords of a copy of the map written by service software: pairs of an index and a value. What was signed before is signed no longer. -/
def Boot.writeMap (b : Boot) (copy : Nat) : List Nat → Boot
  | i :: v :: r => Boot.writeMap { b with flash := Tbl.put b.flash (copy * 512 + i % 512) (BitVec.ofNat 64 v), signed := remNat b.signed copy } copy r
  | _ => b

/-- RT_SIGN_BINDING_MAP (R410, R427): the copy not in use is signed, for the next boot, if its generation is the higher one. The operands are what service
software has written into it before, through the host complex: pairs of a doubleword's index and its value. -/
def execRtSignBindingMap (s : State) : Out :=
  let n := 1 - s.boot.mapCopy
  let b := s.boot.writeMap n s.ev
  let b1 : Boot := if b.mapGeneration s.boot.mapCopy < b.mapGeneration n then { b with signed := insNat b.signed n } else b
  .next (({ s with boot := b1 } : State).setHub 0x720008
    ((s.hubReg 0x720008 &&& ~~~(0x100000000 : DWord)) ||| (if b1.mapValid n then 0x100000000 else 0)))

/-- POWER_LOSS (R386): everything in the package is lost but its fuses and its flash. What lies outside it stays: the host's memory, and what has left
the package. -/
def execPowerLoss (s : State) : Out :=
  .next { State.reset with
    picks := s.picks
    agenda := s.agenda.filter fun d => d.row == .powerGood
    turn := s.turn, freeCount := s.freeCount, nextId := s.nextId
    hub := List.filter (fun (e : Nat × DWord) => e.1 == 0x720010) s.hub
    hostMem := s.hostMem, hostOut := s.hostOut, spdm := s.spdm
    boot := { signed := s.boot.signed, flash := s.boot.flash } }

end Sys2Proof.Machine
end

