-- ==== Sys2Proof/Machine/TileImage.lean ====
section
/-! DEFINITION. The contents of a tile: its image in memory and in frames (R30, R165), and the elementwise operations on a
whole tile (R171 to R174). -/

namespace Sys2Proof.Machine

open Sys2Proof

/-- The shape of a tile: counts of rows and columns, format tag and layout (R163). -/
structure TShape where
  rows : Nat
  cols : Nat
  tag : Nat
  layout : Nat
  deriving DecidableEq, Repr

/-- The elements of a tile in the order of its image, and for a shared-exponent tag 32 mantissas a block with the blocks'
exponents. `bad` and `ebad` mark elements and exponents that are poisoned. -/
structure TImg where
  elems : List Nat
  bad : List Bool
  exps : List Nat
  ebad : List Bool
  deriving DecidableEq, Repr

/-- The shape that a handle is configured with (R163). -/
def Handle.shape (x : Handle) : TShape := { rows := x.rows + 1, cols := x.cols + 1, tag := x.tag, layout := x.layout }

/-- The mantissa width of a shared-exponent tile. -/
def TShape.sx (t : TShape) : Option Nat := Num.sxOf t.tag

/-- R165: the blocks of a row (layout 2) or of a column (layout 3). -/
def TShape.perLine (t : TShape) : Nat := if t.layout = 2 then (t.cols + 31) / 32 else (t.rows + 31) / 32

/-- R165: the blocks of a shared-exponent tile. -/
def TShape.blocks (t : TShape) : Nat := (if t.layout = 2 then t.rows else t.cols) * t.perLine

/-- The bytes of an element (R165). -/
def TShape.size (t : TShape) : Nat := Num.bitsOf t.tag / 8

/-- The elements that an image holds, the padding of blocks included. -/
def TShape.count (t : TShape) : Nat := if t.sx.isSome then 32 * t.blocks else t.rows * t.cols

/-- R30: where the exponent plane begins. -/
def TShape.expBase (t : TShape) (m : Nat) : Nat := (4 * m * t.blocks + 15) / 16 * 16

/-- R165: the bytes of the image. -/
def TShape.bytes (t : TShape) : Nat :=
  match t.sx with
  | some m => t.expBase m + t.blocks
  | none => t.count * t.size

/-- R165: the frames that the tile holds. -/
def TShape.frames (t : TShape) : Nat := (t.bytes + 4095) / 4096

/-- The granules of the image. -/
def TShape.granules (t : TShape) : Nat := (t.bytes + 15) / 16

/-- The place in the image of the element at a row and a column (R165). -/
def TShape.index (t : TShape) (r c : Nat) : Nat :=
  match t.layout with
  | 0 => r * t.cols + c
  | 1 => c * t.rows + r
  | 2 => 32 * (r * t.perLine + c / 32) + c % 32
  | _ => 32 * (c * t.perLine + r / 32) + r % 32

/-- The row and the column of a place in the image. -/
def TShape.coord (t : TShape) (i : Nat) : Nat × Nat :=
  match t.layout with
  | 0 => (i / t.cols, i % t.cols)
  | 1 => (i % t.rows, i / t.rows)
  | 2 => (i / 32 / t.perLine, i / 32 % t.perLine * 32 + i % 32)
  | _ => (i / 32 % t.perLine * 32 + i % 32, i / 32 / t.perLine)

/-- The place is an element of the tile, not padding. -/
def TShape.inside (t : TShape) (i : Nat) : Bool := (t.coord i).1 < t.rows && (t.coord i).2 < t.cols

/-! Images as bytes. -/

/-- `n` numbers of `size` bytes each. -/
def splitNums (size : Nat) : Nat → List Byte → List Nat
  | 0, _ => []
  | n + 1, l => leNat (l.take size) :: splitNums size n (l.drop size)

/-- R30: the 32 mantissas of a block. -/
def blockMants (m : Nat) (x : Nat) : List Nat := (List.range 32).map fun j => x / 2 ^ (m * j) % 2 ^ m

/-- R30: a block's mantissas as one number. -/
def joinMants (m : Nat) : List Nat → Nat
  | [] => 0
  | x :: r => x % 2 ^ m + 2 ^ m * joinMants m r

/-- The bits of the image where element `i` lies, first and last. -/
def TShape.place (t : TShape) (i : Nat) : Nat × Nat :=
  match t.sx with
  | some m => (32 * m * (i / 32) + m * (i % 32), 32 * m * (i / 32) + m * (i % 32) + m - 1)
  | none => (8 * t.size * i, 8 * t.size * i + 8 * t.size - 1)

/-- An image read from its bytes, with the granules of it that are poisoned. -/
def TShape.parse (t : TShape) (bs : List Byte) (poison : List Nat) : TImg :=
  let bad := (List.range t.count).map fun i => poison.contains ((t.place i).1 / 128) || poison.contains ((t.place i).2 / 128)
  match t.sx with
  | some m =>
    { elems := (splitNums (4 * m) t.blocks bs).flatMap (blockMants m), bad := bad
      exps := splitNums 1 t.blocks (bs.drop (t.expBase m))
      ebad := (List.range t.blocks).map fun b => poison.contains ((t.expBase m + b) / 16) }
  | none => { elems := splitNums t.size t.count bs, bad := bad, exps := [], ebad := [] }

/-- The bytes of a shared-exponent tile's mantissa plane. -/
def mantBytes (m : Nat) : Nat → List Nat → List Byte
  | 0, _ => []
  | n + 1, l => leBytes (4 * m) (joinMants m (l.take 32)) ++ mantBytes m n (l.drop 32)

/-- The bytes of an image. DESIGN CHOICE (log entry 87): the padding bytes between the mantissa plane and the exponent plane are written as zeros; R30
gives them no value. -/
def TShape.render (t : TShape) (x : TImg) : List Byte :=
  match t.sx with
  | some m =>
    mantBytes m t.blocks x.elems ++ leBytes (t.expBase m - 4 * m * t.blocks) 0 ++ x.exps.flatMap (leBytes 1)
  | none => x.elems.flatMap (leBytes t.size)

/-- The granules of an image that its poisoned elements and exponents touch (R397). -/
def TShape.poisonOf (t : TShape) (x : TImg) : List Nat :=
  let es := x.bad.zipIdx.flatMap fun b => if b.1 then [(t.place b.2).1 / 128, (t.place b.2).2 / 128] else []
  let xs := match t.sx with
    | some m => x.ebad.zipIdx.flatMap fun b => if b.1 then [(t.expBase m + b.2) / 16] else []
    | none => []
  (es ++ xs).eraseDups

/-- A tile of zero elements. -/
def TShape.zero (t : TShape) : TImg :=
  { elems := List.replicate t.count 0, bad := List.replicate t.count false
    exps := if t.sx.isSome then List.replicate t.blocks 0 else [], ebad := if t.sx.isSome then List.replicate t.blocks false else [] }

/-- The shared exponent of the block of element `i`. -/
def TImg.exp (x : TImg) (i : Nat) : Nat := x.exps.getD (i / 32) 0

/-- The value of element `i` (R28). -/
def TShape.value (t : TShape) (x : TImg) (i : Nat) : Num.FVal := Num.valueOf t.tag (x.exp i) (x.elems.getD i 0)

/-- Element `i`, or its exponent, is poisoned. -/
def TImg.isBad (x : TImg) (i : Nat) : Bool := x.bad.getD i false || x.ebad.getD (i / 32) false

/-! Elementwise operations (R171). -/

/-- A part of a tile: first row, first column, and one past the last of each. -/
structure Region2 where
  r0 : Nat
  c0 : Nat
  r1 : Nat
  c1 : Nat
  deriving DecidableEq, Repr

/-- R171: the region that a `TFILL` names. -/
def TShape.region (t : TShape) (q : Nat) : Region2 :=
  let r0 := q % 512
  let c0 := q / 2 ^ 9 % 512
  let nr := q / 2 ^ 18 % 512
  let nc := q / 2 ^ 27 % 1024
  { r0 := r0, c0 := c0, r1 := if nr = 0 then t.rows else r0 + nr, c1 := if nc = 0 then t.cols else c0 + nc }

/-- The region lies in the tile. -/
def TShape.holds (t : TShape) (g : Region2) : Bool := g.r0 < t.rows && g.c0 < t.cols && g.r1 ≤ t.rows && g.c1 ≤ t.cols

/-- One region lies in another. -/
def Region2.within (a b : Region2) : Bool := b.r0 ≤ a.r0 && b.c0 ≤ a.c0 && a.r1 ≤ b.r1 && a.c1 ≤ b.c1

/-- An element lies in a region. -/
def Region2.has (g : Region2) (p : Nat × Nat) : Bool := g.r0 ≤ p.1 && p.1 < g.r1 && g.c0 ≤ p.2 && p.2 < g.c1

/-- Every element of a tile that is not padding changed. -/
def TShape.mapElems (t : TShape) (x : TImg) (f : Nat → Nat → Nat) : TImg :=
  { x with elems := x.elems.zipIdx.map fun e => if t.inside e.2 then f e.2 e.1 else e.1 }

/-- R171: `TADDS` on an element; the sum of a float is rounded once to nearest even. -/
def addElem (tag s b : Nat) : Nat :=
  match Num.fmtOf tag with
  | some f => Num.pack f 0 false 0 0 (Num.exactSum false [Num.unpack f b, Num.unpack .fp32 (s % 2 ^ 32)])
  | none => (b + s) % 2 ^ Num.bitsOf tag

/-- R171: `TMULS` on an element. -/
def mulElem (tag s b : Nat) : Nat :=
  match Num.fmtOf tag with
  | some f => Num.pack f 0 false 0 0 (Num.exactMul (Num.unpack f b) (Num.unpack .fp32 (s % 2 ^ 32)))
  | none => (b * s) % 2 ^ Num.bitsOf tag

/-- R171: a float times a power of two: exact where it is representable, toward zero below the normal range. -/
def scaleElem (f : Num.Fmt) (k : Int) (b : Nat) : Nat :=
  match Num.unpack f b with
  | .fin n m e => Num.pack f (if (Nat.log2 m : Int) + e + k < 1 - (f.bias : Int) then 1 else 0) false 0 0 (.fin n m (e + k))
  | v => Num.pack f 0 false 0 0 v

/-- R171: a block's exponent moved by `k`, with whether its mantissas become 0. DEDUCED (log 45): a block that becomes a NaN
block keeps its mantissas, since only the fall below 0 is said to clear them. -/
def scaleExp (k : Int) (e : Nat) : Nat × Bool :=
  if e = 255 then (255, false)
  else if 254 < (e : Int) + k then (255, false)
  else if (e : Int) + k < 0 then (0, true)
  else (((e : Int) + k).toNat, false)

/-- R171: `TEXPS` on a tile. -/
def TShape.scale (t : TShape) (k : Int) (x : TImg) : TImg :=
  match Num.fmtOf t.tag with
  | some f => t.mapElems x fun _ b => scaleElem f k b
  | none =>
    { x with exps := x.exps.map fun e => (scaleExp k e).1
             elems := x.elems.zipIdx.map fun e => if (scaleExp k (x.exp e.2)).2 then 0 else e.1 }

/-- R171: `TFILL` on a region. -/
def TShape.fill (t : TShape) (g : Region2) (v : Nat) (x : TImg) : TImg :=
  let hit (i : Nat) : Bool := t.inside i && g.has (t.coord i)
  match t.sx with
  | some m =>
    let touched (b : Nat) : Bool := (List.range 32).any fun j => hit (32 * b + j)
    { elems := x.elems.zipIdx.map fun e => if hit e.2 then v % 2 ^ m else e.1
      bad := x.bad.zipIdx.map fun e => e.1 && !hit e.2
      exps := x.exps.zipIdx.map fun e => if touched e.2 then v / 256 % 256 else e.1
      ebad := x.ebad.zipIdx.map fun e => e.1 && !touched e.2 }
  | none =>
    { x with elems := x.elems.zipIdx.map fun e => if hit e.2 then v % 2 ^ Num.bitsOf t.tag else e.1
             bad := x.bad.zipIdx.map fun e => e.1 && !hit e.2 }

/-- R171: a bound of `TCLMP` in the tile's format. -/
def clampBound (tag w : Nat) : Nat :=
  match Num.fmtOf tag with
  | some f => Num.pack f 0 false 0 0 (Num.unpack .fp32 w)
  | none => Num.convert (match Num.intOf tag with | some (_, false) => 7 | _ => 3) 0 tag true 0 0 0 w % 2 ^ Num.bitsOf tag

/-- R171: `TCLMP` on an element. -/
def clampElem (tag s b : Nat) : Nat :=
  let lo := clampBound tag (s % 2 ^ 32)
  let hi := clampBound tag (s / 2 ^ 32 % 2 ^ 32)
  match Num.fmtOf tag, Num.intOf tag with
  | some f, _ => Num.fmin f (Num.fmax f b lo) hi
  | none, some (w, true) => Num.intBits w (Num.clampI (Num.sintOf w lo) (Num.sintOf w hi) (Num.sintOf w b))
  | none, _ => min (max b lo) hi

/-- R174: the layout that a conversion leaves. -/
def cvtLayout (layout src tgt : Nat) : Nat :=
  if (Num.sxOf tgt).isSome then (if layout = 0 then 2 else if layout = 1 then 3 else layout)
  else if (Num.sxOf src).isSome then (if layout = 2 then 0 else if layout = 3 then 1 else layout) else layout

/-- R174: a tile converted to another shape of the same rows and columns, by R39 to R41. -/
def TShape.convert (t u : TShape) (rm : Nat) (sat : Bool) (ph : Nat) (x : TImg) : TImg :=
  let src (i : Nat) : Nat := t.index (u.coord i).1 (u.coord i).2
  match u.sx with
  | some m =>
    let blocks := (List.range u.blocks).map fun b =>
      let vals := (List.range 32).map fun j => if u.inside (32 * b + j) then t.value x (src (32 * b + j)) else Num.FVal.fin false 0 0
      let bad := (List.range 32).map fun j => u.inside (32 * b + j) && x.isBad (src (32 * b + j))
      (Num.toSX vals m sat rm ph, bad)
    { elems := blocks.flatMap fun e => e.1.2.map fun y => Num.intBits m y
      bad := blocks.flatMap Prod.snd
      exps := blocks.map fun e => e.1.1
      ebad := blocks.map fun e => e.2.any id }
  | none =>
    let f (i : Nat) : Nat :=
      Num.convert t.tag (x.exp (src i)) u.tag sat rm ((u.coord i).2 % 32) ph (x.elems.getD (src i) 0) % 2 ^ Num.bitsOf u.tag
    { elems := (List.range u.count).map f, bad := (List.range u.count).map fun i => x.isBad (src i), exps := [], ebad := [] }

/-- The signed exponent of a `TEXPS` entry. -/
def LogEntry.k (e : LogEntry) : Int := Num.sintOf 16 e.scalar

/-- R171, R240: an operation applied to a whole tile under the format it recorded. -/
def LogEntry.apply (e : LogEntry) (t : TShape) (x : TImg) : TShape × TImg :=
  let t0 : TShape := { t with tag := e.tag, layout := e.layout }
  match e.op with
  | 0 => (t0, t0.mapElems x fun _ b => addElem e.tag e.scalar b)
  | 1 => (t0, t0.mapElems x fun _ b => mulElem e.tag e.scalar b)
  | 2 => (t0, t0.scale e.k x)
  | 3 => (t0, t0.fill (t0.region e.region) e.scalar x)
  | 4 => (t0, t0.mapElems x fun _ b => clampElem e.tag e.scalar b)
  | _ =>
    let u : TShape := { t with tag := e.target, layout := e.tlayout }
    (u, t0.convert u e.rm e.sat e.phase x)

/-- R176, R177: a log applied in order. -/
def applyLog (l : List LogEntry) (t : TShape) (x : TImg) : TShape × TImg :=
  l.foldl (fun a e => e.apply a.1 a.2) (t, x)

/-- The shape that the backing image has: the current one with the format that the oldest entry applies under. -/
def Handle.memShape (x : Handle) : TShape :=
  match x.log with
  | [] => x.shape
  | e :: _ => { x.shape with tag := e.tag, layout := e.layout }

/-! The part of an image that some elements need (R170). -/

/-- R29, R30: elements with the rest of their shared-exponent blocks. -/
def TShape.wholeBlocks (t : TShape) (l : List (Nat × Nat)) : List (Nat × Nat) :=
  match t.sx with
  | none => l
  | some _ =>
    (((l.map fun e => t.index e.1 e.2 / 32).eraseDups).flatMap fun b => ((List.range 32).filter fun j => t.inside (32 * b + j)).map fun j =>
      t.coord (32 * b + j))

/-- R170, R176: the elements of the backing image that elements of a tile come from, through its log. -/
def Handle.sources (x : Handle) (l : List (Nat × Nat)) : List (Nat × Nat) :=
  x.log.foldr (fun e l =>
    let after : TShape := if e.op = 5 then { x.shape with tag := e.target, layout := e.tlayout } else { x.shape with tag := e.tag, layout := e.layout }
    TShape.wholeBlocks { x.shape with tag := e.tag, layout := e.layout } (after.wholeBlocks l)) (x.shape.wholeBlocks l)

/-- The granules of an image where some elements lie, with the exponents of their blocks, rising. -/
def TShape.granulesOf (t : TShape) (l : List (Nat × Nat)) : List Nat :=
  sortBy id ((l.map fun e => t.index e.1 e.2).flatMap fun i =>
    [(t.place i).1 / 128, (t.place i).2 / 128] ++ match t.sx with | some m => [(t.expBase m + i / 32) / 16] | none => []).eraseDups

/-! The log (R175). -/

/-- R175: the part of the tile that an entry touches. -/
def LogEntry.part (e : LogEntry) (t : TShape) : Region2 :=
  if e.op = 3 then t.region e.region else { r0 := 0, c0 := 0, r1 := t.rows, c1 := t.cols }

/-- R175: a `TFILL` removes the earlier entries, newest first, that lie within its region, up to a conversion. The list is
newest first. -/
def dropCovered (t : TShape) (g : Region2) : List LogEntry → List LogEntry
  | [] => []
  | e :: r => if e.op = 5 then e :: r else if (e.part t).within g then dropCovered t g r else e :: dropCovered t g r

/-- R175: the entry merged into the newest one, if it merges. -/
def mergeEntry (p n : LogEntry) : Option LogEntry :=
  if n.op = 2 ∧ p.op = 2 ∧ ((0 < n.k ∧ 0 < p.k) ∨ (n.k < 0 ∧ p.k < 0)) ∧ -32768 ≤ n.k + p.k ∧ n.k + p.k ≤ 32767 then
    some { p with scalar := Num.intBits 16 (n.k + p.k) }
  else if n.op = 0 ∧ p.op = 0 ∧ (Num.intOf n.tag).isSome ∧ n.tag = p.tag then some { p with scalar := (p.scalar + n.scalar) % 2 ^ 64 }
  else none

/-- R175: the log with an entry appended after compaction; none where that would take a ninth entry, or where the store has no
free entry. -/
def appendLog (t : TShape) (l : List LogEntry) (n : LogEntry) (room : Bool) : Option (List LogEntry) :=
  let l1 := if n.op = 3 then (dropCovered t (n.part t) l.reverse).reverse else l
  let merged := match l1.getLast? with
    | some p => (mergeEntry p n).map fun q => l1.dropLast ++ [q]
    | none => none
  match merged with
  | some q => some q
  | none => if 8 ≤ l1.length || (!room && l.length ≤ l1.length) then none else some (l1 ++ [n])

end Sys2Proof.Machine
end

