-- ==== Sys2Proof/Machine/Tile.lean ====
section
/-! DEFINITION. Handles and tiles: allocation, transfers between memory, frames and lanes (R161 to R170, R233 to R240), with
the steps that hardware takes for them. -/

namespace Sys2Proof.Machine

open Sys2Proof

/-! Checks (R186). -/

/-- The first fault of a list in the order of R186. -/
def firstBad (l : List (Option Bad)) : Option Bad := l.findSome? id

/-- A fault of a code where a test says so. -/
def badIf (b : Bool) (code : Nat) (sub : Nat := 0) (addr : Nat := 0) : Option Bad :=
  if b then some { code := code, sub := sub, addr := addr } else none

/-- R162: the issuing cohort does not own an allocated handle. -/
def State.notOwner (s : State) (w : Who) (n : Nat) : Option Bad :=
  let h := s.myHandle w n
  badIf (h.state != .free && h.state != .released && h.owner != w.h.cohortid) 7 n

/-- R166: a tile-state fault. -/
def State.stateBad (s : State) (w : Who) (n : Nat) (f : Handle → Bool) : Option Bad := badIf (f (s.myHandle w n)) 8

/-- R33: a handle that an instruction reads, or that it uses the tag of, holds a reserved tag. -/
def State.tileTag (s : State) (w : Who) (n : Nat) : Option Bad := badIf (!Num.goodTag (s.myHandle w n).tag) 6

/-- R165: a backing or transfer address that is not 16-byte aligned. -/
def Who.unaligned16 (w : Who) (a : Nat) : Option Bad := badIf ((w.h.uq a).toNat % 16 != 0) 11 0 (w.h.uq a).toNat

/-! Waiting on handles (R168). -/

/-- R168: a write of the tile is still to come that frees its frames. -/
def Handle.leaves (h : Handle) (uid : Nat) : Bool := h.writes.any fun t => t.evict && t.keeps (some uid)

/-- Something earlier on a handle has not performed: a fill or an eviction, and for an instruction that changes the tile also what still reads it. -/
def State.mustWaitTile (s : State) (w : Who) (n : Nat) (changes : Bool) : Bool :=
  let h := s.myHandle w n
  h.fill.isSome || h.leaves w.h.uid || (changes && s.handleBusy w.c w.h.slot n h (some w.h.uid))

/-- The split waits for earlier work on the first of some handles that has any: those read, and those changed. -/
def State.tileHold (s : State) (w : Who) (reads changed : List Nat) : Option State :=
  match (reads.find? fun n => s.mustWaitTile w n false), (changed.find? fun n => s.mustWaitTile w n true) with
  | some n, _ => some (s.waitIn w 7 (.tile n))
  | none, some n => some (s.waitIn w 7 (.tile n))
  | none, none => none

/-- The splits of a block that wait on a handle try again. -/
def State.freeTile (s : State) (c b n : Nat) : State :=
  s.onCore c fun co => co.onBlockCohorts b (·.retryAll fun y => match y with | .tile m => m == n | _ => false)

/-! Frames (R233, R234). -/

/-- R233: the lowest-numbered run of free contiguous frames. -/
def CoreSt.frameRun (co : CoreSt) (n : Nat) : Option Nat :=
  (List.range (257 - n)).find? fun f => n ≤ 256 && !co.heldFrames.any fun e => e.1 < f + n && f < e.1 + e.2

/-- Where a handle's frames begin. -/
def frameAddr (c : Nat) (h : Handle) : Nat := tileBase c + h.frame * 4096

/-- R234: the full bits of a tile's granules set or cleared. -/
def State.setFull (s : State) (c : Nat) (h : Handle) (on : Bool) : State :=
  let g := frameAddr c h / 16
  let n := h.shape.granules
  if on then s.fillGranules ((List.range n).map (g + ·)) else { s with full := remRange s.full g n }

/-- R166: a request for frames waits its turn: the split is held, and the unit looks at the queue. -/
def State.waitFrames (s : State) (w : Who) (n k : Nat) : State :=
  ((s.waitIn w 6 (.frames n)).onCore w.c fun co => { co with frameWaits := co.frameWaits ++
    [{ uid := w.h.uid, split := w.i, slot := w.h.slot, handle := n, frames := k }] }).pushOnce .frameGrant [w.c]

/-- The request at the head of the queue is this split's own. -/
def State.ownRequest (s : State) (w : Who) (n : Nat) : Bool :=
  match (s.core w.c).frameWaits with
  | [] => false
  | r :: _ => r.uid == w.h.uid && r.split == w.i && r.slot == w.h.slot && r.handle == n

/-- R166: frames are granted in issue order, once a run is free; the split waits until then. -/
def State.frameHold (s : State) (w : Who) (n k : Nat) : Option State :=
  if ((s.core w.c).frameWaits = [] ∨ s.ownRequest w n) ∧ ((s.core w.c).frameRun k).isSome then none
  else if s.ownRequest w n then some (s.waitIn w 6 (.frames n)) else some (s.waitFrames w n k)

/-- The request of a split that has its frames leaves the queue. -/
def State.popRequest (s : State) (w : Who) (n : Nat) : State :=
  if s.ownRequest w n then (s.onCore w.c fun co => { co with frameWaits := co.frameWaits.tail }).pushOnce .frameGrant [w.c] else s

/-! Memory as tiles see it (R184). -/

/-- Where a tile transfer may go: near and far memory and scratchpads. -/
def tileTarget (pa : Nat) : Bool :=
  match regionOf pa with
  | .near => true
  | .far => true
  | .core _ .scratch _ => true
  | _ => false

/-- The physical addresses of some granules, or the first fault: 18 translation, 19 address error. -/
def State.granuleAddrs (s : State) (c asid gang : Nat) (a : Acc) : List Nat → Except (Nat × Nat) (List Nat) × State
  | [] => (.ok [], s)
  | va :: r =>
    match s.findNow c asid gang a va with
    | (.ok pa _, s1) =>
      if !tileTarget pa then (.error (19, va), s1)
      else match State.granuleAddrs s1 c asid gang a r with
        | (.ok l, s2) => (.ok (pa :: l), s2)
        | e => e
    | (.noAddr, s1) => (.error (19, va), s1)
    | (_, s1) => (.error (18, va), s1)

/-- The addresses of the granules of an image at an address. -/
def TShape.spans (t : TShape) (va : Nat) : List Nat := (List.range t.granules).map fun g => va + 16 * g

/-- R276 to R278, R286: none of some granules' lines makes a read or a write of them wait at its slice; those that the tile-layout cache holds are not read
there. -/
def State.spanReady (s : State) (c asid gang : Nat) (a : Acc) (vas : List Nat) : Bool :=
  match (s.granuleAddrs c asid gang a vas).1 with
  | .error _ => true
  | .ok l => (linesOf l).all fun line =>
      (a == .load && (s.core c).tcache.any fun e => e.1 == line) ||
        ((if a == .load then s.readReady line else s.writeReady line) && !s.fsYields 8 (s.fsPath none line))

/-- One granule read on path t through the tile-layout cache (R184, R237), or at its home slice (R275 to R277). DESIGN CHOICE (log entry 96): it
fills the slice with RRPV 0. -/
def State.readGranule (s : State) (c pa : Nat) : List Byte × Bool × State :=
  if !isHomed pa then (s.peekBytes pa 16, s.poisoned pa 16, s)
  else
    let line := pa / 128
    match (s.core c).tcache.find? fun e => e.1 == line with
    | some e => ((e.2.drop (pa % 128)).take 16, false, s.onCore c fun co => { co with tcache := cacheUse co.tcache line [] 8 128 })
    | none =>
      let s1 := (s.lineRead line 0).narrow line
      let s2 := if s1.poisoned (line * 128) 128 || !s1.mayFill c line then s1
        else s1.onCore c fun co => { co with tcache := cacheUse co.tcache line (s1.peekBytes (line * 128) 128) 8 128 }
      (s1.peekBytes pa 16, s1.poisoned pa 16, s2)

/-- Granules read in turn, by their numbers: the bytes of each, and the numbers of those that are poisoned. -/
def State.readGranules (s : State) (c : Nat) : List (Nat × Nat) → List (Nat × List Byte) × List Nat × State
  | [] => ([], [], s)
  | (i, pa) :: r =>
    let x := s.readGranule c pa
    let y := State.readGranules x.2.2 c r
    ((i, x.1) :: y.1, (if x.2.1 then i :: y.2.1 else y.2.1), y.2.2)

/-- The bytes of an image of which some granules are known, in order from the `i`-th; the others count as zeros. -/
def spread : Nat → Nat → List (Nat × List Byte) → List Byte
  | 0, _, _ => []
  | n + 1, i, [] => leBytes 16 0 ++ spread n (i + 1) []
  | n + 1, i, (g, b) :: r => if g = i then b ++ spread n (i + 1) r else leBytes 16 0 ++ spread n (i + 1) ((g, b) :: r)

/-- The image at a virtual address as some of its granules give it, rising, or the fault of reading them. -/
def State.readPart (s : State) (c asid gang va : Nat) (t : TShape) (gs : List Nat) : Except (Nat × Nat) TImg × State :=
  match s.granuleAddrs c asid gang .load (gs.map fun g => va + 16 * g) with
  | (.error e, s1) => (.error e, s1)
  | (.ok l, s1) =>
    let r := s1.readGranules c (gs.zip l)
    (.ok (t.parse (spread t.granules 0 r.1) r.2.1), r.2.2)

/-- The whole image at a virtual address. -/
def State.readImage (s : State) (c asid gang va : Nat) (t : TShape) : Except (Nat × Nat) TImg × State :=
  s.readPart c asid gang va t (List.range t.granules)

/-- One granule of a tile written to memory (R184, R397). -/
def State.writeGranule (s : State) (c pa : Nat) (bs : List Byte) (bad : Bool) : State :=
  let s1 := ((s.dropL1 c pa 16).homeWrite pa bs).onCore c fun co => { co with tcache := co.tcache.filter fun e => e.1 != pa / 128 }
  if bad then s1.taint pa 16 else s1

/-- Granules of a tile written in turn. -/
def State.writeGranules (s : State) (c : Nat) (poison : List Nat) (i : Nat) (bs : List Byte) : List Nat → State
  | [] => s
  | pa :: r => State.writeGranules (s.writeGranule c pa (bs.take 16) (poison.contains i)) c poison (i + 1) (bs.drop 16) r

/-! Frames as tiles see them. -/

/-- The contents of a tile in its frames. -/
def State.tileImg (s : State) (c : Nat) (h : Handle) : TImg :=
  let a := frameAddr c h
  h.shape.parse (s.peekBytes a h.shape.bytes) ((List.range h.shape.granules).filter fun g => s.poisoned (a + 16 * g) 16)

/-- An image put into the frames of a handle. -/
def State.putTile (s : State) (c : Nat) (h : Handle) (t : TShape) (x : TImg) : State :=
  let a := frameAddr c h
  (t.poisonOf x).foldl (fun (u : State) g => u.taint (a + 16 * g) 16) ({ s with poison := remRange s.poison (a / 16) t.granules }.poke a (t.render x))

/-- The granules of a handle's backing image. -/
def Handle.allGranules (h : Handle) : List Nat := List.range h.memShape.granules

/-- The contents of a tile as a read through its handle finds them (R176): from its frames, or some granules of the backing image with the log
applied. -/
def State.readTile (s : State) (w : Who) (n : Nat) (gs : List Nat) : Except (Nat × Nat) TImg × State :=
  let h := s.myHandle w n
  if h.state != .nonResident then (.ok (s.tileImg w.c h), s)
  else match s.readPart w.c w.h.asid (s.gangOf w.c w.h) h.backing h.memShape gs with
    | (.ok x, s1) => (.ok (applyLog h.log h.memShape x).2, s1)
    | (.error e, s1) => (.error e, s1)

/-! Fills. -/

/-- The transfer that an instruction starts. -/
def Who.transfer (w : Who) (write evict : Bool) (va seq : Nat) : Transfer :=
  { write := write, va := va, seq := seq, uid := w.h.uid, word := w.word, pc := w.sp.pc, evict := evict, applyLog := true, held := false
    handler := w.h.handler }

/-- R184: an instruction that reads the backing image of one of some handles, or that forces its fetch, makes accesses of class MR on path t. -/
def State.tileReads (s : State) (w : Who) (ns : List Nat) (u : Uses) : Uses :=
  if ns.any fun n => (s.myHandle w n).state == .nonResident then { u with acc := u.acc ||| 0x08, path := some 1 } else u

/-- R167: a forced fetch begins: the handle is filling, its frames are asked for, and the split is held. -/
def State.forceFetch (s : State) (w : Who) (n : Nat) : State :=
  let h := s.myHandle w n
  let s1 := s.setHandle w.c w.h.slot n
    { h with state := .filling, retBound := true, fill := some (w.transfer false false h.backing (w.h.seq + 1)) }
  ((s1.onCore w.c fun co => { co with frameWaits := co.frameWaits ++
    [{ uid := w.h.uid, split := w.i, slot := w.h.slot, handle := n, frames := h.shape.frames }] }).waitIn w 7 (.tile n)).pushOnce
    .frameGrant [w.c]

/-- The split waits until some handles are resident: earlier work first, then a forced fetch where one is non-resident. -/
def State.residentHold (s : State) (w : Who) (reads changed : List Nat) : Option State :=
  match s.tileHold w reads changed with
  | some t => some t
  | none =>
    match (reads ++ changed).find? fun n => (s.myHandle w n).state == .nonResident with
    | some n => some (s.forceFetch w n)
    | none => none

/-- R186: a read through a non-resident handle that fails: the transfer is held and the cohort stops; the instruction issues again
after `TRET`. -/
def State.readHeld (s : State) (w : Who) (n : Nat) (e : Nat × Nat) : State :=
  let t := { w.transfer false false (s.myHandle w n).backing (w.h.seq + 1) with held := true, code := e.1, fva := e.2 }
  ((s.onBlock w.c w.h.slot fun b => { b with handles := Tbl.adj b.handles n fun x => { x with fill := some t } }).onCohort w.c w.k
    Cohort.halt).notify w.c w.k

/-- R176: the split waits for earlier work on a handle that it reads, and stops where granules of the backing image cannot be read. -/
def State.readHold (s : State) (w : Who) (n : Nat) (gs : List Nat) : Option State :=
  match s.tileHold w [n] [] with
  | some t => some t
  | none =>
    let h := s.myHandle w n
    if h.state == .nonResident && !s.spanReady w.c w.h.asid (s.gangOf w.c w.h) .load (gs.map fun g => h.backing + 16 * g) then some s
    else match s.readTile w n gs with
      | (.ok _, _) => none
      | (.error e, s1) => some (s1.readHeld w n e)

/-- R166: frames taken by a handle, with its contents empty. -/
def Handle.take (h : Handle) (f k : Nat) : Handle := { h with frame := f, frames := k }

/-- R166: `TNEW` takes effect in frames from `f` on. -/
def State.newTile (s : State) (c b n owner f : Nat) : State :=
  match s.block? c b with
  | none => s
  | some bl =>
    let h := Tbl.at bl.handles n {}
    let h' : Handle := { h.take f h.shape.frames with state := .resident, owner := owner, phase := 0, log := [], backing := 0, writes := [], fill := none }
    ((s.setHandle c b n h').clearFrames c f h.shape.frames).setFull c h' true

/-- R166: a fetch begins in frames from `f` on. -/
def State.startFetch (s : State) (c b n f : Nat) (t : Transfer) : State :=
  match s.block? c b with
  | none => s
  | some bl =>
    let h := Tbl.at bl.handles n {}
    ((s.setHandle c b n { h.take f h.shape.frames with state := .filling, retBound := true, fill := some t }).clearFrames c f h.shape.frames).pushOnce
      .fillEnd [c, b, n]

/-- R177: a fill ends: the frames hold the image where there is one, all granules are full, and the log is empty. -/
def State.endFill (s : State) (c b n : Nat) (h : Handle) (x : Option TImg) : State :=
  let k := h.shape.frames
  let h' : Handle := { h with state := if h.retBound then .bound else .resident, fill := none, log := [], frames := k }
  let s1 := s.setHandle c b n h'
  let s2 := match x with
    | some y => s1.putTile c h' h'.shape y
    | none => s1
  (s2.setFull c h' true).freeFrames c (h.frame + k) (h.frames - k)

/-- What waits for a fill goes on. -/
def State.settleFill (s : State) (c b n : Nat) (t : Transfer) : State :=
  let s0 := if (s.core c).mats.any (!·.started) then s.pushOnce .mmpStart [c] else s
  let s1 := (s0.freeTile c b n).releaseOrphans c b
  match s1.whereIs t.uid with
  | some (_, j) => s1.notify c j
  | none => s1

/-- FILL_END (R177): the image of a fill has arrived: the log is applied as one batch, every granule becomes full, and the
handle takes its return state. A tile that needs other frames by then asks for them first, and one whose lines have to wait at their slices comes later. -/
def execFillEnd (s : State) : Out :=
  let c := s.arg 0
  let b := s.arg 1
  let n := s.arg 2
  match s.block? c b with
  | none => .next s
  | some bl =>
    let h := Tbl.at bl.handles n {}
    match h.fill with
    | none => .next s
    | some t =>
      if t.held then .next s
      else if h.state != .filling then .next ((s.setHandle c b n { h with fill := none }).freeTile c b n)
      else if h.frames < h.shape.frames then
        let s1 := (s.setHandle c b n { h with frame := 0, frames := 0 }).freeFrames c h.frame h.frames
        .next ((s1.onCore c fun co => { co with frameWaits := co.frameWaits ++
          [{ uid := t.uid, split := 0, slot := b, handle := n, frames := h.shape.frames }] }).pushOnce .frameGrant [c])
      else if t.code = 255 then .next ((s.endFill c b n h none).settleFill c b n t)
      else
        let asid := (Tbl.find? s.launches bl.launch).elim 0 (·.asid)
        if !s.spanReady c asid bl.gang .load (h.memShape.spans t.va) then .next (s.push .fillEnd s.ev)
        else match s.readImage c asid bl.gang t.va h.memShape with
        | (.error e, s1) =>
          let s2 := s1.setHandle c b n { h with fill := some { t with held := true, code := e.1, fva := e.2 } }
          match s2.whereIs t.uid with
          | some (_, k) => .next ((s2.onCohort c k Cohort.halt).notify c k)
          | none => .next s2
        | (.ok x, s1) => .next ((s1.endFill c b n h (some (applyLog h.log h.memShape x).2)).settleFill c b n t)

/-! Handle instructions (R166). -/

/-- R166: `TNEW` and `TBIND` need a configured tag. -/
def State.rawTag (s : State) (w : Who) (n : Nat) : Option Bad := badIf ((s.myHandle w n).tag == 0) 9

/-- The handle is allocated. -/
def Handle.isAlloc (x : Handle) : Bool := x.state != .free && x.state != .released

/-- `TNEW` (R166). -/
def execTnew (n : Nat) (s : State) : Out :=
  issue (fun _ _ => { fresh := [n] })
    (fun w t => firstBad [t.notOwner w n, t.stateBad w n (·.isAlloc), t.rawTag w n, badIf (256 < (t.myHandle w n).shape.frames) 9])
    (fun w t => t.frameHold w n (t.myHandle w n).shape.frames)
    (fun w t => (t.popRequest w n).newTile w.c w.h.slot n w.h.cohortid (((t.core w.c).frameRun (t.myHandle w n).shape.frames).getD 0)) s

/-- `TFREE` (R166): earlier work that reads the tile performs first. -/
def execTfree (n : Nat) (s : State) : Out :=
  issue (fun _ _ => { hs := [n] }) (fun w t => t.notOwner w n)
    (fun w t => if t.handleBusy w.c w.h.slot n (t.myHandle w n) (some w.h.uid) then some (t.waitIn w 7 (.tile n)) else none)
    (fun w t => (t.releaseHandle w.c w.h.slot n).freeTile w.c w.h.slot n) s

/-- `TPASS` (R166, R168). -/
def execTpass (a n : Nat) (s : State) : Out :=
  issue (fun _ _ => { hs := [n], us := [a] })
    (fun w t => firstBad [t.notOwner w n,
      badIf (32 ≤ (w.h.uq a).toNat || !((t.block? w.c w.h.slot).elim false fun b => b.live.contains (w.h.uq a).toNat)) 9]) noHold
    (fun w t => t.setHandle w.c w.h.slot n { t.myHandle w n with owner := (w.h.uq a).toNat }) s

/-- `TBIND` (R166). -/
def execTbind (a n : Nat) (s : State) : Out :=
  issue (fun _ _ => { fresh := [n], us := [a] })
    (fun w t => firstBad [t.notOwner w n, t.stateBad w n (fun h => h.isAlloc && h.state != .resident),
      badIf (!(t.myHandle w n).isAlloc && (t.myHandle w n).tag == 0) 9, w.unaligned16 a])
    (fun w t => t.tileHold w [] [n])
    (fun w t =>
      let h := t.myHandle w n
      let va := (w.h.uq a).toNat
      t.setHandle w.c w.h.slot n
        (if h.state = .resident then { h with state := .bound, backing := va }
         else { h with state := .nonResident, backing := va, owner := w.h.cohortid, log := [], phase := 0, frame := 0, frames := 0, writes := [] })) s

/-- `TFETCH` (R166). -/
def execTfetch (n : Nat) (s : State) : Out :=
  issue (fun _ _ => { hs := [n], acc := 0x08, path := some 1 })
    (fun w t => firstBad [t.tileTag w n, t.notOwner w n, t.stateBad w n (·.state == .resident), badIf (256 < (t.myHandle w n).shape.frames) 9])
    (fun w t =>
      let h := t.myHandle w n
      if h.state != .nonResident then (if h.leaves w.h.uid then some (t.waitIn w 7 (.tile n)) else none)
      else match t.tileHold w [] [n] with
        | some u => some u
        | none => t.frameHold w n h.shape.frames)
    (fun w t =>
      let h := t.myHandle w n
      if h.state != .nonResident then t.popRequest w n
      else (t.popRequest w n).startFetch w.c w.h.slot n (((t.core w.c).frameRun h.shape.frames).getD 0) (w.transfer false false h.backing (w.h.seq + 1))) s

/-- A write of the tile begins: it is listed on its handle, and due. -/
def State.startWrite (s : State) (w : Who) (n : Nat) (x : Transfer) : State :=
  (s.setHandle w.c w.h.slot n { s.myHandle w n with writes := (s.myHandle w n).writes ++ [x] }).pushOnce .tileWriteComplete [w.c, w.h.slot, n]

/-- `TEVICT` (R166). -/
def execTevict (n : Nat) (s : State) : Out :=
  issue (fun w t => if (t.myHandle w n).log = [] then { hs := [n], acc := 0x04 } else t.tileReads w [n] { hs := [n], acc := 0x04 })
    (fun w t => firstBad [t.tileTag w n, t.notOwner w n,
      t.stateBad w n fun h => h.state == .resident || (h.state == .filling && !h.retBound)])
    (fun w t =>
      let h := t.myHandle w n
      match t.tileHold w [] [n] with
      | some u => some u
      | none => if h.state = .nonResident ∧ h.log ≠ [] then some (t.forceFetch w n) else none)
    (fun w t =>
      let h := t.myHandle w n
      if h.state = .bound then t.startWrite w n (w.transfer true true h.backing (w.h.seq + 1)) else t) s

/-- `TWAIT` (R168). -/
def execTwait (n : Nat) (s : State) : Out :=
  issue (fun _ _ => { hs := [n] }) (fun w t => t.notOwner w n) (fun w t => t.tileHold w [] [n]) (fun _ t => t) s

/-! Transfers (R169). -/

/-- `TLD` (R169): every granule becomes empty at issue. -/
def execTld (a n : Nat) (s : State) : Out :=
  issue (fun _ _ => { hs := [n], us := [a], acc := 0x08, path := some 1 })
    (fun w t => firstBad [t.tileTag w n, t.notOwner w n, t.stateBad w n (·.state == .nonResident), w.unaligned16 a])
    (fun w t => t.tileHold w [] [n])
    (fun w t =>
      let h := t.myHandle w n
      let h' : Handle := { h with
        state := .filling, retBound := h.state == .bound, fill := some (w.transfer false false (w.h.uq a).toNat (w.h.seq + 1)) }
      ((t.setHandle w.c w.h.slot n h').setFull w.c h false).pushOnce .fillEnd [w.c, w.h.slot, n]) s

/-- `TST` (R169). -/
def execTst (a n : Nat) (s : State) : Out :=
  issue (fun w t => t.tileReads w [n] { hs := [n], us := [a], acc := 0x04 })
    (fun w t => firstBad [t.tileTag w n, t.notOwner w n, w.unaligned16 a])
    (fun w t => t.readHold w n (t.myHandle w n).allGranules)
    (fun w t => t.startWrite w n (w.transfer true false (w.h.uq a).toNat (w.h.seq + 1))) s

/-! Bound checks of tiles (R401). -/

/-- R401: an element of a tile written at an address: the value written, and whether it fails its register. -/
def BoundReg.checkElem (r : BoundReg) (t : TShape) (ex b : Nat) : Nat × Bool :=
  match t.sx with
  | some _ => (b, r.fmt != t.tag || r.outside (Num.valueOf t.tag ex b))
  | none => if r.fails t.size b then ((if r.action = 1 ∧ r.elemSize = some t.size then r.clamp b % 256 ^ t.size else b), true) else (b, false)

/-- R401: the elements of a tile that its register checks: all, or those whose bytes lie in the range of a write at `va`. -/
def BoundReg.covers (r : BoundReg) (t : TShape) (va : Option Nat) (i : Nat) : Bool :=
  t.inside i && match va with
    | none => true
    | some a => r.start ≤ a + (t.place i).1 / 8 && a + (t.place i).2 / 8 < r.stop

/-- R400, R401: a tile's contents as its bound register leaves them, with the first element that fails. -/
def BoundReg.checkTile (r : BoundReg) (t : TShape) (va : Option Nat) (x : TImg) : TImg × Option Nat :=
  if !r.armed then (x, none)
  else
    let res := x.elems.zipIdx.map fun e => if r.covers t va e.2 then r.checkElem t (x.exp e.2) e.1 else (e.1, false)
    ({ x with elems := res.map Prod.fst }, res.findIdx? (·.2))

/-- R163: the bound register of a handle, where its writes are checked. -/
def State.tileBound (s : State) (asid : Nat) (h : Handle) : Option (Nat × BoundReg) :=
  if h.bchk then some (h.breg, s.boundReg asid h.breg) else none

/-- A write of a tile has performed: it leaves its handle, and an eviction frees the frames (R166). -/
def State.endWrite (s : State) (c b n : Nat) (x : Transfer) : State :=
  match s.block? c b with
  | none => s
  | some bl =>
    let h := Tbl.at bl.handles n {}
    let h1 := { h with writes := h.writes.filter fun t => !(t.seq == x.seq && t.uid == x.uid) }
    let s1 := if x.evict then (s.setHandle c b n { h1 with state := .nonResident, frame := 0, frames := 0, log := [] }).freeFrames c h.frame h.frames
      else s.setHandle c b n h1
    let s2 := (((if x.grant = 0 then s1 else s1.retryHolds c (· == .grant)).freeTile c b n).releaseOrphans c b).checkBlock c b
    match s2.whereIs x.uid with
    | some (_, k) => s2.notify c k
    | none => s2

/-- A transfer into memory of a tile that waits for a trap of its cohort, with its cause. A late fault stays pending in handler mode. Where the cohort has ended no handler comes
for it: it leaves its handle unperformed, with error 5 of the launch (log entry 16). -/
def State.holdWrite (s : State) (c b n : Nat) (x : Transfer) (code va : Nat) : State :=
  match (s.whereIs x.uid).bind fun w => (s.cohort? c w.2).bind fun h => if h.ending then none else some w.2 with
  | some k =>
    let s1 := s.onBlock c b fun bl => { bl with handles := Tbl.adj bl.handles n fun h =>
      { h with writes := h.writes.map fun t => if t.seq = x.seq ∧ t.uid = x.uid then { t with held := true, code := code, fva := va } else t } }
    (s1.onCohort c k fun h => if h.handler && code == 21 then h else h.halt).notify c k
  | none =>
    let bl := (s.block? c b).getD {}
    (s.launchErr bl.launch 5 bl.stage c 0 x.pc.toNat).endWrite c b n x

/-- R335, R336: a tile write that fails its address: a late store fault of its cohort. -/
def State.lateTile (s : State) (c b n : Nat) (x : Transfer) (va : Nat) : State :=
  match (s.whereIs x.uid).bind fun w => (s.cohort? c w.2).map fun h => (w.2, h) with
  | none => s.holdWrite c b n x 21 va
  | some (k, h) =>
    let young := match h.bisque with
      | some q => q.seq < x.seq && !x.handler
      | none => false
    let y : Cause := { code := if young then 20 else 21, pc := x.pc, word := x.word, addr := va, at_ := x.seq, tile := true }
    (s.onCohort c k fun h => if h.ending then h else { h with late := h.late ++ [y] }).holdWrite c b n x 21 va

/-- R169, R401: the contents that a write of a tile puts at an address, checked by the tile's bound register. -/
def State.writeTile (s : State) (c b n : Nat) (h : Handle) (asid gang : Nat) (x : Transfer) (img : TImg) : State :=
  let t := h.shape
  let chk := match s.tileBound asid h with
    | some (i, r) => let y := r.checkTile t (some x.va) img; (y.1, y.2, i, r.action == 2)
    | none => (img, none, 0, false)
  let s1 := match chk.2.1, s.whereIs x.uid with
    | some _, some (_, k) => s.setBstat c k (1#32 <<< chk.2.2.1)
    | _, _ => s
  match chk.2.1, chk.2.2.2 with
  | some i, true => s1.holdWrite c b n x 15 (x.va + (t.place i).1 / 8)
  | _, _ =>
    match s1.granuleAddrs c asid gang .store (t.spans x.va) with
    | (.error e, s2) => s2.lateTile c b n x e.2
    | (.ok l, s2) => (s2.writeGranules c (t.poisonOf chk.1) 0 (t.render chk.1) l).endWrite c b n x

/-! Lines of a tile (R170). -/

/-- R170: the line index, its first element, and whether the register is ill-formed for the tile. -/
def lineOf (t : TShape) (col : Bool) (q : Nat) : Nat × Nat × Bool :=
  let i := q % 512
  let c0 := q / 2 ^ 16 % 512
  let rest := q - i - c0 * 2 ^ 16
  (i, c0, rest != 0 || (if col then t.cols ≤ i else t.rows ≤ i) ||
    (t.sx.isSome && ((t.layout == 2) == col || c0 % 32 != 0)))

/-- The place of element `e` of a line. -/
def TShape.onLine (t : TShape) (col : Bool) (i e : Nat) : Nat := if col then t.index e i else t.index i e

/-- The elements of a line. -/
def TShape.lineLen (t : TShape) (col : Bool) : Nat := if col then t.rows else t.cols

/-- The elements of a line that lanes reach from `c0` on, by row and column; where `c0` lies beyond the line there are none. -/
def TShape.lineElems (t : TShape) (col : Bool) (i c0 : Nat) : List (Nat × Nat) :=
  ((List.range 32).filter fun l => c0 + l < t.lineLen col).map fun l => if col then (c0 + l, i) else (i, c0 + l)

/-- R21, R22, R27, R29: an element as it stands in a lane. -/
def TShape.placed (t : TShape) (ex b : Nat) : Nat := if t.sx.isSome then ex * 2 ^ 24 + Num.place t.tag b else Num.place t.tag b

/-- The lane registers that an element of the tile's tag takes. -/
def tagRegs (tag d : Nat) : List Nat := if Num.wideTag tag then pairOf d else [d]

/-- R170: what lane `l` receives from a line. -/
def TShape.lineWord (t : TShape) (x : TImg) (col : Bool) (i c0 l : Nat) : Nat :=
  let ex := if c0 < t.lineLen col then x.exp (t.onLine col i c0) else 0
  if c0 + l < t.lineLen col then t.placed ex (x.elems.getD (t.onLine col i (c0 + l)) 0) else t.placed ex 0

/-- Lane words written, to a pair where the tag is 64-bit. -/
def Cohort.setTagged (h : Cohort) (d : Nat) (m : Mask) (tag : Nat) (f : Nat → Nat) : Cohort :=
  if Num.wideTag tag then h.setPair d m tag fun l => BitVec.ofNat 64 (f l) else h.setLanes d m tag fun l => BitVec.ofNat 32 (f l)

/-- R170: the granules of the backing image that a line needs. -/
def Handle.lineGranules (h : Handle) (col : Bool) (q : Nat) : List Nat :=
  let p := lineOf h.shape col q
  h.memShape.granulesOf (h.sources (h.shape.lineElems col p.1 p.2.1))

/-- `TGET` (R170): lanes that receive poison turn grey. -/
def execTget (o : OpTget) (s : State) : Out :=
  issue
    (fun w t =>
      let h := t.myHandle w o.a
      t.tileReads w [o.a]
        { hs := [o.a], us := [o.b], vd := tagRegs h.tag o.d, pairs := if Num.wideTag h.tag then [o.d] else [], whole := false })
    (fun w t => firstBad [t.tileTag w o.a, t.notOwner w o.a, badIf (lineOf (t.myHandle w o.a).shape (o.c == 1) (w.h.uq o.b).toNat).2.2 9])
    (fun w t => t.readHold w o.a ((t.myHandle w o.a).lineGranules (o.c == 1) (w.h.uq o.b).toNat))
    (fun w t =>
      match t.readTile w o.a ((t.myHandle w o.a).lineGranules (o.c == 1) (w.h.uq o.b).toNat) with
      | (.error _, t1) => t1
      | (.ok x, t1) =>
        let sh := (t.myHandle w o.a).shape
        let q := lineOf sh (o.c == 1) (w.h.uq o.b).toNat
        let m := w.h.active w.sp
        let grey := maskOf fun l => inMask m l && q.2.1 + l < sh.lineLen (o.c == 1) && x.isBad (sh.onLine (o.c == 1) q.1 (q.2.1 + l))
        let t2 := t1.onCohort w.c w.k fun h => h.setTagged o.d (m &&& ~~~grey) sh.tag (sh.lineWord x (o.c == 1) q.1 q.2.1)
        t2.greyLanes w.c w.k grey w.sp.pc.toNat) s

/-- R170: an image with the elements of a line written from lanes. -/
def TShape.setLine (t : TShape) (x : TImg) (col : Bool) (i c0 : Nat) (m : Mask) (f : Nat → Nat) : TImg :=
  let len := t.lineLen col
  let ls := (lanesOf m).filter fun l => c0 + l < len
  let x1 := ls.foldl (fun (y : TImg) l =>
    { y with elems := y.elems.set (t.onLine col i (c0 + l)) (f l % 2 ^ Num.bitsOf t.tag), bad := y.bad.set (t.onLine col i (c0 + l)) false }) x
  if t.sx.isSome && ls != [] then
    let b := t.onLine col i c0 / 32
    { x1 with exps := x1.exps.set b (f (lowestLane m) / 2 ^ 24 % 256), ebad := x1.ebad.set b false }
  else x1

/-- R170, R397: a line written in the frames: whole granules become good, others keep their poison. -/
def State.putLine (s : State) (c : Nat) (h : Handle) (col : Bool) (i c0 : Nat) (m : Mask) (f : Nat → Nat) : State :=
  let t := h.shape
  let a := frameAddr c h
  let old := s.tileImg c h
  let bs := t.render (t.setLine old col i c0 m f)
  let was := s.peekBytes a t.bytes
  let hit := (lanesOf m).flatMap fun l =>
    if c0 + l < t.lineLen col then
      let p := t.place (t.onLine col i (c0 + l))
      (List.range (p.2 / 8 + 1 - p.1 / 8)).map fun j => p.1 / 8 + j
    else []
  let whole := (List.range t.granules).filter fun g => (List.range 16).all fun j => hit.contains (16 * g + j)
  let s1 : State := { s with mem := (bs.zip was).zipIdx.foldl (fun mm e => if e.1.1 = e.1.2 then mm else Mem.wr mm (a + e.2) e.1.1) s.mem }
  whole.foldl (fun (u : State) g => { u with poison := remNat u.poison (a / 16 + g) }) s1

/-- `TSET` (R170). -/
def execTset (o : OpTget) (s : State) : Out :=
  issue
    (fun w t =>
      let h := t.myHandle w o.d
      t.tileReads w [o.d]
        { hs := [o.d], us := [o.b], vs := tagRegs h.tag o.a, pairs := if Num.wideTag h.tag then [o.a] else [], whole := false })
    (fun w t =>
      let h := t.myHandle w o.d
      firstBad [t.tileTag w o.d, badIf (w.h.vtag o.a != 0 && w.h.vtag o.a != h.tag) 6, t.notOwner w o.d,
        badIf (lineOf h.shape (o.c == 1) (w.h.uq o.b).toNat).2.2 9])
    (fun w t => t.residentHold w [] [o.d])
    (fun w t =>
      let h := t.myHandle w o.d
      let q := lineOf h.shape (o.c == 1) (w.h.uq o.b).toNat
      t.putLine w.c h (o.c == 1) q.1 q.2.1 (w.h.active w.sp)
        (fun l => if Num.wideTag h.tag then (w.h.pair o.a l).toNat else (w.h.lane o.a l).toNat)) s

end Sys2Proof.Machine
end

