-- ==== Sys2Proof/Machine/TileLog.lean ====
section
/-! DEFINITION. The loggable tile operations (R171 to R176) and the grant of frames to those that wait (R233). -/

namespace Sys2Proof.Machine

open Sys2Proof

/-! Checks (R171, R174). -/

/-- R171: the tiles that an operation accepts, by its function number. -/
def opAccepts (op tag : Nat) : Bool :=
  let float := tag == 0x11 || tag == 0x12 || tag == 0x13
  let int := (Num.intOf tag).isSome && tag != 0
  match op with
  | 0 => float || int
  | 1 => float || int
  | 2 => float || (Num.sxOf tag).isSome
  | 3 => tag != 0
  | 4 => float || int
  | _ => true

/-- R171, R173: the tag of the scalar is not accepted. -/
def badScalar (op tag qtag : Nat) : Bool :=
  let float := (Num.fmtOf tag).isSome
  if op = 3 ∨ ((op = 0 ∨ op = 1) ∧ (Num.intOf tag).isSome) then false else qtag != 0 && !(float && qtag == 0x11)

/-- R171: the limits of a `TCLMP` are out of order, or one is no number, or its tile is of 64-bit integers. -/
def badClamp (tag q : Nat) : Bool :=
  let lo := q % 2 ^ 32
  let hi := q / 2 ^ 32 % 2 ^ 32
  let val (x : Nat) : Num.FVal := Num.valueOf (match Num.intOf tag with | some (_, false) => 7 | some (_, true) => 3 | none => 0x11) 0 x
  tag == 4 || tag == 8 || val lo == .nan || val hi == .nan || Num.less (val hi) (val lo)

/-- R171: the two tiles of an operation out of place do not match. -/
def mismatch (a d : Handle) : Bool := a.rows != d.rows || a.cols != d.cols || a.tag != d.tag || a.layout != d.layout

/-- The entry of an operation on a tile, with its captured operands (R239). -/
def entryOf (op : Nat) (h : Handle) (scalar region : Nat) : LogEntry :=
  { op := op, scalar := scalar, region := region, tag := h.tag, layout := h.layout }

/-- The log entries in use on a core (R239). -/
def CoreSt.logUsed (co : CoreSt) : Nat :=
  (Tbl.vals co.blocks).foldl (fun a b => (Tbl.vals b.handles).foldl (fun x h => x + h.log.length) a) 0

/-- R175, R239: the log with an entry appended, where it may be. -/
def State.appended (s : State) (w : Who) (n : Nat) (e : LogEntry) : Option (List LogEntry) :=
  let h := s.myHandle w n
  appendLog h.shape h.log e ((s.core w.c).logUsed < 512)

/-- The operation goes to the handle's log (R171). -/
def Handle.logs (h : Handle) : Bool := h.state == .nonResident || h.state == .filling

/-- R171, R175: an operation in place waits for what still reads the tile, and where its log is full for the tile itself. -/
def State.inPlaceHold (s : State) (w : Who) (n : Nat) (e : LogEntry) : Option State :=
  let h := s.myHandle w n
  if !h.logs then s.tileHold w [] [n]
  else if s.handleBusy w.c w.h.slot n h (some w.h.uid) then some (s.waitIn w 7 (.tile n))
  else match s.appended w n e with
    | some _ => none
    | none => if h.state = .filling then some (s.waitIn w 7 (.tile n)) else some (s.forceFetch w n)

/-- R184: what an operation reads of memory: out of place it forces the fetch of its tiles, and in place that of a tile whose log is full. -/
def State.opReads (s : State) (w : Who) (a d : Nat) (e : LogEntry) (u : Uses) : Uses :=
  if a != d then s.tileReads w [a, d] u else if (s.appended w d e).isNone then s.tileReads w [d] u else u

/-- R174: the shape that an entry leaves its handle with; a conversion under dither advances the tile's phase (R38). -/
def Handle.after (h : Handle) (e : LogEntry) : Handle :=
  if e.op = 5 then { h with tag := e.target, layout := e.tlayout, phase := if e.rm = 5 then (h.phase + 1) % 32 else h.phase } else h

/-- R171: an operation in place takes effect: on the log, or on the frames. -/
def State.runInPlace (s0 : State) (w : Who) (n : Nat) (e : LogEntry) : State :=
  let s := s0.popRequest w n
  let h := s.myHandle w n
  if h.logs then
    match s.appended w n e with
    | some l => s.setHandle w.c w.h.slot n { h.after e with log := l }
    | none => s
  else
    let r := e.apply h.shape (s.tileImg w.c h)
    let k := r.1.frames
    if h.frames < k then
      let h' := (h.after e).take (((s.core w.c).frameRun k).getD 0) k
      ((((s.setHandle w.c w.h.slot n h').clearFrames w.c h'.frame k).putTile w.c h' r.1 r.2).setFull w.c h' true).freeFrames w.c h.frame h.frames
    else
      let h' := { h.after e with frames := k }
      (((s.setHandle w.c w.h.slot n h').putTile w.c h' r.1 r.2).setFull w.c h' true).freeFrames w.c (h.frame + k) (h.frames - k)

/-- R171: an operation out of place takes effect on the frames of the destination. -/
def State.runOutOfPlace (s : State) (w : Who) (a d : Nat) (e : LogEntry) : State :=
  let ha := s.myHandle w a
  let hd := s.myHandle w d
  let r := e.apply ha.shape (s.tileImg w.c ha)
  let s1 := if e.op = 5 ∧ e.rm = 5 then s.setHandle w.c w.h.slot d { hd with phase := (hd.phase + 1) % 32 } else s
  s1.putTile w.c hd r.1 r.2

/-- R171: a loggable operation of a scalar: `TADDS`, `TMULS`, `TEXPS` and `TCLMP`. -/
def tileScalar (op : Nat) (o : OpT) (s : State) : Out :=
  let entry (w : Who) (t : State) : LogEntry := entryOf op (t.myHandle w o.a) (w.h.uq o.b).toNat 0
  issue (fun w t => t.opReads w o.a o.d (entry w t) { hs := [o.d, o.a], us := [o.b] })
    (fun w t =>
      let ha := t.myHandle w o.a
      firstBad [t.tileTag w o.a, t.tileTag w o.d, badIf (!opAccepts op ha.tag || badScalar op ha.tag (w.h.utag o.b)) 6, t.notOwner w o.d, t.notOwner w o.a,
        badIf (o.a != o.d && mismatch ha (t.myHandle w o.d)) 9, badIf (op == 4 && badClamp ha.tag (w.h.uq o.b).toNat) 9])
    (fun w t => if o.a = o.d then t.inPlaceHold w o.d (entry w t) else t.residentHold w [o.a] [o.d])
    (fun w t => if o.a = o.d then t.runInPlace w o.d (entry w t) else t.runOutOfPlace w o.a o.d (entry w t)) s

/-- `TADDS` (R171). -/
def execTadds (o : OpT) (s : State) : Out := tileScalar 0 o s

/-- `TMULS` (R171). -/
def execTmuls (o : OpT) (s : State) : Out := tileScalar 1 o s

/-- `TEXPS` (R171, R172). -/
def execTexps (o : OpT) (s : State) : Out := tileScalar 2 o s

/-- `TCLMP` (R171). -/
def execTclmp (o : OpT) (s : State) : Out := tileScalar 4 o s

/-- `TFILL` (R171): its value comes from `a` and its region from `b`. -/
def execTfill (o : OpT) (s : State) : Out :=
  let entry (w : Who) (t : State) : LogEntry := entryOf 3 (t.myHandle w o.d) (w.h.uq o.a).toNat (w.h.uq o.b).toNat
  issue (fun w t => t.opReads w o.d o.d (entry w t) { hs := [o.d], us := [o.a, o.b] })
    (fun w t =>
      let h := t.myHandle w o.d
      let q := (w.h.uq o.b).toNat
      firstBad [t.tileTag w o.d, t.notOwner w o.d, badIf (q / 2 ^ 37 != 0 || !h.shape.holds (h.shape.region q)) 9])
    (fun w t => t.inPlaceHold w o.d (entry w t))
    (fun w t => t.runInPlace w o.d (entry w t)) s

/-- R174: the entry of a conversion: it takes the phase of the tile that it writes. -/
def cvtEntry (o : OpTcvt) (ha hd : Handle) : LogEntry :=
  { op := 5, tag := ha.tag, layout := ha.layout, target := o.t, tlayout := cvtLayout ha.layout ha.tag o.t, rm := o.r, sat := o.s == 1, phase := hd.phase }

/-- The frames that a conversion in place needs. -/
def cvtFrames (o : OpTcvt) (h : Handle) : Nat := { h.shape with tag := o.t, layout := cvtLayout h.layout h.tag o.t : TShape }.frames

/-- `TCVT` (R174). -/
def execTcvt (o : OpTcvt) (s : State) : Out :=
  let entry (w : Who) (t : State) : LogEntry := cvtEntry o (t.myHandle w o.a) (t.myHandle w o.d)
  issue (fun w t => t.opReads w o.a o.d (entry w t) { hs := [o.d, o.a] })
    (fun w t =>
      let ha := t.myHandle w o.a
      let hd := t.myHandle w o.d
      firstBad [badIf (o.t == 0 || !Num.goodTag o.t) 6, t.tileTag w o.a, t.tileTag w o.d, t.notOwner w o.d, t.notOwner w o.a,
        badIf (o.a != o.d && (ha.rows != hd.rows || ha.cols != hd.cols || hd.tag != o.t || hd.layout != cvtLayout ha.layout ha.tag o.t)) 9])
    (fun w t =>
      if o.a = o.d then
        let h := t.myHandle w o.d
        match t.inPlaceHold w o.d (entry w t) with
        | some u => some u
        | none => if !h.logs && h.frames < cvtFrames o h then t.frameHold w o.d (cvtFrames o h) else none
      else t.residentHold w [o.a] [o.d])
    (fun w t => if o.a = o.d then t.runInPlace w o.d (entry w t) else t.runOutOfPlace w o.a o.d (entry w t)) s

/-! Frames granted (R166, R233). -/

/-- A request at the head of the queue: the split that made it still waits, or the fill that it serves has begun. -/
def State.requestLive (s : State) (c : Nat) (r : FrameReq) : Bool :=
  match s.block? c r.slot with
  | none => false
  | some b =>
    let h := Tbl.at b.handles r.handle {}
    (h.state == .filling && h.frames == 0 && h.fill.isSome) ||
      (match s.whereIs r.uid with
        | some (c', k) => c' == c && ((s.cohort? c k).bind fun x => x.split? r.split).elim false fun sp =>
            sp.state == 0 || sp.hold == .frames r.handle
        | none => false)

/-- The queue without the requests at its head that nothing waits for. -/
def State.liveRequests (s : State) (c : Nat) : List FrameReq → List FrameReq
  | [] => []
  | r :: l => if s.requestLive c r then r :: l else State.liveRequests s c l

/-- FRAME_GRANT (R166, R233): the request at the head of the queue is met if a run is free: a fill begins to read, or the split
goes on to take its frames. -/
def execFrameGrant (s : State) : Out :=
  let c := s.arg 0
  let q := s.liveRequests c (s.core c).frameWaits
  let s1 := s.onCore c fun co => { co with frameWaits := q }
  match q with
  | [] => .next s1
  | r :: rest =>
    match (s1.core c).frameRun r.frames with
    | none => .next s1
    | some f =>
      let h := (s1.block? c r.slot).elim ({} : Handle) fun b => Tbl.at b.handles r.handle {}
      if h.state = .filling ∧ h.frames = 0 then
        let s2 := (((s1.setHandle c r.slot r.handle (h.take f r.frames)).clearFrames c f r.frames).onCore c fun co =>
          { co with frameWaits := rest }).pushOnce .fillEnd [c, r.slot, r.handle]
        .next (if rest = [] then s2 else s2.pushOnce .frameGrant [c])
      else
        match s1.whereIs r.uid with
        | none => .next s1
        | some (_, k) => .next (s1.onCohort c k fun x => x.onSplit r.split fun sp => if sp.hold = .frames r.handle then sp.retry else sp)

end Sys2Proof.Machine
end

