-- ==== Sys2Proof/Machine/Matrix.lean ====
section
/-! DEFINITION. Accumulator grants, matrix multiplies, the epilogue read and the accumulator load (R46, R47, R178 to R183,
R241), with the writes of tiles that have started. -/

namespace Sys2Proof.Machine

open Sys2Proof

/-! Grants (R178, R179). -/

/-- R178: the grant word. -/
def Grant.word (g : Grant) : Nat := g.slot * 2 ^ 32 + g.serial * 2 ^ 16 + g.count * 16 + g.base

/-- R178: the live grant of the issuing block that a register's value names. -/
def State.grantOf (s : State) (w : Who) (q : Nat) : Option Grant :=
  (s.core w.c).grants.find? fun g => g.slot == w.h.slot && g.word == (w.h.uq q).toNat

/-- R178: the grant fault. -/
def State.grantBad (s : State) (w : Who) (q : Nat) : Option Bad := badIf (s.grantOf w q).isNone 10

/-- R179: the type of a grant put in place. -/
def CoreSt.setGrantType (co : CoreSt) (g : Grant) (ty : Nat) : CoreSt :=
  { co with grants := co.grants.map fun x => if x.slot = g.slot ∧ x.serial = g.serial then { x with ty := ty } else x }

/-- R179: the address of element (i, n) of a grant. -/
def accAddr (c : Nat) (g : Grant) (i n : Nat) : Nat :=
  accBase c + (g.base + 4 * (n / 256) + i / 64) * 0x10000 + ((i % 64) * 256 + n % 256) * 4

/-- R179: the grant holds every element of the rows below `i` and the columns below `n`. -/
def Grant.holds (g : Grant) (i n : Nat) : Bool := i ≤ 256 && 4 * ((n - 1) / 256) + (i - 1) / 64 < g.count

/-- An element of a grant, with its poison. -/
def State.accAt (s : State) (c : Nat) (g : Grant) (i n : Nat) : Nat × Bool :=
  (Mem.rdN s.mem (accAddr c g i n) 4, s.accPoison.contains (accAddr c g i n / 4))

/-- An element of a grant written, with its poison. -/
def State.setAcc (s : State) (c : Nat) (g : Grant) (i n v : Nat) (bad : Bool) : State :=
  let a := accAddr c g i n
  { s with mem := Mem.wrN s.mem a 4 v, accPoison := if bad then insNat s.accPoison (a / 4) else remNat s.accPoison (a / 4) }

/-- R178, R179: the banks of a grant cleared. -/
def State.clearBanks (s : State) (c base n : Nat) : State :=
  let a := accBase c + base * 0x10000
  { s with mem := Mem.clear s.mem a (n * 0x10000), accPoison := remRange s.accPoison (a / 4) (n * 0x4000) }

/-- R178: the lowest-numbered run of free banks among those that the block holds. -/
def CoreSt.bankRun (co : CoreSt) (base total n : Nat) : Option Nat :=
  ((List.range (total + 1 - n)).map (base + ·)).find? fun f =>
    n ≤ total && !co.grants.any fun g => g.base < f + n && f < g.base + g.count

/-- R181: the neighbour's paired multiply holds the core's own matrix issue. -/
def State.neighbourBusy (s : State) (c : Nat) : Bool := (s.core (c ^^^ 1)).mats.any (·.paired)

/-- R184: an `ACRD` on a grant that another cohort's trap holds performs before what is issued on the grant later. -/
def State.readOfGrant (s : State) (w : Who) (g : Grant) : Bool :=
  (s.block? w.c g.slot).elim false fun b => b.handles.any fun e => e.2.writes.any fun t => t.grant.toNat == g.word && t.keeps (some w.h.uid)

/-- Earlier multiplies on a grant have not performed. -/
def State.grantBusy (s : State) (c : Nat) (g : Grant) : Bool := (s.core c).mats.any fun m => m.slot == g.slot && m.grant == g.serial

/-- The split waits for earlier work on the grant, and for the neighbour where it uses its array. -/
def State.grantHold (s : State) (w : Who) (q : Nat) (order array : Bool) : Option State :=
  match s.grantOf w q with
  | none => none
  | some g => if (order && s.grantBusy w.c g) || s.readOfGrant w g || (array && s.neighbourBusy w.c) then some (s.waitIn w 7 .grant) else none

/-- `ACQ` (R178). -/
def execAcq (n d : Nat) (s : State) : Out :=
  let blk (w : Who) (t : State) : Nat × Nat := (t.block? w.c w.h.slot).elim (0, 0) fun b => (b.accBase, b.accN)
  issue (fun _ _ => { ud := [d] })
    (fun w t => badIf ((blk w t).2 < n) 9)
    (fun w t => match (t.core w.c).bankRun (blk w t).1 (blk w t).2 n with
      | some _ => none
      | none => some (t.waitIn w 7 .banks))
    (fun w t =>
      match (t.core w.c).bankRun (blk w t).1 (blk w t).2 n with
      | none => t
      | some f =>
        let g : Grant := { slot := w.h.slot, serial := (t.core w.c).grantSerial, count := n, base := f }
        (t.onCore w.c fun co => { co with grants := co.grants ++ [g], grantSerial := (co.grantSerial + 1) % 65536 }).onCohort w.c w.k fun h =>
          h.setQ d (BitVec.ofNat 64 g.word) 0) s

/-- `ACR` (R178): the banks are clear before they are granted again. -/
def execAcr (q : Nat) (s : State) : Out :=
  issue (fun _ _ => { us := [q] }) (fun w t => t.grantBad w q) (fun w t => t.grantHold w q true false)
    (fun w t =>
      match t.grantOf w q with
      | none => t
      | some g =>
        ((t.clearBanks w.c g.base g.count).onCore w.c fun co =>
          { co with grants := co.grants.filter fun x => !(x.slot == g.slot && x.serial == g.serial) }).retryHolds w.c fun y => y == .banks) s

/-- `MMZ` (R179). -/
def execMmz (q : Nat) (s : State) : Out :=
  issue (fun _ _ => { us := [q] }) (fun w t => t.grantBad w q) (fun w t => t.grantHold w q true true)
    (fun w t =>
      match t.grantOf w q with
      | none => t
      | some g => (t.clearBanks w.c g.base g.count).onCore w.c fun co => co.setGrantType g 0) s

/-! Multiplies (R46, R47, R180, R181). -/

/-- R180: the type of accumulator that a pair of tiles gives: 1 fp32, 2 i32; none where the pair is not legal. -/
def pairType (a b : TShape) : Option Nat :=
  if a.sx.isSome && b.sx.isSome then (if a.layout = 2 ∧ b.layout = 3 then some 1 else none)
  else if a.tag = 1 ∧ b.tag = 1 then some 2
  else if a.tag = b.tag ∧ (a.tag = 0x13 ∨ a.tag = 0x12 ∨ a.tag = 0x11) then some 1
  else none

/-- R47: a finite value rounded toward zero to a significand of 8 bits, with the exact remainder. DESIGN CHOICE (log entry 88): a remainder of zero has the
sign of the value; R47 gives it none, and the sign can decide that of a block's zero sum. -/
def topEight (n : Bool) (m : Nat) (e : Int) : Num.FVal × Num.FVal :=
  let sh := Nat.log2 m + 1 - 8
  (.fin n (m / 2 ^ sh * 2 ^ sh) e, .fin n (m % 2 ^ sh) e)

/-- R47: the two parts of an operand: its top, and the remainder cut to 8 bits as well. -/
def splitTop (v : Num.FVal) : Num.FVal × Num.FVal :=
  match v with
  | .fin n m e =>
    let p := topEight n m e
    (p.1, match p.2 with | .fin n' m' e' => (topEight n' m' e').1 | x => x)
  | x => (x, .fin false 0 0)

/-- R47: the exact products of one pair of fp32 elements. -/
def fp32Products (a b : Num.FVal) : List Num.FVal :=
  match a, b with
  | .fin .., .fin .. =>
    let x := splitTop a
    let y := splitTop b
    [Num.exactMul x.1 y.1, Num.exactMul x.1 y.2, Num.exactMul x.2 y.1]
  | _, _ => [Num.exactMul a b]

/-- Row `i` of a tile's elements, by what `f` finds at an element's place. -/
def TShape.rowOf {α : Type} (t : TShape) (f : Nat → α) (i : Nat) : List α := (List.range t.cols).map fun k => f (t.index i k)

/-- Column `n` of a tile's elements, by what `f` finds at an element's place. -/
def TShape.colOf {α : Type} (t : TShape) (f : Nat → α) (n : Nat) : List α := (List.range t.rows).map fun k => f (t.index k n)

/-- R28, R46: the exact product of two elements of shared-exponent tiles, which have no -0: neither has their product. -/
def sxProduct (a b : Num.FVal) : Num.FVal :=
  match Num.exactMul a b with
  | .fin _ 0 e => .fin false 0 e
  | x => x

/-- R46: one accumulator element after a multiply of a row and a column: blocks of 32 products, each summed exactly and added with
one rounding; `wide` for fp32 operands, `sx` for shared-exponent ones. -/
def matAccum (wide sx : Bool) (a b : List Num.FVal) (c : Nat) : Nat :=
  (List.range ((a.length + 31) / 32)).foldl (fun c blk =>
    let va := (a.drop (32 * blk)).take 32
    let vb := (b.drop (32 * blk)).take 32
    let ps := if wide then (List.zipWith fp32Products va vb).flatten else List.zipWith (if sx then sxProduct else Num.exactMul) va vb
    Num.pack .fp32 0 false 0 0 (Num.exactSum false [Num.unpack .fp32 c, Num.exactSum false ps])) c

/-- R46: one i32 accumulator element after a multiply of i8 tiles, wrapping. -/
def intAccum (a b : List Nat) (c : Nat) : Nat :=
  let t : Int := (List.zipWith (fun x y => Num.sintOf 8 x * Num.sintOf 8 y) a b).foldl (· + ·) 0
  Num.intBits 32 ((c : Int) + t)

/-- R180: C += A × B over a grant. A poisoned element of either operand feeds the accumulator elements of its row or column. -/
def State.multiply (s : State) (c : Nat) (g : Grant) (ha hb : Handle) : State :=
  let ta := ha.shape
  let tb := hb.shape
  let a := s.tileImg c ha
  let b := s.tileImg c hb
  let rows := (List.range ta.rows).map fun i =>
    (i, ta.rowOf (ta.value a) i, ta.rowOf (fun e => a.elems.getD e 0) i, (ta.rowOf a.isBad i).any id)
  let cols := (List.range tb.cols).map fun n =>
    (n, tb.colOf (tb.value b) n, tb.colOf (fun e => b.elems.getD e 0) n, (tb.colOf b.isBad n).any id)
  rows.foldl (fun t x =>
    cols.foldl (fun (u : State) y =>
      let old := s.accAt c g x.1 y.1
      let v := if g.ty = 2 then intAccum x.2.2.1 y.2.2.1 old.1 else matAccum (ta.tag == 0x11) ta.sx.isSome x.2.1 y.2.1 old.1
      u.setAcc c g x.1 y.1 v (old.2 || x.2.2.2 || y.2.2.2)) t) s

/-- R180, R181: the faults of a multiply with a limit of columns and a least number of banks. -/
def multiplyCheck (cols banks : Nat) (o : OpT) (w : Who) (t : State) : Option Bad :=
  let a := (t.myHandle w o.a).shape
  let b := (t.myHandle w o.b).shape
  let g := t.grantOf w o.d
  firstBad [
    t.tileTag w o.a, t.tileTag w o.b,
    badIf (match pairType a b, g with | none, _ => true | some ty, some g => g.ty != 0 && g.ty != ty | some _, none => false) 6,
    t.notOwner w o.a, t.notOwner w o.b,
    badIf (a.cols != b.rows || 256 < a.cols || cols < b.cols || (g.elim false fun g => g.count < banks)) 9, t.grantBad w o.d]

/-- The operands of a multiply are in their frames. -/
def State.operandsIn (s : State) (c b : Nat) (ns : List Nat) : Bool :=
  ns.all fun n => ((s.block? c b).elim {} fun x => Tbl.at x.handles n {} : Handle).fill.isNone

/-- R181: a multiply has issued: it takes its place behind the core's earlier ones. A paired one starts once its operands have come and the follower's
array is free. -/
def State.startMultiply (s : State) (w : Who) (o : OpT) (paired : Bool) : State :=
  match s.grantOf w o.d with
  | none => s
  | some g =>
    let id := s.nextId
    let ty := (pairType (s.myHandle w o.a).shape (s.myHandle w o.b).shape).getD 1
    let m : MatOp := { id := id, uid := w.h.uid, slot := w.h.slot, grant := g.serial, ha := o.a, hb := o.b, paired := paired,
                       started := !paired || ((s.core (w.c ^^^ 1)).mats.isEmpty && s.operandsIn w.c w.h.slot [o.a, o.b]) }
    let s1 := ({ s with nextId := id + 1 } : State).onCore w.c fun co =>
      { co.setGrantType g ty with mats := co.mats ++ [m] }
    if m.started then s1.push .mmaPerform [w.c, id] else s1.push .mmpStart [w.c]

/-- The operands of a multiply are resident and the neighbour's array is free. -/
def multiplyHold (o : OpT) (w : Who) (t : State) : Option State :=
  match t.grantHold w o.d false true with
  | some u => some u
  | none => t.residentHold w [o.a, o.b] []

/-- `MMA` (R180). -/
def execMma (o : OpT) (s : State) : Out :=
  issue (fun w t => t.tileReads w [o.a, o.b] { hs := [o.a, o.b], us := [o.d] }) (multiplyCheck 256 4 o) (multiplyHold o)
    (fun w t => t.startMultiply w o false) s

/-- R10, R181: the core's pair shares the columns of a wide multiply. -/
def State.pairsFor (s : State) (c cols : Nat) : Bool := 256 < cols && s.pairOk (c / 2) && s.present (c ^^^ 1)

/-- R412: the core's wide partner takes the columns from 256 on for this context. -/
def State.bindsWide (s : State) (c asid : Nat) : Bool := (s.hubReg (0x710000 + 8 * asid)).getLsbD 0 && s.hasWide c

/-- R181: the multiply shares its columns with the core's neighbour. -/
def State.isPaired (s : State) (w : Who) (o : OpT) : Bool :=
  !s.bindsWide w.c w.h.asid && s.pairsFor w.c (s.myHandle w o.b).shape.cols

/-- R181: a paired `MMP` issues while its operands are filling and waits for them then, so that the neighbour's matrix issue is held from its own issue
on. A non-resident operand forces its fetch first (R167), and one that an eviction still frees is waited for (R168). -/
def pairedHold (o : OpT) (w : Who) (t : State) : Option State :=
  match t.grantHold w o.d false true with
  | some u => some u
  | none =>
    match [o.a, o.b].find? fun n => (t.myHandle w n).leaves w.h.uid with
    | some n => some (t.waitIn w 7 (.tile n))
    | none => ([o.a, o.b].find? fun n => (t.myHandle w n).state == .nonResident).map fun n => t.forceFetch w n

/-- `MMP` (R181, R412). -/
def execMmp (o : OpT) (s : State) : Out :=
  issue (fun w t => t.tileReads w [o.a, o.b] { hs := [o.a, o.b], us := [o.d] }) (multiplyCheck 512 8 o)
    (fun w t => if t.isPaired w o then pairedHold o w t else multiplyHold o w t)
    (fun w t => t.startMultiply w o (t.isPaired w o)) s

/-- A multiply has performed, or never will: what waited for it goes on. -/
def State.retireMultiply (s : State) (c : Nat) (m : MatOp) : State :=
  let s1 := s.onCore c fun co => { co with mats := co.mats.filter fun x => x.id != m.id }
  let s2 := (((s1.freeTile c m.slot m.ha).freeTile c m.slot m.hb).retryHolds c (· == .grant)).retryHolds (c ^^^ 1) (· == .grant)
  let s3 := match s2.whereIs m.uid with
    | some (c', k) => ((s2.releaseOrphans c m.slot).checkBlock c m.slot).notify c' k
    | none => (s2.releaseOrphans c m.slot).checkBlock c m.slot
  if (s3.core (c ^^^ 1)).mats.any (fun x => x.paired && !x.started) then s3.pushOnce .mmpStart [c ^^^ 1] else s3

/-- An operand of a multiply never comes: its fill has failed, and its cohort has ended (log entry 16). -/
def State.lostOperand (s : State) (c : Nat) (m : MatOp) : Bool :=
  [m.ha, m.hb].any fun n => match ((s.block? c m.slot).elim {} fun x => Tbl.at x.handles n {} : Handle).fill with
    | some t => t.held && ((s.whereIs t.uid).bind fun p => s.cohort? p.1 p.2).all (·.ending) && (s.awayAt t.uid).isNone
    | none => false

/-- MMP_START (R181): a paired multiply starts once its operands have come and the follower's array is free. -/
def execMmpStart (s : State) : Out :=
  let c := s.arg 0
  match (s.core c).mats.find? fun m => m.paired && !m.started with
  | none => .next s
  | some m =>
    if s.lostOperand c m then .next (s.retireMultiply c m)
    else if !(s.core (c ^^^ 1)).mats.isEmpty || !s.operandsIn c m.slot [m.ha, m.hb] then .next s
    else .next ((s.onCore c fun co => { co with mats := co.mats.map fun x => if x.id = m.id then { x with started := true } else x }).push
      .mmaPerform [c, m.id])

/-- MMA_PERFORM (R180): the oldest multiply of the core performs, and what waited for it goes on. -/
def execMmaPerform (s : State) : Out :=
  let c := s.arg 0
  match (s.core c).mats with
  | [] => .next s
  | m :: rest =>
    if m.id != s.arg 1 then (if rest.any (·.id == s.arg 1) then .next (s.push .mmaPerform [c, s.arg 1]) else .next s)
    else
      let hnd (n : Nat) : Handle := (s.block? c m.slot).elim {} fun b => Tbl.at b.handles n {}
      let s1 := match (s.core c).grants.find? fun g => g.slot == m.slot && g.serial == m.grant with
        | some g => s.multiply c g (hnd m.ha) (hnd m.hb)
        | none => s
      .next (s1.retireMultiply c m)

/-! Epilogue (R182). -/

/-- The epilogue descriptor (R182). -/
structure Epi where
  row0 : Nat
  col0 : Nat
  ben : Bool
  bias : Nat
  sen : Bool
  scale : Nat
  ltag : Nat
  gscale : Nat
  deriving DecidableEq, Repr

/-- R182: the descriptor in a register. -/
def epiOf (q : DWord) : Epi :=
  { row0 := bitsAt q 63 56, col0 := 32 * bitsAt q 55 52, ben := q.getLsbD 51, bias := bitsAt q 50 45, sen := q.getLsbD 44,
    scale := bitsAt q 43 38, ltag := bitsAt q 37 32, gscale := bitsAt q 31 0 }

/-- R182: the handles that a descriptor names. -/
def Epi.handles (e : Epi) : List Nat := (if e.sen then [e.scale] else []) ++ if e.ben then [e.bias] else []

/-- R182: the value of an accumulator element on its way through the epilogue, as fp32 bits; scale and bias of its column. -/
def Epi.scaled (e : Epi) (ty c : Nat) (sc bi : Nat) : Nat :=
  let rnd (v : Num.FVal) : Nat := Num.pack .fp32 0 false 0 0 v
  let y0 := if ty = 2 then rnd (Num.valueOf 3 0 c) else c
  let y1 := Num.fmul .fp32 0 y0 e.gscale
  let y2 := if e.sen then Num.fmul .fp32 0 y1 sc else y1
  if e.ben then Num.fadd .fp32 0 y2 bi else y2

/-- R182: an i32 element goes straight to an integer target. -/
def Epi.exact (e : Epi) (ty t : Nat) : Bool := ty == 2 && !e.sen && !e.ben && e.gscale == 0x3f800000 && (Num.intOf t).isSome && t != 0

/-- R182: an element of the region as bits of a target that is not a shared-exponent format. -/
def Epi.convert (e : Epi) (ty t rm ph j c sc bi : Nat) : Nat :=
  if e.exact ty t then Num.convert 3 0 t true 0 0 0 c else Num.convert 0x11 0 t false rm (j % 32) ph (e.scaled ty c sc bi)

/-- R164, R182: a scale or bias tile is not fp32, has too few columns, or has more than 256 in the lane form. In the tile form one may serve a region as
wide, as in the program of R387. -/
def badSide (h : Handle) (cols : Nat) (lane : Bool) : Bool := h.tag != 0x11 || h.cols + 1 < cols || (lane && 256 < h.cols + 1)

/-- The scale and the bias of column `j`, with their poison, from the tiles' contents. -/
def sideAt (x : Option (TShape × TImg)) (j : Nat) : Nat × Bool :=
  match x with
  | none => (0, false)
  | some (t, y) => (y.elems.getD (t.index 0 j) 0, y.isBad (t.index 0 j))

/-- The contents of the scale tile and of the bias tile. -/
def State.sides (s : State) (w : Who) (e : Epi) : Option (TShape × TImg) × Option (TShape × TImg) × State :=
  let rd (t : State) (n : Nat) : Option (TShape × TImg) × State := match t.readTile w n (t.myHandle w n).allGranules with
    | (.ok x, u) => (some ((t.myHandle w n).shape, x), u)
    | (.error _, u) => (none, u)
  let a := if e.sen then rd s e.scale else (none, s)
  let b := if e.ben then rd a.2 e.bias else (none, a.2)
  (a.1, b.1, b.2)

/-- R182: what the epilogue gives for element (r, j) of its region: bits of the target and poison. -/
def State.epiAt (s : State) (w : Who) (g : Grant) (e : Epi) (x : Option (TShape × TImg) × Option (TShape × TImg)) (t rm ph r j : Nat) :
    Nat × Nat × Bool :=
  let c := s.accAt w.c g (e.row0 + r) (e.col0 + j)
  let sc := sideAt x.1 j
  let bi := sideAt x.2 j
  (e.convert g.ty t rm ph j c.1 sc.1 bi.1, e.scaled g.ty c.1 sc.1 bi.1, c.2 || sc.2 || bi.2)

/-- R182: the contents that the epilogue gives a tile. -/
def State.epiTile (s : State) (w : Who) (g : Grant) (e : Epi) (x : Option (TShape × TImg) × Option (TShape × TImg)) (t : TShape)
    (rm ph : Nat) : TImg :=
  let at_ (i : Nat) : Nat × Nat × Bool := s.epiAt w g e x t.tag rm ph (t.coord i).1 (t.coord i).2
  match t.sx with
  | some m =>
    let blocks := (List.range t.blocks).map fun b =>
      let es := (List.range 32).map fun j => if t.inside (32 * b + j) then (at_ (32 * b + j)).2 else (0, false)
      (Num.toSX (es.map fun y => Num.unpack .fp32 y.1) m false rm ph, es.map Prod.snd)
    { elems := blocks.flatMap fun y => y.1.2.map fun v => Num.intBits m v, bad := blocks.flatMap Prod.snd
      exps := blocks.map fun y => y.1.1, ebad := blocks.map fun y => y.2.any id }
  | none =>
    { elems := (List.range t.count).map fun i => (at_ i).1 % 2 ^ Num.bitsOf t.tag, bad := (List.range t.count).map fun i => (at_ i).2.2
      exps := [], ebad := [] }

/-- R38, R182: the split's phase after a conversion under dither. -/
def Cohort.ditherStep (h : Cohort) (i rm : Nat) : Cohort := if rm = 5 then h.onSplit i fun sp => { sp with dph := sp.dph + 1 } else h

/-- R182, R401: the tile form performs, or its bound trap is to hold it. Answers the address of the first element that fails, where one traps (R331). DEDUCED
(log entry 40): that address lies in the tile's backing image. The phase advances at issue, whether or not the instruction performs again later. -/
def State.acrdTile (s : State) (w : Who) (o : OpAcrd) : Option Nat × State :=
  match s.grantOf w o.a with
  | none => (none, s)
  | some g =>
    let e := epiOf (w.h.uq o.b)
    let h := s.myHandle w o.d
    let x := s.sides w e
    let img := s.epiTile w g e (x.1, x.2.1) h.shape o.r w.sp.dph.toNat
    let s1 := x.2.2.onCohort w.c w.k (·.ditherStep w.i o.r)
    match s1.tileBound w.h.asid h with
    | none => (none, s1.putTile w.c h h.shape img)
    | some (n, r) =>
      let chk := r.checkTile h.shape none img
      let s2 := if chk.2.isSome then s1.setBstat w.c w.k (1#32 <<< n) else s1
      match chk.2, r.action == 2 with
      | some i, true => (some (h.backing + (h.shape.place i).1 / 8), s2)
      | _, _ => (none, s2.putTile w.c h h.shape chk.1)

/-- R182, R224: the lane form. A lane that turns grey is not written. -/
def State.acrdLanes (s : State) (w : Who) (o : OpAcrd) : State :=
  match s.grantOf w o.a with
  | none => s
  | some g =>
    let e := epiOf (w.h.uq o.b)
    let x := s.sides w e
    let m := w.h.active w.sp
    let el (l : Nat) : Nat × Nat × Bool := s.epiAt w g e (x.1, x.2.1) e.ltag o.r w.sp.dph.toNat 0 l
    let grey := maskOf fun l => inMask m l && (el l).2.2
    let m' := m &&& ~~~grey
    let s1 := x.2.2.onCohort w.c w.k fun h0 =>
      let h : Cohort := { h0 with dmask := h0.dmask ||| grey }
      let h1 := match Num.sxOf e.ltag with
        | some k =>
          let y := Num.toSX ((List.range 32).map fun l => if inMask m' l then Num.unpack .fp32 (el l).2.1 else .fin false 0 0) k false o.r w.sp.dph.toNat
          h.setBlockLanes o.d m' e.ltag y.1 fun l => y.2.getD l 0
        | none => h.setLanes o.d m' e.ltag fun l => BitVec.ofNat 32 (el l).1
      { h1.ditherStep w.i o.r with dmask := h0.dmask }
    s1.greyLanes w.c w.k grey w.sp.pc.toNat

/-- The rows and columns of the epilogue's region. -/
def State.epiSize (s : State) (w : Who) (o : OpAcrd) : Nat × Nat :=
  if o.l = 1 then (1, 32) else ((s.myHandle w o.d).rows + 1, (s.myHandle w o.d).cols + 1)

/-- R182: the faults of an epilogue read. DESIGN CHOICE (log entry 97): a descriptor that names a scale or bias handle at or above the block's handle count
raises code 9; the spec is silent on it. -/
def acrdCheck (o : OpAcrd) (w : Who) (t : State) : Option Bad :=
  let e := epiOf (w.h.uq o.b)
  let sz := t.epiSize w o
  let own (n : Nat) : Option Bad := t.notOwner w n
  let tags := (e.handles.filter (· < t.handleCount w) ++ if o.l = 1 then [] else [o.d]).map fun n => t.tileTag w n
  firstBad ([badIf (!Num.goodTag e.ltag) 6] ++ tags ++ (if o.l = 1 then [] else [own o.d]) ++ e.handles.map own ++
    [badIf ((o.l == 1 && (e.ltag == 0 || Num.wideTag e.ltag)) || (o.l == 0 && e.ltag != 0) ||
        e.handles.any (fun n => t.handleCount w ≤ n || badSide (t.myHandle w n) sz.2 (o.l == 1)) ||
        (t.grantOf w o.a).elim false fun g => !g.holds (e.row0 + sz.1) (e.col0 + sz.2)) 9,
     t.grantBad w o.a])

/-- R182: what holds an epilogue read: multiplies on the grant, the tile that it writes, and the scale and the bias, which are operands. DESIGN CHOICE (log
entry 97): a tile that it writes and that is not resident is fetched first, as the scale and the bias are; the spec says so of those two. -/
def acrdHold (o : OpAcrd) (w : Who) (t : State) : Option State :=
  match t.grantHold w o.a true false with
  | some u => some u
  | none => t.residentHold w (epiOf (w.h.uq o.b)).handles (if o.l = 1 then [] else [o.d])

/-- `ACRD` (R182). -/
def execAcrd (o : OpAcrd) (s : State) : Out :=
  issue
    (fun w t =>
      let hs := (if o.l = 1 then [] else [o.d]) ++ (epiOf (w.h.uq o.b)).handles.filter (· < t.handleCount w)
      t.tileReads w hs { hs := hs, us := [o.a, o.b], vd := if o.l = 1 then [o.d] else [], whole := o.l != 1 })
    (acrdCheck o) (acrdHold o)
    (fun w t =>
      if o.l = 1 then t.acrdLanes w o
      else
        match t.acrdTile w o with
        | (none, u) => u
        | (some va, u) =>
          let x := { w.transfer true false (t.myHandle w o.d).backing (w.h.seq + 1) with
            held := true, code := 15, fva := va, grant := w.h.uq o.a, desc := w.h.uq o.b, phase := w.sp.dph }
          ((u.setHandle w.c w.h.slot o.d { u.myHandle w o.d with writes := (u.myHandle w o.d).writes ++ [x] }).onCohort w.c w.k
            Cohort.halt).notify w.c w.k) s

/-- `ACLD` (R183). DESIGN CHOICE (log entry 97): a tile that is not resident is fetched first, and one that is filling is waited for; the spec does not say. -/
def execAcld (a q : Nat) (s : State) : Out :=
  issue (fun w t => t.tileReads w [a] { hs := [a], us := [q] })
    (fun w t =>
      let h := t.myHandle w a
      let g := t.grantOf w q
      let ty := if h.tag = 0x11 then 1 else 2
      firstBad [t.tileTag w a, badIf ((h.tag != 0x11 && h.tag != 3) || (g.elim false fun g => g.ty != 0 && g.ty != ty)) 6, t.notOwner w a,
        badIf (g.elim false fun g => !g.holds (h.rows + 1) (h.cols + 1)) 9, t.grantBad w q])
    (fun w t => match t.grantHold w q true true with
      | some u => some u
      | none => t.residentHold w [a] [])
    (fun w t =>
      match t.grantOf w q with
      | none => t
      | some g =>
        let h := t.myHandle w a
        let x := t.tileImg w.c h
        let sh := h.shape
        ((List.range sh.count).foldl (fun (u : State) i =>
          u.setAcc w.c g (sh.coord i).1 (sh.coord i).2 (x.elems.getD i 0) (x.isBad i)) t).onCore w.c fun co =>
          co.setGrantType g (if h.tag = 0x11 then 1 else 2)) s

/-! Writes of tiles that have started. -/

/-- The cohort that a transfer belongs to, as the issuer of its instruction: with the phase that the split had then, and no split of today's, which has
gone on and has advanced its phase. -/
def State.issuerOf (s : State) (x : Transfer) : Option Who :=
  match s.whereIs x.uid with
  | none => none
  | some (c, k) => (s.cohort? c k).map fun h => { c := c, k := k, i := 8, h := h, sp := { dph := x.phase }, word := x.word, len := 4 }

/-- The cohort of a transfer has a late store fault, so that none of its younger writes performs (R336). -/
def State.writeStuck (s : State) (x : Transfer) : Bool :=
  match s.whereIs x.uid with
  | none => false
  | some (c, k) => (s.cohort? c k).elim false (·.writeStuck x.seq)

/-- The oldest write of a handle that nothing holds performs (R166, R169, R331). -/
def State.performWrite (s : State) (c b n : Nat) (bl : Block) (h : Handle) (x : Transfer) : State :=
  let asid := (Tbl.find? s.launches bl.launch).elim 0 (·.asid)
  if x.code = 255 then s.endWrite c b n x
  else match decodeWord x.word, s.issuerOf x with
    | .ok (.acrd o), some w =>
      match s.acrdTile { w with h := (w.h.setQ o.a x.grant 0).setQ o.b x.desc 0 } o with
      | (none, u) => u.endWrite c b n x
      | (some va, u) => u.holdWrite c b n x 15 va
    | _, _ =>
      if h.state = .nonResident then
        match s.readImage c asid bl.gang h.backing h.memShape with
        | (.error e, s1) => s1.holdWrite c b n x e.1 e.2
        | (.ok y, s1) => s1.writeTile c b n h asid bl.gang x (applyLog h.log h.memShape y).2
      else s.writeTile c b n h asid bl.gang x (s.tileImg c h)

/-- R276 to R278: the lines that a write of a tile reads and writes do not make it wait at their slices. -/
def State.tileReady (s : State) (c : Nat) (bl : Block) (h : Handle) (x : Transfer) : Bool :=
  let asid := (Tbl.find? s.launches bl.launch).elim 0 (·.asid)
  x.code == 255 || x.grant != 0 || ((h.state != .nonResident || s.spanReady c asid bl.gang .load (h.memShape.spans h.backing)) &&
    s.spanReady c asid bl.gang .store (h.shape.spans x.va))

/-- TILE_WRITE_COMPLETE (R166, R169): the write of a `TST` or `TEVICT` performs. -/
def execTileWriteComplete (s : State) : Out :=
  let c := s.arg 0
  let b := s.arg 1
  let n := s.arg 2
  match s.block? c b with
  | none => .next s
  | some bl =>
    let h := Tbl.at bl.handles n {}
    match h.writes.find? fun x => !x.held with
    | none => .next s
    | some x =>
      if s.writeStuck x then .next s
      else if !s.tileReady c bl h x then .next (s.push .tileWriteComplete [c, b, n])
      else
        let s1 := s.performWrite c b n bl h x
        .next (if (h.writes.filter fun y => !y.held).length ≤ 1 then s1 else s1.pushOnce .tileWriteComplete [c, b, n])

end Sys2Proof.Machine
end

