-- ==== Sys2Proof/Machine/Power.lean ====
section
/-! DEFINITION. The governor and the power limit (R422, R423). -/

namespace Sys2Proof.Machine

open Sys2Proof

/-- GOVERNOR_WINDOW (R422): the step of a core's next window by the gated lane-cycles of the last, unless the power limit is on. -/
def execGovernorWindow (s : State) : Out :=
  .next (s.onCore (s.arg 0) fun co =>
    { co with govStep := if s.boot.capped then 0 else min 3 (8 * co.gated / 524288), gated := 0 })

/-- R423: how many cycles a quad is held idle in one of, after an estimate. -/
def nextThrottle (n est cap : Nat) (capped : Bool) : Nat :=
  if cap < est then (if !capped then n else if n = 0 then 16 else max 2 (n / 2))
  else if est * 10 < cap * 9 then (if 8 < n then 0 else 2 * n) else n

/-- POWER_ESTIMATE (R423): the estimate of a period compared with the limit. -/
def execPowerEstimate (s : State) : Out :=
  let est := (Config.powerEstimate (s.net.hubClock / 65536)).toNat
  let cap := (s.hubReg 0x720100).toNat % 2 ^ 16
  let n := nextThrottle (bitsAt (s.hubReg 0x720108) 39 32) est cap s.boot.capped
  let s1 := s.setHub 0x720108 (BitVec.ofNat 64 (n * 2 ^ 32 + est))
  .next { s1 with
    boot := { s1.boot with capped := decide (cap < est) }
    cores := if cap < est then Tbl.mapv s1.cores fun _ co => { co with govStep := 0 } else s1.cores }

end Sys2Proof.Machine
end

