-- ==== Sys2Proof/Machine/Slices.lean ====
section
/-! DEFINITION. What the home slices do with the accesses that arrive (R275 to R278): hits, misses, writes and their way to memory. -/

namespace Sys2Proof.Machine

open Sys2Proof

/-- The line that an access is on. -/
def Access.line (a : Access) : Nat := (a.lanes.headD { lane := 0, va := 0 }).pa / 128

/-- An access returns or changes what a fill has to bring first: every kind but plain writes (R277, R278). -/
def AccKind.needsLine : AccKind → Bool
  | .store => false
  | .wback => false
  | _ => true

/-- R150: an atomic, which at block or cluster scope takes its line for the cluster unit. -/
def AccKind.isAtomic : AccKind → Bool
  | .load => false
  | .store => false
  | .wback => false
  | _ => true

/-- R150, R152: the atomic performs at its core's cluster unit: of block or cluster scope, and no reduction on a narrow floating type. -/
def Access.atCluster (a : Access) : Bool :=
  a.kind.isAtomic && a.scope ≤ 1 && (match a.kind with | .redm _ ty => decide (ty < 5) | _ => true)

/-- R150, R151, R276: the line is recalled from a cluster unit elsewhere, and from every one for an atomic that performs at the home slice; one that performs
at its cluster unit takes the line there; a write makes it dirty. -/
def Slice.takeIn (sl : Slice) (a : Access) : Slice :=
  let sl1 := sl.recall a.line (if a.kind.isAtomic && !a.atCluster then none else some (a.core / 4))
  let sl2 := if a.atCluster then sl1.own a.line (a.core / 4) else sl1
  if a.kind = .load then sl2 else sl2.soil a.line

/-- A slice performs an access: bytes are read or changed, and what it found is bound. A load brings the bytes of the whole line (R242). The answer
leaves with stage 1; with stage 2 it waits for the fill of the line. -/
def State.slicePerform (s : State) (id : Nat) (a : Access) (stage : Nat) : State :=
  let r := ((s.captureQueue a).onSlice (homeOf (a.line * 128)) fun sl => sl.takeIn a).serve a
  let data := if a.kind = .load then r.2.2.peekBytes (a.line * 128) 128 else []
  let s1 := r.2.2.performed id a r.1 r.2.1 data stage
  if stage = 1 then s1.respond id a else s1

/-- R276, R278: a write arrives. A line that the slice holds is updated, and another passes to memory through the write-back buffer or a reserved
slot, for which it may have to wait. `again` is the row that brings it then. -/
def State.sliceWrite (s : State) (id : Nat) (a : Access) (again : Due) : State :=
  let n := homeOf (a.line * 128)
  if (s.slice n).holds a.line then s.slicePerform id a 1
  else match (s.slice n).buffer a.line with
    | some sl => ((s.setSlice n sl).slicePerform id a 1).sendBack n a.line
    | none => s.pushAll [again]

/-- R276: an access arrives at its slice once the accesses of its core that it must follow have been served; it is served after those to its line that
arrived before it. None where it has to wait, with the state that has it listed. -/
def State.arrive (s : State) (id : Nat) (a : Access) : Option Access × State :=
  if s.overtakes id a then (none, s)
  else
    let b : Access := if a.stamp = 0 then { a with stamp := s.nextId } else a
    let s1 : State := if a.stamp = 0 then { s with accs := Tbl.put s.accs id b, nextId := s.nextId + 1 } else s
    (if s1.passes id b then none else some b, s1)

/-- R286: an access passes its slice, and its controller where the slice does not hold the line: an engine's within its budget, any other unless an activity
takes priority there. -/
def State.slicePass (s : State) (a : Access) : Option State :=
  let path := s.fsPath none a.line
  if a.chain != 0 then s.fsPass 4 path else if s.fsYields 8 path then none else some s

/-- R277, R278: the slice can take an access now: it holds the line, or has room for it in the miss table or on the way of a write to memory. -/
def State.sliceRoom (s : State) (a : Access) : Bool :=
  let sl := s.slice (homeOf (a.line * 128))
  sl.holds a.line || (if a.kind.needsLine then (sl.miss a.line a.reuse [0]).isSome else (sl.buffer a.line).isSome)

/-- SLICE_ACCESS (R275 to R278, R286): an access arrives at the home slice of its line. One that misses takes an entry or joins one, and is answered when
the line has come; it performs in the order of arrival. -/
def execSliceAccess (s : State) : Out :=
  let id := s.arg 0
  match Tbl.find? s.accs id with
  | none => .next s
  | some a0 =>
    if a0.stage != 0 then .next s
    else match s.arrive id a0 with
      | (none, s0) => .next (s0.push .sliceAccess [id])
      | (some a, s0) =>
        match (if s0.sliceRoom a then s0.slicePass a else none) with
        | none => .next (s0.push .sliceAccess [id])
        | some s1 =>
          let n := homeOf (a.line * 128)
          let sl := s1.slice n
          if !a.kind.needsLine then .next (s1.sliceWrite id a { row := .sliceAccess, ops := [id] })
          else if sl.holds a.line then .next ((if a.kind.returns then s1.onSlice n fun y => y.touch a.line else s1).slicePerform id a 1)
          else match sl.miss a.line a.reuse [id] with
            | none => .next (s1.push .sliceAccess [id])
            | some r =>
              let s2 := (s1.setSlice n r.2).slicePerform id a 2
              .next (if r.1 then s2.push .sliceFillComplete [n, a.line] else s2)

/-- The answer to an access that waited for its line. -/
def State.answerJoined (s : State) (id : Nat) : State :=
  match Tbl.find? s.accs id with
  | none => s
  | some a => if a.stage = 2 then ({ s with accs := Tbl.put s.accs id { a with stage := 1 } } : State).respond id { a with stage := 1 } else s

/-- SLICE_FILL_COMPLETE (R275, R277): a line arrives from memory, merged with the bytes that wait on their way there (R278); the victim of
its set leaves, its shadow narrowed first (R152), and the requests that joined are answered in order. -/
def execSliceFillComplete (s : State) : Out :=
  let n := s.arg 0
  let line := s.arg 1
  let sl := s.slice n
  match sl.missOf line with
  | none => .next s
  | some e =>
    match sl.fill line e.reuse e.soiled with
    | none => .next (s.push .sliceFillComplete [n, line])
    | some r =>
      let s1 := s.setSlice n { r.2 with misses := r.2.misses.filter fun x => x.line != line }
      let s2 := match r.1 with
        | some w => if w.dirty then (s1.narrow w.line).sendBack n w.line else s1.narrow w.line
        | none => s1
      .next (e.ids.foldl State.answerJoined s2)

/-- SLICE_WRITEBACK (R148, R278): dirty bytes arrive at the home slice of their line. -/
def execSliceWriteback (s : State) : Out :=
  let id := s.arg 0
  match Tbl.find? s.accs id with
  | none => .next s
  | some a0 =>
    if a0.stage != 0 then .next s
    else match s.arrive id a0 with
      | (none, s1) => .next (s1.push .sliceWriteback [id])
      | (some a, s1) =>
        if s1.fsYields 8 (s1.fsPath none a.line) then .next (s1.push .sliceWriteback [id])
        else .next (s1.sliceWrite id a { row := .sliceWriteback, ops := [id] })

/-- WRITE_BACK_DRAIN (R270, R278): the memory controller of a line completes a write of the slice, from the slots that it reserves, or from the buffer where
they are empty; the packet that brought it is acknowledged. -/
def execWriteBackDrain (s : State) : Out :=
  let n := s.arg 0
  let line := s.arg 1
  .next ((s.setSlice n ((s.slice n).drain line)).onNet fun m => { m with flowCount := Tbl.adj m.flowCount (flowKey 2 (sliceRouter n) (ctlRouter line)) (· - 1) })

end Sys2Proof.Machine
end

