-- ==== Sys2Proof/Machine/Spdm.lean ====
section
/-! DEFINITION. The SPDM responder of the host complex (R385, R386, R428). Answers are known by the response codes of SPDM 1.3 (log entry 42). -/

namespace Sys2Proof.Machine

open Sys2Proof

/-- R386: an answer: none while the package is off, and the error Busy until the operating system has started. -/
def State.spdmReply (s : State) (r : Reply) : State :=
  if s.boot.stage = 0 then s
  else if s.boot.stage < 3 then { s with spdm := s.spdm ++ [{ what := 0x7f, value := 0x03 }] }
  else { s with spdm := s.spdm ++ [r] }

/-- SPDM_GET_VERSION (R385): version 1.3. -/
def execSpdmGetVersion (s : State) : Out := .next (s.spdmReply { what := 0x04, value := 0x13 })

/-- SPDM_GET_CAPABILITIES (R385): the capabilities, which the spec leaves open. -/
def execSpdmGetCapabilities (s : State) : Out := .next (s.draw.2.spdmReply { what := 0x61, value := s.draw.1.toNat })

/-- SPDM_NEGOTIATE_ALGORITHMS (R428): of the algorithms that are asked for, Ed448 in the upper and SHA3-512 in the lower 32 bits are selected. -/
def execSpdmNegotiateAlgorithms (s : State) : Out := .next (s.spdmReply { what := 0x63, value := s.arg 0 &&& 0x80000000020 })

/-- SPDM_GET_DIGESTS (R385): the digest of the certificate chain. -/
def execSpdmGetDigests (s : State) : Out := .next (s.spdmReply { what := 0x01, value := Config.sha3 (Config.certificate 0) })

/-- SPDM_GET_CERTIFICATE (R385, R425): the vendor's certificate for the device identity key. -/
def execSpdmGetCertificate (s : State) : Out := .next (s.spdmReply { what := 0x02, value := Config.certificate 0 })

/-- SPDM_CHALLENGE (R428): a signature with the device identity key. -/
def execSpdmChallenge (s : State) : Out := .next (s.spdmReply { what := 0x03, value := Config.signature (s.arg 0) })

/-- R426, R428: the six measurements of 64 bytes in index order, the first in the lowest bytes. -/
def State.measurements (s : State) : Nat :=
  (List.range 6).foldl (fun n i => n + Tbl.at s.boot.measured (i + 1) 0 % 2 ^ 512 * 2 ^ (512 * i)) 0

/-- SPDM_GET_MEASUREMENTS (R428). -/
def execSpdmGetMeasurements (s : State) : Out := .next (s.spdmReply { what := 0x60, value := s.measurements })

/-- SPDM_UNSUPPORTED_REQUEST (R385): any other request gets the error UnsupportedRequest. -/
def execSpdmUnsupportedRequest (s : State) : Out := .next (s.spdmReply { what := 0x7f, value := 0x07 })

end Sys2Proof.Machine
end

