-- ==== Sys2Proof/Machine/UliahOps.lean ====
section
/-! DEFINITION. The Uliah instructions (R359 to R368). A handler runs them; operand 0 of the row at hand names it. -/

namespace Sys2Proof.Machine

open Sys2Proof

/-! Running an instruction. -/

/-- Register `n` of a handler; e0 reads zero (R359). -/
def Handler.reg (h : Handler) (n : Nat) : DWord := if n = 0 then 0 else Tbl.at h.e n 0

/-- Register `n` written; a write of e0 is discarded (R359). -/
def Handler.put (h : Handler) (n : Nat) (v : DWord) : Handler := if n = 0 then h else { h with e := Tbl.put h.e n v }

/-- The handler past its instruction. -/
def Handler.past (h : Handler) : Handler := { h with pc := h.pc + 1, count := h.count + 1, comb := none }

/-- A handler put in place. -/
def State.setHandler (s : State) (id : Nat) (h : Handler) : State := s.onUl fun u => { u with handlers := Tbl.put u.handlers id h }

/-- A handler's fault (R366). -/
def State.ulFault (s : State) (h : Handler) (code extra : Nat) : State := s.haltWindow h.win code h.pc extra

/-- An instruction of the handler at hand, which may have executed 65,535 before it (R361). -/
def uliah (f : Nat → Handler → State → State) (s : State) : Out :=
  match Tbl.find? s.ul.handlers (s.arg 0) with
  | none => .fault .noHandler
  | some h => if 65536 ≤ h.count then .next (s.ulFault h 8 0) else .next (f (s.arg 0) h s)

/-- An instruction that only writes a register. -/
def uliahPut (d : Nat) (f : Handler → DWord) (s : State) : Out := uliah (fun id h t => t.setHandler id (h.put d (f h)).past) s

/-! Registers and branches (R361). -/

/-- A field of `n` bits as a signed doubleword. -/
def sext64 (n i : Nat) : DWord := BitVec.ofInt 64 (Num.sintOf n i)

/-- `ULI` (R361). -/
def execUli (d i : Nat) (s : State) : Out := uliahPut d (fun _ => sext64 19 i) s

/-- `UADDI` (R361). -/
def execUaddi (o : OpUi) (s : State) : Out := uliahPut o.d (fun h => h.reg o.a + sext64 15 o.i) s

/-- `UADD` (R361). -/
def execUadd (o : OpUr) (s : State) : Out := uliahPut o.d (fun h => h.reg o.a + h.reg o.b) s

/-- `USUB` (R361). -/
def execUsub (o : OpUr) (s : State) : Out := uliahPut o.d (fun h => h.reg o.a - h.reg o.b) s

/-- `UAND` (R361). -/
def execUand (o : OpUr) (s : State) : Out := uliahPut o.d (fun h => h.reg o.a &&& h.reg o.b) s

/-- `UOR` (R361). -/
def execUor (o : OpUr) (s : State) : Out := uliahPut o.d (fun h => h.reg o.a ||| h.reg o.b) s

/-- `USHL` (R361). -/
def execUshl (o : OpUr) (s : State) : Out := uliahPut o.d (fun h => h.reg o.a <<< ((h.reg o.b).toNat % 64)) s

/-- `USHR` (R361). -/
def execUshr (o : OpUr) (s : State) : Out := uliahPut o.d (fun h => h.reg o.a >>> ((h.reg o.b).toNat % 64)) s

/-- A branch target: the word's own index moved by a signed offset; none outside program memory (R360, R366). -/
def ulTarget (pc off : Nat) : Option Nat :=
  let t := (pc : Int) + Num.sintOf 16 off
  if 0 ≤ t ∧ t < 4096 then some t.toNat else none

/-- R361: a condition of `UBR`, signed or unsigned. -/
def ulCond (c : Nat) (a b : DWord) : Bool :=
  match c with
  | 0 => a == b
  | 1 => a != b
  | 2 => a.slt b
  | 3 => !a.slt b
  | 4 => a.ult b
  | _ => !a.ult b

/-- The handler at a branch target, or its fault. -/
def State.ulJump (s : State) (id : Nat) (h : Handler) (off : Nat) : State :=
  match ulTarget h.pc off with
  | some t => s.setHandler id { h.past with pc := t }
  | none => s.ulFault h 2 0

/-- `UBR` (R361). -/
def execUbr (o : OpUbr) (s : State) : Out :=
  uliah (fun id h t => if ulCond o.c (h.reg o.a) (h.reg o.b) then t.ulJump id h o.o else t.setHandler id h.past) s

/-- `UJMP` (R361). -/
def execUjmp (o : Nat) (s : State) : Out := uliah (fun id h t => t.ulJump id h o) s

/-- `UEND` (R361): the handler ends, and its partial is discarded. -/
def execUend (s : State) : Out := uliah (fun id h t => t.endHandler id h) s

/-- `UFAULT` (R361): the window halts with code 15; its immediate goes into the record. -/
def execUfault (i : Nat) (s : State) : Out := uliah (fun _ h t => t.ulFault h 15 (i % 2 ^ 15)) s

/-! Memory (R361, R365, R369). -/

/-- The address of `ULD` and `UST`. -/
def ulAddr (h : Handler) (a i : Nat) : Nat := (h.reg a + sext64 15 i).toNat

/-- `ULD` (R361, R397): a doubleword read at its home slice; fault 6 where it is misaligned, outside near and far memory, or poisoned. The
handler waits while collective traffic has used up its budget (R286). -/
def execUld (o : OpUi) (s : State) : Out :=
  uliah (fun id h t =>
    let pa := ulAddr h o.a o.i
    if pa % 8 != 0 || !isHomed pa then t.ulFault h 6 0
    else match t.portPass [pa] [] with
      | none => t
      | some u =>
        let r := u.homeRead pa 8 0
        if r.2.poisoned pa 8 then r.2.ulFault h 6 pa else r.2.setHandler id (h.put o.d (BitVec.ofNat 64 r.1)).past) s

/-- `UST` (R361): a doubleword written at its home slice. -/
def execUst (o : OpUst) (s : State) : Out :=
  uliah (fun id h t =>
    let pa := ulAddr h o.a o.i
    if pa % 8 != 0 || !isHomed pa then t.ulFault h 6 0
    else match t.portPass [] [pa] with
      | none => t
      | some u => (u.homeWrite pa (leBytes 8 (h.reg o.b).toNat)).setHandler id h.past) s

/-! Collecting inputs (R357, R358, R362). -/

/-- R357: two elements combined in the window's type. -/
def combineElem (ty op : Nat) (a b : Word) : Word :=
  if ty = 3 ∨ ty = 7 then
    match op with
    | 0 => a + b
    | 1 => if ty = 3 then (if b.slt a then b else a) else if b.ult a then b else a
    | 2 => if ty = 3 then (if a.slt b then b else a) else if a.ult b then b else a
    | 3 => a &&& b
    | 4 => a ||| b
    | _ => a ^^^ b
  else
    match op with
    | 0 => BitVec.ofNat 32 (Num.fadd .fp32 0 a.toNat b.toNat)
    | 1 => BitVec.ofNat 32 (Num.fmin .fp32 a.toNat b.toNat)
    | _ => BitVec.ofNat 32 (Num.fmax .fp32 a.toNat b.toNat)

/-- R362: an input as the first of a partial. -/
def Sum.first (mode ty : Nat) (x : Segment) : Sum :=
  if mode = 1 then
    { elems := (List.range (segElems ty)).map (widenElem ty x.data)
      exps := if (Num.sxOf ty).isSome then (List.range 7).map fun b => (x.data.getD (248 + b) 0).toNat else []
      bad := badElems ty x.bad }
  else {}

/-- R362: bytes put at an offset of a partial. -/
def putBytes (d : List Byte) (off : Nat) (bs : List Byte) : List Byte :=
  (List.range (max d.length (off + bs.length))).map fun i => if off ≤ i ∧ i < off + bs.length then bs.getD (i - off) 0 else d.getD i 0

/-- R362: an input combined into a partial, or placed in it: `slot` is how many ranks lie before it. -/
def Sum.add (p : Sum) (mode ty op slot : Nat) (x : Segment) : Sum :=
  if mode = 1 then
    let q := Sum.first 1 ty x
    if p.elems = [] then { q with rlo := p.rlo, rhi := p.rhi }
    else
      { p with
        elems := (p.elems.zip q.elems).map fun e => combineElem ty op e.1 e.2
        exps := (p.exps.zip q.exps).map fun e => max e.1 e.2
        bad := q.bad.foldl insNat p.bad }
  else { p with data := putBytes p.data (256 * slot) x.data, bad := (x.bad.map (16 * slot + ·)).foldl insNat p.bad }

/-- The inputs of a handler's group. -/
def State.groupInputs (s : State) (h : Handler) : List (Nat × Segment) :=
  List.filter (fun (e : Nat × Segment) => e.2.win == h.win && e.2.tag == h.tag && e.2.round == h.round && e.2.seg == h.seg) s.ul.inputs

/-- R363: the ranges of a handler's group that have been taken: those recorded that no input has. -/
def State.takenRanges (s : State) (h : Handler) : List (Nat × Nat) :=
  (s.ul.seen.filter fun z => z.1 == h.win && z.2.1 == h.tag && z.2.2.1 == h.round && z.2.2.2.1 == h.seg &&
    !(s.groupInputs h).any fun e => e.2.rlo == z.2.2.2.2.1 && e.2.rhi == z.2.2.2.2.2).map fun z => z.2.2.2.2

/-- R362: an input of the group overlaps a range that has been taken. One that equals it is a duplicate, which its port has discarded (R363). -/
def State.overlapped (s : State) (h : Handler) : Bool :=
  (s.groupInputs h).any fun e => (s.takenRanges h).any fun z => e.2.rlo ≤ z.2 && z.1 ≤ e.2.rhi

/-- R362, R363: inputs taken in rank order as far as they are present: the handler waits, has all of them, or faults. -/
def State.collect (s : State) (id : Nat) (h : Handler) (lo hi : Nat) : Nat → Nat → State
  | 0, _ => s.setHandler id h
  | n + 1, r =>
    let mode := s.awMode h.win
    let ty := s.awType h.win
    if s.overlapped h then s.ulFault h 4 0
    else if hi < r then
      s.setHandler id { h.past with part := some { (h.part.getD {}) with rlo := lo, rhi := hi } }
    else
      match (s.groupInputs h).find? fun e => e.2.rlo == r with
      | none =>
        let since := match h.comb with
          | some z => if z.2.2 = r then h.since else s.net.hubClock
          | none => s.net.hubClock
        s.setHandler id { h with comb := some (lo, hi, r), since := since }
      | some e =>
        if hi < e.2.rhi then s.ulFault h 4 0
        else
          let x := s.fetchInput e.2
          let h1 := { h with part := some ((h.part.getD {}).add mode ty (s.awOp h.win) (r - lo) x.1) }
          State.collect (x.2.onUl fun u => { u with inputs := Tbl.del u.inputs e.1 }) id h1 lo hi n (e.2.rhi + 1)

/-- R363: what the inputs of a handler's group have in the spill area may be read. -/
def State.inputsPass (s : State) (h : Handler) : Option State :=
  s.portPass ((s.groupInputs h).flatMap fun e => e.2.spilled.elim [] fun k => spanOf (s.spillPa h.win k) (32 + s.peekN (s.spillPa h.win k + 4) 2)) []

/-- `UCOMB` (R362, R363): ranks collected into the partial. A handler that has begun goes on from the rank it waits for once its input is there, with what
stands in the spill area read back. -/
def execUcomb (a b : Nat) (s : State) : Out :=
  uliah (fun id h t =>
    let n := t.ul.inputs.length + 2
    match h.comb with
    | some z =>
      if !t.overlapped h && !(t.groupInputs h).any fun e => e.2.rlo == z.2.2 then t
      else match (t.fetchPart h).bind fun x => (x.2.inputsPass x.1).map fun u => (x.1, u) with
        | none => t
        | some x => x.2.collect id x.1 z.1 z.2.1 n z.2.2
    | none =>
      let lo := (h.reg a).toNat % 2 ^ 16
      let hi := (h.reg b).toNat % 2 ^ 16
      let mode := t.awMode h.win
      if hi < lo || bitsAt (t.aw h.win 0x10) 63 48 ≤ hi || (mode == 2 && hi != lo) || (mode == 3 && 15 < hi - lo) then t.ulFault h 3 0
      else match t.inputsPass h with
        | none => t
        | some u => u.collect id { h with part := some {} } lo hi n lo) s

/-! What a partial is sent as (R351, R362, R364). -/

/-- The partial of a handler that has collected none: what it holds the spec leaves open (log entry 2). -/
def State.partOf (s : State) (h : Handler) : Sum × State :=
  match h.part with
  | some p => (p, s)
  | none =>
    let n := if s.awMode h.win = 1 then segElems (s.awType h.win) else 64
    let z := (List.range n).foldl (fun (z : List Word × State) _ => (z.1 ++ [z.2.draw.1.truncate 32], z.2.draw.2)) ([], s)
    (if s.awMode h.win = 1 then { elems := z.1, exps := List.replicate 7 0 } else { data := z.1.flatMap fun w => leBytes 4 w.toNat }, z.2)

/-- R364: a value's magnitude at a scale fits the mantissa. -/
def fitsMant (m : Nat) (sc : Int) : Num.FVal → Bool
  | .fin neg k f => (Num.roundInt 0 neg k (f - sc) 0 0).natAbs ≤ 2 ^ (m - 1) - 1
  | _ => false

/-- R364: a block quantised: its exponent, its mantissas, and whether the exponent was raised. -/
def quantise (m e0 : Nat) (xs : List Num.FVal) : Nat × List Int × Bool :=
  let sc (k : Nat) : Int := (e0 : Int) + k - 127 - ((m : Int) - 1)
  match (List.range (255 - e0)).find? fun k => xs.all (fitsMant m (sc k)) with
  | none => (255, xs.map fun _ => 0, false)
  | some k => (e0 + k, xs.map fun x => (match x with | .fin neg a f => Num.roundInt 0 neg a (f - sc k) 0 0 | _ => 0), k != 0)

/-- R351, R364: the partial's elements as a segment of a shared-exponent type, with the blocks whose exponents were raised. -/
def Sum.sxBytes (p : Sum) (m : Nat) : List Byte × Nat :=
  let bs := (List.range 7).map fun (b : Nat) =>
    quantise m (p.exps.getD b 0) (((p.elems.drop (32 * b)).take 32).map fun w => Num.unpack .fp32 w.toNat)
  let plane := bs.flatMap fun q => leBytes (4 * m) (q.2.1.zipIdx.foldl (fun n x => n + Num.intBits m x.1 * 2 ^ (m * x.2)) 0)
  (plane ++ List.replicate (248 - 28 * m) 0 ++ bs.map (fun q => BitVec.ofNat 8 q.1) ++ [0], bs.zipIdx.foldl (fun n q => if q.1.2.2 then n + 2 ^ q.2 else n) 0)

/-- The partial's bytes in a type, with the raised blocks. -/
def Sum.bytes (p : Sum) (mode ty oty : Nat) : List Byte × Nat :=
  if mode != 1 then (p.data, 0)
  else match Num.sxOf oty with
    | some m => p.sxBytes m
    | none =>
      if oty = 0x13 then (p.elems.flatMap fun w => leBytes 2 (Num.convert 0x11 0 0x13 false 0 0 0 w.toNat), 0)
      else if ty = 3 ∨ ty = 7 ∨ oty = 0x11 then (p.elems.flatMap fun w => leBytes 4 w.toNat, 0)
      else ([], 0)

/-- R397: the granules of an output that poisoned elements feed. -/
def Sum.badGranules (p : Sum) (mode oty : Nat) : List Nat :=
  if mode != 1 then p.bad
  else (p.bad.flatMap fun e =>
    let z := elemPlace oty e
    (List.range (z.2 + 15)).map (fun i => (z.1 + i) / 16) |>.filter fun g => 16 * g < z.1 + z.2).foldl insNat []

/-- R364, R368: the type that a partial is sent in: a shared-exponent window's own, else its output type. -/
def State.sentType (s : State) (w : Nat) : Nat := if (Num.sxOf (s.awType w)).isSome then s.awType w else s.awOtype w

/-- R355: the header of a partial that is sent. -/
def State.headerOf (s : State) (h : Handler) (p : Sum) (len bump : Nat) (data : List Byte) : Nat :=
  let w := h.win
  let ty := s.sentType w
  let exps := if (Num.sxOf ty).isSome then leNat ((data.drop 248).take 7) else 0
  s.awColl w * 2 ^ 240 + h.tag * 2 ^ 224 + h.round * 2 ^ 216 + h.seg * 2 ^ 208 + p.rlo * 2 ^ 192 + p.rhi * 2 ^ 176 + bump * 2 ^ 168 + ty * 2 ^ 162 +
    s.awOp w * 2 ^ 159 + exps * 2 ^ 64 + bitsAt (s.aw w 0x10) 47 32 * 2 ^ 48 + len % 2 ^ 16 * 2 ^ 32 + Tbl.at s.ul.counts w 0 % 2 ^ 32

/-- A set of granules as a number. -/
def granuleBits (l : List Nat) : Nat := l.foldl (fun n g => n + 2 ^ g) 0

/-! Destinations (R367). -/

/-- The address of an entry of the window's group table. -/
def State.groupPa (s : State) (w ix : Nat) : Nat := bitsAt (s.aw w 0x18) 51 0 + 16 * ix

/-- The entry of the window's group table at an index, read at its home slice (R369); none outside near and far memory, or poisoned. -/
def State.groupEntry (s : State) (w ix : Nat) : Option (Nat × State) :=
  let pa := s.groupPa w ix
  if !isHomed pa || s.poisoned pa 16 then none else some (s.homeRead pa 16 0)

/-- R367: where the output of a handler goes for a memory entry of a base. -/
def State.outPlace (s : State) (h : Handler) (p : Sum) (base : Nat) : Nat :=
  let row := h.tag * s.awNseg h.win + h.seg
  base + (if s.awMode h.win = 3 then row * bitsAt (s.aw h.win 0x10) 63 48 + p.rlo else row) * outSize (s.awType h.win) (s.awOtype h.win)

/-- R367: an address that a memory entry may reach: near or far memory, or a peer. -/
def State.outOk (s : State) (pa : Nat) : Bool :=
  isHomed pa || (match regionOf pa with | .peer p off => s.peerOk p && peerOffOk off | _ => false)

/-- R367: what is wrong with an entry that is no end. -/
def State.entryBad (s : State) (h : Handler) (p : Sum) (e : Nat) : Bool :=
  e / 2 ^ 116 % 256 != 0 || e / 2 ^ 40 % 32 != 0 || e % 2 ^ 32 != 0 ||
    match e / 2 ^ 124 with
    | 1 =>
      let pa := s.outPlace h p (e / 2 ^ 64 % 2 ^ 52)
      let n := (p.bytes (s.awMode h.win) (s.awType h.win) (s.awOtype h.win)).1.length
      !s.outOk (e / 2 ^ 64 % 2 ^ 52) || !s.outOk pa || !s.outOk (pa + n - 1)
    | 2 => 1024 ≤ e / 2 ^ 48 % 2 ^ 16 || !(s.hubReg (0x400010 + 32 * (e / 2 ^ 48 % 2 ^ 16))).getLsbD 0
    | 3 => false
    | _ => true

/-- R367: a partial written to memory: the handler's writes to peers, and the state after. -/
def State.writeOut (s : State) (h : Handler) (p : Sum) (base : Nat) : List Nat × State :=
  let mode := s.awMode h.win
  let oty := s.awOtype h.win
  let pa := s.outPlace h p base
  let data := (p.bytes mode (s.awType h.win) oty).1
  let bad := p.badGranules mode oty
  match regionOf pa with
  | .peer q off =>
    (linesIn off data.length).foldl (fun (z : List Nat × State) line =>
      let lo := max off (128 * line)
      let bs := (data.drop (lo - off)).take (128 * line + 128 - lo)
      let r := z.2.writePeer { peer := q, off := lo, kind := .store, size := bs.length, data := leNat bs
                               bad := (List.range bs.length).filter fun i => bad.contains ((lo - off + i) / 16) }
      (z.1 ++ [r.1], r.2)) ([], s)
  | _ => ([], s.portWrite pa data bad)

/-- The lines of memory that a partial goes to for an entry, for the firing schedule (R369). -/
def State.outLines (s : State) (h : Handler) (p : Sum) (e : Nat) : List Nat :=
  if e / 2 ^ 124 = 1 then
    let n := (p.bytes (s.awMode h.win) (s.awType h.win) (s.awOtype h.win)).1.length
    (List.range ((n + 127) / 128)).map fun i => s.outPlace h p (e / 2 ^ 64 % 2 ^ 52) + 128 * i
  else []

/-- R362, R367, R370: a partial sent to a window of this package, or over Ultra Ethernet. -/
def State.sendOut (s : State) (h : Handler) (p : Sum) (e : Nat) : State :=
  let w := h.win
  let mode := s.awMode w
  let ty := s.sentType w
  let b := p.bytes mode (s.awType w) ty
  let len := if mode = 3 then (p.rhi - p.rlo + 1) * outSize (s.awType w) (s.awOtype w) else b.1.length
  let header := s.headerOf h p len b.2 b.1
  let s1 := s.onUl fun u => { u with counts := Tbl.put u.counts w (Tbl.at u.counts w 0 + 1) }
  let win := e / 2 ^ 32 % 256
  if e / 2 ^ 124 = 3 then s1.push .segmentReceive [win, header, leNat b.1, granuleBits (p.badGranules mode ty)]
  else
    let x : UePacket :=
      { port := e / 2 ^ 45 % 8, peer := e / 2 ^ 48 % 2 ^ 16, win := win, header := header, payload := leNat b.1, bad := p.badGranules mode ty
        since := s.net.hubClock }
    ({ s1 with nextId := s1.nextId + 1 } : State).onUl fun u => { u with sent := Tbl.put u.sent s1.nextId x }

/-- A partial to an entry that is not malformed, with the handler's writes to peers. -/
def State.toEntry (s : State) (h : Handler) (p : Sum) (e : Nat) : Handler × State :=
  if e / 2 ^ 124 = 1 then
    let r := s.writeOut h p (e / 2 ^ 64 % 2 ^ 52)
    ({ h with pending := h.pending ++ r.1 }, r.2)
  else (h, s.sendOut h p e)

/-- The partial to some entries, once the port may write there (R286); until then the handler waits. -/
def State.sendAll (s : State) (id : Nat) (h : Handler) (p : Sum) (es : List Nat) : State :=
  match s.portPass [] (es.flatMap (s.outLines h p)) with
  | none => s.setHandler id { h with part := some p }
  | some t =>
    let r := es.foldl (fun (z : Handler × State) e => z.2.toEntry z.1 p e) (h, t)
    r.2.setHandler id { r.1.past with part := some p }

/-- An instruction that sends the partial to one entry whose kind is among some. -/
def uliahSend (a : Nat) (kinds : List Nat) (s : State) : Out :=
  uliah (fun id h t =>
    let p := t.partOf h
    match p.2.portPass [t.groupPa h.win (h.reg a).toNat] [] with
    | none => t
    | some u =>
      match u.groupEntry h.win (h.reg a).toNat with
      | none => t.ulFault h 5 0
      | some e => if !kinds.contains (e.1 / 2 ^ 124) || t.entryBad h p.1 e.1 then e.2.ulFault h 5 0 else e.2.sendAll id h p.1 [e.1]) s

/-- `UFWD` (R361): the partial goes to a window. -/
def execUfwd (a : Nat) (s : State) : Out := uliahSend a [2, 3] s

/-- `UWR` (R361): the partial goes to memory. -/
def execUwr (a : Nat) (s : State) : Out := uliahSend a [1] s

/-- R361: the entries from an index up to the first end, or none where one of them is malformed, with the state after they are read. -/
def State.entriesFrom (s : State) (h : Handler) (p : Sum) : Nat → Nat → Option (List Nat) × State
  | 0, _ => (none, s)
  | n + 1, ix =>
    match s.groupEntry h.win ix with
    | none => (none, s)
    | some e =>
      if e.1 / 2 ^ 124 = 0 then (some [], e.2)
      else if s.entryBad h p e.1 then (none, e.2)
      else
        let r := State.entriesFrom e.2 h p n (ix + 1)
        (r.1.map (e.1 :: ·), r.2)

/-- `UMCAST` (R361): the partial goes to every entry from an index up to the first end. -/
def execUmcast (a : Nat) (s : State) : Out :=
  uliah (fun id h t =>
    let p := t.partOf h
    let ix := (h.reg a).toNat
    let n := (p.2.entriesFrom h p.1 65536 ix).1.elim 0 List.length
    match p.2.portPass ((List.range (n + 1)).map fun i => t.groupPa h.win (ix + i)) [] with
    | none => t
    | some u =>
      let r := u.entriesFrom h p.1 65536 ix
      match r.1 with
      | none => r.2.ulFault h 5 0
      | some es => r.2.sendAll id h p.1 es) s

/-! The optimiser (R368). -/

/-- The constants of an optimiser descriptor: fp32 at an offset. -/
def optF (d : List Byte) (off : Nat) : Nat := leNat ((d.drop off).take 4)

/-- The sum, the difference and the product of fp32 values, each rounded once to nearest even. -/
def fAdd (a b : Nat) : Nat := Num.fadd .fp32 0 a b

/-- The difference. -/
def fSub (a b : Nat) : Nat := Num.fsub .fp32 0 a b

/-- The product. -/
def fMul (a b : Nat) : Nat := Num.fmul .fp32 0 a b

/-- R368: one element's update: from the gradient, w, m and v, the new w, m and v. -/
def optStep (kind : Nat) (d : List Byte) (p w m v : Nat) : Nat × Nat × Nat :=
  let g := fMul p (optF d 0x20)
  let m1 := if kind = 1 then fAdd (fMul (optF d 0x2c) m) g else fAdd (fMul (optF d 0x2c) m) (fMul (optF d 0x30) g)
  let v1 := if kind = 1 then v else fAdd (fMul (optF d 0x34) v) (fMul (fMul (optF d 0x38) g) g)
  let st := if kind = 1 then m1
    else Num.fdiv .fp32 0 (fMul m1 (optF d 0x40)) (fAdd (Num.fsqrt .fp32 0 (fMul v1 (optF d 0x44))) (optF d 0x3c))
  (fSub w (fMul (optF d 0x24) (fAdd st (fMul (optF d 0x28) w))), m1, v1)

/-- R368: the update of element `e` of the partial, whose state lies at index `i`: new values are written back, and an element whose state or whose
partial is poisoned poisons what it feeds (R397). -/
def State.optElem (s : State) (kind : Nat) (d : List Byte) (i e : Nat) (p : Sum) : Sum × State :=
  let wa := leNat ((d.drop 8).take 8) + 4 * i
  let ma := leNat ((d.drop 16).take 8) + 4 * i
  let va := leNat ((d.drop 24).take 8) + 4 * i
  let as_ := if kind = 1 then [wa, ma] else [wa, ma, va]
  let s0 := as_.foldl (fun (t : State) a => (t.homeRead a 4 0).2) s
  let bad := p.bad.contains e || as_.any fun a => s0.poisoned a 4
  let r := optStep kind d (p.elems.getD e 0).toNat (s0.peekN wa 4) (s0.peekN ma 4) (s0.peekN va 4)
  let s1 := (s0.homeWrite wa (leBytes 4 r.1)).homeWrite ma (leBytes 4 r.2.1)
  let s2 := if kind = 1 then s1 else s1.homeWrite va (leBytes 4 r.2.2)
  let s3 := if bad then as_.foldl (fun (t : State) a => t.taint a 1) s2 else s2
  ({ p with elems := p.elems.set e (BitVec.ofNat 32 r.1), bad := if bad then insNat p.bad e else p.bad }, s3)

/-- R368: what is wrong with an optimiser descriptor, for `n` elements from index `i` on. -/
def State.optBad (s : State) (pa : Nat) (d : List Byte) (i n : Nat) : Bool :=
  let kind := leNat (d.take 1)
  let at_ (off : Nat) : Nat := leNat ((d.drop off).take 8)
  let bases := if kind = 1 then [at_ 8, at_ 16] else [at_ 8, at_ 16, at_ 24]
  (kind != 1 && kind != 2) || s.poisoned pa 128 || bases.any fun b => b % 64 != 0 || !isHomed (b + 4 * i) || !isHomed (b + 4 * (i + n) - 1)

/-- `UOPT` (R368): the optimiser of a descriptor applied to the partial. -/
def execUopt (a : Nat) (s : State) : Out :=
  uliah (fun id h t =>
    let pa := (h.reg a).toNat
    let ty := t.awType h.win
    let n := segElems ty
    let i := (h.tag * t.awNseg h.win + h.seg) * n
    if t.awMode h.win != 1 || ty == 3 || ty == 7 || pa % 128 != 0 || !isHomed pa then t.ulFault h 7 0
    else
      let t1 := (t.homeRead pa 128 0).2
      let d := t1.peekBytes pa 128
      if t1.optBad pa d i n then t1.ulFault h 7 0
      else
        let bases := (if leNat (d.take 1) = 1 then [8, 16] else [8, 16, 24]).map fun off => leNat ((d.drop off).take 8)
        let as_ := bases.flatMap fun b => (List.range n).map fun e => b + 4 * (i + e)
        match t1.portPass (pa :: as_) as_ with
        | none => t
        | some t2 =>
          let p := t2.partOf h
          let r := (List.range n).foldl (fun (z : Sum × State) e => z.2.optElem (leNat (d.take 1)) d (i + e) e z.1) p
          r.2.setHandler id { h.past with part := some r.1 }) s

/-! Signals and completion (R354, R361, R365). -/

/-- R286, R365: 1 subtracted from a signal object at its home slice, once the port may; until then the handler waits. -/
def State.homeSub (s : State) (id : Nat) (h : Handler) (pa : Nat) : State :=
  match s.portPass [pa] [] with
  | none => s
  | some t => ((t.lineAtomic (pa / 128)).atomAt .sub { lane := 0, va := pa, pa := pa, x := 1 }).2.setHandler id h

/-- `USIG` (R11, R130, R365): 1 subtracted from a signal object once the handler's writes are acknowledged; until then the handler waits. -/
def execUsig (a : Nat) (s : State) : Out :=
  uliah (fun id h t =>
    let pa := if a = 0 then bitsAt (t.aw h.win 0x30) 51 0 else (h.reg a).toNat
    if pa % 8 != 0 || (a = 0 ∧ pa = 0) then t.ulFault h 5 0
    else if h.pending.any fun x => Tbl.has t.peers x then t
    else
      let h1 := { h.past with pending := [] }
      match regionOf pa with
      | .peer p off =>
        if t.peerOk p && peerOffOk off then
          (t.writePeer { peer := p, off := off, kind := .sub, size := 8, data := 1 }).2.setHandler id h1
        else t.ulFault h 5 0
      | .core c .scratch _ =>
        if t.present c then (t.atomAt .sub { lane := 0, va := pa, pa := pa, x := 1 }).2.setHandler id h1 else t.ulFault h 5 0
      | .near => t.homeSub id h1 pa
      | .far => t.homeSub id h1 pa
      | _ => t.ulFault h 5 0) s

/-- `UDONE` (R354, R361): the segment is done for its round, once for each handler; the round advances with the last one. -/
def execUdone (d : Nat) (s : State) : Out :=
  uliah (fun id h t =>
    let b := t.bucket h.win h.tag
    let mine := b.round = h.round
    let b1 := if mine ∧ !h.done then { b with doneSegs := insNat b.doneSegs h.seg } else b
    let left := if mine then t.awNseg h.win - b1.doneSegs.length else 0
    let t1 := (t.setBucket b1).setHandler id { (h.put d (BitVec.ofNat 64 left)).past with done := true }
    if mine ∧ !h.done ∧ left = 0 then t1.advanceRound h.win h.tag else t1) s

/-- `UGET` (R351, R361): an element of the partial as a doubleword; fault 5 for an index that is not below the elements of a segment. DESIGN CHOICE (log entry
71): in multicast and gather modes, where the partial is bytes, it is 32 bits of them. -/
def execUget (d a : Nat) (s : State) : Out :=
  uliah (fun id h t =>
    let i := (h.reg a).toNat
    let p := t.partOf h
    if segElems (t.awType h.win) ≤ i then t.ulFault h 5 0
    else
      let v := if t.awMode h.win = 1 then (p.1.elems.getD i 0).toNat else leNat ((p.1.data.drop (4 * i)).take 4)
      p.2.setHandler id (h.put d (BitVec.ofNat 64 v)).past) s

/-! Fetching (R359, R366). -/

/-- The instruction that a handler comes to; none where its word is no instruction, lies outside program memory or has been struck by an
error (R366, R396). -/
def State.ulFetch (s : State) (h : Handler) : Option Nat :=
  if 4096 ≤ h.pc ∨ s.ul.badWords.contains h.pc then none else some (Tbl.at s.ul.prog h.pc 0).toNat

end Sys2Proof.Machine
end

