-- ==== Sys2Proof/Machine/Uniform.lean ====
section
/-! DEFINITION. The uniform instructions (R80, R101, R102). -/

namespace Sys2Proof.Machine

open Sys2Proof

/-- R101: a uniform instruction of two sources writes all 64 bits, tagged raw. -/
def uniform2 (o : OpT) (f : DWord → DWord → DWord) (s : State) : Out :=
  issueOwn { us := [o.a, o.b], ud := [o.d] } noCheck (fun w h => h.setQ o.d (f (w.h.uq o.a) (w.h.uq o.b)) 0) s

/-- `QADD` (R101). -/
def execQadd (o : OpT) (s : State) : Out := uniform2 o (fun a b => a + b) s

/-- `QSUB` (R101). -/
def execQsub (o : OpT) (s : State) : Out := uniform2 o (fun a b => a - b) s

/-- `QMUL` (R101). -/
def execQmul (o : OpT) (s : State) : Out := uniform2 o (fun a b => a * b) s

/-- `QAND` (R101). -/
def execQand (o : OpT) (s : State) : Out := uniform2 o (fun a b => a &&& b) s

/-- `QOR` (R101). -/
def execQor (o : OpT) (s : State) : Out := uniform2 o (fun a b => a ||| b) s

/-- `QXOR` (R101). -/
def execQxor (o : OpT) (s : State) : Out := uniform2 o (fun a b => a ^^^ b) s

/-- `QSHL` (R101): 0 from 64 on. -/
def execQshl (o : OpT) (s : State) : Out := uniform2 o (fun a b => if 64 ≤ b.toNat % 256 then 0 else a <<< (b.toNat % 256)) s

/-- `QSHR` (R101): logical, 0 from 64 on. -/
def execQshr (o : OpT) (s : State) : Out := uniform2 o (fun a b => if 64 ≤ b.toNat % 256 then 0 else a >>> (b.toNat % 256)) s

/-- `QLI` (R62, R102). -/
def execQli (i d : Nat) (s : State) : Out := issueOwn { ud := [d] } noCheck (fun _ h => h.setQ d (sextTo 19 64 i) 0) s

/-- `QADDI` (R62, R102). -/
def execQaddi (i d : Nat) (s : State) : Out :=
  issueOwn { us := [d], ud := [d] } noCheck (fun w h => h.setQ d (w.h.uq d + sextTo 18 64 i) 0) s

/-- `QLUI` (R62, R102). -/
def execQlui (i d : Nat) (s : State) : Out :=
  issueOwn { us := [d], ud := [d] } noCheck (fun w h => h.setQ d ((w.h.uq d <<< 18) ||| BitVec.ofNat 64 (i % 2 ^ 18)) 0) s

end Sys2Proof.Machine
end

