-- ==== Sys2Proof/Machine/Dispatch.lean ====
section
/-! DEFINITION. One arm for each instruction and row, each a direct call of its meaning. -/

namespace Sys2Proof.Machine

open Sys2Proof

/-- The meaning of an instruction or row in a state. -/
def exec (i : Instr) (s : State) : Host.Outcome State Fault Refusal :=
  match i with
  | .mov16 a b => Sys2Proof.Machine.execMov16 a b s
  | .iadd16 a b => Sys2Proof.Machine.execIadd16 a b s
  | .isub16 a b => Sys2Proof.Machine.execIsub16 a b s
  | .imul16 a b => Sys2Proof.Machine.execImul16 a b s
  | .and16 a b => Sys2Proof.Machine.execAnd16 a b s
  | .or16 a b => Sys2Proof.Machine.execOr16 a b s
  | .xor16 a b => Sys2Proof.Machine.execXor16 a b s
  | .shli16 a b => Sys2Proof.Machine.execShli16 a b s
  | .shri16 a b => Sys2Proof.Machine.execShri16 a b s
  | .srai16 a b => Sys2Proof.Machine.execSrai16 a b s
  | .addi16 a b => Sys2Proof.Machine.execAddi16 a b s
  | .fadd16 a b => Sys2Proof.Machine.execFadd16 a b s
  | .fsub16 a b => Sys2Proof.Machine.execFsub16 a b s
  | .fmul16 a b => Sys2Proof.Machine.execFmul16 a b s
  | .fmin16 a b => Sys2Proof.Machine.execFmin16 a b s
  | .fmax16 a b => Sys2Proof.Machine.execFmax16 a b s
  | .iadd a => Sys2Proof.Machine.execIadd a s
  | .isub a => Sys2Proof.Machine.execIsub a s
  | .imul a => Sys2Proof.Machine.execImul a s
  | .imulh a => Sys2Proof.Machine.execImulh a s
  | .imulhn a => Sys2Proof.Machine.execImulhn a s
  | .imad a => Sys2Proof.Machine.execImad a s
  | .imin a => Sys2Proof.Machine.execImin a s
  | .imax a => Sys2Proof.Machine.execImax a s
  | .nmin a => Sys2Proof.Machine.execNmin a s
  | .nmax a => Sys2Proof.Machine.execNmax a s
  | .iabs a => Sys2Proof.Machine.execIabs a s
  | .isad a => Sys2Proof.Machine.execIsad a s
  | .land a => Sys2Proof.Machine.execLand a s
  | .lor a => Sys2Proof.Machine.execLor a s
  | .lxor a => Sys2Proof.Machine.execLxor a s
  | .andn a => Sys2Proof.Machine.execAndn a s
  | .shl a => Sys2Proof.Machine.execShl a s
  | .shr a => Sys2Proof.Machine.execShr a s
  | .sra a => Sys2Proof.Machine.execSra a s
  | .rot a => Sys2Proof.Machine.execRot a s
  | .popc a => Sys2Proof.Machine.execPopc a s
  | .clz a => Sys2Proof.Machine.execClz a s
  | .brev a => Sys2Proof.Machine.execBrev a s
  | .bfx a => Sys2Proof.Machine.execBfx a s
  | .mov a => Sys2Proof.Machine.execMov a s
  | .sel a => Sys2Proof.Machine.execSel a s
  | .bfi a => Sys2Proof.Machine.execBfi a s
  | .iaddc a => Sys2Proof.Machine.execIaddc a s
  | .iaddi a => Sys2Proof.Machine.execIaddi a s
  | .imuli a => Sys2Proof.Machine.execImuli a s
  | .andi a => Sys2Proof.Machine.execAndi a s
  | .ori a => Sys2Proof.Machine.execOri a s
  | .xori a => Sys2Proof.Machine.execXori a s
  | .isubri a => Sys2Proof.Machine.execIsubri a s
  | .shli a => Sys2Proof.Machine.execShli a s
  | .shri a => Sys2Proof.Machine.execShri a s
  | .srai a => Sys2Proof.Machine.execSrai a s
  | .movi a => Sys2Proof.Machine.execMovi a s
  | .fadd a => Sys2Proof.Machine.execFadd a s
  | .fsub a => Sys2Proof.Machine.execFsub a s
  | .fmul a => Sys2Proof.Machine.execFmul a s
  | .ffma a => Sys2Proof.Machine.execFfma a s
  | .fmin a => Sys2Proof.Machine.execFmin a s
  | .fmax a => Sys2Proof.Machine.execFmax a s
  | .fminn a => Sys2Proof.Machine.execFminn a s
  | .fmaxn a => Sys2Proof.Machine.execFmaxn a s
  | .frcp a => Sys2Proof.Machine.execFrcp a s
  | .frsq a => Sys2Proof.Machine.execFrsq a s
  | .fsqrt a => Sys2Proof.Machine.execFsqrt a s
  | .fex2 a => Sys2Proof.Machine.execFex2 a s
  | .flg2 a => Sys2Proof.Machine.execFlg2 a s
  | .fsin a => Sys2Proof.Machine.execFsin a s
  | .fcos a => Sys2Proof.Machine.execFcos a s
  | .ftanh a => Sys2Proof.Machine.execFtanh a s
  | .hadd a => Sys2Proof.Machine.execHadd a s
  | .hsub a => Sys2Proof.Machine.execHsub a s
  | .hmul a => Sys2Proof.Machine.execHmul a s
  | .hfma a => Sys2Proof.Machine.execHfma a s
  | .hmin a => Sys2Proof.Machine.execHmin a s
  | .hmax a => Sys2Proof.Machine.execHmax a s
  | .hdot2 a => Sys2Proof.Machine.execHdot2 a s
  | .dadd a => Sys2Proof.Machine.execDadd a s
  | .dsub a => Sys2Proof.Machine.execDsub a s
  | .dmul a => Sys2Proof.Machine.execDmul a s
  | .dfma a => Sys2Proof.Machine.execDfma a s
  | .dmin a => Sys2Proof.Machine.execDmin a s
  | .dmax a => Sys2Proof.Machine.execDmax a s
  | .drcp a => Sys2Proof.Machine.execDrcp a s
  | .dsqrt a => Sys2Proof.Machine.execDsqrt a s
  | .icmp a => Sys2Proof.Machine.execIcmp a s
  | .ncmp a => Sys2Proof.Machine.execNcmp a s
  | .fcmp a => Sys2Proof.Machine.execFcmp a s
  | .dcmp a => Sys2Proof.Machine.execDcmp a s
  | .pand a => Sys2Proof.Machine.execPand a s
  | .por a => Sys2Proof.Machine.execPor a s
  | .pxor a => Sys2Proof.Machine.execPxor a s
  | .pnot a => Sys2Proof.Machine.execPnot a s
  | .cvt a => Sys2Proof.Machine.execCvt a s
  | .cvtb a => Sys2Proof.Machine.execCvtb a s
  | .sxexp a => Sys2Proof.Machine.execSxexp a s
  | .sxset a => Sys2Proof.Machine.execSxset a s
  | .shflIdx a => Sys2Proof.Machine.execShflIdx a s
  | .shflUp a => Sys2Proof.Machine.execShflUp a s
  | .shflDown a => Sys2Proof.Machine.execShflDown a s
  | .shflXor a => Sys2Proof.Machine.execShflXor a s
  | .voteAny a => Sys2Proof.Machine.execVoteAny a s
  | .voteAll a => Sys2Proof.Machine.execVoteAll a s
  | .voteBallot a => Sys2Proof.Machine.execVoteBallot a s
  | .red a => Sys2Proof.Machine.execRed a s
  | .scan a => Sys2Proof.Machine.execScan a s
  | .elect a b => Sys2Proof.Machine.execElect a b s
  | .qadd a => Sys2Proof.Machine.execQadd a s
  | .qsub a => Sys2Proof.Machine.execQsub a s
  | .qmul a => Sys2Proof.Machine.execQmul a s
  | .qand a => Sys2Proof.Machine.execQand a s
  | .qor a => Sys2Proof.Machine.execQor a s
  | .qxor a => Sys2Proof.Machine.execQxor a s
  | .qshl a => Sys2Proof.Machine.execQshl a s
  | .qshr a => Sys2Proof.Machine.execQshr a s
  | .qli a b => Sys2Proof.Machine.execQli a b s
  | .qaddi a b => Sys2Proof.Machine.execQaddi a b s
  | .qlui a b => Sys2Proof.Machine.execQlui a b s
  | .v2q a b => Sys2Proof.Machine.execV2q a b s
  | .q2v a => Sys2Proof.Machine.execQ2v a s
  | .movx a => Sys2Proof.Machine.execMovx a s
  | .movs a => Sys2Proof.Machine.execMovs a s
  | .bra a b => Sys2Proof.Machine.execBra a b s
  | .call a => Sys2Proof.Machine.execCall a s
  | .ret => Sys2Proof.Machine.execRet s
  | .jmpq a => Sys2Proof.Machine.execJmpq a s
  | .reconv a => Sys2Proof.Machine.execReconv a s
  | .rwait a => Sys2Proof.Machine.execRwait a s
  | .bisq a => Sys2Proof.Machine.execBisq a s
  | .exitl => Sys2Proof.Machine.execExitl s
  | .brk a => Sys2Proof.Machine.execBrk a s
  | .nop => Sys2Proof.Machine.execNop s
  | .ld32 a => Sys2Proof.Machine.execLd32 a s
  | .ld64 a => Sys2Proof.Machine.execLd64 a s
  | .ldNarrow a => Sys2Proof.Machine.execLdNarrow a s
  | .ldk32 a => Sys2Proof.Machine.execLdk32 a s
  | .ldk64 a => Sys2Proof.Machine.execLdk64 a s
  | .qld a => Sys2Proof.Machine.execQld a s
  | .st a => Sys2Proof.Machine.execSt a s
  | .qst a => Sys2Proof.Machine.execQst a s
  | .atom a => Sys2Proof.Machine.execAtom a s
  | .redm a => Sys2Proof.Machine.execRedm a s
  | .cas a => Sys2Proof.Machine.execCas a s
  | .fence a => Sys2Proof.Machine.execFence a s
  | .pfence a => Sys2Proof.Machine.execPfence a s
  | .wbr a b => Sys2Proof.Machine.execWbr a b s
  | .invr a b => Sys2Proof.Machine.execInvr a b s
  | .barAw a b => Sys2Proof.Machine.execBarAw a b s
  | .barArv a b => Sys2Proof.Machine.execBarArv a b s
  | .barWt a b => Sys2Proof.Machine.execBarWt a b s
  | .gbarAw a b => Sys2Proof.Machine.execGbarAw a b s
  | .gbarArv a b => Sys2Proof.Machine.execGbarArv a b s
  | .gbarWt a b => Sys2Proof.Machine.execGbarWt a b s
  | .mwait a => Sys2Proof.Machine.execMwait a s
  | .sigd a => Sys2Proof.Machine.execSigd a s
  | .send a => Sys2Proof.Machine.execSend a s
  | .recv a => Sys2Proof.Machine.execRecv a s
  | .chq a b => Sys2Proof.Machine.execChq a b s
  | .tnew a => Sys2Proof.Machine.execTnew a s
  | .tfree a => Sys2Proof.Machine.execTfree a s
  | .tpass a b => Sys2Proof.Machine.execTpass a b s
  | .tbind a b => Sys2Proof.Machine.execTbind a b s
  | .tfetch a => Sys2Proof.Machine.execTfetch a s
  | .tevict a => Sys2Proof.Machine.execTevict a s
  | .twait a => Sys2Proof.Machine.execTwait a s
  | .tld a b => Sys2Proof.Machine.execTld a b s
  | .tst a b => Sys2Proof.Machine.execTst a b s
  | .tget a => Sys2Proof.Machine.execTget a s
  | .tset a => Sys2Proof.Machine.execTset a s
  | .tadds a => Sys2Proof.Machine.execTadds a s
  | .tmuls a => Sys2Proof.Machine.execTmuls a s
  | .texps a => Sys2Proof.Machine.execTexps a s
  | .tfill a => Sys2Proof.Machine.execTfill a s
  | .tclmp a => Sys2Proof.Machine.execTclmp a s
  | .tcvt a => Sys2Proof.Machine.execTcvt a s
  | .mma a => Sys2Proof.Machine.execMma a s
  | .mmp a => Sys2Proof.Machine.execMmp a s
  | .mmz a => Sys2Proof.Machine.execMmz a s
  | .acq a b => Sys2Proof.Machine.execAcq a b s
  | .acr a => Sys2Proof.Machine.execAcr a s
  | .acrd a => Sys2Proof.Machine.execAcrd a s
  | .acld a b => Sys2Proof.Machine.execAcld a b s
  | .cego a => Sys2Proof.Machine.execCego a s
  | .gxgo a => Sys2Proof.Machine.execGxgo a s
  | .wpush a b => Sys2Proof.Machine.execWpush a b s
  | .wpop a b => Sys2Proof.Machine.execWpop a b s
  | .quies a => Sys2Proof.Machine.execQuies a s
  | .trap a => Sys2Proof.Machine.execTrap a s
  | .tret => Sys2Proof.Machine.execTret s
  | .yield => Sys2Proof.Machine.execYield s
  | .exit => Sys2Proof.Machine.execExit s
  | .spawn a => Sys2Proof.Machine.execSpawn a s
  | .kill a => Sys2Proof.Machine.execKill a s
  | .csrr a b => Sys2Proof.Machine.execCsrr a b s
  | .csrw a b => Sys2Proof.Machine.execCsrw a b s
  | .csrCtlbiWrite a b => Sys2Proof.Machine.execCsrCtlbiWrite a b s
  | .csrCbndReload a b => Sys2Proof.Machine.execCsrCbndReload a b s
  | .csrCbndWrite a b => Sys2Proof.Machine.execCsrCbndWrite a b s
  | .uli a b => Sys2Proof.Machine.execUli a b s
  | .uaddi a => Sys2Proof.Machine.execUaddi a s
  | .uadd a => Sys2Proof.Machine.execUadd a s
  | .usub a => Sys2Proof.Machine.execUsub a s
  | .uand a => Sys2Proof.Machine.execUand a s
  | .uor a => Sys2Proof.Machine.execUor a s
  | .ushl a => Sys2Proof.Machine.execUshl a s
  | .ushr a => Sys2Proof.Machine.execUshr a s
  | .uld a => Sys2Proof.Machine.execUld a s
  | .ust a => Sys2Proof.Machine.execUst a s
  | .ubr a => Sys2Proof.Machine.execUbr a s
  | .ujmp a => Sys2Proof.Machine.execUjmp a s
  | .uend => Sys2Proof.Machine.execUend s
  | .ufault a => Sys2Proof.Machine.execUfault a s
  | .ucomb a b => Sys2Proof.Machine.execUcomb a b s
  | .ufwd a => Sys2Proof.Machine.execUfwd a s
  | .umcast a => Sys2Proof.Machine.execUmcast a s
  | .uwr a => Sys2Proof.Machine.execUwr a s
  | .uopt a => Sys2Proof.Machine.execUopt a s
  | .usig a => Sys2Proof.Machine.execUsig a s
  | .udone a => Sys2Proof.Machine.execUdone a s
  | .uget a b => Sys2Proof.Machine.execUget a b s
  | .joinArrive => Sys2Proof.Machine.execJoinArrive s
  | .rwaitTimeout => Sys2Proof.Machine.execRwaitTimeout s
  | .yieldExpire => Sys2Proof.Machine.execYieldExpire s
  | .barrierArrivalTaken => Sys2Proof.Machine.execBarrierArrivalTaken s
  | .gbarPhaseMessage => Sys2Proof.Machine.execGbarPhaseMessage s
  | .monitorWake => Sys2Proof.Machine.execMonitorWake s
  | .channelStall => Sys2Proof.Machine.execChannelStall s
  | .channelPacketReceive => Sys2Proof.Machine.execChannelPacketReceive s
  | .channelCredit => Sys2Proof.Machine.execChannelCredit s
  | .loadDataReturn => Sys2Proof.Machine.execLoadDataReturn s
  | .storeLeaveQueue => Sys2Proof.Machine.execStoreLeaveQueue s
  | .fenceComplete => Sys2Proof.Machine.execFenceComplete s
  | .translationWalkComplete => Sys2Proof.Machine.execTranslationWalkComplete s
  | .trapEntry => Sys2Proof.Machine.execTrapEntry s
  | .lateEngineFault => Sys2Proof.Machine.execLateEngineFault s
  | .laneLineFill => Sys2Proof.Machine.execLaneLineFill s
  | .frameGrant => Sys2Proof.Machine.execFrameGrant s
  | .fillEnd => Sys2Proof.Machine.execFillEnd s
  | .mmpStart => Sys2Proof.Machine.execMmpStart s
  | .mmaPerform => Sys2Proof.Machine.execMmaPerform s
  | .engineEntryReach => Sys2Proof.Machine.execEngineEntryReach s
  | .blockStart => Sys2Proof.Machine.execBlockStart s
  | .blockEnd => Sys2Proof.Machine.execBlockEnd s
  | .launchAccept => Sys2Proof.Machine.execLaunchAccept s
  | .schedule => Sys2Proof.Machine.execSchedule s
  | .prioritySwapOut => Sys2Proof.Machine.execPrioritySwapOut s
  | .launchComplete => Sys2Proof.Machine.execLaunchComplete s
  | .launchKillComplete => Sys2Proof.Machine.execLaunchKillComplete s
  | .hqDoorbell => Sys2Proof.Machine.execHqDoorbell s
  | .hqEnable => Sys2Proof.Machine.execHqEnable s
  | .hqDisable => Sys2Proof.Machine.execHqDisable s
  | .hqbaseWrite => Sys2Proof.Machine.execHqbaseWrite s
  | .mgmtDoorbell => Sys2Proof.Machine.execMgmtDoorbell s
  | .ctxTableWrite => Sys2Proof.Machine.execCtxTableWrite s
  | .ctxSwapOut => Sys2Proof.Machine.execCtxSwapOut s
  | .ctxRestore => Sys2Proof.Machine.execCtxRestore s
  | .ctxEvictGroups => Sys2Proof.Machine.execCtxEvictGroups s
  | .ctxRestoreGroups => Sys2Proof.Machine.execCtxRestoreGroups s
  | .ctxFlushLines => Sys2Proof.Machine.execCtxFlushLines s
  | .ctxcmdComplete => Sys2Proof.Machine.execCtxcmdComplete s
  | .cohortSwapOut => Sys2Proof.Machine.execCohortSwapOut s
  | .cohortRestore => Sys2Proof.Machine.execCohortRestore s
  | .tlbinvAll => Sys2Proof.Machine.execTlbinvAll s
  | .tlbinvPage => Sys2Proof.Machine.execTlbinvPage s
  | .tlbinvComplete => Sys2Proof.Machine.execTlbinvComplete s
  | .wbctxWrite => Sys2Proof.Machine.execWbctxWrite s
  | .packetRoute => Sys2Proof.Machine.execPacketRoute s
  | .probeLaunch => Sys2Proof.Machine.execProbeLaunch s
  | .probeHop => Sys2Proof.Machine.execProbeHop s
  | .recoveryGrant => Sys2Proof.Machine.execRecoveryGrant s
  | .rotationTokenReturn => Sys2Proof.Machine.execRotationTokenReturn s
  | .escapeReinject => Sys2Proof.Machine.execEscapeReinject s
  | .sliceAccess => Sys2Proof.Machine.execSliceAccess s
  | .sliceFillComplete => Sys2Proof.Machine.execSliceFillComplete s
  | .sliceWriteback => Sys2Proof.Machine.execSliceWriteback s
  | .scrubLine => Sys2Proof.Machine.execScrubLine s
  | .fsPeriodStart => Sys2Proof.Machine.execFsPeriodStart s
  | .fsbudWrite => Sys2Proof.Machine.execFsbudWrite s
  | .governorWindow => Sys2Proof.Machine.execGovernorWindow s
  | .powerEstimate => Sys2Proof.Machine.execPowerEstimate s
  | .awcfgEnable => Sys2Proof.Machine.execAwcfgEnable s
  | .awcfgDisable => Sys2Proof.Machine.execAwcfgDisable s
  | .awRegisterWrite => Sys2Proof.Machine.execAwRegisterWrite s
  | .awContribution => Sys2Proof.Machine.execAwContribution s
  | .segmentReceive => Sys2Proof.Machine.execSegmentReceive s
  | .handlerStart => Sys2Proof.Machine.execHandlerStart s
  | .bucketSpill => Sys2Proof.Machine.execBucketSpill s
  | .ueRetransmit => Sys2Proof.Machine.execUeRetransmit s
  | .fabricPacketReceive => Sys2Proof.Machine.execFabricPacketReceive s
  | .fabricAck => Sys2Proof.Machine.execFabricAck s
  | .laneFailure => Sys2Proof.Machine.execLaneFailure s
  | .linkRetrainDone => Sys2Proof.Machine.execLinkRetrainDone s
  | .flctlRetrain => Sys2Proof.Machine.execFlctlRetrain s
  | .peerAccessTimeout => Sys2Proof.Machine.execPeerAccessTimeout s
  | .peerAccessReceive => Sys2Proof.Machine.execPeerAccessReceive s
  | .hostWrite => Sys2Proof.Machine.execHostWrite s
  | .hostRead => Sys2Proof.Machine.execHostRead s
  | .errRingEnable => Sys2Proof.Machine.execErrRingEnable s
  | .errRingDisable => Sys2Proof.Machine.execErrRingDisable s
  | .errcfgWrite => Sys2Proof.Machine.execErrcfgWrite s
  | .errCorrectionPeriod => Sys2Proof.Machine.execErrCorrectionPeriod s
  | .katInject => Sys2Proof.Machine.execKatInject s
  | .scanApply => Sys2Proof.Machine.execScanApply s
  | .scanTest => Sys2Proof.Machine.execScanTest s
  | .scanComplete => Sys2Proof.Machine.execScanComplete s
  | .stkEnterCheckpoint => Sys2Proof.Machine.execStkEnterCheckpoint s
  | .stkTakeCheckpoint => Sys2Proof.Machine.execStkTakeCheckpoint s
  | .stkLeaveCheckpoint => Sys2Proof.Machine.execStkLeaveCheckpoint s
  | .stkWarmResetRestore => Sys2Proof.Machine.execStkWarmResetRestore s
  | .stkWarmResetNoRestore => Sys2Proof.Machine.execStkWarmResetNoRestore s
  | .checkpointQuiet => Sys2Proof.Machine.execCheckpointQuiet s
  | .checkpointTimeout => Sys2Proof.Machine.execCheckpointTimeout s
  | .msgLogOverflow => Sys2Proof.Machine.execMsgLogOverflow s
  | .rtRaiseTestFloor => Sys2Proof.Machine.execRtRaiseTestFloor s
  | .rtSignBindingMap => Sys2Proof.Machine.execRtSignBindingMap s
  | .powerGood => Sys2Proof.Machine.execPowerGood s
  | .kilnRampStep => Sys2Proof.Machine.execKilnRampStep s
  | .bootLoader => Sys2Proof.Machine.execBootLoader s
  | .bootOs => Sys2Proof.Machine.execBootOs s
  | .bootFirmware => Sys2Proof.Machine.execBootFirmware s
  | .spdmGetVersion => Sys2Proof.Machine.execSpdmGetVersion s
  | .spdmGetCapabilities => Sys2Proof.Machine.execSpdmGetCapabilities s
  | .spdmNegotiateAlgorithms => Sys2Proof.Machine.execSpdmNegotiateAlgorithms s
  | .spdmGetDigests => Sys2Proof.Machine.execSpdmGetDigests s
  | .spdmGetCertificate => Sys2Proof.Machine.execSpdmGetCertificate s
  | .spdmChallenge => Sys2Proof.Machine.execSpdmChallenge s
  | .spdmGetMeasurements => Sys2Proof.Machine.execSpdmGetMeasurements s
  | .spdmUnsupportedRequest => Sys2Proof.Machine.execSpdmUnsupportedRequest s
  | .registerWrite => Sys2Proof.Machine.execRegisterWrite s
  | .illegalInstruction => Sys2Proof.Machine.execIllegalInstruction s
  | .instructionFetchFault => Sys2Proof.Machine.execInstructionFetchFault s
  | .conditionalWaitPauseEnd => Sys2Proof.Machine.execConditionalWaitPauseEnd s
  | .bankAccess => Sys2Proof.Machine.execBankAccess s
  | .tileWriteComplete => Sys2Proof.Machine.execTileWriteComplete s
  | .writeAcknowledgement => Sys2Proof.Machine.execWriteAcknowledgement s
  | .writeBackDrain => Sys2Proof.Machine.execWriteBackDrain s
  | .uncorrectableError => Sys2Proof.Machine.execUncorrectableError s
  | .powerLoss => Sys2Proof.Machine.execPowerLoss s

end Sys2Proof.Machine
end

