-- ==== Sys2Proof/Machine/Issue.lean ====
section
/-! DEFINITION. What a step does next: the choice among the rows that are due and the units that may issue (log entry 1), the splits that are ready, the
choice of one (R210, R211), and the instruction that it issues (R49, R69). -/

namespace Sys2Proof.Machine

open Sys2Proof

/-! What an instruction takes of its unit (R105, R138, R160, R187). -/

/-- R105: an instruction of the uniform unit. -/
def Instr.isUniform (i : Instr) : Bool :=
  match i with
  | .qadd _ => true | .qsub _ => true | .qmul _ => true | .qand _ => true | .qor _ => true | .qxor _ => true | .qshl _ => true
  | .qshr _ => true | .qli _ _ => true | .qaddi _ _ => true | .qlui _ _ => true
  | _ => false

/-- R105, R138: the quad cycles that an instruction takes whatever its operands; 1 where the tables name no other number. -/
def Instr.plainCycles (i : Instr) : Nat :=
  match i with
  | .imulh _ => 2 | .imulhn _ => 2 | .iaddc _ => 2 | .hdot2 _ => 2 | .cvtb _ => 2
  | .frcp _ => 4 | .frsq _ => 4 | .fsqrt _ => 4 | .fex2 _ => 4 | .flg2 _ => 4 | .fsin _ => 4 | .fcos _ => 4 | .ftanh _ => 4
  | .dadd _ => 4 | .dsub _ => 4 | .dmul _ => 4 | .dfma _ => 4 | .dmin _ => 4 | .dmax _ => 4 | .dcmp _ => 4 | .red _ => 4 | .scan _ => 4
  | .drcp _ => 16 | .dsqrt _ => 16
  | _ => 1

/-- R160: the address register, offset, guard, bytes and kind of a lane access. -/
def Instr.laneAccess (i : Instr) : Option (Nat × Nat × Nat × Nat × Acc) :=
  match i with
  | .ld32 o => some (o.a, o.o, o.g, 4, .load)
  | .ld64 o => some (o.a, o.o, o.g, 8, .load)
  | .ldNarrow o => some (2 * o.a, o.o, o.g, if o.u < 2 then 1 else 2, .load)
  | .st o => some (o.a, o.o, o.g, 2 ^ o.z, .store)
  | .atom o => some (o.a, 0, o.g, typeSize o.t, .atomic)
  | .redm o => some (o.a, 0, o.g, typeSize o.t, .atomic)
  | .cas o => some (o.a, 0, o.g, typeSize o.t, .atomic)
  | _ => none

/-- R160: the scratchpad granule of a physical address, as its core and its number. -/
def scratchGranule (pa : Nat) : Option (Nat × Nat) :=
  match regionOf pa with
  | .core c .scratch off => some (c, off / 16)
  | _ => none

/-- R160: the granules, but for one, in the scratchpad bank that the most lanes reach. -/
def bankConflicts (gs : List (Nat × Nat)) : Nat :=
  let bank (g : Nat × Nat) : Nat × Nat := (g.1, bankOf (g.2 * 16))
  let busiest := (gs.map bank).foldl (fun a b => max a (gs.filter fun g => bank g == b).length) 0
  (gs.map bank).foldl (fun a b =>
    let mine := gs.filter fun g => bank g == b
    if mine.length = busiest then max a (mine.eraseDups.length - 1) else a) 0

/-- R160: the quad cycles of an access of lanes at some physical addresses. -/
def accessCycles (pas : List Nat) : Nat :=
  1 + bankConflicts (pas.filterMap scratchGranule) + (((pas.filter fun a => (scratchGranule a).isNone).map (· / 128)).eraseDups.length - 1)

/-- The physical addresses of a lane access of a split. -/
def State.accessPas (s : State) (c : Nat) (h : Cohort) (sp : Split) (x : Nat × Nat × Nat × Nat × Acc) : List Nat :=
  (lanesOf (h.writing sp x.2.2.1)).filterMap fun l =>
    match (s.findNow c h.asid (s.gangOf c h) x.2.2.2.2 (h.laneAddr x.1 x.2.1 x.2.2.2.1 l)).1 with
    | .ok pa _ => some pa
    | _ => none

/-- R187, R235: the 128-byte lines of the line of elements of handle `n` that `TGET` reads or `TSET` writes, which is the same in every layout. -/
def State.tileLines (s : State) (c : Nat) (h : Cohort) (o : OpTget) (n : Nat) : Nat :=
  let t := ((s.block? c h.slot).elim {} fun b => Tbl.at b.handles n {}).shape
  let q := lineOf t (o.c == 1) (h.uq o.b).toNat
  ((t.lineElems (o.c == 1) q.1 q.2.1).length * Num.bitsOf t.tag + 1023) / 1024

/-- The quad cycles that an instruction of a split takes (R105, R138, R160, R187). -/
def State.quadCycles (s : State) (c : Nat) (h : Cohort) (sp : Split) (i : Instr) : Nat :=
  match Instr.laneAccess i with
  | some x => accessCycles (s.accessPas c h sp x)
  | none =>
    match i with
    | .bisq a => 2 + (((List.range 64).filter fun k => (h.uq a).getLsbD k && k < h.budget).length + 3) / 4
    | .tget o => max 1 (s.tileLines c h o o.a)
    | .tset o => max 1 (s.tileLines c h o o.d)
    | _ => Instr.plainCycles i

/-- R94, R96: the lanes that a shared-exponent block is written to: with a writing lane, every lane that is not grey. -/
def Cohort.blockLanes (h : Cohort) (m : Mask) : Mask := if m = 0 then 0 else ~~~h.dmask

/-- R78, R213: the lanes that an instruction writes: the writing lanes of the forms with a guard, the active lanes of others that write lanes, and the
lanes of a shared-exponent block. -/
def Cohort.writes (h : Cohort) (sp : Split) (i : Instr) (word len : Nat) : Mask :=
  let major := Sys2Proof.fld word 6 1
  if len = 2 then h.active sp
  else
    match i with
    | .tget _ => h.active sp
    | .recv _ => h.active sp
    | .acrd o =>
      if o.l != 1 then 0
      else if (Num.sxOf (epiOf (h.uq o.b)).ltag).isSome then h.blockLanes (h.active sp) else h.active sp
    | .sel _ => h.active sp
    | .cvt o => if (Num.sxOf o.t).isSome then h.blockLanes (h.writing sp o.g) else h.writing sp o.g
    | .cvtb o => if (Num.sxOf o.t).isSome then h.blockLanes (h.writing sp o.g) else h.writing sp o.g
    | .sxset o => h.blockLanes (h.writing sp o.g)
    | _ =>
      if mustBeUnguarded i then 0
      else if major ≤ 0x18 || major == 0x1d || (0x21 ≤ major && major ≤ 0x24) || major == 0x26 then h.writing sp (Sys2Proof.fld word 10 7)
      else 0

/-! What a step is to run. -/

/-- What a step is to run. -/
inductive Action where
  /-- an instruction or a row, on a state made ready for it -/
  | run (i : Instr) (s : State)
  /-- a core instruction with a guard where none is taken (R69) -/
  | guarded (i : Instr) (s : State)
  /-- nothing more than the state given -/
  | rest (s : State)
  deriving DecidableEq, Repr

/-- The state in which a split of a cohort issues a word. -/
def State.issuing (s : State) (c k i word len : Nat) : State := { s with cur := { core := c, slot := k, split := i, word := word, len := len } }

/-- R49, R69: a split issues the instruction at its address. A fetch that fails and a word that is none are faults. -/
def State.issueAt (s : State) (c k i : Nat) : Action :=
  match s.cohort? c k with
  | none => .rest s
  | some h =>
    match h.split? i with
    | none => .rest s
    | some sp =>
      match s.fetchAt c h.asid (s.gangOf c h) sp.pc.toNat with
      | (.bad sub va, t) => .run .instructionFetchFault { t.issuing c k i 0 2 with ev := [sub, va] }
      | (.bytes b, t) =>
        match decode b with
        | .ok (x, len) => .run x (t.issuing c k i (leNat b) len)
        | .error (.guarded x) => .guarded x (t.issuing c k i (leNat b) 4)
        | .error (.reserved w len) => .run .illegalInstruction { t.issuing c k i w len with ev := [w, len, 0] }
        | .error .truncated => .rest t

/-- R210: the cohort has gone on from one state to the next: an instruction of it has issued, stopped it, or made its split wait. -/
def State.movesOn (s t : State) (c k : Nat) : Bool :=
  match s.cohort? c k, t.cohort? c k with
  | some h, some g => g.seq != h.seq || g.stopped != h.stopped || g.ending != h.ending || g.dmask != h.dmask || g.splits != h.splits
  | some _, none => true
  | none, _ => false

/-- R69: an instruction with a guard where none is taken, run without it: its outcome stands where it may not issue yet, or where a fault of higher
priority has stopped its cohort. -/
def State.outranks (s : State) (o : Out) : Bool :=
  match s.who?, o with
  | some w, .next t =>
    w.sp.state != 0 || !w.h.mayIssue || w.h.atJoin w.sp || !s.movesOn t w.c w.k ||
      ((t.cohort? w.c w.k).elim false fun h => h.stopped && (h.cause.elim false fun x => x.code ≤ 3))
  | _, _ => true

/-- The state in which the fault of such a guard is taken. -/
def State.badGuard (s : State) : State := { s with ev := [s.cur.word, s.cur.len, 1] }

/-- What a step does with an action. -/
def Action.out (a : Action) : Out :=
  match a with
  | .rest t => .next t
  | .run i t => exec i t
  | .guarded i t => if t.outranks (exec i t) then exec i t else exec .illegalInstruction t.badGuard

/-! The splits that are ready (R210). -/

/-- A split that may issue on a port: its key (R211), with its slot, its index, its wait counter and its priority. -/
structure Cand where
  key : Nat
  slot : Nat
  split : Nat
  wait : Nat
  prio : Nat
  deriving DecidableEq, Repr

/-- Where a core keeps the cycle up to which a port's quad or uniform unit is occupied. -/
def unitKey (p : Nat) (uni : Bool) : Nat := if uni then 4 + p else p

/-- Where a core keeps that a split has issued in a cycle (R211). -/
def splitKey (k i : Nat) : Nat := 16 + 8 * k + i

/-- R210: the unit is free in this cycle. -/
def CoreSt.unitFree (co : CoreSt) (p : Nat) (uni : Bool) : Bool := Tbl.at co.busy (unitKey p uni) 0 ≤ co.lclk

/-- R211: the split's wait counter is 0. -/
def State.noWait (s : State) (c k i : Nat) : State := s.onCohort c k fun h => h.onSplit i fun sp => { sp with wait := 0 }

/-- R210: one split looked at for a unit. It is ready where its next instruction needs the unit and issues if it is picked: where its operands and its
destination are free, its lines are held and no fence holds it back. Otherwise what it waits for is called, and its wait counter is 0 (R211). -/
def State.lookAt (s : State) (c k i : Nat) (uni : Bool) (rd : List Cand) : List Cand × State :=
  match s.cohort? c k with
  | none => (rd, s)
  | some h =>
    match h.split? i with
    | none => (rd, s)
    | some sp =>
      if sp.state != 0 || !h.mayIssue then (rd, s.noWait c k i)
      else if (s.instrAt c k sp.pc).elim false Instr.isUniform != uni || (s.core c).lclk < Tbl.at (s.core c).busy (splitKey k i) 0 then (rd, s)
      else
        match (s.issueAt c k i).out with
        | .next t =>
          if s.movesOn t c k then
            let level := (Tbl.find? s.launches h.launch).elim 0 (·.level)
            (rd ++ [{ key := 8 * k + i, slot := k, split := i, wait := sp.wait, prio := level * 256 + h.stage }], s)
          else (rd, ({ t with cur := s.cur, ev := s.ev } : State).noWait c k i)
        | _ => (rd, s)

/-- R210: the splits of a port that are ready for one of its units, in the order of their keys, with the state in which the others wait. -/
def State.survey (s : State) (c p : Nat) (uni : Bool) : List Cand × State :=
  ((s.core c).homed p).foldl (fun a k => (List.range 8).foldl (fun b i => b.2.lookAt c k i uni b.1) a) ([], s)

/-! The choice of a split (R211). -/

/-- The candidate that a measure makes greatest, the earliest of equals. -/
def greatest (f : Cand → Nat) : List Cand → Option Cand
  | [] => none
  | x :: r =>
    match greatest f r with
    | none => some x
    | some y => if f x < f y then some y else some x

/-- R211: `SelectSplit` over candidates in the order of their keys, given the unit's pointer; answers the pick and the pointer after. -/
def selectSplit (rd : List Cand) (rr : Nat) : Option (Cand × Nat) :=
  match greatest (·.wait) (rd.filter fun x => 256 ≤ x.wait) with
  | some x => some (x, rr)
  | none =>
    match greatest (·.prio) rd with
    | none => none
    | some t =>
      let top := rd.filter fun x => x.prio == t.prio
      match (top.filter fun x => rr < x.key) ++ top with
      | [] => none
      | x :: _ => some (x, x.key)

/-- R211: a unit's round-robin pointer. -/
def CoreSt.rr (co : CoreSt) (p : Nat) (uni : Bool) : Nat := Tbl.at (if uni then co.rrUni else co.rrQuad) p 255

/-- R211: a unit's round-robin pointer moved. -/
def CoreSt.setRr (co : CoreSt) (p : Nat) (uni : Bool) (n : Nat) : CoreSt :=
  if uni then { co with rrUni := Tbl.put co.rrUni p n } else { co with rrQuad := Tbl.put co.rrQuad p n }

/-- R211: the wait counters after a pick. -/
def State.countWaits (s : State) (c : Nat) (rd : List Cand) (x : Cand) : State :=
  rd.foldl (fun (t : State) y =>
    t.onCohort c y.slot fun h => h.onSplit y.split fun sp => { sp with wait := if y.key = x.key then 0 else sp.wait + 1 }) s

/-- R219: the lane registers that a split's instruction names: those whose lines it would call if its cohort held none. -/
def State.named (s : State) (c k i : Nat) : List Nat :=
  let bare : State := { s with agenda := [] }.onCohort c k fun h => { h with absent := List.range h.budget }
  match (bare.issueAt c k i).out with
  | .next t => t.agenda.filterMap fun d => if d.row = .laneLineFill ∧ d.ops.take 2 = [c, k] then d.ops[2]? else none
  | _ => []

/-- R213, R224: the lanes that turn grey as a split issues its instruction, which it does not write. -/
def State.greyed (s : State) (c k i : Nat) (h : Cohort) : Mask :=
  match (s.issueAt c k i).out with
  | .next t => (t.cohort? c k).elim 0 fun g => g.dmask &&& ~~~h.dmask
  | _ => 0

/-- R219: lines of a cohort used last. -/
def CoreSt.useLines (co : CoreSt) (uid : Nat) (rs : List Nat) : CoreSt :=
  { co with lines := (co.lines.filter fun e => !(e.1 == uid && rs.contains e.2)) ++ rs.map fun r => (uid, r) }

/-- R105, R213: a unit taken by the instruction of a split, for its quad cycles. -/
def CoreSt.occupy (co : CoreSt) (p : Nat) (uni : Bool) (key cycles : Nat) (lanes : Mask) : CoreSt :=
  { co with
    busy := Tbl.put (Tbl.put co.busy (unitKey p uni) (co.lclk + cycles)) key (co.lclk + 1)
    busyLanes := if uni then co.busyLanes else Tbl.put co.busyLanes p lanes }

/-- The unit taken by the instruction that a split is about to issue, and the lines that it names used (R105, R213, R219). -/
def State.occupy (s : State) (c p : Nat) (uni : Bool) (k i : Nat) : State :=
  match s.cohort? c k with
  | none => s
  | some h =>
    match h.split? i with
    | none => s
    | some sp =>
      let rs := s.named c k i
      let x : Nat × Mask := match (s.fetchAt c h.asid (s.gangOf c h) sp.pc.toNat).1 with
        | .bytes b => (match decode b with
          | .ok (y, len) => (s.quadCycles c h sp y, h.writes sp y (leNat b) len &&& ~~~(s.greyed c k i h))
          | .error _ => (1, 0))
        | .bad .. => (1, 0)
      s.onCore c fun co => (co.occupy p uni (splitKey k i) (if uni then 1 else x.1) x.2).useLines h.uid rs

/-- R211: the split that a unit picks, with the state after the pick. A unit that is occupied picks none, and the counters of splits that are ready but
for it hold their values. -/
def State.pick (s : State) (c p : Nat) (uni : Bool) : Option (Nat × Nat) × State :=
  let r := s.survey c p uni
  if !(s.core c).unitFree p uni then (none, r.2)
  else
    match selectSplit r.1 ((s.core c).rr p uni) with
    | none => (none, r.2)
    | some (x, n) =>
      (some (x.slot, x.split), ((r.2.countWaits c r.1 x).onCore c fun co => co.setRr p uni n).occupy c p uni x.slot x.split)

/-- A core's unit takes a cycle: port `p`'s quad or uniform unit. The quad of port 0 comes first, with the core's clock. -/
def State.unitCycle (s : State) (c p : Nat) (uni : Bool) : Action :=
  let s1 := if p = 0 && !uni then s.tickCore c else s
  match s1.pick c p uni with
  | (none, t) => .rest (if uni then t else t.quadCycle c p)
  | (some (k, i), t) => State.issueAt (if uni then t else t.quadCycle c p) c k i

/-! The Uliah engine. -/

/-- R356: the handler that port `p` runs next, in turn among its own. -/
def State.nextOf (s : State) (p : Nat) : Option Nat :=
  let ids := (List.filter (fun (e : Nat × Handler) => s.awPort e.2.win == p) s.ul.handlers).map Prod.fst
  ((ids.filter (Tbl.at s.ul.last p 0 < ·)) ++ ids).head?

/-- R356: the next port of this hub-clock cycle that has a handler, with the handler. -/
def State.nextHandler (s : State) : Option (Nat × Nat) :=
  ((List.range 32).drop s.ul.port).findSome? fun p => (s.nextOf p).map fun id => (p, id)

/-- R356, R359, R366: the hub's turn: a cycle begins when every port has had its own, and then the next port's handler issues the word at its address. A word
that is none, or that an error has struck, is a fault. -/
def State.hubCycle (s : State) : Action :=
  let s1 := if s.ul.port = 0 then s.tickHub else s
  match s1.nextHandler with
  | none => .rest { s1 with ul := { s1.ul with port := 0 } }
  | some (p, id) =>
    let s2 : State := { s1 with ev := [id], ul := { s1.ul with last := Tbl.put s1.ul.last p id, port := (p + 1) % 32 } }
    match Tbl.find? s2.ul.handlers id with
    | none => .rest s2
    | some h =>
      match (s2.ulFetch h).bind decodeUliah with
      | some i => .run i s2
      | none => .rest (s2.ulFault h 2 0)

/-! The choice (log entry 1). -/

/-- The units in turn: eight of each core that is up, the quads of its ports first, and then the hub. -/
def State.unit (s : State) (n : Nat) : Action :=
  let v := n % (8 * s.cores.length + 1)
  match (Tbl.keys s.cores)[v / 8]? with
  | some c => s.unitCycle c (v % 4) (v / 4 % 2 == 1)
  | none => s.hubCycle

/-- A row that is due, with what it acts on. No split issues it. -/
def State.runDue (s : State) (d : Due) : Action := .run d.row { s with ev := d.ops, cur := { core := 0x1000 } }

/-- What comes next. The head of `picks` names a row that is due, by its place, or beyond those a unit. With no picks the rows that are due, oldest first,
and the units in turn alternate. -/
def State.nextAction (s : State) : Action :=
  match s.picks with
  | k :: ks =>
    let t : State := { s with picks := ks }
    match s.agenda[k]? with
    | some d => State.runDue { t with agenda := s.agenda.eraseIdx k } d
    | none => t.unit (k - s.agenda.length)
  | [] =>
    match s.agenda with
    | [] => State.unit { s with turn := s.turn / 2 * 2 + 2 } (s.turn / 2)
    | d :: r =>
      if s.turn % 2 = 0 then State.runDue { s with agenda := r, turn := s.turn + 1 } d
      else State.unit { s with turn := s.turn + 1 } (s.turn / 2)

/-! Placing an instruction where the next step runs it (log entry 43). -/

/-- The physical and virtual address of the instruction that `withFetchWord` places. -/
def firstPc : Nat := 0x10000

/-- The cohort that issues it: the only one of a block with every resource that a block can have. -/
def firstCohort : Cohort :=
  { uid := 1, launch := 1, asid := 1, image := 0x100000, budget := 64
    splits := [(0, { pc := BitVec.ofNat 64 firstPc, entry := BitVec.allOnes 32, exec := BitVec.allOnes 32 })] }

/-- Core 0 with that cohort's block and a translation for its page. -/
def firstCore : CoreSt :=
  { cohorts := [(0, firstCohort)], owners := [(0, 1)], lines := (List.range 64).map fun r => (1, r)
    blocks := [(0, { launch := 1, gang := 1, size := 0x80000, accN := 16, nHandles := 64, ncohorts := 1, live := [0], uids := [1], started := true })]
    tlb := [{ asid := 1, vpn := 0, bits := 20, ppn := 0, r := true, w := true, x := true, sm := false }] }

/-- The launch of that block. -/
def firstLaunch : Launch :=
  { src := .mgmt, asid := 1, level := 0, image := 0x8000, dataBase := 0, cdest := 0, kind := 0, scope := 0, cseq := 0, status := 0, seed := 0, det := false
    coremask := BitVec.allOnes 256, wdog := 0, nbound := 0, btab := 0, args := []
    stages := [{ entry := firstPc, cohorts := 1, handles := 64, acc := 16, scratch := 0x80000, regs := [64], roles := [1], gx := 1, gy := 1, gz := 1, placed := 1 }]
    chans := [], eligible := [[0]], placed := 1 }

/-- A core's word placed for core 0. -/
def State.placeCoreWord (s : State) (word : Nat) (uni : Bool) : State :=
  let s1 := (s.narrow (firstPc / 128)).poke firstPc (wordBytes 4 word ++ List.replicate 12 0)
  { s1 with
    picks := [], agenda := [], turn := if uni then 8 else 0
    cores := Tbl.put s1.cores 0 firstCore
    gangs := Tbl.put s1.gangs 1 { members := [(0, 0)], window := 0x2000000000000 }
    launches := Tbl.put s1.launches 1 firstLaunch
    nextId := max s1.nextId 2
    hub := Tbl.put s1.hub 8 (s1.hubReg 8 ||| 1) }

/-- A word of the Uliah engine placed for a handler. -/
def State.placeUliahWord (s : State) (word : Nat) : State :=
  { s with
    picks := [], agenda := [], turn := 16 * s.cores.length
    ul := { s.ul with
      prog := Tbl.put s.ul.prog 0 (BitVec.ofNat 32 word), badWords := remNat s.ul.badWords 0
      handlers := [(1, { win := 0, tag := 0, seg := 0, round := 0, pc := 0 })], port := 0 }
    nextId := max s.nextId 2 }

/-- The word is one of the core's, and whether it is of the uniform unit. -/
def coreWord (nbits w : Nat) : Option Bool :=
  match decode (wordBytes (if nbits ≤ 16 then 2 else 4) w) with
  | .ok (i, len) => if 16 < nbits && len == 2 then none else some (Instr.isUniform i)
  | .error _ => none

/-- The instruction with those bits placed where the next step runs it. -/
def State.placeWord (s : State) (nbits w : Nat) : State :=
  match coreWord nbits w with
  | some u => s.placeCoreWord w u
  | none => if (decodeUliah w).isSome && decide (16 < nbits) then s.placeUliahWord w else s.placeCoreWord w false

end Sys2Proof.Machine
end

