-- ==== Sys2Proof/Machine/Step.lean ====
section
/-! DEFINITION. One step of the package, and the placing of an instruction for the next one. -/

namespace Sys2Proof.Machine

open Sys2Proof

/-- One step: a row that is due runs, or a unit takes a cycle (log entry 1). -/
def step (s : State) : Host.Outcome State Fault Refusal := s.nextAction.out

/-- The state with an instruction stored where the next step runs it (log entry 43). -/
def State.withFetchWord (s : State) (nbits w : Nat) : State := s.placeWord nbits w

end Sys2Proof.Machine
end

