-- ==== Sys2Proof/Safety.lean ====
section
/-! DEFINITION. The terms that claims about the machine use: when an instruction is clear to issue, what is as before a step,
how registers change, and the invariant that steps keep. -/

namespace Sys2Proof.Machine

open Sys2Proof

/-- The split `w` is clear to issue an instruction that names `u`: it is ready and its cohort may issue (R210), it does not stand at
its join address (R113), nothing that the instruction waits for is outstanding (R79, R155), its register and handle fields are in
range (R54), its branch target is even (R50), a privileged one runs in the handler (R321), its handles exist (R161), the tags of its operands are
no reserved ones (R33), and no lane consumes poison (R224). -/
structure Clear (s : State) (w : Who) (u : Uses) : Prop where
  who : s.who? = some w
  ready : w.sp.state = 0
  free : w.h.mayIssue = true
  onward : w.h.atJoin w.sp = false
  unheld : s.heldBack w u = false
  legal : u.bad w.h.budget (s.handleCount w) = false
  target : u.odd = none
  allowed : u.priv = true → w.h.handler = true
  handles : s.freeHandle w u = none
  laneTags : ∀ r ∈ u.vs, Num.goodTag (w.h.vtag r) = true
  uniformTags : ∀ r ∈ u.us, Num.goodTag (w.h.utag r) = true
  sound : w.eaten u = 0

/-- Everything but the cohort in slot `k` of core `c` is as before, and so is every byte of memory. -/
structure OnlyCohort (s t : State) (c k : Nat) : Prop where
  rest : { t with cores := s.cores } = s
  cores : ∀ c', c' ≠ c → t.core c' = s.core c'
  core : { t.core c with cohorts := (s.core c).cohorts } = s.core c
  cohorts : ∀ k', k' ≠ k → t.cohort? c k' = s.cohort? c k'
  bytes : ∀ a, Mem.rd t.mem a = Mem.rd s.mem a

/-- The split past its instruction (R49): its address is moved on by the length, and its counters start again. -/
def Who.past (w : Who) : Split := { w.sp with pc := w.sp.pc + BitVec.ofNat 64 w.len, wait := 0, timer := 0, rewait := false }

/-- The cohort of `w` with its split past the instruction. -/
def Who.gone (w : Who) : Cohort :=
  { w.h.onSplit w.i (fun sp => { sp with pc := sp.pc + BitVec.ofNat 64 w.len, wait := 0, timer := 0, rewait := false }) with seq := w.h.seq + 1 }

/-- The state in which the issuing split is past its instruction, and nothing else has changed. -/
abbrev State.onward (s : State) (w : Who) : State := s.setCohort w.c w.k w.gone

/-- In the cohort `h` the issuing split has become `sp`, the others are as before, and the instruction has a place in issue order. -/
structure WentOn (w : Who) (sp : Split) (h : Cohort) : Prop where
  here : h.split? w.i = some sp
  others : ∀ j, j ≠ w.i → h.split? j = w.h.split? j
  seq : h.seq = w.h.seq + 1

/-- The registers, the splits and the place in issue order apart, the cohort is as before. -/
def SameBut (h h' : Cohort) : Prop :=
  { h' with v := h.v, q := h.q, p := h.p, dirty := h.dirty, splits := h.splits, seq := h.seq } = h

/-- Lane register `d` has its words in the lanes of `m` from `f` and its other words as before, with the tag; words written are no longer
poisoned, and every other lane register is as before (R78). -/
structure LanesSet (h h' : Cohort) (d : Nat) (m : Mask) (tag : Nat) (f : Nat → Word) : Prop where
  words : ∀ l, l < 32 → h'.lane d l = if inMask m l then f l else h.lane d l
  tag : h'.vtag d = tag
  poison : (h'.vreg d).poison = (h.vreg d).poison &&& ~~~m
  others : ∀ n, n ≠ d → h'.vreg n = h.vreg n

/-- The pair `d`, `d + 1` has its doublewords in the lanes of `m` from `f`, both registers with the tag, and every other lane register is
as before (R21, R78). -/
structure PairSet (h h' : Cohort) (d : Nat) (m : Mask) (tag : Nat) (f : Nat → DWord) : Prop where
  words : ∀ l, l < 32 → h'.pair d l = if inMask m l then f l else h.pair d l
  tags : h'.vtag d = tag ∧ h'.vtag (d + 1) = tag
  others : ∀ n, n ≠ d → n ≠ d + 1 → h'.vreg n = h.vreg n

/-- Uniform register `d` holds `x` with the tag, unless it is `q0`, which reads zero whatever is written; every other uniform register is
as before (R54). -/
structure UniformSet (h h' : Cohort) (d : Nat) (x : DWord) (tag : Nat) : Prop where
  value : d ≠ 0 → h'.uq d = x ∧ h'.utag d = tag
  zero : h'.uq 0 = 0
  others : ∀ n, n ≠ d → h'.uq n = h.uq n ∧ h'.utag n = h.utag n

/-- Predicate `d` has the bits of `x` in the lanes of `m` and its other bits as before, unless it is `p0`, which reads 1 whatever is
written; every other predicate is as before (R65, R78, R92). -/
structure PredSet (h h' : Cohort) (d : Nat) (m x : Mask) : Prop where
  bits : d ≠ 0 → ∀ l, l < 32 → inMask (h'.pred d) l = if inMask m l then inMask x l else inMask (h.pred d) l
  one : h'.pred 0 = BitVec.allOnes 32
  others : ∀ n, n ≠ d → h'.pred n = h.pred n

/-- The lane, uniform and predicate registers are as before, one class at a time. -/
def SameLanes (h h' : Cohort) : Prop := ∀ n, h'.vreg n = h.vreg n

/-- Every uniform register is as before. -/
def SameUniform (h h' : Cohort) : Prop := ∀ n, h'.uq n = h.uq n ∧ h'.utag n = h.utag n

/-- Every predicate is as before. -/
def SamePreds (h h' : Cohort) : Prop := ∀ n, h'.pred n = h.pred n

/-- An instruction completes: it answers a next state in which its own cohort alone has changed, to one for which `P` holds. -/
def Completes (s : State) (w : Who) (r : Out) (P : Cohort → Prop) : Prop :=
  ∃ t h, r = .next t ∧ OnlyCohort s t w.c w.k ∧ t.cohort? w.c w.k = some h ∧ P h

/-- A lane instruction completes: the split goes on, one lane register is written, and nothing else changes. -/
def WritesLanes (s : State) (w : Who) (r : Out) (d : Nat) (m : Mask) (tag : Nat) (f : Nat → Word) : Prop :=
  Completes s w r fun h => WentOn w w.past h ∧ SameBut w.h h ∧ LanesSet w.h h d m tag f ∧ SameUniform w.h h ∧ SamePreds w.h h

/-- A lane instruction with a pair for its destination completes. -/
def WritesPair (s : State) (w : Who) (r : Out) (d : Nat) (m : Mask) (tag : Nat) (f : Nat → DWord) : Prop :=
  Completes s w r fun h => WentOn w w.past h ∧ SameBut w.h h ∧ PairSet w.h h d m tag f ∧ SameUniform w.h h ∧ SamePreds w.h h

/-- A uniform instruction completes. -/
def WritesUniform (s : State) (w : Who) (r : Out) (d : Nat) (x : DWord) (tag : Nat) : Prop :=
  Completes s w r fun h => WentOn w w.past h ∧ SameBut w.h h ∧ UniformSet w.h h d x tag ∧ SameLanes w.h h ∧ SamePreds w.h h

/-- An instruction that writes a predicate completes. -/
def WritesPred (s : State) (w : Who) (r : Out) (d : Nat) (m x : Mask) : Prop :=
  Completes s w r fun h => WentOn w w.past h ∧ SameBut w.h h ∧ PredSet w.h h d m x ∧ SameLanes w.h h ∧ SameUniform w.h h

/-- An instruction completes that moves its split to `pc` and writes no register. -/
def MovesOn (s : State) (w : Who) (r : Out) (pc : DWord) : Prop :=
  Completes s w r fun h =>
    WentOn w { w.past with pc := pc } h ∧ SameBut w.h h ∧ SameLanes w.h h ∧ SameUniform w.h h ∧ SamePreds w.h h

/-- An instruction leaves its cohort as `h` and rows due, and nothing else has changed: no other cohort and no byte of memory. -/
def Leaves (s : State) (w : Who) (r : Out) (h : Cohort) (due : List Due) : Prop :=
  ∃ t, r = .next t ∧ t.cohort? w.c w.k = some h ∧ (∀ c k, ¬ (c = w.c ∧ k = w.k) → t.cohort? c k = s.cohort? c k) ∧
    (∀ d ∈ due, d ∈ t.agenda) ∧ { t with cores := s.cores, agenda := s.agenda } = s

/-- The split stops at its instruction with a cause, and nothing else changes but the wait counters, which are 0 while it is stopped: the
cohort's trap is due (R69, R211, R227). -/
def Stops (s : State) (w : Who) (r : Out) (code sub addr : Nat) : Prop :=
  Leaves s w r { w.h.halt with cause := some { code := code, sub := sub, pc := w.sp.pc, word := w.word, len := w.len, addr := addr } }
    [{ row := .trapEntry, ops := [w.c, w.k] }]

/-- The split waits at its instruction, with a state code of R327. -/
def Waits (s : State) (w : Who) (r : Out) (code : Nat) (hold : Hold) : Prop :=
  Leaves s w r (w.h.onSplit w.i fun sp => { sp with state := code, hold := hold }) []

/-- A row that is due, or an instruction that acts beyond its cohort, answers a next state for which `P` holds. -/
def Answers (s : State) (i : Instr) (P : State → Prop) : Prop := ∃ t, exec i s = .next t ∧ P t

/-- The front end has reached the instruction's checks: its split is ready and its cohort may issue, it does not stand at its join address,
and nothing holds the instruction back. -/
structure Reaches (s : State) (w : Who) (u : Uses) : Prop where
  who : s.who? = some w
  ready : w.sp.state = 0
  free : w.h.mayIssue = true
  onward : w.h.atJoin w.sp = false
  unheld : s.heldBack w u = false

/-- The two operands of a lane instruction in lane `l`: a lane register, and a lane register or the low word of a uniform one (R58). -/
def Who.srcA (w : Who) (o : OpA) (l : Nat) : Word := w.h.lane o.a l

@[inherit_doc Who.srcA]
def Who.srcB (w : Who) (o : OpA) (l : Nat) : Word := if o.q = 1 then (w.h.uq o.b).truncate 32 else w.h.lane o.b l

/-- The instruction `i` writes `f` of its two operands, tagged, in its writing lanes. -/
def LaneOp2 (s : State) (w : Who) (o : OpA) (i : Instr) (tag : Nat) (f : Word → Word → Word) : Prop :=
  WritesLanes s w (exec i s) o.d (w.h.writing w.sp o.g) tag fun l => f (w.srcA o l) (w.srcB o l)

/-- The instruction `i` writes `f` of its two operands and its old destination. -/
def LaneOp3 (s : State) (w : Who) (o : OpA) (i : Instr) (tag : Nat) (f : Word → Word → Word → Word) : Prop :=
  WritesLanes s w (exec i s) o.d (w.h.writing w.sp o.g) tag fun l => f (w.srcA o l) (w.srcB o l) (w.h.lane o.d l)

/-- The instruction `i` writes `f` of its one operand. -/
def LaneOp1 (s : State) (w : Who) (o : OpU) (i : Instr) (tag : Nat) (f : Word → Word) : Prop :=
  WritesLanes s w (exec i s) o.d (w.h.writing w.sp o.g) tag fun l => f (w.h.lane o.a l)

/-- The sixteen-bit instruction `i` writes `f` of its destination and its source in the active lanes. -/
def HalfOp2 (s : State) (w : Who) (r d : Nat) (i : Instr) (tag : Nat) (f : Word → Word → Word) : Prop :=
  WritesLanes s w (exec i s) d (w.h.active w.sp) tag fun l => f (w.h.lane d l) (w.h.lane r l)

/-- The sixteen-bit instruction `i` writes `f` of its destination. -/
def HalfOp1 (s : State) (w : Who) (d : Nat) (i : Instr) (f : Word → Word) : Prop :=
  WritesLanes s w (exec i s) d (w.h.active w.sp) 0 fun l => f (w.h.lane d l)

end Sys2Proof.Machine
end

