-- ==== Sys2Proof/Certificates/Slice0/Obligations.lean ====
section
/-! DEFINITION. The statements for the provers. -/

open Sys2Proof Sys2Proof.Machine

/-! Lane instructions (R78 to R92). -/

/-- R7, R55, R78: a lane writes where it is in the split, its bit of `exec` is set, it is not grey, and the guard passes: guard 0 always does,
1 to 7 where the predicate is 1, and 8 to 15 where predicate g - 8 is 0. -/
def Obligations.WritingLanes : Prop :=
  ∀ (h : Cohort) (sp : Split) (g l : Nat), g < 16 → l < 32 →
    (inMask (h.writing sp g) l = true ↔
      (inMask sp.entry l = true ∧ inMask sp.exec l = true ∧ inMask h.dmask l = false ∧
        (g = 0 ∨ (0 < g ∧ g < 8 ∧ inMask (h.pred g) l = true) ∨ (8 ≤ g ∧ inMask (h.pred (g - 8)) l = false))))

/-- R83, with R78: the results of the lane instructions of two sources and of `IMAD`, in every operand form, with their frame. -/
def Obligations.LaneIntegerResults : Prop :=
  ∀ (s : State) (w : Who) (o : OpA),
    (Clear s w (usesA o) →
      LaneOp2 s w o (.iadd o) 0 (fun a b => a + b) ∧
      LaneOp2 s w o (.isub o) 0 (fun a b => a - b) ∧
      LaneOp2 s w o (.imul o) 0 (fun a b => a * b) ∧
      LaneOp2 s w o (.imulh o) 0 (fun a b => (a.signExtend 64 * b.signExtend 64).extractLsb' 32 32) ∧
      LaneOp2 s w o (.imulhn o) 0 (fun a b => (a.zeroExtend 64 * b.zeroExtend 64).extractLsb' 32 32) ∧
      LaneOp2 s w o (.imin o) 0 (fun a b => if a.slt b then a else b) ∧
      LaneOp2 s w o (.imax o) 0 (fun a b => if a.slt b then b else a) ∧
      LaneOp2 s w o (.nmin o) 0 (fun a b => if a.ult b then a else b) ∧
      LaneOp2 s w o (.nmax o) 0 (fun a b => if a.ult b then b else a) ∧
      LaneOp2 s w o (.isad o) 0 (fun a b => BitVec.ofNat 32 (a.toInt - b.toInt).natAbs)) ∧
    (Clear s w (usesAcc o) → LaneOp3 s w o (.imad o) 0 (fun a b d => a * b + d))

/-- R83: the bitwise and shift instructions: a shift by 32 or more gives 0, or copies of the sign for `SRA`. -/
def Obligations.LaneBitwiseResults : Prop :=
  ∀ (s : State) (w : Who) (o : OpA), Clear s w (usesA o) →
    LaneOp2 s w o (.land o) 0 (fun a b => a &&& b) ∧
    LaneOp2 s w o (.lor o) 0 (fun a b => a ||| b) ∧
    LaneOp2 s w o (.lxor o) 0 (fun a b => a ^^^ b) ∧
    LaneOp2 s w o (.andn o) 0 (fun a b => a &&& ~~~b) ∧
    LaneOp2 s w o (.shl o) 0 (fun a b => a <<< (b.toNat % 256)) ∧
    LaneOp2 s w o (.shr o) 0 (fun a b => a >>> (b.toNat % 256)) ∧
    LaneOp2 s w o (.sra o) 0 (fun a b => a.sshiftRight (b.toNat % 256)) ∧
    LaneOp2 s w o (.rot o) 0 (fun a b => (a <<< (b.toNat % 32)) ||| (a >>> (32 - b.toNat % 32)))

/-- R84: `BFX` and `BFI`: pos is B[4:0], len is B[13:8] and at most 32, sgn is B[16], and bits of A above 31 read as zero. -/
def Obligations.FieldResults : Prop :=
  ∀ (s : State) (w : Who) (o : OpA),
    let pos (b : Word) : Nat := b.toNat % 32
    let len (b : Word) : Nat := min (b.toNat / 256 % 64) 32
    (Clear s w (usesA o) → ∃ f, LaneOp2 s w o (.bfx o) 0 f ∧
      ∀ a b i, i < 32 → (f a b).getLsbD i =
        if len b = 0 then false
        else if i < len b then a.getLsbD (pos b + i)
        else b.getLsbD 16 && a.getLsbD (pos b + len b - 1)) ∧
    (Clear s w (usesAcc o) → ∃ f, LaneOp3 s w o (.bfi o) 0 f ∧
      ∀ a b d i, i < 32 → (f a b d).getLsbD i =
        if pos b ≤ i ∧ i < pos b + len b then a.getLsbD (i - pos b) else d.getLsbD i)

/-- R83 to R85: the instructions of one source, `MOV`, which takes the tag of its source along, `SEL`, which is never guarded and whose tag is
that of its operands or of the one that the lowest writing lane selected, and `IADDC`, whose pair holds the sum and the carry. -/
def Obligations.LaneUnaryResults : Prop :=
  ∀ (s : State) (w : Who) (o : OpU) (o2 : OpA),
    (Clear s w (usesU o) →
      LaneOp1 s w o (.iabs o) 0 (fun a => if a.msb then -a else a) ∧
      (∃ f, LaneOp1 s w o (.popc o) 0 f ∧ ∀ a, (f a).toNat = ((List.range 32).filter fun i => a.getLsbD i).length) ∧
      (∃ f, LaneOp1 s w o (.clz o) 0 f ∧ f 0 = 32 ∧
        ∀ a, a ≠ 0 → (f a).toNat ≤ 31 ∧ a.toNat / 2 ^ (31 - (f a).toNat) = 1) ∧
      (∃ f, LaneOp1 s w o (.brev o) 0 f ∧ ∀ a i, i < 32 → (f a).getLsbD i = a.getLsbD (31 - i)) ∧
      LaneOp1 s w o (.mov o) (w.h.vtag o.a) (fun a => a)) ∧
    (Clear s w { usesA o2 with guard := 0 } →
      let m := w.h.active w.sp
      let other := if o2.q = 1 then w.h.utag o2.b else w.h.vtag o2.b
      let tag := if w.h.vtag o2.a = other ∨ m = 0 ∨ inMask (w.h.guardMask o2.g) (lowestLane m) = true then w.h.vtag o2.a else other
      WritesLanes s w (exec (.sel o2) s) o2.d m tag fun l => if inMask (w.h.guardMask o2.g) l then w.srcA o2 l else w.srcB o2 l) ∧
    (Clear s w { usesA o2 with vs := (o2.d + 1) :: (usesA o2).vs, vd := [o2.d, o2.d + 1], pairs := [o2.d] } →
      WritesPair s w (exec (.iaddc o2) s) o2.d (w.h.writing w.sp o2.g) 0 fun l =>
        (w.srcA o2 l).zeroExtend 64 + (w.srcB o2 l).zeroExtend 64 + (w.h.lane (o2.d + 1) l &&& 1).zeroExtend 64)

/-- R86: the immediate forms, each field extended by its sign, and `MOVI`, which has no source. -/
def Obligations.ImmediateResults : Prop :=
  ∀ (s : State) (w : Who) (o : OpI) (p : OpSh) (m : OpMovi),
    let lane (i : Instr) (d a g : Nat) (f : Word → Word) : Prop :=
      WritesLanes s w (exec i s) d (w.h.writing w.sp g) 0 fun l => f (w.h.lane a l)
    (Clear s w (laneUses [o.a] [] [o.d] o.g) →
      lane (.iaddi o) o.d o.a o.g (fun a => a + (BitVec.ofNat 9 o.i).signExtend 32) ∧
      lane (.imuli o) o.d o.a o.g (fun a => a * (BitVec.ofNat 9 o.i).signExtend 32) ∧
      lane (.andi o) o.d o.a o.g (fun a => a &&& (BitVec.ofNat 7 o.i).signExtend 32) ∧
      lane (.ori o) o.d o.a o.g (fun a => a ||| (BitVec.ofNat 7 o.i).signExtend 32) ∧
      lane (.xori o) o.d o.a o.g (fun a => a ^^^ (BitVec.ofNat 7 o.i).signExtend 32) ∧
      lane (.isubri o) o.d o.a o.g (fun a => (BitVec.ofNat 7 o.i).signExtend 32 - a)) ∧
    (Clear s w (laneUses [p.a] [] [p.d] p.g) →
      lane (.shli p) p.d p.a p.g (fun a => a <<< p.s) ∧
      lane (.shri p) p.d p.a p.g (fun a => a >>> p.s) ∧
      lane (.srai p) p.d p.a p.g (fun a => a.sshiftRight p.s)) ∧
    (Clear s w (laneUses [] [] [m.d] m.g) →
      WritesLanes s w (exec (.movi m) s) m.d (w.h.writing w.sp m.g) 0 fun _ => (BitVec.ofNat 13 m.i).signExtend 32)

/-- R51, R52: the sixteen-bit integer forms, which are never guarded. -/
def Obligations.SixteenBitResults : Prop :=
  ∀ (s : State) (w : Who) (r d : Nat),
    (Clear s w (laneUses [r] [] [d] 0) → WritesLanes s w (exec (.mov16 r d) s) d (w.h.active w.sp) (w.h.vtag r) fun l => w.h.lane r l) ∧
    (Clear s w (laneUses [r, d] [] [d] 0) →
      HalfOp2 s w r d (.iadd16 r d) 0 (fun a b => a + b) ∧
      HalfOp2 s w r d (.isub16 r d) 0 (fun a b => a - b) ∧
      HalfOp2 s w r d (.imul16 r d) 0 (fun a b => a * b) ∧
      HalfOp2 s w r d (.and16 r d) 0 (fun a b => a &&& b) ∧
      HalfOp2 s w r d (.or16 r d) 0 (fun a b => a ||| b) ∧
      HalfOp2 s w r d (.xor16 r d) 0 (fun a b => a ^^^ b)) ∧
    (Clear s w (laneUses [d] [] [d] 0) →
      HalfOp1 s w d (.shli16 r d) (fun a => a <<< r) ∧
      HalfOp1 s w d (.shri16 r d) (fun a => a >>> r) ∧
      HalfOp1 s w d (.srai16 r d) (fun a => a.sshiftRight r) ∧
      HalfOp1 s w d (.addi16 r d) (fun a => a + (BitVec.ofNat 5 r).signExtend 32))

/-! Floating point, compares and predicates (R24 to R44, R87 to R92). -/

/-- R42: the minimum and the maximum of FP32: either NaN gives the canonical NaN in `FMIN` and `FMAX`, one NaN gives the other operand in
`FMINN` and `FMAXN`, -0 is below +0, and otherwise the result is one of the operands, the other being no less, or no greater. -/
def Obligations.FloatMinMax : Prop :=
  ∀ a b : Nat, a < 2 ^ 32 → b < 2 ^ 32 →
    let nan (x : Nat) : Prop := Num.unpack .fp32 x = .nan
    ((nan a ∨ nan b) → Num.fmin .fp32 a b = 0x7fc00000 ∧ Num.fmax .fp32 a b = 0x7fc00000) ∧
    (nan a → ¬ nan b → Num.fminn .fp32 a b = b ∧ Num.fmaxn .fp32 a b = b) ∧
    (¬ nan a → nan b → Num.fminn .fp32 a b = a ∧ Num.fmaxn .fp32 a b = a) ∧
    (¬ nan a → ¬ nan b →
      Num.fminn .fp32 a b = Num.fmin .fp32 a b ∧ Num.fmaxn .fp32 a b = Num.fmax .fp32 a b ∧
      (Num.fmin .fp32 a b = a ∧ Num.less (Num.unpack .fp32 b) (Num.unpack .fp32 a) = false ∨
        Num.fmin .fp32 a b = b ∧ Num.less (Num.unpack .fp32 a) (Num.unpack .fp32 b) = false) ∧
      (Num.fmax .fp32 a b = a ∧ Num.less (Num.unpack .fp32 a) (Num.unpack .fp32 b) = false ∨
        Num.fmax .fp32 a b = b ∧ Num.less (Num.unpack .fp32 b) (Num.unpack .fp32 a) = false)) ∧
    Num.fmin .fp32 0 0x80000000 = 0x80000000 ∧ Num.fmin .fp32 0x80000000 0 = 0x80000000 ∧
    Num.fmax .fp32 0 0x80000000 = 0 ∧ Num.fmax .fp32 0x80000000 0 = 0

/-- R87, R51: the FP32 instructions on operands tagged fp32 or raw: the result is rounded by the mode of the split's `frm` and tagged fp32. -/
def Obligations.FloatResults : Prop :=
  ∀ (s : State) (w : Who) (o : OpA) (r d : Nat),
    let ok (t : Nat) : Prop := t = 0 ∨ t = 0x11
    let tagB := if o.q = 1 then w.h.utag o.b else w.h.vtag o.b
    let op (i : Instr) (f : Nat → Nat → Nat) : Prop := LaneOp2 s w o i 0x11 fun a b => BitVec.ofNat 32 (f a.toNat b.toNat)
    let half (i : Instr) (f : Nat → Nat → Nat) : Prop := HalfOp2 s w r d i 0x11 fun a b => BitVec.ofNat 32 (f a.toNat b.toNat)
    let mode := w.sp.frm.toNat % 8
    (Clear s w (usesA o) → ok (w.h.vtag o.a) → ok tagB →
      op (.fadd o) (Num.fadd .fp32 mode) ∧ op (.fsub o) (Num.fsub .fp32 mode) ∧ op (.fmul o) (Num.fmul .fp32 mode) ∧
      op (.fmin o) (Num.fmin .fp32) ∧ op (.fmax o) (Num.fmax .fp32) ∧ op (.fminn o) (Num.fminn .fp32) ∧
      op (.fmaxn o) (Num.fmaxn .fp32)) ∧
    (Clear s w (usesAcc o) → ok (w.h.vtag o.a) → ok tagB → ok (w.h.vtag o.d) →
      LaneOp3 s w o (.ffma o) 0x11 fun a b c => BitVec.ofNat 32 (Num.ffma .fp32 mode a.toNat b.toNat c.toNat)) ∧
    (Clear s w (laneUses [r, d] [] [d] 0) → ok (w.h.vtag d) → ok (w.h.vtag r) →
      half (.fadd16 r d) (Num.fadd .fp32 mode) ∧ half (.fsub16 r d) (Num.fsub .fp32 mode) ∧ half (.fmul16 r d) (Num.fmul .fp32 mode) ∧
      half (.fmin16 r d) (Num.fmin .fp32) ∧ half (.fmax16 r d) (Num.fmax .fp32))

/-- R88: the special functions: `FSQRT` rounds by the mode of the split, and the others to nearest even. -/
def Obligations.SpecialFunctionResults : Prop :=
  ∀ (s : State) (w : Who) (o : OpU), Clear s w (usesU o) → (w.h.vtag o.a = 0 ∨ w.h.vtag o.a = 0x11) →
    let op (i : Instr) (f : Nat → Nat) : Prop := LaneOp1 s w o i 0x11 fun a => BitVec.ofNat 32 (f a.toNat)
    op (.frcp o) (Num.frcp .fp32 0) ∧ op (.frsq o) (Num.frsq .fp32) ∧ op (.fsqrt o) (Num.fsqrt .fp32 (w.sp.frm.toNat % 8)) ∧
    op (.fex2 o) Num.fex2 ∧ op (.flg2 o) Num.flg2 ∧ op (.fsin o) Num.fsin ∧ op (.fcos o) Num.fcos ∧ op (.ftanh o) Num.ftanh

/-- R32, R89: the packed-half instructions. The format is the one tag that the operands carry, or that of `frm.hfmt` where all are raw; each
element is computed apart, and the result is tagged with the format. -/
def Obligations.PackedHalfResults : Prop :=
  ∀ (s : State) (w : Who) (o : OpA) (t : Nat), t = 0x12 ∨ t = 0x13 →
    let f : Num.Fmt := if t = 0x13 then .bf16 else .fp16
    let tagB := if o.q = 1 then w.h.utag o.b else w.h.vtag o.b
    let agree (l : List Nat) : Prop := (∀ x ∈ l, x = 0 ∨ x = t) ∧ ((∀ x ∈ l, x = 0) → t = if w.sp.frm.getLsbD 3 then 0x13 else 0x12)
    let mode := w.sp.frm.toNat % 8
    let lo (x : Word) : Nat := x.toNat % 2 ^ 16
    let hi (x : Word) : Nat := x.toNat / 2 ^ 16
    let op (i : Instr) (g : Nat → Nat → Nat) : Prop := LaneOp2 s w o i t fun a b => BitVec.ofNat 32 (g (lo a) (lo b) + 2 ^ 16 * g (hi a) (hi b))
    (Clear s w (usesA o) → agree [w.h.vtag o.a, tagB] →
      op (.hadd o) (Num.fadd f mode) ∧ op (.hsub o) (Num.fsub f mode) ∧ op (.hmul o) (Num.fmul f mode) ∧ op (.hmin o) (Num.fmin f) ∧
      op (.hmax o) (Num.fmax f) ∧
      LaneOp2 s w o (.hdot2 o) t fun a b => BitVec.ofNat 32 (Num.fdot2 f mode (lo a) (lo b) (hi a) (hi b))) ∧
    (Clear s w (usesAcc o) → agree [w.h.vtag o.a, tagB, w.h.vtag o.d] →
      LaneOp3 s w o (.hfma o) t fun a b c =>
        BitVec.ofNat 32 (Num.ffma f mode (lo a) (lo b) (lo c) + 2 ^ 16 * Num.ffma f mode (hi a) (hi b) (hi c)))

/-- R90: the FP64 instructions on even pairs tagged fp64 or raw; a uniform b supplies all 64 bits. -/
def Obligations.DoubleResults : Prop :=
  ∀ (s : State) (w : Who) (o : OpA) (p : OpU),
    let ok (t : Nat) : Prop := t = 0 ∨ t = 0x10
    let tagB := if o.q = 1 then w.h.utag o.b else w.h.vtag o.b
    let mode := w.sp.frm.toNat % 8
    let a (l : Nat) : Nat := (w.h.pair o.a l).toNat
    let b (l : Nat) : Nat := (if o.q = 1 then w.h.uq o.b else w.h.pair o.b l).toNat
    let op (i : Instr) (f : Nat → Nat → Nat) : Prop :=
      WritesPair s w (exec i s) o.d (w.h.writing w.sp o.g) 0x10 fun l => BitVec.ofNat 64 (f (a l) (b l))
    let one (i : Instr) (f : Nat → Nat) : Prop :=
      WritesPair s w (exec i s) p.d (w.h.writing w.sp p.g) 0x10 fun l => BitVec.ofNat 64 (f (w.h.pair p.a l).toNat)
    (Clear s w (uses64 o) → ok (w.h.vtag o.a) → ok tagB →
      op (.dadd o) (Num.fadd .fp64 mode) ∧ op (.dsub o) (Num.fsub .fp64 mode) ∧ op (.dmul o) (Num.fmul .fp64 mode) ∧
      op (.dmin o) (Num.fmin .fp64) ∧ op (.dmax o) (Num.fmax .fp64)) ∧
    (Clear s w (uses64Acc o) → ok (w.h.vtag o.a) → ok tagB → ok (w.h.vtag o.d) →
      WritesPair s w (exec (.dfma o) s) o.d (w.h.writing w.sp o.g) 0x10 fun l =>
        BitVec.ofNat 64 (Num.ffma .fp64 mode (a l) (b l) (w.h.pair o.d l).toNat)) ∧
    (Clear s w (usesU64 p) → ok (w.h.vtag p.a) → one (.drcp p) (Num.frcp .fp64 mode) ∧ one (.dsqrt p) (Num.fsqrt .fp64 mode))

/-- R60, R91: the compares: the predicate gets the condition in each writing lane. A NaN makes every ordered condition and `.eq` false and
`.ne` true, and -0 equals +0. -/
def Obligations.CompareResults : Prop :=
  ∀ (s : State) (w : Who) (o : OpCmp),
    let b (l : Nat) : Word := if o.q = 1 then (w.h.uq o.b).truncate 32 else w.h.lane o.b l
    let tagB := if o.q = 1 then w.h.utag o.b else w.h.vtag o.b
    let order (x y : Int) : Prop :=
      (o.c = 0 ∧ x = y) ∨ (o.c = 1 ∧ x ≠ y) ∨ (o.c = 2 ∧ x < y) ∨ (o.c = 3 ∧ x ≤ y) ∨ (o.c = 4 ∧ x > y) ∨ (o.c = 5 ∧ x ≥ y)
    let value (x y : Num.FVal) : Prop :=
      let num := x ≠ .nan ∧ y ≠ .nan
      let lt := Num.less x y = true
      let gt := Num.less y x = true
      (o.c = 0 ∧ num ∧ ¬ lt ∧ ¬ gt) ∨ (o.c = 1 ∧ (¬ num ∨ lt ∨ gt)) ∨ (o.c = 2 ∧ lt) ∨ (o.c = 3 ∧ num ∧ ¬ gt) ∨ (o.c = 4 ∧ gt) ∨
        (o.c = 5 ∧ num ∧ ¬ lt) ∨ (o.c = 6 ∧ num) ∨ (o.c = 7 ∧ ¬ num)
    let gives (i : Instr) (cond : Nat → Prop) : Prop :=
      ∃ x : Mask, (∀ l, l < 32 → (inMask x l = true ↔ cond l)) ∧ WritesPred s w (exec i s) o.p (w.h.writing w.sp o.g) x
    (Clear s w (usesCmp o) → o.c < 6 →
      gives (.icmp o) (fun l => order (w.h.lane o.a l).toInt (b l).toInt) ∧
      gives (.ncmp o) (fun l => order (w.h.lane o.a l).toNat (b l).toNat)) ∧
    (Clear s w (usesCmp o) → o.c < 8 → (w.h.vtag o.a = 0 ∨ w.h.vtag o.a = 0x11) → (tagB = 0 ∨ tagB = 0x11) →
      gives (.fcmp o) (fun l => value (Num.unpack .fp32 (w.h.lane o.a l).toNat) (Num.unpack .fp32 (b l).toNat))) ∧
    (Clear s w (usesCmp64 o) → o.c < 8 → (w.h.vtag o.a = 0 ∨ w.h.vtag o.a = 0x10) → (tagB = 0 ∨ tagB = 0x10) →
      gives (.dcmp o) (fun l => value (Num.unpack .fp64 (w.h.pair o.a l).toNat)
        (Num.unpack .fp64 (if o.q = 1 then w.h.uq o.b else w.h.pair o.b l).toNat)))

/-- R92, R98, R100: the predicate instructions, the votes on predicates and `ELECT`. -/
def Obligations.PredicateResults : Prop :=
  ∀ (s : State) (w : Who) (o : OpP) (n : OpPn) (v : OpVoteP) (p g : Nat),
    (Clear s w (laneUses [] [] [] o.g) →
      WritesPred s w (exec (.pand o) s) o.d (w.h.writing w.sp o.g) (w.h.pred o.a &&& w.h.pred o.b) ∧
      WritesPred s w (exec (.por o) s) o.d (w.h.writing w.sp o.g) (w.h.pred o.a ||| w.h.pred o.b) ∧
      WritesPred s w (exec (.pxor o) s) o.d (w.h.writing w.sp o.g) (w.h.pred o.a ^^^ w.h.pred o.b)) ∧
    (Clear s w (laneUses [] [] [] n.g) → WritesPred s w (exec (.pnot n) s) n.d (w.h.writing w.sp n.g) (~~~ w.h.pred n.a)) ∧
    (Clear s w (laneUses [] [] [] v.g) →
      let m := w.h.writing w.sp v.g
      let all (b : Bool) : Mask := if b then BitVec.allOnes 32 else 0
      WritesPred s w (exec (.voteAny v) s) v.p m (all ((List.range 32).any fun l => inMask m l && inMask (w.h.pred v.s) l)) ∧
      WritesPred s w (exec (.voteAll v) s) v.p m (all ((List.range 32).all fun l => !inMask m l || inMask (w.h.pred v.s) l))) ∧
    (Clear s w (laneUses [] [] [] g) →
      ∃ x : Mask, WritesPred s w (exec (.elect p g) s) p (w.h.writing w.sp g) x ∧
        ∀ l, l < 32 → (inMask (x &&& w.h.writing w.sp g) l = true ↔
          (inMask (w.h.writing w.sp g) l = true ∧ ∀ j, j < l → inMask (w.h.writing w.sp g) j = false)))


/-! Conversions, lanes together, and moves between classes (R93 to R104). -/

/-- R38, R93, R94: `CVT` and `CVTB` write each writing lane's converted element, or all lanes of one block with one shared exponent, tagged with
the target; under DTH the split's dither phase advances. -/
def Obligations.ConversionResults : Prop :=
  ∀ (s : State) (w : Who) (o : OpCvt),
    Clear s w (usesCvt o w) → Num.goodTag o.t = true → ¬ (Num.wideTag (w.h.vtag o.a) = true ∧ o.a % 2 = 1) →
    let m := w.h.writing w.sp o.g
    let src := w.h.vtag o.a
    let bits (l : Nat) : Nat := if Num.wideTag src then (w.h.pair o.a l).toNat else (w.h.lane o.a l).toNat
    let f (l : Nat) : Nat :=
      if o.t = 0 then bits l else Num.convert src (w.h.sxExp o.a) o.t (o.s == 1) (w.sp.frm.toNat % 8) l w.sp.dph.toNat (bits l)
    let blk := Num.toSX ((List.range 32).map fun l => if inMask m l then Num.valueOf src (w.h.sxExp o.a) (bits l) else Num.FVal.fin false 0 0)
      (o.t - 0x20) (o.s == 1) (w.sp.frm.toNat % 8) w.sp.dph.toNat
    let gives (i : Instr) (regs : Cohort → Prop) : Prop := Completes s w (exec i s) fun h =>
      WentOn w (if w.sp.frm.toNat % 8 = 5 then { w.past with dph := w.sp.dph + 1 } else w.past) h ∧ SameBut w.h h ∧ regs h ∧
        SameUniform w.h h ∧ SamePreds w.h h
    let elements (h : Cohort) : Prop :=
      if wideDest src o.t = true then PairSet w.h h o.d m o.t fun l => BitVec.ofNat 64 (f l)
      else LanesSet w.h h o.d m o.t fun l => BitVec.ofNat 32 (f l)
    let block (h : Cohort) : Prop :=
      LanesSet w.h h o.d (if m = 0 then 0 else ~~~w.h.dmask) o.t fun l =>
        if inMask m l then sxWord blk.1 (blk.2.getD l 0) else BitVec.ofNat 32 (blk.1 * 2 ^ 24 + (w.h.lane o.d l).toNat % 2 ^ 24)
    (0x20 ≤ o.t → gives (.cvt o) block ∧ gives (.cvtb o) block) ∧
    (o.t < 0x20 → gives (.cvt o) elements ∧ (0x20 ≤ src → gives (.cvtb o) elements) ∧ (src < 0x20 → Stops s w (exec (.cvtb o) s) 6 0 0))

/-- R29, R95, R96: `SXEXP` gives the shared exponent of a block, which its lowest lane that is not grey holds, and `SXSET` makes a block with the
control word's exponent of the lanes' mantissas. -/
def Obligations.SharedExponentResults : Prop :=
  ∀ (s : State) (w : Who) (o : OpU) (p : OpA),
    (Clear s w (usesU o) → 0x20 ≤ w.h.vtag o.a →
      LaneOp1 s w o (.sxexp o) 0 fun _ => BitVec.ofNat 32 ((w.h.lane o.a (lowestLane (~~~w.h.dmask))).toNat / 2 ^ 24)) ∧
    (Clear s w (usesU o) → w.h.vtag o.a < 0x20 → Stops s w (exec (.sxexp o) s) 6 0 0) ∧
    (Clear s w (usesA p) →
      let m := w.h.writing w.sp p.g
      let ctl := w.srcB p (lowestLane m)
      let n := ctl.toNat / 256 % 64
      let t := if n = 0 then w.h.vtag p.a else n
      (m = 0 → p.q ≠ 1 → MovesOn s w (exec (.sxset p) s) w.past.pc) ∧
      (m ≠ 0 ∨ p.q = 1 → 0x22 ≤ t → t ≤ 0x28 →
        WritesLanes s w (exec (.sxset p) s) p.d (if m = 0 then 0 else ~~~w.h.dmask) t fun l =>
          if inMask m l then sxWord (ctl.toNat % 256) (Num.sintOf (t - 0x20) (w.h.lane p.a l).toNat)
          else BitVec.ofNat 32 (ctl.toNat % 256 * 2 ^ 24 + (w.h.lane p.d l).toNat % 2 ^ 24)) ∧
      (m ≠ 0 ∨ p.q = 1 → t < 0x22 ∨ 0x28 < t → Stops s w (exec (.sxset p) s) 6 0 0))

/-- R97: the shuffles. A source lane that is grey or not in the split gives 0, and a grey one makes the result raw and sets the cohort's flag. -/
def Obligations.ShuffleResults : Prop :=
  ∀ (s : State) (w : Who) (o : OpA),
    let m := w.h.writing w.sp o.g
    let k (l : Nat) : Nat := (w.srcB o l).toNat % 32
    let gives (i : Instr) (mode : Nat) (src : Nat → Nat) : Prop :=
      let grey := (List.range 32).any fun l => inMask m l && inMask w.h.dmask (src l)
      Clear s w { usesA o with eat := some (w.shflEat mode o) } →
        Completes s w (exec i s) fun h =>
          WentOn w w.past h ∧ h.greyread = (w.h.greyread || grey) ∧ SameBut w.h { h with greyread := w.h.greyread } ∧
            SameUniform w.h h ∧ SamePreds w.h h ∧
            LanesSet w.h h o.d m (if grey then 0 else w.h.vtag o.a) fun l =>
              if inMask w.h.dmask (src l) ∨ inMask w.sp.entry (src l) = false then 0 else w.h.lane o.a (src l)
    gives (.shflIdx o) 0 (fun l => k l) ∧
    gives (.shflUp o) 1 (fun l => if l < k l then l else l - k l) ∧
    gives (.shflDown o) 2 (fun l => if 31 < l + k l then l else l + k l) ∧
    gives (.shflXor o) 3 (fun l => l ^^^ k l)

/-- R44, R45, R98, R99: `VOTE.ballot`, the reductions over a tree of lanes and the scans over the lanes before. -/
def Obligations.ReductionResults : Prop :=
  ∀ (s : State) (w : Who) (v : OpVoteB) (o : OpRed),
    (Clear s w (laneUses [] [] [v.d] v.g) →
      let m := w.h.writing w.sp v.g
      WritesLanes s w (exec (.voteBallot v) s) v.d m 0 fun _ => w.h.pred v.s &&& m) ∧
    (Clear s w (laneUses [o.a] [] [o.d] o.g) → (o.k < 8 ∨ w.h.vtag o.a = 0 ∨ w.h.vtag o.a = 0x11) →
      let m := w.h.writing w.sp o.g
      let tag := if o.k < 8 then 0 else 0x11
      let mode := w.sp.frm.toNat % 8
      let x (l : Nat) : Option Word := if inMask m l then some (w.h.lane o.a l) else none
      WritesLanes s w (exec (.red o) s) o.d m tag (fun _ => (pairwiseTree o.k mode ((List.range 32).map x)).getD 0) ∧
      WritesLanes s w (exec (.scan o) s) o.d m tag
        (fun l => (((List.range (l + 1)).map x).foldl (combineOpt o.k mode) none).getD 0)) ∧
    (Clear s w (laneUses [o.a] [] [o.d] o.g) → 8 ≤ o.k → w.h.vtag o.a ≠ 0 → w.h.vtag o.a ≠ 0x11 →
      Stops s w (exec (.red o) s) 6 0 0 ∧ Stops s w (exec (.scan o) s) 6 0 0)

/-- R10, R64, R103, R104, R163: the moves between the lane and uniform registers, and the special registers read, each with its value: `laneid` gives each lane
its own index, and `tcfg` the fields of its handle. An index that names none is an illegal instruction. -/
def Obligations.ClassMoveResults : Prop :=
  ∀ (s : State) (w : Who) (a d : Nat) (o : OpU) (x : OpMovx),
    (Clear s w { vs := [a], ud := [d], eat := some (w.eatOne a (w.h.active w.sp)) } →
      let m := w.h.active w.sp
      WritesUniform s w (exec (.v2q a d) s) d (if m = 0 then 0 else (w.h.lane a (lowestLane m)).zeroExtend 64) (if m = 0 then 0 else w.h.vtag a)) ∧
    (Clear s w (laneUses [] [o.a] [o.d] o.g) →
      WritesLanes s w (exec (.q2v o) s) o.d (w.h.writing w.sp o.g) (if Num.wideTag (w.h.utag o.a) then 0 else w.h.utag o.a)
        fun _ => (w.h.uq o.a).truncate 32) ∧
    (let m := w.h.writing w.sp x.g
     let uses : Uses := { vd := if x.c = 1 then [] else [x.d], ud := if x.c = 1 then [x.d] else [], whole := x.c = 1, guard := x.g }
     let gives (v : DWord) : Prop :=
       (x.c = 1 → WritesUniform s w (exec (.movx x) s) x.d v 0) ∧ (x.c ≠ 1 → WritesLanes s w (exec (.movx x) s) x.d m 0 fun _ => v.truncate 32)
     let y := s.myHandle w (x.x - 0x40)
     let named : Prop := x.x ≤ 0xa ∨ x.x = 0x10 ∨ x.x = 0x11 ∨ x.x = 0x18 ∨ x.x = 0x19 ∨ (0x40 ≤ x.x ∧ x.x < 0x40 + s.handleCount w ∧ x.x < 0x80)
     (Clear s w uses →
        (x.x = 0 → gives (w.sp.exec.zeroExtend 64)) ∧ (x.x = 1 → gives (w.h.dmask.zeroExtend 64)) ∧
        (x.x = 2 → (x.c = 1 → WritesUniform s w (exec (.movx x) s) x.d (if m = 0 then 0 else BitVec.ofNat 64 (lowestLane m)) 0) ∧
          (x.c ≠ 1 → WritesLanes s w (exec (.movx x) s) x.d m 0 fun l => BitVec.ofNat 32 l)) ∧
        (x.x = 3 → gives (BitVec.ofNat 64 w.h.cohortid)) ∧ (x.x = 4 → gives (BitVec.ofNat 64 (w.h.blockid.1 % 2 ^ 32))) ∧
        (x.x = 5 → gives (BitVec.ofNat 64 (w.h.blockid.2.1 % 2 ^ 32))) ∧ (x.x = 6 → gives (BitVec.ofNat 64 (w.h.blockid.2.2 % 2 ^ 32))) ∧
        (x.x = 7 → gives (BitVec.ofNat 64 w.h.gangrank)) ∧ (x.x = 8 → gives (BitVec.ofNat 64 w.h.stage)) ∧ (x.x = 9 → gives (BitVec.ofNat 64 w.c)) ∧
        (x.x = 0xa → gives (BitVec.ofNat 64 (w.c / 32))) ∧ (x.x = 0x10 → gives (w.sp.frm.zeroExtend 64)) ∧ (x.x = 0x11 → gives (w.sp.dph.zeroExtend 64)) ∧
        (x.x = 0x18 → gives (w.h.bstat.zeroExtend 64)) ∧ (x.x = 0x19 → gives (BitVec.ofNat 64 (s.core w.c).lclk)) ∧
        (0x40 ≤ x.x → x.x < 0x40 + s.handleCount w → x.x < 0x80 → ∃ v, gives v ∧
          (y.rows < 2 ^ 8 → y.cols < 2 ^ 9 → y.tag < 2 ^ 6 → y.layout < 2 ^ 3 → y.breg < 2 ^ 5 → y.owner < 2 ^ 5 → y.log.length < 2 ^ 4 → y.phase < 2 ^ 5 →
            y.frame < 2 ^ 8 →
            bitsAt v 7 0 = y.rows ∧ bitsAt v 16 8 = y.cols ∧ bitsAt v 22 17 = y.tag ∧ bitsAt v 25 23 = y.layout ∧ bitsAt v 30 26 = y.breg ∧
            v.getLsbD 31 = y.bchk ∧ bitsAt v 36 32 = y.owner ∧ bitsAt v 39 37 = (match y.state with
              | .free => 0 | .resident => 1 | .bound => 2 | .filling => 3 | .nonResident => 4 | .released => 5) ∧
            bitsAt v 43 40 = y.log.length ∧ bitsAt v 48 44 = y.phase ∧ bitsAt v 56 49 = (if y.frames = 0 then 0 else y.frame) ∧ bitsAt v 63 57 = 0))) ∧
     (¬ named → Reaches s w { uses with illegal := true } → Stops s w (exec (.movx x) s) 2 0 0))

/-- R33, R34, R64, R104, R163, R164: the writes of special registers from a uniform register, or from the lowest active lane of a lane register, with none of
which nothing is written: `exec` takes the lanes that are in the split and not grey, `frm` and `dph` their low bits, a bit of `bstat` that is written as 1 clears, and
`tcfg` of a handle that is free or released takes its configuration, unless a tag, a state or an operand of it is refused. A register that is read only is an illegal
instruction, and so is an index that names none. -/
def Obligations.SpecialWriteResults : Prop :=
  ∀ (s : State) (w : Who) (c x d : Nat) (v : DWord),
    let i := Instr.movs { c := c, x := x, d := d }
    let act := w.h.active w.sp
    let uses : Uses := if c = 1 then { us := [d] } else { vs := [d], eat := some (w.eatOne d act) }
    let moved (sp : Split) : Prop := Completes s w (exec i s) fun h =>
      WentOn w sp h ∧ SameBut w.h h ∧ SameLanes w.h h ∧ SameUniform w.h h ∧ SamePreds w.h h
    (Clear s w uses → c = 1 ∧ v = w.h.uq d ∨ c ≠ 1 ∧ act ≠ 0 ∧ v = (w.h.lane d (lowestLane act)).zeroExtend 64 →
      (x = 0 → moved { w.past with exec := v.truncate 32 &&& w.sp.entry &&& ~~~w.h.dmask }) ∧
      (x = 0x10 → v.toNat % 8 < 6 → moved { w.past with frm := v.truncate 4 }) ∧
      (x = 0x10 → 6 ≤ v.toNat % 8 → Stops s w (exec i s) 2 0 0) ∧
      (x = 0x11 → moved { w.past with dph := v.truncate 5 }) ∧
      (x = 0x18 → Completes s w (exec i s) fun h =>
        WentOn w w.past h ∧ h.bstat = w.h.bstat &&& ~~~(v.truncate 32) ∧ SameBut w.h { h with bstat := w.h.bstat } ∧ SameLanes w.h h ∧
          SameUniform w.h h ∧ SamePreds w.h h) ∧
      ∀ n bl, x = 0x40 + n → n < 64 → n < s.handleCount w → s.block? w.c w.h.slot = some bl →
        let y := Tbl.at bl.handles n {}
        let tag := bitsAt v 22 17
        let layout := bitsAt v 25 23
        let open_ : Prop := y.state = .free ∨ y.state = .released
        let operand : Prop := 4 ≤ layout ∨ tag = 0 ∨ (0x20 ≤ tag ↔ layout < 2)
        let z := { y with rows := bitsAt v 7 0, cols := bitsAt v 16 8, tag := tag, layout := layout, breg := bitsAt v 30 26, bchk := v.getLsbD 31 }
        (Num.goodTag tag = false → Stops s w (exec i s) 6 0 0) ∧
        (Num.goodTag tag = true → ¬ open_ → Stops s w (exec i s) 8 0 0) ∧
        (Num.goodTag tag = true → open_ → operand → Stops s w (exec i s) 9 0 0) ∧
        (Num.goodTag tag = true → open_ → ¬ operand → ∃ t, exec i s = .next t ∧ t.cohort? w.c w.k = some w.gone ∧ t.mem = s.mem ∧
          t.block? w.c w.h.slot = some { bl with handles := Tbl.put bl.handles n z })) ∧
    (Clear s w uses → c ≠ 1 → act = 0 → x = 0 ∨ x = 0x10 ∨ x = 0x11 ∨ x = 0x18 → MovesOn s w (exec i s) w.past.pc) ∧
    (x ∉ [0, 0x10, 0x11, 0x18] → x < 0x40 ∨ 0x40 + s.handleCount w ≤ x ∨ 0x80 ≤ x → Reaches s w { uses with illegal := true } → Stops s w (exec i s) 2 0 0)

/-- R80, R101, R102: the uniform instructions. A shift by 64 or more gives 0. -/
def Obligations.UniformResults : Prop :=
  ∀ (s : State) (w : Who) (o : OpT) (i d : Nat),
    let op (x : Instr) (f : DWord → DWord → DWord) : Prop := WritesUniform s w (exec x s) o.d (f (w.h.uq o.a) (w.h.uq o.b)) 0
    (Clear s w { us := [o.a, o.b], ud := [o.d] } →
      op (.qadd o) (fun a b => a + b) ∧ op (.qsub o) (fun a b => a - b) ∧ op (.qmul o) (fun a b => a * b) ∧
      op (.qand o) (fun a b => a &&& b) ∧ op (.qor o) (fun a b => a ||| b) ∧ op (.qxor o) (fun a b => a ^^^ b) ∧
      op (.qshl o) (fun a b => a <<< (b.toNat % 256)) ∧ op (.qshr o) (fun a b => a >>> (b.toNat % 256))) ∧
    (Clear s w { ud := [d] } → WritesUniform s w (exec (.qli i d) s) d ((BitVec.ofNat 19 i).signExtend 64) 0) ∧
    (Clear s w { us := [d], ud := [d] } →
      WritesUniform s w (exec (.qaddi i d) s) d (w.h.uq d + (BitVec.ofNat 18 i).signExtend 64) 0 ∧
      WritesUniform s w (exec (.qlui i d) s) d ((w.h.uq d <<< 18) ||| BitVec.ofNat 64 (i % 2 ^ 18)) 0)

/-! Control flow and faults at issue (R50, R54, R69, R106 to R122). -/

/-- R50, R80, R106, R107, R114, R122: the branches, calls and jumps. A branch whose guard passes in some active lanes and not in others divides its
split: the taken part keeps the table entry, and the rest goes on in a new one, or in the overflow area (R111). An odd target is a fault. -/
def Obligations.BranchResults : Prop :=
  ∀ (s : State) (w : Who) (o g a : Nat),
    let target : DWord := w.sp.pc + ((BitVec.ofNat 21 o).signExtend 64 <<< 1)
    (Clear s w {} →
      let act := w.h.active w.sp
      let t := act &&& w.h.guardMask g
      (g = 0 ∨ t = act → MovesOn s w (exec (.bra o g) s) target) ∧
      (g ≠ 0 → t ≠ act → t = 0 → MovesOn s w (exec (.bra o g) s) w.past.pc) ∧
      (g ≠ 0 → t ≠ act → t ≠ 0 → Completes s w (exec (.bra o g) s) fun h =>
        let new : Split := { pc := w.sp.pc + 4, entry := w.sp.entry &&& ~~~t, exec := w.sp.exec &&& ~~~t, frm := w.sp.frm, dph := w.sp.dph,
                             join := w.sp.join }
        h.split? w.i = some { w.past with pc := target, entry := t, exec := t } ∧
        (∀ j, Tbl.lowestFree w.h.splits 8 = some j →
          h.split? j = some new ∧ h.overflow = w.h.overflow ∧ ∀ i, i ≠ w.i → i ≠ j → h.split? i = w.h.split? i) ∧
        (Tbl.lowestFree w.h.splits 8 = none → h.overflow = new :: w.h.overflow ∧ ∀ i, i ≠ w.i → h.split? i = w.h.split? i) ∧
        SameBut w.h { h with overflow := w.h.overflow } ∧ SameLanes w.h h ∧ SameUniform w.h h ∧ SamePreds w.h h) ∧
      MovesOn s w (exec .nop s) w.past.pc) ∧
    (Clear s w { ud := [63] } → Completes s w (exec (.call o) s) fun h =>
      WentOn w { w.past with pc := target } h ∧ SameBut w.h h ∧ UniformSet w.h h 63 (w.sp.pc + 4) 0 ∧ SameLanes w.h h ∧ SamePreds w.h h) ∧
    (Clear s w { us := [63] } →
      ((w.h.uq 63).getLsbD 0 = false → MovesOn s w (exec .ret s) (w.h.uq 63)) ∧
      ((w.h.uq 63).getLsbD 0 = true → Stops s w (exec .ret s) 2 0 (w.h.uq 63).toNat)) ∧
    (Clear s w { us := [a] } →
      ((w.h.uq a).getLsbD 0 = false → MovesOn s w (exec (.jmpq a) s) (w.h.uq a)) ∧
      ((w.h.uq a).getLsbD 0 = true → Stops s w (exec (.jmpq a) s) 2 0 (w.h.uq a).toNat) ∧
      MovesOn s w (exec (.rwait a) s) w.past.pc)

/-- R112, R118, R137: `RECONV` opens the lowest free join record, and with 16 live traps; `BISQ` takes its snapshot of the masked registers below the
budget, and disarms where its mask is q0 or the cohort is divergent. -/
def Obligations.RegionResults : Prop :=
  ∀ (s : State) (w : Who) (o a : Nat),
    (Clear s w {} →
      (∀ n, Tbl.lowestFree w.h.joins 16 = some n → w.h.joins.length < 16 → Completes s w (exec (.reconv o) s) fun h =>
        WentOn w { w.past with join := some n } h ∧
        Tbl.find? h.joins n =
          some { addr := w.sp.pc + ((BitVec.ofNat 21 o).signExtend 64 <<< 1), mask := w.sp.entry, parent := w.sp.join } ∧
        (∀ k, k ≠ n → Tbl.find? h.joins k = Tbl.find? w.h.joins k) ∧
        SameBut w.h { h with joins := w.h.joins } ∧ SameLanes w.h h ∧ SameUniform w.h h ∧ SamePreds w.h h) ∧
      (16 ≤ w.h.joins.length → Stops s w (exec (.reconv o) s) 13 0 0)) ∧
    (Clear s w { us := [a] } → Completes s w (exec (.bisq a) s) fun h =>
      let converged := w.h.splits.length = 1 ∧ w.h.overflow = [] ∧ ∀ j ∈ Tbl.vals w.h.joins, j.arrived = 0
      WentOn w w.past h ∧ SameBut w.h { h with bisque := w.h.bisque } ∧ SameLanes w.h h ∧ SameUniform w.h h ∧ SamePreds w.h h ∧
      (a = 0 ∨ ¬ converged → h.bisque = none) ∧
      (a ≠ 0 → converged → ∃ b, h.bisque = some b ∧ b.addr = w.sp.pc + 4 ∧ b.mask = w.h.uq a ∧ b.preds = w.h.p ∧ b.exec = w.sp.exec ∧
        b.frm = w.sp.frm ∧ b.dph = w.sp.dph ∧
        ∀ k, k < 64 → Tbl.find? b.regs k = if (w.h.uq a).getLsbD k ∧ k < w.h.budget then some (w.h.vreg k) else none))

/-- R115 to R117, R119, R120, R122: `TRAP`, and `BRK` with debug enabled, stop the cohort with the split past the instruction and their cause; `YIELD` holds
its split for 64 cycles. `EXITL` takes the active lanes out of their split for good and counts them as exited: a join that awaited only them merges, and where
no lane of the cohort is left it ends as by `EXIT`. After `EXIT`, which counts no error, no split of the cohort is left. -/
def Obligations.StopResults : Prop :=
  ∀ (s : State) (w : Who) (i : Nat), Clear s w {} →
    let traps (x : Instr) (code : Nat) : Prop :=
      Leaves s w (exec x s)
        { w.gone.halt with cause := some { code := code, pc := w.sp.pc, word := w.word, len := w.len, addr := i, past := some w.i } }
        [{ row := .trapEntry, ops := [w.c, w.k] }]
    let act := w.h.active w.sp
    let ends (x : Instr) : Prop := Answers s x fun t => (w.h.late = [] → t.launches = s.launches) ∧
      ∀ h, t.cohort? w.c w.k = some h → h.splits = [] ∧ h.overflow = [] ∧ h.joins = [] ∧ h.ending = true ∧ h.exited = BitVec.allOnes 32
    traps (.trap i) 16 ∧
    ((s.ctx w.h.asid 0).getLsbD 2 = true → traps (.brk i) 17) ∧
    ((s.ctx w.h.asid 0).getLsbD 2 = false → MovesOn s w (exec (.brk i) s) w.past.pc) ∧
    (Completes s w (exec .yield s) fun h =>
      WentOn w { w.past with state := 4, timer := 64 } h ∧ SameBut w.h h ∧ SameLanes w.h h ∧ SameUniform w.h h ∧ SamePreds w.h h) ∧
    (w.h.alive &&& ~~~act ≠ 0 → Answers s .exitl fun t => ∃ h, t.cohort? w.c w.k = some h ∧ h.exited = w.h.exited ||| act ∧ h.dmask = w.h.dmask ∧
      h.ending = false ∧ SameLanes w.h h ∧ SameUniform w.h h ∧ SamePreds w.h h ∧
      (∀ j y, w.gone.split? j = some y → y.entry &&& ~~~act ≠ 0 → ∃ z, h.split? j = some z ∧ z.entry = y.entry &&& ~~~act ∧ z.exec = y.exec &&& ~~~act) ∧
      (w.h.joins = [] → h.joins = [] ∧ ∀ j y, h.split? j = some y → y.entry &&& act = 0) ∧
      ∀ n y, n < 16 → w.h.joins = [(n, y)] →
        let awaited := y.mask &&& ~~~y.arrived &&& ~~~w.h.dmask &&& ~~~(w.h.exited ||| act)
        let merges (z : Split) : Prop :=
          z.pc = y.addr ∧ z.entry = y.arrived &&& ~~~w.h.dmask ∧ z.exec = y.mexec &&& (y.arrived &&& ~~~w.h.dmask) ∧ z.join = y.parent
        (awaited ≠ 0 → ∃ z, h.joins = [(n, z)] ∧ z.addr = y.addr ∧ z.mask = y.mask ∧ z.arrived = y.arrived ∧ z.mexec = y.mexec ∧ z.parent = y.parent) ∧
        (awaited = 0 → h.joins = [] ∧ (y.arrived &&& ~~~w.h.dmask ≠ 0 → (∃ j z, h.split? j = some z ∧ merges z) ∨ ∃ z ∈ h.overflow, merges z))) ∧
    (w.h.alive &&& ~~~act = 0 → ends .exitl) ∧ ends .exit

/-- R32, R33, R54, R69, R161, R321: the faults at issue in their order: an illegal register or handle field (code 2), a privileged instruction outside the
handler (3), a handle that is free or released (5), and a tag that is reserved, or that a floating-point instruction does not accept: another than raw and its
format's, or two that differ in a packed-half one (6). The instruction has no effect. -/
def Obligations.IssueFaults : Prop :=
  ∀ (s : State) (w : Who) (o : OpA) (p : OpU) (x : OpCmp) (v : OpT) (a n q d : Nat),
    let sound (u : Uses) : Prop := Reaches s w u ∧ u.bad w.h.budget (s.handleCount w) = false ∧
      (∀ r ∈ u.vs, Num.goodTag (w.h.vtag r) = true) ∧ ∀ r ∈ u.us, Num.goodTag (w.h.utag r) = true
    let other (f t : Nat) : Prop := t ≠ 0 ∧ t ≠ f
    let tagB (q b : Nat) : Nat := if q = 1 then w.h.utag b else w.h.vtag b
    let two (f a q b : Nat) : Prop := other f (w.h.vtag a) ∨ other f (tagB q b)
    let mixed (l : List Nat) : Prop := (∃ t ∈ l, t ≠ 0 ∧ t ≠ 0x12 ∧ t ≠ 0x13) ∨ (0x12 ∈ l ∧ 0x13 ∈ l)
    let lanes : List Instr := [.iadd o, .isub o, .imul o, .imin o, .imax o, .land o, .lor o, .lxor o, .shl o, .shr o, .sra o, .rot o, .bfx o, .isad o]
    let fp32 : List Instr := [.fadd o, .fsub o, .fmul o, .fmin o, .fmax o, .fminn o, .fmaxn o]
    let half : List Instr := [.hadd o, .hsub o, .hmul o, .hmin o, .hmax o, .hdot2 o]
    let fp64 : List Instr := [.dadd o, .dsub o, .dmul o, .dmin o, .dmax o]
    let handles : List (Instr × Uses) := [(.tfree n, { hs := [n] }), (.twait n, { hs := [n] }), (.tnew n, { fresh := [n] }),
      (.tpass a n, { hs := [n], us := [a] }), (.tbind a n, { fresh := [n], us := [a] }), (.tfetch n, { hs := [n], acc := 0x08, path := some 1 }),
      (.tld a n, { hs := [n], us := [a], acc := 0x08, path := some 1 })]
    (Reaches s w (usesA o) → (usesA o).bad w.h.budget (s.handleCount w) = true → ∀ i ∈ lanes ++ fp32 ++ half, Stops s w (exec i s) 2 0 0) ∧
    (Reaches s w (usesA o) → (usesA o).bad w.h.budget (s.handleCount w) = false →
      (∃ r ∈ (usesA o).vs, Num.goodTag (w.h.vtag r) = false) → ∀ i ∈ lanes ++ fp32 ++ half, Stops s w (exec i s) 6 0 0) ∧
    (Reaches s w (uses64 o) → (uses64 o).bad w.h.budget (s.handleCount w) = true → ∀ i ∈ fp64, Stops s w (exec i s) 2 0 0) ∧
    (sound (usesA o) → (two 0x11 o.a o.q o.b → ∀ i ∈ fp32, Stops s w (exec i s) 6 0 0) ∧
      (mixed [w.h.vtag o.a, tagB o.q o.b] → ∀ i ∈ half, Stops s w (exec i s) 6 0 0)) ∧
    (sound (usesAcc o) → (two 0x11 o.a o.q o.b ∨ other 0x11 (w.h.vtag o.d) → Stops s w (exec (.ffma o) s) 6 0 0) ∧
      (mixed [w.h.vtag o.a, tagB o.q o.b, w.h.vtag o.d] → Stops s w (exec (.hfma o) s) 6 0 0)) ∧
    (sound (uses64 o) → two 0x10 o.a o.q o.b → ∀ i ∈ fp64, Stops s w (exec i s) 6 0 0) ∧
    (sound (uses64Acc o) → two 0x10 o.a o.q o.b ∨ other 0x10 (w.h.vtag o.d) → Stops s w (exec (.dfma o) s) 6 0 0) ∧
    (sound (usesU p) → other 0x11 (w.h.vtag p.a) →
      ∀ i ∈ [Instr.frcp p, .frsq p, .fsqrt p, .fex2 p, .flg2 p, .fsin p, .fcos p, .ftanh p], Stops s w (exec i s) 6 0 0) ∧
    (sound (usesU64 p) → other 0x10 (w.h.vtag p.a) → ∀ i ∈ [Instr.drcp p, .dsqrt p], Stops s w (exec i s) 6 0 0) ∧
    (sound (laneUses [q, d] [] [d] 0) → other 0x11 (w.h.vtag d) ∨ other 0x11 (w.h.vtag q) →
      ∀ i ∈ [Instr.fadd16 q d, .fsub16 q d, .fmul16 q d, .fmin16 q d, .fmax16 q d], Stops s w (exec i s) 6 0 0) ∧
    (sound (usesCmp x) → two 0x11 x.a x.q x.b → Stops s w (exec (.fcmp x) s) 6 0 0) ∧
    (sound (usesCmp64 x) → two 0x10 x.a x.q x.b → Stops s w (exec (.dcmp x) s) 6 0 0) ∧
    (∀ e ∈ handles, Reaches s w e.2 → s.handleCount w ≤ n → Stops s w (exec e.1 s) 2 0 0) ∧
    (Reaches s w { hs := [v.a, v.b], us := [v.d] } → s.handleCount w ≤ v.a ∨ s.handleCount w ≤ v.b → (s.myHandle w v.a).state ≠ .nonResident →
      (s.myHandle w v.b).state ≠ .nonResident → ∀ i ∈ [Instr.mma v, .mmp v], Stops s w (exec i s) 2 0 0) ∧
    (w.h.handler = false → (Reaches s w { us := [a], priv := true } → Stops s w (exec (.kill a) s) 3 0 0) ∧
      (Reaches s w { priv := true, acc := 0x80 } → Stops s w (exec .tret s) 3 0 0) ∧
      (Reaches s w { ud := [d], priv := true } → csrExists n = true → Stops s w (exec (.csrr n d) s) 3 0 0)) ∧
    (Reaches s w { hs := [n] } → n < s.handleCount w → ∀ b, s.block? w.c w.h.slot = some b →
      ((Tbl.at b.handles n {}).state = .free → ∀ i ∈ [Instr.tfree n, .twait n], Stops s w (exec i s) 5 (n + 64) 0) ∧
      ((Tbl.at b.handles n {}).state = .released → ∀ i ∈ [Instr.tfree n, .twait n], Stops s w (exec i s) 5 (n + 128) 0))

/-! Memory (R139 to R160, R276). -/

/-- R66, R139, R141, R142, R149, R151: the loads and the atomics that return a value: each writing lane's address is a pair's value with the offset in
units of the size, or a uniform base with a lane's index, wrapping at 64 bits. With every address aligned the access is listed with its place in issue order
and proceeds; a full-empty load keeps its split at the instruction. -/
def Obligations.LoadsIssue : Prop :=
  ∀ (s : State) (w : Who) (o : OpLd) (n : OpLdn) (k : OpLdk) (q : OpQld) (a : OpAtom) (z : OpCas),
    let addr (a off size l : Nat) : Nat :=
      if a % 2 = 1 then (w.h.uq off + (w.h.lane (a / 2) l).zeroExtend 64).toNat else (w.h.pair a l + BitVec.ofNat 64 (off * size)).toNat
    let data (d size l : Nat) : Nat := if size = 8 then (w.h.pair d l).toNat else (w.h.lane d l).toNat % 256 ^ size
    let lanes (g : Nat) (f : Nat → LaneAcc) : List LaneAcc := ((List.range 32).filter (inMask (w.h.writing w.sp g))).map f
    let ok (l : List LaneAcc) (size : Nat) : Prop := ∀ x ∈ l, x.va % size = 0
    let op (kind : AccKind) (size dst g : Nat) (l : List LaneAcc) : LoadOp :=
      { seq := w.h.seq + 1, word := w.word, len := w.len, pc := w.sp.pc, kind := kind, path := 0, reuse := 0, scope := 0, size := size, ext := 0, tag := 0,
        uniform := false, dst := dst, full := 0, mask := w.h.writing w.sp g, lanes := l, stage := 0, got := [], bad := 0, split := none,
        handler := w.h.handler, code := 0, fva := 0 }
    let starts (i : Instr) (x : LoadOp) : Prop := exec i s = .next ((s.onward w).startLoad w.c w.k x)
    let holds (i : Instr) (x : LoadOp) : Prop :=
      exec i s = .next (((s.onward w).onCohort w.c w.k fun h => h.onSplit w.i fun sp =>
        { sp with pc := w.sp.pc, state := 5, hold := .full (w.h.seq + 1) }).startLoad w.c w.k { x with split := some w.i })
    let uses (u : Uses) (g path : Nat) : Uses := { u with acc := 0x80, path := some path, load := true, whole := false, guard := g }
    let free : Prop := ∀ va n, s.boundsOn w.h.asid va n = []
    (∀ size i, size = 4 ∧ i = Instr.ld32 o ∨ size = 8 ∧ i = Instr.ld64 o →
      let l := lanes o.g fun l => { lane := l, va := addr o.a o.o size l }
      let x : LoadOp := { op .load size o.d o.g l with path := if o.u = 1 then 1 else 0, reuse := o.r, full := o.u - 1 }
      Clear s w (uses { addrUses o.a o.o with vd := dataRegs o.d size, pairs := (addrUses o.a o.o).pairs ++ dataPairs o.d size } o.g
        (if o.u = 1 then 1 else 0)) → ok l size → if o.u < 2 then starts i x else holds i x) ∧
    (let size := if n.u < 2 then 1 else 2
     let l := lanes n.g fun l => { lane := l, va := addr (2 * n.a) n.o size l }
     let x : LoadOp := { op .load size n.d n.g l with
       reuse := n.r, ext := if n.u % 2 = 0 then 1 else 0, tag := match n.u with | 0 => 1 | 1 => 5 | 2 => 2 | _ => 6 }
     Clear s w (uses { addrUses (2 * n.a) n.o with vd := [n.d] } n.g 0) → ok l size → starts (.ldNarrow n) x) ∧
    (∀ size i, size = 4 ∧ i = Instr.ldk32 k ∨ size = 8 ∧ i = Instr.ldk64 k →
      let l := lanes k.g fun l => { lane := l, va := (w.h.uq k.b + BitVec.ofNat 64 (k.o * size)).toNat }
      let x : LoadOp := { op .load size k.d k.g l with path := 2, reuse := k.r }
      Clear s w (uses { us := [k.b], vd := dataRegs k.d size, pairs := dataPairs k.d size } k.g 2) → ok l size → starts i x) ∧
    (let l : List LaneAcc := [{ lane := 0, va := (w.h.uq q.b + BitVec.ofNat 64 (q.o * 8)).toNat }]
     let x : LoadOp := { op .load 8 q.d 0 l with reuse := q.r, uniform := true, mask := w.sp.entry }
     Clear s w { us := [q.b], ud := [q.d], acc := 0x80, path := some 0, load := true } → ok l 8 → starts (.qld q) x) ∧
    (let size := typeSize a.t
     let l := lanes a.g fun l => { lane := l, va := (w.h.pair a.a l).toNat, x := data a.d size l }
     let x : LoadOp := { op (.atom a.o a.t) size a.d a.g l with scope := a.s, tag := atomTag a.t }
     Clear s w { usesAtom a with vd := dataRegs a.d size, acc := 0xc0, load := true } → badAtomTag a.t (w.h.vtag a.d) = false → ok l size → free →
       starts (.atom a) x) ∧
    (let size := typeSize z.t
     let new := if size = 8 then z.d + 2 else z.d + 1
     let l := lanes z.g fun l => { lane := l, va := (w.h.pair z.a l).toNat, x := data z.d size l, y := data new size l }
     let x : LoadOp := { op (.cas z.t) size z.d z.g l with scope := z.s, tag := atomTag z.t }
     Clear s w { vs := pairOf z.a ++ dataRegs z.d size ++ dataRegs new size, vd := dataRegs z.d size,
                 pairs := if size = 8 then [z.a] else [z.a, z.d], quads := if size = 8 then [z.d] else [],
                 whole := false, guard := z.g, acc := 0xc0, load := true } →
       badAtomTag z.t (w.h.vtag z.d) = false → badAtomTag z.t (w.h.vtag new) = false → ok l size → free → starts (.cas z) x)

/-- R31, R78, R141, R142, R324, R333: a load whose pages are not translated waits, and a walk is due for the first of them; one whose first address has no page stops its
cohort with code 18 and writes nothing; and a load that finishes writes its destination in its lanes that are not grey, extended from its size by its sign or by
zeros, with its tag, and leaves the list. -/
def Obligations.LoadsProceed : Prop :=
  (∀ (s : State) (c k : Nat) (h : Cohort) (x : LoadOp) (a : LaneAcc) (l : List LaneAcc),
    s.cohort? c k = some h → x.lanes = a :: l → x.stage = 0 → x.kind = .load → h.ending = false → h.leaving = false →
    (∀ y ∈ h.loads, y.seq ≠ x.seq ∧ y.stage = 1 ∧ y.full ≠ 0) →
    let found (b : LaneAcc) : Found := s.find c h.asid (s.gangOf c h) .load b.va
    let t := s.startLoad c k x
    let rest (h' : Cohort) : Prop := t.cohort? c k = some h' ∧ (∀ c' k', ¬ (c' = c ∧ k' = k) → t.cohort? c' k' = s.cohort? c' k') ∧
      { t with cores := s.cores, agenda := s.agenda } = s
    ((∀ b ∈ x.lanes, found b = .miss) →
      rest { h with loads := h.loads ++ [x] } ∧ Due.mk .translationWalkComplete [c, h.asid, a.va / 4096] ∈ t.agenda) ∧
    (found a = .noPage →
      rest { h.halt with loads := h.loads ++ [{ x with stage := 3, code := 18, fva := a.va }] } ∧
        Due.mk .trapEntry [c, k] ∈ t.agenda)) ∧
  (∀ (s : State) (c k : Nat) (h : Cohort) (x : LoadOp),
    s.cohort? c k = some h → h.loads.find? (fun y => y.seq == x.seq) = some x → h.ending = false → h.absent = [] → x.bad = 0 → x.split = none →
    let m := x.mask &&& ~~~h.dmask
    let v (l : Nat) : Nat := ((x.got.find? fun a => a.lane == l).map (·.x)).getD 0
    ∃ h', (s.finishLoad c k x.seq).cohort? c k = some h' ∧ h'.loads = h.loads.filter (fun y => y.seq != x.seq) ∧ h'.splits = h.splits ∧
      SameBut h { h' with loads := h.loads } ∧ SamePreds h h' ∧
      (x.uniform = false → x.size = 8 → x.ext = 0 →
        PairSet h h' x.dst m x.tag (fun l => BitVec.ofNat 64 (v l)) ∧ SameUniform h h') ∧
      (x.uniform = false → x.size ≠ 8 → x.size ≤ 4 →
        LanesSet h h' x.dst m x.tag (fun l => if x.ext = 1 then (BitVec.ofNat (8 * x.size) (v l)).signExtend 32 else BitVec.ofNat 32 (v l % 256 ^ x.size)) ∧
          SameUniform h h') ∧
      (x.uniform = true →
        UniformSet h h' x.dst (BitVec.ofNat 64 ((x.got.headD { lane := 0, va := 0 }).x)) x.tag ∧ SameLanes h h'))

/-- R130, R139, R146, R147, R149, R153, R159: the stores. With every address aligned and no bound register on it, the store goes into the queue with its lanes'
addresses and data, memory stays as it is until the store performs, and a store that no lane makes changes nothing. Its class is AW where all its addresses lie
in an alias window and W where none does. A `SIGD` releases at its scope, and at that of the system where its object is a peer's. The first lane at a misaligned address traps with code
11, and a lane that fails a bound register with action trap stops the cohort with code 15, the failing registers' bits set, before anything is written. -/
def Obligations.StoresIssue : Prop :=
  (∀ (s : State) (w : Who) (o : OpSt) (q : OpQst) (a : OpAtom) (g : OpSigd),
    let addr (a off size l : Nat) : Nat :=
      if a % 2 = 1 then (w.h.uq off + (w.h.lane (a / 2) l).zeroExtend 64).toNat else (w.h.pair a l + BitVec.ofNat 64 (off * size)).toNat
    let data (d size l : Nat) : Nat := if size = 8 then (w.h.pair d l).toNat else (w.h.lane d l).toNat % 256 ^ size
    let lanes (g : Nat) (f : Nat → LaneAcc) : List LaneAcc := ((List.range 32).filter (inMask (w.h.writing w.sp g))).map f
    let ok (l : List LaneAcc) (size : Nat) : Prop := ∀ x ∈ l, x.va % size = 0
    let op (kind : AccKind) (scope size : Nat) (m : Mask) (l : List LaneAcc) : StoreOp :=
      { seq := w.h.seq + 1, word := w.word, len := w.len, pc := w.sp.pc, kind := kind, scope := scope, size := size, mask := m, lanes := l,
        handler := w.h.handler }
    let cls (l : List LaneAcc) : Nat := s.storeCls w.c w.h.asid (s.gangOf w.c w.h) l
    let peer (va : Nat) : Prop := ∃ pa sm p off, (s.findNow w.c w.h.asid (s.gangOf w.c w.h) .atomic va).1 = .ok pa sm ∧ regionOf pa = .peer p off
    let queues (i : Instr) (x : StoreOp) : Prop :=
      if x.lanes = [] then Leaves s w (exec i s) w.gone []
      else Leaves s w (exec i s) { w.gone with stores := w.h.stores ++ [x] } [{ row := .storeLeaveQueue, ops := [w.c, w.k] }]
    let free : Prop := ∀ va n, s.boundsOn w.h.asid va n = []
    (let size := 2 ^ o.z
     let u := addrUses o.a o.o
     let l := lanes o.g fun l => { lane := l, va := addr o.a o.o size l, x := data o.s size l }
     Clear s w { u with vs := u.vs ++ dataRegs o.s size, pairs := u.pairs ++ dataPairs o.s size, guard := o.g, acc := cls l, store := true } →
       ok l size → o.z < 4 → free → queues (.st o) { op .store 0 size (w.h.writing w.sp o.g) l with reuse := o.r }) ∧
    (let l : List LaneAcc := [{ lane := 0, va := (w.h.uq q.a + BitVec.ofNat 64 (q.o * 8)).toNat, x := (w.h.uq q.s).toNat }]
     Clear s w { us := [q.a, q.s], acc := cls l, store := true } → ok l 8 → free →
       queues (.qst q) { op .store 0 8 (w.h.active w.sp) l with reuse := q.r }) ∧
    (let size := typeSize a.t
     let l := lanes a.g fun l => { lane := l, va := (w.h.pair a.a l).toNat, x := data a.d size l }
     Clear s w { usesAtom a with acc := 0x40, store := true } → badAtomTag a.t (w.h.vtag a.d) = false → ok l size →
       queues (.redm a) (op (.redm a.o a.t) a.s size (w.h.writing w.sp a.g) l)) ∧
    (let l : List LaneAcc := [{ lane := 0, va := (w.h.uq g.a).toNat, x := if g.v = 0 then 1 else (w.h.uq g.v).toNat }]
     ∀ scope, (peer (w.h.uq g.a).toNat → scope = 3) → (¬ peer (w.h.uq g.a).toNat → scope = g.s) →
       Clear s w { us := [g.a, g.v], acc := 0x40, store := true, rel := some { scope := scope, cls := 0xff } } → ok l 8 →
         queues (.sigd g) (op .sub g.s 8 (w.h.active w.sp) l))) ∧
  (∀ (s : State) (w : Who) (o : OpSt) (l : Nat),
    let size := 2 ^ o.z
    let u := addrUses o.a o.o
    let m := w.h.writing w.sp o.g
    let addr (l : Nat) : Nat := w.h.laneAddr o.a o.o size l
    let lanes : List LaneAcc := ((List.range 32).filter (inMask m)).map fun l => { lane := l, va := addr l, x := w.h.dataAt o.s size l }
    let uses : Uses := { u with vs := u.vs ++ dataRegs o.s size, pairs := u.pairs ++ dataPairs o.s size, guard := o.g,
                                acc := s.storeCls w.c w.h.asid (s.gangOf w.c w.h) lanes, store := true }
    (Clear s w uses → l < 32 → inMask m l = true → addr l % size ≠ 0 → (∀ j, j < l → inMask m j = true → addr j % size = 0) →
      Stops s w (exec (.st o) s) 11 1 (addr l)) ∧
    (Clear s w uses → (∀ j, j < 32 → inMask m j = true → addr j % size = 0) → ∀ a, s.boundTrap w.h.asid size false lanes = some a →
      Leaves s w (exec (.st o) s)
        { w.h.halt with bstat := w.h.bstat ||| s.failedBounds w.h.asid size false lanes,
                        cause := some { code := 15, pc := w.sp.pc, word := w.word, len := w.len, addr := a.va } }
        [{ row := .trapEntry, ops := [w.c, w.k] }]))

/-- R146, R150, R151, R276: an atomic of an integer type where it performs, on a line with no open shadow: it answers the old value, its operation's result is
stored, and every other byte is as before; `CAS` stores where the old value is the comparand, and `SIGD` subtracts. A write at the home of such a line stores its
bytes, and every other byte is as before. -/
def Obligations.PerformResults : Prop :=
  (∀ (s : State) (x : LaneAcc) (op ty : Nat),
    s.mem.wf = true →
    let n := typeSize ty
    let old := Mem.rdN s.mem x.pa n
    let quiet (n : Nat) : Prop := isHomed x.pa = true ∧ x.pa % n = 0 ∧ Tbl.find? s.shadows (x.pa / 128) = none ∧ s.poisoned x.pa n = false
    let performs (kind : AccKind) (n new : Nat) : Prop :=
      (s.atomAt kind x).1 = Mem.rdN s.mem x.pa n ∧ Mem.rdN (s.atomAt kind x).2.mem x.pa n = new ∧
        ∀ a, a < x.pa ∨ x.pa + n ≤ a → Mem.rd (s.atomAt kind x).2.mem a = Mem.rd s.mem a
    let signed (v : Nat) : Int := if v < 256 ^ n / 2 then v else (v : Int) - (256 ^ n : Nat)
    let lt (a b : Nat) : Prop := if ty = 0 ∨ ty = 2 then signed a < signed b else a < b
    (ty < 4 → x.x < 256 ^ n → quiet n →
      (op = 0 → performs (.atom op ty) n ((old + x.x) % 256 ^ n)) ∧
      (op = 1 → performs (.atom op ty) n (if lt x.x old then x.x else old)) ∧
      (op = 2 → performs (.atom op ty) n (if lt old x.x then x.x else old)) ∧
      (op = 3 → performs (.atom op ty) n (old &&& x.x)) ∧
      (op = 4 → performs (.atom op ty) n (old ||| x.x)) ∧
      (op = 5 → performs (.atom op ty) n (old ^^^ x.x)) ∧
      (op = 6 → performs (.atom op ty) n x.x)) ∧
    (ty < 4 → x.y < 256 ^ n → quiet n → performs (.cas ty) n (if old = x.x then x.y else old)) ∧
    (quiet 8 → x.x < 2 ^ 64 → performs .sub 8 ((Mem.rdN s.mem x.pa 8 + 2 ^ 64 - x.x) % 2 ^ 64))) ∧
  (∀ (s : State) (pa : Nat) (bs : List Byte), s.mem.wf = true → bs ≠ [] → (isHomed pa = true ∨ s.frameless pa = false) →
    Tbl.find? s.shadows (pa / 128) = none → Tbl.find? s.shadows ((pa + bs.length - 1) / 128) = none →
    ∀ a, Mem.rd (s.homeWrite pa bs).mem a = if pa ≤ a ∧ a < pa + bs.length then bs.getD (a - pa) 0 else Mem.rd s.mem a)

/-! Fences, barriers, monitors and channels (R124 to R134, R154 to R157). -/

/-- R154 to R157: a fence and a path fence are listed with what they cover and their completion is due; `WBR` and `INVR` wait for the cohort's own stores to
leave the queue, and a length of 0 does nothing. -/
def Obligations.FenceResults : Prop :=
  ∀ (s : State) (w : Who) (o : OpFence) (n a l : Nat),
    let lists (i : Instr) (scope pred succ paths : Nat) : Prop :=
      Leaves s w (exec i s)
        { w.gone with fences := w.h.fences ++
          [{ seq := w.h.seq + 1, scope := scope, pred := pred, succ := succ, paths := paths, handler := w.h.handler }] }
        [{ row := .fenceComplete, ops := [w.c, w.k] }]
    let lo := (w.h.uq a).toNat
    let hi := min (lo + (w.h.uq l).toNat) (2 ^ 57)
    (Clear s w {} → lists (.fence o) o.s o.p o.c 0 ∧ lists (.pfence n) 2 0 0 n) ∧
    (Clear s w { us := [a, l], acc := 0x40 } →
      (w.h.stores ≠ [] → exec (.wbr a l) s = .next s) ∧
      (w.h.stores = [] → w.h.uq l = 0 → MovesOn s w (exec (.wbr a l) s) w.past.pc) ∧
      (w.h.stores = [] → w.h.uq l ≠ 0 → exec (.wbr a l) s = .next ((s.onward w).flushFrames w
        ((s.onward w).rangeFrames w.c w.h.asid lo hi) false))) ∧
    (Clear s w { us := [a, l], acc := 0xc0 } →
      (w.h.stores ≠ [] → exec (.invr a l) s = .next s) ∧
      (w.h.stores = [] → w.h.uq l = 0 → MovesOn s w (exec (.invr a l) s) w.past.pc) ∧
      (w.h.stores = [] → w.h.uq l ≠ 0 → (s.onward w).rangeFrames w.c w.h.asid lo hi = [] → lists (.invr a l) 2 0 0 4) ∧
      (w.h.stores = [] → w.h.uq l ≠ 0 → exec (.invr a l) s = .next
        (((s.onward w).flushFrames w ((s.onward w).rangeFrames w.c w.h.asid lo hi) true).addFence w 2 0 0 4)))

/-- R125 to R127: barriers. An arrival records the phase and the count and, once every live lane of the cohort has arrived, joins the unit's queue with the cycle in which it
became complete; at a gang's barrier the block arrives once all its live cohorts have. A wait passes at once where the recorded phase has completed, with the order
that a completion gives; lanes that have arrived already wait to arrive again. -/
def Obligations.BarrierResults : Prop :=
  (∀ (s : State) (w : Who) (n a : Nat) (bl : Block), s.block? w.c w.h.slot = some bl →
    let r := Tbl.at bl.bars n {}
    let count := (w.h.uq a).toNat
    let now := Tbl.at w.h.barLanes n 0 ||| w.sp.entry
    let again : Prop := Tbl.has w.h.barLanes n = true ∧ w.sp.entry &&& ~~~(Tbl.at w.h.barLanes n 0) = 0
    let passed : Prop := r.phase ≠ Tbl.at w.h.barPhase n false
    let marked := Tbl.at w.h.rearrive n 0
    let waits : Prop := w.sp.rewait = true ∧ marked &&& w.sp.entry = 0
    let waitsAgain (i : Instr) : Prop := Leaves s w (exec i s)
      { w.h.onSplit w.i (fun sp => { sp with state := 2, hold := .barrier n true }) with
        rearrive := Tbl.put w.h.rearrive n (marked ||| w.sp.entry) } []
    let passes (i : Instr) : Prop := Leaves s w (exec i s)
      { w.gone with fences := w.h.fences ++
        [{ seq := w.h.seq + 2, scope := 0, pred := 0x80, succ := 0xc0, paths := 0, handler := w.h.handler }] }
      [{ row := .fenceComplete, ops := [w.c, w.k] }]
    let arrives (i : Instr) (h : Cohort) : Prop := ∃ t, exec i s = .next t ∧
      t.cohort? w.c w.k = some { h with barLanes := Tbl.put w.h.barLanes n now, barPhase := Tbl.put w.h.barPhase n r.phase,
                                        rearrive := Tbl.put w.h.rearrive n (marked &&& ~~~w.sp.entry),
                                        barCount := Tbl.put w.h.barCount n count } ∧
      (∀ c k, ¬ (c = w.c ∧ k = w.k) → t.cohort? c k = s.cohort? c k) ∧ t.mem = s.mem ∧
      let joins : Prop := w.h.alive &&& ~~~now = 0 ∧ w.h.cohortid ∉ r.who ∧ ∀ q ∈ r.queue, q.2.1 ≠ w.h.cohortid
      let clock := (s.core w.c).lclk
      let before := r.queue.takeWhile fun q => decide (q.1 < clock ∨ q.1 = clock ∧ q.2.1 ≤ w.h.cohortid)
      let entered : Barrier := { r with queue := before ++ (clock, w.h.cohortid, count) :: r.queue.drop before.length }
      (joins → w.h.cohortid < 64 → (∀ q ∈ r.queue, q.2.1 < 64) →
        t.block? w.c w.h.slot = some { bl with bars := Tbl.put bl.bars n entered } ∧
        Due.mk .barrierArrivalTaken [w.c, w.h.slot, n] ∈ t.agenda) ∧
      (¬ joins → t.block? w.c w.h.slot = some bl)
    n < 16 →
    (Clear s w { us := [a], rel := some { scope := 0, cls := 0xc0, by_ := w.sp.entry, near := true } } →
      (again → waitsAgain (.barArv n a)) ∧
      (¬ again → arrives (.barArv n a) w.gone) ∧
      (¬ waits → again → waitsAgain (.barAw n a)) ∧
      (¬ waits → ¬ again →
        arrives (.barAw n a) (w.h.onSplit w.i fun sp => { sp with state := 2, hold := .barrier n false })) ∧
      (waits → passed → passes (.barAw n a)) ∧
      (waits → ¬ passed → Waits s w (exec (.barAw n a) s) 2 (.barrier n false))) ∧
    (Clear s w { us := [a] } →
      (passed → passes (.barWt n a)) ∧
      (¬ passed → Waits s w (exec (.barWt n a) s) 2 (.barrier n false)))) ∧
  (∀ (s : State) (w : Who) (n a : Nat),
    let phase := (s.myGangBar w n).phase
    let again : Prop := Tbl.has w.h.gbarLanes n = true ∧ w.sp.entry &&& ~~~(Tbl.at w.h.gbarLanes n 0) = 0
    let passed : Prop := phase ≠ Tbl.at w.h.gbarPhase n false
    let marked := Tbl.at w.h.rearrive (16 + n) 0
    let waits : Prop := w.sp.rewait = true ∧ marked &&& w.sp.entry = 0
    let waitsAgain (i : Instr) : Prop := Leaves s w (exec i s)
      { w.h.onSplit w.i (fun sp => { sp with state := 2, hold := .gangBarrier n true }) with
        rearrive := Tbl.put w.h.rearrive (16 + n) (marked ||| w.sp.entry) } []
    let arrived (h : Cohort) : Cohort :=
      { h with gbarLanes := Tbl.put w.h.gbarLanes n (Tbl.at w.h.gbarLanes n 0 ||| w.sp.entry), gbarPhase := Tbl.put w.h.gbarPhase n phase,
               rearrive := Tbl.put w.h.rearrive (16 + n) (marked &&& ~~~w.sp.entry), gbarCount := Tbl.put w.h.gbarCount n (w.h.uq a).toNat }
    let waiting := w.h.onSplit w.i fun sp => { sp with state := 2, hold := .gangBarrier n false }
    (Clear s w { us := [a], rel := some { scope := 2, cls := 0xc0, by_ := w.sp.entry } } →
      (again → waitsAgain (.gbarArv n a)) ∧
      (¬ again → exec (.gbarArv n a) s = .next ((s.setCohort w.c w.k (arrived w.gone)).blockArrives w.c w.h.slot n)) ∧
      (¬ waits → again → waitsAgain (.gbarAw n a)) ∧
      (¬ waits → ¬ again →
        exec (.gbarAw n a) s = .next ((s.setCohort w.c w.k (arrived waiting)).blockArrives w.c w.h.slot n)) ∧
      (waits → passed → MovesOn s w (exec (.gbarAw n a) s) w.past.pc) ∧
      (waits → ¬ passed → Waits s w (exec (.gbarAw n a) s) 2 (.gangBarrier n false))) ∧
    (Clear s w { us := [a] } →
      (passed → MovesOn s w (exec (.gbarWt n a) s) w.past.pc) ∧
      (¬ passed → Waits s w (exec (.gbarWt n a) s) 2 (.gangBarrier n false))))

/-- R128, R137: `MWAIT` on a word that its core has a translation for and whose slice can take a read of it (R276, R277): status 1 at once where the condition holds, with the order of an acquire, status 0
where the slice's monitor table is full, and otherwise an armed monitor and a parked cohort; a misaligned address traps. -/
def Obligations.MonitorResults : Prop :=
  ∀ (s : State) (w : Who) (o : OpMwait) (pa : Nat) (sm : Bool),
    Clear s w { us := [o.a, o.v], acc := 0x80, path := some 0 } →
    let n := if o.w = 1 then 8 else 4
    let va := (w.h.uq o.a).toNat
    let m := Mem.rdN s.mem pa n
    let v := (w.h.uq o.v).toNat % 256 ^ n
    let act := w.h.active w.sp
    let cond : Prop := (o.c = 0 ∧ m = v) ∨ (o.c = 1 ∧ m ≠ v) ∨ (o.c = 2 ∧ m < v) ∨ (o.c = 3 ∧ m ≤ v) ∨ (o.c = 4 ∧ m > v) ∨ (o.c = 5 ∧ m ≥ v)
    let leaves (h : Cohort) (due : List Due) : Prop :=
      ∃ t, exec (.mwait o) s = .next t ∧ t.cohort? w.c w.k = some h ∧ (∀ c k, ¬ (c = w.c ∧ k = w.k) → t.cohort? c k = s.cohort? c k) ∧
        (∀ d ∈ due, d ∈ t.agenda) ∧ { t with cores := s.cores, agenda := s.agenda, slices := s.slices } = s
    (va % n ≠ 0 → Stops s w (exec (.mwait o) s) 11 1 va) ∧
    (va % n = 0 → o.c < 6 → s.find w.c w.h.asid (s.gangOf w.c w.h) .load va = .ok pa sm → isHomed pa = true → pa % n = 0 →
      Tbl.find? s.shadows (pa / 128) = none → s.poisoned pa n = false →
      (∀ st ∈ w.h.stores, ∀ a ∈ st.lanes, ∀ p b, (s.findNow w.c w.h.asid (s.gangOf w.c w.h) st.kind.acc a.va).1 = .ok p b → p + st.size ≤ pa ∨ pa + n ≤ p) →
      (∀ e ∈ s.accs, e.2.core = w.c → e.2.stage = 0 → e.2.kind ≠ .load → ∀ a ∈ e.2.lanes, a.pa + e.2.size ≤ pa ∨ pa + n ≤ a.pa) →
      s.readReady (pa / 128) = true →
      (cond → leaves
        { w.gone.setPred o.p act (BitVec.allOnes 32) with fences := w.h.fences ++
          [{ seq := w.h.seq + 2, scope := 2, pred := 0x80, succ := 0xc0, paths := 0, handler := w.h.handler }] }
        [{ row := .fenceComplete, ops := [w.c, w.k] }]) ∧
      (¬ cond → 256 ≤ s.armedAt (homeOf pa) → leaves (w.gone.setPred o.p act 0) []) ∧
      (¬ cond → s.armedAt (homeOf pa) < 256 → ∃ t, exec (.mwait o) s = .next t ∧
        let p : Parked := { split := w.i, pred := o.p, mon := s.nextId }
        t.cohort? w.c w.k = some (if w.h.handler then { w.gone with hparked := some p } else { w.gone with parked := some p }) ∧
        t.monitors = Tbl.put s.monitors s.nextId
          { id := s.nextId, addr := pa, wide := o.w == 1, cond := o.c, cmp := v, uid := w.h.uid, asid := w.h.asid, core := w.c, slot := w.k } ∧
        t.mem = s.mem))

/-- R131 to R134: channels. A `SEND` takes a free slot and its payload leaves with the registers' tags, grey lanes sending zero; a `RECV` takes the oldest full
slot; each waits where there is none; a `RECV` acquires at device scope; `CHQ` reads the channel's state. -/
def Obligations.ChannelResults : Prop :=
  ∀ (s : State) (w : Who) (o : OpSend) (r : OpRecv) (c d id : Nat) (bl : Block), s.block? w.c w.h.slot = some bl →
    let x := s.chan id
    (Tbl.find? bl.sends o.c = some id →
      let regs := if o.n = 1 then [o.a, o.a + 1] else [o.a]
      let word (r l : Nat) : Nat := if inMask w.h.dmask l then 0 else (w.h.lane r l).toNat
      let bytes := (regs.flatMap fun r => (List.range 32).flatMap fun l => leBytes 4 (word r l)).take x.size
      Clear s w { vs := regs, pairs := if o.n = 1 then [o.a] else [], rel := some { scope := 2, cls := 0xff } } →
        (x.free = 0 → Waits s w (exec (.send o) s) 3 (.channel o.c)) ∧
        (x.free ≠ 0 → ∃ t, exec (.send o) s = .next t ∧ t.cohort? w.c w.k = some w.gone ∧ t.mem = s.mem ∧
          t.chan id = { x with free := x.free - 1, flight := x.flight ++ [(bytes, regs.map w.h.vtag)] })) ∧
    (Tbl.find? bl.recvs r.c = some id →
      let regs := if r.n = 1 then [r.d, r.d + 1] else [r.d]
      Clear s w { vd := regs, pairs := if r.n = 1 then [r.d] else [] } →
        (x.full = [] → Waits s w (exec (.recv r) s) 3 (.channel r.c)) ∧
        (∀ p rest, x.full = p :: rest → ∃ t h, exec (.recv r) s = .next t ∧ t.cohort? w.c w.k = some h ∧ t.mem = s.mem ∧
          t.chan id = { x with full := rest } ∧ SameUniform w.h h ∧ SamePreds w.h h ∧
          h.fences = w.h.fences ++ [{ seq := w.h.seq + 2, scope := 2, pred := 0x80, succ := 0xc0, paths := 0, handler := w.h.handler }] ∧
          let word (i : Nat) : Word := BitVec.ofNat 32 (leNat ((p.1.drop (4 * i)).take 4))
          let m := w.h.active w.sp
          (r.n ≠ 1 → LanesSet w.h h r.d m (if x.size < 128 then 0 else p.2.getD 0 0) fun l => word l) ∧
          (r.n = 1 → (∀ l, l < 32 → h.lane r.d l = (if inMask m l then word l else w.h.lane r.d l) ∧
            h.lane (r.d + 1) l = if inMask m l then word (32 + l) else w.h.lane (r.d + 1) l) ∧
            h.vtag r.d = (if x.size < 128 then 0 else p.2.getD 0 0) ∧ h.vtag (r.d + 1) = (if x.size < 256 then 0 else p.2.getD 1 0) ∧
            ∀ k, k ≠ r.d → k ≠ r.d + 1 → h.vreg k = w.h.vreg k))) ∧
    ((Tbl.find? bl.sends c = some id ∨ (Tbl.find? bl.sends c = none ∧ Tbl.find? bl.recvs c = some id)) → Clear s w { ud := [d] } →
      WritesUniform s w (exec (.chq c d) s) d
        (BitVec.ofNat 64 (x.full.length + x.free * 2 ^ 8 + x.slots * 2 ^ 16 + x.size / 16 * 2 ^ 24)) 0) ∧
    (Tbl.find? bl.sends c = none → Tbl.find? bl.recvs c = none → Reaches s w { ud := [d], illegal := true } →
      Stops s w (exec (.chq c d) s) 2 0 0)

/-! Tiles, accumulators, engines and work lists (R161 to R206). -/

/-- R33, R161, R162, R166, R168, R234: the handle instructions on a handle that the cohort owns and that no earlier work holds: what each leaves of the handle. Frames
that are taken read as zero, and every other byte is as before; a tile that is read and holds a reserved tag has code 6. -/
def Obligations.HandleResults : Prop :=
  ∀ (s : State) (w : Who) (n a : Nat) (bl : Block), s.block? w.c w.h.slot = some bl → s.bankWaiters = [] →
    let x := Tbl.at bl.handles n {}
    let va := (w.h.uq a).toNat
    let frames := x.shape.frames
    let owned : Prop := x.owner = w.h.cohortid
    let quiet : Prop := x.fill = none ∧ x.writes = [] ∧ ∀ m ∈ (s.core w.c).mats, m.slot = w.h.slot → m.ha ≠ n ∧ m.hb ≠ n
    let idle : Prop := x.fill = none ∧ (∀ t ∈ x.writes, t.held = true ∧ t.uid = w.h.uid) ∧
      ∀ m ∈ (s.core w.c).mats, m.slot = w.h.slot → m.ha ≠ n ∧ m.hb ≠ n
    let moves (write evict : Bool) (va : Nat) : Transfer :=
      { write := write, va := va, seq := w.h.seq + 1, uid := w.h.uid, word := w.word, pc := w.sp.pc, evict := evict, applyLog := true, held := false,
        handler := w.h.handler }
    let sets (i : Instr) (y : Handle) (due : List Due) : Prop := ∃ t, exec i s = .next t ∧ t.cohort? w.c w.k = some w.gone ∧
      t.block? w.c w.h.slot = some { bl with handles := Tbl.put bl.handles n y } ∧ (∀ d ∈ due, d ∈ t.agenda) ∧ t.mem = s.mem
    let takes (i : Instr) (y : Handle) (due : List Due) : Prop := ∃ t, exec i s = .next t ∧ t.cohort? w.c w.k = some w.gone ∧
      t.block? w.c w.h.slot = some { bl with handles := Tbl.put bl.handles n y } ∧ (∀ d ∈ due, d ∈ t.agenda) ∧
      ∀ b, Mem.rd t.mem b = if frameAddr w.c y ≤ b ∧ b < frameAddr w.c y + frames * 4096 then 0 else Mem.rd s.mem b
    let good : Prop := Num.goodTag x.tag = true
    let stays : Prop := ∀ t ∈ x.writes, t.evict = true → t.held = true ∧ t.uid = w.h.uid
    let reserved (i : Instr) : Prop := Num.goodTag x.tag = false → Stops s w (exec i s) 6 0 0
    let fillDue : List Due := [{ row := .fillEnd, ops := [w.c, w.h.slot, n] }]
    let writeDue : List Due := [{ row := .tileWriteComplete, ops := [w.c, w.h.slot, n] }]
    (Clear s w { fresh := [n] } →
      (x.state = .free ∨ x.state = .released → x.tag ≠ 0 → frames ≤ 256 → (s.core w.c).frameWaits = [] → ∀ f, (s.core w.c).frameRun frames = some f →
        takes (.tnew n) { x with frame := f, frames := frames, state := .resident, owner := w.h.cohortid, phase := 0, log := [], backing := 0,
                                 writes := [], fill := none } []) ∧
      (owned → x.state ≠ .free → x.state ≠ .released → Stops s w (exec (.tnew n) s) 8 0 0)) ∧
    (Clear s w { hs := [n] } →
      (¬ owned → Stops s w (exec (.tfree n) s) 7 n 0 ∧ Stops s w (exec (.twait n) s) 7 n 0) ∧
      (owned → idle → MovesOn s w (exec (.twait n) s) w.past.pc) ∧
      (owned → ¬ idle → Waits s w (exec (.twait n) s) 7 (.tile n))) ∧
    (Clear s w { hs := [n], us := [a] } → owned → va < 32 → va ∈ bl.live → sets (.tpass a n) { x with owner := va } []) ∧
    (Clear s w { fresh := [n], us := [a] } → quiet → va % 16 = 0 →
      (owned → x.state = .resident → sets (.tbind a n) { x with state := .bound, backing := va } []) ∧
      (x.state = .free ∨ x.state = .released → x.tag ≠ 0 →
        sets (.tbind a n) { x with state := .nonResident, backing := va, owner := w.h.cohortid, log := [], phase := 0, frame := 0, frames := 0,
                                   writes := [] } [])) ∧
    (Clear s w { hs := [n], acc := 0x08, path := some 1 } → reserved (.tfetch n) ∧ (good → owned → (s.core w.c).frameWaits = [] → frames ≤ 256 →
      (x.state = .nonResident → quiet → ∀ f, (s.core w.c).frameRun frames = some f →
        takes (.tfetch n) { x with frame := f, frames := frames, state := .filling, retBound := true, fill := some (moves false false x.backing) } fillDue) ∧
      (x.state = .bound ∨ x.state = .filling → stays → MovesOn s w (exec (.tfetch n) s) w.past.pc) ∧
      (x.state = .bound ∨ x.state = .filling → ¬ stays → Waits s w (exec (.tfetch n) s) 7 (.tile n)) ∧
      (x.state = .resident → Stops s w (exec (.tfetch n) s) 8 0 0))) ∧
    (Clear s w { hs := [n], acc := 0x04 } → (x.state = .nonResident → x.log = []) → reserved (.tevict n)) ∧
    (Clear s w { hs := [n], acc := 0x04 } → good → owned → quiet →
      (x.state = .bound → sets (.tevict n) { x with writes := [moves true true x.backing] } writeDue) ∧
      (x.state = .nonResident → x.log = [] → MovesOn s w (exec (.tevict n) s) w.past.pc)) ∧
    (Clear s w { hs := [n], us := [a], acc := 0x08, path := some 1 } → reserved (.tld a n)) ∧
    (Clear s w { hs := [n], us := [a], acc := 0x08, path := some 1 } → good → owned → quiet → va % 16 = 0 → x.state ≠ .nonResident →
      sets (.tld a n) { x with state := .filling, retBound := x.state == .bound, fill := some (moves false false va) } fillDue) ∧
    (Clear s w { hs := [n], us := [a], acc := 0x04 } → x.state ≠ .nonResident → reserved (.tst a n)) ∧
    (Clear s w { hs := [n], us := [a], acc := 0x04 } → good → owned → x.fill = none → stays → va % 16 = 0 → x.state ≠ .nonResident →
      sets (.tst a n) { x with writes := x.writes ++ [moves true false va] } writeDue)

/-- R162, R170, R234: `TFREE` releases the handle and clears its frames; every byte outside them stays. `TGET` of a line of a tile in its frames with no poisoned element
writes the active lanes with the tile's tag. `TSET` gives each element of the line that an active lane reaches the low bits of that lane's source, and in a
shared-exponent tile the line's block the exponent byte of its lowest active lane; every other element and exponent stays. It changes no register, and no byte
outside its tile. -/
def Obligations.TileLineResults : Prop :=
  (∀ (s : State) (w : Who) (n : Nat) (bl : Block) (x : Handle), s.block? w.c w.h.slot = some bl → Tbl.find? bl.handles n = some x →
    Clear s w { hs := [n] } → x.owner = w.h.cohortid → (∀ y ∈ x.writes, y.held = true ∧ y.uid = w.h.uid) →
    (∀ m ∈ (s.core w.c).mats, m.slot = w.h.slot → m.ha ≠ n ∧ m.hb ≠ n) →
    ∃ t, exec (.tfree n) s = .next t ∧
      (let y : Handle := { x with state := .released, frame := 0, frames := 0, log := [], fill := none, backing := 0, writes := [] }
       t.block? w.c w.h.slot = some { bl with handles := Tbl.put bl.handles n y }) ∧
      ∀ a, Mem.rd t.mem a =
        if frameAddr w.c x ≤ a ∧ a < frameAddr w.c x + x.frames * 4096 then 0 else Mem.rd s.mem a) ∧
  (∀ (s : State) (w : Who) (o : OpTget) (bl : Block), s.block? w.c w.h.slot = some bl →
    let q := (w.h.uq o.b).toNat
    let col := o.c == 1
    (let x := Tbl.at bl.handles o.a {}
     let line := lineOf x.shape col q
     Clear s w { hs := [o.a], us := [o.b], vd := tagRegs x.tag o.d, pairs := if Num.wideTag x.tag then [o.d] else [], whole := false } →
       Num.goodTag x.tag = true → x.owner = w.h.cohortid → x.state ≠ .nonResident → x.fill = none →
       (∀ t ∈ x.writes, t.evict = true → t.held = true ∧ t.uid = w.h.uid) → line.2.2 = false →
       (∀ i, (s.tileImg w.c x).isBad i = false) →
       let f (l : Nat) : Nat := x.shape.lineWord (s.tileImg w.c x) col line.1 line.2.1 l
       Completes s w (exec (.tget o) s) fun h =>
         WentOn w w.past h ∧ SameBut w.h h ∧ SameUniform w.h h ∧ SamePreds w.h h ∧
         if Num.wideTag x.tag = true then PairSet w.h h o.d (w.h.active w.sp) x.tag fun l => BitVec.ofNat 64 (f l)
         else LanesSet w.h h o.d (w.h.active w.sp) x.tag fun l => BitVec.ofNat 32 (f l)) ∧
    (let x := Tbl.at bl.handles o.d {}
     Clear s w { hs := [o.d], us := [o.b], vs := tagRegs x.tag o.a, pairs := if Num.wideTag x.tag then [o.a] else [], whole := false } →
       (x.state ≠ .nonResident → Num.goodTag x.tag = false ∨ (w.h.vtag o.a ≠ 0 ∧ w.h.vtag o.a ≠ x.tag) → Stops s w (exec (.tset o) s) 6 0 0) ∧
       (w.h.vtag o.a = 0 ∨ w.h.vtag o.a = x.tag → Num.goodTag x.tag = true → x.owner = w.h.cohortid → x.state ≠ .nonResident → (lineOf x.shape col q).2.2 = false →
         x.fill = none → x.writes = [] → (∀ m ∈ (s.core w.c).mats, m.slot = w.h.slot → m.ha ≠ o.d ∧ m.hb ≠ o.d) →
         ∃ t, exec (.tset o) s = .next t ∧ t.cohort? w.c w.k = some w.gone ∧ t.block? w.c w.h.slot = some bl ∧
           (∀ a, a < frameAddr w.c x ∨ frameAddr w.c x + x.shape.bytes ≤ a → Mem.rd t.mem a = Mem.rd s.mem a) ∧
           (s.mem.wf = true → w.c < 256 → x.frame * 4096 + x.shape.bytes ≤ 0x100000 →
             let old := s.tileImg w.c x
             let new := t.tileImg w.c x
             let line := lineOf x.shape col q
             let act := w.h.active w.sp
             let src (l : Nat) : Nat := if Num.wideTag x.tag then (w.h.pair o.a l).toNat else (w.h.lane o.a l).toNat
             let reaches (l j : Nat) : Prop := l < 32 ∧ inMask act l = true ∧ line.2.1 + l < x.shape.lineLen col ∧
               j = if col then x.shape.index (line.2.1 + l) line.1 else x.shape.index line.1 (line.2.1 + l)
             (∀ j, j < x.shape.count → (∀ l, reaches l j → new.elems.getD j 0 = src l % 2 ^ Num.bitsOf x.tag) ∧
               ((∀ l, ¬ reaches l j) → new.elems.getD j 0 = old.elems.getD j 0)) ∧
             (∀ b, b < x.shape.blocks → 0x20 ≤ x.tag →
               let written : Prop := (∃ l j, reaches l j) ∧ b = (if col then x.shape.index line.2.1 line.1 else x.shape.index line.1 line.2.1) / 32
               (written → new.exps.getD b 0 = src (lowestLane act) / 2 ^ 24 % 256) ∧ (¬ written → new.exps.getD b 0 = old.exps.getD b 0))))))

/-- R171, R173 to R175, R239: the loggable operations: in place on a tile that is not resident the entry goes to the handle's log and no byte changes, and on a
resident one, or out of place on two that match, each element of the tile in its frames becomes what the operation makes of the element: a sum, a product, a
power of two, a value filled in where the region has it, a clamp, or a conversion. An operand that the operation does not accept has code 6, and out of place
two tiles that do not match have code 9. -/
def Obligations.TileOperationResults : Prop :=
  ∀ (s : State) (w : Who) (o : OpT) (v : OpTcvt) (bl : Block), s.block? w.c w.h.slot = some bl →
    let x := Tbl.at bl.handles o.d {}
    let quiet (x : Handle) (n : Nat) : Prop := x.writes = [] ∧ ∀ m ∈ (s.core w.c).mats, m.slot = w.h.slot → m.ha ≠ n ∧ m.hb ≠ n
    let logged (i : Instr) (n : Nat) (x : Handle) (e : LogEntry) : Prop := x.state = .nonResident → quiet x n → (s.core w.c).frameWaits = [] →
      ∀ l, appendLog x.shape x.log e (decide ((s.core w.c).logUsed < 512)) = some l →
        ∃ t, exec i s = .next t ∧ t.cohort? w.c w.k = some w.gone ∧ t.mem = s.mem ∧
          t.block? w.c w.h.slot = some { bl with handles := Tbl.put bl.handles n { x.after e with log := l } }
    let performed (i : Instr) (n : Nat) (x : Handle) (e : LogEntry) : Prop := x.state = .resident ∨ x.state = .bound → x.fill = none → quiet x n →
      exec i s = .next ((s.onward w).runInPlace w n e)
    let does (i : Instr) (n : Nat) (x : Handle) (e : LogEntry) : Prop :=
      Num.goodTag x.tag = true → x.owner = w.h.cohortid → logged i n x e ∧ performed i n x e
    let here (x : Handle) : Prop := (x.state = .resident ∨ x.state = .bound) ∧ x.fill = none ∧ x.owner = w.h.cohortid ∧ Num.goodTag x.tag = true ∧
      x.frame * 4096 + x.shape.frames * 4096 ≤ 0x100000
    let sound : Prop := s.mem.wf = true ∧ w.c < 256 ∧ s.bankWaiters = []
    let results (sh : TShape) (k q g : Nat) (old new : TImg) : Prop :=
      let float : Prop := sh.tag = 0x11 ∨ sh.tag = 0x12 ∨ sh.tag = 0x13
      let f : Num.Fmt := if sh.tag = 0x11 then .fp32 else if sh.tag = 0x12 then .fp16 else .bf16
      let round (v : Num.FVal) : Nat := Num.pack f 0 false 0 0 v
      let s32 := Num.unpack .fp32 (q % 2 ^ 32)
      let m := Num.bitsOf sh.tag
      let e := Num.sintOf 16 q
      let r0 := g % 512
      let c0 := g / 2 ^ 9 % 512
      let r1 := if g / 2 ^ 18 % 512 = 0 then sh.rows else r0 + g / 2 ^ 18 % 512
      let c1 := if g / 2 ^ 27 % 1024 = 0 then sh.cols else c0 + g / 2 ^ 27 % 1024
      let hit (j : Nat) : Prop := sh.inside j = true ∧ r0 ≤ (sh.coord j).1 ∧ (sh.coord j).1 < r1 ∧ c0 ≤ (sh.coord j).2 ∧ (sh.coord j).2 < c1
      (∀ j, j < sh.count →
        let a := old.elems.getD j 0
        let z := new.elems.getD j 0
        (sh.inside j = false → k ≠ 2 → z = a) ∧
        (k = 3 → z = if hit j then q % 2 ^ m else a) ∧
        (0x20 ≤ sh.tag → k = 2 → z = if old.exps.getD (j / 32) 0 ≠ 255 ∧ (old.exps.getD (j / 32) 0 : Int) + e < 0 then 0 else a) ∧
        (sh.inside j = true →
          (float →
            (k = 0 → z = round (Num.exactSum false [Num.unpack f a, s32])) ∧
            (k = 1 → z = round (Num.exactMul (Num.unpack f a) s32)) ∧
            (k = 2 → Num.unpack f a = .nan → z = round .nan) ∧
            (k = 2 → ∀ n, Num.unpack f a = .inf n → z = round (.inf n)) ∧
            (k = 2 → ∀ n p x, Num.unpack f a = .fin n p x →
              z = Num.pack f (if (Nat.log2 p : Int) + x + e < 1 - (f.bias : Int) then 1 else 0) false 0 0 (.fin n p (x + e))) ∧
            (k = 4 → z = Num.fmin f (Num.fmax f a (round s32)) (round (Num.unpack .fp32 (q / 2 ^ 32 % 2 ^ 32))))) ∧
          (1 ≤ sh.tag → sh.tag ≤ 8 →
            (k = 0 → z = (a + q) % 2 ^ m) ∧
            (k = 1 → z = a * q % 2 ^ m) ∧
            (k = 4 → sh.tag < 4 → Num.sintOf m z = max (-2 ^ (m - 1)) (min (2 ^ (m - 1) - 1)
              (min (max (Num.sintOf m a) (Num.sintOf 32 q)) (Num.sintOf 32 (q / 2 ^ 32))))) ∧
            (k = 4 → 4 < sh.tag → z = min (2 ^ m - 1) (min (max a (q % 2 ^ 32)) (q / 2 ^ 32 % 2 ^ 32)))))) ∧
      (∀ b, b < sh.blocks → 0x20 ≤ sh.tag →
        let a := old.exps.getD b 0
        let z := new.exps.getD b 0
        (k = 2 → a = 255 ∨ 254 < (a : Int) + e → z = 255) ∧
        (k = 2 → a ≠ 255 → (a : Int) + e ≤ 254 → z = ((a : Int) + e).toNat) ∧
        (k = 3 → z = if (∃ j, j < 32 ∧ hit (32 * b + j)) then q / 256 % 256 else a))
    let converted (sh u : TShape) (phase : Nat) (old new : TImg) : Prop :=
      let from_ (j : Nat) : Nat := sh.index (u.coord j).1 (u.coord j).2
      let block (b : Nat) : Nat × List Int := Num.toSX
        ((List.range 32).map fun j => if u.inside (32 * b + j) then sh.value old (from_ (32 * b + j)) else Num.FVal.fin false 0 0)
        (Num.bitsOf u.tag) (v.s == 1) v.r phase
      (u.tag < 0x20 → ∀ j, j < u.count → new.elems.getD j 0 =
        Num.convert sh.tag (old.exps.getD (from_ j / 32) 0) u.tag (v.s == 1) v.r ((u.coord j).2 % 32) phase (old.elems.getD (from_ j) 0) %
          2 ^ Num.bitsOf u.tag) ∧
      (0x20 ≤ u.tag → ∀ b, b < u.blocks → new.exps.getD b 0 = (block b).1 ∧
        ∀ j, j < 32 → new.elems.getD (32 * b + j) 0 = Num.intBits (Num.bitsOf u.tag) ((block b).2.getD j 0))
    let acts (i : Instr) (n : Nat) (P : State → Handle → Prop) : Prop := ∃ t y, exec i s = .next t ∧ t.cohort? w.c w.k = some w.gone ∧
      t.block? w.c w.h.slot = some { bl with handles := Tbl.put bl.handles n y } ∧ P t y
    let apart (a d : Nat) : Prop :=
      let ha := Tbl.at bl.handles a {}
      let hd := Tbl.at bl.handles d {}
      a ≠ d ∧ here ha ∧ here hd ∧ quiet hd d ∧ ∀ t ∈ ha.writes, t.evict = true → t.held = true ∧ t.uid = w.h.uid
    let scalar : LogEntry := { op := 0, scalar := (w.h.uq o.b).toNat, tag := x.tag, layout := x.layout }
    (o.a = o.d → Clear s w { hs := [o.d, o.d], us := [o.b] } → ∀ k i, (k = 0 ∧ i = Instr.tadds o ∨ k = 1 ∧ i = Instr.tmuls o ∨ k = 2 ∧ i = Instr.texps o ∨
        k = 4 ∧ i = Instr.tclmp o) →
      (opAccepts k x.tag = true → badScalar k x.tag (w.h.utag o.b) = false → (k = 4 → badClamp x.tag (w.h.uq o.b).toNat = false) →
        does i o.d x { scalar with op := k }) ∧
      (x.state ≠ .nonResident → Num.goodTag x.tag = false ∨ opAccepts k x.tag = false ∨ badScalar k x.tag (w.h.utag o.b) = true →
        Stops s w (exec i s) 6 0 0) ∧
      (opAccepts k x.tag = true → badScalar k x.tag (w.h.utag o.b) = false → (k = 4 → badClamp x.tag (w.h.uq o.b).toNat = false) → here x → quiet x o.d →
        x.shape.frames ≤ x.frames → sound → acts i o.d fun t y => y.shape = x.shape ∧
          results x.shape k (w.h.uq o.b).toNat 0 (s.tileImg w.c x) (t.tileImg w.c y))) ∧
    (Clear s w { hs := [o.d, o.a], us := [o.b] } → apart o.a o.d → ∀ k i, (k = 0 ∧ i = Instr.tadds o ∨ k = 1 ∧ i = Instr.tmuls o ∨
        k = 2 ∧ i = Instr.texps o ∨ k = 4 ∧ i = Instr.tclmp o) →
      let y := Tbl.at bl.handles o.a {}
      opAccepts k y.tag = true → badScalar k y.tag (w.h.utag o.b) = false →
        (y.shape ≠ x.shape → Stops s w (exec i s) 9 0 0) ∧
        (y.shape = x.shape → (k = 4 → badClamp x.tag (w.h.uq o.b).toNat = false) → sound → ∃ t, exec i s = .next t ∧
          t.cohort? w.c w.k = some w.gone ∧ t.block? w.c w.h.slot = some bl ∧
          results x.shape k (w.h.uq o.b).toNat 0 (s.tileImg w.c y) (t.tileImg w.c x) ∧
          ∀ a, a < frameAddr w.c x ∨ frameAddr w.c x + x.shape.bytes ≤ a → Mem.rd t.mem a = Mem.rd s.mem a)) ∧
    (Clear s w { hs := [o.d], us := [o.a, o.b] } → (w.h.uq o.b).toNat < 2 ^ 37 → x.shape.holds (x.shape.region (w.h.uq o.b).toNat) = true →
      does (.tfill o) o.d x { op := 3, scalar := (w.h.uq o.a).toNat, region := (w.h.uq o.b).toNat, tag := x.tag, layout := x.layout } ∧
      (here x → quiet x o.d → x.shape.frames ≤ x.frames → sound → acts (.tfill o) o.d fun t y => y.shape = x.shape ∧
        results x.shape 3 (w.h.uq o.a).toNat (w.h.uq o.b).toNat (s.tileImg w.c x) (t.tileImg w.c y))) ∧
    (v.a = v.d → Clear s w { hs := [v.d, v.d] } →
      let y := Tbl.at bl.handles v.d {}
      (y.state ≠ .nonResident → v.t = 0 ∨ Num.goodTag v.t = false ∨ Num.goodTag y.tag = false → Stops s w (exec (.tcvt v) s) 6 0 0) ∧
      (v.t ≠ 0 → Num.goodTag v.t = true → cvtFrames v y ≤ y.frames ∨ y.state = .nonResident → does (.tcvt v) v.d y (cvtEntry v y y)) ∧
      (v.t ≠ 0 → Num.goodTag v.t = true → here y → quiet y v.d → cvtFrames v y ≤ y.frames → y.frame * 4096 + y.frames * 4096 ≤ 0x100000 → sound →
        let u : TShape := { y.shape with tag := v.t, layout := cvtLayout y.layout y.tag v.t }
        acts (.tcvt v) v.d fun t z => z.shape = u ∧ converted y.shape u y.phase (s.tileImg w.c y) (t.tileImg w.c z))) ∧
    (Clear s w { hs := [v.d, v.a] } → apart v.a v.d → v.t ≠ 0 → Num.goodTag v.t = true →
      let y := Tbl.at bl.handles v.a {}
      let z := Tbl.at bl.handles v.d {}
      let u : TShape := { y.shape with tag := v.t, layout := cvtLayout y.layout y.tag v.t }
      (z.shape ≠ u → Stops s w (exec (.tcvt v) s) 9 0 0) ∧
      (z.shape = u → sound → ∃ t, exec (.tcvt v) s = .next t ∧ t.cohort? w.c w.k = some w.gone ∧
        converted y.shape u z.phase (s.tileImg w.c y) (t.tileImg w.c z) ∧
        ∀ a, a < frameAddr w.c z ∨ frameAddr w.c z + z.shape.bytes ≤ a → Mem.rd t.mem a = Mem.rd s.mem a))

/-- R178, R179: `ACQ` grants the lowest free run of the block's banks, with a word that names the grant; `ACR` clears and returns them, and `MMZ` clears them and
makes the grant's type raw; a register that names no live grant has code 10. -/
def Obligations.GrantResults : Prop :=
  ∀ (s : State) (w : Who) (n d q : Nat) (bl : Block) (g : Grant), s.block? w.c w.h.slot = some bl →
    (Clear s w { ud := [d] } →
      (bl.accN < n → Stops s w (exec (.acq n d) s) 9 0 0) ∧
      (n ≤ bl.accN → (s.core w.c).bankRun bl.accBase bl.accN n = none → Waits s w (exec (.acq n d) s) 7 .banks) ∧
      (n ≤ bl.accN → ∀ f, (s.core w.c).bankRun bl.accBase bl.accN n = some f → ∃ t h, exec (.acq n d) s = .next t ∧
        let new : Grant := { slot := w.h.slot, serial := (s.core w.c).grantSerial, count := n, base := f }
        (t.core w.c).grants = (s.core w.c).grants ++ [new] ∧ (t.core w.c).grantSerial = ((s.core w.c).grantSerial + 1) % 65536 ∧
        t.cohort? w.c w.k = some h ∧ WentOn w w.past h ∧ SameBut w.h h ∧ SameLanes w.h h ∧ SamePreds w.h h ∧
        UniformSet w.h h d (BitVec.ofNat 64 (new.slot * 2 ^ 32 + new.serial * 2 ^ 16 + n * 16 + f)) 0 ∧ t.mem = s.mem)) ∧
    (Clear s w { us := [q] } →
      let clears (t : State) : Prop := ∀ a, Mem.rd t.mem a =
        if accBase w.c + g.base * 0x10000 ≤ a ∧ a < accBase w.c + (g.base + g.count) * 0x10000 then 0 else Mem.rd s.mem a
      (s.grantOf w q = none → Stops s w (exec (.acr q) s) 10 0 0 ∧ Stops s w (exec (.mmz q) s) 10 0 0) ∧
      (s.grantOf w q = some g → (∀ m ∈ (s.core w.c).mats, m.slot = g.slot → m.grant ≠ g.serial) →
        (∀ e ∈ bl.handles, ∀ y ∈ e.2.writes, y.grant.toNat = g.word → y.held = true ∧ y.uid = w.h.uid) →
        (∃ t, exec (.acr q) s = .next t ∧ clears t ∧
          (t.core w.c).grants = (s.core w.c).grants.filter fun x => !(x.slot == g.slot && x.serial == g.serial)) ∧
        ((∀ m ∈ (s.core (w.c ^^^ 1)).mats, m.paired = false) → ∃ t, exec (.mmz q) s = .next t ∧ clears t ∧ t.cohort? w.c w.k = some w.gone ∧
          (t.core w.c).grants = (s.core w.c).grants.map fun x => if x.slot = g.slot ∧ x.serial = g.serial then { x with ty := 0 } else x)))

/-- R179 to R183: a multiply of two resident tiles that fit takes its place behind the core's earlier ones and gives the grant its type. With its checks passed and
nothing earlier on the grant, `ACLD` puts each element of its tile, with its poison, into the grant's element of the same row and column and leaves every other element;
and `ACRD` gives each element of its tile, or each lane, what the epilogue makes of the grant's element: scaled by the global scale and the column's, with the
column's bias, each step rounded, and converted to the target. -/
def Obligations.MatrixResults : Prop :=
  ∀ (s : State) (w : Who) (o : OpT) (r : OpAcrd) (a q ty : Nat) (g : Grant) (bl : Block), s.block? w.c w.h.slot = some bl →
    let x (n : Nat) : Handle := Tbl.at bl.handles n {}
    let ready (n : Nat) : Prop := (x n).owner = w.h.cohortid ∧ (x n).fill = none ∧ (x n).state ≠ .nonResident ∧ Num.goodTag (x n).tag = true ∧
      ∀ t ∈ (x n).writes, t.evict = true → t.held = true ∧ t.uid = w.h.uid
    let unread (g : Grant) : Prop := ∀ e ∈ bl.handles, ∀ y ∈ e.2.writes, y.grant.toNat = g.word → y.held = true ∧ y.uid = w.h.uid
    let framed (n : Nat) : Prop := s.mem.wf = true ∧ w.c < 256 ∧ (x n).frame * 4096 + (x n).shape.bytes ≤ 0x100000
    let alone : Prop := ∀ m ∈ (s.core (w.c ^^^ 1)).mats, m.paired = false
    let starts (i : Instr) (paired : Bool) : Prop := ∃ t m, exec i s = .next t ∧ t.cohort? w.c w.k = some w.gone ∧ t.mem = s.mem ∧
      (t.core w.c).mats = (s.core w.c).mats ++ [m] ∧ m.id = s.nextId ∧ m.slot = w.h.slot ∧ m.grant = g.serial ∧ m.ha = o.a ∧ m.hb = o.b ∧
      m.paired = paired ∧
      (t.core w.c).grants = ((s.core w.c).grants.map fun y => if y.slot = g.slot ∧ y.serial = g.serial then { y with ty := ty } else y) ∧
      (if m.started then Due.mk .mmaPerform [w.c, s.nextId] ∈ t.agenda else Due.mk .mmpStart [w.c] ∈ t.agenda)
    (Clear s w { hs := [o.a, o.b], us := [o.d] } → s.grantOf w o.d = some g → pairType (x o.a).shape (x o.b).shape = some ty → (g.ty = 0 ∨ g.ty = ty) →
      ready o.a → ready o.b → (x o.a).shape.cols = (x o.b).shape.rows → (x o.a).shape.cols ≤ 256 → alone → unread g →
      ((x o.b).shape.cols ≤ 256 → 4 ≤ g.count → starts (.mma o) false) ∧
      ((x o.b).shape.cols ≤ 512 → 8 ≤ g.count →
        starts (.mmp o) (!s.bindsWide w.c w.h.asid && s.pairsFor w.c (x o.b).shape.cols))) ∧
    (Clear s w { hs := [a], us := [q] } → s.grantOf w q = some g → ready a → ((x a).tag = 0x11 ∧ ty = 1 ∨ (x a).tag = 3 ∧ ty = 2) → (g.ty = 0 ∨ g.ty = ty) →
      (x a).layout < 2 → g.holds ((x a).rows + 1) ((x a).cols + 1) = true → (∀ m ∈ (s.core w.c).mats, m.slot = g.slot → m.grant ≠ g.serial) → alone →
      unread g → ∃ t, exec (.acld a q) s = .next t ∧ t.cohort? w.c w.k = some w.gone ∧
        (t.core w.c).grants = ((s.core w.c).grants.map fun y => if y.slot = g.slot ∧ y.serial = g.serial then { y with ty := ty } else y) ∧
        (∀ b, b < accBase w.c ∨ accBase w.c + 0x100000 ≤ b → g.base + g.count ≤ 16 → Mem.rd t.mem b = Mem.rd s.mem b) ∧
        (framed a → ∀ i j, i < 256 → t.accAt w.c g i j =
          if i ≤ (x a).rows ∧ j ≤ (x a).cols then
            ((s.tileImg w.c (x a)).elems.getD ((x a).shape.index i j) 0, (s.tileImg w.c (x a)).isBad ((x a).shape.index i j))
          else s.accAt w.c g i j)) ∧
    (acrdCheck r w s = none → acrdHold r w s = none →
      let uses : Uses := { hs := (if r.l = 1 then [] else [r.d]) ++ (epiOf (w.h.uq r.b)).handles.filter (· < s.handleCount w), us := [r.a, r.b],
                           vd := if r.l = 1 then [r.d] else [], whole := r.l != 1 }
      Clear s w uses →
        (r.l = 1 → exec (.acrd r) s = .next ((s.onward w).acrdLanes w r)) ∧
        (r.l ≠ 1 → (x r.d).bchk = false → exec (.acrd r) s = .next ((s.onward w).acrdTile w r).2) ∧
        (s.grantOf w r.a = some g →
          let e := w.h.uq r.b
          let side (n j : Nat) : Nat := (s.tileImg w.c (x n)).elems.getD ((x n).shape.index 0 j) 0
          let sen := e.getLsbD 44
          let ben := e.getLsbD 51
          let gscale := bitsAt e 31 0
          let scale := bitsAt e 43 38
          let bias := bitsAt e 50 45
          let acc (i j : Nat) : Nat := (s.accAt w.c g (bitsAt e 63 56 + i) (32 * bitsAt e 55 52 + j)).1
          let y (i j : Nat) : Nat :=
            let y0 := Num.fmul .fp32 0 (if g.ty = 2 then Num.pack .fp32 0 false 0 0 (Num.valueOf 3 0 (acc i j)) else acc i j) gscale
            let y1 := if sen then Num.fmul .fp32 0 y0 (side scale j) else y0
            if ben then Num.fadd .fp32 0 y1 (side bias j) else y1
          let out (tag i j : Nat) : Nat :=
            if g.ty = 2 ∧ sen = false ∧ ben = false ∧ gscale = 0x3f800000 ∧ 1 ≤ tag ∧ tag ≤ 8 then Num.convert 3 0 tag true 0 0 0 (acc i j)
            else Num.convert 0x11 0 tag false r.r (j % 32) w.sp.dph.toNat (y i j)
          let clean (j : Nat) : Prop := (s.accAt w.c g (bitsAt e 63 56) (32 * bitsAt e 55 52 + j)).2 = false ∧
            (sen = true → (s.tileImg w.c (x scale)).isBad ((x scale).shape.index 0 j) = false) ∧
            (ben = true → (s.tileImg w.c (x bias)).isBad ((x bias).shape.index 0 j) = false)
          let ltag := bitsAt e 37 32
          let act := w.h.active w.sp
          let block := Num.toSX ((List.range 32).map fun l => if inMask act l then Num.unpack .fp32 (y 0 l) else Num.FVal.fin false 0 0)
            (ltag - 0x20) false r.r w.sp.dph.toNat
          let z := x r.d
          let tile (b : Nat) : Nat × List Int := Num.toSX
            ((List.range 32).map fun j =>
              if z.shape.inside (32 * b + j) then Num.unpack .fp32 (y (z.shape.coord (32 * b + j)).1 (z.shape.coord (32 * b + j)).2)
              else Num.FVal.fin false 0 0) (z.tag - 0x20) false r.r w.sp.dph.toNat
          (r.l = 1 → (∀ l, l < 32 → inMask act l = true → clean l) → Completes s w (exec (.acrd r) s) fun h =>
            WentOn w (if r.r = 5 then { w.past with dph := w.sp.dph + 1 } else w.past) h ∧ SameBut w.h h ∧ SameUniform w.h h ∧ SamePreds w.h h ∧
            (ltag < 0x20 → LanesSet w.h h r.d act ltag fun l => BitVec.ofNat 32 (out ltag 0 l)) ∧
            (0x20 ≤ ltag → LanesSet w.h h r.d (if act = 0 then 0 else ~~~w.h.dmask) ltag fun l =>
              if inMask act l then sxWord block.1 (block.2.getD l 0) else BitVec.ofNat 32 (block.1 * 2 ^ 24 + (w.h.lane r.d l).toNat % 2 ^ 24))) ∧
          (r.l ≠ 1 → z.bchk = false → framed r.d → ∃ t, exec (.acrd r) s = .next t ∧ t.block? w.c w.h.slot = some bl ∧
            (∀ b, b < frameAddr w.c z ∨ frameAddr w.c z + z.shape.bytes ≤ b → Mem.rd t.mem b = Mem.rd s.mem b) ∧
            (z.tag < 0x20 → ∀ i, i < z.shape.count → (t.tileImg w.c z).elems.getD i 0 =
              out z.tag (z.shape.coord i).1 (z.shape.coord i).2 % 2 ^ Num.bitsOf z.tag) ∧
            (0x20 ≤ z.tag → ∀ b, b < z.shape.blocks → (t.tileImg w.c z).exps.getD b 0 = (tile b).1 ∧
              ∀ j, j < 32 → (t.tileImg w.c z).elems.getD (32 * b + j) 0 = Num.intBits (z.tag - 0x20) ((tile b).2.getD j 0)))))

/-- R188, R189, R205, R206: a chain starts in the lowest free slot of its engine; the work-list instructions append, take and ask. -/
def Obligations.QueueResults : Prop :=
  ∀ (s : State) (w : Who) (a n p d : Nat) (bl : Block) (l : Launch) (st : StageSt),
    s.block? w.c w.h.slot = some bl → Tbl.find? s.launches w.h.launch = some l →
    let head := (w.h.uq a).toNat
    let chain : Chain :=
      { block := w.h.slot, uid := w.h.uid, slot := w.k, pc := w.sp.pc, word := w.word, asid := w.h.asid, seq := w.h.seq + 1, head := head, off := head,
        inRegion := w.h.bisque.isSome && !w.h.handler, handler := w.h.handler }
    let starts (i : Instr) (e : Nat) : Prop :=
      (head % 32 ≠ 0 ∨ bl.size < head + 32 → Stops s w (exec i s) 12 0 0) ∧
      (head % 32 = 0 → head + 32 ≤ bl.size → Tbl.lowestFree ((s.core w.c).eng e).chains 8 = none → Waits s w (exec i s) 6 (.engine e)) ∧
      (head % 32 = 0 → head + 32 ≤ bl.size → ∀ k, Tbl.lowestFree ((s.core w.c).eng e).chains 8 = some k → ∃ t, exec i s = .next t ∧
        Tbl.find? ((t.core w.c).eng e).chains k = some chain ∧ t.cohort? w.c w.k = some w.gone ∧
        Due.mk .engineEntryReach [w.c, e, k] ∈ t.agenda ∧ t.mem = s.mem)
    let act := w.h.active w.sp
    (Clear s w { us := [a], acc := 0x30 } → starts (.cego a) 0) ∧
    (Clear s w { us := [a], acc := 0x02 } → starts (.gxgo a) 1) ∧
    (l.stages[n]? = some st → st.qlog ≠ 0 → Clear s w { us := [a], rel := some { scope := 2, cls := 0xff } } →
      (2 ^ st.qlog ≤ st.queue.length → Waits s w (exec (.wpush n a) s) 7 (.queue n)) ∧
      (st.queue.length < 2 ^ st.qlog → ∃ t l', exec (.wpush n a) s = .next t ∧ t.cohort? w.c w.k = some w.gone ∧ t.mem = s.mem ∧
        Tbl.find? t.launches w.h.launch = some l' ∧ l'.stages[n]? = some { st with queue := st.queue ++ [w.h.uq a] })) ∧
    (Clear s w { ud := [d] } →
      (∀ y rest, l.stages[w.h.stage]? = some { st with queue := y :: rest } → st.qlog ≠ 0 → ∃ t h l', exec (.wpop p d) s = .next t ∧
        t.cohort? w.c w.k = some h ∧ h.holds = true ∧
        h.fences = w.h.fences ++ [{ seq := w.h.seq + 2, scope := 2, pred := 0x80, succ := 0xc0, paths := 0, handler := w.h.handler }] ∧ UniformSet w.h h d y 0 ∧ PredSet w.h h p act (BitVec.allOnes 32) ∧ t.mem = s.mem ∧
        Tbl.find? t.launches w.h.launch = some l' ∧ l'.stages[w.h.stage]? = some { st with queue := rest }) ∧
      (l.stages[w.h.stage]? = some { st with queue := [] } → ∃ t h, exec (.wpop p d) s = .next t ∧
        t.cohort? w.c w.k = some h ∧ h.holds = false ∧ UniformSet w.h h d 0 0 ∧ PredSet w.h h p act 0 ∧ t.mem = s.mem)) ∧
    (Clear s w {} → l.quiet = true → ∃ t h, exec (.quies p) s = .next t ∧ t.cohort? w.c w.k = some h ∧ h.holds = false ∧ WentOn w w.past h ∧
      PredSet w.h h p act (BitVec.allOnes 32) ∧ SameLanes w.h h ∧ SameUniform w.h h ∧ t.mem = s.mem)

/-! Control registers, launches from a program, and traps (R121, R135, R136, R317, R321 to R338, R344, R399). -/

/-- R121, R321, R325, R328, R344, R399: the control registers read and written in the handler: what each reads, the flags of `CSTAT` that a one clears, the
translations that a write of `CTLBI` drops everywhere, with its split waiting while accesses still use them, and the doublewords of a bound register, of
which the first reloads the register from the launch's table. A number that names none, or a write of one that is read only, is code 2. -/
def Obligations.ControlRegisterResults : Prop :=
  ∀ (s : State) (w : Who) (n d q : Nat),
    let v := w.h.uq q
    let k := (n - 0x100) / 4
    let mask (j : Nat) : DWord := if j = 0 then 0x8ff00000ffffffff else if j = 3 then 0xffffffffffffffff else 0x01ffffffffffffff
    let dw (r : BoundReg) (j : Nat) : DWord := (if j = 0 then r.d0 else if j = 1 then r.d1 else if j = 2 then r.d2 else r.d3) &&& mask j
    let reads (x : DWord) : Prop := WritesUniform s w (exec (.csrr n d) s) d x 0
    (Clear s w { ud := [d], priv := true, illegal := !csrExists n } →
      (n = 0 → reads (BitVec.ofNat 64 w.h.asid)) ∧ (n = 1 → reads (BitVec.ofNat 64 w.h.image)) ∧ (n = 2 → reads (BitVec.ofNat 64 (w.h.image + 0x8000))) ∧
      (n = 3 → ∃ x : DWord, reads x ∧ x.toNat < 256 ∧ x.getLsbD 7 = w.h.refused ∧ x.getLsbD 6 = w.h.pending ∧ x.getLsbD 5 = w.h.handler ∧
        x.getLsbD 4 = w.h.debug ∧ x.getLsbD 3 = false ∧ x.getLsbD 2 = false ∧ x.getLsbD 1 = w.h.mismatch ∧ x.getLsbD 0 = w.h.greyread) ∧
      (n = 4 → reads 0) ∧
      (n = 5 → (w.h.bisque = none → reads 0) ∧ ∀ b, w.h.bisque = some b → reads ((b.addr &&& ~~~(1 : DWord)) ||| 1)) ∧
      (0x100 ≤ n → reads (dw (s.boundReg w.h.asid k) (n % 4))) ∧ ∃ x, reads x) ∧
    (5 < n → n < 0x100 ∨ 0x180 ≤ n →
      (Reaches s w { ud := [d], priv := true, illegal := true } → Stops s w (exec (.csrr n d) s) 2 0 0) ∧
      (Reaches s w { us := [q], priv := true, illegal := true } → Stops s w (exec (.csrw n q) s) 2 0 0)) ∧
    (Clear s w (csrwUses n q) →
      (∃ t, exec (.csrw n q) s = .next t ∧ ∀ h, t.cohort? w.c w.k = some h → ∀ r, h.uq r = w.h.uq r ∧ h.vreg r = w.h.vreg r) ∧
      (n = 3 → Completes s w (exec (.csrw n q) s) fun h =>
        WentOn w w.past h ∧ h.refused = (w.h.refused && !v.getLsbD 7) ∧ h.mismatch = (w.h.mismatch && !v.getLsbD 1) ∧
          h.greyread = (w.h.greyread && !v.getLsbD 0) ∧
          SameBut w.h { h with refused := w.h.refused, mismatch := w.h.mismatch, greyread := w.h.greyread } ∧ SameLanes w.h h ∧ SameUniform w.h h ∧
          SamePreds w.h h) ∧
      (n = 4 → ∀ i, (i = Instr.csrw n q ∨ ∃ m, i = Instr.csrCtlbiWrite m q) → ∃ t, exec i s = .next t ∧
        (∀ c, (t.core c).tlb = (s.core c).tlb.filter fun e => !(e.asid == w.h.asid && e.vpn == v.toNat % 2 ^ 57 / 2 ^ e.bits)) ∧
        (∀ c j, ¬ (c = w.c ∧ j = w.k) → t.cohort? c j = s.cohort? c j) ∧ t.mem = s.mem ∧
        ((∀ e ∈ s.accs, e.2.stage ≠ 0) → t.cohort? w.c w.k = some w.gone) ∧
        ((∃ e ∈ s.accs, e.2.stage = 0) →
          t.cohort? w.c w.k = some (w.gone.onSplit w.i fun sp => { sp with state := 7, hold := .inval s.nextId }) ∧
          Tbl.find? t.invals s.nextId = some ((s.accs.filter fun e => e.2.stage == 0).map Prod.fst))) ∧
      (0x100 ≤ n → n % 4 ≠ 0 → ∀ i ∈ [Instr.csrw n q, .csrCbndWrite n q], ∃ t, exec i s = .next t ∧ t.cohort? w.c w.k = some w.gone ∧
        (∀ j, j < 4 → dw (t.boundReg w.h.asid k) j = if j = n % 4 then v &&& mask j else dw (s.boundReg w.h.asid k) j) ∧
        (∀ a j, j < 32 → ¬ (a = w.h.asid ∧ j = k) → t.boundReg a j = s.boundReg a j) ∧ { t with cores := s.cores, bounds := s.bounds } = s) ∧
      (0x100 ≤ n → n % 4 = 0 → ∃ t, exec (.csrCbndWrite n q) s = .next t ∧ t.cohort? w.c w.k = some w.gone ∧
        ∀ a j, j < 32 → t.boundReg a j = s.boundReg a j) ∧
      (0x100 ≤ n → ∀ i, (n % 4 = 0 ∧ i = Instr.csrw n q ∨ i = .csrCbndReload n q) →
        ((∀ l, Tbl.find? s.launches w.h.launch = some l → l.btab = 0 ∨ l.nbound ≤ k) → MovesOn s w (exec i s) w.past.pc) ∧
        (∀ l, Tbl.find? s.launches w.h.launch = some l → l.btab ≠ 0 → k < l.nbound →
          exec i s = .next ((s.onward w).loadBound 0 w.c w.h.asid k (l.btab + 32 * k)))))

/-- R121, R135, R136, R317, R332: `SPAWN` hands the launch unit a record and waits in state 6 for its answer; after `KILL` every launch whose completion
object is at that address is killed, but for one that is over; and `TRET` from a frame that holds no replay entry and no chain, and an image whose joins all await a lane, gives back the splits, the joins, `p1` to
`p7` and `q60` to `q63` that the image holds, outside the handler, or sets the refused flag where the frame or the image breaks the rules. -/
def Obligations.SystemInstructionResults : Prop :=
  ∀ (s : State) (w : Who) (a : Nat),
    let va := (w.h.uq a).toNat
    let img := w.h.image
    (Clear s w { us := [a], rel := some { scope := 2, cls := 0xff } } → ∃ t id b, exec (.spawn a) s = .next t ∧
      t.cohort? w.c w.k = some (w.gone.onSplit w.i fun sp => { sp with state := 6, hold := .launch id }) ∧
      (∀ c j, ¬ (c = w.c ∧ j = w.k) → t.cohort? c j = s.cohort? c j) ∧ t.launches = s.launches ∧
      Tbl.find? t.waiting id = some { src := .spawn w.c w.h.uid w.i w.h.launch, addr := va, asid := w.h.asid,
                                      level := (Tbl.find? s.launches w.h.launch).elim 0 (·.level), bytes := b, at_ := s.net.hubClock } ∧
      (va % 256 ≠ 0 → b = none) ∧ Due.mk .launchAccept [] ∈ t.agenda) ∧
    (Clear s w { us := [a], priv := true } →
      ((∀ e ∈ s.launches, e.2.cdest = va → e.2.killed = true ∨ (s.onward w).launchOver e.1 e.2 = true) → MovesOn s w (exec (.kill a) s) w.past.pc) ∧
      (∃ t, exec (.kill a) s = .next t ∧ ∀ id l, Tbl.find? s.launches id = some l → l.cdest = va → (s.onward w).launchOver id l = false →
        ∃ l', Tbl.find? t.launches id = some l' ∧ l'.killed = true)) ∧
    (Clear s w { priv := true, acc := 0x80 } →
      (s.refusesTret w.h = true → Completes s w (exec .tret s) fun h => h = { w.gone with refused := true }) ∧
      (s.refusesTret w.h = false → exec .tret s = .next ((s.onward w).leaveTrap w.c w.k w.gone)) ∧
      (s.refusesTret w.h = false → s.peekN (img + 0x8020) 8 = 0 → s.peekN (img + 0x8028) 8 = 0 → w.h.late = [] → w.h.wake.getLsbD 1 = false →
        (∀ e, e < 2 → ∀ x ∈ ((s.core w.c).eng e).chains, x.2.faulted = false) → (∀ x ∈ s.waiting, ∀ u i l c, x.2.src ≠ .spawn c u i l) →
        (∀ j y, j < 16 → readJoin (s.peekN (img + 0x2400 + 32 * j) 32) = some y → y.mask &&& ~~~y.arrived &&& ~~~w.h.dmask &&& ~~~w.h.exited ≠ 0) →
        Completes s w (exec .tret s) fun h =>
          h.handler = false ∧ h.debug = false ∧ h.refused = false ∧ h.stopped = false ∧ SameLanes w.h h ∧
          (∀ i, i < 8 → h.split? i = (readSplit (s.peekN (img + 0x2100 + 32 * i) 32)).map fun sp => if sp.hold = .full 0 then sp.retry else sp) ∧
          (∀ j, j < 16 → Tbl.find? h.joins j = readJoin (s.peekN (img + 0x2400 + 32 * j) 32)) ∧
          (∀ p, 0 < p → p < 8 → h.pred p = BitVec.ofNat 32 (s.peekN (img + 0x2080 + 4 * p) 4)) ∧
          (∀ r, r < 64 → h.uq r = if 60 ≤ r then BitVec.ofNat 64 (s.peekN (img + 0x2200 + 8 * r) 8) else w.h.uq r)))

/-- R57, R69, R226, R329, R330, R333, R337, R338: the trap of a stopped cohort whose issued work has completed: the frame of its image has the cause, the address,
the word and the fault address, and its handler runs from the context's vector with one split of every lane that is neither grey nor exited, `q60` naming
the image and `q61` the cause; with no handler, or in the handler already, the cohort ends with error 5. A word that is no instruction stops its cohort with
code 2, or with code 4 for its guard, and one that cannot be fetched with code 1. The fault of a chain outside a bisque region reaches its cohort with code 22. -/
def Obligations.TrapEntryResults : Prop :=
  ∀ (s : State) (w : Who) (h : Cohort) (x : Cause) (ch : Chain) (c k c' k' : Nat),
    let img := h.image
    let word := (if x.code = 20 then 2 ^ 17 else 0) + x.sub * 256 + x.code
    (s.arg 0 = c → s.arg 1 = k → s.cohort? c k = some h → h.stopped = true → h.ending = false → h.leaving = false → s.drained c h = true →
      s.causeOf c h = some x →
      let vec := if x.code = 17 then s.ctx h.asid 0x18 else s.ctx h.asid 0x10
      (h.handler = false → vec ≠ 0 → ∃ t h', exec .trapEntry s = .next t ∧ t.cohort? c k = some h' ∧
        h'.splits = [(0, { pc := vec, entry := h.alive, exec := h.alive })] ∧ h'.overflow = [] ∧ h'.joins = [] ∧ h'.handler = true ∧
        h'.debug = (x.code == 17) ∧ h'.stopped = false ∧ (∀ p, 0 < p → h'.pred p = 0) ∧ h'.uq 60 = BitVec.ofNat 64 img ∧ h'.uq 61 = BitVec.ofNat 64 word ∧
        (∀ r, r ≠ 60 → r ≠ 61 → h'.uq r = h.uq r) ∧ (x.code ≠ 20 → SameLanes h h') ∧ h'.loads = [] ∧ h'.stores = [] ∧
        (s.mem.wf = true → (∀ i, i < 0x10000 → isHomed (img + i) = true) →
          t.peekN (img + 0x8000) 8 = word % 2 ^ 64 ∧ t.peekN (img + 0x8008) 8 = x.pc.toNat ∧
          t.peekN (img + 0x8010) 8 = (x.len * 2 ^ 32 + x.word) % 2 ^ 64 ∧ t.peekN (img + 0x8018) 8 = x.addr % 2 ^ 64)) ∧
      (h.handler = true ∨ vec = 0 →
        exec .trapEntry s = .next ((s.onCohort c k fun y => { y with late := y.late.erase x }).endCohort c k (some (5, x.pc.toNat))))) ∧
    (s.who? = some w → w.sp.state = 0 → w.h.mayIssue = true → w.h.atJoin w.sp = false →
      Stops s { w with word := s.arg 0, len := s.arg 1 } (exec .illegalInstruction s) (if s.arg 2 = 1 then 4 else 2) 0 0 ∧
      Stops s { w with word := 0, len := 2 } (exec .instructionFetchFault s) 1 (s.arg 0) (s.arg 1)) ∧
    (s.chainAt (s.arg 0) (s.arg 1) (s.arg 2) = some ch → s.cohortBy ch.uid = some h → h.ending = false → ch.inRegion = false →
      s.whereIs ch.uid = some (c', k') → s.cohort? c' k' = some h → ∃ t y, exec .lateEngineFault s = .next t ∧ y.code = 22 ∧ y.sub = s.arg 3 ∧
        y.pc = ch.pc ∧ y.word = ch.word ∧ y.addr = s.arg 4 ∧ t.mem = s.mem ∧
        t.cohort? c' k' = some (let z := { h with late := h.late ++ [y] }; if h.handler then z else z.halt) ∧
        (h.handler = false ∨ h.stopped = true → Due.mk .trapEntry [c', k'] ∈ t.agenda))

/-! The Uliah engine (R359 to R368). -/

/-- R359 to R361, R366, R369: a handler's own instructions. Register results, with `e0` reading zero and keeping no value; branches, with a target outside
program memory a fault of code 2; loads and stores of a doubleword at its home slice, where the slice and the budget of R286 let the port go on, with fault 6 where it is misaligned or outside near and far memory, or
read poisoned; and after 65,536 instructions a fault of code 8. A fault halts its window: `AWSTAT` has the code and the word, and no handler of it is left. -/
def Obligations.UliahComputes : Prop :=
  ∀ (s : State) (h : Handler) (d a b i off win code word extra : Nat) (o : OpUi) (r : OpUr) (c : OpUbr) (u : OpUst),
    let id := s.arg 0
    let reg (n : Nat) : DWord := if n = 0 then 0 else Tbl.at h.e n 0
    let on : Handler := { h with pc := h.pc + 1, count := h.count + 1, comb := none }
    let put (d : Nat) (v : DWord) : Handler := { on with e := if d = 0 then h.e else Tbl.put h.e d v }
    let becomes (x : Instr) (y : Handler) : Prop := exec x s = .next { s with ul := { s.ul with handlers := Tbl.put s.ul.handlers id y } }
    let faults (x : Instr) (code extra : Nat) : Prop := exec x s = .next (s.haltWindow h.win code h.pc extra)
    let jumps (x : Instr) (off : Nat) : Prop :=
      let t : Int := h.pc + (BitVec.ofNat 16 off).toInt
      (0 ≤ t → t < 4096 → becomes x { on with pc := t.toNat }) ∧ (t < 0 ∨ 4096 ≤ t → faults x 2 0)
    let cond (x y : DWord) : Prop :=
      (c.c = 0 ∧ x = y) ∨ (c.c = 1 ∧ x ≠ y) ∨ (c.c = 2 ∧ x.toInt < y.toInt) ∨ (c.c = 3 ∧ x.toInt ≥ y.toInt) ∨ (c.c = 4 ∧ x.toNat < y.toNat) ∨
        (c.c = 5 ∧ x.toNat ≥ y.toNat)
    let addr (a i : Nat) : Nat := (reg a + (BitVec.ofNat 15 i).signExtend 64).toNat
    let open_ (pa : Nat) (u : Option State) : Prop := pa % 8 = 0 ∧ isHomed pa = true ∧ u.isSome = true ∧ Tbl.find? s.shadows (pa / 128) = none
    let reads (pa : Nat) : Prop := open_ pa (s.portPass [pa] [])
    let shut (pa : Nat) : Prop := pa % 8 ≠ 0 ∨ isHomed pa = false
    let others (t : State) : Prop := ∀ j, j ≠ id → Tbl.find? t.ul.handlers j = Tbl.find? s.ul.handlers j
    (Tbl.find? s.ul.handlers id = some h → 65536 ≤ h.count →
      ∀ x ∈ [Instr.uli d i, .uaddi o, .uadd r, .usub r, .uand r, .uor r, .ushl r, .ushr r, .uld o, .ust u, .ubr c, .ujmp off, .uend, .ufault i, .udone d,
        .uget d a, .ucomb a b, .ufwd a, .umcast a, .uwr a, .uopt a, .usig a], faults x 8 0) ∧
    (Tbl.find? s.ul.handlers id = some h → h.count < 65536 →
      becomes (.uli d i) (put d ((BitVec.ofNat 19 i).signExtend 64)) ∧
      becomes (.uaddi o) (put o.d (reg o.a + (BitVec.ofNat 15 o.i).signExtend 64)) ∧
      becomes (.uadd r) (put r.d (reg r.a + reg r.b)) ∧ becomes (.usub r) (put r.d (reg r.a - reg r.b)) ∧
      becomes (.uand r) (put r.d (reg r.a &&& reg r.b)) ∧ becomes (.uor r) (put r.d (reg r.a ||| reg r.b)) ∧
      becomes (.ushl r) (put r.d (reg r.a <<< ((reg r.b).toNat % 64))) ∧ becomes (.ushr r) (put r.d (reg r.a >>> ((reg r.b).toNat % 64))) ∧
      (c.c < 6 → (cond (reg c.a) (reg c.b) → jumps (.ubr c) c.o) ∧ (¬ cond (reg c.a) (reg c.b) → becomes (.ubr c) on)) ∧
      jumps (.ujmp off) off ∧ faults (.ufault i) 15 (i % 2 ^ 15) ∧
      (∃ t, exec .uend s = .next t ∧ (s.ul.handlers.Pairwise (fun x y => x.1 < y.1) → Tbl.find? t.ul.handlers id = none) ∧ others t ∧
        { t with ul := s.ul } = s) ∧
      (shut (addr o.a o.i) → faults (.uld o) 6 0) ∧ (shut (addr u.a u.i) → faults (.ust u) 6 0) ∧
      (reads (addr o.a o.i) → s.poisoned (addr o.a o.i) 8 = false → ∃ t, exec (.uld o) s = .next t ∧ others t ∧ t.mem = s.mem ∧
        Tbl.find? t.ul.handlers id = some (put o.d (BitVec.ofNat 64 (Mem.rdN s.mem (addr o.a o.i) 8)))) ∧
      (reads (addr o.a o.i) → s.poisoned (addr o.a o.i) 8 = true → ∃ t : State, exec (.uld o) s = .next (t.haltWindow h.win 6 h.pc (addr o.a o.i)) ∧ t.mem = s.mem) ∧
      (open_ (addr u.a u.i) (s.portPass [] [addr u.a u.i]) → s.mem.wf = true → ∃ t, exec (.ust u) s = .next t ∧ others t ∧ Tbl.find? t.ul.handlers id = some on ∧
        Mem.rdN t.mem (addr u.a u.i) 8 = (reg u.b).toNat ∧ ∀ x, x < addr u.a u.i ∨ addr u.a u.i + 8 ≤ x → Mem.rd t.mem x = Mem.rd s.mem x)) ∧
    (win < 256 → code < 16 →
      let t := s.haltWindow win code word extra
      let z := t.aw win 0x38
      z.getLsbD 63 = true ∧ z.toNat / 2 ^ 12 % 16 = code ∧ z.toNat % 2 ^ 12 = word % 2 ^ 12 ∧ ∀ e ∈ t.ul.handlers, e.2.win ≠ win)

/-- R354, R357, R361, R362, R365, R367, R368: a handler's work with its group and its partial. `UCOMB` faults on a bad range, and where an
input of its group overlaps a range that has been taken, waits for a rank that has not come, and takes the one input of its group that covers the range; `UGET` reads an element, `UDONE` counts the segment for its round, which ends with the last
one, `UWR` stores the partial where the group table says, `UFWD` sends it on, `UMCAST` sends it to every entry up to an end, `UOPT` updates it, and `USIG`
subtracts 1 from the signal object, once what the handler has written to peers is acknowledged: where the slices and the budget of R286 let the port go on. -/
def Obligations.UliahCombines : Prop :=
  ∀ (s u v : State) (h : Handler) (p : Sum) (x : Segment) (a b d k e lo' hi' : Nat),
    let id := s.arg 0
    let w := h.win
    let reg (n : Nat) : DWord := if n = 0 then 0 else Tbl.at h.e n 0
    let on : Handler := { h with pc := h.pc + 1, count := h.count + 1, comb := none }
    let put (d : Nat) (v : DWord) : Handler := { on with e := if d = 0 then h.e else Tbl.put h.e d v }
    let faults (x : Instr) (code : Nat) : Prop := exec x s = .next (s.haltWindow w code h.pc 0)
    let malformed (x : Instr) : Prop := exec x s = .next (u.haltWindow w 5 h.pc 0)
    let becomes (i : Instr) (y : Handler) (q : State → Prop) : Prop := ∃ t, exec i s = .next t ∧ Tbl.find? t.ul.handlers id = some y ∧
      (∀ j, j ≠ id → Tbl.find? t.ul.handlers j = Tbl.find? s.ul.handlers j) ∧ q t
    let same (t : State) : Prop := { t with ul := s.ul } = s
    Tbl.find? s.ul.handlers id = some h → h.count < 65536 →
    (let lo := (reg a).toNat % 2 ^ 16
     let hi := (reg b).toNat % 2 ^ 16
     let bad : Prop := hi < lo ∨ bitsAt (s.aw w 0x10) 63 48 ≤ hi ∨ (s.awMode w = 2 ∧ hi ≠ lo) ∨ (s.awMode w = 3 ∧ 15 < hi - lo)
     h.comb = none →
      (bad → faults (.ucomb a b) 3) ∧
      (¬ bad → s.groupInputs h = [] → becomes (.ucomb a b) { h with part := some {}, comb := some (lo, hi, lo), since := s.net.hubClock } same) ∧
      (¬ bad → (∀ y ∈ s.groupInputs h, y.2.spilled = none) → (k, x) ∈ s.groupInputs h → (w, h.tag, h.round, h.seg, lo', hi') ∈ s.ul.seen → x.rlo ≤ hi' →
        lo' ≤ x.rhi → (∀ y ∈ s.groupInputs h, ¬ (y.2.rlo = lo' ∧ y.2.rhi = hi')) → faults (.ucomb a b) 4) ∧
      (¬ bad → s.groupInputs h = [(k, x)] → x.rlo = lo → x.rhi = hi → x.spilled = none →
        (∀ y ∈ s.ul.seen, y.1 = w → y.2.1 = h.tag → y.2.2.1 = h.round → y.2.2.2.1 = h.seg → y.2.2.2.2 = (lo, hi)) →
        becomes (.ucomb a b) { on with part := some { Sum.add {} (s.awMode w) (s.awType w) (s.awOp w) 0 x with rlo := lo, rhi := hi } } fun t =>
          same t ∧ ∀ j, j ≠ k → Tbl.find? t.ul.inputs j = Tbl.find? s.ul.inputs j)) ∧
    (h.part = some p →
      let i := (reg a).toNat
      (s.awMode w = 1 → i < segElems (s.awType w) → becomes (.uget d a) (put d ((p.elems.getD i 0).zeroExtend 64)) same) ∧
      (segElems (s.awType w) ≤ i → faults (.uget d a) 5) ∧
      (s.awMode w ≠ 1 → i < segElems (s.awType w) → becomes (.uget d a) (put d (BitVec.ofNat 64 (leNat ((p.data.drop (4 * i)).take 4)))) same)) ∧
    (let y := s.bucket w h.tag
     let segs := insNat y.doneSegs h.seg
     (y.round = h.round → h.done = false → segs.length < s.awNseg w →
       becomes (.udone d) { put d (BitVec.ofNat 64 (s.awNseg w - segs.length)) with done := true } fun t =>
         same t ∧ t.bucket w h.tag = { y with doneSegs := segs }) ∧
     (y.round = h.round → h.done = false → segs.length = s.awNseg w →
       becomes (.udone d) { put d 0 with done := true } fun t => (t.bucket w h.tag).round = (y.round + 1) % 256 ∧ (t.bucket w h.tag).doneSegs = []) ∧
     (y.round ≠ h.round → becomes (.udone d) { put d 0 with done := true } fun t => same t ∧ t.bucket w h.tag = y)) ∧
    (s.portPass [s.groupPa w (reg a).toNat] [] = some v → v.groupEntry w (reg a).toNat = none → faults (.ufwd a) 5 ∧ faults (.uwr a) 5 ∧
      (h.part = some p → exec (.umcast a) s = .next (v.haltWindow w 5 h.pc 0))) ∧
    (s.portPass [s.groupPa w (reg a).toNat] [] = some v → v.groupEntry w (reg a).toNat = some (e, u) → h.part = some p →
      let kind := e / 2 ^ 124
      let pa := s.outPlace h p (e / 2 ^ 64 % 2 ^ 52)
      let data := (p.bytes (s.awMode w) (s.awType w) (s.awOtype w)).1
      (kind ≠ 1 ∨ s.entryBad h p e = true → malformed (.uwr a)) ∧
      (kind ≠ 2 → kind ≠ 3 → malformed (.ufwd a)) ∧ (s.entryBad h p e = true → malformed (.ufwd a)) ∧
      (kind = 1 → s.entryBad h p e = false → isHomed pa = true → s.shadows = [] → s.mem.wf = true →
        (u.portPass [] (u.outLines h p e)).isSome = true →
        becomes (.uwr a) { on with part := some p } fun t =>
          ∀ y, Mem.rd t.mem y = if pa ≤ y ∧ y < pa + data.length then data.getD (y - pa) 0 else Mem.rd s.mem y) ∧
      (kind = 3 → s.entryBad h p e = false → becomes (.ufwd a) { on with part := some p } fun t =>
        t.mem = u.mem ∧ ∃ hd pl bad, Due.mk .segmentReceive [e / 2 ^ 32 % 256, hd, pl, bad] ∈ t.agenda) ∧
      (kind = 2 → s.entryBad h p e = false → becomes (.ufwd a) { on with part := some p } fun t =>
        t.mem = u.mem ∧ ∃ y, Tbl.find? t.ul.sent u.nextId = some y ∧ y.port = e / 2 ^ 45 % 8 ∧ y.peer = e / 2 ^ 48 % 2 ^ 16 ∧ y.win = e / 2 ^ 32 % 256) ∧
      (kind = 0 → becomes (.umcast a) { on with part := some p } fun t => t.mem = u.mem) ∧
      (kind ≠ 0 → s.entryBad h p e = true → malformed (.umcast a)) ∧
      (kind = 3 → s.entryBad h p e = false → ∀ v' u' u'' e', s.portPass [s.groupPa w (reg a).toNat, s.groupPa w ((reg a).toNat + 1)] [] = some v' →
        v'.groupEntry w (reg a).toNat = some (e, u') → u'.groupEntry w ((reg a).toNat + 1) = some (e', u'') → e' / 2 ^ 124 = 0 →
        becomes (.umcast a) { on with part := some p } fun t => ∃ hd pl bad, Due.mk .segmentReceive [e / 2 ^ 32 % 256, hd, pl, bad] ∈ t.agenda)) ∧
    (let pa := (reg a).toNat
     let n := segElems (s.awType w)
     let i := (h.tag * s.awNseg w + h.seg) * n
     let t1 := (s.homeRead pa 128 0).2
     (s.awMode w ≠ 1 ∨ s.awType w = 3 ∨ s.awType w = 7 ∨ pa % 128 ≠ 0 ∨ isHomed pa = false → faults (.uopt a) 7) ∧
     (s.awMode w = 1 → s.awType w ≠ 3 → s.awType w ≠ 7 → pa % 128 = 0 → isHomed pa = true → t1.optBad pa (t1.peekBytes pa 128) i n = false → h.part = some p →
       (let desc := t1.peekBytes pa 128
        let bases := (if leNat (desc.take 1) = 1 then [8, 16] else [8, 16, 24]).map fun off => leNat ((desc.drop off).take 8)
        let places := bases.flatMap fun b => (List.range n).map fun e => b + 4 * (i + e)
        (t1.portPass (pa :: places) places).isSome = true) →
       ∃ q, becomes (.uopt a) { on with part := some q } fun _ => q.elems.length = p.elems.length ∧ q.rlo = p.rlo ∧ q.rhi = p.rhi)) ∧
    (let pa := if a = 0 then bitsAt (s.aw w 0x30) 51 0 else (reg a).toNat
     (pa % 8 ≠ 0 ∨ (a = 0 ∧ pa = 0) → faults (.usig a) 5) ∧
     (pa ≠ 0 → pa % 8 = 0 → (∃ y ∈ h.pending, Tbl.has s.peers y = true) → exec (.usig a) s = .next s) ∧
     (pa ≠ 0 → (∀ y ∈ h.pending, Tbl.has s.peers y = false) → isHomed pa = true → pa % 8 = 0 → Tbl.find? s.shadows (pa / 128) = none → s.mem.wf = true →
       s.poisoned pa 8 = false → (s.portPass [pa] []).isSome = true → becomes (.usig a) { on with pending := [] } fun t =>
         Mem.rdN t.mem pa 8 = (Mem.rdN s.mem pa 8 + 2 ^ 64 - 1) % 2 ^ 64 ∧ ∀ y, y < pa ∨ pa + 8 ≤ y → Mem.rd t.mem y = Mem.rd s.mem y))

/-! The rows that take effect on their own, in states where what each waits for has come. -/

/-- R113, R114, R122, R125, R127 to R129, R134, R281: the rows of cohorts and of what they wait for. A split that arrives at its join parks, or, where no other
lane is awaited, the lanes arrived go on as one split; a bound that runs out lets those that have arrived go on; a yield ends; an arrival at a block barrier
is counted, in the order of the cycles in which arrivals became complete and then of the cohorts, and the one that completes it flips its phase; the message of a gang's other side is seen, and releases a side that has completed; a wake
gives a parked cohort status 1, or waits for its trap; a channel's watchdog stops its cohort with code 14; a payload arrives in a slot, and a credit frees one. -/
def Obligations.CohortRowResults : Prop :=
  ∀ (s : State) (c k i n b d uid mon id : Nat) (h : Cohort) (sp : Split) (j : Join) (bl : Block) (g : Gang) (p : Parked) (l : Launch) (x : Chan)
    (y : List Byte × List Nat) (flight : List (List Byte × List Nat)) (queue : List (Nat × Nat × Nat)) (clock : Nat),
    let becomes (row : Instr) (h' : Cohort) : Prop := exec row s = .next (s.setCohort c k h')
    let merged (y : Join) (h' : Cohort) : Prop := y.arrived &&& ~~~h.dmask ≠ 0 →
      let z : Split := { pc := y.addr, entry := y.arrived &&& ~~~h.dmask, exec := y.mexec &&& (y.arrived &&& ~~~h.dmask), frm := y.frm, dph := y.dph,
                         join := y.parent }
      (∃ i', h'.split? i' = some z) ∨ z ∈ h'.overflow
    (s.ev = [c, k, i] → s.cohort? c k = some h → h.split? i = some sp → h.mayIssue = true → sp.state = 0 → sp.join = some n →
      Tbl.find? h.joins n = some j → j.addr = sp.pc →
      let first := lowestLane sp.entry < j.lead
      let y : Join := { j with arrived := j.arrived ||| sp.entry, mexec := j.mexec ||| sp.exec, lead := if first then lowestLane sp.entry else j.lead,
                               frm := if first then sp.frm else j.frm, dph := if first then sp.dph else j.dph }
      let awaited := j.mask &&& ~~~y.arrived &&& ~~~h.dmask &&& ~~~h.exited
      (awaited = 0 → ∃ h', becomes .joinArrive h' ∧ merged y h' ∧ SameLanes h h' ∧ SameUniform h h' ∧ SamePreds h h') ∧
      (awaited ≠ 0 → ∃ h' y', becomes .joinArrive h' ∧ Tbl.find? h'.joins n = some y' ∧ y'.arrived = y.arrived ∧ y'.mexec = y.mexec ∧ y'.mask = j.mask ∧
        y'.addr = j.addr ∧ h'.overflow = h.overflow.tail ∧ ∀ i', i' ≠ i → h'.split? i' = h.split? i')) ∧
    (s.ev = [c, k, n] → s.cohort? c k = some h → Tbl.find? h.joins n = some j → j.run = true → j.timer = 0 → h.stopped = false →
      (∀ e ∈ h.splits, e.2.join = some n → h.atJoin e.2 = false) → becomes .rwaitTimeout (h.merge n) ∧ merged j (h.merge n)) ∧
    (s.ev = [c, k, i] → s.cohort? c k = some h → h.split? i = some sp → sp.state = 4 → sp.timer = 0 → h.stopped = false →
      becomes .yieldExpire (h.onSplit i fun y => { y with state := 0 })) ∧
    (s.ev = [c, b, n] → s.block? c b = some bl →
      let r := Tbl.at bl.bars n {}
      let r' : Barrier := { r with queue := queue, arrived := r.arrived + 1, who := r.who ++ [id],
                                   expected := if r.who = [] then min d bl.ncohorts else r.expected }
      let passed : Prop := if r'.expected = 0 then ∀ y ∈ bl.live, y ∈ r'.who else r'.expected ≤ r'.arrived
      let mine : Prop := clock < (s.core c).lclk ∧ (s.core c).barClk ≤ (s.core c).lclk ∧ ∀ m ∈ (s.core c).arrivals, clock * 64 + id ≤ m
      r.queue = (clock, id, d) :: queue →
        (¬ mine → exec .barrierArrivalTaken s = .next (s.pushOnce .barrierArrivalTaken [c, b, n])) ∧
        (mine → ¬ passed → Answers s .barrierArrivalTaken fun t => t.block? c b = some { bl with bars := Tbl.put bl.bars n r' } ∧ t.mem = s.mem) ∧
        (mine → passed → Answers s .barrierArrivalTaken fun t =>
          t.block? c b = some { bl with bars := Tbl.put bl.bars n { phase := !r.phase, queue := queue } } ∧ t.mem = s.mem)) ∧
    (s.ev = [id, n, d] → Tbl.find? s.gangs id = some g →
      let m := 2 * n + (1 - d)
      let r := Tbl.at g.bars m {}
      let o := Tbl.at g.bars (2 * n + (1 - (1 - d))) {}
      (r.seen = true → exec .gbarPhaseMessage s = .next (s.push .gbarPhaseMessage [id, n, d])) ∧
      (r.seen = false → r.done = false →
        exec .gbarPhaseMessage s = .next { s with gangs := Tbl.put s.gangs id { g with bars := Tbl.put g.bars m { r with seen := true } } }) ∧
      (r.seen = false → r.done = true → Answers s .gbarPhaseMessage fun t =>
        t.mem = s.mem ∧ ∃ g', Tbl.find? t.gangs id = some g' ∧ Tbl.at g'.bars m {} = { phase := !r.phase, expected := if o.phase = r.phase then 0 else o.expected })) ∧
    (s.ev = [uid, mon] → s.whereIs uid = some (c, k) → s.cohort? c k = some h → h.hparked = none → h.parked = some p → p.mon = mon →
      (h.stopped = false → h.handler = false → ∀ sp, h.split? p.split = some sp → Answers s .monitorWake fun t =>
        ∃ h', t.cohort? c k = some h' ∧ h'.parked = none ∧ PredSet h h' p.pred (h.active sp) (BitVec.allOnes 32) ∧ SameLanes h h' ∧ SameUniform h h') ∧
      (h.stopped = true → becomes .monitorWake { h with wake := h.wake ||| 2 })) ∧
    (s.ev = [c, k, i] → s.cohort? c k = some h → h.split? i = some sp → sp.state = 3 → Tbl.find? s.launches h.launch = some l → l.wdog ≠ 0 →
      l.wdog ≤ sp.timer → h.stopped = false → h.handler = false → Answers s .channelStall fun t => ∃ word,
        t.cohort? c k = some { h.halt with cause := some { code := 14, pc := sp.pc, word := word } } ∧
          Due.mk .trapEntry [c, k] ∈ t.agenda ∧ t.mem = s.mem) ∧
    (s.ev = [id] → Tbl.find? s.chans id = some x →
      (x.flight = y :: flight → Answers s .channelPacketReceive fun t =>
        Tbl.find? t.chans id = some { x with flight := flight, full := x.full ++ [y] } ∧ t.mem = s.mem) ∧
      (x.free + x.flight.length + x.full.length < x.slots → Answers s .channelCredit fun t =>
        Tbl.find? t.chans id = some { x with free := x.free + 1 } ∧ t.mem = s.mem))

/-- R141, R147, R148, R155, R219, R229, R232, R242, R253, R275 to R278, R325: the rows of accesses. The last return of a load finishes it; the oldest store asks for
a walk, faults late, or leaves its queue; fences complete; a walk puts its page into the translation buffer; a line comes into the lane register cache; a bank
or a slice serves an access after those that it must follow, a full-empty load waiting for its granules; a miss asks for its line, which the slice then holds; the
controller of a line completes a write from the slots it reserves, or else from the buffer; and an acknowledgement ends a write. -/
def Obligations.AccessRowResults : Prop :=
  ∀ (s : State) (c k uid seq id n line asid vpn r : Nat) (h : Cohort) (a : Access) (x : LaneAcc) (st : StoreOp) (rest : List StoreOp) (e : TlbEntry),
    let stores (t : State) : Prop := ∀ y, Mem.rd t.mem y =
      if x.pa ≤ y ∧ y < x.pa + a.size then BitVec.ofNat 8 (x.x / 256 ^ (y - x.pa)) else Mem.rd s.mem y
    let answered (t : State) : Prop := ∃ a', Tbl.find? t.accs id = some a' ∧ a'.stage = 1
    let plain : Prop := s.shadows = [] ∧ s.mem.wf = true
    let sl := s.slice n
    (s.ev = [uid, seq, id] → s.accs = [(id, a)] → a.stage = 1 → a.chain = 0 → a.lanes = [x] → s.invals = [] →
      isHomed x.pa = false ∨ (a.path = 0 ∧ a.reuse = 3 ∧ (s.core a.core).l1Find (x.pa / 128) = none) →
      s.whereIs uid = some (c, k) → exec .loadDataReturn s = .next (({ s with accs := [] } : State).finishLoad c k seq)) ∧
    (s.ev = [c, k] → s.cohort? c k = some h → h.stores = st :: rest → h.writeStuck st.seq = false → h.ending = false → s.portHolds h.uid = false →
      (∀ y ∈ h.loads, y.seq < st.seq → y.stage = 3 ∨ (y.stage = 1 ∧ y.full ≠ 0)) →
      (s.storeMiss c h st = some vpn → exec .storeLeaveQueue s = .next (s.pushOnce .translationWalkComplete [c, h.asid, vpn])) ∧
      (s.storeMiss c h st = none → s.storeFails c h st = some r → h.bisque = none → Answers s .storeLeaveQueue fun t =>
        let y : Cohort := { h with late := h.late ++ [{ code := 21, pc := st.pc, word := st.word, len := st.len, addr := r, at_ := st.seq }] }
        t.cohort? c k = some (if h.handler then y else y.halt) ∧ t.mem = s.mem) ∧
      (s.storeMiss c h st = none → s.storeFails c h st = none → exec .storeLeaveQueue s = .next (s.leaveStore c k h st))) ∧
    (s.ev = [c, k] → s.cohort? c k = some h → h.ending = false → (∃ f ∈ h.fences, s.fenceDone c h f = true) → Answers s .fenceComplete fun t =>
      t.cohort? c k = some { h with fences := h.fences.filter fun f => !s.fenceDone c h f } ∧ t.mem = s.mem) ∧
    (s.ev = [c, asid, vpn] → vpn * 4096 < 2 ^ 57 → (s.core c).tlbFind asid (vpn * 4096) = none → s.walk asid (vpn * 4096) = some e →
      (∀ y ∈ (s.core c).cohorts, y.2.asid ≠ asid) → Answers s .translationWalkComplete fun t =>
        (t.core c).tlb = (e :: (s.core c).tlb).take 2048 ∧ (t.core c).tlbFind asid (vpn * 4096) = some e ∧ t.mem = s.mem) ∧
    (s.ev = [c, k, r] → s.cohort? c k = some h → r ∈ h.absent → s.shadows = [] → (s.core c).lines.length < 2048 → Answers s .laneLineFill fun t => ∃ h',
      t.cohort? c k = some h' ∧ r ∉ h'.absent ∧
        (∀ i, i < 32 → h'.lane r i = if r ∈ h.imaged then BitVec.ofNat 32 (s.peekN (h.image + 128 * r + 4 * i) 4) else 0) ∧ h'.vtag r = h.vtag r ∧
        (t.core c).lines = (s.core c).lines ++ [(h.uid, r)] ∧ (∀ m, m ≠ r → h'.vreg m = h.vreg m) ∧ t.mem = s.mem) ∧
    (s.ev = [id] → Tbl.find? s.accs id = some a → a.lanes = [x] → a.stage = 0 → a.chain = 0 → a.fills = false → n = homeOf (x.pa / 128 * 128) →
      (s.overtakes id a = true → exec .bankAccess s = .next (s.push .bankAccess [id])) ∧
      (s.overtakes id a = false → (∀ c' off, regionOf x.pa ≠ .core c' .regWindow off) →
        (a.full ≠ 0 → s.isFull x.pa = false → a.stamp = 0 →
          exec .bankAccess s = .next { s with accs := Tbl.put s.accs id { a with stamp := s.nextId }, nextId := s.nextId + 1 }) ∧
        (a.full = 0 → a.kind = .store → plain → Answers s .bankAccess fun t => stores t ∧ answered t) ∧
        (a.kind = .load → a.full = 2 → s.isFull x.pa = true → s.shadows = [] →
          Answers s .bankAccess fun t => t.isFull x.pa = false ∧ answered t ∧ t.mem = s.mem)) ∧
      ((∀ m ∈ sl.misses, m.line ≠ x.pa / 128) → (∀ y ∈ s.accs, y.1 ≠ id → y.2.meets a = false) → plain →
        s.fsYields 8 (s.fsPath none (x.pa / 128)) = false →
        (a.kind = .load → sl.holds (x.pa / 128) = true → Answers s .sliceAccess fun t => answered t ∧ t.mem = s.mem) ∧
        (a.kind = .load → sl.holds (x.pa / 128) = false → sl.misses.length < 64 → Answers s .sliceAccess fun t =>
          (t.slice n).misses = sl.misses ++ [{ line := x.pa / 128, reuse := a.reuse, ids := [id] }] ∧ (t.slice n).ways = sl.ways ∧
            Due.mk .sliceFillComplete [n, x.pa / 128] ∈ t.agenda ∧ t.mem = s.mem) ∧
        (sl.holds (x.pa / 128) = true ∨ sl.wbuf.length < 16 →
          (a.kind = .store → Answers s .sliceAccess fun t => stores t ∧ answered t) ∧
          (a.kind = .wback → a.size = 1 → x.y = 0 → Answers s .sliceWriteback fun t => stores t ∧ answered t)))) ∧
    (s.ev = [n, line] → ∀ m, sl.missOf line = some m → sl.fill line m.reuse m.soiled ≠ none → s.accs = [] → Answers s .sliceFillComplete fun t =>
      (t.slice n).holds line = true ∧ ∀ m ∈ (t.slice n).misses, m.line ≠ line) ∧
    (s.ev = [n, line] → ∀ pre y post, sameCtl line y = true → (∀ z ∈ pre, sameCtl line z = false) →
      (sl.reserved = pre ++ y :: post → Answers s .writeBackDrain fun t => t.slice n = { sl with reserved := pre ++ post } ∧ t.mem = s.mem) ∧
      ((∀ z ∈ sl.reserved, sameCtl line z = false) → sl.wbuf = pre ++ y :: post → Answers s .writeBackDrain fun t =>
        t.slice n = { sl with wbuf := pre ++ post } ∧ t.mem = s.mem)) ∧
    (s.ev = [id] → Tbl.find? s.accs id = some a → a.chain = 0 → Answers s .writeAcknowledgement fun t => t.accs = Tbl.del s.accs id ∧ t.mem = s.mem)

/-- R270, R271, R282 to R288: the rows of the network and of the firing schedule. A packet moves on by one hop, or leaves at its destination with what it
carries; a blocked input launches a probe, which follows the chain of inputs until it finds a cycle; the hub grants recovery to one cycle, whose packets
move together; an escaped packet returns; and a period of the firing schedule starts from the budgets written, which are refused where R288 says so. -/
def Obligations.NetworkRowResults : Prop :=
  ∀ (s : State) (id key nxt r cls act v : Nat) (p : Packet) (l rest : List Nat) (x : Cycle),
    let home : Prop := p.here = p.dst
    let away : Prop := 16 ≤ p.dst ∨ p.cls = 1 ∨ p.cls = 2
    let here := inputKey p.here p.from_ p.cls
    (s.ev = [id] → Tbl.find? s.net.packets id = none → exec .packetRoute s = .next s) ∧
    (s.ev = [id] → Tbl.find? s.net.packets id = some p → (s.net.queue here).head? ≠ some id → exec .packetRoute s = .next s) ∧
    (s.ev = [id] → Tbl.find? s.net.packets id = some p → (s.net.queue here).head? = some id →
      let incarn := if p.src < 16 then (Tbl.at s.stackTbl (p.src % 8) {}).incarn else 0
      let lost := ((s.leaveInput id p).dropPacket id).errRec 4 p.here 5 p.cls 0 0 1 p.highBits
      (4 ≤ p.cls → exec .packetRoute s = .next lost) ∧
      (p.cls < 4 → p.incarn ≠ incarn → exec .packetRoute s = .next (if p.cls = 1 then lost else
        lost.onNet fun n => { n with flowCount := Tbl.adj n.flowCount (flowKey p.cls p.src p.dst) (· - 1) })) ∧
      (p.cls < 4 → p.incarn = incarn →
        (home → away → Answers s .packetRoute fun t => p.deliver ∈ t.agenda ∧ t.net.packets = Tbl.del s.net.packets id ∧ t.mem = s.mem) ∧
        (home → ¬ away → Answers s .packetRoute fun t =>
          let x := Tbl.at s.stackTbl (p.dst % 8) {}
          (x.step = 0 → x.packets = [] → x.mode = false → p.deliver ∈ t.agenda ∧ t.net.packets = Tbl.del s.net.packets id ∧ t.mem = s.mem) ∧
          (x.step ≠ 0 ∨ x.packets ≠ [] → t.net.packets = Tbl.del s.net.packets id ∧ t.mem = s.mem ∧
            Tbl.find? t.stackTbl (p.dst % 8) = some { x with packets := x.packets ++ [p.deliver] })) ∧
        (¬ home → s.net.canMove id p = false → exec .packetRoute s = .next
          ((s.onNet fun n => { n with stuck := Tbl.put n.stuck here (Tbl.at n.stuck here n.hubClock) }).push .packetRoute [id])) ∧
        (¬ home → s.net.canMove id p = true → Answers s .packetRoute fun t =>
          Tbl.find? t.net.packets id = some { p with here := nextHop p.here p.dst p.colFirst, from_ := p.here } ∧
          id ∈ t.net.queue (inputKey (nextHop p.here p.dst p.colFirst) p.here p.cls) ∧ Due.mk .packetRoute [id] ∈ t.agenda ∧ t.mem = s.mem))) ∧
    (s.ev = [key] → s.net.probeDue key = false → exec .probeLaunch s = .next s) ∧
    (s.ev = [key] → s.net.probeDue key = true → Answers s .probeLaunch fun t =>
      Tbl.find? t.net.probes s.nextId = some [key] ∧ Due.mk .probeHop [s.nextId] ∈ t.agenda ∧ t.net.packets = s.net.packets) ∧
    (s.ev = [id] → Tbl.find? s.net.probes id = some (key :: l) →
      (s.net.waitsFor ((key :: l).getLastD 0) = some key → Answers s .probeHop fun t =>
        Tbl.find? t.net.found id = some { time := s.net.hubClock, inputs := key :: l } ∧ Due.mk .recoveryGrant [id] ∈ t.agenda) ∧
      (s.net.waitsFor ((key :: l).getLastD 0) = some nxt → nxt ≠ key → l.length < 15 → s.net.lowerProbe nxt key = false →
        s.net.waitsFor nxt ≠ none → Answers s .probeHop fun t =>
          Tbl.find? t.net.probes id = some (key :: l ++ [nxt]) ∧ Due.mk .probeHop [id] ∈ t.agenda) ∧
      (s.net.waitsFor ((key :: l).getLastD 0) = none → Answers s .probeHop fun t => t.net.probes = Tbl.del s.net.probes id ∧ t.net.found = s.net.found)) ∧
    (s.ev = [id] → Tbl.find? s.net.found id = some x →
      ((∀ e ∈ s.net.found, e.2.granted = false) → s.net.isCycle x.inputs = true → (s.net.again x).length < 2 → Answers s .recoveryGrant fun t =>
        Tbl.find? t.net.found id = some { x with granted := true } ∧ Due.mk .rotationTokenReturn [id] ∈ t.agenda) ∧
      (s.net.isCycle x.inputs = false → exec .rotationTokenReturn s = .next (s.onNet fun n => { n with found := Tbl.del n.found id })) ∧
      (s.net.isCycle x.inputs = true → s.net.rotation = [] → Answers s .rotationTokenReturn fun t =>
        t.net.found = Tbl.del s.net.found id ∧ x.inputs ∈ t.net.rotated.map Prod.fst ∧ t.mem = s.mem)) ∧
    (s.ev = [r] → Tbl.at s.net.escape r [] = id :: rest → Tbl.find? s.net.packets id = some p → ¬ home → s.net.flowHeld id p = false →
      s.net.room p.nextInput = true → Answers s .escapeReinject fun t => id ∈ t.net.queue p.nextInput ∧ Due.mk .packetRoute [id] ∈ t.agenda ∧ t.mem = s.mem) ∧
    (s.ev = [cls] → cls < 4 → Answers s .fsPeriodStart fun t =>
      (∀ a, a < 8 → t.fsBudget cls a = (s.hubReg (0x1000 + 0x40 * cls + 8 * a)).toNat) ∧
      (∀ ix a, ix < 64 → a < 8 → Tbl.at t.fs (fsCountKey cls ix a) 0 = 0) ∧ t.hub = s.hub) ∧
    (s.ev = [cls, act, v] → cls < 4 → act < 8 →
      (s.fsRefuses cls act v = true → exec .fsbudWrite s = .next (s.setHub 0x1100 (s.hubReg 0x1100 ||| BitVec.ofNat 64 (2 ^ 63)))) ∧
      (s.fsRefuses cls act v = false →
        exec .fsbudWrite s = .next (s.setHub (0x1000 + 0x40 * cls + 8 * act) (BitVec.ofNat 64 (v / 2 ^ 32 % 2 ^ 17 * 2 ^ 32 + v % 2 ^ 17)))))

/-- R46, R47, R166, R169, R177, R179 to R181, R190, R193, R203: the rows of tiles, multiplies and chains. The request at the head of the frame queue is met where
a run is free; a fill ends with its handle resident or bound, or is held for its trap; a write of a tile performs; a paired multiply starts, and the oldest
one performs, each accumulator element taking its row and its column; and a chain acts on the entry it reaches: a malformed one stops it, a loop or a jump sends
it on once the writes that it drains have performed, a signal sends its subtraction, which its slice performs, and the end frees its slot. -/
def Obligations.TileRowResults : Prop :=
  ∀ (s u : State) (c b n e f i j va : Nat) (bl : Block) (h : Handle) (x : Transfer) (y : Cohort) (r : FrameReq) (rs : List FrameReq) (m : MatOp)
    (ms : List MatOp) (g : Grant) (ch : Chain) (img : TImg) (bad : Nat × Nat) (a : Access) (l : LaneAcc),
    let asid := (Tbl.find? s.launches bl.launch).elim 0 (·.asid)
    let handle (t : State) (h' : Handle) : Prop := ∃ bl', t.block? c b = some bl' ∧ Tbl.find? bl'.handles n = some h'
    (s.ev = [c] → (s.core c).frameWaits = r :: rs → s.requestLive c r = true → s.block? c r.slot = some bl → Tbl.find? bl.handles r.handle = some h →
      ((s.core c).frameRun r.frames = none → Answers s .frameGrant fun t => t = s.onCore c fun co => { co with frameWaits := r :: rs }) ∧
      (h.state = .filling → h.frames = 0 → (s.core c).frameRun r.frames = some f → Answers s .frameGrant fun t =>
        (t.core c).frameWaits = rs ∧ Due.mk .fillEnd [c, r.slot, r.handle] ∈ t.agenda ∧
        (∀ a, Mem.rd t.mem a = if tileBase c + f * 4096 ≤ a ∧ a < tileBase c + (f + r.frames) * 4096 then 0 else Mem.rd s.mem a) ∧
        t.block? c r.slot = some { bl with handles := Tbl.put bl.handles r.handle { h with frame := f, frames := r.frames } })) ∧
    (s.ev = [c, b, n] → s.block? c b = some bl → Tbl.find? bl.handles n = some h → h.fill = some x → x.held = false → h.state = .filling →
      h.shape.frames ≤ h.frames → x.code ≠ 255 → s.spanReady c asid bl.gang .load (h.memShape.spans x.va) = true →
      (s.readImage c asid bl.gang x.va h.memShape = (.ok img, u) → s.accs = [] → (∀ k ∈ bl.handles, k.2.owner ∈ bl.live) → Answers s .fillEnd fun t =>
        handle t { h with state := if h.retBound then .bound else .resident, fill := none, log := [], frames := h.shape.frames }) ∧
      (s.readImage c asid bl.gang x.va h.memShape = (.error bad, u) → s.whereIs x.uid = some (c, i) → s.cohort? c i = some y → y.ending = false →
        Answers s .fillEnd fun t => handle t { h with fill := some { x with held := true, code := bad.1, fva := bad.2 } } ∧
          t.cohort? c i = some y.halt ∧ Due.mk .trapEntry [c, i] ∈ t.agenda)) ∧
    (s.ev = [c, b, n] → s.block? c b = some bl → Tbl.find? bl.handles n = some h → h.writes = [x] → x.held = false → s.writeStuck x = false →
      (x.code ≠ 255 → s.tileReady c bl h x = true → h.state ≠ .nonResident → (∀ o, decodeWord x.word ≠ .ok (.acrd o)) →
        exec .tileWriteComplete s = .next (s.writeTile c b n h asid bl.gang x (s.tileImg c h))) ∧
      (x.code = 255 → x.evict = false → (∀ k ∈ bl.handles, k.2.owner ∈ bl.live) → Answers s .tileWriteComplete fun t =>
        handle t { h with writes := [] } ∧ t.mem = s.mem)) ∧
    (s.ev = [c] → (s.core c).mats.find? (fun m => m.paired && !m.started) = some m → (s.core (c ^^^ 1)).mats = [] →
      s.block? c m.slot = some bl → (Tbl.at bl.handles m.ha {}).fill = none → (Tbl.at bl.handles m.hb {}).fill = none → Answers s .mmpStart fun t =>
      (t.core c).mats = (s.core c).mats.map (fun z => if z.id = m.id then { z with started := true } else z) ∧
        Due.mk .mmaPerform [c, m.id] ∈ t.agenda ∧ t.mem = s.mem) ∧
    (s.ev = [c, m.id] → (s.core c).mats = m :: ms → s.block? c m.slot = some bl → (∀ k ∈ bl.handles, k.2.owner ∈ bl.live) →
      (s.core c).grants.find? (fun g => g.slot == m.slot && g.serial == m.grant) = some g →
      let ha := Tbl.at bl.handles m.ha {}
      let hb := Tbl.at bl.handles m.hb {}
      (Answers s .mmaPerform fun t => (t.core c).mats = ms.filter (fun z => z.id != m.id) ∧ t.mem = (s.multiply c g ha hb).mem ∧ t.accPoison = (s.multiply c g ha hb).accPoison) ∧
      (s.mem.wf = true → ha.shape.rows ≤ 256 → hb.shape.cols ≤ 512 → i < ha.shape.rows → j < hb.shape.cols →
        let a := s.tileImg c ha
        let bb := s.tileImg c hb
        let old := (s.accAt c g i j).1
        ((s.multiply c g ha hb).accAt c g i j).1 =
          if g.ty = 2 then intAccum (ha.shape.rowOf (fun k => a.elems.getD k 0) i) (hb.shape.colOf (fun k => bb.elems.getD k 0) j) old % 2 ^ 32
          else matAccum (ha.shape.tag == 0x11) ha.shape.sx.isSome (ha.shape.rowOf (ha.shape.value a) i) (hb.shape.colOf (hb.shape.value bb) j) old % 2 ^ 32)) ∧
    (s.ev = [c, e, n] → e < 2 → s.chainAt c e n = some ch → s.block? c ch.block = some bl → bl.killed = false → ch.faulted = false → ch.entry = [] →
      let next (t : State) (ch' : Chain) : Prop := t.chainAt c e n = some ch' ∧ Due.mk .engineEntryReach [c, e, n] ∈ t.agenda
      let faults (ch' : Chain) : Prop := Answers s .engineEntryReach fun t => t.chainAt c e n = some { ch' with
        faulted := true, progress := 0, plan := none, reads := [], lost := none, due := none } ∧ Due.mk .lateEngineFault [c, e, n, 0, ch.off] ∈ t.agenda ∧ t.mem = s.mem
      let at_ := coreBase c + bl.base + ch.off
      let z := entryAt (s.peekBytes at_ 32)
      let reached : Chain := { ch with owners := s.windowOwners, regs := s.armedBounds ch.asid, drained := false, plan := none, reads := [], lost := none, due := none }
      let done : Chain := { reached with drained := true, progress := 0 }
      (ch.state = 1 → Answers s .conditionalWaitPauseEnd fun t => next t { ch with state := 0 } ∧ t.mem = s.mem) ∧
      (ch.state = 0 → s.chainWaits c ch = false →
        (bl.size < ch.off + 32 → faults ch) ∧
        (ch.off + 32 ≤ bl.size → s.poisoned at_ 32 = false → ((s.core c).eng e).cache = [] →
          (z.malformed e bl.size = true → faults reached) ∧
          (z.malformed e bl.size = false → s.chainClear ch z.drains = true →
            (z.op = 9 → Answers s .engineEntryReach fun t => next t { done with off := z.g } ∧ t.mem = s.mem) ∧
            (z.op = 7 → ch.loops = [] → Answers s .engineEntryReach fun t => t.mem = s.mem ∧
              next t (if z.aux = 1 then { done with off := ch.off + 32 } else { done with off := z.g, loops := [(ch.off, z.aux - 1, z.aux)] })) ∧
            (z.op = 5 → z.a % 8 = 0 → s.find c ch.asid bl.gang .atomic z.a = .ok va false → (s.core c).l1 = [] →
              s.fsLinks 4 (coreRouter c) [va] ≠ none → Answers s .engineEntryReach fun t => t.mem = s.mem ∧
                next t { done with off := ch.off + 32, pending := ch.pending ++ [s.nextId] } ∧ ∃ a, Tbl.find? t.accs s.nextId = some a ∧
                  a.kind = .sub ∧ a.scope = z.opf ∧ a.size = 8 ∧ a.chain ≠ 0 ∧ a.stage = 0 ∧
                  a.lanes = [{ lane := 0, va := z.a, pa := va, x := if z.b = 0 then 1 else z.b }]) ∧
            (z.op = 10 → Answers s .engineEntryReach fun t =>
              ((t.core c).eng e).chains = Tbl.del ((s.core c).eng e).chains n ∧ t.mem = s.mem))))) ∧
    (s.ev = [n] → Tbl.find? s.accs n = some a → a.kind = .sub → a.size = 8 → a.lanes = [l] → a.stage = 0 → a.chain ≠ 0 → s.overtakes n a = false →
      (∀ w ∈ s.accs, w.1 ≠ n → w.2.meets a = false) → isHomed l.pa = true → (s.slice (homeOf (l.pa / 128 * 128))).holds (l.pa / 128) = true →
      s.fsPass 4 (s.fsPath none (l.pa / 128)) ≠ none → s.shadows = [] → s.mem.wf = true → s.poisoned l.pa 8 = false → Answers s .sliceAccess fun t =>
        (∃ a', Tbl.find? t.accs n = some a' ∧ a'.stage = 1) ∧ Mem.rdN t.mem l.pa 8 = (Mem.rdN s.mem l.pa 8 + 2 ^ 64 - l.x % 2 ^ 64) % 2 ^ 64)

/-- R208, R215, R231, R241, R301 to R303, R307, R309, R311 to R313, R315, R317, R339: the rows of launches. A block that starts finds its scratchpad
and its banks zero and its cohorts at their stage's entry; one that ends is freed and counted, and a launch of kind 0 takes 1 from its completion object; the
record that comes first is taken, unless 64 launches are live, and one rejected has its completion stored once its status block is acknowledged; the launch unit places a gang where it has room, or swaps out blocks of lower levels; and a
launch that is over, or killed and over, and owes no peer a write, is no longer live and writes its completion. The launch and its one stage stand for any in the clauses of placing. -/
def Obligations.LaunchRowResults : Prop :=
  ∀ (s : State) (c b id j pa : Nat) (bl : Block) (l m : Launch) (st : StageSt) (x : Submission) (bs : List Byte),
    let stores (t : State) (v : Nat) : Prop := ∀ a, Mem.rd t.mem a = if pa ≤ a ∧ a < pa + 8 then BitVec.ofNat 8 (v / 256 ^ (a - pa)) else Mem.rd s.mem a
    let plain : Prop := s.shadows = [] ∧ s.mem.wf = true ∧ isHomed pa = true
    let goesTo (acc : Acc) : Prop := s.hubPa l.asid acc l.cdest = some pa
    let takes1 (t : State) : Prop := Mem.rdN t.mem pa 8 = (Mem.rdN s.mem pa 8 + 2 ^ 64 - 1) % 2 ^ 64
    let scratch (a : Nat) : Prop := coreBase c + bl.base ≤ a ∧ a < coreBase c + bl.base + (bl.size + bl.chanSize)
    let banks (a : Nat) : Prop := accBase c + bl.accBase * 65536 ≤ a ∧ a < accBase c + bl.accBase * 65536 + bl.accN * 65536
    let waits (r : Tbl Launch) : Prop := s.launches = (id, l) :: r ∧ l.stages = [st] ∧ l.chans = [] ∧ l.level < 4 ∧ l.killed = false ∧ st.qd = false ∧ st.queue = [] ∧
      st.placed < st.total ∧ st.ended < st.total ∧ st.redo = [] ∧ st.gang = 1 ∧ s.comeback (·.wake.getLsbD 0) id = none ∧ s.comeback (·.auto) id = none ∧ (s.hubReg 0x2008).getLsbD 63 = false
    (s.ev = [c, b] → s.block? c b = some bl → bl.started = false → Tbl.find? s.launches bl.launch = some l → l.stages[bl.stage]? = some st →
      Answers s .blockStart fun t => t.block? c b = some { bl with started := true } ∧
        (∀ a, (scratch a ∨ banks a → Mem.rd t.mem a = 0) ∧ (¬ (scratch a ∨ banks a) → Mem.rd t.mem a = Mem.rd s.mem a)) ∧
        ∀ k h, s.cohort? c k = some h → h.slot = b → h.ending = false → t.cohort? c k = some { h with
          splits := [(0, { pc := BitVec.ofNat 64 st.entry, entry := BitVec.allOnes 32, exec := BitVec.allOnes 32 })] }) ∧
    (s.ev = [c, b] → s.block? c b = some bl → s.blockOver c b = true → s.withholder c b = none → bl.handles = [] → Tbl.find? s.launches bl.launch = some l →
      l.stages[bl.stage]? = some st → Answers s .blockEnd fun t =>
        (t.core c).blocks = Tbl.del (s.core c).blocks b ∧
        (∃ l' st', Tbl.find? t.launches bl.launch = some l' ∧ l'.stages[bl.stage]? = some st' ∧ st'.ended = st.ended + 1) ∧
        (l.killed = false → l.kind = 0 → (∃ y ∈ l.stages, y.qd = false ∧ y.ended + 1 < y.total) → plain → goesTo .atomic → s.poisoned pa 8 = false → takes1 t)) ∧
    (s.ev = [] → 64 ≤ s.launches.length → exec .launchAccept s = .next s) ∧
    (s.ev = [id, l.asid, l.cdest, l.kind, l.scope, l.cseq] → (s.peersOwe id = true → exec .launchAccept s = .next (s.push .launchAccept s.ev)) ∧
      (s.peersOwe id = false → l.kind = 2 → plain → goesTo .store → s.cdestOk l.asid l.cdest 2 l.scope = true → Answers s .launchAccept fun t => stores t l.cseq)) ∧
    (s.ev = [] → s.launches.length < 64 → s.nextAccept = some (id, x) → x.bytes = some bs → x.src = .spawn c b 0 pa →
      let u : State := { s with waiting := Tbl.del s.waiting id }
      (∀ n, u.checkRecord x.src x.asid x.level false bs = .reject n → Answers s .launchAccept fun t =>
        t.waiting = Tbl.del s.waiting id ∧ Tbl.keys t.launches = Tbl.keys s.launches) ∧
      (u.checkRecord x.src x.asid x.level false bs = .accept l → l.status = 0 → l.nbound = 0 → Answers s .launchAccept fun t =>
        t.waiting = Tbl.del s.waiting id ∧ Tbl.find? t.launches s.nextId = some l ∧ Due.mk .schedule [] ∈ t.agenda ∧ t.mem = s.mem)) ∧
    (waits [] → s.chooseCores l [0] = some [c] → st.cohorts ≤ (s.freeImages l.asid).length → Answers s .schedule fun t =>
      ∃ r y l', s.roomOn c st 0 = some r ∧ t.block? c r.slot = some y ∧ y.launch = id ∧ y.task = st.placed ∧ y.base = r.base ∧ y.size = st.scratch ∧
        y.live = List.range st.cohorts ∧ Due.mk .blockStart [c, r.slot] ∈ t.agenda ∧ Tbl.find? t.launches id = some l' ∧ l'.placed = l.placed + 1 ∧ t.mem = s.mem) ∧
    (waits [(j, m)] → j ≠ id → m.level < l.level → m.killed = false → m.stages ≠ [] →
      (∀ y ∈ m.stages, y.qd = false ∧ y.queue = [] ∧ y.redo = [] ∧ y.placed = y.total ∧ y.ended < y.total) → s.chooseCores l [0] = none → s.swapPlan l [0] = [(c, b)] →
      exec .schedule s = .next (s.pushOnce .prioritySwapOut [id]) ∧
      (s.ev = [id] → Answers s .prioritySwapOut fun t => ∀ k h, s.cohort? c k = some h → h.slot = b → h.ending = false →
        t.cohort? c k = some { h with leaving := true, auto := true } ∧ Due.mk .cohortSwapOut [c, k] ∈ t.agenda)) ∧
    (s.ev = [id] → Tbl.find? s.launches id = some l → l.status = 0 → plain → s.peersOwe id = false →
      (s.launchOver id l = true → (l.kind = 2 → goesTo .store → Answers s .launchComplete fun t => t.launches = Tbl.del s.launches id ∧ stores t l.cseq) ∧
        (l.kind = 1 → goesTo .atomic → s.poisoned pa 8 = false → Answers s .launchComplete fun t => t.launches = Tbl.del s.launches id ∧ takes1 t)) ∧
      (l.killOver = true → goesTo .store → (l.kind = 2 ∨ goesTo .atomic) → l.cdest % 8 = 0 → Answers s .launchKillComplete fun t =>
        t.launches = Tbl.del s.launches id ∧ stores t (if l.kind = 2 then l.cseq else 0)))

/-- R320, R325, R326, R339, R340, R342, R343, R346, R347, R412: the rows of contexts. The table takes what a live context allows; a command under way keeps
others out, one that is taken says so and acts on every cohort or group of its context, an eviction writing its stores to the save area, and busy clears once it
has finished; a cohort that leaves is out, and
one that comes back has its registers from its image; and an invalidation drops translations at once and completes when no access is left that used one. -/
def Obligations.ContextRowResults : Prop :=
  ∀ (s u : State) (c k b asid off v page uid id r : Nat) (h : Cohort) (bl : Block) (g : SavedGroup) (l : List Nat),
    let busy : Prop := (s.hubReg 0x2008).getLsbD 63 = true
    let word (cmd : Nat) : DWord := BitVec.ofNat 64 (cmd * 2 ^ 60 + page % 2 ^ 40 * 2 ^ 12 + asid % 2 ^ 12)
    let taken (t : State) (cmd : Nat) : Prop := t.hubReg 0x2000 = word cmd ∧ t.hubReg 0x2008 = 0x8000000000000000 ∧ Due.mk .ctxcmdComplete [] ∈ t.agenda
    let live : Prop := ∃ x ∈ Tbl.vals s.launches, x.asid = asid
    let out : List Cohort := (Tbl.vals s.cores).flatMap fun co => co.away.filter (·.asid == asid)
    let set (row : Instr) (a : Nat) (x : DWord) : Prop := Answers s row fun t => t.hubReg a = x ∧ (∀ y, y ≠ a → t.hubReg y = s.hubReg y) ∧ t.mem = s.mem
    (s.ev = [asid, off, v] → asid < 4096 → off < 64 →
      let a := 0x100000 + 64 * asid + off
      let mixed (m : DWord) : DWord := (s.hubReg a &&& ~~~m) ||| (BitVec.ofNat 64 v &&& m)
      (live → set .ctxTableWrite a (if off = 0 then mixed 6 else s.hubReg a)) ∧ (¬ live → set .ctxTableWrite a (mixed (ctxMask off)))) ∧
    (busy → exec .ctxSwapOut s = .next s ∧ exec .ctxRestore s = .next s ∧ exec .ctxEvictGroups s = .next s ∧ exec .ctxRestoreGroups s = .next s ∧
      exec .ctxFlushLines s = .next s) ∧
    (¬ busy → s.arg 0 = asid → s.arg 1 = page →
      (Answers s .ctxSwapOut fun t => taken t 1 ∧ ∀ c k h, s.cohort? c k = some h → h.asid = asid → h.ending = false →
        t.cohort? c k = some { h with leaving := true, auto := false } ∧ Due.mk .cohortSwapOut [c, k] ∈ t.agenda) ∧
      (Answers s .ctxRestore fun t => taken t 2 ∧ ∀ h ∈ out, Due.mk .cohortRestore [h.uid] ∈ t.agenda) ∧
      (s.blocksOf asid = [((c, b), bl)] → bl.handles = [] → (∀ x ∈ (s.core c).away, x.slot = b → x.frozen = []) →
        (s.mayEvict c b bl = false → Answers s .ctxEvictGroups fun t => t.hubReg 0x2008 = 0xc000000000000000 ∧ t.cores = s.cores ∧ t.saved = s.saved) ∧
        (s.mayEvict c b bl = true → areaHomed (page % 2 ^ 40 * 4096) (savedSize [((c, b), bl)]) = true → s.mem.wf = true → Answers s .ctxEvictGroups fun t =>
          taken t 3 ∧ (t.core c).blocks = Tbl.del (s.core c).blocks b ∧
          (∃ y, t.saved = s.saved ++ [y] ∧ y.asid = asid ∧ y.page = page ∧ y.blocks.map (·.slot) = [b]) ∧
          ∀ i, i < bl.size → Mem.rd t.mem (page % 2 ^ 40 * 4096 + i) = Mem.rd s.mem (coreBase c + bl.base + i))) ∧
      (s.saved = [g] → g.asid = asid → g.page = page →
        ((s.setHub 0x2000 (word 4)).setHub 0x2008 0x8000000000000000).returnGroup g = some u → Answers s .ctxRestoreGroups fun t =>
          t.saved = u.saved ∧ t.gangs = u.gangs ∧ t.mem = u.mem ∧ Due.mk .ctxcmdComplete [] ∈ t.agenda) ∧
      (out = [h] → s.saved = [] → s.cohortBy h.uid = some h → h.dirty = [r] → r < h.budget → isHomed (h.image + 128 * r) = true → (h.vreg r).poison = 0 → s.shadows = [] → s.mem.wf = true → Answers s .ctxFlushLines fun t =>
        taken t 5 ∧ ∀ i, i < 32 → Mem.rdN t.mem (h.image + 128 * r + 4 * i) 4 = (h.lane r i).toNat)) ∧
    (¬ busy → exec .ctxcmdComplete s = .next s) ∧
    (busy → s.hubReg 0x2000 = word 1 →
      (asid < 4096 → (∃ c k h, s.cohort? c k = some h ∧ h.asid = asid ∧ h.leaving = true) → exec .ctxcmdComplete s = .next s) ∧
      (asid < 4096 → (∀ co ∈ Tbl.vals s.cores, ∀ y ∈ Tbl.vals co.cohorts, y.asid = asid → y.leaving = false) →
        set .ctxcmdComplete 0x2008 (s.hubReg 0x2008 &&& 0x4000000000000000))) ∧
    (busy → s.hubReg 0x2000 = word 2 → asid < 4096 →
      ((∃ co ∈ Tbl.vals s.cores, ∃ y ∈ co.away, y.asid = asid ∧ y.asked = true) → exec .ctxcmdComplete s = .next s) ∧
      ((∀ co ∈ Tbl.vals s.cores, ∀ y ∈ co.away, y.asid = asid → y.asked = false) →
        set .ctxcmdComplete 0x2008 (s.hubReg 0x2008 &&& 0x4000000000000000))) ∧
    (s.ev = [c, k] → s.cohort? c k = some h → h.leaving = true → h.ending = false → s.mayLeave c h = true → h.handler = false →
      Tbl.put (s.core c).cohorts k h = (s.core c).cohorts → Answers s .cohortSwapOut fun t =>
      (t.core c).cohorts = Tbl.del (s.core c).cohorts k ∧
      ∃ y, (t.core c).away = (s.core c).away ++ [y] ∧ y.uid = h.uid ∧ y.leaving = false ∧ y.stopped = false ∧ (y.pending = true ↔ s.causeOf c h ≠ none)) ∧
    (s.ev = [uid] → s.awayAt uid = some c → (s.core c).away.find? (fun x => x.uid == uid && x.frozen == []) = some h → (s.core c).homeSlot uid = some k →
      h.ending = false → h.late = [] → s.shadows = [] → s.peekN (h.image + 0x20a4) 4 / 32 % 4 = 0 → s.peekN (h.image + 0x20a8) 4 % 4 = 0 →
      s.peekN (h.image + 0x8020) 8 % 64 = 0 → s.peekN (h.image + 0x8028) 8 % 2 = 0 → Answers s .cohortRestore fun t =>
        (t.core c).away = (s.core c).away.filter (fun x => x.uid != uid) ∧
        ∃ y, t.cohort? c k = some y ∧ y.uid = uid ∧ y.dmask = BitVec.ofNat 32 (s.peekN (h.image + 0x20a0) 4) ∧
          ∀ n, 0 < n → n < 64 → y.uq n = BitVec.ofNat 64 (s.peekN (h.image + 0x2200 + 8 * n) 8)) ∧
    ((s.hubReg 0x2018).getLsbD 63 = true → exec .tlbinvAll s = .next s ∧ exec .tlbinvPage s = .next s) ∧
    ((s.hubReg 0x2018).getLsbD 63 = false → s.arg 0 = asid → s.arg 1 = page →
      let gone (t : State) (all : Nat) (f : TlbEntry → Prop) : Prop := t.hubReg 0x2018 = 0x8000000000000000 ∧
        t.hubReg 0x2010 = BitVec.ofNat 64 (all * 2 ^ 63 + page % 2 ^ 45 * 2 ^ 12 + asid % 2 ^ 12) ∧ Due.mk .tlbinvComplete [0] ∈ t.agenda ∧ t.mem = s.mem ∧
        ∀ c e, e ∈ (t.core c).tlb ↔ e ∈ (s.core c).tlb ∧ ¬ (e.asid = asid ∧ f e)
      (Answers s .tlbinvAll fun t => gone t 1 fun _ => True) ∧
      (page < 2 ^ 45 → Answers s .tlbinvPage fun t => gone t 0 fun e => e.vpn = page * 4096 / 2 ^ e.bits)) ∧
    (s.ev = [id] → Tbl.find? s.invals id = some l →
      ((∃ a ∈ l, a ∈ s.inFlight) → exec .tlbinvComplete s = .next s) ∧
      ((∀ a ∈ l, a ∉ s.inFlight) →
        (id = 0 → Answers s .tlbinvComplete fun t => t.hubReg 0x2018 = 0 ∧ t.invals = Tbl.del s.invals 0 ∧ t.cores = s.cores) ∧
        (id ≠ 0 → Answers s .tlbinvComplete fun t => t.invals = Tbl.del s.invals id ∧ t.mem = s.mem ∧
          ∀ c k h, s.cohort? c k = some h → t.cohort? c k = some (h.retryAll (· == .inval id))))) ∧
    (s.ev = [asid, v] → asid < 4096 → (live → exec .wbctxWrite s = .next s) ∧ (¬ live → set .wbctxWrite (0x710000 + 8 * asid) (BitVec.ofNat 64 (v % 2))))

/-- R5, R6, R286, R302, R359, R375 to R377, R379, R402, R423, R427: the rows of the host. A doorbell submits the entries up to the tail written, or is an overflow; a
queue is enabled by a configuration that passes, is disabled, and takes its base, as its enable allows; the doorbell of the management queue carries its entry's
two doublewords, which is the model's reading (log entry 59); a host access comes after those before it, and reaches a hub register or near memory within its
budget, while its bytes from 192 GiB on read as zero and are dropped; and a hub register takes a write by its access kind. -/
def Obligations.HostRowResults : Prop :=
  ∀ (s u : State) (n a v i bar : Nat),
    let reg (off : Nat) : Nat := 0x500000 + 64 * n + off
    let set (row : Instr) (off : Nat) (x : DWord) : Prop :=
      Answers s row fun t => t.hubReg off = x ∧ (∀ y, y ≠ off → t.hubReg y = s.hubReg y) ∧ t.mem = s.mem ∧ t.cores = s.cores
    let enabled : Prop := (s.hubReg (reg 8)).getLsbD 0 = true
    let head := (s.hubReg (reg 16)).toNat % 2 ^ 16
    let x : DWord := BitVec.ofNat 64 v
    let near : Nat := min n (0x3000000000 - a)
    let first : Prop := s.hostWait = [] ∧ ∀ d, s.hostRow = some d → d ∉ s.agenda
    (s.ev = [n, v] → n < 64 → v < 2 ^ 16 →
      let d := (v + 2 ^ 16 - head) % 2 ^ 16
      (2 ^ bitsAt (s.hubReg (reg 8)) 7 4 < d → set .hqDoorbell (reg 32) (s.hubReg (reg 32) ||| 2)) ∧
      ((∀ y ∈ Tbl.vals s.waiting, y.src ≠ .hostQueue n) → d ≤ 2 ^ bitsAt (s.hubReg (reg 8)) 7 4 → Answers s .hqDoorbell fun t => t.hubReg (reg 24) = x ∧ t.mem = s.mem ∧
        ∀ i, i < d → ∃ y ∈ Tbl.vals t.waiting, y.src = .hostQueue n ∧ y.addr = (head + i) % 2 ^ 16)) ∧
    (s.ev = [n, v] → n < 64 →
      let ok : Prop := bitsAt x 17 16 < 2 ∧ 2 ≤ bitsAt x 7 4 ∧ bitsAt x 7 4 ≤ 12 ∧ s.ctxValid (bitsAt x 31 20) = true
      (enabled → exec .hqEnable s = .next s ∧ exec .hqbaseWrite s = .next s) ∧
      (¬ enabled → (ok → set .hqEnable (reg 8) ((x &&& 0xffff00f0) ||| 1)) ∧
        (¬ ok → Answers s .hqEnable fun t => (t.hubReg (reg 8)).getLsbD 0 = false ∧ t.hubReg (reg 32) = s.hubReg (reg 32) ||| 4 ∧ t.mem = s.mem) ∧
        set .hqbaseWrite (reg 0) (x &&& 0x800fffffffffffc0)) ∧
      set .hqDisable (reg 8) (s.hubReg (reg 8) &&& 0xfffffffffffffffe)) ∧
    (s.ev = [a, v] → Answers s .mgmtDoorbell fun t =>
      Tbl.find? t.waiting s.nextId = some { src := .mgmt, addr := a, asid := v, level := 3, bytes := none, at_ := s.net.hubClock } ∧
        Due.mk .launchAccept [] ∈ t.agenda ∧ t.mem = s.mem) ∧
    (s.ev = [bar, a, n, v] →
      (s.boot.stage = 0 → exec .hostWrite s = .next s) ∧
      (s.boot.stage ≠ 0 → s.hostWait ≠ [] → exec .hostWrite s = .next { s with hostWait := s.hostWait ++ [{ row := .hostWrite, ops := s.ev }] }) ∧
      (s.boot.stage ≠ 0 → first →
        (bar = 0 → s.boot.halted = false → n = 8 → a % 8 = 0 → a < 0x300000 ∨ 0x304000 ≤ a → exec .hostWrite s = .next
          { s with agenda := s.agenda ++ [registerRow a (v % 2 ^ 64)], hostRow := some (registerRow a (v % 2 ^ 64)) }) ∧
        (bar = 0 → (0x300000 ≤ a ∧ a < 0x304000) ∨ s.boot.halted = true → exec .hostWrite s = .next s) ∧
        (bar = 1 → (s.hostPass a near true = none → exec .hostWrite s = .next { s with hostWait := [{ row := .hostWrite, ops := s.ev }] }) ∧
          (s.hostPass a near true = some u → s.shadows = [] → s.mem.wf = true → Answers s .hostWrite fun t => ∀ y,
            Mem.rd t.mem y = if a ≤ y ∧ y < a + near then BitVec.ofNat 8 (v / 256 ^ (y - a)) else Mem.rd s.mem y)))) ∧
    (s.ev = [bar, a, n] → s.boot.stage ≠ 0 →
      (s.hostWait ≠ [] → exec .hostRead s = .next { s with hostWait := s.hostWait ++ [{ row := .hostRead, ops := s.ev }] }) ∧
      (first →
        (bar = 0 → s.boot.halted = true → a / 8 * 8 ≠ 0x720000 → exec .hostRead s = .next s) ∧
        (bar = 1 → (0x3000000000 ≤ a → Answers s .hostRead fun t => t.hostOut = s.hostOut ++ [{ what := a, value := 0 }] ∧ t.mem = s.mem) ∧
          (s.hostPass a near false = none → exec .hostRead s = .next { s with hostWait := [{ row := .hostRead, ops := s.ev }] }) ∧
          (a < 0x3000000000 → s.hostPass a near false = some u → s.shadows = [] → s.poisoned a near = false → Answers s .hostRead fun t =>
            t.hostOut = s.hostOut ++ [{ what := a, value := s.peekN a near }] ∧ t.mem = s.mem)))) ∧
    (s.ev = [a, v] →
      (0x300000 ≤ a → a < 0x304000 → Answers s .registerWrite fun t => t.ul.prog = Tbl.put s.ul.prog ((a - 0x300000) / 4) (x.truncate 32) ∧
        t.hub = s.hub ∧ t.mem = s.mem) ∧
      (a = 0x720100 → 1000 ≤ v → v ≤ 4000 → set .registerWrite a x) ∧
      (a = 0x500020 + 64 * i → i < 64 → set .registerWrite a (s.hubReg a &&& ~~~(x &&& 6))) ∧
      (a = 0x580000 + 8 * i → i < 32 → set .registerWrite a ((s.hubReg a &&& 0x00000000fffffffe) ||| (x &&& 0xffffffff00000001))))

/-- R316, R349, R350, R353 to R356, R363, R369, R370, R381, R383, R384, R418: the rows of collective windows and of the fabric. A window that is off is checked and
turned on; a contribution is put into its segment and acknowledged, or waits for a slot; an input is held, discarded as a duplicate, or not acknowledged, and the
first of its group starts a handler; a bucket spills its inputs; a packet that is not acknowledged in its time is sent again; a packet in sequence performs and is
acknowledged, one out of sequence asks for what is missing, and an acknowledgement covers all before it; a link that loses a lane in use retrains on those that are
left, and sends again what is not acknowledged; an access to a peer that no link reaches fails; and one of a peer is answered on its link. The places of the spill
area are the model's choice (log entry 33). -/
def Obligations.CollectiveRowResults : Prop :=
  ∀ (s : State) (w v r id off q lane kind op ty size d y name pa l n : Nat) (a : Access) (x : LaneAcc) (p : PeerAcc) (ln : Launch) (ue : UePacket)
    (ops : List Nat) (header payload bad tag seg : Nat),
    let base := 0x200000 + 64 * w
    let bits : DWord := BitVec.ofNat 64 v
    let on : Prop := s.awMode w ≠ 0
    let waiting (i : Segment) : Prop := i.win = w ∧ i.tag = tag ∧ i.seg = seg ∧ i.round = (s.bucket w tag).round
    let k := Tbl.at s.links l {}
    let k' (t : State) : Link := Tbl.at t.links l {}
    let retrains (t : State) (lost : List Nat) (n : Nat) : Prop :=
      k' t = { k with badLanes := lost, retrain := some n } ∧ Due.mk .linkRetrainDone [l] ∈ t.agenda ∧ t.mem = s.mem
    (s.ev = [w, v] → w < 256 →
      (on → exec .awcfgEnable s = .next s) ∧
      (¬ on → s.awOk w (bits &&& awMask 0) = true → Answers s .awcfgEnable fun t =>
        t.hubReg base = bits &&& awMask 0 ∧ t.hubReg (base + 56) = 0 ∧ t.ul = s.ul.discard w ∧ t.mem = s.mem) ∧
      (¬ on → s.awOk w (bits &&& awMask 0) = false → Answers s .awcfgEnable fun t => t.awMode w = 0 ∧ t.mem = s.mem ∧
        t.hubReg (base + 56) = (if 3 < bitsAt bits 26 24 then s.hubReg (base + 56) &&& 0x7fffffffffff0fff else 0) ||| 0x1000) ∧
      Answers s .awcfgDisable fun t => t.awMode w = 0 ∧ t.ul = s.ul.discard w ∧ t.mem = s.mem) ∧
    (s.ev = [w, r, v] → w < 256 → (on → exec .awRegisterWrite s = .next s) ∧
      (¬ on → r ∈ [8, 16, 24, 32, 40, 48] → Answers s .awRegisterWrite fun t => t.hubReg (base + r) = bits &&& awMask r ∧
        (∀ z, z ≠ base + r → t.hubReg z = s.hubReg z) ∧ t.mem = s.mem)) ∧
    (s.ev = [id] → s.accs = [(id, a)] → a.stage = 0 → a.lanes = [x] → a.kind = .store → regionOf x.pa = .alias_ w off → s.awHalted w = false →
      s.mayContribute a.core w off = true →
      let rank := bitsAt (s.aw w 16) 47 32 + (a.core - bitsAt (s.aw w 16) 23 16)
      let mine (z : Assembly) : Prop := z.win = w ∧ z.tag = off / 65536 % 65536 ∧ z.seg = off / 256 % 256 ∧ z.rank = rank
      (∀ z ∈ s.ul.parts, ¬ mine z) →
      ((s.bucket w (off / 65536 % 65536)).spilled = false → s.slotsUsed (s.awPort w) < 512 →
        s.fsPass 5 [(3, columnLink (coreRouter a.core) (unitRouter 1))] ≠ none → (∃ i ∈ dataBytes (s.awMode w) (s.awType w), i < off % 256 ∨ off % 256 + a.size ≤ i) →
        Answers s .awContribution fun t => (∃ z ∈ t.ul.parts, mine z ∧ ∀ i, i < a.size → Tbl.find? z.bytes (off % 256 + i) = some (BitVec.ofNat 8 (x.x / 256 ^ i))) ∧
          (∃ a', Tbl.find? t.accs id = some a' ∧ a'.stage = 1) ∧ t.mem = s.mem) ∧
      (512 ≤ s.slotsUsed (s.awPort w) → s.spillPages w = 0 → exec .awContribution s = .next
        (({ s with accs := Tbl.put s.accs id { a with stamp := 1 } } : State).push .awContribution [id]))) ∧
    (s.arg 0 = w → s.arg 1 = header → s.arg 2 = payload → s.arg 3 = bad → s.arg 4 = y →
      let acked (t : State) : Prop := t.ul.acks = if y = 0 then s.ul.acks else s.ul.acks ++ [(y - 1, header)]
      (s.takesSegment w header = none → Answers s .segmentReceive fun t => acked t ∧
        (y = 0 → t = s.errRec 5 (s.awPort w) 5 (header / 2 ^ 240) 0 0 1 (header / 2 ^ 64 % 2 ^ 64))) ∧
      (s.takesSegment w header = some r →
        let i := segmentOf r header payload bad
        let b := s.bucket r i.tag
        s.awHalted r = false → (i.round + 256 - b.round) % 256 < 128 →
        (s.ul.seen.contains i.range = true → Answers s .segmentReceive fun t => acked t ∧ t.hub = (s.awCount r 55 40).hub ∧ t.ul.inputs = s.ul.inputs ∧ t.mem = s.mem) ∧
        (s.ul.seen.contains i.range = false → b.spilled = false → s.slotsUsed (s.awPort r) < 512 → Answers s .segmentReceive fun t => acked t ∧
          Tbl.find? t.ul.inputs s.nextId = some i ∧ i.range ∈ t.ul.seen ∧ t.mem = s.mem ∧
          (i.round = b.round → i.seg ∉ b.begun → Due.mk .handlerStart [r, i.tag, i.seg] ∈ t.agenda)) ∧
        (s.ul.seen.contains i.range = false → 512 ≤ s.slotsUsed (s.awPort r) → s.spillPages r = 0 →
          exec .segmentReceive s = .next (if y = 0 then s.push .segmentReceive s.ev else s)))) ∧
    (s.ev = [w, tag, seg] →
      (on → s.awHalted w = false → seg ∉ (s.bucket w tag).begun → s.groupLive w tag (s.bucket w tag).round seg = false →
        (∃ i ∈ Tbl.vals s.ul.inputs, waiting i) →
        (List.filter (fun (e : Nat × Handler) => s.awPort e.2.win == s.awPort w) s.ul.handlers).length < 64 → Answers s .handlerStart fun t =>
          seg ∈ (t.bucket w tag).begun ∧ t.mem = s.mem ∧ Tbl.find? t.ul.handlers s.nextId = some
            { win := w, tag := tag, seg := seg, round := (s.bucket w tag).round, pc := bitsAt (s.aw w 0) 43 32
              e := [(1, BitVec.ofNat 64 tag), (2, BitVec.ofNat 64 seg), (3, BitVec.ofNat 64 (s.bucket w tag).round), (4, BitVec.ofNat 64 w)] }) ∧
      (bitsAt (s.aw w 40) 31 0 ≠ 0 → s.spillPages w ≠ 0 → (s.bucket w tag).spilled = false →
        (∃ h ∈ Tbl.vals s.ul.handlers, h.win = w ∧ h.tag = tag ∧ h.seg = seg ∧ h.comb ≠ none ∧ h.since + bitsAt (s.aw w 40) 31 0 ≤ s.net.hubClock) →
        (Answers s .bucketSpill fun t => (t.bucket w tag).spilled = true) ∧
        ∀ i p, s.ul.inputs = [(id, i)] → i.win = w → i.tag = tag → i.spilled = none → i.bad = [] → s.ul.parts = [] → (∀ h ∈ Tbl.vals s.ul.handlers, h.part = none) →
          s.spillPlace w = some p → s.portPass [] (spanOf (s.spillPa w p) (32 + i.data.length)) ≠ none → s.shadows = [] → s.mem.wf = true →
          Answers s .bucketSpill fun t => t.ul.inputs = [(id, { i with data := [], spilled := some p })] ∧
            ∀ z, z < i.data.length → Mem.rd t.mem (s.spillPa w p + 32 + z) = i.data.getD z 0)) ∧
    (s.ev = [id] → Tbl.find? s.ul.sent id = some ue →
      (s.net.hubClock < ue.since + s.ueTimeout ue.port → exec .ueRetransmit s = .next s) ∧
      (ue.since + s.ueTimeout ue.port ≤ s.net.hubClock → Answers s .ueRetransmit fun t =>
        Tbl.find? t.ul.sent id = some { ue with tries := ue.tries + 1, since := s.net.hubClock } ∧ t.mem = s.mem)) ∧
    (s.ev = [id, 1] → Tbl.find? s.ul.sent id = some ue → Answers s .ueRetransmit fun t => t.ul.sent = Tbl.del s.ul.sent id ∧ t.mem = s.mem) ∧
    (s.ev = l :: q :: n :: ops →
      (k.width = 0 ∨ k.retrain ≠ none → exec .fabricPacketReceive s = .next s) ∧
      (k.width ≠ 0 → k.retrain = none →
        (q % 65536 ≠ k.expected → Answers s .fabricPacketReceive fun t => t.mem = s.mem ∧ t.agenda = s.agenda ∧
          k' t = { k with wire := k.wire ++ [.ack ((k.expected + 65535) % 65536) ((q % 65536 + 65536 - k.expected) % 65536 < 32768)] }) ∧
        (q % 65536 = k.expected →
          let got : Link := { k with expected := (k.expected + 1) % 65536, wire := k.wire ++ [.ack (q % 65536) false] }
          (n = 0 → (∀ o ∈ accessOps 128 ops, o.getD 3 0 / 2 ^ 38 ≠ 1) → Answers s .fabricPacketReceive fun t =>
            k' t = got ∧ (∀ o ∈ accessOps 128 ops, Due.mk .peerAccessReceive (o ++ [l]) ∈ t.agenda) ∧ t.mem = s.mem) ∧
          (n ≠ 0 → ops = [id, d, y] → exec .fabricPacketReceive s = .next ((s.onLink l fun _ => got).peerAnswer id d y))))) ∧
    (s.ev = [l, q, y] →
      (k.width = 0 ∨ k.retrain ≠ none → exec .fabricAck s = .next s) ∧
      (k.width ≠ 0 → k.retrain = none → q < 65536 → ∀ pre pk post, k.unacked = pre ++ pk :: post → pk.seq = q → (∀ e ∈ pre, e.seq ≠ q) → Answers s .fabricAck fun t =>
        (y = 0 → k' t = { k with lastAck := q, unacked := post } ∧ t.mem = s.mem) ∧
        (y ≠ 0 → k' t = { k with lastAck := q, unacked := post, replays := (k.replays + 1) % 65536, wire := k.wire ++ post.map fun e => .packet e.seq }))) ∧
    (s.ev = [l, lane] → lane < 16 → lane ∉ k.badLanes → k.retrain = none →
      let lost := insNat k.badLanes lane
      (lane ∉ k.lanes → Answers s .laneFailure fun t => k' t = { k with badLanes := lost } ∧ t.mem = s.mem) ∧
      (lane ∈ k.lanes → (0 < min k.width (widest lost) → Answers s .laneFailure fun t => retrains t lost (min k.width (widest lost))) ∧
        (min k.width (widest lost) = 0 → Answers s .laneFailure fun t => k' t = { k with badLanes := lost, width := 0 }))) ∧
    (s.ev = [l] → k.retrain = some n → Answers s .linkRetrainDone fun t => k' t =
      if k.unacked = [] ∧ k.width ≤ n then { k with width := n, retrain := none }
      else { k with width := n, retrain := none, replays := (k.replays + 1) % 65536, wire := k.wire ++ k.unacked.map fun e => .packet e.seq }) ∧
    (s.ev = [l, v] → l < 32 → v / 2 ^ 63 % 2 = 1 → widest k.badLanes ≠ 0 → Answers s .flctlRetrain fun t => retrains t k.badLanes (widest k.badLanes)) ∧
    (s.ev = [id] → Tbl.find? s.peers id = some p → s.peerCut p.peer = true → p.since = some n → n + 0x100000 ≤ s.net.hubClock → p.peer < 32 →
      let cut (t : State) : Prop := (t.hubReg (0x580000 + 8 * p.peer)).getLsbD 0 = false ∧ t.peers = Tbl.del s.peers id
      (p.kind = .load → Answers s .peerAccessTimeout fun t => cut t ∧ t.accs = Tbl.del s.accs p.access ∧ t.mem = s.mem) ∧
      (p.kind = .store → Tbl.find? s.launches p.launch = some ln → Answers s .peerAccessTimeout fun t => cut t ∧
        ∃ ln', Tbl.find? t.launches p.launch = some ln' ∧ ln'.nerr = ln.nerr + 1 ∧
          (ln.nerr = 0 → ln'.err0 = 6 * 2 ^ 40 + p.stage * 2 ^ 32 + p.core * 2 ^ 24 + p.slot * 2 ^ 16))) ∧
    (s.ev = [kind, op, ty, off, size, d, y, name, l] →
      let replies (t : State) (v : Nat) (err : Bool) : Prop := k' t = { k with port := k.port ++ [.reply { what := name, value := v, err := err }] }
      (peerKind kind op ty = none ∨ peerTarget off = none → Answers s .peerAccessReceive fun t => replies t 0 true ∧ t.mem = s.mem) ∧
      (peerTarget off = some pa → isHomed pa = true → s.shadows = [] →
        (kind = 0 → (s.peerReady .load pa size = false → exec .peerAccessReceive s = .next (s.push .peerAccessReceive s.ev)) ∧
          (s.peerReady .load pa size = true → s.poisoned pa size = false → Answers s .peerAccessReceive fun t => replies t (s.peekN pa size) false ∧ t.mem = s.mem)) ∧
        (kind = 1 → (s.peerReady .store pa size = false → exec .peerAccessReceive s = .next (s.push .peerAccessReceive s.ev)) ∧
          (s.peerReady .store pa size = true → s.mem.wf = true → Answers s .peerAccessReceive fun t => replies t 0 false ∧ ∀ z,
            Mem.rd t.mem z = if pa ≤ z ∧ z < pa + size then BitVec.ofNat 8 (d / 256 ^ (z - pa)) else Mem.rd s.mem z))))

/-- R396, R397, R402 to R407, R413 to R417: the rows of reliability. The error ring is set up; a unit that has corrected errors writes one record, or the record
is dropped and counted; scrubbing is counted in its budget; an error that is not corrected poisons its granule, its element or its register, or ends its cohort; a core is held, tested
and released by the scan controller, whose test answers a free value (log entry 2); each lane that mismatches in a known-answer operation is suspect, and one that
does so again turns grey; and a stack takes checkpoints into its area, which end once its cohorts are back, leaves checkpoint mode, and comes back from a warm reset
core by core. -/
def Obligations.ReliabilityRowResults : Prop :=
  ∀ (s u : State) (v cls ix n fix a st line c p k y pa : Nat) (h : Cohort) (ln : Launch) (bl : Block),
    let set (row : Instr) (f : Nat → Option DWord) : Prop := Answers s row fun t => t.mem = s.mem ∧ ∀ z, t.hubReg z = (f z).getD (s.hubReg z)
    let ring : Prop := (s.hubReg 0x600000).getLsbD 63 = true
    let bits : DWord := BitVec.ofNat 64 v
    let counted (t : State) (key m : Nat) : Prop :=
      ∃ z, Tbl.find? t.corrected key = some z ∧ z.2 = (Tbl.at s.corrected key (0, 0)).2 + m
    let dropped (t : State) : Prop := t.hubReg 0x600020 = BitVec.ofNat 64 (((s.hubReg 0x600020).toNat + 1) % 2 ^ 32)
    let plain : Prop := s.shadows = [] ∧ s.mem.wf = true
    let x := Tbl.at s.stackTbl st {}
    let x' (t : State) : StackSt := Tbl.at t.stackTbl st {}
    (s.ev = [v] → (ring → exec .errRingEnable s = .next s ∧ exec .errcfgWrite s = .next s) ∧
      (¬ ring → set .errRingEnable (fun z => if z = 0x600000 then some (bits &&& 0x000fffffffffffc0 ||| 0x8000000000000000)
        else if z = 0x600010 ∨ z = 0x600018 ∨ z = 0x600020 then some 0 else none) ∧
        (v % 16 < 10 → set .errcfgWrite fun z => if z = 0x600008 then some (BitVec.ofNat 64 (v % 16)) else none)) ∧
      set .errRingDisable fun z => if z = 0x600000 then some (s.hubReg 0x600000 &&& 0x7fffffffffffffff) else none) ∧
    (s.ev = [cls, ix] → Tbl.find? s.corrected (cls * 4096 + ix) = some (fix, n) →
      (¬ ring → Answers s .errCorrectionPeriod fun t => t.corrected = Tbl.del s.corrected (cls * 4096 + ix) ∧ dropped t ∧ t.mem = s.mem) ∧
      (ring → plain →
        let size := 2 ^ (6 + bitsAt (s.hubReg 0x600008) 3 0)
        let head := (s.hubReg 0x600010).toNat % 2 ^ 32
        let z := (s.hubReg 0x600000).toNat % 2 ^ 52 / 64 * 64 + 32 * (head % size)
        (head + 2 ^ 32 - (s.hubReg 0x600018).toNat % 2 ^ 32) % 2 ^ 32 ≠ size → isHomed z = true → Answers s .errCorrectionPeriod fun t =>
          t.corrected = Tbl.del s.corrected (cls * 4096 + ix) ∧ t.hubReg 0x600010 = BitVec.ofNat 64 ((head + 1) % 2 ^ 32) ∧
          Mem.rdN t.mem z 8 = head * 2 ^ 32 + cls % 16 * 2 ^ 28 + ix % 4096 * 2 ^ 16 + 1 * 256 + fix % 256 ∧ Mem.rdN t.mem (z + 16) 8 = n % 2 ^ 32)) ∧
    (s.ev = [line, n] → isHomed (line * 128) = true → n ≠ 0 →
      let unit := errClass 0 (homeOf (line * 128)) (line * 128)
      (s.fsPass 1 [ctlArbiter line] = none → exec .scrubLine s = .next (s.push .scrubLine s.ev)) ∧
      (s.fsPass 1 [ctlArbiter line] ≠ none → Answers s .scrubLine fun t => counted t (unit * 4096 + homeOf (line * 128)) n ∧ t.mem = s.mem)) ∧
    (s.ev = [y, ix, a, fix] → (fix ≠ 0 → Answers s .uncorrectableError fun t => counted t (errClass y ix a * 4096 + ix % 256) 1 ∧ t.mem = s.mem) ∧
      (fix = 0 → ¬ ring →
        (y < 2 → isHomed a = true → Answers s .uncorrectableError fun t => a / 16 ∈ t.poison ∧ dropped t ∧ t.mem = s.mem) ∧
        (y = 4 → (∃ o, regionOf a = .core c .acc o) → Answers s .uncorrectableError fun t => a / 4 ∈ t.accPoison ∧ dropped t ∧ t.mem = s.mem) ∧
        (y = 5 → s.cohort? ix (a / 8192) = some h → h.absent = [] → Answers s .uncorrectableError fun t => ∃ h', t.cohort? ix (a / 8192) = some h' ∧
          inMask (h'.vreg (a / 32 % 256)).poison (a % 32) = true ∧ (∀ i, h'.lane (a / 32 % 256) i = h.lane (a / 32 % 256) i) ∧ t.mem = s.mem) ∧
        (y = 6 → s.cohort? ix a = some h → h.ending = false → h.late = [] → s.block? ix h.slot = some bl → Tbl.find? s.launches h.launch = some ln →
          Answers s .uncorrectableError fun t => (∃ ln', Tbl.find? t.launches h.launch = some ln' ∧ ln'.nerr = ln.nerr + 1) ∧
            ∃ bl', t.block? ix h.slot = some bl' ∧ h.cohortid ∉ bl'.live) ∧
        (y = 8 → Answers s .uncorrectableError fun t => a ∈ t.ul.badWords ∧ t.mem = s.mem) ∧
        (y = 10 → ix < 256 → Answers s .uncorrectableError fun t => Tbl.find? t.links ix = some (Tbl.at s.links ix {}).replay ∧ dropped t ∧ t.mem = s.mem) ∧
        (y = 10 → 256 ≤ ix → Answers s .uncorrectableError fun t => counted t (7 * 4096 + ix % 256) 1 ∧ t.ul = s.ul ∧ t.mem = s.mem))) ∧
    (s.ev = [v] → (s.scan.stage ≠ 0 ∨ v / 2 ^ 60 % 16 ≠ 1 → exec .scanApply s = .next s) ∧
      (s.scan.stage = 0 → v / 2 ^ 60 % 16 = 1 → s.shadows = [] → c = v / 2 ^ 52 % 256 → pa = v / 64 % 2 ^ 46 * 64 →
        u = (s.setHub 0x680000 (bits &&& 0xffffffffffffffc0)).scanStat true 0 c → Answers s .scanApply fun t => t.mem = s.mem ∧ match u.packageBad pa c with
          | some r => t.scan.stage = 2 ∧ t.scan.result = r ∧ Due.mk .scanComplete [] ∈ t.agenda ∧ t.cores = s.cores
          | none => t.scan.stage = 1 ∧ t.scan.core = c ∧ (t.core c).held = true ∧ Due.mk .scanTest [] ∈ t.agenda)) ∧
    (s.scan.stage = 1 → (s.core s.scan.core).blocks = [] → (∀ z ∈ linesOf s.scanLines, s.readReady z = true) →
      (s.fsLines 2 none s.scanLines = none → exec .scanTest s = .next (s.pushOnce .scanTest [])) ∧
      (s.fsLines 2 none s.scanLines ≠ none → Answers s .scanTest fun t =>
        let pass := (Config.freeValue s.freeCount).getLsbD 0
        t.scan.stage = 2 ∧ t.scan.result = (if pass then 0 else 1) ∧ t.scan.vectors = s.peekN (s.scan.package + 0x14) 4 ∧
          (t.core s.scan.core).held = !pass ∧ Due.mk .scanComplete [] ∈ t.agenda ∧ t.mem = s.mem)) ∧
    (s.scan.stage = 2 → ¬ ring → plain → a = (s.hubReg 0x680008).toNat % 2 ^ 52 / 8 * 8 → isHomed a = true → Answers s .scanComplete fun t =>
      t.scan.stage = 0 ∧ t.hubReg 0x680018 = BitVec.ofNat 64 (s.scan.result * 256 + s.scan.core) ∧ Mem.rdN t.mem a 8 = (s.hubReg 0x680010).toNat % 2 ^ 32) ∧
    (s.ev = [c, p, v] → (s.core c).homed p = [k] → s.cohort? c k = some h → (s.ctx h.asid 0).getLsbD 1 = true → ¬ ring →
      let bad : Mask := BitVec.ofNat 32 v
      let old : Mask := Tbl.at (s.core c).suspect p 0
      let l := lowestLane old
      let rest : Mask := old &&& ~~~(1#32 <<< l)
      (old = 0 →
        (bad = 0 → Answers s .katInject fun t => (t.core c).suspect = Tbl.del (s.core c).suspect p ∧ t.hub = s.hub ∧ t.mem = s.mem) ∧
        (bad ≠ 0 → Answers s .katInject fun t => Tbl.find? (t.core c).suspect p = some bad ∧ t.mem = s.mem ∧
          t.hubReg 0x600020 = BitVec.ofNat 64 (((s.hubReg 0x600020).toNat + (lanesOf bad).length) % 2 ^ 32))) ∧
      (old ≠ 0 →
        (bad.getLsbD l = false → Answers s .katInject fun t => (t.core c).suspect =
          (if rest = 0 then Tbl.del (s.core c).suspect p else Tbl.put (s.core c).suspect p rest) ∧ (t.core c).held = (s.core c).held ∧ t.mem = s.mem) ∧
        (bad.getLsbD l = true → h.alive.getLsbD l = true → h.alive &&& ~~~(1#32 <<< l) ≠ 0 → Answers s .katInject fun t =>
          (t.core c).held = true ∧ ∃ h', t.cohort? c k = some h' ∧ h'.dmask = h.dmask ||| 1#32 <<< l))) ∧
    (s.ev = [st] → st < 8 →
      let fits : Prop := s.areaOk st = true ∧ ckptSize (s.covered st) ≤ s.stkReg st 16 % 2 ^ 32 * 4096
      let begins (t : State) (mode forced : Bool) : Prop := (x' t).step = 1 ∧ (x' t).mode = mode ∧ (x' t).forced = forced ∧ t.mem = s.mem ∧
        Due.mk .checkpointQuiet [st] ∈ t.agenda ∧ ∀ e ∈ s.covered st, ∀ k h, s.cohort? e.1.1 k = some h → h.slot = e.1.2 → h.ending = false →
          t.cohort? e.1.1 k = some { h with frozen := insNat h.frozen st, back := insNat h.back st, leaving := true, auto := true }
      let out : Prop := ∃ co ∈ Tbl.vals s.cores, ∃ h ∈ co.away, st ∈ h.back
      let ends (t : State) : Prop := (out → (x' t).step = 3 ∧ Due.mk .checkpointQuiet [st] ∈ t.agenda) ∧ (¬ out → (x' t).step = 0) ∧
        ∀ co ∈ Tbl.vals s.cores, ∀ h ∈ co.away, h.back ≠ [] → remNat h.frozen st = [] → Due.mk .cohortRestore [h.uid] ∈ t.agenda
      let fails (row : Instr) (n : Nat) : Prop := Answers s row fun t => ends t ∧ (x' t).result = n ∧ (x' t).saved = x.saved ∧ t.mem = s.mem
      (x.step ≠ 0 → ∀ i ∈ [Instr.stkEnterCheckpoint, .stkTakeCheckpoint, .stkLeaveCheckpoint, .stkWarmResetRestore, .stkWarmResetNoRestore], exec i s = .next s) ∧
      (x.step = 0 →
        (fits → Answers s .stkEnterCheckpoint (begins · true false) ∧ Answers s .stkTakeCheckpoint (begins · x.mode false) ∧
          (x.mode = true → x.packets ≠ [] → Answers s .msgLogOverflow (begins · true true))) ∧
        (x.packets = [] → s.areaOk st = false → fails .stkEnterCheckpoint 2 ∧ fails .stkTakeCheckpoint 2) ∧
        (x.packets = [] → s.areaOk st = true → ¬ fits → fails .stkEnterCheckpoint 1 ∧ fails .stkTakeCheckpoint 1) ∧
        (Answers s .stkLeaveCheckpoint fun t => (x' t).mode = false ∧ (x' t).heldComps = [] ∧ (∀ d ∈ x.heldComps, d ∈ t.agenda) ∧ t.mem = s.mem) ∧
        ((∀ e ∈ s.placedBlocks, e.1.1 / 32 ≠ st) →
          let down (t : State) (step : Nat) : Prop := (x' t).step = step ∧ (x' t).up = 0 ∧ (x' t).incarn = (x.incarn + 1) % 65536 ∧
            Due.mk .kilnRampStep [st] ∈ t.agenda ∧
            ∀ a, Mem.rd t.mem a = if coreBase (32 * st) ≤ a ∧ a < coreBase (32 * st + 32) then 0 else Mem.rd s.mem a
          let empty (row : Instr) (n : Nat) : Prop := Answers s row fun t => down t 5 ∧ (x' t).saved = none ∧ (x' t).result = n
          (x.saved = none → empty .stkWarmResetRestore 3) ∧ empty .stkWarmResetNoRestore 0 ∧
          (x.saved ≠ none → Answers s .stkWarmResetRestore fun t => down t 4 ∧ (x' t).saved = x.saved ∧ (x' t).result = 0))) ∧
      (4 ≤ x.step → x.up < (s.stackCores st).length → Answers s .kilnRampStep fun t =>
        (x' t).up = x.up + 1 ∧ (x' t).step = x.step ∧ Due.mk .kilnRampStep [st] ∈ t.agenda ∧ t.mem = s.mem) ∧
      (x.step = 5 → (s.stackCores st).length ≤ x.up → x.mode = false → Answers s .kilnRampStep fun t => (x' t).step = 0 ∧ ∀ d ∈ x.packets, d ∈ t.agenda) ∧
      (x.step = 1 → (∀ e ∈ s.covered st, e.2.started = true ∧ ∀ h ∈ Tbl.vals (s.core e.1.1).cohorts, h.slot ≠ e.1.2) → Answers s .checkpointQuiet fun t =>
        (x' t).step = 2 ∧ (x' t).since = s.net.hubClock ∧ Due.mk .checkpointQuiet [st] ∈ t.agenda) ∧
      (x.step = 3 → x.packets = [] → (out → exec .checkpointQuiet s = .next (s.push .checkpointQuiet [st])) ∧
        (¬ out → Answers s .checkpointQuiet fun t => (x' t).step = 0 ∧ t.mem = s.mem)) ∧
      (x.step = 2 → x.packets = [] →
        ((∀ e ∈ s.covered st, s.mayEvict e.1.1 e.1.2 e.2 = true) → Answers s .checkpointQuiet fun t => ends t ∧ (x' t).result = 0 ∧ (x' t).log = [] ∧
          (x' t).taken = (x.taken + 1) % 65536 ∧ (∃ z, (x' t).saved = some z ∧ z.blocks.map (fun b => (b.core, b.slot)) = (s.covered st).map Prod.fst) ∧
          (∀ d ∈ x.heldComps, d ∈ t.agenda) ∧ (plain → ∀ e rest, s.covered st = e :: rest → ∀ i, i < e.2.size →
            Mem.rd t.mem (s.ckptArea st + i) = Mem.rd s.mem (coreBase e.1.1 + e.2.base + i))) ∧
        (x.since + 2 ^ 24 ≤ s.net.hubClock → x.forced = false → fails .checkpointTimeout 4)))

/-- R287, R385, R386, R406, R408 to R411, R422 to R428: the rows of power and boot, and the answers over SPDM. Power-good starts the ROM; islands come up in their order; each stage of boot checks what it
starts, and stops with its failure where no copy passes; the root of trust raises the test floor, and takes what service software writes into the copy of
the map not in use and signs it if it is the newer; the responder answers as the stage allows; a
loss of power leaves the fuses, the flash and what is outside; and the governor and the power limit set the steps of the cores. Verdicts, digests, the map and the
estimate are constants without a value (log entries 5, 6 and 9), the codes are those of SPDM 1.3 (log entry 42), and the ports that come up in the ramp are log
entry 6's. -/
def Obligations.BootRowResults : Prop :=
  ∀ (s : State) (c x a : Nat),
    let b := s.boot
    let shows (t : State) (stage failure : Nat) : Prop := t.hubReg 0x720000 = BitVec.ofNat 64 (stage * 2 ^ 56 + failure * 2 ^ 48)
    let fails (t : State) (failure : Nat) : Prop := t.boot.halted = true ∧ t.boot.stage = b.stage ∧ shows t b.stage failure
    let replies (row : Instr) (code value : Nat) : Prop := Answers s row fun t =>
      t.spdm = (if b.stage = 0 then s.spdm else if b.stage < 3 then s.spdm ++ [{ what := 0x7f, value := 3 }] else s.spdm ++ [{ what := code, value := value }]) ∧
        t.mem = s.mem
    (b.stage ≠ 0 → exec .powerGood s = .next s) ∧
    (b.stage = 0 → Answers s .powerGood fun t => t.boot.stage = 1 ∧ t.boot.identity = some identityKey ∧ t.boot.islands = 1 ∧ shows t 1 0 ∧
      Tbl.find? t.boot.measured 1 = some (Config.digest 1 0) ∧ Due.mk .kilnRampStep [] ∈ t.agenda ∧ Due.mk .bootLoader [] ∈ t.agenda) ∧
    (s.ev = [] → b.stage = 0 ∨ (32 ≤ b.islands ∧ b.stage < 3) → exec .kilnRampStep s = .next s) ∧
    (s.ev = [] → b.stage ≠ 0 → b.islands < 32 ∨ 3 ≤ b.stage → s.rampOrder[b.islands]? = some x → Answers s .kilnRampStep fun t =>
      t.boot.islands = b.islands + 1 ∧ Due.mk .kilnRampStep [] ∈ t.agenda ∧ t.mem = s.mem ∧ (x < 256 → t.core x = {}) ∧
        (292 ≤ x → (t.hubReg (0x480000 + 8 * (x - 292))).getLsbD 63 = true) ∧ (288 ≤ x → x < 292 → ∀ l, l < 8 →
          t.linkLanes (8 * (x - 288) + l) = 16)) ∧
    (b.stage = 1 → b.halted = false → Answers s .bootLoader fun t => t.mem = s.mem ∧ match goodCopy 1 with
      | none => fails t 1
      | some i => t.boot.stage = 2 ∧ shows t 2 0 ∧ Tbl.find? t.boot.measured 2 = some (Config.digest 2 i) ∧ Due.mk .bootOs [] ∈ t.agenda) ∧
    (b.stage = 2 → b.halted = false → (b.islands < 32 → exec .bootOs s = .next (s.push .bootOs [])) ∧
      (32 ≤ b.islands → Answers s .bootOs fun t => t.mem = s.mem ∧ match s.mapCopy with
        | none => fails t 3
        | some m => (∀ k, k < 256 → t.present k = (b.mapEntry m k).getLsbD 63) ∧ (∀ k, k < 128 → t.pairOk k = b.pairAdjacent m k) ∧ match goodCopy 2 with
          | none => fails t 2
          | some i => t.boot.stage = 3 ∧ shows t 3 0 ∧ Tbl.find? t.boot.measured 3 = some (Config.digest 3 i) ∧ Due.mk .bootFirmware [] ∈ t.agenda)) ∧
    (b.stage = 3 → b.halted = false → Answers s .bootFirmware fun t => t.mem = s.mem ∧ match goodCopy 3 with
      | none => fails t 4
      | some i => t.boot.stage = 4 ∧ shows t 4 0 ∧ Tbl.find? t.boot.measured 4 = some (Config.digest 4 i) ∧
        Tbl.find? t.boot.measured 5 = some (b.mapDigest b.mapCopy) ∧ Tbl.find? t.boot.measured 6 = some (Config.sha3 (s.hubReg 0x720010).toNat) ∧
        Due.mk .bootFirmware [] ∈ t.agenda) ∧
    (b.stage = 4 → b.halted = false → Answers s .bootFirmware fun t => t.mem = s.mem ∧ t.boot.stage = 5 ∧ shows t 5 0 ∧
      (∀ n, n < 4096 → Tbl.find? t.ul.prog n = some (Config.uliahProgram n)) ∧
      ∀ cls ∈ [1, 2], (t.hubReg (0x1000 + 0x40 * cls)).toNat / 2 ^ 32 = (Config.refreshFloor cls).toNat) ∧
    (s.scan.passed = 0 → exec .rtRaiseTestFloor s = .next s) ∧
    (s.scan.passed ≠ 0 → Answers s .rtRaiseTestFloor fun t => t.hubReg 0x720010 = BitVec.ofNat 64 s.scan.passed ∧ t.mem = s.mem) ∧
    (let n := 1 - b.mapCopy
     let higher (t : State) : Prop := t.boot.mapGeneration b.mapCopy < t.boot.mapGeneration n
     (s.ev = [] → Answers s .rtSignBindingMap fun t => (t.hubReg 0x720008).getLsbD 32 = t.boot.mapValid n ∧ t.mem = s.mem ∧
       (∀ k i, t.boot.mapWord k i = b.mapWord k i) ∧ (n ∈ t.boot.signed ↔ higher t ∨ n ∈ b.signed)) ∧
     (s.ev = [x, a] → x < 512 → Answers s .rtSignBindingMap fun t => (t.hubReg 0x720008).getLsbD 32 = t.boot.mapValid n ∧ t.mem = s.mem ∧
       t.boot.mapWord n x = BitVec.ofNat 64 a ∧ (∀ i, i < 512 → i ≠ x → t.boot.mapWord n i = b.mapWord n i) ∧ (n ∈ t.boot.signed ↔ higher t))) ∧
    (replies .spdmGetVersion 0x04 0x13 ∧ replies .spdmGetCapabilities 0x61 (Config.freeValue s.freeCount).toNat ∧
      replies .spdmGetDigests 0x01 (Config.sha3 (Config.certificate 0)) ∧ replies .spdmGetCertificate 0x02 (Config.certificate 0) ∧
      replies .spdmGetMeasurements 0x60 s.measurements ∧ replies .spdmUnsupportedRequest 0x7f 0x07) ∧
    (s.ev = [a] → replies .spdmNegotiateAlgorithms 0x63 (a &&& 0x80000000020) ∧ replies .spdmChallenge 0x03 (Config.signature a)) ∧
    (Answers s .powerLoss fun t => t.boot.stage = 0 ∧ t.cores = State.reset.cores ∧ t.launches = State.reset.launches ∧ (∀ a, Mem.rd t.mem a = Mem.blank) ∧
      t.hostMem = s.hostMem ∧ t.boot.signed = b.signed ∧ t.boot.flash = b.flash ∧ Tbl.find? t.hub 0x720010 = Tbl.find? s.hub 0x720010 ∧ ∀ a, a ≠ 0x720010 → Tbl.find? t.hub a = none) ∧
    (s.ev = [c] → Answers s .governorWindow fun t => t.core c = { s.core c with
        govStep := if b.capped then 0 else min 3 (8 * (s.core c).gated / 524288), gated := 0 } ∧ t.mem = s.mem) ∧
    (let est := (Config.powerEstimate (s.net.hubClock / 65536)).toNat
     let cap := (s.hubReg 0x720100).toNat % 2 ^ 16
     let n := bitsAt (s.hubReg 0x720108) 39 32
     let n' := if cap < est then (if !b.capped then n else if n = 0 then 16 else max 2 (n / 2)) else if est * 10 < cap * 9 then (if 8 < n then 0 else 2 * n) else n
     Answers s .powerEstimate fun t => t.boot.capped = decide (cap < est) ∧ t.hubReg 0x720108 = BitVec.ofNat 64 (n' * 2 ^ 32 + est) ∧ t.mem = s.mem ∧
       (cap < est → ∀ k, Tbl.has s.cores k = true → (t.core k).govStep = 0))

/-- R51 to R68, R360, R361: decoding an encoded well-formed instruction gives it back, with every operand at every value that its format admits, whatever bytes
follow it. -/
def Obligations.DecodeEncode : Prop :=
  ∀ (i : Instr) (rest : List Byte), i.wf = true →
    (i.size = 2 ∨ (i.size = 4 ∧ i.isUliah = false) →
      encode i < 256 ^ i.size ∧ decode (wordBytes i.size (encode i) ++ rest) = .ok (i, i.size)) ∧
    (i.isUliah = true → encode i < 2 ^ 32 ∧ decodeUliah (encode i) = some i)

/-- R51 to R68, R360, R361: a word that decodes is the encoding of its instruction, so that none of its bits is passed over and no word with a reserved bit or value
set is an instruction. -/
def Obligations.EncodeDecode : Prop :=
  ∀ (w : Nat) (i : Instr),
    (w < 2 ^ 16 → w % 2 = 0 → decodeHalf w = .ok i → i.size = 2 ∧ encode i = w) ∧
    (w < 2 ^ 32 → w % 2 = 1 → decodeWord w = .ok i → i.size = 4 ∧ encode i = w) ∧
    (w < 2 ^ 32 → decodeUliah w = some i → i.isUliah = true ∧ encode i = w)

/-- Words that the spec writes out beside their assembly, of different formats, decode to those instructions (R51 to R68, R361). -/
def Obligations.DecodedWords : Prop :=
  decode (wordBytes 2 0x48a2) = .ok (.iadd16 9 5, 2) ∧
  decode (wordBytes 4 0xe3842599) = .ok (.ffma { q := 1, b := 7, a := 2, d := 4, g := 11 }, 4) ∧
  decode (wordBytes 4 0x210c4043) = .ok (.ld32 { o := 4, r := 0, u := 2, a := 6, d := 8, g := 0 }, 4) ∧
  decode (wordBytes 4 0xffffd03d) = .ok (.bra 0x1ffffa 0, 4) ∧
  decode (wordBytes 4 0x000003c1) = .ok (.nop, 4) ∧
  decode (wordBytes 4 0x29082b51) = .ok (.mwait { w := 0, c := 5, p := 2, a := 4, v := 5 }, 4) ∧
  decode (wordBytes 4 0xed28804d) = .ok (.cas { s := 3, t := 2, a := 20, d := 16, g := 0 }, 4) ∧
  decode (wordBytes 4 0xb20a36d9) = .ok (.tcvt { t := 36, a := 5, d := 6, s := 1, r := 5 }, 4) ∧
  decode (wordBytes 4 0x2102205b) = .ok (.mmp { b := 2, a := 1, d := 4 }, 4) ∧
  decode (wordBytes 4 0xacf122b9) = .ok (.qlui 0x16789 5, 4) ∧
  decodeUliah 0x5b010002 = some (.ubr { a := 6, b := 0, c := 1, o := 2 }) ∧
  decodeUliah 0x782b0000 = some (.ucomb 5 6)

/-- R49, R210, R211, R356, R359: a step runs the decoded instruction. With no picks and nothing due the units take their turns (log entry 1): a unit's cycle counts its core's
clock and its gated lanes, picks a split, moves its counters, and the step is what the instruction does that the bytes at the split's address decode to. The hub's
unit runs the word of the handler of the next port that has one, among the ports whose turn this hub-clock cycle still is, and a row that is due runs by itself. -/
def Obligations.StepRunsDecoded : Prop :=
  ∀ (s t u : State) (c k i n p id : Nat) (h : Cohort) (sp : Split) (b : List Byte) (x : Instr) (d : Due) (r : List Due) (y : Handler),
    (s.picks = [] → s.agenda = [] →
      let z : State := { s with turn := s.turn / 2 * 2 + 2 }
      let v := s.turn / 2 % (8 * s.cores.length + 1)
      let uni := v / 4 % 2 == 1
      ((Tbl.keys s.cores)[v / 8]? = some c → (if v % 4 = 0 && !uni then z.tickCore c else z).pick c (v % 4) uni = (some (k, i), t) →
        let t' := if uni then t else t.quadCycle c (v % 4)
        t'.cohort? c k = some h → h.split? i = some sp → t'.fetchAt c h.asid (t'.gangOf c h) sp.pc.toNat = (.bytes b, u) → decode b = .ok (x, n) →
          step s = exec x { u with cur := { core := c, slot := k, split := i, word := leNat b, len := n } }) ∧
      (let w := if z.ul.port = 0 then z.tickHub else z
       (Tbl.keys s.cores)[v / 8]? = none → w.nextHandler = some (p, id) → Tbl.find? w.ul.handlers id = some y →
        let t' : State := { w with ev := [id], ul := { w.ul with last := Tbl.put w.ul.last p id, port := (p + 1) % 32 } }
        (t'.ulFetch y).bind decodeUliah = some x → step s = exec x t')) ∧
    (s.picks = [] → s.agenda = d :: r → s.turn % 2 = 0 →
      step s = exec d.row { s with agenda := r, turn := s.turn + 1, ev := d.ops, cur := { core := 0x1000 } })

/-- Every step keeps the memory in its canonical form: addresses rising, and no byte listed that equals what an unlisted address reads as. The form is the model's
own. -/
def Obligations.MemoryStaysCanonical : Prop :=
  ∀ s t : State, s.mem.wf = true → step s = .next t → t.mem.wf = true

/-- R6, R17, R287, R386, R423, R427: the machine before power-good. Nothing is up, no launch and no context is live, every hub register has its reset value, and the
memory is canonical. That a byte of memory that nothing has written reads as zero is log entry 3. -/
def Obligations.ResetState : Prop :=
  let s := State.reset
  s.boot.stage = 0 ∧ s.cores = [] ∧ s.launches = [] ∧ s.waiting = [] ∧ s.agenda = [] ∧ (∀ a, a < 4096 → s.ctxValid a = false) ∧
    (s.hubReg 0).toNat / 2 ^ 16 = 0x940 ∧ (s.hubReg 0).toNat % 2 ^ 8 = 1 ∧
    (∀ cls act, cls < 4 → act < 8 → s.hubReg (0x1000 + 0x40 * cls + 8 * act) = 0x10000) ∧ s.hubReg 0x720100 = 4000 ∧
    s.mem.wf = true ∧ ∀ a, Mem.rd s.mem a = 0
end

