-- ==== Sys2Proof/Laws/Dispatch.lean ====
section
/-! SUPPORT. Each arm of `exec` as an equation. -/

namespace Sys2Proof.Machine

open Sys2Proof

theorem exec_mov16 {a} {b} {s} : exec (.mov16 a b) s = execMov16 a b s := rfl
theorem exec_iadd16 {a} {b} {s} : exec (.iadd16 a b) s = execIadd16 a b s := rfl
theorem exec_isub16 {a} {b} {s} : exec (.isub16 a b) s = execIsub16 a b s := rfl
theorem exec_imul16 {a} {b} {s} : exec (.imul16 a b) s = execImul16 a b s := rfl
theorem exec_and16 {a} {b} {s} : exec (.and16 a b) s = execAnd16 a b s := rfl
theorem exec_or16 {a} {b} {s} : exec (.or16 a b) s = execOr16 a b s := rfl
theorem exec_xor16 {a} {b} {s} : exec (.xor16 a b) s = execXor16 a b s := rfl
theorem exec_shli16 {a} {b} {s} : exec (.shli16 a b) s = execShli16 a b s := rfl
theorem exec_shri16 {a} {b} {s} : exec (.shri16 a b) s = execShri16 a b s := rfl
theorem exec_srai16 {a} {b} {s} : exec (.srai16 a b) s = execSrai16 a b s := rfl
theorem exec_addi16 {a} {b} {s} : exec (.addi16 a b) s = execAddi16 a b s := rfl
theorem exec_fadd16 {a} {b} {s} : exec (.fadd16 a b) s = execFadd16 a b s := rfl
theorem exec_fsub16 {a} {b} {s} : exec (.fsub16 a b) s = execFsub16 a b s := rfl
theorem exec_fmul16 {a} {b} {s} : exec (.fmul16 a b) s = execFmul16 a b s := rfl
theorem exec_fmin16 {a} {b} {s} : exec (.fmin16 a b) s = execFmin16 a b s := rfl
theorem exec_fmax16 {a} {b} {s} : exec (.fmax16 a b) s = execFmax16 a b s := rfl
theorem exec_iadd {a} {s} : exec (.iadd a) s = execIadd a s := rfl
theorem exec_isub {a} {s} : exec (.isub a) s = execIsub a s := rfl
theorem exec_imul {a} {s} : exec (.imul a) s = execImul a s := rfl
theorem exec_imulh {a} {s} : exec (.imulh a) s = execImulh a s := rfl
theorem exec_imulhn {a} {s} : exec (.imulhn a) s = execImulhn a s := rfl
theorem exec_imad {a} {s} : exec (.imad a) s = execImad a s := rfl
theorem exec_imin {a} {s} : exec (.imin a) s = execImin a s := rfl
theorem exec_imax {a} {s} : exec (.imax a) s = execImax a s := rfl
theorem exec_nmin {a} {s} : exec (.nmin a) s = execNmin a s := rfl
theorem exec_nmax {a} {s} : exec (.nmax a) s = execNmax a s := rfl
theorem exec_iabs {a} {s} : exec (.iabs a) s = execIabs a s := rfl
theorem exec_isad {a} {s} : exec (.isad a) s = execIsad a s := rfl
theorem exec_land {a} {s} : exec (.land a) s = execLand a s := rfl
theorem exec_lor {a} {s} : exec (.lor a) s = execLor a s := rfl
theorem exec_lxor {a} {s} : exec (.lxor a) s = execLxor a s := rfl
theorem exec_andn {a} {s} : exec (.andn a) s = execAndn a s := rfl
theorem exec_shl {a} {s} : exec (.shl a) s = execShl a s := rfl
theorem exec_shr {a} {s} : exec (.shr a) s = execShr a s := rfl
theorem exec_sra {a} {s} : exec (.sra a) s = execSra a s := rfl
theorem exec_rot {a} {s} : exec (.rot a) s = execRot a s := rfl
theorem exec_popc {a} {s} : exec (.popc a) s = execPopc a s := rfl
theorem exec_clz {a} {s} : exec (.clz a) s = execClz a s := rfl
theorem exec_brev {a} {s} : exec (.brev a) s = execBrev a s := rfl
theorem exec_bfx {a} {s} : exec (.bfx a) s = execBfx a s := rfl
theorem exec_mov {a} {s} : exec (.mov a) s = execMov a s := rfl
theorem exec_sel {a} {s} : exec (.sel a) s = execSel a s := rfl
theorem exec_bfi {a} {s} : exec (.bfi a) s = execBfi a s := rfl
theorem exec_iaddc {a} {s} : exec (.iaddc a) s = execIaddc a s := rfl
theorem exec_iaddi {a} {s} : exec (.iaddi a) s = execIaddi a s := rfl
theorem exec_imuli {a} {s} : exec (.imuli a) s = execImuli a s := rfl
theorem exec_andi {a} {s} : exec (.andi a) s = execAndi a s := rfl
theorem exec_ori {a} {s} : exec (.ori a) s = execOri a s := rfl
theorem exec_xori {a} {s} : exec (.xori a) s = execXori a s := rfl
theorem exec_isubri {a} {s} : exec (.isubri a) s = execIsubri a s := rfl
theorem exec_shli {a} {s} : exec (.shli a) s = execShli a s := rfl
theorem exec_shri {a} {s} : exec (.shri a) s = execShri a s := rfl
theorem exec_srai {a} {s} : exec (.srai a) s = execSrai a s := rfl
theorem exec_movi {a} {s} : exec (.movi a) s = execMovi a s := rfl
theorem exec_fadd {a} {s} : exec (.fadd a) s = execFadd a s := rfl
theorem exec_fsub {a} {s} : exec (.fsub a) s = execFsub a s := rfl
theorem exec_fmul {a} {s} : exec (.fmul a) s = execFmul a s := rfl
theorem exec_ffma {a} {s} : exec (.ffma a) s = execFfma a s := rfl
theorem exec_fmin {a} {s} : exec (.fmin a) s = execFmin a s := rfl
theorem exec_fmax {a} {s} : exec (.fmax a) s = execFmax a s := rfl
theorem exec_fminn {a} {s} : exec (.fminn a) s = execFminn a s := rfl
theorem exec_fmaxn {a} {s} : exec (.fmaxn a) s = execFmaxn a s := rfl
theorem exec_frcp {a} {s} : exec (.frcp a) s = execFrcp a s := rfl
theorem exec_frsq {a} {s} : exec (.frsq a) s = execFrsq a s := rfl
theorem exec_fsqrt {a} {s} : exec (.fsqrt a) s = execFsqrt a s := rfl
theorem exec_fex2 {a} {s} : exec (.fex2 a) s = execFex2 a s := rfl
theorem exec_flg2 {a} {s} : exec (.flg2 a) s = execFlg2 a s := rfl
theorem exec_fsin {a} {s} : exec (.fsin a) s = execFsin a s := rfl
theorem exec_fcos {a} {s} : exec (.fcos a) s = execFcos a s := rfl
theorem exec_ftanh {a} {s} : exec (.ftanh a) s = execFtanh a s := rfl
theorem exec_hadd {a} {s} : exec (.hadd a) s = execHadd a s := rfl
theorem exec_hsub {a} {s} : exec (.hsub a) s = execHsub a s := rfl
theorem exec_hmul {a} {s} : exec (.hmul a) s = execHmul a s := rfl
theorem exec_hfma {a} {s} : exec (.hfma a) s = execHfma a s := rfl
theorem exec_hmin {a} {s} : exec (.hmin a) s = execHmin a s := rfl
theorem exec_hmax {a} {s} : exec (.hmax a) s = execHmax a s := rfl
theorem exec_hdot2 {a} {s} : exec (.hdot2 a) s = execHdot2 a s := rfl
theorem exec_dadd {a} {s} : exec (.dadd a) s = execDadd a s := rfl
theorem exec_dsub {a} {s} : exec (.dsub a) s = execDsub a s := rfl
theorem exec_dmul {a} {s} : exec (.dmul a) s = execDmul a s := rfl
theorem exec_dfma {a} {s} : exec (.dfma a) s = execDfma a s := rfl
theorem exec_dmin {a} {s} : exec (.dmin a) s = execDmin a s := rfl
theorem exec_dmax {a} {s} : exec (.dmax a) s = execDmax a s := rfl
theorem exec_drcp {a} {s} : exec (.drcp a) s = execDrcp a s := rfl
theorem exec_dsqrt {a} {s} : exec (.dsqrt a) s = execDsqrt a s := rfl
theorem exec_icmp {a} {s} : exec (.icmp a) s = execIcmp a s := rfl
theorem exec_ncmp {a} {s} : exec (.ncmp a) s = execNcmp a s := rfl
theorem exec_fcmp {a} {s} : exec (.fcmp a) s = execFcmp a s := rfl
theorem exec_dcmp {a} {s} : exec (.dcmp a) s = execDcmp a s := rfl
theorem exec_pand {a} {s} : exec (.pand a) s = execPand a s := rfl
theorem exec_por {a} {s} : exec (.por a) s = execPor a s := rfl
theorem exec_pxor {a} {s} : exec (.pxor a) s = execPxor a s := rfl
theorem exec_pnot {a} {s} : exec (.pnot a) s = execPnot a s := rfl
theorem exec_cvt {a} {s} : exec (.cvt a) s = execCvt a s := rfl
theorem exec_cvtb {a} {s} : exec (.cvtb a) s = execCvtb a s := rfl
theorem exec_sxexp {a} {s} : exec (.sxexp a) s = execSxexp a s := rfl
theorem exec_sxset {a} {s} : exec (.sxset a) s = execSxset a s := rfl
theorem exec_shflIdx {a} {s} : exec (.shflIdx a) s = execShflIdx a s := rfl
theorem exec_shflUp {a} {s} : exec (.shflUp a) s = execShflUp a s := rfl
theorem exec_shflDown {a} {s} : exec (.shflDown a) s = execShflDown a s := rfl
theorem exec_shflXor {a} {s} : exec (.shflXor a) s = execShflXor a s := rfl
theorem exec_voteAny {a} {s} : exec (.voteAny a) s = execVoteAny a s := rfl
theorem exec_voteAll {a} {s} : exec (.voteAll a) s = execVoteAll a s := rfl
theorem exec_voteBallot {a} {s} : exec (.voteBallot a) s = execVoteBallot a s := rfl
theorem exec_red {a} {s} : exec (.red a) s = execRed a s := rfl
theorem exec_scan {a} {s} : exec (.scan a) s = execScan a s := rfl
theorem exec_elect {a} {b} {s} : exec (.elect a b) s = execElect a b s := rfl
theorem exec_qadd {a} {s} : exec (.qadd a) s = execQadd a s := rfl
theorem exec_qsub {a} {s} : exec (.qsub a) s = execQsub a s := rfl
theorem exec_qmul {a} {s} : exec (.qmul a) s = execQmul a s := rfl
theorem exec_qand {a} {s} : exec (.qand a) s = execQand a s := rfl
theorem exec_qor {a} {s} : exec (.qor a) s = execQor a s := rfl
theorem exec_qxor {a} {s} : exec (.qxor a) s = execQxor a s := rfl
theorem exec_qshl {a} {s} : exec (.qshl a) s = execQshl a s := rfl
theorem exec_qshr {a} {s} : exec (.qshr a) s = execQshr a s := rfl
theorem exec_qli {a} {b} {s} : exec (.qli a b) s = execQli a b s := rfl
theorem exec_qaddi {a} {b} {s} : exec (.qaddi a b) s = execQaddi a b s := rfl
theorem exec_qlui {a} {b} {s} : exec (.qlui a b) s = execQlui a b s := rfl
theorem exec_v2q {a} {b} {s} : exec (.v2q a b) s = execV2q a b s := rfl
theorem exec_q2v {a} {s} : exec (.q2v a) s = execQ2v a s := rfl
theorem exec_movx {a} {s} : exec (.movx a) s = execMovx a s := rfl
theorem exec_movs {a} {s} : exec (.movs a) s = execMovs a s := rfl
theorem exec_bra {a} {b} {s} : exec (.bra a b) s = execBra a b s := rfl
theorem exec_call {a} {s} : exec (.call a) s = execCall a s := rfl
theorem exec_ret {s} : exec .ret s = execRet s := rfl
theorem exec_jmpq {a} {s} : exec (.jmpq a) s = execJmpq a s := rfl
theorem exec_reconv {a} {s} : exec (.reconv a) s = execReconv a s := rfl
theorem exec_rwait {a} {s} : exec (.rwait a) s = execRwait a s := rfl
theorem exec_bisq {a} {s} : exec (.bisq a) s = execBisq a s := rfl
theorem exec_exitl {s} : exec .exitl s = execExitl s := rfl
theorem exec_brk {a} {s} : exec (.brk a) s = execBrk a s := rfl
theorem exec_nop {s} : exec .nop s = execNop s := rfl
theorem exec_ld32 {a} {s} : exec (.ld32 a) s = execLd32 a s := rfl
theorem exec_ld64 {a} {s} : exec (.ld64 a) s = execLd64 a s := rfl
theorem exec_ldNarrow {a} {s} : exec (.ldNarrow a) s = execLdNarrow a s := rfl
theorem exec_ldk32 {a} {s} : exec (.ldk32 a) s = execLdk32 a s := rfl
theorem exec_ldk64 {a} {s} : exec (.ldk64 a) s = execLdk64 a s := rfl
theorem exec_qld {a} {s} : exec (.qld a) s = execQld a s := rfl
theorem exec_st {a} {s} : exec (.st a) s = execSt a s := rfl
theorem exec_qst {a} {s} : exec (.qst a) s = execQst a s := rfl
theorem exec_atom {a} {s} : exec (.atom a) s = execAtom a s := rfl
theorem exec_redm {a} {s} : exec (.redm a) s = execRedm a s := rfl
theorem exec_cas {a} {s} : exec (.cas a) s = execCas a s := rfl
theorem exec_fence {a} {s} : exec (.fence a) s = execFence a s := rfl
theorem exec_pfence {a} {s} : exec (.pfence a) s = execPfence a s := rfl
theorem exec_wbr {a} {b} {s} : exec (.wbr a b) s = execWbr a b s := rfl
theorem exec_invr {a} {b} {s} : exec (.invr a b) s = execInvr a b s := rfl
theorem exec_barAw {a} {b} {s} : exec (.barAw a b) s = execBarAw a b s := rfl
theorem exec_barArv {a} {b} {s} : exec (.barArv a b) s = execBarArv a b s := rfl
theorem exec_barWt {a} {b} {s} : exec (.barWt a b) s = execBarWt a b s := rfl
theorem exec_gbarAw {a} {b} {s} : exec (.gbarAw a b) s = execGbarAw a b s := rfl
theorem exec_gbarArv {a} {b} {s} : exec (.gbarArv a b) s = execGbarArv a b s := rfl
theorem exec_gbarWt {a} {b} {s} : exec (.gbarWt a b) s = execGbarWt a b s := rfl
theorem exec_mwait {a} {s} : exec (.mwait a) s = execMwait a s := rfl
theorem exec_sigd {a} {s} : exec (.sigd a) s = execSigd a s := rfl
theorem exec_send {a} {s} : exec (.send a) s = execSend a s := rfl
theorem exec_recv {a} {s} : exec (.recv a) s = execRecv a s := rfl
theorem exec_chq {a} {b} {s} : exec (.chq a b) s = execChq a b s := rfl
theorem exec_tnew {a} {s} : exec (.tnew a) s = execTnew a s := rfl
theorem exec_tfree {a} {s} : exec (.tfree a) s = execTfree a s := rfl
theorem exec_tpass {a} {b} {s} : exec (.tpass a b) s = execTpass a b s := rfl
theorem exec_tbind {a} {b} {s} : exec (.tbind a b) s = execTbind a b s := rfl
theorem exec_tfetch {a} {s} : exec (.tfetch a) s = execTfetch a s := rfl
theorem exec_tevict {a} {s} : exec (.tevict a) s = execTevict a s := rfl
theorem exec_twait {a} {s} : exec (.twait a) s = execTwait a s := rfl
theorem exec_tld {a} {b} {s} : exec (.tld a b) s = execTld a b s := rfl
theorem exec_tst {a} {b} {s} : exec (.tst a b) s = execTst a b s := rfl
theorem exec_tget {a} {s} : exec (.tget a) s = execTget a s := rfl
theorem exec_tset {a} {s} : exec (.tset a) s = execTset a s := rfl
theorem exec_tadds {a} {s} : exec (.tadds a) s = execTadds a s := rfl
theorem exec_tmuls {a} {s} : exec (.tmuls a) s = execTmuls a s := rfl
theorem exec_texps {a} {s} : exec (.texps a) s = execTexps a s := rfl
theorem exec_tfill {a} {s} : exec (.tfill a) s = execTfill a s := rfl
theorem exec_tclmp {a} {s} : exec (.tclmp a) s = execTclmp a s := rfl
theorem exec_tcvt {a} {s} : exec (.tcvt a) s = execTcvt a s := rfl
theorem exec_mma {a} {s} : exec (.mma a) s = execMma a s := rfl
theorem exec_mmp {a} {s} : exec (.mmp a) s = execMmp a s := rfl
theorem exec_mmz {a} {s} : exec (.mmz a) s = execMmz a s := rfl
theorem exec_acq {a} {b} {s} : exec (.acq a b) s = execAcq a b s := rfl
theorem exec_acr {a} {s} : exec (.acr a) s = execAcr a s := rfl
theorem exec_acrd {a} {s} : exec (.acrd a) s = execAcrd a s := rfl
theorem exec_acld {a} {b} {s} : exec (.acld a b) s = execAcld a b s := rfl
theorem exec_cego {a} {s} : exec (.cego a) s = execCego a s := rfl
theorem exec_gxgo {a} {s} : exec (.gxgo a) s = execGxgo a s := rfl
theorem exec_wpush {a} {b} {s} : exec (.wpush a b) s = execWpush a b s := rfl
theorem exec_wpop {a} {b} {s} : exec (.wpop a b) s = execWpop a b s := rfl
theorem exec_quies {a} {s} : exec (.quies a) s = execQuies a s := rfl
theorem exec_trap {a} {s} : exec (.trap a) s = execTrap a s := rfl
theorem exec_tret {s} : exec .tret s = execTret s := rfl
theorem exec_yield {s} : exec .yield s = execYield s := rfl
theorem exec_exit {s} : exec .exit s = execExit s := rfl
theorem exec_spawn {a} {s} : exec (.spawn a) s = execSpawn a s := rfl
theorem exec_kill {a} {s} : exec (.kill a) s = execKill a s := rfl
theorem exec_csrr {a} {b} {s} : exec (.csrr a b) s = execCsrr a b s := rfl
theorem exec_csrw {a} {b} {s} : exec (.csrw a b) s = execCsrw a b s := rfl
theorem exec_csrCtlbiWrite {a} {b} {s} : exec (.csrCtlbiWrite a b) s = execCsrCtlbiWrite a b s := rfl
theorem exec_csrCbndReload {a} {b} {s} : exec (.csrCbndReload a b) s = execCsrCbndReload a b s := rfl
theorem exec_csrCbndWrite {a} {b} {s} : exec (.csrCbndWrite a b) s = execCsrCbndWrite a b s := rfl
theorem exec_uli {a} {b} {s} : exec (.uli a b) s = execUli a b s := rfl
theorem exec_uaddi {a} {s} : exec (.uaddi a) s = execUaddi a s := rfl
theorem exec_uadd {a} {s} : exec (.uadd a) s = execUadd a s := rfl
theorem exec_usub {a} {s} : exec (.usub a) s = execUsub a s := rfl
theorem exec_uand {a} {s} : exec (.uand a) s = execUand a s := rfl
theorem exec_uor {a} {s} : exec (.uor a) s = execUor a s := rfl
theorem exec_ushl {a} {s} : exec (.ushl a) s = execUshl a s := rfl
theorem exec_ushr {a} {s} : exec (.ushr a) s = execUshr a s := rfl
theorem exec_uld {a} {s} : exec (.uld a) s = execUld a s := rfl
theorem exec_ust {a} {s} : exec (.ust a) s = execUst a s := rfl
theorem exec_ubr {a} {s} : exec (.ubr a) s = execUbr a s := rfl
theorem exec_ujmp {a} {s} : exec (.ujmp a) s = execUjmp a s := rfl
theorem exec_uend {s} : exec .uend s = execUend s := rfl
theorem exec_ufault {a} {s} : exec (.ufault a) s = execUfault a s := rfl
theorem exec_ucomb {a} {b} {s} : exec (.ucomb a b) s = execUcomb a b s := rfl
theorem exec_ufwd {a} {s} : exec (.ufwd a) s = execUfwd a s := rfl
theorem exec_umcast {a} {s} : exec (.umcast a) s = execUmcast a s := rfl
theorem exec_uwr {a} {s} : exec (.uwr a) s = execUwr a s := rfl
theorem exec_uopt {a} {s} : exec (.uopt a) s = execUopt a s := rfl
theorem exec_usig {a} {s} : exec (.usig a) s = execUsig a s := rfl
theorem exec_udone {a} {s} : exec (.udone a) s = execUdone a s := rfl
theorem exec_uget {a} {b} {s} : exec (.uget a b) s = execUget a b s := rfl
theorem exec_joinArrive {s} : exec .joinArrive s = execJoinArrive s := rfl
theorem exec_rwaitTimeout {s} : exec .rwaitTimeout s = execRwaitTimeout s := rfl
theorem exec_yieldExpire {s} : exec .yieldExpire s = execYieldExpire s := rfl
theorem exec_barrierArrivalTaken {s} : exec .barrierArrivalTaken s = execBarrierArrivalTaken s := rfl
theorem exec_gbarPhaseMessage {s} : exec .gbarPhaseMessage s = execGbarPhaseMessage s := rfl
theorem exec_monitorWake {s} : exec .monitorWake s = execMonitorWake s := rfl
theorem exec_channelStall {s} : exec .channelStall s = execChannelStall s := rfl
theorem exec_channelPacketReceive {s} : exec .channelPacketReceive s = execChannelPacketReceive s := rfl
theorem exec_channelCredit {s} : exec .channelCredit s = execChannelCredit s := rfl
theorem exec_loadDataReturn {s} : exec .loadDataReturn s = execLoadDataReturn s := rfl
theorem exec_storeLeaveQueue {s} : exec .storeLeaveQueue s = execStoreLeaveQueue s := rfl
theorem exec_fenceComplete {s} : exec .fenceComplete s = execFenceComplete s := rfl
theorem exec_translationWalkComplete {s} : exec .translationWalkComplete s = execTranslationWalkComplete s := rfl
theorem exec_trapEntry {s} : exec .trapEntry s = execTrapEntry s := rfl
theorem exec_lateEngineFault {s} : exec .lateEngineFault s = execLateEngineFault s := rfl
theorem exec_laneLineFill {s} : exec .laneLineFill s = execLaneLineFill s := rfl
theorem exec_frameGrant {s} : exec .frameGrant s = execFrameGrant s := rfl
theorem exec_fillEnd {s} : exec .fillEnd s = execFillEnd s := rfl
theorem exec_mmpStart {s} : exec .mmpStart s = execMmpStart s := rfl
theorem exec_mmaPerform {s} : exec .mmaPerform s = execMmaPerform s := rfl
theorem exec_engineEntryReach {s} : exec .engineEntryReach s = execEngineEntryReach s := rfl
theorem exec_blockStart {s} : exec .blockStart s = execBlockStart s := rfl
theorem exec_blockEnd {s} : exec .blockEnd s = execBlockEnd s := rfl
theorem exec_launchAccept {s} : exec .launchAccept s = execLaunchAccept s := rfl
theorem exec_schedule {s} : exec .schedule s = execSchedule s := rfl
theorem exec_prioritySwapOut {s} : exec .prioritySwapOut s = execPrioritySwapOut s := rfl
theorem exec_launchComplete {s} : exec .launchComplete s = execLaunchComplete s := rfl
theorem exec_launchKillComplete {s} : exec .launchKillComplete s = execLaunchKillComplete s := rfl
theorem exec_hqDoorbell {s} : exec .hqDoorbell s = execHqDoorbell s := rfl
theorem exec_hqEnable {s} : exec .hqEnable s = execHqEnable s := rfl
theorem exec_hqDisable {s} : exec .hqDisable s = execHqDisable s := rfl
theorem exec_hqbaseWrite {s} : exec .hqbaseWrite s = execHqbaseWrite s := rfl
theorem exec_mgmtDoorbell {s} : exec .mgmtDoorbell s = execMgmtDoorbell s := rfl
theorem exec_ctxTableWrite {s} : exec .ctxTableWrite s = execCtxTableWrite s := rfl
theorem exec_ctxSwapOut {s} : exec .ctxSwapOut s = execCtxSwapOut s := rfl
theorem exec_ctxRestore {s} : exec .ctxRestore s = execCtxRestore s := rfl
theorem exec_ctxEvictGroups {s} : exec .ctxEvictGroups s = execCtxEvictGroups s := rfl
theorem exec_ctxRestoreGroups {s} : exec .ctxRestoreGroups s = execCtxRestoreGroups s := rfl
theorem exec_ctxFlushLines {s} : exec .ctxFlushLines s = execCtxFlushLines s := rfl
theorem exec_ctxcmdComplete {s} : exec .ctxcmdComplete s = execCtxcmdComplete s := rfl
theorem exec_cohortSwapOut {s} : exec .cohortSwapOut s = execCohortSwapOut s := rfl
theorem exec_cohortRestore {s} : exec .cohortRestore s = execCohortRestore s := rfl
theorem exec_tlbinvAll {s} : exec .tlbinvAll s = execTlbinvAll s := rfl
theorem exec_tlbinvPage {s} : exec .tlbinvPage s = execTlbinvPage s := rfl
theorem exec_tlbinvComplete {s} : exec .tlbinvComplete s = execTlbinvComplete s := rfl
theorem exec_wbctxWrite {s} : exec .wbctxWrite s = execWbctxWrite s := rfl
theorem exec_packetRoute {s} : exec .packetRoute s = execPacketRoute s := rfl
theorem exec_probeLaunch {s} : exec .probeLaunch s = execProbeLaunch s := rfl
theorem exec_probeHop {s} : exec .probeHop s = execProbeHop s := rfl
theorem exec_recoveryGrant {s} : exec .recoveryGrant s = execRecoveryGrant s := rfl
theorem exec_rotationTokenReturn {s} : exec .rotationTokenReturn s = execRotationTokenReturn s := rfl
theorem exec_escapeReinject {s} : exec .escapeReinject s = execEscapeReinject s := rfl
theorem exec_sliceAccess {s} : exec .sliceAccess s = execSliceAccess s := rfl
theorem exec_sliceFillComplete {s} : exec .sliceFillComplete s = execSliceFillComplete s := rfl
theorem exec_sliceWriteback {s} : exec .sliceWriteback s = execSliceWriteback s := rfl
theorem exec_scrubLine {s} : exec .scrubLine s = execScrubLine s := rfl
theorem exec_fsPeriodStart {s} : exec .fsPeriodStart s = execFsPeriodStart s := rfl
theorem exec_fsbudWrite {s} : exec .fsbudWrite s = execFsbudWrite s := rfl
theorem exec_governorWindow {s} : exec .governorWindow s = execGovernorWindow s := rfl
theorem exec_powerEstimate {s} : exec .powerEstimate s = execPowerEstimate s := rfl
theorem exec_awcfgEnable {s} : exec .awcfgEnable s = execAwcfgEnable s := rfl
theorem exec_awcfgDisable {s} : exec .awcfgDisable s = execAwcfgDisable s := rfl
theorem exec_awRegisterWrite {s} : exec .awRegisterWrite s = execAwRegisterWrite s := rfl
theorem exec_awContribution {s} : exec .awContribution s = execAwContribution s := rfl
theorem exec_segmentReceive {s} : exec .segmentReceive s = execSegmentReceive s := rfl
theorem exec_handlerStart {s} : exec .handlerStart s = execHandlerStart s := rfl
theorem exec_bucketSpill {s} : exec .bucketSpill s = execBucketSpill s := rfl
theorem exec_ueRetransmit {s} : exec .ueRetransmit s = execUeRetransmit s := rfl
theorem exec_fabricPacketReceive {s} : exec .fabricPacketReceive s = execFabricPacketReceive s := rfl
theorem exec_fabricAck {s} : exec .fabricAck s = execFabricAck s := rfl
theorem exec_laneFailure {s} : exec .laneFailure s = execLaneFailure s := rfl
theorem exec_linkRetrainDone {s} : exec .linkRetrainDone s = execLinkRetrainDone s := rfl
theorem exec_flctlRetrain {s} : exec .flctlRetrain s = execFlctlRetrain s := rfl
theorem exec_peerAccessTimeout {s} : exec .peerAccessTimeout s = execPeerAccessTimeout s := rfl
theorem exec_peerAccessReceive {s} : exec .peerAccessReceive s = execPeerAccessReceive s := rfl
theorem exec_hostWrite {s} : exec .hostWrite s = execHostWrite s := rfl
theorem exec_hostRead {s} : exec .hostRead s = execHostRead s := rfl
theorem exec_errRingEnable {s} : exec .errRingEnable s = execErrRingEnable s := rfl
theorem exec_errRingDisable {s} : exec .errRingDisable s = execErrRingDisable s := rfl
theorem exec_errcfgWrite {s} : exec .errcfgWrite s = execErrcfgWrite s := rfl
theorem exec_errCorrectionPeriod {s} : exec .errCorrectionPeriod s = execErrCorrectionPeriod s := rfl
theorem exec_katInject {s} : exec .katInject s = execKatInject s := rfl
theorem exec_scanApply {s} : exec .scanApply s = execScanApply s := rfl
theorem exec_scanTest {s} : exec .scanTest s = execScanTest s := rfl
theorem exec_scanComplete {s} : exec .scanComplete s = execScanComplete s := rfl
theorem exec_stkEnterCheckpoint {s} : exec .stkEnterCheckpoint s = execStkEnterCheckpoint s := rfl
theorem exec_stkTakeCheckpoint {s} : exec .stkTakeCheckpoint s = execStkTakeCheckpoint s := rfl
theorem exec_stkLeaveCheckpoint {s} : exec .stkLeaveCheckpoint s = execStkLeaveCheckpoint s := rfl
theorem exec_stkWarmResetRestore {s} : exec .stkWarmResetRestore s = execStkWarmResetRestore s := rfl
theorem exec_stkWarmResetNoRestore {s} : exec .stkWarmResetNoRestore s = execStkWarmResetNoRestore s := rfl
theorem exec_checkpointQuiet {s} : exec .checkpointQuiet s = execCheckpointQuiet s := rfl
theorem exec_checkpointTimeout {s} : exec .checkpointTimeout s = execCheckpointTimeout s := rfl
theorem exec_msgLogOverflow {s} : exec .msgLogOverflow s = execMsgLogOverflow s := rfl
theorem exec_rtRaiseTestFloor {s} : exec .rtRaiseTestFloor s = execRtRaiseTestFloor s := rfl
theorem exec_rtSignBindingMap {s} : exec .rtSignBindingMap s = execRtSignBindingMap s := rfl
theorem exec_powerGood {s} : exec .powerGood s = execPowerGood s := rfl
theorem exec_kilnRampStep {s} : exec .kilnRampStep s = execKilnRampStep s := rfl
theorem exec_bootLoader {s} : exec .bootLoader s = execBootLoader s := rfl
theorem exec_bootOs {s} : exec .bootOs s = execBootOs s := rfl
theorem exec_bootFirmware {s} : exec .bootFirmware s = execBootFirmware s := rfl
theorem exec_spdmGetVersion {s} : exec .spdmGetVersion s = execSpdmGetVersion s := rfl
theorem exec_spdmGetCapabilities {s} : exec .spdmGetCapabilities s = execSpdmGetCapabilities s := rfl
theorem exec_spdmNegotiateAlgorithms {s} : exec .spdmNegotiateAlgorithms s = execSpdmNegotiateAlgorithms s := rfl
theorem exec_spdmGetDigests {s} : exec .spdmGetDigests s = execSpdmGetDigests s := rfl
theorem exec_spdmGetCertificate {s} : exec .spdmGetCertificate s = execSpdmGetCertificate s := rfl
theorem exec_spdmChallenge {s} : exec .spdmChallenge s = execSpdmChallenge s := rfl
theorem exec_spdmGetMeasurements {s} : exec .spdmGetMeasurements s = execSpdmGetMeasurements s := rfl
theorem exec_spdmUnsupportedRequest {s} : exec .spdmUnsupportedRequest s = execSpdmUnsupportedRequest s := rfl
theorem exec_registerWrite {s} : exec .registerWrite s = execRegisterWrite s := rfl
theorem exec_illegalInstruction {s} : exec .illegalInstruction s = execIllegalInstruction s := rfl
theorem exec_instructionFetchFault {s} : exec .instructionFetchFault s = execInstructionFetchFault s := rfl
theorem exec_conditionalWaitPauseEnd {s} : exec .conditionalWaitPauseEnd s = execConditionalWaitPauseEnd s := rfl
theorem exec_bankAccess {s} : exec .bankAccess s = execBankAccess s := rfl
theorem exec_tileWriteComplete {s} : exec .tileWriteComplete s = execTileWriteComplete s := rfl
theorem exec_writeAcknowledgement {s} : exec .writeAcknowledgement s = execWriteAcknowledgement s := rfl
theorem exec_writeBackDrain {s} : exec .writeBackDrain s = execWriteBackDrain s := rfl
theorem exec_uncorrectableError {s} : exec .uncorrectableError s = execUncorrectableError s := rfl
theorem exec_powerLoss {s} : exec .powerLoss s = execPowerLoss s := rfl

end Sys2Proof.Machine
end

