-- ==== Sys2Proof/Laws/State.lean ====
section
/-! SUPPORT. What each named update of the state does to each field, so that no proof unfolds one. -/

namespace Sys2Proof.Machine

open Sys2Proof

/-! `State.setCore`. -/

@[simp] theorem State.setCore_picks (s : State) (c : Nat) (x : CoreSt) : (s.setCore c x).picks = s.picks := rfl
@[simp] theorem State.setCore_agenda (s : State) (c : Nat) (x : CoreSt) : (s.setCore c x).agenda = s.agenda := rfl
@[simp] theorem State.setCore_ev (s : State) (c : Nat) (x : CoreSt) : (s.setCore c x).ev = s.ev := rfl
@[simp] theorem State.setCore_cur (s : State) (c : Nat) (x : CoreSt) : (s.setCore c x).cur = s.cur := rfl
@[simp] theorem State.setCore_turn (s : State) (c : Nat) (x : CoreSt) : (s.setCore c x).turn = s.turn := rfl
@[simp] theorem State.setCore_freeCount (s : State) (c : Nat) (x : CoreSt) : (s.setCore c x).freeCount = s.freeCount := rfl
@[simp] theorem State.setCore_nextId (s : State) (c : Nat) (x : CoreSt) : (s.setCore c x).nextId = s.nextId := rfl
@[simp] theorem State.setCore_mem (s : State) (c : Nat) (x : CoreSt) : (s.setCore c x).mem = s.mem := rfl
@[simp] theorem State.setCore_full (s : State) (c : Nat) (x : CoreSt) : (s.setCore c x).full = s.full := rfl
@[simp] theorem State.setCore_poison (s : State) (c : Nat) (x : CoreSt) : (s.setCore c x).poison = s.poison := rfl
@[simp] theorem State.setCore_accPoison (s : State) (c : Nat) (x : CoreSt) : (s.setCore c x).accPoison = s.accPoison := rfl
@[simp] theorem State.setCore_hub (s : State) (c : Nat) (x : CoreSt) : (s.setCore c x).hub = s.hub := rfl
@[simp] theorem State.setCore_cores (s : State) (c : Nat) (x : CoreSt) : (s.setCore c x).cores = Tbl.put s.cores c x := rfl
@[simp] theorem State.setCore_gangs (s : State) (c : Nat) (x : CoreSt) : (s.setCore c x).gangs = s.gangs := rfl
@[simp] theorem State.setCore_chans (s : State) (c : Nat) (x : CoreSt) : (s.setCore c x).chans = s.chans := rfl
@[simp] theorem State.setCore_launches (s : State) (c : Nat) (x : CoreSt) : (s.setCore c x).launches = s.launches := rfl
@[simp] theorem State.setCore_waiting (s : State) (c : Nat) (x : CoreSt) : (s.setCore c x).waiting = s.waiting := rfl
@[simp] theorem State.setCore_begun (s : State) (c : Nat) (x : CoreSt) : (s.setCore c x).begun = s.begun := rfl
@[simp] theorem State.setCore_recCache (s : State) (c : Nat) (x : CoreSt) : (s.setCore c x).recCache = s.recCache := rfl
@[simp] theorem State.setCore_bndCache (s : State) (c : Nat) (x : CoreSt) : (s.setCore c x).bndCache = s.bndCache := rfl
@[simp] theorem State.setCore_bounds (s : State) (c : Nat) (x : CoreSt) : (s.setCore c x).bounds = s.bounds := rfl
@[simp] theorem State.setCore_opened (s : State) (c : Nat) (x : CoreSt) : (s.setCore c x).opened = s.opened := rfl
@[simp] theorem State.setCore_invals (s : State) (c : Nat) (x : CoreSt) : (s.setCore c x).invals = s.invals := rfl
@[simp] theorem State.setCore_slices (s : State) (c : Nat) (x : CoreSt) : (s.setCore c x).slices = s.slices := rfl
@[simp] theorem State.setCore_shadows (s : State) (c : Nat) (x : CoreSt) : (s.setCore c x).shadows = s.shadows := rfl
@[simp] theorem State.setCore_monitors (s : State) (c : Nat) (x : CoreSt) : (s.setCore c x).monitors = s.monitors := rfl
@[simp] theorem State.setCore_accs (s : State) (c : Nat) (x : CoreSt) : (s.setCore c x).accs = s.accs := rfl
@[simp] theorem State.setCore_net (s : State) (c : Nat) (x : CoreSt) : (s.setCore c x).net = s.net := rfl
@[simp] theorem State.setCore_fs (s : State) (c : Nat) (x : CoreSt) : (s.setCore c x).fs = s.fs := rfl
@[simp] theorem State.setCore_ul (s : State) (c : Nat) (x : CoreSt) : (s.setCore c x).ul = s.ul := rfl
@[simp] theorem State.setCore_links (s : State) (c : Nat) (x : CoreSt) : (s.setCore c x).links = s.links := rfl
@[simp] theorem State.setCore_peers (s : State) (c : Nat) (x : CoreSt) : (s.setCore c x).peers = s.peers := rfl
@[simp] theorem State.setCore_hostMem (s : State) (c : Nat) (x : CoreSt) : (s.setCore c x).hostMem = s.hostMem := rfl
@[simp] theorem State.setCore_hostWait (s : State) (c : Nat) (x : CoreSt) : (s.setCore c x).hostWait = s.hostWait := rfl
@[simp] theorem State.setCore_hostRow (s : State) (c : Nat) (x : CoreSt) : (s.setCore c x).hostRow = s.hostRow := rfl
@[simp] theorem State.setCore_hostOut (s : State) (c : Nat) (x : CoreSt) : (s.setCore c x).hostOut = s.hostOut := rfl
@[simp] theorem State.setCore_spdm (s : State) (c : Nat) (x : CoreSt) : (s.setCore c x).spdm = s.spdm := rfl
@[simp] theorem State.setCore_stackTbl (s : State) (c : Nat) (x : CoreSt) : (s.setCore c x).stackTbl = s.stackTbl := rfl
@[simp] theorem State.setCore_boot (s : State) (c : Nat) (x : CoreSt) : (s.setCore c x).boot = s.boot := rfl
@[simp] theorem State.setCore_scan (s : State) (c : Nat) (x : CoreSt) : (s.setCore c x).scan = s.scan := rfl
@[simp] theorem State.setCore_saved (s : State) (c : Nat) (x : CoreSt) : (s.setCore c x).saved = s.saved := rfl
@[simp] theorem State.setCore_corrected (s : State) (c : Nat) (x : CoreSt) : (s.setCore c x).corrected = s.corrected := rfl

/-! `State.onCore`. -/

@[simp] theorem State.onCore_picks (s : State) (c : Nat) (f : CoreSt → CoreSt) : (s.onCore c f).picks = s.picks := rfl
@[simp] theorem State.onCore_agenda (s : State) (c : Nat) (f : CoreSt → CoreSt) : (s.onCore c f).agenda = s.agenda := rfl
@[simp] theorem State.onCore_ev (s : State) (c : Nat) (f : CoreSt → CoreSt) : (s.onCore c f).ev = s.ev := rfl
@[simp] theorem State.onCore_cur (s : State) (c : Nat) (f : CoreSt → CoreSt) : (s.onCore c f).cur = s.cur := rfl
@[simp] theorem State.onCore_turn (s : State) (c : Nat) (f : CoreSt → CoreSt) : (s.onCore c f).turn = s.turn := rfl
@[simp] theorem State.onCore_freeCount (s : State) (c : Nat) (f : CoreSt → CoreSt) : (s.onCore c f).freeCount = s.freeCount := rfl
@[simp] theorem State.onCore_nextId (s : State) (c : Nat) (f : CoreSt → CoreSt) : (s.onCore c f).nextId = s.nextId := rfl
@[simp] theorem State.onCore_mem (s : State) (c : Nat) (f : CoreSt → CoreSt) : (s.onCore c f).mem = s.mem := rfl
@[simp] theorem State.onCore_full (s : State) (c : Nat) (f : CoreSt → CoreSt) : (s.onCore c f).full = s.full := rfl
@[simp] theorem State.onCore_poison (s : State) (c : Nat) (f : CoreSt → CoreSt) : (s.onCore c f).poison = s.poison := rfl
@[simp] theorem State.onCore_accPoison (s : State) (c : Nat) (f : CoreSt → CoreSt) : (s.onCore c f).accPoison = s.accPoison := rfl
@[simp] theorem State.onCore_hub (s : State) (c : Nat) (f : CoreSt → CoreSt) : (s.onCore c f).hub = s.hub := rfl
@[simp] theorem State.onCore_cores (s : State) (c : Nat) (f : CoreSt → CoreSt) : (s.onCore c f).cores = Tbl.put s.cores c (f (s.core c)) := rfl
@[simp] theorem State.onCore_gangs (s : State) (c : Nat) (f : CoreSt → CoreSt) : (s.onCore c f).gangs = s.gangs := rfl
@[simp] theorem State.onCore_chans (s : State) (c : Nat) (f : CoreSt → CoreSt) : (s.onCore c f).chans = s.chans := rfl
@[simp] theorem State.onCore_launches (s : State) (c : Nat) (f : CoreSt → CoreSt) : (s.onCore c f).launches = s.launches := rfl
@[simp] theorem State.onCore_waiting (s : State) (c : Nat) (f : CoreSt → CoreSt) : (s.onCore c f).waiting = s.waiting := rfl
@[simp] theorem State.onCore_begun (s : State) (c : Nat) (f : CoreSt → CoreSt) : (s.onCore c f).begun = s.begun := rfl
@[simp] theorem State.onCore_recCache (s : State) (c : Nat) (f : CoreSt → CoreSt) : (s.onCore c f).recCache = s.recCache := rfl
@[simp] theorem State.onCore_bndCache (s : State) (c : Nat) (f : CoreSt → CoreSt) : (s.onCore c f).bndCache = s.bndCache := rfl
@[simp] theorem State.onCore_bounds (s : State) (c : Nat) (f : CoreSt → CoreSt) : (s.onCore c f).bounds = s.bounds := rfl
@[simp] theorem State.onCore_opened (s : State) (c : Nat) (f : CoreSt → CoreSt) : (s.onCore c f).opened = s.opened := rfl
@[simp] theorem State.onCore_invals (s : State) (c : Nat) (f : CoreSt → CoreSt) : (s.onCore c f).invals = s.invals := rfl
@[simp] theorem State.onCore_slices (s : State) (c : Nat) (f : CoreSt → CoreSt) : (s.onCore c f).slices = s.slices := rfl
@[simp] theorem State.onCore_shadows (s : State) (c : Nat) (f : CoreSt → CoreSt) : (s.onCore c f).shadows = s.shadows := rfl
@[simp] theorem State.onCore_monitors (s : State) (c : Nat) (f : CoreSt → CoreSt) : (s.onCore c f).monitors = s.monitors := rfl
@[simp] theorem State.onCore_accs (s : State) (c : Nat) (f : CoreSt → CoreSt) : (s.onCore c f).accs = s.accs := rfl
@[simp] theorem State.onCore_net (s : State) (c : Nat) (f : CoreSt → CoreSt) : (s.onCore c f).net = s.net := rfl
@[simp] theorem State.onCore_fs (s : State) (c : Nat) (f : CoreSt → CoreSt) : (s.onCore c f).fs = s.fs := rfl
@[simp] theorem State.onCore_ul (s : State) (c : Nat) (f : CoreSt → CoreSt) : (s.onCore c f).ul = s.ul := rfl
@[simp] theorem State.onCore_links (s : State) (c : Nat) (f : CoreSt → CoreSt) : (s.onCore c f).links = s.links := rfl
@[simp] theorem State.onCore_peers (s : State) (c : Nat) (f : CoreSt → CoreSt) : (s.onCore c f).peers = s.peers := rfl
@[simp] theorem State.onCore_hostMem (s : State) (c : Nat) (f : CoreSt → CoreSt) : (s.onCore c f).hostMem = s.hostMem := rfl
@[simp] theorem State.onCore_hostWait (s : State) (c : Nat) (f : CoreSt → CoreSt) : (s.onCore c f).hostWait = s.hostWait := rfl
@[simp] theorem State.onCore_hostRow (s : State) (c : Nat) (f : CoreSt → CoreSt) : (s.onCore c f).hostRow = s.hostRow := rfl
@[simp] theorem State.onCore_hostOut (s : State) (c : Nat) (f : CoreSt → CoreSt) : (s.onCore c f).hostOut = s.hostOut := rfl
@[simp] theorem State.onCore_spdm (s : State) (c : Nat) (f : CoreSt → CoreSt) : (s.onCore c f).spdm = s.spdm := rfl
@[simp] theorem State.onCore_stackTbl (s : State) (c : Nat) (f : CoreSt → CoreSt) : (s.onCore c f).stackTbl = s.stackTbl := rfl
@[simp] theorem State.onCore_boot (s : State) (c : Nat) (f : CoreSt → CoreSt) : (s.onCore c f).boot = s.boot := rfl
@[simp] theorem State.onCore_scan (s : State) (c : Nat) (f : CoreSt → CoreSt) : (s.onCore c f).scan = s.scan := rfl
@[simp] theorem State.onCore_saved (s : State) (c : Nat) (f : CoreSt → CoreSt) : (s.onCore c f).saved = s.saved := rfl
@[simp] theorem State.onCore_corrected (s : State) (c : Nat) (f : CoreSt → CoreSt) : (s.onCore c f).corrected = s.corrected := rfl

/-! `State.setCohort`. -/

@[simp] theorem State.setCohort_picks (s : State) (c k : Nat) (h : Cohort) : (s.setCohort c k h).picks = s.picks := rfl
@[simp] theorem State.setCohort_agenda (s : State) (c k : Nat) (h : Cohort) : (s.setCohort c k h).agenda = s.agenda := rfl
@[simp] theorem State.setCohort_ev (s : State) (c k : Nat) (h : Cohort) : (s.setCohort c k h).ev = s.ev := rfl
@[simp] theorem State.setCohort_cur (s : State) (c k : Nat) (h : Cohort) : (s.setCohort c k h).cur = s.cur := rfl
@[simp] theorem State.setCohort_turn (s : State) (c k : Nat) (h : Cohort) : (s.setCohort c k h).turn = s.turn := rfl
@[simp] theorem State.setCohort_freeCount (s : State) (c k : Nat) (h : Cohort) : (s.setCohort c k h).freeCount = s.freeCount := rfl
@[simp] theorem State.setCohort_nextId (s : State) (c k : Nat) (h : Cohort) : (s.setCohort c k h).nextId = s.nextId := rfl
@[simp] theorem State.setCohort_mem (s : State) (c k : Nat) (h : Cohort) : (s.setCohort c k h).mem = s.mem := rfl
@[simp] theorem State.setCohort_full (s : State) (c k : Nat) (h : Cohort) : (s.setCohort c k h).full = s.full := rfl
@[simp] theorem State.setCohort_poison (s : State) (c k : Nat) (h : Cohort) : (s.setCohort c k h).poison = s.poison := rfl
@[simp] theorem State.setCohort_accPoison (s : State) (c k : Nat) (h : Cohort) : (s.setCohort c k h).accPoison = s.accPoison := rfl
@[simp] theorem State.setCohort_hub (s : State) (c k : Nat) (h : Cohort) : (s.setCohort c k h).hub = s.hub := rfl
@[simp] theorem State.setCohort_gangs (s : State) (c k : Nat) (h : Cohort) : (s.setCohort c k h).gangs = s.gangs := rfl
@[simp] theorem State.setCohort_chans (s : State) (c k : Nat) (h : Cohort) : (s.setCohort c k h).chans = s.chans := rfl
@[simp] theorem State.setCohort_launches (s : State) (c k : Nat) (h : Cohort) : (s.setCohort c k h).launches = s.launches := rfl
@[simp] theorem State.setCohort_waiting (s : State) (c k : Nat) (h : Cohort) : (s.setCohort c k h).waiting = s.waiting := rfl
@[simp] theorem State.setCohort_begun (s : State) (c k : Nat) (h : Cohort) : (s.setCohort c k h).begun = s.begun := rfl
@[simp] theorem State.setCohort_recCache (s : State) (c k : Nat) (h : Cohort) : (s.setCohort c k h).recCache = s.recCache := rfl
@[simp] theorem State.setCohort_bndCache (s : State) (c k : Nat) (h : Cohort) : (s.setCohort c k h).bndCache = s.bndCache := rfl
@[simp] theorem State.setCohort_bounds (s : State) (c k : Nat) (h : Cohort) : (s.setCohort c k h).bounds = s.bounds := rfl
@[simp] theorem State.setCohort_opened (s : State) (c k : Nat) (h : Cohort) : (s.setCohort c k h).opened = s.opened := rfl
@[simp] theorem State.setCohort_invals (s : State) (c k : Nat) (h : Cohort) : (s.setCohort c k h).invals = s.invals := rfl
@[simp] theorem State.setCohort_slices (s : State) (c k : Nat) (h : Cohort) : (s.setCohort c k h).slices = s.slices := rfl
@[simp] theorem State.setCohort_shadows (s : State) (c k : Nat) (h : Cohort) : (s.setCohort c k h).shadows = s.shadows := rfl
@[simp] theorem State.setCohort_monitors (s : State) (c k : Nat) (h : Cohort) : (s.setCohort c k h).monitors = s.monitors := rfl
@[simp] theorem State.setCohort_accs (s : State) (c k : Nat) (h : Cohort) : (s.setCohort c k h).accs = s.accs := rfl
@[simp] theorem State.setCohort_net (s : State) (c k : Nat) (h : Cohort) : (s.setCohort c k h).net = s.net := rfl
@[simp] theorem State.setCohort_fs (s : State) (c k : Nat) (h : Cohort) : (s.setCohort c k h).fs = s.fs := rfl
@[simp] theorem State.setCohort_ul (s : State) (c k : Nat) (h : Cohort) : (s.setCohort c k h).ul = s.ul := rfl
@[simp] theorem State.setCohort_links (s : State) (c k : Nat) (h : Cohort) : (s.setCohort c k h).links = s.links := rfl
@[simp] theorem State.setCohort_peers (s : State) (c k : Nat) (h : Cohort) : (s.setCohort c k h).peers = s.peers := rfl
@[simp] theorem State.setCohort_hostMem (s : State) (c k : Nat) (h : Cohort) : (s.setCohort c k h).hostMem = s.hostMem := rfl
@[simp] theorem State.setCohort_hostWait (s : State) (c k : Nat) (h : Cohort) : (s.setCohort c k h).hostWait = s.hostWait := rfl
@[simp] theorem State.setCohort_hostRow (s : State) (c k : Nat) (h : Cohort) : (s.setCohort c k h).hostRow = s.hostRow := rfl
@[simp] theorem State.setCohort_hostOut (s : State) (c k : Nat) (h : Cohort) : (s.setCohort c k h).hostOut = s.hostOut := rfl
@[simp] theorem State.setCohort_spdm (s : State) (c k : Nat) (h : Cohort) : (s.setCohort c k h).spdm = s.spdm := rfl
@[simp] theorem State.setCohort_stackTbl (s : State) (c k : Nat) (h : Cohort) : (s.setCohort c k h).stackTbl = s.stackTbl := rfl
@[simp] theorem State.setCohort_boot (s : State) (c k : Nat) (h : Cohort) : (s.setCohort c k h).boot = s.boot := rfl
@[simp] theorem State.setCohort_scan (s : State) (c k : Nat) (h : Cohort) : (s.setCohort c k h).scan = s.scan := rfl
@[simp] theorem State.setCohort_saved (s : State) (c k : Nat) (h : Cohort) : (s.setCohort c k h).saved = s.saved := rfl
@[simp] theorem State.setCohort_corrected (s : State) (c k : Nat) (h : Cohort) : (s.setCohort c k h).corrected = s.corrected := rfl

/-! `State.setBlock`. -/

@[simp] theorem State.setBlock_picks (s : State) (c b : Nat) (x : Block) : (s.setBlock c b x).picks = s.picks := rfl
@[simp] theorem State.setBlock_agenda (s : State) (c b : Nat) (x : Block) : (s.setBlock c b x).agenda = s.agenda := rfl
@[simp] theorem State.setBlock_ev (s : State) (c b : Nat) (x : Block) : (s.setBlock c b x).ev = s.ev := rfl
@[simp] theorem State.setBlock_cur (s : State) (c b : Nat) (x : Block) : (s.setBlock c b x).cur = s.cur := rfl
@[simp] theorem State.setBlock_turn (s : State) (c b : Nat) (x : Block) : (s.setBlock c b x).turn = s.turn := rfl
@[simp] theorem State.setBlock_freeCount (s : State) (c b : Nat) (x : Block) : (s.setBlock c b x).freeCount = s.freeCount := rfl
@[simp] theorem State.setBlock_nextId (s : State) (c b : Nat) (x : Block) : (s.setBlock c b x).nextId = s.nextId := rfl
@[simp] theorem State.setBlock_mem (s : State) (c b : Nat) (x : Block) : (s.setBlock c b x).mem = s.mem := rfl
@[simp] theorem State.setBlock_full (s : State) (c b : Nat) (x : Block) : (s.setBlock c b x).full = s.full := rfl
@[simp] theorem State.setBlock_poison (s : State) (c b : Nat) (x : Block) : (s.setBlock c b x).poison = s.poison := rfl
@[simp] theorem State.setBlock_accPoison (s : State) (c b : Nat) (x : Block) : (s.setBlock c b x).accPoison = s.accPoison := rfl
@[simp] theorem State.setBlock_hub (s : State) (c b : Nat) (x : Block) : (s.setBlock c b x).hub = s.hub := rfl
@[simp] theorem State.setBlock_gangs (s : State) (c b : Nat) (x : Block) : (s.setBlock c b x).gangs = s.gangs := rfl
@[simp] theorem State.setBlock_chans (s : State) (c b : Nat) (x : Block) : (s.setBlock c b x).chans = s.chans := rfl
@[simp] theorem State.setBlock_launches (s : State) (c b : Nat) (x : Block) : (s.setBlock c b x).launches = s.launches := rfl
@[simp] theorem State.setBlock_waiting (s : State) (c b : Nat) (x : Block) : (s.setBlock c b x).waiting = s.waiting := rfl
@[simp] theorem State.setBlock_begun (s : State) (c b : Nat) (x : Block) : (s.setBlock c b x).begun = s.begun := rfl
@[simp] theorem State.setBlock_recCache (s : State) (c b : Nat) (x : Block) : (s.setBlock c b x).recCache = s.recCache := rfl
@[simp] theorem State.setBlock_bndCache (s : State) (c b : Nat) (x : Block) : (s.setBlock c b x).bndCache = s.bndCache := rfl
@[simp] theorem State.setBlock_bounds (s : State) (c b : Nat) (x : Block) : (s.setBlock c b x).bounds = s.bounds := rfl
@[simp] theorem State.setBlock_opened (s : State) (c b : Nat) (x : Block) : (s.setBlock c b x).opened = s.opened := rfl
@[simp] theorem State.setBlock_invals (s : State) (c b : Nat) (x : Block) : (s.setBlock c b x).invals = s.invals := rfl
@[simp] theorem State.setBlock_slices (s : State) (c b : Nat) (x : Block) : (s.setBlock c b x).slices = s.slices := rfl
@[simp] theorem State.setBlock_shadows (s : State) (c b : Nat) (x : Block) : (s.setBlock c b x).shadows = s.shadows := rfl
@[simp] theorem State.setBlock_monitors (s : State) (c b : Nat) (x : Block) : (s.setBlock c b x).monitors = s.monitors := rfl
@[simp] theorem State.setBlock_accs (s : State) (c b : Nat) (x : Block) : (s.setBlock c b x).accs = s.accs := rfl
@[simp] theorem State.setBlock_net (s : State) (c b : Nat) (x : Block) : (s.setBlock c b x).net = s.net := rfl
@[simp] theorem State.setBlock_fs (s : State) (c b : Nat) (x : Block) : (s.setBlock c b x).fs = s.fs := rfl
@[simp] theorem State.setBlock_ul (s : State) (c b : Nat) (x : Block) : (s.setBlock c b x).ul = s.ul := rfl
@[simp] theorem State.setBlock_links (s : State) (c b : Nat) (x : Block) : (s.setBlock c b x).links = s.links := rfl
@[simp] theorem State.setBlock_peers (s : State) (c b : Nat) (x : Block) : (s.setBlock c b x).peers = s.peers := rfl
@[simp] theorem State.setBlock_hostMem (s : State) (c b : Nat) (x : Block) : (s.setBlock c b x).hostMem = s.hostMem := rfl
@[simp] theorem State.setBlock_hostWait (s : State) (c b : Nat) (x : Block) : (s.setBlock c b x).hostWait = s.hostWait := rfl
@[simp] theorem State.setBlock_hostRow (s : State) (c b : Nat) (x : Block) : (s.setBlock c b x).hostRow = s.hostRow := rfl
@[simp] theorem State.setBlock_hostOut (s : State) (c b : Nat) (x : Block) : (s.setBlock c b x).hostOut = s.hostOut := rfl
@[simp] theorem State.setBlock_spdm (s : State) (c b : Nat) (x : Block) : (s.setBlock c b x).spdm = s.spdm := rfl
@[simp] theorem State.setBlock_stackTbl (s : State) (c b : Nat) (x : Block) : (s.setBlock c b x).stackTbl = s.stackTbl := rfl
@[simp] theorem State.setBlock_boot (s : State) (c b : Nat) (x : Block) : (s.setBlock c b x).boot = s.boot := rfl
@[simp] theorem State.setBlock_scan (s : State) (c b : Nat) (x : Block) : (s.setBlock c b x).scan = s.scan := rfl
@[simp] theorem State.setBlock_saved (s : State) (c b : Nat) (x : Block) : (s.setBlock c b x).saved = s.saved := rfl
@[simp] theorem State.setBlock_corrected (s : State) (c b : Nat) (x : Block) : (s.setBlock c b x).corrected = s.corrected := rfl

/-! `State.pushAll`. -/

@[simp] theorem State.pushAll_picks (s : State) (l : List Due) : (s.pushAll l).picks = s.picks := rfl
@[simp] theorem State.pushAll_agenda (s : State) (l : List Due) : (s.pushAll l).agenda = s.agenda ++ l := rfl
@[simp] theorem State.pushAll_ev (s : State) (l : List Due) : (s.pushAll l).ev = s.ev := rfl
@[simp] theorem State.pushAll_cur (s : State) (l : List Due) : (s.pushAll l).cur = s.cur := rfl
@[simp] theorem State.pushAll_turn (s : State) (l : List Due) : (s.pushAll l).turn = s.turn := rfl
@[simp] theorem State.pushAll_freeCount (s : State) (l : List Due) : (s.pushAll l).freeCount = s.freeCount := rfl
@[simp] theorem State.pushAll_nextId (s : State) (l : List Due) : (s.pushAll l).nextId = s.nextId := rfl
@[simp] theorem State.pushAll_mem (s : State) (l : List Due) : (s.pushAll l).mem = s.mem := rfl
@[simp] theorem State.pushAll_full (s : State) (l : List Due) : (s.pushAll l).full = s.full := rfl
@[simp] theorem State.pushAll_poison (s : State) (l : List Due) : (s.pushAll l).poison = s.poison := rfl
@[simp] theorem State.pushAll_accPoison (s : State) (l : List Due) : (s.pushAll l).accPoison = s.accPoison := rfl
@[simp] theorem State.pushAll_hub (s : State) (l : List Due) : (s.pushAll l).hub = s.hub := rfl
@[simp] theorem State.pushAll_cores (s : State) (l : List Due) : (s.pushAll l).cores = s.cores := rfl
@[simp] theorem State.pushAll_gangs (s : State) (l : List Due) : (s.pushAll l).gangs = s.gangs := rfl
@[simp] theorem State.pushAll_chans (s : State) (l : List Due) : (s.pushAll l).chans = s.chans := rfl
@[simp] theorem State.pushAll_launches (s : State) (l : List Due) : (s.pushAll l).launches = s.launches := rfl
@[simp] theorem State.pushAll_waiting (s : State) (l : List Due) : (s.pushAll l).waiting = s.waiting := rfl
@[simp] theorem State.pushAll_begun (s : State) (l : List Due) : (s.pushAll l).begun = s.begun := rfl
@[simp] theorem State.pushAll_recCache (s : State) (l : List Due) : (s.pushAll l).recCache = s.recCache := rfl
@[simp] theorem State.pushAll_bndCache (s : State) (l : List Due) : (s.pushAll l).bndCache = s.bndCache := rfl
@[simp] theorem State.pushAll_bounds (s : State) (l : List Due) : (s.pushAll l).bounds = s.bounds := rfl
@[simp] theorem State.pushAll_opened (s : State) (l : List Due) : (s.pushAll l).opened = s.opened := rfl
@[simp] theorem State.pushAll_invals (s : State) (l : List Due) : (s.pushAll l).invals = s.invals := rfl
@[simp] theorem State.pushAll_slices (s : State) (l : List Due) : (s.pushAll l).slices = s.slices := rfl
@[simp] theorem State.pushAll_shadows (s : State) (l : List Due) : (s.pushAll l).shadows = s.shadows := rfl
@[simp] theorem State.pushAll_monitors (s : State) (l : List Due) : (s.pushAll l).monitors = s.monitors := rfl
@[simp] theorem State.pushAll_accs (s : State) (l : List Due) : (s.pushAll l).accs = s.accs := rfl
@[simp] theorem State.pushAll_net (s : State) (l : List Due) : (s.pushAll l).net = s.net := rfl
@[simp] theorem State.pushAll_fs (s : State) (l : List Due) : (s.pushAll l).fs = s.fs := rfl
@[simp] theorem State.pushAll_ul (s : State) (l : List Due) : (s.pushAll l).ul = s.ul := rfl
@[simp] theorem State.pushAll_links (s : State) (l : List Due) : (s.pushAll l).links = s.links := rfl
@[simp] theorem State.pushAll_peers (s : State) (l : List Due) : (s.pushAll l).peers = s.peers := rfl
@[simp] theorem State.pushAll_hostMem (s : State) (l : List Due) : (s.pushAll l).hostMem = s.hostMem := rfl
@[simp] theorem State.pushAll_hostWait (s : State) (l : List Due) : (s.pushAll l).hostWait = s.hostWait := rfl
@[simp] theorem State.pushAll_hostRow (s : State) (l : List Due) : (s.pushAll l).hostRow = s.hostRow := rfl
@[simp] theorem State.pushAll_hostOut (s : State) (l : List Due) : (s.pushAll l).hostOut = s.hostOut := rfl
@[simp] theorem State.pushAll_spdm (s : State) (l : List Due) : (s.pushAll l).spdm = s.spdm := rfl
@[simp] theorem State.pushAll_stackTbl (s : State) (l : List Due) : (s.pushAll l).stackTbl = s.stackTbl := rfl
@[simp] theorem State.pushAll_boot (s : State) (l : List Due) : (s.pushAll l).boot = s.boot := rfl
@[simp] theorem State.pushAll_scan (s : State) (l : List Due) : (s.pushAll l).scan = s.scan := rfl
@[simp] theorem State.pushAll_saved (s : State) (l : List Due) : (s.pushAll l).saved = s.saved := rfl
@[simp] theorem State.pushAll_corrected (s : State) (l : List Due) : (s.pushAll l).corrected = s.corrected := rfl

/-! `State.push`. -/

@[simp] theorem State.push_picks (s : State) (i : Instr) (ops : List Nat) : (s.push i ops).picks = s.picks := rfl
@[simp] theorem State.push_agenda (s : State) (i : Instr) (ops : List Nat) : (s.push i ops).agenda = s.agenda ++ [{ row := i, ops := ops }] := rfl
@[simp] theorem State.push_ev (s : State) (i : Instr) (ops : List Nat) : (s.push i ops).ev = s.ev := rfl
@[simp] theorem State.push_cur (s : State) (i : Instr) (ops : List Nat) : (s.push i ops).cur = s.cur := rfl
@[simp] theorem State.push_turn (s : State) (i : Instr) (ops : List Nat) : (s.push i ops).turn = s.turn := rfl
@[simp] theorem State.push_freeCount (s : State) (i : Instr) (ops : List Nat) : (s.push i ops).freeCount = s.freeCount := rfl
@[simp] theorem State.push_nextId (s : State) (i : Instr) (ops : List Nat) : (s.push i ops).nextId = s.nextId := rfl
@[simp] theorem State.push_mem (s : State) (i : Instr) (ops : List Nat) : (s.push i ops).mem = s.mem := rfl
@[simp] theorem State.push_full (s : State) (i : Instr) (ops : List Nat) : (s.push i ops).full = s.full := rfl
@[simp] theorem State.push_poison (s : State) (i : Instr) (ops : List Nat) : (s.push i ops).poison = s.poison := rfl
@[simp] theorem State.push_accPoison (s : State) (i : Instr) (ops : List Nat) : (s.push i ops).accPoison = s.accPoison := rfl
@[simp] theorem State.push_hub (s : State) (i : Instr) (ops : List Nat) : (s.push i ops).hub = s.hub := rfl
@[simp] theorem State.push_cores (s : State) (i : Instr) (ops : List Nat) : (s.push i ops).cores = s.cores := rfl
@[simp] theorem State.push_gangs (s : State) (i : Instr) (ops : List Nat) : (s.push i ops).gangs = s.gangs := rfl
@[simp] theorem State.push_chans (s : State) (i : Instr) (ops : List Nat) : (s.push i ops).chans = s.chans := rfl
@[simp] theorem State.push_launches (s : State) (i : Instr) (ops : List Nat) : (s.push i ops).launches = s.launches := rfl
@[simp] theorem State.push_waiting (s : State) (i : Instr) (ops : List Nat) : (s.push i ops).waiting = s.waiting := rfl
@[simp] theorem State.push_begun (s : State) (i : Instr) (ops : List Nat) : (s.push i ops).begun = s.begun := rfl
@[simp] theorem State.push_recCache (s : State) (i : Instr) (ops : List Nat) : (s.push i ops).recCache = s.recCache := rfl
@[simp] theorem State.push_bndCache (s : State) (i : Instr) (ops : List Nat) : (s.push i ops).bndCache = s.bndCache := rfl
@[simp] theorem State.push_bounds (s : State) (i : Instr) (ops : List Nat) : (s.push i ops).bounds = s.bounds := rfl
@[simp] theorem State.push_opened (s : State) (i : Instr) (ops : List Nat) : (s.push i ops).opened = s.opened := rfl
@[simp] theorem State.push_invals (s : State) (i : Instr) (ops : List Nat) : (s.push i ops).invals = s.invals := rfl
@[simp] theorem State.push_slices (s : State) (i : Instr) (ops : List Nat) : (s.push i ops).slices = s.slices := rfl
@[simp] theorem State.push_shadows (s : State) (i : Instr) (ops : List Nat) : (s.push i ops).shadows = s.shadows := rfl
@[simp] theorem State.push_monitors (s : State) (i : Instr) (ops : List Nat) : (s.push i ops).monitors = s.monitors := rfl
@[simp] theorem State.push_accs (s : State) (i : Instr) (ops : List Nat) : (s.push i ops).accs = s.accs := rfl
@[simp] theorem State.push_net (s : State) (i : Instr) (ops : List Nat) : (s.push i ops).net = s.net := rfl
@[simp] theorem State.push_fs (s : State) (i : Instr) (ops : List Nat) : (s.push i ops).fs = s.fs := rfl
@[simp] theorem State.push_ul (s : State) (i : Instr) (ops : List Nat) : (s.push i ops).ul = s.ul := rfl
@[simp] theorem State.push_links (s : State) (i : Instr) (ops : List Nat) : (s.push i ops).links = s.links := rfl
@[simp] theorem State.push_peers (s : State) (i : Instr) (ops : List Nat) : (s.push i ops).peers = s.peers := rfl
@[simp] theorem State.push_hostMem (s : State) (i : Instr) (ops : List Nat) : (s.push i ops).hostMem = s.hostMem := rfl
@[simp] theorem State.push_hostWait (s : State) (i : Instr) (ops : List Nat) : (s.push i ops).hostWait = s.hostWait := rfl
@[simp] theorem State.push_hostRow (s : State) (i : Instr) (ops : List Nat) : (s.push i ops).hostRow = s.hostRow := rfl
@[simp] theorem State.push_hostOut (s : State) (i : Instr) (ops : List Nat) : (s.push i ops).hostOut = s.hostOut := rfl
@[simp] theorem State.push_spdm (s : State) (i : Instr) (ops : List Nat) : (s.push i ops).spdm = s.spdm := rfl
@[simp] theorem State.push_stackTbl (s : State) (i : Instr) (ops : List Nat) : (s.push i ops).stackTbl = s.stackTbl := rfl
@[simp] theorem State.push_boot (s : State) (i : Instr) (ops : List Nat) : (s.push i ops).boot = s.boot := rfl
@[simp] theorem State.push_scan (s : State) (i : Instr) (ops : List Nat) : (s.push i ops).scan = s.scan := rfl
@[simp] theorem State.push_saved (s : State) (i : Instr) (ops : List Nat) : (s.push i ops).saved = s.saved := rfl
@[simp] theorem State.push_corrected (s : State) (i : Instr) (ops : List Nat) : (s.push i ops).corrected = s.corrected := rfl

/-! `State.draw`. -/

@[simp] theorem State.draw_picks (s : State) : s.draw.2.picks = s.picks := rfl
@[simp] theorem State.draw_agenda (s : State) : s.draw.2.agenda = s.agenda := rfl
@[simp] theorem State.draw_ev (s : State) : s.draw.2.ev = s.ev := rfl
@[simp] theorem State.draw_cur (s : State) : s.draw.2.cur = s.cur := rfl
@[simp] theorem State.draw_turn (s : State) : s.draw.2.turn = s.turn := rfl
@[simp] theorem State.draw_freeCount (s : State) : s.draw.2.freeCount = s.freeCount + 1 := rfl
@[simp] theorem State.draw_nextId (s : State) : s.draw.2.nextId = s.nextId := rfl
@[simp] theorem State.draw_mem (s : State) : s.draw.2.mem = s.mem := rfl
@[simp] theorem State.draw_full (s : State) : s.draw.2.full = s.full := rfl
@[simp] theorem State.draw_poison (s : State) : s.draw.2.poison = s.poison := rfl
@[simp] theorem State.draw_accPoison (s : State) : s.draw.2.accPoison = s.accPoison := rfl
@[simp] theorem State.draw_hub (s : State) : s.draw.2.hub = s.hub := rfl
@[simp] theorem State.draw_cores (s : State) : s.draw.2.cores = s.cores := rfl
@[simp] theorem State.draw_gangs (s : State) : s.draw.2.gangs = s.gangs := rfl
@[simp] theorem State.draw_chans (s : State) : s.draw.2.chans = s.chans := rfl
@[simp] theorem State.draw_launches (s : State) : s.draw.2.launches = s.launches := rfl
@[simp] theorem State.draw_waiting (s : State) : s.draw.2.waiting = s.waiting := rfl
@[simp] theorem State.draw_begun (s : State) : s.draw.2.begun = s.begun := rfl
@[simp] theorem State.draw_recCache (s : State) : s.draw.2.recCache = s.recCache := rfl
@[simp] theorem State.draw_bndCache (s : State) : s.draw.2.bndCache = s.bndCache := rfl
@[simp] theorem State.draw_bounds (s : State) : s.draw.2.bounds = s.bounds := rfl
@[simp] theorem State.draw_opened (s : State) : s.draw.2.opened = s.opened := rfl
@[simp] theorem State.draw_invals (s : State) : s.draw.2.invals = s.invals := rfl
@[simp] theorem State.draw_slices (s : State) : s.draw.2.slices = s.slices := rfl
@[simp] theorem State.draw_shadows (s : State) : s.draw.2.shadows = s.shadows := rfl
@[simp] theorem State.draw_monitors (s : State) : s.draw.2.monitors = s.monitors := rfl
@[simp] theorem State.draw_accs (s : State) : s.draw.2.accs = s.accs := rfl
@[simp] theorem State.draw_net (s : State) : s.draw.2.net = s.net := rfl
@[simp] theorem State.draw_fs (s : State) : s.draw.2.fs = s.fs := rfl
@[simp] theorem State.draw_ul (s : State) : s.draw.2.ul = s.ul := rfl
@[simp] theorem State.draw_links (s : State) : s.draw.2.links = s.links := rfl
@[simp] theorem State.draw_peers (s : State) : s.draw.2.peers = s.peers := rfl
@[simp] theorem State.draw_hostMem (s : State) : s.draw.2.hostMem = s.hostMem := rfl
@[simp] theorem State.draw_hostWait (s : State) : s.draw.2.hostWait = s.hostWait := rfl
@[simp] theorem State.draw_hostRow (s : State) : s.draw.2.hostRow = s.hostRow := rfl
@[simp] theorem State.draw_hostOut (s : State) : s.draw.2.hostOut = s.hostOut := rfl
@[simp] theorem State.draw_spdm (s : State) : s.draw.2.spdm = s.spdm := rfl
@[simp] theorem State.draw_stackTbl (s : State) : s.draw.2.stackTbl = s.stackTbl := rfl
@[simp] theorem State.draw_boot (s : State) : s.draw.2.boot = s.boot := rfl
@[simp] theorem State.draw_scan (s : State) : s.draw.2.scan = s.scan := rfl
@[simp] theorem State.draw_saved (s : State) : s.draw.2.saved = s.saved := rfl
@[simp] theorem State.draw_corrected (s : State) : s.draw.2.corrected = s.corrected := rfl

/-! `State.newId`. -/

@[simp] theorem State.newId_picks (s : State) : s.newId.2.picks = s.picks := rfl
@[simp] theorem State.newId_agenda (s : State) : s.newId.2.agenda = s.agenda := rfl
@[simp] theorem State.newId_ev (s : State) : s.newId.2.ev = s.ev := rfl
@[simp] theorem State.newId_cur (s : State) : s.newId.2.cur = s.cur := rfl
@[simp] theorem State.newId_turn (s : State) : s.newId.2.turn = s.turn := rfl
@[simp] theorem State.newId_freeCount (s : State) : s.newId.2.freeCount = s.freeCount := rfl
@[simp] theorem State.newId_nextId (s : State) : s.newId.2.nextId = s.nextId + 1 := rfl
@[simp] theorem State.newId_mem (s : State) : s.newId.2.mem = s.mem := rfl
@[simp] theorem State.newId_full (s : State) : s.newId.2.full = s.full := rfl
@[simp] theorem State.newId_poison (s : State) : s.newId.2.poison = s.poison := rfl
@[simp] theorem State.newId_accPoison (s : State) : s.newId.2.accPoison = s.accPoison := rfl
@[simp] theorem State.newId_hub (s : State) : s.newId.2.hub = s.hub := rfl
@[simp] theorem State.newId_cores (s : State) : s.newId.2.cores = s.cores := rfl
@[simp] theorem State.newId_gangs (s : State) : s.newId.2.gangs = s.gangs := rfl
@[simp] theorem State.newId_chans (s : State) : s.newId.2.chans = s.chans := rfl
@[simp] theorem State.newId_launches (s : State) : s.newId.2.launches = s.launches := rfl
@[simp] theorem State.newId_waiting (s : State) : s.newId.2.waiting = s.waiting := rfl
@[simp] theorem State.newId_begun (s : State) : s.newId.2.begun = s.begun := rfl
@[simp] theorem State.newId_recCache (s : State) : s.newId.2.recCache = s.recCache := rfl
@[simp] theorem State.newId_bndCache (s : State) : s.newId.2.bndCache = s.bndCache := rfl
@[simp] theorem State.newId_bounds (s : State) : s.newId.2.bounds = s.bounds := rfl
@[simp] theorem State.newId_opened (s : State) : s.newId.2.opened = s.opened := rfl
@[simp] theorem State.newId_invals (s : State) : s.newId.2.invals = s.invals := rfl
@[simp] theorem State.newId_slices (s : State) : s.newId.2.slices = s.slices := rfl
@[simp] theorem State.newId_shadows (s : State) : s.newId.2.shadows = s.shadows := rfl
@[simp] theorem State.newId_monitors (s : State) : s.newId.2.monitors = s.monitors := rfl
@[simp] theorem State.newId_accs (s : State) : s.newId.2.accs = s.accs := rfl
@[simp] theorem State.newId_net (s : State) : s.newId.2.net = s.net := rfl
@[simp] theorem State.newId_fs (s : State) : s.newId.2.fs = s.fs := rfl
@[simp] theorem State.newId_ul (s : State) : s.newId.2.ul = s.ul := rfl
@[simp] theorem State.newId_links (s : State) : s.newId.2.links = s.links := rfl
@[simp] theorem State.newId_peers (s : State) : s.newId.2.peers = s.peers := rfl
@[simp] theorem State.newId_hostMem (s : State) : s.newId.2.hostMem = s.hostMem := rfl
@[simp] theorem State.newId_hostWait (s : State) : s.newId.2.hostWait = s.hostWait := rfl
@[simp] theorem State.newId_hostRow (s : State) : s.newId.2.hostRow = s.hostRow := rfl
@[simp] theorem State.newId_hostOut (s : State) : s.newId.2.hostOut = s.hostOut := rfl
@[simp] theorem State.newId_spdm (s : State) : s.newId.2.spdm = s.spdm := rfl
@[simp] theorem State.newId_stackTbl (s : State) : s.newId.2.stackTbl = s.stackTbl := rfl
@[simp] theorem State.newId_boot (s : State) : s.newId.2.boot = s.boot := rfl
@[simp] theorem State.newId_scan (s : State) : s.newId.2.scan = s.scan := rfl
@[simp] theorem State.newId_saved (s : State) : s.newId.2.saved = s.saved := rfl
@[simp] theorem State.newId_corrected (s : State) : s.newId.2.corrected = s.corrected := rfl

/-! `State.setHub`. -/

@[simp] theorem State.setHub_picks (s : State) (off : Nat) (x : DWord) : (s.setHub off x).picks = s.picks := rfl
@[simp] theorem State.setHub_agenda (s : State) (off : Nat) (x : DWord) : (s.setHub off x).agenda = s.agenda := rfl
@[simp] theorem State.setHub_ev (s : State) (off : Nat) (x : DWord) : (s.setHub off x).ev = s.ev := rfl
@[simp] theorem State.setHub_cur (s : State) (off : Nat) (x : DWord) : (s.setHub off x).cur = s.cur := rfl
@[simp] theorem State.setHub_turn (s : State) (off : Nat) (x : DWord) : (s.setHub off x).turn = s.turn := rfl
@[simp] theorem State.setHub_freeCount (s : State) (off : Nat) (x : DWord) : (s.setHub off x).freeCount = s.freeCount := rfl
@[simp] theorem State.setHub_nextId (s : State) (off : Nat) (x : DWord) : (s.setHub off x).nextId = s.nextId := rfl
@[simp] theorem State.setHub_mem (s : State) (off : Nat) (x : DWord) : (s.setHub off x).mem = s.mem := rfl
@[simp] theorem State.setHub_full (s : State) (off : Nat) (x : DWord) : (s.setHub off x).full = s.full := rfl
@[simp] theorem State.setHub_poison (s : State) (off : Nat) (x : DWord) : (s.setHub off x).poison = s.poison := rfl
@[simp] theorem State.setHub_accPoison (s : State) (off : Nat) (x : DWord) : (s.setHub off x).accPoison = s.accPoison := rfl
@[simp] theorem State.setHub_hub (s : State) (off : Nat) (x : DWord) : (s.setHub off x).hub = Tbl.put s.hub off x := rfl
@[simp] theorem State.setHub_cores (s : State) (off : Nat) (x : DWord) : (s.setHub off x).cores = s.cores := rfl
@[simp] theorem State.setHub_gangs (s : State) (off : Nat) (x : DWord) : (s.setHub off x).gangs = s.gangs := rfl
@[simp] theorem State.setHub_chans (s : State) (off : Nat) (x : DWord) : (s.setHub off x).chans = s.chans := rfl
@[simp] theorem State.setHub_launches (s : State) (off : Nat) (x : DWord) : (s.setHub off x).launches = s.launches := rfl
@[simp] theorem State.setHub_waiting (s : State) (off : Nat) (x : DWord) : (s.setHub off x).waiting = s.waiting := rfl
@[simp] theorem State.setHub_begun (s : State) (off : Nat) (x : DWord) : (s.setHub off x).begun = s.begun := rfl
@[simp] theorem State.setHub_recCache (s : State) (off : Nat) (x : DWord) : (s.setHub off x).recCache = s.recCache := rfl
@[simp] theorem State.setHub_bndCache (s : State) (off : Nat) (x : DWord) : (s.setHub off x).bndCache = s.bndCache := rfl
@[simp] theorem State.setHub_bounds (s : State) (off : Nat) (x : DWord) : (s.setHub off x).bounds = s.bounds := rfl
@[simp] theorem State.setHub_opened (s : State) (off : Nat) (x : DWord) : (s.setHub off x).opened = s.opened := rfl
@[simp] theorem State.setHub_invals (s : State) (off : Nat) (x : DWord) : (s.setHub off x).invals = s.invals := rfl
@[simp] theorem State.setHub_slices (s : State) (off : Nat) (x : DWord) : (s.setHub off x).slices = s.slices := rfl
@[simp] theorem State.setHub_shadows (s : State) (off : Nat) (x : DWord) : (s.setHub off x).shadows = s.shadows := rfl
@[simp] theorem State.setHub_monitors (s : State) (off : Nat) (x : DWord) : (s.setHub off x).monitors = s.monitors := rfl
@[simp] theorem State.setHub_accs (s : State) (off : Nat) (x : DWord) : (s.setHub off x).accs = s.accs := rfl
@[simp] theorem State.setHub_net (s : State) (off : Nat) (x : DWord) : (s.setHub off x).net = s.net := rfl
@[simp] theorem State.setHub_fs (s : State) (off : Nat) (x : DWord) : (s.setHub off x).fs = s.fs := rfl
@[simp] theorem State.setHub_ul (s : State) (off : Nat) (x : DWord) : (s.setHub off x).ul = s.ul := rfl
@[simp] theorem State.setHub_links (s : State) (off : Nat) (x : DWord) : (s.setHub off x).links = s.links := rfl
@[simp] theorem State.setHub_peers (s : State) (off : Nat) (x : DWord) : (s.setHub off x).peers = s.peers := rfl
@[simp] theorem State.setHub_hostMem (s : State) (off : Nat) (x : DWord) : (s.setHub off x).hostMem = s.hostMem := rfl
@[simp] theorem State.setHub_hostWait (s : State) (off : Nat) (x : DWord) : (s.setHub off x).hostWait = s.hostWait := rfl
@[simp] theorem State.setHub_hostRow (s : State) (off : Nat) (x : DWord) : (s.setHub off x).hostRow = s.hostRow := rfl
@[simp] theorem State.setHub_hostOut (s : State) (off : Nat) (x : DWord) : (s.setHub off x).hostOut = s.hostOut := rfl
@[simp] theorem State.setHub_spdm (s : State) (off : Nat) (x : DWord) : (s.setHub off x).spdm = s.spdm := rfl
@[simp] theorem State.setHub_stackTbl (s : State) (off : Nat) (x : DWord) : (s.setHub off x).stackTbl = s.stackTbl := rfl
@[simp] theorem State.setHub_boot (s : State) (off : Nat) (x : DWord) : (s.setHub off x).boot = s.boot := rfl
@[simp] theorem State.setHub_scan (s : State) (off : Nat) (x : DWord) : (s.setHub off x).scan = s.scan := rfl
@[simp] theorem State.setHub_saved (s : State) (off : Nat) (x : DWord) : (s.setHub off x).saved = s.saved := rfl
@[simp] theorem State.setHub_corrected (s : State) (off : Nat) (x : DWord) : (s.setHub off x).corrected = s.corrected := rfl

/-! `State.setBound`. -/

@[simp] theorem State.setBound_picks (s : State) (a n : Nat) (r : BoundReg) : (s.setBound a n r).picks = s.picks := rfl
@[simp] theorem State.setBound_agenda (s : State) (a n : Nat) (r : BoundReg) : (s.setBound a n r).agenda = s.agenda := rfl
@[simp] theorem State.setBound_ev (s : State) (a n : Nat) (r : BoundReg) : (s.setBound a n r).ev = s.ev := rfl
@[simp] theorem State.setBound_cur (s : State) (a n : Nat) (r : BoundReg) : (s.setBound a n r).cur = s.cur := rfl
@[simp] theorem State.setBound_turn (s : State) (a n : Nat) (r : BoundReg) : (s.setBound a n r).turn = s.turn := rfl
@[simp] theorem State.setBound_freeCount (s : State) (a n : Nat) (r : BoundReg) : (s.setBound a n r).freeCount = s.freeCount := rfl
@[simp] theorem State.setBound_nextId (s : State) (a n : Nat) (r : BoundReg) : (s.setBound a n r).nextId = s.nextId := rfl
@[simp] theorem State.setBound_mem (s : State) (a n : Nat) (r : BoundReg) : (s.setBound a n r).mem = s.mem := rfl
@[simp] theorem State.setBound_full (s : State) (a n : Nat) (r : BoundReg) : (s.setBound a n r).full = s.full := rfl
@[simp] theorem State.setBound_poison (s : State) (a n : Nat) (r : BoundReg) : (s.setBound a n r).poison = s.poison := rfl
@[simp] theorem State.setBound_accPoison (s : State) (a n : Nat) (r : BoundReg) : (s.setBound a n r).accPoison = s.accPoison := rfl
@[simp] theorem State.setBound_hub (s : State) (a n : Nat) (r : BoundReg) : (s.setBound a n r).hub = s.hub := rfl
@[simp] theorem State.setBound_cores (s : State) (a n : Nat) (r : BoundReg) : (s.setBound a n r).cores = s.cores := rfl
@[simp] theorem State.setBound_gangs (s : State) (a n : Nat) (r : BoundReg) : (s.setBound a n r).gangs = s.gangs := rfl
@[simp] theorem State.setBound_chans (s : State) (a n : Nat) (r : BoundReg) : (s.setBound a n r).chans = s.chans := rfl
@[simp] theorem State.setBound_launches (s : State) (a n : Nat) (r : BoundReg) : (s.setBound a n r).launches = s.launches := rfl
@[simp] theorem State.setBound_waiting (s : State) (a n : Nat) (r : BoundReg) : (s.setBound a n r).waiting = s.waiting := rfl
@[simp] theorem State.setBound_begun (s : State) (a n : Nat) (r : BoundReg) : (s.setBound a n r).begun = s.begun := rfl
@[simp] theorem State.setBound_recCache (s : State) (a n : Nat) (r : BoundReg) : (s.setBound a n r).recCache = s.recCache := rfl
@[simp] theorem State.setBound_bndCache (s : State) (a n : Nat) (r : BoundReg) : (s.setBound a n r).bndCache = s.bndCache := rfl
@[simp] theorem State.setBound_bounds (s : State) (a n : Nat) (r : BoundReg) : (s.setBound a n r).bounds = Tbl.put s.bounds (a * 32 + n) r := rfl
@[simp] theorem State.setBound_opened (s : State) (a n : Nat) (r : BoundReg) : (s.setBound a n r).opened = s.opened := rfl
@[simp] theorem State.setBound_invals (s : State) (a n : Nat) (r : BoundReg) : (s.setBound a n r).invals = s.invals := rfl
@[simp] theorem State.setBound_slices (s : State) (a n : Nat) (r : BoundReg) : (s.setBound a n r).slices = s.slices := rfl
@[simp] theorem State.setBound_shadows (s : State) (a n : Nat) (r : BoundReg) : (s.setBound a n r).shadows = s.shadows := rfl
@[simp] theorem State.setBound_monitors (s : State) (a n : Nat) (r : BoundReg) : (s.setBound a n r).monitors = s.monitors := rfl
@[simp] theorem State.setBound_accs (s : State) (a n : Nat) (r : BoundReg) : (s.setBound a n r).accs = s.accs := rfl
@[simp] theorem State.setBound_net (s : State) (a n : Nat) (r : BoundReg) : (s.setBound a n r).net = s.net := rfl
@[simp] theorem State.setBound_fs (s : State) (a n : Nat) (r : BoundReg) : (s.setBound a n r).fs = s.fs := rfl
@[simp] theorem State.setBound_ul (s : State) (a n : Nat) (r : BoundReg) : (s.setBound a n r).ul = s.ul := rfl
@[simp] theorem State.setBound_links (s : State) (a n : Nat) (r : BoundReg) : (s.setBound a n r).links = s.links := rfl
@[simp] theorem State.setBound_peers (s : State) (a n : Nat) (r : BoundReg) : (s.setBound a n r).peers = s.peers := rfl
@[simp] theorem State.setBound_hostMem (s : State) (a n : Nat) (r : BoundReg) : (s.setBound a n r).hostMem = s.hostMem := rfl
@[simp] theorem State.setBound_hostWait (s : State) (a n : Nat) (r : BoundReg) : (s.setBound a n r).hostWait = s.hostWait := rfl
@[simp] theorem State.setBound_hostRow (s : State) (a n : Nat) (r : BoundReg) : (s.setBound a n r).hostRow = s.hostRow := rfl
@[simp] theorem State.setBound_hostOut (s : State) (a n : Nat) (r : BoundReg) : (s.setBound a n r).hostOut = s.hostOut := rfl
@[simp] theorem State.setBound_spdm (s : State) (a n : Nat) (r : BoundReg) : (s.setBound a n r).spdm = s.spdm := rfl
@[simp] theorem State.setBound_stackTbl (s : State) (a n : Nat) (r : BoundReg) : (s.setBound a n r).stackTbl = s.stackTbl := rfl
@[simp] theorem State.setBound_boot (s : State) (a n : Nat) (r : BoundReg) : (s.setBound a n r).boot = s.boot := rfl
@[simp] theorem State.setBound_scan (s : State) (a n : Nat) (r : BoundReg) : (s.setBound a n r).scan = s.scan := rfl
@[simp] theorem State.setBound_saved (s : State) (a n : Nat) (r : BoundReg) : (s.setBound a n r).saved = s.saved := rfl
@[simp] theorem State.setBound_corrected (s : State) (a n : Nat) (r : BoundReg) : (s.setBound a n r).corrected = s.corrected := rfl

/-! `State.onUl`. -/

@[simp] theorem State.onUl_picks (s : State) (f : Uliah → Uliah) : (s.onUl f).picks = s.picks := rfl
@[simp] theorem State.onUl_agenda (s : State) (f : Uliah → Uliah) : (s.onUl f).agenda = s.agenda := rfl
@[simp] theorem State.onUl_ev (s : State) (f : Uliah → Uliah) : (s.onUl f).ev = s.ev := rfl
@[simp] theorem State.onUl_cur (s : State) (f : Uliah → Uliah) : (s.onUl f).cur = s.cur := rfl
@[simp] theorem State.onUl_turn (s : State) (f : Uliah → Uliah) : (s.onUl f).turn = s.turn := rfl
@[simp] theorem State.onUl_freeCount (s : State) (f : Uliah → Uliah) : (s.onUl f).freeCount = s.freeCount := rfl
@[simp] theorem State.onUl_nextId (s : State) (f : Uliah → Uliah) : (s.onUl f).nextId = s.nextId := rfl
@[simp] theorem State.onUl_mem (s : State) (f : Uliah → Uliah) : (s.onUl f).mem = s.mem := rfl
@[simp] theorem State.onUl_full (s : State) (f : Uliah → Uliah) : (s.onUl f).full = s.full := rfl
@[simp] theorem State.onUl_poison (s : State) (f : Uliah → Uliah) : (s.onUl f).poison = s.poison := rfl
@[simp] theorem State.onUl_accPoison (s : State) (f : Uliah → Uliah) : (s.onUl f).accPoison = s.accPoison := rfl
@[simp] theorem State.onUl_hub (s : State) (f : Uliah → Uliah) : (s.onUl f).hub = s.hub := rfl
@[simp] theorem State.onUl_cores (s : State) (f : Uliah → Uliah) : (s.onUl f).cores = s.cores := rfl
@[simp] theorem State.onUl_gangs (s : State) (f : Uliah → Uliah) : (s.onUl f).gangs = s.gangs := rfl
@[simp] theorem State.onUl_chans (s : State) (f : Uliah → Uliah) : (s.onUl f).chans = s.chans := rfl
@[simp] theorem State.onUl_launches (s : State) (f : Uliah → Uliah) : (s.onUl f).launches = s.launches := rfl
@[simp] theorem State.onUl_waiting (s : State) (f : Uliah → Uliah) : (s.onUl f).waiting = s.waiting := rfl
@[simp] theorem State.onUl_begun (s : State) (f : Uliah → Uliah) : (s.onUl f).begun = s.begun := rfl
@[simp] theorem State.onUl_recCache (s : State) (f : Uliah → Uliah) : (s.onUl f).recCache = s.recCache := rfl
@[simp] theorem State.onUl_bndCache (s : State) (f : Uliah → Uliah) : (s.onUl f).bndCache = s.bndCache := rfl
@[simp] theorem State.onUl_bounds (s : State) (f : Uliah → Uliah) : (s.onUl f).bounds = s.bounds := rfl
@[simp] theorem State.onUl_opened (s : State) (f : Uliah → Uliah) : (s.onUl f).opened = s.opened := rfl
@[simp] theorem State.onUl_invals (s : State) (f : Uliah → Uliah) : (s.onUl f).invals = s.invals := rfl
@[simp] theorem State.onUl_slices (s : State) (f : Uliah → Uliah) : (s.onUl f).slices = s.slices := rfl
@[simp] theorem State.onUl_shadows (s : State) (f : Uliah → Uliah) : (s.onUl f).shadows = s.shadows := rfl
@[simp] theorem State.onUl_monitors (s : State) (f : Uliah → Uliah) : (s.onUl f).monitors = s.monitors := rfl
@[simp] theorem State.onUl_accs (s : State) (f : Uliah → Uliah) : (s.onUl f).accs = s.accs := rfl
@[simp] theorem State.onUl_net (s : State) (f : Uliah → Uliah) : (s.onUl f).net = s.net := rfl
@[simp] theorem State.onUl_fs (s : State) (f : Uliah → Uliah) : (s.onUl f).fs = s.fs := rfl
@[simp] theorem State.onUl_ul (s : State) (f : Uliah → Uliah) : (s.onUl f).ul = f s.ul := rfl
@[simp] theorem State.onUl_links (s : State) (f : Uliah → Uliah) : (s.onUl f).links = s.links := rfl
@[simp] theorem State.onUl_peers (s : State) (f : Uliah → Uliah) : (s.onUl f).peers = s.peers := rfl
@[simp] theorem State.onUl_hostMem (s : State) (f : Uliah → Uliah) : (s.onUl f).hostMem = s.hostMem := rfl
@[simp] theorem State.onUl_hostWait (s : State) (f : Uliah → Uliah) : (s.onUl f).hostWait = s.hostWait := rfl
@[simp] theorem State.onUl_hostRow (s : State) (f : Uliah → Uliah) : (s.onUl f).hostRow = s.hostRow := rfl
@[simp] theorem State.onUl_hostOut (s : State) (f : Uliah → Uliah) : (s.onUl f).hostOut = s.hostOut := rfl
@[simp] theorem State.onUl_spdm (s : State) (f : Uliah → Uliah) : (s.onUl f).spdm = s.spdm := rfl
@[simp] theorem State.onUl_stackTbl (s : State) (f : Uliah → Uliah) : (s.onUl f).stackTbl = s.stackTbl := rfl
@[simp] theorem State.onUl_boot (s : State) (f : Uliah → Uliah) : (s.onUl f).boot = s.boot := rfl
@[simp] theorem State.onUl_scan (s : State) (f : Uliah → Uliah) : (s.onUl f).scan = s.scan := rfl
@[simp] theorem State.onUl_saved (s : State) (f : Uliah → Uliah) : (s.onUl f).saved = s.saved := rfl
@[simp] theorem State.onUl_corrected (s : State) (f : Uliah → Uliah) : (s.onUl f).corrected = s.corrected := rfl

/-! `State.onNet`. -/

@[simp] theorem State.onNet_picks (s : State) (f : Net → Net) : (s.onNet f).picks = s.picks := rfl
@[simp] theorem State.onNet_agenda (s : State) (f : Net → Net) : (s.onNet f).agenda = s.agenda := rfl
@[simp] theorem State.onNet_ev (s : State) (f : Net → Net) : (s.onNet f).ev = s.ev := rfl
@[simp] theorem State.onNet_cur (s : State) (f : Net → Net) : (s.onNet f).cur = s.cur := rfl
@[simp] theorem State.onNet_turn (s : State) (f : Net → Net) : (s.onNet f).turn = s.turn := rfl
@[simp] theorem State.onNet_freeCount (s : State) (f : Net → Net) : (s.onNet f).freeCount = s.freeCount := rfl
@[simp] theorem State.onNet_nextId (s : State) (f : Net → Net) : (s.onNet f).nextId = s.nextId := rfl
@[simp] theorem State.onNet_mem (s : State) (f : Net → Net) : (s.onNet f).mem = s.mem := rfl
@[simp] theorem State.onNet_full (s : State) (f : Net → Net) : (s.onNet f).full = s.full := rfl
@[simp] theorem State.onNet_poison (s : State) (f : Net → Net) : (s.onNet f).poison = s.poison := rfl
@[simp] theorem State.onNet_accPoison (s : State) (f : Net → Net) : (s.onNet f).accPoison = s.accPoison := rfl
@[simp] theorem State.onNet_hub (s : State) (f : Net → Net) : (s.onNet f).hub = s.hub := rfl
@[simp] theorem State.onNet_cores (s : State) (f : Net → Net) : (s.onNet f).cores = s.cores := rfl
@[simp] theorem State.onNet_gangs (s : State) (f : Net → Net) : (s.onNet f).gangs = s.gangs := rfl
@[simp] theorem State.onNet_chans (s : State) (f : Net → Net) : (s.onNet f).chans = s.chans := rfl
@[simp] theorem State.onNet_launches (s : State) (f : Net → Net) : (s.onNet f).launches = s.launches := rfl
@[simp] theorem State.onNet_waiting (s : State) (f : Net → Net) : (s.onNet f).waiting = s.waiting := rfl
@[simp] theorem State.onNet_begun (s : State) (f : Net → Net) : (s.onNet f).begun = s.begun := rfl
@[simp] theorem State.onNet_recCache (s : State) (f : Net → Net) : (s.onNet f).recCache = s.recCache := rfl
@[simp] theorem State.onNet_bndCache (s : State) (f : Net → Net) : (s.onNet f).bndCache = s.bndCache := rfl
@[simp] theorem State.onNet_bounds (s : State) (f : Net → Net) : (s.onNet f).bounds = s.bounds := rfl
@[simp] theorem State.onNet_opened (s : State) (f : Net → Net) : (s.onNet f).opened = s.opened := rfl
@[simp] theorem State.onNet_invals (s : State) (f : Net → Net) : (s.onNet f).invals = s.invals := rfl
@[simp] theorem State.onNet_slices (s : State) (f : Net → Net) : (s.onNet f).slices = s.slices := rfl
@[simp] theorem State.onNet_shadows (s : State) (f : Net → Net) : (s.onNet f).shadows = s.shadows := rfl
@[simp] theorem State.onNet_monitors (s : State) (f : Net → Net) : (s.onNet f).monitors = s.monitors := rfl
@[simp] theorem State.onNet_accs (s : State) (f : Net → Net) : (s.onNet f).accs = s.accs := rfl
@[simp] theorem State.onNet_net (s : State) (f : Net → Net) : (s.onNet f).net = f s.net := rfl
@[simp] theorem State.onNet_fs (s : State) (f : Net → Net) : (s.onNet f).fs = s.fs := rfl
@[simp] theorem State.onNet_ul (s : State) (f : Net → Net) : (s.onNet f).ul = s.ul := rfl
@[simp] theorem State.onNet_links (s : State) (f : Net → Net) : (s.onNet f).links = s.links := rfl
@[simp] theorem State.onNet_peers (s : State) (f : Net → Net) : (s.onNet f).peers = s.peers := rfl
@[simp] theorem State.onNet_hostMem (s : State) (f : Net → Net) : (s.onNet f).hostMem = s.hostMem := rfl
@[simp] theorem State.onNet_hostWait (s : State) (f : Net → Net) : (s.onNet f).hostWait = s.hostWait := rfl
@[simp] theorem State.onNet_hostRow (s : State) (f : Net → Net) : (s.onNet f).hostRow = s.hostRow := rfl
@[simp] theorem State.onNet_hostOut (s : State) (f : Net → Net) : (s.onNet f).hostOut = s.hostOut := rfl
@[simp] theorem State.onNet_spdm (s : State) (f : Net → Net) : (s.onNet f).spdm = s.spdm := rfl
@[simp] theorem State.onNet_stackTbl (s : State) (f : Net → Net) : (s.onNet f).stackTbl = s.stackTbl := rfl
@[simp] theorem State.onNet_boot (s : State) (f : Net → Net) : (s.onNet f).boot = s.boot := rfl
@[simp] theorem State.onNet_scan (s : State) (f : Net → Net) : (s.onNet f).scan = s.scan := rfl
@[simp] theorem State.onNet_saved (s : State) (f : Net → Net) : (s.onNet f).saved = s.saved := rfl
@[simp] theorem State.onNet_corrected (s : State) (f : Net → Net) : (s.onNet f).corrected = s.corrected := rfl

/-! `State.onLink`. -/

@[simp] theorem State.onLink_picks (s : State) (l : Nat) (f : Link → Link) : (s.onLink l f).picks = s.picks := rfl
@[simp] theorem State.onLink_agenda (s : State) (l : Nat) (f : Link → Link) : (s.onLink l f).agenda = s.agenda := rfl
@[simp] theorem State.onLink_ev (s : State) (l : Nat) (f : Link → Link) : (s.onLink l f).ev = s.ev := rfl
@[simp] theorem State.onLink_cur (s : State) (l : Nat) (f : Link → Link) : (s.onLink l f).cur = s.cur := rfl
@[simp] theorem State.onLink_turn (s : State) (l : Nat) (f : Link → Link) : (s.onLink l f).turn = s.turn := rfl
@[simp] theorem State.onLink_freeCount (s : State) (l : Nat) (f : Link → Link) : (s.onLink l f).freeCount = s.freeCount := rfl
@[simp] theorem State.onLink_nextId (s : State) (l : Nat) (f : Link → Link) : (s.onLink l f).nextId = s.nextId := rfl
@[simp] theorem State.onLink_mem (s : State) (l : Nat) (f : Link → Link) : (s.onLink l f).mem = s.mem := rfl
@[simp] theorem State.onLink_full (s : State) (l : Nat) (f : Link → Link) : (s.onLink l f).full = s.full := rfl
@[simp] theorem State.onLink_poison (s : State) (l : Nat) (f : Link → Link) : (s.onLink l f).poison = s.poison := rfl
@[simp] theorem State.onLink_accPoison (s : State) (l : Nat) (f : Link → Link) : (s.onLink l f).accPoison = s.accPoison := rfl
@[simp] theorem State.onLink_hub (s : State) (l : Nat) (f : Link → Link) : (s.onLink l f).hub = s.hub := rfl
@[simp] theorem State.onLink_cores (s : State) (l : Nat) (f : Link → Link) : (s.onLink l f).cores = s.cores := rfl
@[simp] theorem State.onLink_gangs (s : State) (l : Nat) (f : Link → Link) : (s.onLink l f).gangs = s.gangs := rfl
@[simp] theorem State.onLink_chans (s : State) (l : Nat) (f : Link → Link) : (s.onLink l f).chans = s.chans := rfl
@[simp] theorem State.onLink_launches (s : State) (l : Nat) (f : Link → Link) : (s.onLink l f).launches = s.launches := rfl
@[simp] theorem State.onLink_waiting (s : State) (l : Nat) (f : Link → Link) : (s.onLink l f).waiting = s.waiting := rfl
@[simp] theorem State.onLink_begun (s : State) (l : Nat) (f : Link → Link) : (s.onLink l f).begun = s.begun := rfl
@[simp] theorem State.onLink_recCache (s : State) (l : Nat) (f : Link → Link) : (s.onLink l f).recCache = s.recCache := rfl
@[simp] theorem State.onLink_bndCache (s : State) (l : Nat) (f : Link → Link) : (s.onLink l f).bndCache = s.bndCache := rfl
@[simp] theorem State.onLink_bounds (s : State) (l : Nat) (f : Link → Link) : (s.onLink l f).bounds = s.bounds := rfl
@[simp] theorem State.onLink_opened (s : State) (l : Nat) (f : Link → Link) : (s.onLink l f).opened = s.opened := rfl
@[simp] theorem State.onLink_invals (s : State) (l : Nat) (f : Link → Link) : (s.onLink l f).invals = s.invals := rfl
@[simp] theorem State.onLink_slices (s : State) (l : Nat) (f : Link → Link) : (s.onLink l f).slices = s.slices := rfl
@[simp] theorem State.onLink_shadows (s : State) (l : Nat) (f : Link → Link) : (s.onLink l f).shadows = s.shadows := rfl
@[simp] theorem State.onLink_monitors (s : State) (l : Nat) (f : Link → Link) : (s.onLink l f).monitors = s.monitors := rfl
@[simp] theorem State.onLink_accs (s : State) (l : Nat) (f : Link → Link) : (s.onLink l f).accs = s.accs := rfl
@[simp] theorem State.onLink_net (s : State) (l : Nat) (f : Link → Link) : (s.onLink l f).net = s.net := rfl
@[simp] theorem State.onLink_fs (s : State) (l : Nat) (f : Link → Link) : (s.onLink l f).fs = s.fs := rfl
@[simp] theorem State.onLink_ul (s : State) (l : Nat) (f : Link → Link) : (s.onLink l f).ul = s.ul := rfl
@[simp] theorem State.onLink_links (s : State) (l : Nat) (f : Link → Link) : (s.onLink l f).links = Tbl.put s.links l (f (Tbl.at s.links l {})) := rfl
@[simp] theorem State.onLink_peers (s : State) (l : Nat) (f : Link → Link) : (s.onLink l f).peers = s.peers := rfl
@[simp] theorem State.onLink_hostMem (s : State) (l : Nat) (f : Link → Link) : (s.onLink l f).hostMem = s.hostMem := rfl
@[simp] theorem State.onLink_hostWait (s : State) (l : Nat) (f : Link → Link) : (s.onLink l f).hostWait = s.hostWait := rfl
@[simp] theorem State.onLink_hostRow (s : State) (l : Nat) (f : Link → Link) : (s.onLink l f).hostRow = s.hostRow := rfl
@[simp] theorem State.onLink_hostOut (s : State) (l : Nat) (f : Link → Link) : (s.onLink l f).hostOut = s.hostOut := rfl
@[simp] theorem State.onLink_spdm (s : State) (l : Nat) (f : Link → Link) : (s.onLink l f).spdm = s.spdm := rfl
@[simp] theorem State.onLink_stackTbl (s : State) (l : Nat) (f : Link → Link) : (s.onLink l f).stackTbl = s.stackTbl := rfl
@[simp] theorem State.onLink_boot (s : State) (l : Nat) (f : Link → Link) : (s.onLink l f).boot = s.boot := rfl
@[simp] theorem State.onLink_scan (s : State) (l : Nat) (f : Link → Link) : (s.onLink l f).scan = s.scan := rfl
@[simp] theorem State.onLink_saved (s : State) (l : Nat) (f : Link → Link) : (s.onLink l f).saved = s.saved := rfl
@[simp] theorem State.onLink_corrected (s : State) (l : Nat) (f : Link → Link) : (s.onLink l f).corrected = s.corrected := rfl

/-! `State.onSlice`. -/

@[simp] theorem State.onSlice_picks (s : State) (n : Nat) (f : Slice → Slice) : (s.onSlice n f).picks = s.picks := rfl
@[simp] theorem State.onSlice_agenda (s : State) (n : Nat) (f : Slice → Slice) : (s.onSlice n f).agenda = s.agenda := rfl
@[simp] theorem State.onSlice_ev (s : State) (n : Nat) (f : Slice → Slice) : (s.onSlice n f).ev = s.ev := rfl
@[simp] theorem State.onSlice_cur (s : State) (n : Nat) (f : Slice → Slice) : (s.onSlice n f).cur = s.cur := rfl
@[simp] theorem State.onSlice_turn (s : State) (n : Nat) (f : Slice → Slice) : (s.onSlice n f).turn = s.turn := rfl
@[simp] theorem State.onSlice_freeCount (s : State) (n : Nat) (f : Slice → Slice) : (s.onSlice n f).freeCount = s.freeCount := rfl
@[simp] theorem State.onSlice_nextId (s : State) (n : Nat) (f : Slice → Slice) : (s.onSlice n f).nextId = s.nextId := rfl
@[simp] theorem State.onSlice_mem (s : State) (n : Nat) (f : Slice → Slice) : (s.onSlice n f).mem = s.mem := rfl
@[simp] theorem State.onSlice_full (s : State) (n : Nat) (f : Slice → Slice) : (s.onSlice n f).full = s.full := rfl
@[simp] theorem State.onSlice_poison (s : State) (n : Nat) (f : Slice → Slice) : (s.onSlice n f).poison = s.poison := rfl
@[simp] theorem State.onSlice_accPoison (s : State) (n : Nat) (f : Slice → Slice) : (s.onSlice n f).accPoison = s.accPoison := rfl
@[simp] theorem State.onSlice_hub (s : State) (n : Nat) (f : Slice → Slice) : (s.onSlice n f).hub = s.hub := rfl
@[simp] theorem State.onSlice_cores (s : State) (n : Nat) (f : Slice → Slice) : (s.onSlice n f).cores = s.cores := rfl
@[simp] theorem State.onSlice_gangs (s : State) (n : Nat) (f : Slice → Slice) : (s.onSlice n f).gangs = s.gangs := rfl
@[simp] theorem State.onSlice_chans (s : State) (n : Nat) (f : Slice → Slice) : (s.onSlice n f).chans = s.chans := rfl
@[simp] theorem State.onSlice_launches (s : State) (n : Nat) (f : Slice → Slice) : (s.onSlice n f).launches = s.launches := rfl
@[simp] theorem State.onSlice_waiting (s : State) (n : Nat) (f : Slice → Slice) : (s.onSlice n f).waiting = s.waiting := rfl
@[simp] theorem State.onSlice_begun (s : State) (n : Nat) (f : Slice → Slice) : (s.onSlice n f).begun = s.begun := rfl
@[simp] theorem State.onSlice_recCache (s : State) (n : Nat) (f : Slice → Slice) : (s.onSlice n f).recCache = s.recCache := rfl
@[simp] theorem State.onSlice_bndCache (s : State) (n : Nat) (f : Slice → Slice) : (s.onSlice n f).bndCache = s.bndCache := rfl
@[simp] theorem State.onSlice_bounds (s : State) (n : Nat) (f : Slice → Slice) : (s.onSlice n f).bounds = s.bounds := rfl
@[simp] theorem State.onSlice_opened (s : State) (n : Nat) (f : Slice → Slice) : (s.onSlice n f).opened = s.opened := rfl
@[simp] theorem State.onSlice_invals (s : State) (n : Nat) (f : Slice → Slice) : (s.onSlice n f).invals = s.invals := rfl
@[simp] theorem State.onSlice_slices (s : State) (n : Nat) (f : Slice → Slice) : (s.onSlice n f).slices = Tbl.put s.slices n (f (s.slice n)) := rfl
@[simp] theorem State.onSlice_shadows (s : State) (n : Nat) (f : Slice → Slice) : (s.onSlice n f).shadows = s.shadows := rfl
@[simp] theorem State.onSlice_monitors (s : State) (n : Nat) (f : Slice → Slice) : (s.onSlice n f).monitors = s.monitors := rfl
@[simp] theorem State.onSlice_accs (s : State) (n : Nat) (f : Slice → Slice) : (s.onSlice n f).accs = s.accs := rfl
@[simp] theorem State.onSlice_net (s : State) (n : Nat) (f : Slice → Slice) : (s.onSlice n f).net = s.net := rfl
@[simp] theorem State.onSlice_fs (s : State) (n : Nat) (f : Slice → Slice) : (s.onSlice n f).fs = s.fs := rfl
@[simp] theorem State.onSlice_ul (s : State) (n : Nat) (f : Slice → Slice) : (s.onSlice n f).ul = s.ul := rfl
@[simp] theorem State.onSlice_links (s : State) (n : Nat) (f : Slice → Slice) : (s.onSlice n f).links = s.links := rfl
@[simp] theorem State.onSlice_peers (s : State) (n : Nat) (f : Slice → Slice) : (s.onSlice n f).peers = s.peers := rfl
@[simp] theorem State.onSlice_hostMem (s : State) (n : Nat) (f : Slice → Slice) : (s.onSlice n f).hostMem = s.hostMem := rfl
@[simp] theorem State.onSlice_hostWait (s : State) (n : Nat) (f : Slice → Slice) : (s.onSlice n f).hostWait = s.hostWait := rfl
@[simp] theorem State.onSlice_hostRow (s : State) (n : Nat) (f : Slice → Slice) : (s.onSlice n f).hostRow = s.hostRow := rfl
@[simp] theorem State.onSlice_hostOut (s : State) (n : Nat) (f : Slice → Slice) : (s.onSlice n f).hostOut = s.hostOut := rfl
@[simp] theorem State.onSlice_spdm (s : State) (n : Nat) (f : Slice → Slice) : (s.onSlice n f).spdm = s.spdm := rfl
@[simp] theorem State.onSlice_stackTbl (s : State) (n : Nat) (f : Slice → Slice) : (s.onSlice n f).stackTbl = s.stackTbl := rfl
@[simp] theorem State.onSlice_boot (s : State) (n : Nat) (f : Slice → Slice) : (s.onSlice n f).boot = s.boot := rfl
@[simp] theorem State.onSlice_scan (s : State) (n : Nat) (f : Slice → Slice) : (s.onSlice n f).scan = s.scan := rfl
@[simp] theorem State.onSlice_saved (s : State) (n : Nat) (f : Slice → Slice) : (s.onSlice n f).saved = s.saved := rfl
@[simp] theorem State.onSlice_corrected (s : State) (n : Nat) (f : Slice → Slice) : (s.onSlice n f).corrected = s.corrected := rfl

/-! `State.onStackSt`. -/

@[simp] theorem State.onStackSt_picks (s : State) (n : Nat) (f : StackSt → StackSt) : (s.onStackSt n f).picks = s.picks := rfl
@[simp] theorem State.onStackSt_agenda (s : State) (n : Nat) (f : StackSt → StackSt) : (s.onStackSt n f).agenda = s.agenda := rfl
@[simp] theorem State.onStackSt_ev (s : State) (n : Nat) (f : StackSt → StackSt) : (s.onStackSt n f).ev = s.ev := rfl
@[simp] theorem State.onStackSt_cur (s : State) (n : Nat) (f : StackSt → StackSt) : (s.onStackSt n f).cur = s.cur := rfl
@[simp] theorem State.onStackSt_turn (s : State) (n : Nat) (f : StackSt → StackSt) : (s.onStackSt n f).turn = s.turn := rfl
@[simp] theorem State.onStackSt_freeCount (s : State) (n : Nat) (f : StackSt → StackSt) : (s.onStackSt n f).freeCount = s.freeCount := rfl
@[simp] theorem State.onStackSt_nextId (s : State) (n : Nat) (f : StackSt → StackSt) : (s.onStackSt n f).nextId = s.nextId := rfl
@[simp] theorem State.onStackSt_mem (s : State) (n : Nat) (f : StackSt → StackSt) : (s.onStackSt n f).mem = s.mem := rfl
@[simp] theorem State.onStackSt_full (s : State) (n : Nat) (f : StackSt → StackSt) : (s.onStackSt n f).full = s.full := rfl
@[simp] theorem State.onStackSt_poison (s : State) (n : Nat) (f : StackSt → StackSt) : (s.onStackSt n f).poison = s.poison := rfl
@[simp] theorem State.onStackSt_accPoison (s : State) (n : Nat) (f : StackSt → StackSt) : (s.onStackSt n f).accPoison = s.accPoison := rfl
@[simp] theorem State.onStackSt_hub (s : State) (n : Nat) (f : StackSt → StackSt) : (s.onStackSt n f).hub = s.hub := rfl
@[simp] theorem State.onStackSt_cores (s : State) (n : Nat) (f : StackSt → StackSt) : (s.onStackSt n f).cores = s.cores := rfl
@[simp] theorem State.onStackSt_gangs (s : State) (n : Nat) (f : StackSt → StackSt) : (s.onStackSt n f).gangs = s.gangs := rfl
@[simp] theorem State.onStackSt_chans (s : State) (n : Nat) (f : StackSt → StackSt) : (s.onStackSt n f).chans = s.chans := rfl
@[simp] theorem State.onStackSt_launches (s : State) (n : Nat) (f : StackSt → StackSt) : (s.onStackSt n f).launches = s.launches := rfl
@[simp] theorem State.onStackSt_waiting (s : State) (n : Nat) (f : StackSt → StackSt) : (s.onStackSt n f).waiting = s.waiting := rfl
@[simp] theorem State.onStackSt_begun (s : State) (n : Nat) (f : StackSt → StackSt) : (s.onStackSt n f).begun = s.begun := rfl
@[simp] theorem State.onStackSt_recCache (s : State) (n : Nat) (f : StackSt → StackSt) : (s.onStackSt n f).recCache = s.recCache := rfl
@[simp] theorem State.onStackSt_bndCache (s : State) (n : Nat) (f : StackSt → StackSt) : (s.onStackSt n f).bndCache = s.bndCache := rfl
@[simp] theorem State.onStackSt_bounds (s : State) (n : Nat) (f : StackSt → StackSt) : (s.onStackSt n f).bounds = s.bounds := rfl
@[simp] theorem State.onStackSt_opened (s : State) (n : Nat) (f : StackSt → StackSt) : (s.onStackSt n f).opened = s.opened := rfl
@[simp] theorem State.onStackSt_invals (s : State) (n : Nat) (f : StackSt → StackSt) : (s.onStackSt n f).invals = s.invals := rfl
@[simp] theorem State.onStackSt_slices (s : State) (n : Nat) (f : StackSt → StackSt) : (s.onStackSt n f).slices = s.slices := rfl
@[simp] theorem State.onStackSt_shadows (s : State) (n : Nat) (f : StackSt → StackSt) : (s.onStackSt n f).shadows = s.shadows := rfl
@[simp] theorem State.onStackSt_monitors (s : State) (n : Nat) (f : StackSt → StackSt) : (s.onStackSt n f).monitors = s.monitors := rfl
@[simp] theorem State.onStackSt_accs (s : State) (n : Nat) (f : StackSt → StackSt) : (s.onStackSt n f).accs = s.accs := rfl
@[simp] theorem State.onStackSt_net (s : State) (n : Nat) (f : StackSt → StackSt) : (s.onStackSt n f).net = s.net := rfl
@[simp] theorem State.onStackSt_fs (s : State) (n : Nat) (f : StackSt → StackSt) : (s.onStackSt n f).fs = s.fs := rfl
@[simp] theorem State.onStackSt_ul (s : State) (n : Nat) (f : StackSt → StackSt) : (s.onStackSt n f).ul = s.ul := rfl
@[simp] theorem State.onStackSt_links (s : State) (n : Nat) (f : StackSt → StackSt) : (s.onStackSt n f).links = s.links := rfl
@[simp] theorem State.onStackSt_peers (s : State) (n : Nat) (f : StackSt → StackSt) : (s.onStackSt n f).peers = s.peers := rfl
@[simp] theorem State.onStackSt_hostMem (s : State) (n : Nat) (f : StackSt → StackSt) : (s.onStackSt n f).hostMem = s.hostMem := rfl
@[simp] theorem State.onStackSt_hostWait (s : State) (n : Nat) (f : StackSt → StackSt) : (s.onStackSt n f).hostWait = s.hostWait := rfl
@[simp] theorem State.onStackSt_hostRow (s : State) (n : Nat) (f : StackSt → StackSt) : (s.onStackSt n f).hostRow = s.hostRow := rfl
@[simp] theorem State.onStackSt_hostOut (s : State) (n : Nat) (f : StackSt → StackSt) : (s.onStackSt n f).hostOut = s.hostOut := rfl
@[simp] theorem State.onStackSt_spdm (s : State) (n : Nat) (f : StackSt → StackSt) : (s.onStackSt n f).spdm = s.spdm := rfl
@[simp] theorem State.onStackSt_stackTbl (s : State) (n : Nat) (f : StackSt → StackSt) : (s.onStackSt n f).stackTbl = Tbl.put s.stackTbl n (f (Tbl.at s.stackTbl n {})) := rfl
@[simp] theorem State.onStackSt_boot (s : State) (n : Nat) (f : StackSt → StackSt) : (s.onStackSt n f).boot = s.boot := rfl
@[simp] theorem State.onStackSt_scan (s : State) (n : Nat) (f : StackSt → StackSt) : (s.onStackSt n f).scan = s.scan := rfl
@[simp] theorem State.onStackSt_saved (s : State) (n : Nat) (f : StackSt → StackSt) : (s.onStackSt n f).saved = s.saved := rfl
@[simp] theorem State.onStackSt_corrected (s : State) (n : Nat) (f : StackSt → StackSt) : (s.onStackSt n f).corrected = s.corrected := rfl

/-! `State.onBoot`. -/

@[simp] theorem State.onBoot_picks (s : State) (f : Boot → Boot) : (s.onBoot f).picks = s.picks := rfl
@[simp] theorem State.onBoot_agenda (s : State) (f : Boot → Boot) : (s.onBoot f).agenda = s.agenda := rfl
@[simp] theorem State.onBoot_ev (s : State) (f : Boot → Boot) : (s.onBoot f).ev = s.ev := rfl
@[simp] theorem State.onBoot_cur (s : State) (f : Boot → Boot) : (s.onBoot f).cur = s.cur := rfl
@[simp] theorem State.onBoot_turn (s : State) (f : Boot → Boot) : (s.onBoot f).turn = s.turn := rfl
@[simp] theorem State.onBoot_freeCount (s : State) (f : Boot → Boot) : (s.onBoot f).freeCount = s.freeCount := rfl
@[simp] theorem State.onBoot_nextId (s : State) (f : Boot → Boot) : (s.onBoot f).nextId = s.nextId := rfl
@[simp] theorem State.onBoot_mem (s : State) (f : Boot → Boot) : (s.onBoot f).mem = s.mem := rfl
@[simp] theorem State.onBoot_full (s : State) (f : Boot → Boot) : (s.onBoot f).full = s.full := rfl
@[simp] theorem State.onBoot_poison (s : State) (f : Boot → Boot) : (s.onBoot f).poison = s.poison := rfl
@[simp] theorem State.onBoot_accPoison (s : State) (f : Boot → Boot) : (s.onBoot f).accPoison = s.accPoison := rfl
@[simp] theorem State.onBoot_hub (s : State) (f : Boot → Boot) : (s.onBoot f).hub = s.hub := rfl
@[simp] theorem State.onBoot_cores (s : State) (f : Boot → Boot) : (s.onBoot f).cores = s.cores := rfl
@[simp] theorem State.onBoot_gangs (s : State) (f : Boot → Boot) : (s.onBoot f).gangs = s.gangs := rfl
@[simp] theorem State.onBoot_chans (s : State) (f : Boot → Boot) : (s.onBoot f).chans = s.chans := rfl
@[simp] theorem State.onBoot_launches (s : State) (f : Boot → Boot) : (s.onBoot f).launches = s.launches := rfl
@[simp] theorem State.onBoot_waiting (s : State) (f : Boot → Boot) : (s.onBoot f).waiting = s.waiting := rfl
@[simp] theorem State.onBoot_begun (s : State) (f : Boot → Boot) : (s.onBoot f).begun = s.begun := rfl
@[simp] theorem State.onBoot_recCache (s : State) (f : Boot → Boot) : (s.onBoot f).recCache = s.recCache := rfl
@[simp] theorem State.onBoot_bndCache (s : State) (f : Boot → Boot) : (s.onBoot f).bndCache = s.bndCache := rfl
@[simp] theorem State.onBoot_bounds (s : State) (f : Boot → Boot) : (s.onBoot f).bounds = s.bounds := rfl
@[simp] theorem State.onBoot_opened (s : State) (f : Boot → Boot) : (s.onBoot f).opened = s.opened := rfl
@[simp] theorem State.onBoot_invals (s : State) (f : Boot → Boot) : (s.onBoot f).invals = s.invals := rfl
@[simp] theorem State.onBoot_slices (s : State) (f : Boot → Boot) : (s.onBoot f).slices = s.slices := rfl
@[simp] theorem State.onBoot_shadows (s : State) (f : Boot → Boot) : (s.onBoot f).shadows = s.shadows := rfl
@[simp] theorem State.onBoot_monitors (s : State) (f : Boot → Boot) : (s.onBoot f).monitors = s.monitors := rfl
@[simp] theorem State.onBoot_accs (s : State) (f : Boot → Boot) : (s.onBoot f).accs = s.accs := rfl
@[simp] theorem State.onBoot_net (s : State) (f : Boot → Boot) : (s.onBoot f).net = s.net := rfl
@[simp] theorem State.onBoot_fs (s : State) (f : Boot → Boot) : (s.onBoot f).fs = s.fs := rfl
@[simp] theorem State.onBoot_ul (s : State) (f : Boot → Boot) : (s.onBoot f).ul = s.ul := rfl
@[simp] theorem State.onBoot_links (s : State) (f : Boot → Boot) : (s.onBoot f).links = s.links := rfl
@[simp] theorem State.onBoot_peers (s : State) (f : Boot → Boot) : (s.onBoot f).peers = s.peers := rfl
@[simp] theorem State.onBoot_hostMem (s : State) (f : Boot → Boot) : (s.onBoot f).hostMem = s.hostMem := rfl
@[simp] theorem State.onBoot_hostWait (s : State) (f : Boot → Boot) : (s.onBoot f).hostWait = s.hostWait := rfl
@[simp] theorem State.onBoot_hostRow (s : State) (f : Boot → Boot) : (s.onBoot f).hostRow = s.hostRow := rfl
@[simp] theorem State.onBoot_hostOut (s : State) (f : Boot → Boot) : (s.onBoot f).hostOut = s.hostOut := rfl
@[simp] theorem State.onBoot_spdm (s : State) (f : Boot → Boot) : (s.onBoot f).spdm = s.spdm := rfl
@[simp] theorem State.onBoot_stackTbl (s : State) (f : Boot → Boot) : (s.onBoot f).stackTbl = s.stackTbl := rfl
@[simp] theorem State.onBoot_boot (s : State) (f : Boot → Boot) : (s.onBoot f).boot = f s.boot := rfl
@[simp] theorem State.onBoot_scan (s : State) (f : Boot → Boot) : (s.onBoot f).scan = s.scan := rfl
@[simp] theorem State.onBoot_saved (s : State) (f : Boot → Boot) : (s.onBoot f).saved = s.saved := rfl
@[simp] theorem State.onBoot_corrected (s : State) (f : Boot → Boot) : (s.onBoot f).corrected = s.corrected := rfl

/-! `State.issuing`. -/

@[simp] theorem State.issuing_picks (s : State) (c k i w n : Nat) : (s.issuing c k i w n).picks = s.picks := rfl
@[simp] theorem State.issuing_agenda (s : State) (c k i w n : Nat) : (s.issuing c k i w n).agenda = s.agenda := rfl
@[simp] theorem State.issuing_ev (s : State) (c k i w n : Nat) : (s.issuing c k i w n).ev = s.ev := rfl
@[simp] theorem State.issuing_cur (s : State) (c k i w n : Nat) : (s.issuing c k i w n).cur = { core := c, slot := k, split := i, word := w, len := n } := rfl
@[simp] theorem State.issuing_turn (s : State) (c k i w n : Nat) : (s.issuing c k i w n).turn = s.turn := rfl
@[simp] theorem State.issuing_freeCount (s : State) (c k i w n : Nat) : (s.issuing c k i w n).freeCount = s.freeCount := rfl
@[simp] theorem State.issuing_nextId (s : State) (c k i w n : Nat) : (s.issuing c k i w n).nextId = s.nextId := rfl
@[simp] theorem State.issuing_mem (s : State) (c k i w n : Nat) : (s.issuing c k i w n).mem = s.mem := rfl
@[simp] theorem State.issuing_full (s : State) (c k i w n : Nat) : (s.issuing c k i w n).full = s.full := rfl
@[simp] theorem State.issuing_poison (s : State) (c k i w n : Nat) : (s.issuing c k i w n).poison = s.poison := rfl
@[simp] theorem State.issuing_accPoison (s : State) (c k i w n : Nat) : (s.issuing c k i w n).accPoison = s.accPoison := rfl
@[simp] theorem State.issuing_hub (s : State) (c k i w n : Nat) : (s.issuing c k i w n).hub = s.hub := rfl
@[simp] theorem State.issuing_cores (s : State) (c k i w n : Nat) : (s.issuing c k i w n).cores = s.cores := rfl
@[simp] theorem State.issuing_gangs (s : State) (c k i w n : Nat) : (s.issuing c k i w n).gangs = s.gangs := rfl
@[simp] theorem State.issuing_chans (s : State) (c k i w n : Nat) : (s.issuing c k i w n).chans = s.chans := rfl
@[simp] theorem State.issuing_launches (s : State) (c k i w n : Nat) : (s.issuing c k i w n).launches = s.launches := rfl
@[simp] theorem State.issuing_waiting (s : State) (c k i w n : Nat) : (s.issuing c k i w n).waiting = s.waiting := rfl
@[simp] theorem State.issuing_begun (s : State) (c k i w n : Nat) : (s.issuing c k i w n).begun = s.begun := rfl
@[simp] theorem State.issuing_recCache (s : State) (c k i w n : Nat) : (s.issuing c k i w n).recCache = s.recCache := rfl
@[simp] theorem State.issuing_bndCache (s : State) (c k i w n : Nat) : (s.issuing c k i w n).bndCache = s.bndCache := rfl
@[simp] theorem State.issuing_bounds (s : State) (c k i w n : Nat) : (s.issuing c k i w n).bounds = s.bounds := rfl
@[simp] theorem State.issuing_opened (s : State) (c k i w n : Nat) : (s.issuing c k i w n).opened = s.opened := rfl
@[simp] theorem State.issuing_invals (s : State) (c k i w n : Nat) : (s.issuing c k i w n).invals = s.invals := rfl
@[simp] theorem State.issuing_slices (s : State) (c k i w n : Nat) : (s.issuing c k i w n).slices = s.slices := rfl
@[simp] theorem State.issuing_shadows (s : State) (c k i w n : Nat) : (s.issuing c k i w n).shadows = s.shadows := rfl
@[simp] theorem State.issuing_monitors (s : State) (c k i w n : Nat) : (s.issuing c k i w n).monitors = s.monitors := rfl
@[simp] theorem State.issuing_accs (s : State) (c k i w n : Nat) : (s.issuing c k i w n).accs = s.accs := rfl
@[simp] theorem State.issuing_net (s : State) (c k i w n : Nat) : (s.issuing c k i w n).net = s.net := rfl
@[simp] theorem State.issuing_fs (s : State) (c k i w n : Nat) : (s.issuing c k i w n).fs = s.fs := rfl
@[simp] theorem State.issuing_ul (s : State) (c k i w n : Nat) : (s.issuing c k i w n).ul = s.ul := rfl
@[simp] theorem State.issuing_links (s : State) (c k i w n : Nat) : (s.issuing c k i w n).links = s.links := rfl
@[simp] theorem State.issuing_peers (s : State) (c k i w n : Nat) : (s.issuing c k i w n).peers = s.peers := rfl
@[simp] theorem State.issuing_hostMem (s : State) (c k i w n : Nat) : (s.issuing c k i w n).hostMem = s.hostMem := rfl
@[simp] theorem State.issuing_hostWait (s : State) (c k i w n : Nat) : (s.issuing c k i w n).hostWait = s.hostWait := rfl
@[simp] theorem State.issuing_hostRow (s : State) (c k i w n : Nat) : (s.issuing c k i w n).hostRow = s.hostRow := rfl
@[simp] theorem State.issuing_hostOut (s : State) (c k i w n : Nat) : (s.issuing c k i w n).hostOut = s.hostOut := rfl
@[simp] theorem State.issuing_spdm (s : State) (c k i w n : Nat) : (s.issuing c k i w n).spdm = s.spdm := rfl
@[simp] theorem State.issuing_stackTbl (s : State) (c k i w n : Nat) : (s.issuing c k i w n).stackTbl = s.stackTbl := rfl
@[simp] theorem State.issuing_boot (s : State) (c k i w n : Nat) : (s.issuing c k i w n).boot = s.boot := rfl
@[simp] theorem State.issuing_scan (s : State) (c k i w n : Nat) : (s.issuing c k i w n).scan = s.scan := rfl
@[simp] theorem State.issuing_saved (s : State) (c k i w n : Nat) : (s.issuing c k i w n).saved = s.saved := rfl
@[simp] theorem State.issuing_corrected (s : State) (c k i w n : Nat) : (s.issuing c k i w n).corrected = s.corrected := rfl

/-! `State.onCohort`. -/

@[simp] theorem State.onCohort_picks (s : State) (c k : Nat) (f : Cohort → Cohort) : (s.onCohort c k f).picks = s.picks := by
  unfold State.onCohort; split <;> rfl
@[simp] theorem State.onCohort_agenda (s : State) (c k : Nat) (f : Cohort → Cohort) : (s.onCohort c k f).agenda = s.agenda := by
  unfold State.onCohort; split <;> rfl
@[simp] theorem State.onCohort_ev (s : State) (c k : Nat) (f : Cohort → Cohort) : (s.onCohort c k f).ev = s.ev := by
  unfold State.onCohort; split <;> rfl
@[simp] theorem State.onCohort_cur (s : State) (c k : Nat) (f : Cohort → Cohort) : (s.onCohort c k f).cur = s.cur := by
  unfold State.onCohort; split <;> rfl
@[simp] theorem State.onCohort_turn (s : State) (c k : Nat) (f : Cohort → Cohort) : (s.onCohort c k f).turn = s.turn := by
  unfold State.onCohort; split <;> rfl
@[simp] theorem State.onCohort_freeCount (s : State) (c k : Nat) (f : Cohort → Cohort) : (s.onCohort c k f).freeCount = s.freeCount := by
  unfold State.onCohort; split <;> rfl
@[simp] theorem State.onCohort_nextId (s : State) (c k : Nat) (f : Cohort → Cohort) : (s.onCohort c k f).nextId = s.nextId := by
  unfold State.onCohort; split <;> rfl
@[simp] theorem State.onCohort_mem (s : State) (c k : Nat) (f : Cohort → Cohort) : (s.onCohort c k f).mem = s.mem := by
  unfold State.onCohort; split <;> rfl
@[simp] theorem State.onCohort_full (s : State) (c k : Nat) (f : Cohort → Cohort) : (s.onCohort c k f).full = s.full := by
  unfold State.onCohort; split <;> rfl
@[simp] theorem State.onCohort_poison (s : State) (c k : Nat) (f : Cohort → Cohort) : (s.onCohort c k f).poison = s.poison := by
  unfold State.onCohort; split <;> rfl
@[simp] theorem State.onCohort_accPoison (s : State) (c k : Nat) (f : Cohort → Cohort) : (s.onCohort c k f).accPoison = s.accPoison := by
  unfold State.onCohort; split <;> rfl
@[simp] theorem State.onCohort_hub (s : State) (c k : Nat) (f : Cohort → Cohort) : (s.onCohort c k f).hub = s.hub := by
  unfold State.onCohort; split <;> rfl
@[simp] theorem State.onCohort_gangs (s : State) (c k : Nat) (f : Cohort → Cohort) : (s.onCohort c k f).gangs = s.gangs := by
  unfold State.onCohort; split <;> rfl
@[simp] theorem State.onCohort_chans (s : State) (c k : Nat) (f : Cohort → Cohort) : (s.onCohort c k f).chans = s.chans := by
  unfold State.onCohort; split <;> rfl
@[simp] theorem State.onCohort_launches (s : State) (c k : Nat) (f : Cohort → Cohort) : (s.onCohort c k f).launches = s.launches := by
  unfold State.onCohort; split <;> rfl
@[simp] theorem State.onCohort_waiting (s : State) (c k : Nat) (f : Cohort → Cohort) : (s.onCohort c k f).waiting = s.waiting := by
  unfold State.onCohort; split <;> rfl
@[simp] theorem State.onCohort_begun (s : State) (c k : Nat) (f : Cohort → Cohort) : (s.onCohort c k f).begun = s.begun := by
  unfold State.onCohort; split <;> rfl
@[simp] theorem State.onCohort_recCache (s : State) (c k : Nat) (f : Cohort → Cohort) : (s.onCohort c k f).recCache = s.recCache := by
  unfold State.onCohort; split <;> rfl
@[simp] theorem State.onCohort_bndCache (s : State) (c k : Nat) (f : Cohort → Cohort) : (s.onCohort c k f).bndCache = s.bndCache := by
  unfold State.onCohort; split <;> rfl
@[simp] theorem State.onCohort_bounds (s : State) (c k : Nat) (f : Cohort → Cohort) : (s.onCohort c k f).bounds = s.bounds := by
  unfold State.onCohort; split <;> rfl
@[simp] theorem State.onCohort_opened (s : State) (c k : Nat) (f : Cohort → Cohort) : (s.onCohort c k f).opened = s.opened := by
  unfold State.onCohort; split <;> rfl
@[simp] theorem State.onCohort_invals (s : State) (c k : Nat) (f : Cohort → Cohort) : (s.onCohort c k f).invals = s.invals := by
  unfold State.onCohort; split <;> rfl
@[simp] theorem State.onCohort_slices (s : State) (c k : Nat) (f : Cohort → Cohort) : (s.onCohort c k f).slices = s.slices := by
  unfold State.onCohort; split <;> rfl
@[simp] theorem State.onCohort_shadows (s : State) (c k : Nat) (f : Cohort → Cohort) : (s.onCohort c k f).shadows = s.shadows := by
  unfold State.onCohort; split <;> rfl
@[simp] theorem State.onCohort_monitors (s : State) (c k : Nat) (f : Cohort → Cohort) : (s.onCohort c k f).monitors = s.monitors := by
  unfold State.onCohort; split <;> rfl
@[simp] theorem State.onCohort_accs (s : State) (c k : Nat) (f : Cohort → Cohort) : (s.onCohort c k f).accs = s.accs := by
  unfold State.onCohort; split <;> rfl
@[simp] theorem State.onCohort_net (s : State) (c k : Nat) (f : Cohort → Cohort) : (s.onCohort c k f).net = s.net := by
  unfold State.onCohort; split <;> rfl
@[simp] theorem State.onCohort_fs (s : State) (c k : Nat) (f : Cohort → Cohort) : (s.onCohort c k f).fs = s.fs := by
  unfold State.onCohort; split <;> rfl
@[simp] theorem State.onCohort_ul (s : State) (c k : Nat) (f : Cohort → Cohort) : (s.onCohort c k f).ul = s.ul := by
  unfold State.onCohort; split <;> rfl
@[simp] theorem State.onCohort_links (s : State) (c k : Nat) (f : Cohort → Cohort) : (s.onCohort c k f).links = s.links := by
  unfold State.onCohort; split <;> rfl
@[simp] theorem State.onCohort_peers (s : State) (c k : Nat) (f : Cohort → Cohort) : (s.onCohort c k f).peers = s.peers := by
  unfold State.onCohort; split <;> rfl
@[simp] theorem State.onCohort_hostMem (s : State) (c k : Nat) (f : Cohort → Cohort) : (s.onCohort c k f).hostMem = s.hostMem := by
  unfold State.onCohort; split <;> rfl
@[simp] theorem State.onCohort_hostWait (s : State) (c k : Nat) (f : Cohort → Cohort) : (s.onCohort c k f).hostWait = s.hostWait := by
  unfold State.onCohort; split <;> rfl
@[simp] theorem State.onCohort_hostRow (s : State) (c k : Nat) (f : Cohort → Cohort) : (s.onCohort c k f).hostRow = s.hostRow := by
  unfold State.onCohort; split <;> rfl
@[simp] theorem State.onCohort_hostOut (s : State) (c k : Nat) (f : Cohort → Cohort) : (s.onCohort c k f).hostOut = s.hostOut := by
  unfold State.onCohort; split <;> rfl
@[simp] theorem State.onCohort_spdm (s : State) (c k : Nat) (f : Cohort → Cohort) : (s.onCohort c k f).spdm = s.spdm := by
  unfold State.onCohort; split <;> rfl
@[simp] theorem State.onCohort_stackTbl (s : State) (c k : Nat) (f : Cohort → Cohort) : (s.onCohort c k f).stackTbl = s.stackTbl := by
  unfold State.onCohort; split <;> rfl
@[simp] theorem State.onCohort_boot (s : State) (c k : Nat) (f : Cohort → Cohort) : (s.onCohort c k f).boot = s.boot := by
  unfold State.onCohort; split <;> rfl
@[simp] theorem State.onCohort_scan (s : State) (c k : Nat) (f : Cohort → Cohort) : (s.onCohort c k f).scan = s.scan := by
  unfold State.onCohort; split <;> rfl
@[simp] theorem State.onCohort_saved (s : State) (c k : Nat) (f : Cohort → Cohort) : (s.onCohort c k f).saved = s.saved := by
  unfold State.onCohort; split <;> rfl
@[simp] theorem State.onCohort_corrected (s : State) (c k : Nat) (f : Cohort → Cohort) : (s.onCohort c k f).corrected = s.corrected := by
  unfold State.onCohort; split <;> rfl

/-! `State.onBlock`. -/

@[simp] theorem State.onBlock_picks (s : State) (c b : Nat) (f : Block → Block) : (s.onBlock c b f).picks = s.picks := by
  unfold State.onBlock; split <;> rfl
@[simp] theorem State.onBlock_agenda (s : State) (c b : Nat) (f : Block → Block) : (s.onBlock c b f).agenda = s.agenda := by
  unfold State.onBlock; split <;> rfl
@[simp] theorem State.onBlock_ev (s : State) (c b : Nat) (f : Block → Block) : (s.onBlock c b f).ev = s.ev := by
  unfold State.onBlock; split <;> rfl
@[simp] theorem State.onBlock_cur (s : State) (c b : Nat) (f : Block → Block) : (s.onBlock c b f).cur = s.cur := by
  unfold State.onBlock; split <;> rfl
@[simp] theorem State.onBlock_turn (s : State) (c b : Nat) (f : Block → Block) : (s.onBlock c b f).turn = s.turn := by
  unfold State.onBlock; split <;> rfl
@[simp] theorem State.onBlock_freeCount (s : State) (c b : Nat) (f : Block → Block) : (s.onBlock c b f).freeCount = s.freeCount := by
  unfold State.onBlock; split <;> rfl
@[simp] theorem State.onBlock_nextId (s : State) (c b : Nat) (f : Block → Block) : (s.onBlock c b f).nextId = s.nextId := by
  unfold State.onBlock; split <;> rfl
@[simp] theorem State.onBlock_mem (s : State) (c b : Nat) (f : Block → Block) : (s.onBlock c b f).mem = s.mem := by
  unfold State.onBlock; split <;> rfl
@[simp] theorem State.onBlock_full (s : State) (c b : Nat) (f : Block → Block) : (s.onBlock c b f).full = s.full := by
  unfold State.onBlock; split <;> rfl
@[simp] theorem State.onBlock_poison (s : State) (c b : Nat) (f : Block → Block) : (s.onBlock c b f).poison = s.poison := by
  unfold State.onBlock; split <;> rfl
@[simp] theorem State.onBlock_accPoison (s : State) (c b : Nat) (f : Block → Block) : (s.onBlock c b f).accPoison = s.accPoison := by
  unfold State.onBlock; split <;> rfl
@[simp] theorem State.onBlock_hub (s : State) (c b : Nat) (f : Block → Block) : (s.onBlock c b f).hub = s.hub := by
  unfold State.onBlock; split <;> rfl
@[simp] theorem State.onBlock_gangs (s : State) (c b : Nat) (f : Block → Block) : (s.onBlock c b f).gangs = s.gangs := by
  unfold State.onBlock; split <;> rfl
@[simp] theorem State.onBlock_chans (s : State) (c b : Nat) (f : Block → Block) : (s.onBlock c b f).chans = s.chans := by
  unfold State.onBlock; split <;> rfl
@[simp] theorem State.onBlock_launches (s : State) (c b : Nat) (f : Block → Block) : (s.onBlock c b f).launches = s.launches := by
  unfold State.onBlock; split <;> rfl
@[simp] theorem State.onBlock_waiting (s : State) (c b : Nat) (f : Block → Block) : (s.onBlock c b f).waiting = s.waiting := by
  unfold State.onBlock; split <;> rfl
@[simp] theorem State.onBlock_begun (s : State) (c b : Nat) (f : Block → Block) : (s.onBlock c b f).begun = s.begun := by
  unfold State.onBlock; split <;> rfl
@[simp] theorem State.onBlock_recCache (s : State) (c b : Nat) (f : Block → Block) : (s.onBlock c b f).recCache = s.recCache := by
  unfold State.onBlock; split <;> rfl
@[simp] theorem State.onBlock_bndCache (s : State) (c b : Nat) (f : Block → Block) : (s.onBlock c b f).bndCache = s.bndCache := by
  unfold State.onBlock; split <;> rfl
@[simp] theorem State.onBlock_bounds (s : State) (c b : Nat) (f : Block → Block) : (s.onBlock c b f).bounds = s.bounds := by
  unfold State.onBlock; split <;> rfl
@[simp] theorem State.onBlock_opened (s : State) (c b : Nat) (f : Block → Block) : (s.onBlock c b f).opened = s.opened := by
  unfold State.onBlock; split <;> rfl
@[simp] theorem State.onBlock_invals (s : State) (c b : Nat) (f : Block → Block) : (s.onBlock c b f).invals = s.invals := by
  unfold State.onBlock; split <;> rfl
@[simp] theorem State.onBlock_slices (s : State) (c b : Nat) (f : Block → Block) : (s.onBlock c b f).slices = s.slices := by
  unfold State.onBlock; split <;> rfl
@[simp] theorem State.onBlock_shadows (s : State) (c b : Nat) (f : Block → Block) : (s.onBlock c b f).shadows = s.shadows := by
  unfold State.onBlock; split <;> rfl
@[simp] theorem State.onBlock_monitors (s : State) (c b : Nat) (f : Block → Block) : (s.onBlock c b f).monitors = s.monitors := by
  unfold State.onBlock; split <;> rfl
@[simp] theorem State.onBlock_accs (s : State) (c b : Nat) (f : Block → Block) : (s.onBlock c b f).accs = s.accs := by
  unfold State.onBlock; split <;> rfl
@[simp] theorem State.onBlock_net (s : State) (c b : Nat) (f : Block → Block) : (s.onBlock c b f).net = s.net := by
  unfold State.onBlock; split <;> rfl
@[simp] theorem State.onBlock_fs (s : State) (c b : Nat) (f : Block → Block) : (s.onBlock c b f).fs = s.fs := by
  unfold State.onBlock; split <;> rfl
@[simp] theorem State.onBlock_ul (s : State) (c b : Nat) (f : Block → Block) : (s.onBlock c b f).ul = s.ul := by
  unfold State.onBlock; split <;> rfl
@[simp] theorem State.onBlock_links (s : State) (c b : Nat) (f : Block → Block) : (s.onBlock c b f).links = s.links := by
  unfold State.onBlock; split <;> rfl
@[simp] theorem State.onBlock_peers (s : State) (c b : Nat) (f : Block → Block) : (s.onBlock c b f).peers = s.peers := by
  unfold State.onBlock; split <;> rfl
@[simp] theorem State.onBlock_hostMem (s : State) (c b : Nat) (f : Block → Block) : (s.onBlock c b f).hostMem = s.hostMem := by
  unfold State.onBlock; split <;> rfl
@[simp] theorem State.onBlock_hostWait (s : State) (c b : Nat) (f : Block → Block) : (s.onBlock c b f).hostWait = s.hostWait := by
  unfold State.onBlock; split <;> rfl
@[simp] theorem State.onBlock_hostRow (s : State) (c b : Nat) (f : Block → Block) : (s.onBlock c b f).hostRow = s.hostRow := by
  unfold State.onBlock; split <;> rfl
@[simp] theorem State.onBlock_hostOut (s : State) (c b : Nat) (f : Block → Block) : (s.onBlock c b f).hostOut = s.hostOut := by
  unfold State.onBlock; split <;> rfl
@[simp] theorem State.onBlock_spdm (s : State) (c b : Nat) (f : Block → Block) : (s.onBlock c b f).spdm = s.spdm := by
  unfold State.onBlock; split <;> rfl
@[simp] theorem State.onBlock_stackTbl (s : State) (c b : Nat) (f : Block → Block) : (s.onBlock c b f).stackTbl = s.stackTbl := by
  unfold State.onBlock; split <;> rfl
@[simp] theorem State.onBlock_boot (s : State) (c b : Nat) (f : Block → Block) : (s.onBlock c b f).boot = s.boot := by
  unfold State.onBlock; split <;> rfl
@[simp] theorem State.onBlock_scan (s : State) (c b : Nat) (f : Block → Block) : (s.onBlock c b f).scan = s.scan := by
  unfold State.onBlock; split <;> rfl
@[simp] theorem State.onBlock_saved (s : State) (c b : Nat) (f : Block → Block) : (s.onBlock c b f).saved = s.saved := by
  unfold State.onBlock; split <;> rfl
@[simp] theorem State.onBlock_corrected (s : State) (c b : Nat) (f : Block → Block) : (s.onBlock c b f).corrected = s.corrected := by
  unfold State.onBlock; split <;> rfl

/-! `State.onMe`. -/

@[simp] theorem State.onMe_picks (s : State) (f : Cohort → Cohort) : (s.onMe f).picks = s.picks := State.onCohort_picks ..
@[simp] theorem State.onMe_agenda (s : State) (f : Cohort → Cohort) : (s.onMe f).agenda = s.agenda := State.onCohort_agenda ..
@[simp] theorem State.onMe_ev (s : State) (f : Cohort → Cohort) : (s.onMe f).ev = s.ev := State.onCohort_ev ..
@[simp] theorem State.onMe_cur (s : State) (f : Cohort → Cohort) : (s.onMe f).cur = s.cur := State.onCohort_cur ..
@[simp] theorem State.onMe_turn (s : State) (f : Cohort → Cohort) : (s.onMe f).turn = s.turn := State.onCohort_turn ..
@[simp] theorem State.onMe_freeCount (s : State) (f : Cohort → Cohort) : (s.onMe f).freeCount = s.freeCount := State.onCohort_freeCount ..
@[simp] theorem State.onMe_nextId (s : State) (f : Cohort → Cohort) : (s.onMe f).nextId = s.nextId := State.onCohort_nextId ..
@[simp] theorem State.onMe_mem (s : State) (f : Cohort → Cohort) : (s.onMe f).mem = s.mem := State.onCohort_mem ..
@[simp] theorem State.onMe_full (s : State) (f : Cohort → Cohort) : (s.onMe f).full = s.full := State.onCohort_full ..
@[simp] theorem State.onMe_poison (s : State) (f : Cohort → Cohort) : (s.onMe f).poison = s.poison := State.onCohort_poison ..
@[simp] theorem State.onMe_accPoison (s : State) (f : Cohort → Cohort) : (s.onMe f).accPoison = s.accPoison := State.onCohort_accPoison ..
@[simp] theorem State.onMe_hub (s : State) (f : Cohort → Cohort) : (s.onMe f).hub = s.hub := State.onCohort_hub ..
@[simp] theorem State.onMe_gangs (s : State) (f : Cohort → Cohort) : (s.onMe f).gangs = s.gangs := State.onCohort_gangs ..
@[simp] theorem State.onMe_chans (s : State) (f : Cohort → Cohort) : (s.onMe f).chans = s.chans := State.onCohort_chans ..
@[simp] theorem State.onMe_launches (s : State) (f : Cohort → Cohort) : (s.onMe f).launches = s.launches := State.onCohort_launches ..
@[simp] theorem State.onMe_waiting (s : State) (f : Cohort → Cohort) : (s.onMe f).waiting = s.waiting := State.onCohort_waiting ..
@[simp] theorem State.onMe_begun (s : State) (f : Cohort → Cohort) : (s.onMe f).begun = s.begun := State.onCohort_begun ..
@[simp] theorem State.onMe_recCache (s : State) (f : Cohort → Cohort) : (s.onMe f).recCache = s.recCache := State.onCohort_recCache ..
@[simp] theorem State.onMe_bndCache (s : State) (f : Cohort → Cohort) : (s.onMe f).bndCache = s.bndCache := State.onCohort_bndCache ..
@[simp] theorem State.onMe_bounds (s : State) (f : Cohort → Cohort) : (s.onMe f).bounds = s.bounds := State.onCohort_bounds ..
@[simp] theorem State.onMe_opened (s : State) (f : Cohort → Cohort) : (s.onMe f).opened = s.opened := State.onCohort_opened ..
@[simp] theorem State.onMe_invals (s : State) (f : Cohort → Cohort) : (s.onMe f).invals = s.invals := State.onCohort_invals ..
@[simp] theorem State.onMe_slices (s : State) (f : Cohort → Cohort) : (s.onMe f).slices = s.slices := State.onCohort_slices ..
@[simp] theorem State.onMe_shadows (s : State) (f : Cohort → Cohort) : (s.onMe f).shadows = s.shadows := State.onCohort_shadows ..
@[simp] theorem State.onMe_monitors (s : State) (f : Cohort → Cohort) : (s.onMe f).monitors = s.monitors := State.onCohort_monitors ..
@[simp] theorem State.onMe_accs (s : State) (f : Cohort → Cohort) : (s.onMe f).accs = s.accs := State.onCohort_accs ..
@[simp] theorem State.onMe_net (s : State) (f : Cohort → Cohort) : (s.onMe f).net = s.net := State.onCohort_net ..
@[simp] theorem State.onMe_fs (s : State) (f : Cohort → Cohort) : (s.onMe f).fs = s.fs := State.onCohort_fs ..
@[simp] theorem State.onMe_ul (s : State) (f : Cohort → Cohort) : (s.onMe f).ul = s.ul := State.onCohort_ul ..
@[simp] theorem State.onMe_links (s : State) (f : Cohort → Cohort) : (s.onMe f).links = s.links := State.onCohort_links ..
@[simp] theorem State.onMe_peers (s : State) (f : Cohort → Cohort) : (s.onMe f).peers = s.peers := State.onCohort_peers ..
@[simp] theorem State.onMe_hostMem (s : State) (f : Cohort → Cohort) : (s.onMe f).hostMem = s.hostMem := State.onCohort_hostMem ..
@[simp] theorem State.onMe_hostWait (s : State) (f : Cohort → Cohort) : (s.onMe f).hostWait = s.hostWait := State.onCohort_hostWait ..
@[simp] theorem State.onMe_hostRow (s : State) (f : Cohort → Cohort) : (s.onMe f).hostRow = s.hostRow := State.onCohort_hostRow ..
@[simp] theorem State.onMe_hostOut (s : State) (f : Cohort → Cohort) : (s.onMe f).hostOut = s.hostOut := State.onCohort_hostOut ..
@[simp] theorem State.onMe_spdm (s : State) (f : Cohort → Cohort) : (s.onMe f).spdm = s.spdm := State.onCohort_spdm ..
@[simp] theorem State.onMe_stackTbl (s : State) (f : Cohort → Cohort) : (s.onMe f).stackTbl = s.stackTbl := State.onCohort_stackTbl ..
@[simp] theorem State.onMe_boot (s : State) (f : Cohort → Cohort) : (s.onMe f).boot = s.boot := State.onCohort_boot ..
@[simp] theorem State.onMe_scan (s : State) (f : Cohort → Cohort) : (s.onMe f).scan = s.scan := State.onCohort_scan ..
@[simp] theorem State.onMe_saved (s : State) (f : Cohort → Cohort) : (s.onMe f).saved = s.saved := State.onCohort_saved ..
@[simp] theorem State.onMe_corrected (s : State) (f : Cohort → Cohort) : (s.onMe f).corrected = s.corrected := State.onCohort_corrected ..

/-! `State.pushOnce`. -/

@[simp] theorem State.pushOnce_picks (s : State) (i : Instr) (ops : List Nat) : (s.pushOnce i ops).picks = s.picks := by
  unfold State.pushOnce; split <;> rfl
@[simp] theorem State.pushOnce_ev (s : State) (i : Instr) (ops : List Nat) : (s.pushOnce i ops).ev = s.ev := by
  unfold State.pushOnce; split <;> rfl
@[simp] theorem State.pushOnce_cur (s : State) (i : Instr) (ops : List Nat) : (s.pushOnce i ops).cur = s.cur := by
  unfold State.pushOnce; split <;> rfl
@[simp] theorem State.pushOnce_turn (s : State) (i : Instr) (ops : List Nat) : (s.pushOnce i ops).turn = s.turn := by
  unfold State.pushOnce; split <;> rfl
@[simp] theorem State.pushOnce_freeCount (s : State) (i : Instr) (ops : List Nat) : (s.pushOnce i ops).freeCount = s.freeCount := by
  unfold State.pushOnce; split <;> rfl
@[simp] theorem State.pushOnce_nextId (s : State) (i : Instr) (ops : List Nat) : (s.pushOnce i ops).nextId = s.nextId := by
  unfold State.pushOnce; split <;> rfl
@[simp] theorem State.pushOnce_mem (s : State) (i : Instr) (ops : List Nat) : (s.pushOnce i ops).mem = s.mem := by
  unfold State.pushOnce; split <;> rfl
@[simp] theorem State.pushOnce_full (s : State) (i : Instr) (ops : List Nat) : (s.pushOnce i ops).full = s.full := by
  unfold State.pushOnce; split <;> rfl
@[simp] theorem State.pushOnce_poison (s : State) (i : Instr) (ops : List Nat) : (s.pushOnce i ops).poison = s.poison := by
  unfold State.pushOnce; split <;> rfl
@[simp] theorem State.pushOnce_accPoison (s : State) (i : Instr) (ops : List Nat) : (s.pushOnce i ops).accPoison = s.accPoison := by
  unfold State.pushOnce; split <;> rfl
@[simp] theorem State.pushOnce_hub (s : State) (i : Instr) (ops : List Nat) : (s.pushOnce i ops).hub = s.hub := by
  unfold State.pushOnce; split <;> rfl
@[simp] theorem State.pushOnce_cores (s : State) (i : Instr) (ops : List Nat) : (s.pushOnce i ops).cores = s.cores := by
  unfold State.pushOnce; split <;> rfl
@[simp] theorem State.pushOnce_gangs (s : State) (i : Instr) (ops : List Nat) : (s.pushOnce i ops).gangs = s.gangs := by
  unfold State.pushOnce; split <;> rfl
@[simp] theorem State.pushOnce_chans (s : State) (i : Instr) (ops : List Nat) : (s.pushOnce i ops).chans = s.chans := by
  unfold State.pushOnce; split <;> rfl
@[simp] theorem State.pushOnce_launches (s : State) (i : Instr) (ops : List Nat) : (s.pushOnce i ops).launches = s.launches := by
  unfold State.pushOnce; split <;> rfl
@[simp] theorem State.pushOnce_waiting (s : State) (i : Instr) (ops : List Nat) : (s.pushOnce i ops).waiting = s.waiting := by
  unfold State.pushOnce; split <;> rfl
@[simp] theorem State.pushOnce_begun (s : State) (i : Instr) (ops : List Nat) : (s.pushOnce i ops).begun = s.begun := by
  unfold State.pushOnce; split <;> rfl
@[simp] theorem State.pushOnce_recCache (s : State) (i : Instr) (ops : List Nat) : (s.pushOnce i ops).recCache = s.recCache := by
  unfold State.pushOnce; split <;> rfl
@[simp] theorem State.pushOnce_bndCache (s : State) (i : Instr) (ops : List Nat) : (s.pushOnce i ops).bndCache = s.bndCache := by
  unfold State.pushOnce; split <;> rfl
@[simp] theorem State.pushOnce_bounds (s : State) (i : Instr) (ops : List Nat) : (s.pushOnce i ops).bounds = s.bounds := by
  unfold State.pushOnce; split <;> rfl
@[simp] theorem State.pushOnce_opened (s : State) (i : Instr) (ops : List Nat) : (s.pushOnce i ops).opened = s.opened := by
  unfold State.pushOnce; split <;> rfl
@[simp] theorem State.pushOnce_invals (s : State) (i : Instr) (ops : List Nat) : (s.pushOnce i ops).invals = s.invals := by
  unfold State.pushOnce; split <;> rfl
@[simp] theorem State.pushOnce_slices (s : State) (i : Instr) (ops : List Nat) : (s.pushOnce i ops).slices = s.slices := by
  unfold State.pushOnce; split <;> rfl
@[simp] theorem State.pushOnce_shadows (s : State) (i : Instr) (ops : List Nat) : (s.pushOnce i ops).shadows = s.shadows := by
  unfold State.pushOnce; split <;> rfl
@[simp] theorem State.pushOnce_monitors (s : State) (i : Instr) (ops : List Nat) : (s.pushOnce i ops).monitors = s.monitors := by
  unfold State.pushOnce; split <;> rfl
@[simp] theorem State.pushOnce_accs (s : State) (i : Instr) (ops : List Nat) : (s.pushOnce i ops).accs = s.accs := by
  unfold State.pushOnce; split <;> rfl
@[simp] theorem State.pushOnce_net (s : State) (i : Instr) (ops : List Nat) : (s.pushOnce i ops).net = s.net := by
  unfold State.pushOnce; split <;> rfl
@[simp] theorem State.pushOnce_fs (s : State) (i : Instr) (ops : List Nat) : (s.pushOnce i ops).fs = s.fs := by
  unfold State.pushOnce; split <;> rfl
@[simp] theorem State.pushOnce_ul (s : State) (i : Instr) (ops : List Nat) : (s.pushOnce i ops).ul = s.ul := by
  unfold State.pushOnce; split <;> rfl
@[simp] theorem State.pushOnce_links (s : State) (i : Instr) (ops : List Nat) : (s.pushOnce i ops).links = s.links := by
  unfold State.pushOnce; split <;> rfl
@[simp] theorem State.pushOnce_peers (s : State) (i : Instr) (ops : List Nat) : (s.pushOnce i ops).peers = s.peers := by
  unfold State.pushOnce; split <;> rfl
@[simp] theorem State.pushOnce_hostMem (s : State) (i : Instr) (ops : List Nat) : (s.pushOnce i ops).hostMem = s.hostMem := by
  unfold State.pushOnce; split <;> rfl
@[simp] theorem State.pushOnce_hostWait (s : State) (i : Instr) (ops : List Nat) : (s.pushOnce i ops).hostWait = s.hostWait := by
  unfold State.pushOnce; split <;> rfl
@[simp] theorem State.pushOnce_hostRow (s : State) (i : Instr) (ops : List Nat) : (s.pushOnce i ops).hostRow = s.hostRow := by
  unfold State.pushOnce; split <;> rfl
@[simp] theorem State.pushOnce_hostOut (s : State) (i : Instr) (ops : List Nat) : (s.pushOnce i ops).hostOut = s.hostOut := by
  unfold State.pushOnce; split <;> rfl
@[simp] theorem State.pushOnce_spdm (s : State) (i : Instr) (ops : List Nat) : (s.pushOnce i ops).spdm = s.spdm := by
  unfold State.pushOnce; split <;> rfl
@[simp] theorem State.pushOnce_stackTbl (s : State) (i : Instr) (ops : List Nat) : (s.pushOnce i ops).stackTbl = s.stackTbl := by
  unfold State.pushOnce; split <;> rfl
@[simp] theorem State.pushOnce_boot (s : State) (i : Instr) (ops : List Nat) : (s.pushOnce i ops).boot = s.boot := by
  unfold State.pushOnce; split <;> rfl
@[simp] theorem State.pushOnce_scan (s : State) (i : Instr) (ops : List Nat) : (s.pushOnce i ops).scan = s.scan := by
  unfold State.pushOnce; split <;> rfl
@[simp] theorem State.pushOnce_saved (s : State) (i : Instr) (ops : List Nat) : (s.pushOnce i ops).saved = s.saved := by
  unfold State.pushOnce; split <;> rfl
@[simp] theorem State.pushOnce_corrected (s : State) (i : Instr) (ops : List Nat) : (s.pushOnce i ops).corrected = s.corrected := by
  unfold State.pushOnce; split <;> rfl

/-! `State.setSlice`. -/

@[simp] theorem State.setSlice_picks (s : State) (n : Nat) (x : Slice) : (s.setSlice n x).picks = s.picks := rfl
@[simp] theorem State.setSlice_agenda (s : State) (n : Nat) (x : Slice) : (s.setSlice n x).agenda = s.agenda := rfl
@[simp] theorem State.setSlice_ev (s : State) (n : Nat) (x : Slice) : (s.setSlice n x).ev = s.ev := rfl
@[simp] theorem State.setSlice_cur (s : State) (n : Nat) (x : Slice) : (s.setSlice n x).cur = s.cur := rfl
@[simp] theorem State.setSlice_turn (s : State) (n : Nat) (x : Slice) : (s.setSlice n x).turn = s.turn := rfl
@[simp] theorem State.setSlice_freeCount (s : State) (n : Nat) (x : Slice) : (s.setSlice n x).freeCount = s.freeCount := rfl
@[simp] theorem State.setSlice_nextId (s : State) (n : Nat) (x : Slice) : (s.setSlice n x).nextId = s.nextId := rfl
@[simp] theorem State.setSlice_mem (s : State) (n : Nat) (x : Slice) : (s.setSlice n x).mem = s.mem := rfl
@[simp] theorem State.setSlice_full (s : State) (n : Nat) (x : Slice) : (s.setSlice n x).full = s.full := rfl
@[simp] theorem State.setSlice_poison (s : State) (n : Nat) (x : Slice) : (s.setSlice n x).poison = s.poison := rfl
@[simp] theorem State.setSlice_accPoison (s : State) (n : Nat) (x : Slice) : (s.setSlice n x).accPoison = s.accPoison := rfl
@[simp] theorem State.setSlice_hub (s : State) (n : Nat) (x : Slice) : (s.setSlice n x).hub = s.hub := rfl
@[simp] theorem State.setSlice_cores (s : State) (n : Nat) (x : Slice) : (s.setSlice n x).cores = s.cores := rfl
@[simp] theorem State.setSlice_gangs (s : State) (n : Nat) (x : Slice) : (s.setSlice n x).gangs = s.gangs := rfl
@[simp] theorem State.setSlice_chans (s : State) (n : Nat) (x : Slice) : (s.setSlice n x).chans = s.chans := rfl
@[simp] theorem State.setSlice_launches (s : State) (n : Nat) (x : Slice) : (s.setSlice n x).launches = s.launches := rfl
@[simp] theorem State.setSlice_waiting (s : State) (n : Nat) (x : Slice) : (s.setSlice n x).waiting = s.waiting := rfl
@[simp] theorem State.setSlice_begun (s : State) (n : Nat) (x : Slice) : (s.setSlice n x).begun = s.begun := rfl
@[simp] theorem State.setSlice_recCache (s : State) (n : Nat) (x : Slice) : (s.setSlice n x).recCache = s.recCache := rfl
@[simp] theorem State.setSlice_bndCache (s : State) (n : Nat) (x : Slice) : (s.setSlice n x).bndCache = s.bndCache := rfl
@[simp] theorem State.setSlice_bounds (s : State) (n : Nat) (x : Slice) : (s.setSlice n x).bounds = s.bounds := rfl
@[simp] theorem State.setSlice_opened (s : State) (n : Nat) (x : Slice) : (s.setSlice n x).opened = s.opened := rfl
@[simp] theorem State.setSlice_invals (s : State) (n : Nat) (x : Slice) : (s.setSlice n x).invals = s.invals := rfl
@[simp] theorem State.setSlice_slices (s : State) (n : Nat) (x : Slice) : (s.setSlice n x).slices = Tbl.put s.slices n x := rfl
@[simp] theorem State.setSlice_shadows (s : State) (n : Nat) (x : Slice) : (s.setSlice n x).shadows = s.shadows := rfl
@[simp] theorem State.setSlice_monitors (s : State) (n : Nat) (x : Slice) : (s.setSlice n x).monitors = s.monitors := rfl
@[simp] theorem State.setSlice_accs (s : State) (n : Nat) (x : Slice) : (s.setSlice n x).accs = s.accs := rfl
@[simp] theorem State.setSlice_net (s : State) (n : Nat) (x : Slice) : (s.setSlice n x).net = s.net := rfl
@[simp] theorem State.setSlice_fs (s : State) (n : Nat) (x : Slice) : (s.setSlice n x).fs = s.fs := rfl
@[simp] theorem State.setSlice_ul (s : State) (n : Nat) (x : Slice) : (s.setSlice n x).ul = s.ul := rfl
@[simp] theorem State.setSlice_links (s : State) (n : Nat) (x : Slice) : (s.setSlice n x).links = s.links := rfl
@[simp] theorem State.setSlice_peers (s : State) (n : Nat) (x : Slice) : (s.setSlice n x).peers = s.peers := rfl
@[simp] theorem State.setSlice_hostMem (s : State) (n : Nat) (x : Slice) : (s.setSlice n x).hostMem = s.hostMem := rfl
@[simp] theorem State.setSlice_hostWait (s : State) (n : Nat) (x : Slice) : (s.setSlice n x).hostWait = s.hostWait := rfl
@[simp] theorem State.setSlice_hostRow (s : State) (n : Nat) (x : Slice) : (s.setSlice n x).hostRow = s.hostRow := rfl
@[simp] theorem State.setSlice_hostOut (s : State) (n : Nat) (x : Slice) : (s.setSlice n x).hostOut = s.hostOut := rfl
@[simp] theorem State.setSlice_spdm (s : State) (n : Nat) (x : Slice) : (s.setSlice n x).spdm = s.spdm := rfl
@[simp] theorem State.setSlice_stackTbl (s : State) (n : Nat) (x : Slice) : (s.setSlice n x).stackTbl = s.stackTbl := rfl
@[simp] theorem State.setSlice_boot (s : State) (n : Nat) (x : Slice) : (s.setSlice n x).boot = s.boot := rfl
@[simp] theorem State.setSlice_scan (s : State) (n : Nat) (x : Slice) : (s.setSlice n x).scan = s.scan := rfl
@[simp] theorem State.setSlice_saved (s : State) (n : Nat) (x : Slice) : (s.setSlice n x).saved = s.saved := rfl
@[simp] theorem State.setSlice_corrected (s : State) (n : Nat) (x : Slice) : (s.setSlice n x).corrected = s.corrected := rfl

/-! `State.setHandler`. -/

@[simp] theorem State.setHandler_picks (s : State) (id : Nat) (h : Handler) : (s.setHandler id h).picks = s.picks := rfl
@[simp] theorem State.setHandler_agenda (s : State) (id : Nat) (h : Handler) : (s.setHandler id h).agenda = s.agenda := rfl
@[simp] theorem State.setHandler_ev (s : State) (id : Nat) (h : Handler) : (s.setHandler id h).ev = s.ev := rfl
@[simp] theorem State.setHandler_cur (s : State) (id : Nat) (h : Handler) : (s.setHandler id h).cur = s.cur := rfl
@[simp] theorem State.setHandler_turn (s : State) (id : Nat) (h : Handler) : (s.setHandler id h).turn = s.turn := rfl
@[simp] theorem State.setHandler_freeCount (s : State) (id : Nat) (h : Handler) : (s.setHandler id h).freeCount = s.freeCount := rfl
@[simp] theorem State.setHandler_nextId (s : State) (id : Nat) (h : Handler) : (s.setHandler id h).nextId = s.nextId := rfl
@[simp] theorem State.setHandler_mem (s : State) (id : Nat) (h : Handler) : (s.setHandler id h).mem = s.mem := rfl
@[simp] theorem State.setHandler_full (s : State) (id : Nat) (h : Handler) : (s.setHandler id h).full = s.full := rfl
@[simp] theorem State.setHandler_poison (s : State) (id : Nat) (h : Handler) : (s.setHandler id h).poison = s.poison := rfl
@[simp] theorem State.setHandler_accPoison (s : State) (id : Nat) (h : Handler) : (s.setHandler id h).accPoison = s.accPoison := rfl
@[simp] theorem State.setHandler_hub (s : State) (id : Nat) (h : Handler) : (s.setHandler id h).hub = s.hub := rfl
@[simp] theorem State.setHandler_cores (s : State) (id : Nat) (h : Handler) : (s.setHandler id h).cores = s.cores := rfl
@[simp] theorem State.setHandler_gangs (s : State) (id : Nat) (h : Handler) : (s.setHandler id h).gangs = s.gangs := rfl
@[simp] theorem State.setHandler_chans (s : State) (id : Nat) (h : Handler) : (s.setHandler id h).chans = s.chans := rfl
@[simp] theorem State.setHandler_launches (s : State) (id : Nat) (h : Handler) : (s.setHandler id h).launches = s.launches := rfl
@[simp] theorem State.setHandler_waiting (s : State) (id : Nat) (h : Handler) : (s.setHandler id h).waiting = s.waiting := rfl
@[simp] theorem State.setHandler_begun (s : State) (id : Nat) (h : Handler) : (s.setHandler id h).begun = s.begun := rfl
@[simp] theorem State.setHandler_recCache (s : State) (id : Nat) (h : Handler) : (s.setHandler id h).recCache = s.recCache := rfl
@[simp] theorem State.setHandler_bndCache (s : State) (id : Nat) (h : Handler) : (s.setHandler id h).bndCache = s.bndCache := rfl
@[simp] theorem State.setHandler_bounds (s : State) (id : Nat) (h : Handler) : (s.setHandler id h).bounds = s.bounds := rfl
@[simp] theorem State.setHandler_opened (s : State) (id : Nat) (h : Handler) : (s.setHandler id h).opened = s.opened := rfl
@[simp] theorem State.setHandler_invals (s : State) (id : Nat) (h : Handler) : (s.setHandler id h).invals = s.invals := rfl
@[simp] theorem State.setHandler_slices (s : State) (id : Nat) (h : Handler) : (s.setHandler id h).slices = s.slices := rfl
@[simp] theorem State.setHandler_shadows (s : State) (id : Nat) (h : Handler) : (s.setHandler id h).shadows = s.shadows := rfl
@[simp] theorem State.setHandler_monitors (s : State) (id : Nat) (h : Handler) : (s.setHandler id h).monitors = s.monitors := rfl
@[simp] theorem State.setHandler_accs (s : State) (id : Nat) (h : Handler) : (s.setHandler id h).accs = s.accs := rfl
@[simp] theorem State.setHandler_net (s : State) (id : Nat) (h : Handler) : (s.setHandler id h).net = s.net := rfl
@[simp] theorem State.setHandler_fs (s : State) (id : Nat) (h : Handler) : (s.setHandler id h).fs = s.fs := rfl
@[simp] theorem State.setHandler_ul (s : State) (id : Nat) (h : Handler) : (s.setHandler id h).ul = { s.ul with handlers := Tbl.put s.ul.handlers id h } := rfl
@[simp] theorem State.setHandler_links (s : State) (id : Nat) (h : Handler) : (s.setHandler id h).links = s.links := rfl
@[simp] theorem State.setHandler_peers (s : State) (id : Nat) (h : Handler) : (s.setHandler id h).peers = s.peers := rfl
@[simp] theorem State.setHandler_hostMem (s : State) (id : Nat) (h : Handler) : (s.setHandler id h).hostMem = s.hostMem := rfl
@[simp] theorem State.setHandler_hostWait (s : State) (id : Nat) (h : Handler) : (s.setHandler id h).hostWait = s.hostWait := rfl
@[simp] theorem State.setHandler_hostRow (s : State) (id : Nat) (h : Handler) : (s.setHandler id h).hostRow = s.hostRow := rfl
@[simp] theorem State.setHandler_hostOut (s : State) (id : Nat) (h : Handler) : (s.setHandler id h).hostOut = s.hostOut := rfl
@[simp] theorem State.setHandler_spdm (s : State) (id : Nat) (h : Handler) : (s.setHandler id h).spdm = s.spdm := rfl
@[simp] theorem State.setHandler_stackTbl (s : State) (id : Nat) (h : Handler) : (s.setHandler id h).stackTbl = s.stackTbl := rfl
@[simp] theorem State.setHandler_boot (s : State) (id : Nat) (h : Handler) : (s.setHandler id h).boot = s.boot := rfl
@[simp] theorem State.setHandler_scan (s : State) (id : Nat) (h : Handler) : (s.setHandler id h).scan = s.scan := rfl
@[simp] theorem State.setHandler_saved (s : State) (id : Nat) (h : Handler) : (s.setHandler id h).saved = s.saved := rfl
@[simp] theorem State.setHandler_corrected (s : State) (id : Nat) (h : Handler) : (s.setHandler id h).corrected = s.corrected := rfl

end Sys2Proof.Machine
end

