-- ==== Sys2Proof/Laws/Tbl.lean ====
section
/-! SUPPORT. Reading a sparse table after one of its updates. -/

namespace Sys2Proof

variable {α : Type}

@[simp] theorem Tbl.find?_nil (k : Nat) : Tbl.find? ([] : Tbl α) k = none := rfl

@[simp] theorem Tbl.find?_put_self (t : Tbl α) (k : Nat) (a : α) : Tbl.find? (Tbl.put t k a) k = some a := by
  induction t with
  | nil => simp [Tbl.put, Tbl.find?]
  | cons e r ih =>
    simp only [Tbl.put]
    split
    · simp [Tbl.find?]
    · split
      · simp [Tbl.find?]
      · simp [Tbl.find?, *]

theorem Tbl.find?_put_ne (t : Tbl α) {k j : Nat} (a : α) (h : j ≠ k) : Tbl.find? (Tbl.put t k a) j = Tbl.find? t j := by
  induction t with
  | nil => simp [Tbl.put, Tbl.find?, h.symm]
  | cons e r ih =>
    simp only [Tbl.put]
    split
    · simp [Tbl.find?, h.symm]
    · split
      · rename_i he; subst he; simp [Tbl.find?, h.symm]
      · simp only [Tbl.find?, ih]

@[simp] theorem Tbl.at_put_self (t : Tbl α) (k : Nat) (a d : α) : Tbl.at (Tbl.put t k a) k d = a := by
  simp [Tbl.at]

theorem Tbl.at_put_ne (t : Tbl α) {k j : Nat} (a d : α) (h : j ≠ k) : Tbl.at (Tbl.put t k a) j d = Tbl.at t j d := by
  simp [Tbl.at, Tbl.find?_put_ne t a h]

@[simp] theorem Tbl.put_put (t : Tbl α) (k : Nat) (a b : α) : Tbl.put (Tbl.put t k a) k b = Tbl.put t k b := by
  induction t with
  | nil => simp [Tbl.put]
  | cons e r ih =>
    simp only [Tbl.put]
    split
    · simp [Tbl.put]
    · split
      · simp [Tbl.put]
      · rename_i h1 h2; simp [Tbl.put, h1, h2, ih]

theorem Tbl.at_of_find? {t : Tbl α} {k : Nat} {a : α} (d : α) (h : Tbl.find? t k = some a) : Tbl.at t k d = a := by
  simp [Tbl.at, h]

theorem Tbl.find?_adj (t : Tbl α) (k j : Nat) (f : α → α) :
    Tbl.find? (Tbl.adj t k f) j = if j = k then (Tbl.find? t k).map f else Tbl.find? t j := by
  induction t with
  | nil => simp [Tbl.adj, Tbl.find?]
  | cons e r ih =>
    simp only [Tbl.adj]
    split
    · rename_i h; subst h
      by_cases hj : j = e.1
      · simp [Tbl.find?, hj]
      · simp [Tbl.find?, hj, Ne.symm hj]
    · rename_i h
      by_cases hj : j = k
      · subst hj; simpa [Tbl.find?, h] using ih
      · simp [Tbl.find?, ih, hj]

theorem Tbl.find?_del_ne (t : Tbl α) {k j : Nat} (h : j ≠ k) : Tbl.find? (Tbl.del t k) j = Tbl.find? t j := by
  induction t with
  | nil => rfl
  | cons e r ih =>
    simp only [Tbl.del]
    split
    · rename_i he; subst he; simp [Tbl.find?, h.symm]
    · simp only [Tbl.find?, ih]

theorem Tbl.find?_mapv (t : Tbl α) (f : Nat → α → α) (j : Nat) : Tbl.find? (Tbl.mapv t f) j = (Tbl.find? t j).map (f j) := by
  induction t with
  | nil => rfl
  | cons e r ih =>
    simp only [Tbl.mapv, List.map, Tbl.find?] at *
    split
    · rename_i h; subst h; rfl
    · exact ih

/-- Putting back what stands in a table changes nothing. -/
theorem Tbl.put_of_find? {t : Tbl α} {k : Nat} {a : α} (hs : t.Pairwise fun x y => x.1 < y.1) (h : Tbl.find? t k = some a) :
    Tbl.put t k a = t := by
  induction t with
  | nil => simp [Tbl.find?] at h
  | cons e r ih =>
    have hs' := List.pairwise_cons.mp hs
    simp only [Tbl.find?] at h
    split at h
    · rename_i he
      have : a = e.2 := by simpa using h.symm
      subst he this
      simp [Tbl.put]
    · rename_i he
      have hk : e.1 < k := by
        have hm : ∀ (l : Tbl α), Tbl.find? l k = some a → (k, a) ∈ l := by
          intro l
          induction l with
          | nil => simp [Tbl.find?]
          | cons x l ihl =>
            intro hx
            simp only [Tbl.find?] at hx
            split at hx
            · rename_i hxe; subst hxe; simp at hx; subst hx; simp
            · exact List.mem_cons_of_mem _ (ihl hx)
        exact hs'.1 (k, a) (hm r h)
      have h1 : ¬ k < e.1 := by omega
      simp [Tbl.put, h1, he, ih hs'.2 h]

end Sys2Proof
end

