-- ==== Sys2Proof/Laws/Issue.lean ====
section
/-! SUPPORT. What the issue of a core instruction can do: every outcome at once, and the one where the instruction is clear to
issue. -/

namespace Sys2Proof.Machine

open Sys2Proof

/-! Cohorts and blocks read after a write. -/

@[simp] theorem State.core_setCore_self (s : State) (c : Nat) (x : CoreSt) : (s.setCore c x).core c = x := by
  simp [State.core]

theorem State.core_setCore_ne (s : State) {c d : Nat} (x : CoreSt) (h : d ≠ c) : (s.setCore c x).core d = s.core d := by
  simp [State.core, Tbl.at_put_ne _ _ _ h]

@[simp] theorem State.core_onCore_self (s : State) (c : Nat) (f : CoreSt → CoreSt) : (s.onCore c f).core c = f (s.core c) := by
  simp [State.onCore]

theorem State.core_onCore_ne (s : State) {c d : Nat} (f : CoreSt → CoreSt) (h : d ≠ c) : (s.onCore c f).core d = s.core d :=
  State.core_setCore_ne s _ h

@[simp] theorem State.cohort?_setCohort_self (s : State) (c k : Nat) (h : Cohort) : (s.setCohort c k h).cohort? c k = some h := by
  simp [State.cohort?, State.setCohort]

theorem State.cohort?_setCohort_slot (s : State) (c : Nat) {k j : Nat} (h : Cohort) (hj : j ≠ k) :
    (s.setCohort c k h).cohort? c j = s.cohort? c j := by
  simp [State.cohort?, State.setCohort, Tbl.find?_put_ne _ _ hj]

theorem State.cohort?_setCohort_core (s : State) {c d : Nat} (k j : Nat) (h : Cohort) (hd : d ≠ c) :
    (s.setCohort c k h).cohort? d j = s.cohort? d j := by
  simp [State.cohort?, State.setCohort, State.core_onCore_ne _ _ hd]

@[simp] theorem State.setCohort_setCohort (s : State) (c k : Nat) (h h' : Cohort) :
    (s.setCohort c k h).setCohort c k h' = s.setCohort c k h' := by
  simp [State.setCohort, State.onCore, State.setCore, State.core, Tbl.at_put_self]

theorem State.onCohort_some {s : State} {c k : Nat} {h : Cohort} (hh : s.cohort? c k = some h) (f : Cohort → Cohort) :
    s.onCohort c k f = s.setCohort c k (f h) := by
  simp [State.onCohort, hh]

theorem State.onCohort_none {s : State} {c k : Nat} (hh : s.cohort? c k = none) (f : Cohort → Cohort) : s.onCohort c k f = s := by
  simp [State.onCohort, hh]

/-- A cohort put in place leaves everything else as it was. -/
theorem State.setCohort_only (s : State) (c k : Nat) (h : Cohort) : OnlyCohort s (s.setCohort c k h) c k where
  rest := rfl
  cores _ hc := State.core_onCore_ne s _ hc
  core := by simp [State.setCohort]
  cohorts _ hk := State.cohort?_setCohort_slot s c h hk
  bytes _ := rfl

/-! Who issues. -/

/-- The issuing split, its cohort and its place. -/
theorem State.who?_some {s : State} {w : Who} (h : s.who? = some w) :
    s.cohort? w.c w.k = some w.h ∧ w.h.split? w.i = some w.sp ∧ w.c = s.cur.core ∧ w.k = s.cur.slot ∧ w.i = s.cur.split ∧
      w.word = s.cur.word ∧ w.len = s.cur.len := by
  unfold State.who? State.me? at h
  cases hc : s.cohort? s.cur.core s.cur.slot with
  | none => simp [hc] at h
  | some x =>
    simp only [hc] at h
    cases hs : x.split? s.cur.split with
    | none => simp [hs] at h
    | some sp =>
      simp only [hs, Option.some.injEq] at h
      subst h
      exact ⟨hc, hs, rfl, rfl, rfl, rfl, rfl⟩

/-- Going past an instruction changes the issuing cohort alone. -/
theorem State.advance_eq {s : State} {w : Who} (h : s.who? = some w) : s.advance w = s.setCohort w.c w.k w.gone := by
  simp [State.advance, State.onCohort_some (State.who?_some h).1, Who.gone]

/-- A clear instruction passes the front end. -/
theorem Clear.gate {s : State} {w : Who} {u : Uses} (c : Clear s w u) {check : Who → State → Option Bad} (hc : check w s = none) :
    s.gate w u check = .go := by
  have hp : (u.priv && !w.h.handler) = false := by
    cases hu : u.priv with
    | false => rfl
    | true => simp [c.allowed hu]
  have hv : (u.vs.any fun r => !Num.goodTag (w.h.vtag r)) = false := by
    simp only [List.any_eq_false, Bool.not_eq_true', Bool.not_eq_false]
    exact fun r hr => by simpa using c.laneTags r hr
  have hu : (u.us.any fun r => !Num.goodTag (w.h.utag r)) = false := by
    simp only [List.any_eq_false, Bool.not_eq_true', Bool.not_eq_false]
    exact fun r hr => by simpa using c.uniformTags r hr
  have hf : s.issueFault w u check = none := by
    simp [State.issueFault, c.legal, c.target, hp, c.handles, hv, hu, hc]
  simp [State.gate, c.ready, c.free, c.onward, c.unheld, hf, c.sound]

/-- A clear instruction runs, or waits where its own condition says so. -/
theorem issue_clear {s : State} {w : Who} {u : Who → State → Uses} {check : Who → State → Option Bad}
    {hold : Who → State → Option State} {body : Who → State → State} (c : Clear s w (u w s)) (hc : check w s = none) :
    issue u check hold body s = .next (s.run w hold body) := by
  simp [issue, c.who, c.gate hc]

/-- A clear instruction that nothing holds has its effect on the state in which its split has gone past it. -/
theorem issue_runs {s : State} {w : Who} {u : Who → State → Uses} {check : Who → State → Option Bad}
    {hold : Who → State → Option State} {body : Who → State → State} (c : Clear s w (u w s)) (hc : check w s = none)
    (hh : hold w s = none) : issue u check hold body s = .next (body w (s.setCohort w.c w.k w.gone)) := by
  rw [issue_clear c hc, State.run, hh, State.advance_eq c.who]

/-- A clear instruction that a condition of its own holds waits. -/
theorem issue_held {s t : State} {w : Who} {u : Who → State → Uses} {check : Who → State → Option Bad}
    {hold : Who → State → Option State} {body : Who → State → State} (c : Clear s w (u w s)) (hc : check w s = none)
    (hh : hold w s = some t) : issue u check hold body s = .next t := by
  rw [issue_clear c hc, State.run, hh]

/-- A clear instruction of its cohort alone. -/
theorem issueOwn_runs {s : State} {w : Who} {u : Uses} {check : Who → State → Option Bad} {f : Who → Cohort → Cohort}
    (c : Clear s w u) (hc : check w s = none) : issueOwn u check f s = .next (s.setCohort w.c w.k (f w w.gone)) := by
  have := issue_runs (u := fun _ _ => u) (body := fun w t => t.onCohort w.c w.k (f w)) (hold := noHold) c hc rfl
  rw [issueOwn, this, State.onCohort_some (State.cohort?_setCohort_self ..), State.setCohort_setCohort]

/-- A clear instruction of its cohort alone completes with whatever holds of the cohort that its effect gives. -/
theorem issueOwn_completes {s : State} {w : Who} {u : Uses} {check : Who → State → Option Bad} {f : Who → Cohort → Cohort}
    {P : Cohort → Prop} (c : Clear s w u) (hc : check w s = none) (hp : P (f w w.gone)) : Completes s w (issueOwn u check f s) P :=
  ⟨_, _, issueOwn_runs c hc, State.setCohort_only .., State.cohort?_setCohort_self .., hp⟩

/-- Every outcome of an issue: no issuer, a wait of the front end, an arrival at a join, a trap for the fault found, lanes greyed by
poison, or the instruction itself. -/
theorem issue_cases (u : Who → State → Uses) (check : Who → State → Option Bad) (hold : Who → State → Option State)
    (body : Who → State → State) (s : State) :
    (s.who? = none ∧ issue u check hold body s = .fault .noIssuer) ∨
    ∃ w, s.who? = some w ∧
      (issue u check hold body s = .next (s.callLines w (u w s)) ∨
       issue u check hold body s = .next (s.pushOnce .joinArrive [w.c, w.k, w.i]) ∨
       (∃ b, s.issueFault w (u w s) check = some b ∧ issue u check hold body s = .next (s.stopAt w b)) ∨
       (∃ m, m = w.eaten (u w s) ∧ m ≠ 0 ∧
          (issue u check hold body s = .next (s.greyLanes w.c w.k m w.sp.pc.toNat) ∨
           ∃ w1, (s.greyLanes w.c w.k m w.sp.pc.toNat).who? = some w1 ∧
             issue u check hold body s = .next ((s.greyLanes w.c w.k m w.sp.pc.toNat).run w1 hold body))) ∨
       issue u check hold body s = .next (s.run w hold body)) := by
  cases hw : s.who? with
  | none => exact .inl ⟨rfl, by simp [issue, hw]⟩
  | some w =>
    refine .inr ⟨w, rfl, ?_⟩
    simp only [issue, hw]
    cases hg : s.gate w (u w s) check with
    | wait => exact .inl rfl
    | join => exact .inr (.inl rfl)
    | fault b =>
      refine .inr (.inr (.inl ⟨b, ?_, rfl⟩))
      unfold State.gate at hg
      split at hg; · cases hg
      split at hg; · cases hg
      split at hg; · cases hg
      split at hg
      · rename_i b' hb; cases hg; exact hb
      · split at hg <;> cases hg
    | poison m =>
      have hm : m = w.eaten (u w s) ∧ m ≠ 0 := by
        unfold State.gate at hg
        split at hg; · cases hg
        split at hg; · cases hg
        split at hg; · cases hg
        split at hg; · cases hg
        split at hg
        · cases hg
        · rename_i h0; cases hg; exact ⟨rfl, h0⟩
      refine .inr (.inr (.inr (.inl ⟨m, hm.1, hm.2, ?_⟩)))
      dsimp only
      split
      · exact .inl rfl
      · cases hw1 : (s.greyLanes w.c w.k m w.sp.pc.toNat).who? with
        | none => exact .inl rfl
        | some w1 => exact .inr ⟨w1, rfl, rfl⟩
    | go => exact .inr (.inr (.inr (.inr rfl)))

/-- An issue never refuses, and its only fault is that no live split issues. -/
theorem issue_answers (u : Who → State → Uses) (check : Who → State → Option Bad) (hold : Who → State → Option State)
    (body : Who → State → State) {s : State} {w : Who} (h : s.who? = some w) : ∃ t, issue u check hold body s = .next t := by
  rcases issue_cases u check hold body s with ⟨hn, _⟩ | ⟨w', _, h1 | h1 | ⟨_, _, h1⟩ | ⟨_, _, _, h1 | ⟨_, _, h1⟩⟩ | h1⟩
  · rw [h] at hn; cases hn
  all_goals exact ⟨_, h1⟩

/-! What a stop leaves. -/

theorem State.pushOnce_cohort? (s : State) (i : Instr) (l : List Nat) (c k : Nat) : (s.pushOnce i l).cohort? c k = s.cohort? c k := by
  unfold State.pushOnce; split <;> rfl

/-- A row put on what is due stands there. -/
theorem State.mem_pushOnce (s : State) (i : Instr) (l : List Nat) : Due.mk i l ∈ (s.pushOnce i l).agenda := by
  unfold State.pushOnce; split
  · rename_i h; simpa using h
  · simp [State.push]

/-- A stop for a fault marks the issuing cohort and changes nothing else. -/
theorem State.stopAt_stops {s : State} {w : Who} (h : s.who? = some w) (b : Bad) : Stops s w (.next (s.stopAt w b)) b.code b.sub b.addr := by
  have hm := (State.who?_some h).1
  refine ⟨_, rfl, ?_, ?_, by intro d hd; rw [List.mem_singleton] at hd; subst hd; exact State.mem_pushOnce _ _ _, ?_⟩
  · rw [State.stopAt, State.trapWith, State.pushOnce_cohort?, State.onCohort_some hm]; simp
  · intro c k hck
    rw [State.stopAt, State.trapWith, State.pushOnce_cohort?, State.onCohort_some hm]
    by_cases hc : c = w.c
    · subst hc; exact State.cohort?_setCohort_slot _ _ _ (fun hk => hck ⟨rfl, hk⟩)
    · exact State.cohort?_setCohort_core _ _ _ _ hc
  · rw [State.stopAt, State.trapWith, State.onCohort_some hm]
    unfold State.pushOnce; split <;> rfl

/-- An instruction that has reached the checks stops for the fault found. -/
theorem issue_stops {s : State} {w : Who} {u : Who → State → Uses} {check : Who → State → Option Bad}
    {hold : Who → State → Option State} {body : Who → State → State} {b : Bad} (c : Reaches s w (u w s))
    (hf : s.issueFault w (u w s) check = some b) : Stops s w (issue u check hold body s) b.code b.sub b.addr := by
  simp [issue, c.who, State.gate, c.ready, c.free, c.onward, c.unheld, hf]
  exact State.stopAt_stops c.who b

theorem Clear.reaches {s : State} {w : Who} {u : Uses} (c : Clear s w u) : Reaches s w u := ⟨c.who, c.ready, c.free, c.onward, c.unheld⟩

/-- The only fault that a clear instruction can have at issue is its own. -/
theorem Clear.issueFault {s : State} {w : Who} {u : Uses} (c : Clear s w u) (check : Who → State → Option Bad) :
    s.issueFault w u check = check w s := by
  have hp : (u.priv && !w.h.handler) = false := by
    cases hu : u.priv with
    | false => rfl
    | true => simp [c.allowed hu]
  have hv : (u.vs.any fun r => !Num.goodTag (w.h.vtag r)) = false := by
    simp only [List.any_eq_false, Bool.not_eq_true', Bool.not_eq_false]
    exact fun r hr => by simpa using c.laneTags r hr
  have hu : (u.us.any fun r => !Num.goodTag (w.h.utag r)) = false := by
    simp only [List.any_eq_false, Bool.not_eq_true', Bool.not_eq_false]
    exact fun r hr => by simpa using c.uniformTags r hr
  simp [State.issueFault, c.legal, c.target, hp, c.handles, hv, hu]

/-- A clear instruction stops for the fault of its own. -/
theorem issue_traps {s : State} {w : Who} {u : Who → State → Uses} {check : Who → State → Option Bad}
    {hold : Who → State → Option State} {body : Who → State → State} {b : Bad} (c : Clear s w (u w s)) (hc : check w s = some b) :
    Stops s w (issue u check hold body s) b.code b.sub b.addr :=
  issue_stops c.reaches ((c.issueFault check).trans hc)

/-! The registers of the cohort whose split has gone on. -/

@[simp] theorem Who.gone_v (w : Who) : w.gone.v = w.h.v := rfl
@[simp] theorem Who.gone_q (w : Who) : w.gone.q = w.h.q := rfl
@[simp] theorem Who.gone_p (w : Who) : w.gone.p = w.h.p := rfl
@[simp] theorem Who.gone_dmask (w : Who) : w.gone.dmask = w.h.dmask := rfl
@[simp] theorem Who.gone_seq (w : Who) : w.gone.seq = w.h.seq + 1 := rfl
@[simp] theorem Who.gone_vreg (w : Who) (n : Nat) : w.gone.vreg n = w.h.vreg n := rfl
@[simp] theorem Who.gone_lane (w : Who) (n l : Nat) : w.gone.lane n l = w.h.lane n l := rfl
@[simp] theorem Who.gone_vtag (w : Who) (n : Nat) : w.gone.vtag n = w.h.vtag n := rfl
@[simp] theorem Who.gone_uq (w : Who) (n : Nat) : w.gone.uq n = w.h.uq n := rfl
@[simp] theorem Who.gone_utag (w : Who) (n : Nat) : w.gone.utag n = w.h.utag n := rfl
@[simp] theorem Who.gone_pred (w : Who) (n : Nat) : w.gone.pred n = w.h.pred n := rfl

/-- The split has gone on in that cohort. -/
theorem Who.gone_wentOn {s : State} {w : Who} (h : s.who? = some w) : WentOn w w.past w.gone where
  here := by
    have := (State.who?_some h).2.1
    simp only [Cohort.split?] at this
    simp [Who.gone, Cohort.onSplit, Cohort.split?, Tbl.find?_adj, this, Who.past]
  others j hj := by simp [Who.gone, Cohort.onSplit, Cohort.split?, Tbl.find?_adj, hj]
  seq := rfl

theorem Who.gone_sameBut (w : Who) : SameBut w.h w.gone := by
  obtain ⟨_, _, _, h, _, _, _⟩ := w
  cases h; rfl

/-- A write of lane registers changes nothing beside them. -/
theorem SameBut.lanes {h h' : Cohort} (x : SameBut h h') (v : Tbl VReg) (y : List Nat) : SameBut h { h' with v := v, dirty := y } := x

/-! Registers read after a write. -/

theorem Cohort.vreg_setLanes_ne (h : Cohort) {n d : Nat} (m : Mask) (tag : Nat) (f : Nat → Word) (hn : n ≠ d) :
    (h.setLanes d m tag f).vreg n = h.vreg n := by
  simp [Cohort.setLanes, Cohort.vreg, Tbl.at_put_ne _ _ _ hn]

theorem Cohort.vtag_setLanes_self (h : Cohort) (d : Nat) (m : Mask) (tag : Nat) (f : Nat → Word) :
    (h.setLanes d m tag f).vtag d = tag := by
  simp [Cohort.setLanes, Cohort.vtag, Cohort.vreg]

theorem Cohort.lane_setLanes_self (h : Cohort) (d : Nat) (m : Mask) (tag : Nat) (f : Nat → Word) {l : Nat} (hl : l < 32) :
    (h.setLanes d m tag f).lane d l = if inMask m l then f l else h.lane d l := by
  simp [Cohort.setLanes, Cohort.lane, Cohort.vreg, VReg.lane, List.getD_eq_getElem?_getD, hl]

/-- A write of a lane register sets it and leaves the others (R78). -/
theorem Cohort.setLanes_set (h : Cohort) (d : Nat) (m : Mask) (tag : Nat) (f : Nat → Word) :
    LanesSet h (h.setLanes d m tag f) d m tag f where
  words _ hl := Cohort.lane_setLanes_self h d m tag f hl
  tag := Cohort.vtag_setLanes_self ..
  poison := by simp [Cohort.setLanes, Cohort.vreg]
  others _ hn := Cohort.vreg_setLanes_ne h m tag f hn

/-- A doubleword is its two words (R21). -/
theorem words_join (z : DWord) : z.extractLsb' 32 32 ++ z.extractLsb' 0 32 = z := by
  apply BitVec.eq_of_getLsbD_eq
  intro i hi
  rw [BitVec.getLsbD_append, BitVec.getLsbD_extractLsb', BitVec.getLsbD_extractLsb']
  by_cases h : i < 32
  · simp [h]
  · simp [h, show i - 32 < 32 by omega, show 32 + (i - 32) = i by omega]

/-- A write of a pair sets both registers and leaves the others (R21, R78). -/
theorem Cohort.setPair_set (h : Cohort) (d : Nat) (m : Mask) (tag : Nat) (f : Nat → DWord) :
    PairSet h (h.setPair d m tag f) d m tag f where
  words l hl := by
    have e1 : (h.setPair d m tag f).lane (d + 1) l = if inMask m l then (f l).extractLsb' 32 32 else h.lane (d + 1) l := by
      rw [Cohort.setPair, Cohort.lane_setLanes_self _ _ _ _ _ hl]
      simp [Cohort.lane, Cohort.vreg_setLanes_ne h m tag _ (Nat.succ_ne_self d)]
    have e0 : (h.setPair d m tag f).lane d l = if inMask m l then (f l).extractLsb' 0 32 else h.lane d l := by
      rw [Cohort.setPair, Cohort.lane, Cohort.vreg_setLanes_ne _ m tag _ (Nat.ne_of_lt (Nat.lt_succ_self d)), ← Cohort.lane,
        Cohort.lane_setLanes_self _ _ _ _ _ hl]
    unfold Cohort.pair
    rw [e1, e0]
    cases inMask m l
    · rfl
    · exact words_join (f l)
  tags := by
    constructor
    · rw [Cohort.setPair, Cohort.vtag, Cohort.vreg_setLanes_ne _ m tag _ (Nat.ne_of_lt (Nat.lt_succ_self d)), ← Cohort.vtag,
        Cohort.vtag_setLanes_self]
    · rw [Cohort.setPair, Cohort.vtag_setLanes_self]
  others n h0 h1 := by
    rw [Cohort.setPair, Cohort.vreg_setLanes_ne _ m tag _ h1, Cohort.vreg_setLanes_ne _ m tag _ h0]

/-- A write of a uniform register sets it, unless it is `q0`, and leaves the others (R54). -/
theorem Cohort.setQ_set (h : Cohort) (d : Nat) (x : DWord) (tag : Nat) : UniformSet h (h.setQ d x tag) d x tag where
  value hd := by simp [Cohort.setQ, Cohort.uq, Cohort.utag, hd]
  zero := rfl
  others n hn := by
    by_cases hd : d = 0
    · simp [Cohort.setQ, hd]
    · simp [Cohort.setQ, Cohort.uq, Cohort.utag, hd, Tbl.at_put_ne _ _ _ hn]

/-- A write of a predicate sets it in the lanes given, unless it is `p0`, and leaves the others (R65, R78). -/
theorem Cohort.setPred_set (h : Cohort) (d : Nat) (m x : Mask) : PredSet h (h.setPred d m x) d m x where
  bits hd l hl := by
    simp only [Cohort.setPred, Cohort.pred, hd, if_false, inMask, Tbl.at_put_self]
    cases hm : m.getLsbD l <;> rw [BitVec.getLsbD_eq_getElem hl] at hm <;> simp [hl, hm]
  one := rfl
  others n hn := by
    by_cases hd : d = 0
    · simp [Cohort.setPred, hd]
    · simp [Cohort.setPred, Cohort.pred, hd, Tbl.at_put_ne _ _ _ hn]

/-! The shapes of completion. -/

theorem LanesSet.ofGone {w : Who} {h : Cohort} {d tag : Nat} {m : Mask} {f : Nat → Word} (x : LanesSet w.gone h d m tag f) :
    LanesSet w.h h d m tag f := ⟨x.words, x.tag, x.poison, x.others⟩

theorem PairSet.ofGone {w : Who} {h : Cohort} {d tag : Nat} {m : Mask} {f : Nat → DWord} (x : PairSet w.gone h d m tag f) :
    PairSet w.h h d m tag f := ⟨x.words, x.tags, x.others⟩

theorem UniformSet.ofGone {w : Who} {h : Cohort} {d tag : Nat} {y : DWord} (x : UniformSet w.gone h d y tag) :
    UniformSet w.h h d y tag := ⟨x.value, x.zero, x.others⟩

theorem PredSet.ofGone {w : Who} {h : Cohort} {d : Nat} {m y : Mask} (x : PredSet w.gone h d m y) : PredSet w.h h d m y :=
  ⟨x.bits, x.one, x.others⟩

theorem Cohort.setPair_only (h : Cohort) (d : Nat) (m : Mask) (tag : Nat) (f : Nat → DWord) :
    ∃ v y, h.setPair d m tag f = { h with v := v, dirty := y } := ⟨_, _, rfl⟩

/-- A clear instruction whose effect is one lane register. -/
theorem writesLanes {s : State} {w : Who} {u : Uses} {check : Who → State → Option Bad} {d tag : Nat} {m : Mask} {f : Nat → Word}
    (g : Who → Cohort → Cohort) (hg : g w w.gone = w.gone.setLanes d m tag f) (c : Clear s w u) (hc : check w s = none) :
    WritesLanes s w (issueOwn u check g s) d m tag f :=
  issueOwn_completes c hc (by
    rw [hg]
    exact ⟨⟨(Who.gone_wentOn c.who).here, (Who.gone_wentOn c.who).others, rfl⟩, w.gone_sameBut.lanes _ _, (Cohort.setLanes_set ..).ofGone,
      fun _ => ⟨rfl, rfl⟩, fun _ => rfl⟩)

/-- A clear instruction whose effect is one pair. -/
theorem writesPair {s : State} {w : Who} {u : Uses} {check : Who → State → Option Bad} {d tag : Nat} {m : Mask} {f : Nat → DWord}
    (g : Who → Cohort → Cohort) (hg : g w w.gone = w.gone.setPair d m tag f) (c : Clear s w u) (hc : check w s = none) :
    WritesPair s w (issueOwn u check g s) d m tag f :=
  issueOwn_completes c hc (by
    have hs := (Cohort.setPair_set w.gone d m tag f).ofGone
    obtain ⟨v, y, hv⟩ := Cohort.setPair_only w.gone d m tag f
    rw [hg]
    rw [hv] at hs ⊢
    exact ⟨⟨(Who.gone_wentOn c.who).here, (Who.gone_wentOn c.who).others, rfl⟩, w.gone_sameBut.lanes _ _, hs, fun _ => ⟨rfl, rfl⟩, fun _ => rfl⟩)

/-- A clear instruction whose effect is one uniform register. -/
theorem writesUniform {s : State} {w : Who} {u : Uses} {check : Who → State → Option Bad} {d tag : Nat} {x : DWord}
    (g : Who → Cohort → Cohort) (hg : g w w.gone = w.gone.setQ d x tag) (c : Clear s w u) (hc : check w s = none) :
    WritesUniform s w (issueOwn u check g s) d x tag :=
  issueOwn_completes c hc (by
    have hw := Who.gone_wentOn c.who
    rw [hg]
    refine ⟨?_, ?_, (Cohort.setQ_set ..).ofGone, fun _ => ?_, fun _ => ?_⟩ <;> by_cases hd : d = 0 <;> simp only [Cohort.setQ, hd, if_true, if_false]
    · exact hw
    · exact ⟨hw.here, hw.others, rfl⟩
    all_goals rfl)

/-- A clear instruction whose effect is one predicate. -/
theorem writesPred {s : State} {w : Who} {u : Uses} {check : Who → State → Option Bad} {d : Nat} {m x : Mask}
    (g : Who → Cohort → Cohort) (hg : g w w.gone = w.gone.setPred d m x) (c : Clear s w u) (hc : check w s = none) :
    WritesPred s w (issueOwn u check g s) d m x :=
  issueOwn_completes c hc (by
    have hw := Who.gone_wentOn c.who
    rw [hg]
    refine ⟨?_, ?_, (Cohort.setPred_set ..).ofGone, fun _ => ?_, fun _ => ?_⟩ <;> by_cases hd : d = 0 <;> simp only [Cohort.setPred, hd, if_true, if_false]
    · exact hw
    · exact ⟨hw.here, hw.others, rfl⟩
    · rfl
    · rfl
    · rfl
    · rfl
    · exact ⟨rfl, rfl⟩
    · exact ⟨rfl, rfl⟩)

end Sys2Proof.Machine
end

