-- ==== Sys2Proof/Laws/Mem.lean ====
section
/-! SUPPORT. The memory keeps its canonical form under every operation on it, a byte written is read back, and other bytes
read as before. -/

namespace Sys2Proof

theorem Mem.wfFrom_mono {m : Mem} {lo hi : Nat} (h : Mem.wfFrom hi m = true) (hl : lo ≤ hi) : Mem.wfFrom lo m = true := by
  cases m with
  | nil => rfl
  | cons c r => simp only [Mem.wfFrom, Bool.and_eq_true, decide_eq_true_eq] at *; exact ⟨⟨by omega, h.1.2⟩, h.2⟩

theorem Mem.wfFrom_wr (m : Mem) (lo a : Nat) (v : Byte) (h : Mem.wfFrom lo m = true) (hl : lo ≤ a) :
    Mem.wfFrom lo (Mem.wr m a v) = true := by
  induction m generalizing lo with
  | nil => by_cases hv : v = Mem.blank <;> simp [Mem.wr, Mem.wfFrom, hv, hl]
  | cons c r ih =>
    obtain ⟨b, w⟩ := c
    simp only [Mem.wfFrom, Bool.and_eq_true, decide_eq_true_eq] at h
    simp only [Mem.wr]
    split
    · split
      · simp [Mem.wfFrom, h]
      · simp only [Mem.wfFrom, Bool.and_eq_true, decide_eq_true_eq]
        exact ⟨⟨hl, by assumption⟩, ⟨by omega, h.1.2⟩, h.2⟩
    · split
      · rename_i hb; subst hb
        split
        · exact Mem.wfFrom_mono h.2 (by omega)
        · simp only [Mem.wfFrom, Bool.and_eq_true, decide_eq_true_eq]
          exact ⟨⟨hl, by assumption⟩, h.2⟩
      · simp only [Mem.wfFrom, Bool.and_eq_true, decide_eq_true_eq]
        exact ⟨h.1, ih _ h.2 (by omega)⟩

/-- Writing a byte keeps the canonical form. -/
theorem Mem.wr_wf {m : Mem} (a : Nat) (v : Byte) (h : m.wf = true) : (Mem.wr m a v).wf = true :=
  Mem.wfFrom_wr m 0 a v h (Nat.zero_le a)

/-- Writing bytes keeps the canonical form. -/
theorem Mem.wrBytes_wf {m : Mem} (a : Nat) (bs : List Byte) (h : m.wf = true) : (Mem.wrBytes m a bs).wf = true := by
  induction bs generalizing m a with
  | nil => exact h
  | cons v r ih => exact ih (a + 1) (Mem.wr_wf a v h)

/-- Writing a number keeps the canonical form. -/
theorem Mem.wrN_wf {m : Mem} (a n w : Nat) (h : m.wf = true) : (Mem.wrN m a n w).wf = true := Mem.wrBytes_wf a _ h

theorem Mem.wfFrom_filter (p : Host.Cell → Bool) (m : Mem) (lo : Nat) (h : Mem.wfFrom lo m = true) :
    Mem.wfFrom lo (m.filter p) = true := by
  induction m generalizing lo with
  | nil => rfl
  | cons c r ih =>
    simp only [Mem.wfFrom, Bool.and_eq_true, decide_eq_true_eq] at h
    simp only [List.filter]
    split
    · simp only [Mem.wfFrom, Bool.and_eq_true, decide_eq_true_eq]; exact ⟨h.1, ih _ h.2⟩
    · exact ih _ (Mem.wfFrom_mono h.2 (by omega))

/-- Clearing a range keeps the canonical form. -/
theorem Mem.clear_wf {m : Mem} (a n : Nat) (h : m.wf = true) : (Mem.clear m a n).wf = true := Mem.wfFrom_filter _ m 0 h

/-- Writes folded over a list keep the canonical form. -/
theorem Mem.foldl_wf {α : Type} (f : Mem → α → Mem) (hf : ∀ m e, m.wf = true → (f m e).wf = true) (l : List α) (m : Mem)
    (h : m.wf = true) : (l.foldl f m).wf = true := by
  induction l generalizing m with
  | nil => exact h
  | cons e r ih => exact ih _ (hf m e h)

theorem Mem.rd_of_lt {m : Mem} {lo a : Nat} (h : Mem.wfFrom lo m = true) (ha : a < lo) : Mem.rd m a = Mem.blank := by
  induction m generalizing lo with
  | nil => rfl
  | cons c r ih =>
    simp only [Mem.wfFrom, Bool.and_eq_true, decide_eq_true_eq] at h
    have : c.1 ≠ a := by omega
    simp [Mem.rd, this, ih h.2 (by omega)]

theorem Mem.rd_wr_from (m : Mem) (lo a : Nat) (v : Byte) (h : Mem.wfFrom lo m = true) (hl : lo ≤ a) (b : Nat) :
    Mem.rd (Mem.wr m a v) b = if b = a then v else Mem.rd m b := by
  induction m generalizing lo with
  | nil =>
    by_cases hb : b = a
    · by_cases hv : v = Mem.blank <;> simp [Mem.wr, Mem.rd, hv, hb]
    · by_cases hv : v = Mem.blank <;> simp [Mem.wr, Mem.rd, hv, hb, Ne.symm hb]
  | cons c r ih =>
    obtain ⟨d, w⟩ := c
    simp only [Mem.wfFrom, Bool.and_eq_true, decide_eq_true_eq] at h
    simp only [Mem.wr]
    split
    · rename_i had
      by_cases hb : b = a
      · subst hb
        split
        · have h1 : d ≠ b := by omega
          simp [Mem.rd, Mem.rd_of_lt h.2 (by omega : b < d + 1), *]
        · simp [Mem.rd]
      · split
        · simp
        · simp [Mem.rd, Ne.symm hb]
    · split
      · rename_i hda; subst hda
        by_cases hb : b = d
        · subst hb
          split
          · simp [Mem.rd_of_lt h.2 (by omega : b < b + 1), *]
          · simp [Mem.rd]
        · split <;> simp [Mem.rd, Ne.symm hb]
      · rename_i h1 h2
        simp only [Mem.rd, ih _ h.2 (by omega)]
        by_cases hd : d = b
        · subst hd; simp [h2]
        · simp [hd]

/-- In a canonical memory a byte written is read back, and every other byte reads as before. -/
theorem Mem.rd_wr {m : Mem} (h : m.wf = true) (a b : Nat) (v : Byte) : Mem.rd (Mem.wr m a v) b = if b = a then v else Mem.rd m b :=
  Mem.rd_wr_from m 0 a v h (Nat.zero_le a) b

/-- A byte outside those written reads as before. -/
theorem Mem.rd_wrBytes_out {m : Mem} (h : m.wf = true) (a : Nat) (bs : List Byte) (b : Nat) (hb : b < a ∨ a + bs.length ≤ b) :
    Mem.rd (Mem.wrBytes m a bs) b = Mem.rd m b := by
  induction bs generalizing m a with
  | nil => rfl
  | cons v r ih =>
    simp only [List.length_cons] at hb
    have h1 : b ≠ a := by omega
    simp only [Mem.wrBytes]
    rw [ih (Mem.wr_wf a v h) (a + 1) (by omega), Mem.rd_wr h]
    simp [h1]

/-- A byte written among others is read back. -/
theorem Mem.rd_wrBytes_in {m : Mem} (h : m.wf = true) (a : Nat) (bs : List Byte) (i : Nat) (hi : i < bs.length) :
    Mem.rd (Mem.wrBytes m a bs) (a + i) = bs[i] := by
  induction bs generalizing m a i with
  | nil => simp at hi
  | cons v r ih =>
    simp only [Mem.wrBytes]
    cases i with
    | zero =>
      rw [Mem.rd_wrBytes_out (Mem.wr_wf a v h) (a + 1) r (a + 0) (by omega), Mem.rd_wr h]
      simp
    | succ i =>
      have h2 := ih (Mem.wr_wf a v h) (a + 1) i (by simpa using hi)
      rw [show a + (i + 1) = a + 1 + i by omega, h2]
      simp

/-- A range cleared reads as unlisted, and other bytes read as before. -/
theorem Mem.rd_clear (m : Mem) (a n b : Nat) :
    Mem.rd (Mem.clear m a n) b = if a ≤ b ∧ b < a + n then Mem.blank else Mem.rd m b := by
  induction m with
  | nil => simp [Mem.clear, Mem.rd]
  | cons c r ih =>
    simp only [Mem.clear, List.filter] at *
    split
    · rename_i hc
      simp only [Bool.or_eq_true, decide_eq_true_eq] at hc
      simp only [Mem.rd, ih]
      by_cases hb : c.1 = b
      · have : ¬ (a ≤ b ∧ b < a + n) := by omega
        simp [hb, this]
      · simp [hb]
    · rename_i hc
      simp only [Bool.or_eq_false_iff, decide_eq_false_iff_not] at hc
      rw [ih]
      by_cases hb : c.1 = b
      · have : a ≤ b ∧ b < a + n := by omega
        simp [this]
      · simp [Mem.rd, hb]

theorem leBytes_length (n w : Nat) : (leBytes n w).length = n := by
  induction n generalizing w with
  | zero => rfl
  | succ n ih => simp [leBytes, ih]

/-- The bytes of a number, read in the same order, give it back (R2). -/
theorem leNat_leBytes (n w : Nat) : leNat (leBytes n w) = w % 256 ^ n := by
  induction n generalizing w with
  | zero => simp [leBytes, leNat, Nat.mod_one]
  | succ n ih =>
    have h8 : (BitVec.ofNat 8 w).toNat = w % 256 := BitVec.toNat_ofNat w 8
    rw [leBytes, leNat, ih, h8, Nat.pow_succ, Nat.mul_comm (256 ^ n) 256, Nat.mod_mul]

theorem Mem.rdBytes_wrBytes {m : Mem} (h : m.wf = true) (a : Nat) (bs : List Byte) :
    Mem.rdBytes (Mem.wrBytes m a bs) a bs.length = bs := by
  have key : ∀ (m : Mem) (a : Nat) (l : List Byte), (∀ i (hi : i < l.length), Mem.rd m (a + i) = l[i]) → Mem.rdBytes m a l.length = l := by
    intro m a l
    induction l generalizing a with
    | nil => intro _; rfl
    | cons v r ih =>
      intro hr
      simp only [List.length_cons, Mem.rdBytes]
      congr 1
      · exact hr 0 (Nat.succ_pos _)
      · exact ih (a + 1) fun i hi => by
          have := hr (i + 1) (by simpa using hi)
          rw [show a + 1 + i = a + (i + 1) by omega, this]; simp
  exact key _ a bs fun i hi => Mem.rd_wrBytes_in h a bs i hi

/-- A number written is read back, modulo its width. -/
theorem Mem.rdN_wrN {m : Mem} (h : m.wf = true) (a n w : Nat) : Mem.rdN (Mem.wrN m a n w) a n = w % 256 ^ n := by
  have := Mem.rdBytes_wrBytes h a (leBytes n w)
  rw [leBytes_length] at this
  simp only [Mem.rdN, Mem.wrN, this, leNat_leBytes]

/-- The memory after reset has the canonical form. -/
theorem Mem.reset_wf : Machine.State.reset.mem.wf = true := rfl

end Sys2Proof
end

