-- ==== Sys2Proof/Laws/PerInstr.lean ====
section
/-! SUPPORT. For every instruction: the word of a well-formed one fits its length, and its lowest bit tells a core word's length (R49). -/

namespace Sys2Proof.Laws.WordFits

open Sys2Proof

set_option Elab.async false

/-- R49, R359: a well-formed instruction's word fits its bytes, and bit 0 of a core word is 0 for two bytes and 1 for four. -/
def Statement (i : Instr) : Prop :=
  i.wf = true → encode i < 256 ^ i.size ∧ (i.size = 2 → encode i % 2 = 0) ∧ (i.size = 4 → i.isUliah = false → encode i % 2 = 1)

theorem shape0 (s : Nat) (d : Nat) (k : Nat) (h : ((s < 32) && (d < 64) && (s != 0 || d != 0) : Bool) = true) (hk : k ≤ 0x0 ∧ k % 2 = 0) : s * 0x800 + d * 0x20 + k < 256 ^ 2 ∧ (s * 0x800 + d * 0x20 + k) % 2 = 0 := by
  simp only [Bool.and_eq_true, decide_eq_true_eq, bne_iff_ne, Bool.or_eq_true] at h
  omega
theorem shape1 (s : Nat) (d : Nat) (k : Nat) (h : ((s < 32) && (d < 64) : Bool) = true) (hk : k ≤ 0x1e ∧ k % 2 = 0) : s * 0x800 + d * 0x20 + k < 256 ^ 2 ∧ (s * 0x800 + d * 0x20 + k) % 2 = 0 := by
  simp only [Bool.and_eq_true, decide_eq_true_eq] at h
  omega
theorem shape2 (i : Nat) (d : Nat) (k : Nat) (h : ((i < 32) && (d < 64) : Bool) = true) (hk : k ≤ 0x14 ∧ k % 2 = 0) : i * 0x800 + d * 0x20 + k < 256 ^ 2 ∧ (i * 0x800 + d * 0x20 + k) % 2 = 0 := by
  simp only [Bool.and_eq_true, decide_eq_true_eq] at h
  omega
theorem shape3 (o : OpA) (k : Nat) (h : ((o.q < 2) && (o.b < 64) && (o.a < 64) && (o.d < 64) && (goodGuard o.g) : Bool) = true) (hk : k ≤ 0xc000002f ∧ k % 2 = 1) : o.bits + k < 256 ^ 4 ∧ (o.bits + k) % 2 = 1 := by
  simp only [goodGuard, Bool.and_eq_true, decide_eq_true_eq, bne_iff_ne] at h
  simp only [OpA.bits]
  omega
theorem shape4 (o : OpU) (k : Nat) (h : ((o.a < 64) && (o.d < 64) && (goodGuard o.g) : Bool) = true) (hk : k ≤ 0xc0000027 ∧ k % 2 = 1) : o.bits + k < 256 ^ 4 ∧ (o.bits + k) % 2 = 1 := by
  simp only [goodGuard, Bool.and_eq_true, decide_eq_true_eq, bne_iff_ne] at h
  simp only [OpU.bits]
  omega
theorem shape5 (o : OpI) (k : Nat) (h : ((o.i < 512) && (o.a < 64) && (o.d < 64) && (goodGuard o.g) : Bool) = true) (hk : k ≤ 0x13 ∧ k % 2 = 1) : o.bits + k < 256 ^ 4 ∧ (o.bits + k) % 2 = 1 := by
  simp only [goodGuard, Bool.and_eq_true, decide_eq_true_eq, bne_iff_ne] at h
  simp only [OpI.bits]
  omega
theorem shape6 (o : OpI) (k : Nat) (h : ((o.i < 128) && (o.a < 64) && (o.d < 64) && (goodGuard o.g) : Bool) = true) (hk : k ≤ 0xc0000015 ∧ k % 2 = 1) : o.bits + k < 256 ^ 4 ∧ (o.bits + k) % 2 = 1 := by
  simp only [goodGuard, Bool.and_eq_true, decide_eq_true_eq, bne_iff_ne] at h
  simp only [OpI.bits]
  omega
theorem shape7 (o : OpSh) (k : Nat) (h : ((o.s < 32) && (o.a < 64) && (o.d < 64) && (goodGuard o.g) : Bool) = true) (hk : k ≤ 0x80000017 ∧ k % 2 = 1) : o.bits + k < 256 ^ 4 ∧ (o.bits + k) % 2 = 1 := by
  simp only [goodGuard, Bool.and_eq_true, decide_eq_true_eq, bne_iff_ne] at h
  simp only [OpSh.bits]
  omega
theorem shape8 (o : OpMovi) (k : Nat) (h : ((o.i < 8192) && (o.d < 64) && (goodGuard o.g) : Bool) = true) (hk : k ≤ 0xc0000017 ∧ k % 2 = 1) : o.bits + k < 256 ^ 4 ∧ (o.bits + k) % 2 = 1 := by
  simp only [goodGuard, Bool.and_eq_true, decide_eq_true_eq, bne_iff_ne] at h
  simp only [OpMovi.bits]
  omega
theorem shape9 (o : OpCmp) (k : Nat) (h : ((o.q < 2) && (o.b < 64) && (o.a < 64) && (o.p < 8) && (o.c < 8) && (goodGuard o.g) && (o.p != 0 && o.c < 6) : Bool) = true) (hk : k ≤ 0x40000029 ∧ k % 2 = 1) : o.bits + k < 256 ^ 4 ∧ (o.bits + k) % 2 = 1 := by
  simp only [goodGuard, Bool.and_eq_true, decide_eq_true_eq, bne_iff_ne] at h
  simp only [OpCmp.bits]
  omega
theorem shape10 (o : OpCmp) (k : Nat) (h : ((o.q < 2) && (o.b < 64) && (o.a < 64) && (o.p < 8) && (o.c < 8) && (goodGuard o.g) && (o.p != 0) : Bool) = true) (hk : k ≤ 0xc0000029 ∧ k % 2 = 1) : o.bits + k < 256 ^ 4 ∧ (o.bits + k) % 2 = 1 := by
  simp only [goodGuard, Bool.and_eq_true, decide_eq_true_eq, bne_iff_ne] at h
  simp only [OpCmp.bits]
  omega
theorem shape11 (o : OpP) (k : Nat) (h : ((o.b < 8) && (o.a < 8) && (o.d < 8) && (goodGuard o.g) && (o.d != 0) : Bool) = true) (hk : k ≤ 0x8000002b ∧ k % 2 = 1) : o.bits + k < 256 ^ 4 ∧ (o.bits + k) % 2 = 1 := by
  simp only [goodGuard, Bool.and_eq_true, decide_eq_true_eq, bne_iff_ne] at h
  simp only [OpP.bits]
  omega
theorem shape12 (o : OpPn) (k : Nat) (h : ((o.a < 8) && (o.d < 8) && (goodGuard o.g) && (o.d != 0) : Bool) = true) (hk : k ≤ 0xc000002b ∧ k % 2 = 1) : o.bits + k < 256 ^ 4 ∧ (o.bits + k) % 2 = 1 := by
  simp only [goodGuard, Bool.and_eq_true, decide_eq_true_eq, bne_iff_ne] at h
  simp only [OpPn.bits]
  omega
theorem shape13 (o : OpCvt) (k : Nat) (h : ((o.s < 2) && (o.t < 64) && (o.a < 64) && (o.d < 64) && (goodGuard o.g) : Bool) = true) (hk : k ≤ 0x4000002d ∧ k % 2 = 1) : o.bits + k < 256 ^ 4 ∧ (o.bits + k) % 2 = 1 := by
  simp only [goodGuard, Bool.and_eq_true, decide_eq_true_eq, bne_iff_ne] at h
  simp only [OpCvt.bits]
  omega
theorem shape14 (o : OpVoteP) (k : Nat) (h : ((o.s < 8) && (o.p < 8) && (goodGuard o.g) && (o.p != 0) : Bool) = true) (hk : k ≤ 0x800031 ∧ k % 2 = 1) : o.bits + k < 256 ^ 4 ∧ (o.bits + k) % 2 = 1 := by
  simp only [goodGuard, Bool.and_eq_true, decide_eq_true_eq, bne_iff_ne] at h
  simp only [OpVoteP.bits]
  omega
theorem shape15 (o : OpVoteB) (k : Nat) (h : ((o.s < 8) && (o.d < 64) && (goodGuard o.g) : Bool) = true) (hk : k ≤ 0x1000031 ∧ k % 2 = 1) : o.bits + k < 256 ^ 4 ∧ (o.bits + k) % 2 = 1 := by
  simp only [goodGuard, Bool.and_eq_true, decide_eq_true_eq, bne_iff_ne] at h
  simp only [OpVoteB.bits]
  omega
theorem shape16 (o : OpRed) (k : Nat) (h : ((o.k < 64) && (o.a < 64) && (o.d < 64) && (goodGuard o.g) && (o.k < 13) : Bool) = true) (hk : k ≤ 0x80000031 ∧ k % 2 = 1) : o.bits + k < 256 ^ 4 ∧ (o.bits + k) % 2 = 1 := by
  simp only [goodGuard, Bool.and_eq_true, decide_eq_true_eq, bne_iff_ne] at h
  simp only [OpRed.bits]
  omega
theorem shape17 (p : Nat) (g : Nat) (k : Nat) (h : ((p < 8) && (goodGuard g) && (p != 0) : Bool) = true) (hk : k ≤ 0xc0000031 ∧ k % 2 = 1) : p * 0x4000 + g * 0x80 + k < 256 ^ 4 ∧ (p * 0x4000 + g * 0x80 + k) % 2 = 1 := by
  simp only [goodGuard, Bool.and_eq_true, decide_eq_true_eq, bne_iff_ne] at h
  omega
theorem shape18 (o : OpT) (k : Nat) (h : ((o.b < 64) && (o.a < 64) && (o.d < 64) : Bool) = true) (hk : k ≤ 0xc0000035 ∧ k % 2 = 1) : o.bits + k < 256 ^ 4 ∧ (o.bits + k) % 2 = 1 := by
  simp only [Bool.and_eq_true, decide_eq_true_eq] at h
  simp only [OpT.bits]
  omega
theorem shape19 (i : Nat) (d : Nat) (k : Nat) (h : ((i < 524288) && (d < 64) : Bool) = true) (hk : k ≤ 0x37 ∧ k % 2 = 1) : i * 0x2000 + d * 0x80 + k < 256 ^ 4 ∧ (i * 0x2000 + d * 0x80 + k) % 2 = 1 := by
  simp only [Bool.and_eq_true, decide_eq_true_eq] at h
  omega
theorem shape20 (i : Nat) (d : Nat) (k : Nat) (h : ((i < 262144) && (d < 64) : Bool) = true) (hk : k ≤ 0x80000039 ∧ k % 2 = 1) : i * 0x2000 + d * 0x80 + k < 256 ^ 4 ∧ (i * 0x2000 + d * 0x80 + k) % 2 = 1 := by
  simp only [Bool.and_eq_true, decide_eq_true_eq] at h
  omega
theorem shape21 (a : Nat) (d : Nat) (k : Nat) (h : ((a < 64) && (d < 64) : Bool) = true) (hk : k ≤ 0x6000005d ∧ k % 2 = 1) : a * 0x20000 + d * 0x800 + k < 256 ^ 4 ∧ (a * 0x20000 + d * 0x800 + k) % 2 = 1 := by
  simp only [Bool.and_eq_true, decide_eq_true_eq] at h
  omega
theorem shape22 (o : OpMovx) (k : Nat) (h : ((o.c < 2) && (o.x < 1024) && (o.d < 64) && (goodGuard o.g) : Bool) = true) (hk : k ≤ 0x8000003b ∧ k % 2 = 1) : o.bits + k < 256 ^ 4 ∧ (o.bits + k) % 2 = 1 := by
  simp only [goodGuard, Bool.and_eq_true, decide_eq_true_eq, bne_iff_ne] at h
  simp only [OpMovx.bits]
  omega
theorem shape23 (o : OpMovs) (k : Nat) (h : ((o.c < 2) && (o.x < 1024) && (o.d < 64) : Bool) = true) (hk : k ≤ 0xc000003b ∧ k % 2 = 1) : o.bits + k < 256 ^ 4 ∧ (o.bits + k) % 2 = 1 := by
  simp only [Bool.and_eq_true, decide_eq_true_eq] at h
  simp only [OpMovs.bits]
  omega
theorem shape24 (o : Nat) (g : Nat) (k : Nat) (h : ((o < 2097152) && (goodGuard g) : Bool) = true) (hk : k ≤ 0x3d ∧ k % 2 = 1) : o * 0x800 + g * 0x80 + k < 256 ^ 4 ∧ (o * 0x800 + g * 0x80 + k) % 2 = 1 := by
  simp only [goodGuard, Bool.and_eq_true, decide_eq_true_eq, bne_iff_ne] at h
  omega
theorem shape25 (o : Nat) (k : Nat) (h : ((o < 2097152) : Bool) = true) (hk : k ≤ 0x3f ∧ k % 2 = 1) : o * 0x800 + k < 256 ^ 4 ∧ (o * 0x800 + k) % 2 = 1 := by
  simp only [decide_eq_true_eq] at h
  omega
theorem shape26 (a : Nat) (k : Nat) (h : ((a < 64) : Bool) = true) (hk : k ≤ 0x2e3 ∧ k % 2 = 1) : a * 0x20000 + k < 256 ^ 4 ∧ (a * 0x20000 + k) % 2 = 1 := by
  simp only [decide_eq_true_eq] at h
  omega
theorem shape27 (o : Nat) (k : Nat) (h : ((o < 2097152) && (o != 0) : Bool) = true) (hk : k ≤ 0x141 ∧ k % 2 = 1) : o * 0x800 + k < 256 ^ 4 ∧ (o * 0x800 + k) % 2 = 1 := by
  simp only [Bool.and_eq_true, decide_eq_true_eq, bne_iff_ne] at h
  omega
theorem shape28 (i : Nat) (k : Nat) (h : ((i < 65536) : Bool) = true) (hk : k ≤ 0x341 ∧ k % 2 = 1) : i * 0x800 + k < 256 ^ 4 ∧ (i * 0x800 + k) % 2 = 1 := by
  simp only [decide_eq_true_eq] at h
  omega
theorem shape29 (o : OpLd) (k : Nat) (h : ((o.o < 32) && (o.r < 4) && (o.u < 4) && (o.a < 64) && (o.d < 64) && (goodGuard o.g) : Bool) = true) (hk : k ≤ 0x45 ∧ k % 2 = 1) : o.bits + k < 256 ^ 4 ∧ (o.bits + k) % 2 = 1 := by
  simp only [goodGuard, Bool.and_eq_true, decide_eq_true_eq, bne_iff_ne] at h
  simp only [OpLd.bits]
  omega
theorem shape30 (o : OpLdn) (k : Nat) (h : ((o.o < 32) && (o.r < 4) && (o.u < 4) && (o.a < 32) && (o.d < 64) && (goodGuard o.g) : Bool) = true) (hk : k ≤ 0x47 ∧ k % 2 = 1) : o.bits + k < 256 ^ 4 ∧ (o.bits + k) % 2 = 1 := by
  simp only [goodGuard, Bool.and_eq_true, decide_eq_true_eq, bne_iff_ne] at h
  simp only [OpLdn.bits]
  omega
theorem shape31 (o : OpLdk) (k : Nat) (h : ((o.o < 32) && (o.r < 4) && (o.b < 32) && (o.d < 64) && (goodGuard o.g) : Bool) = true) (hk : k ≤ 0x820047 ∧ k % 2 = 1) : o.bits + k < 256 ^ 4 ∧ (o.bits + k) % 2 = 1 := by
  simp only [goodGuard, Bool.and_eq_true, decide_eq_true_eq, bne_iff_ne] at h
  simp only [OpLdk.bits]
  omega
theorem shape32 (o : OpQld) (k : Nat) (h : ((o.o < 32) && (o.r < 4) && (o.b < 32) && (o.d < 64) : Bool) = true) (hk : k ≤ 0x1020047 ∧ k % 2 = 1) : o.bits + k < 256 ^ 4 ∧ (o.bits + k) % 2 = 1 := by
  simp only [Bool.and_eq_true, decide_eq_true_eq] at h
  simp only [OpQld.bits]
  omega
theorem shape33 (o : OpSt) (k : Nat) (h : ((o.o < 32) && (o.r < 4) && (o.z < 4) && (o.a < 64) && (o.s < 64) && (goodGuard o.g) : Bool) = true) (hk : k ≤ 0x49 ∧ k % 2 = 1) : o.bits + k < 256 ^ 4 ∧ (o.bits + k) % 2 = 1 := by
  simp only [goodGuard, Bool.and_eq_true, decide_eq_true_eq, bne_iff_ne] at h
  simp only [OpSt.bits]
  omega
theorem shape34 (o : OpQst) (k : Nat) (h : ((o.o < 32) && (o.r < 4) && (o.a < 64) && (o.s < 64) : Bool) = true) (hk : k ≤ 0x4b ∧ k % 2 = 1) : o.bits + k < 256 ^ 4 ∧ (o.bits + k) % 2 = 1 := by
  simp only [Bool.and_eq_true, decide_eq_true_eq] at h
  simp only [OpQst.bits]
  omega
theorem shape35 (o : OpAtom) (k : Nat) (h : ((o.o < 8) && (o.s < 4) && (o.t < 8) && (o.a < 64) && (o.d < 64) && (goodGuard o.g) && (goodAtom o.o o.t) : Bool) = true) (hk : k ≤ 0x4d ∧ k % 2 = 1) : o.bits + k < 256 ^ 4 ∧ (o.bits + k) % 2 = 1 := by
  simp only [goodGuard, goodAtom, Bool.and_eq_true, decide_eq_true_eq, bne_iff_ne, Bool.or_eq_true, beq_iff_eq] at h
  simp only [OpAtom.bits]
  omega
theorem shape36 (o : OpAtom) (k : Nat) (h : ((o.o < 8) && (o.s < 4) && (o.t < 8) && (o.a < 64) && (o.d < 64) && (goodGuard o.g) && (goodRedm o.o o.t) : Bool) = true) (hk : k ≤ 0x8000004d ∧ k % 2 = 1) : o.bits + k < 256 ^ 4 ∧ (o.bits + k) % 2 = 1 := by
  simp only [goodGuard, goodRedm, Bool.and_eq_true, decide_eq_true_eq, bne_iff_ne, Bool.or_eq_true] at h
  simp only [OpAtom.bits]
  omega
theorem shape37 (o : OpCas) (k : Nat) (h : ((o.s < 4) && (o.t < 8) && (o.a < 64) && (o.d < 64) && (goodGuard o.g) && (o.t < 5) : Bool) = true) (hk : k ≤ 0xe000004d ∧ k % 2 = 1) : o.bits + k < 256 ^ 4 ∧ (o.bits + k) % 2 = 1 := by
  simp only [goodGuard, Bool.and_eq_true, decide_eq_true_eq, bne_iff_ne] at h
  simp only [OpCas.bits]
  omega
theorem shape38 (o : OpFence) (k : Nat) (h : ((o.s < 4) && (o.p < 256) && (o.c < 256) && (o.p != 0 && o.c != 0) : Bool) = true) (hk : k ≤ 0x4f ∧ k % 2 = 1) : o.bits + k < 256 ^ 4 ∧ (o.bits + k) % 2 = 1 := by
  simp only [Bool.and_eq_true, decide_eq_true_eq, bne_iff_ne] at h
  simp only [OpFence.bits]
  omega
theorem shape39 (t : Nat) (k : Nat) (h : ((t < 8) && (goodPaths t) : Bool) = true) (hk : k ≤ 0xcf ∧ k % 2 = 1) : t * 0x800 + k < 256 ^ 4 ∧ (t * 0x800 + k) % 2 = 1 := by
  simp only [goodPaths, Bool.and_eq_true, decide_eq_true_eq, Bool.or_eq_true, beq_iff_eq] at h
  omega
theorem shape40 (a : Nat) (l : Nat) (k : Nat) (h : ((a < 64) && (l < 64) : Bool) = true) (hk : k ≤ 0x1cf ∧ k % 2 = 1) : a * 0x20000 + l * 0x800 + k < 256 ^ 4 ∧ (a * 0x20000 + l * 0x800 + k) % 2 = 1 := by
  simp only [Bool.and_eq_true, decide_eq_true_eq] at h
  omega
theorem shape41 (n : Nat) (a : Nat) (k : Nat) (h : ((n < 16) && (a < 64) : Bool) = true) (hk : k ≤ 0x2d1 ∧ k % 2 = 1) : n * 0x800000 + a * 0x20000 + k < 256 ^ 4 ∧ (n * 0x800000 + a * 0x20000 + k) % 2 = 1 := by
  simp only [Bool.and_eq_true, decide_eq_true_eq] at h
  omega
theorem shape42 (o : OpMwait) (k : Nat) (h : ((o.w < 4) && (o.c < 8) && (o.p < 8) && (o.a < 64) && (o.v < 64) && (o.w < 2 && o.c < 6) : Bool) = true) (hk : k ≤ 0x351 ∧ k % 2 = 1) : o.bits + k < 256 ^ 4 ∧ (o.bits + k) % 2 = 1 := by
  simp only [Bool.and_eq_true, decide_eq_true_eq] at h
  simp only [OpMwait.bits]
  omega
theorem shape43 (o : OpSigd) (k : Nat) (h : ((o.s < 4) && (o.a < 64) && (o.v < 64) : Bool) = true) (hk : k ≤ 0x3d1 ∧ k % 2 = 1) : o.bits + k < 256 ^ 4 ∧ (o.bits + k) % 2 = 1 := by
  simp only [Bool.and_eq_true, decide_eq_true_eq] at h
  simp only [OpSigd.bits]
  omega
theorem shape44 (o : OpSend) (k : Nat) (h : ((o.c < 16) && (o.n < 4) && (o.a < 64) && (o.n < 2) : Bool) = true) (hk : k ≤ 0x53 ∧ k % 2 = 1) : o.bits + k < 256 ^ 4 ∧ (o.bits + k) % 2 = 1 := by
  simp only [Bool.and_eq_true, decide_eq_true_eq] at h
  simp only [OpSend.bits]
  omega
theorem shape45 (o : OpRecv) (k : Nat) (h : ((o.c < 16) && (o.n < 4) && (o.d < 64) && (o.n < 2) : Bool) = true) (hk : k ≤ 0xd3 ∧ k % 2 = 1) : o.bits + k < 256 ^ 4 ∧ (o.bits + k) % 2 = 1 := by
  simp only [Bool.and_eq_true, decide_eq_true_eq] at h
  simp only [OpRecv.bits]
  omega
theorem shape46 (c : Nat) (d : Nat) (k : Nat) (h : ((c < 16) && (d < 64) : Bool) = true) (hk : k ≤ 0x153 ∧ k % 2 = 1) : c * 0x10000000 + d * 0x800 + k < 256 ^ 4 ∧ (c * 0x10000000 + d * 0x800 + k) % 2 = 1 := by
  simp only [Bool.and_eq_true, decide_eq_true_eq] at h
  omega
theorem shape47 (d : Nat) (k : Nat) (h : ((d < 64) : Bool) = true) (hk : k ≤ 0xc0000055 ∧ k % 2 = 1) : d * 0x800 + k < 256 ^ 4 ∧ (d * 0x800 + k) % 2 = 1 := by
  simp only [decide_eq_true_eq] at h
  omega
theorem shape48 (o : OpTget) (k : Nat) (h : ((o.b < 64) && (o.a < 64) && (o.d < 64) && (o.c < 2) : Bool) = true) (hk : k ≤ 0x60000057 ∧ k % 2 = 1) : o.bits + k < 256 ^ 4 ∧ (o.bits + k) % 2 = 1 := by
  simp only [Bool.and_eq_true, decide_eq_true_eq] at h
  simp only [OpTget.bits]
  omega
theorem shape49 (o : OpTcvt) (k : Nat) (h : ((o.t < 64) && (o.a < 64) && (o.d < 64) && (o.s < 2) && (o.r < 8) && (o.r < 6) : Bool) = true) (hk : k ≤ 0xa0000059 ∧ k % 2 = 1) : o.bits + k < 256 ^ 4 ∧ (o.bits + k) % 2 = 1 := by
  simp only [Bool.and_eq_true, decide_eq_true_eq] at h
  simp only [OpTcvt.bits]
  omega
theorem shape50 (n : Nat) (d : Nat) (k : Nat) (h : ((n < 64) && (d < 64) && (n != 0 && n < 17) : Bool) = true) (hk : k ≤ 0x5d ∧ k % 2 = 1) : n * 0x800000 + d * 0x800 + k < 256 ^ 4 ∧ (n * 0x800000 + d * 0x800 + k) % 2 = 1 := by
  simp only [Bool.and_eq_true, decide_eq_true_eq, bne_iff_ne] at h
  omega
theorem shape51 (o : OpAcrd) (k : Nat) (h : ((o.b < 64) && (o.a < 64) && (o.d < 64) && (o.l < 2) && (o.r < 8) && (o.r < 6) : Bool) = true) (hk : k ≤ 0x4000005d ∧ k % 2 = 1) : o.bits + k < 256 ^ 4 ∧ (o.bits + k) % 2 = 1 := by
  simp only [Bool.and_eq_true, decide_eq_true_eq] at h
  simp only [OpAcrd.bits]
  omega
theorem shape52 (n : Nat) (a : Nat) (k : Nat) (h : ((n < 8) && (a < 64) : Bool) = true) (hk : k ≤ 0x61 ∧ k % 2 = 1) : n * 0x20000000 + a * 0x20000 + k < 256 ^ 4 ∧ (n * 0x20000000 + a * 0x20000 + k) % 2 = 1 := by
  simp only [Bool.and_eq_true, decide_eq_true_eq] at h
  omega
theorem shape53 (p : Nat) (d : Nat) (k : Nat) (h : ((p < 8) && (d < 64) : Bool) = true) (hk : k ≤ 0xe1 ∧ k % 2 = 1) : p * 0x800000 + d * 0x800 + k < 256 ^ 4 ∧ (p * 0x800000 + d * 0x800 + k) % 2 = 1 := by
  simp only [Bool.and_eq_true, decide_eq_true_eq] at h
  omega
theorem shape54 (p : Nat) (k : Nat) (h : ((p < 8) : Bool) = true) (hk : k ≤ 0x161 ∧ k % 2 = 1) : p * 0x800000 + k < 256 ^ 4 ∧ (p * 0x800000 + k) % 2 = 1 := by
  simp only [decide_eq_true_eq] at h
  omega
theorem shape55 (c : Nat) (d : Nat) (k : Nat) (h : ((c < 4096) && (d < 64) : Bool) = true) (hk : k ≤ 0x363 ∧ k % 2 = 1) : c * 0x100000 + d * 0x800 + k < 256 ^ 4 ∧ (c * 0x100000 + d * 0x800 + k) % 2 = 1 := by
  simp only [Bool.and_eq_true, decide_eq_true_eq] at h
  omega
theorem shape56 (cnum : Nat) (qs : Nat) (k : Nat) (h : ((cnum < 4096) && (qs < 64) && (cnum % 8 == qs / 8) : Bool) = true) (hk : k ≤ 0x3e3 ∧ k % 2 = 1) : cnum * 0x100000 + qs % 8 * 0x20000 + k < 256 ^ 4 ∧ (cnum * 0x100000 + qs % 8 * 0x20000 + k) % 2 = 1 := by
  simp only [Bool.and_eq_true, decide_eq_true_eq, beq_iff_eq] at h
  omega
theorem shape57 (d : Nat) (i : Nat) (k : Nat) (h : ((d < 16) && (i < 524288) : Bool) = true) (hk : k ≤ 0x8000000) : d * 0x800000 + i + k < 256 ^ 4 := by
  simp only [Bool.and_eq_true, decide_eq_true_eq] at h
  omega
theorem shape58 (o : OpUi) (k : Nat) (h : ((o.d < 16) && (o.a < 16) && (o.i < 32768) : Bool) = true) (hk : k ≤ 0x48000000) : o.bits + k < 256 ^ 4 := by
  simp only [Bool.and_eq_true, decide_eq_true_eq] at h
  simp only [OpUi.bits]
  omega
theorem shape59 (o : OpUr) (k : Nat) (h : ((o.d < 16) && (o.a < 16) && (o.b < 16) : Bool) = true) (hk : k ≤ 0x40000000) : o.bits + k < 256 ^ 4 := by
  simp only [Bool.and_eq_true, decide_eq_true_eq] at h
  simp only [OpUr.bits]
  omega
theorem shape60 (o : OpUst) (k : Nat) (h : ((o.a < 16) && (o.b < 16) && (o.i < 32768) : Bool) = true) (hk : k ≤ 0x50000000) : o.bits + k < 256 ^ 4 := by
  simp only [Bool.and_eq_true, decide_eq_true_eq] at h
  simp only [OpUst.bits]
  omega
theorem shape61 (o : OpUbr) (k : Nat) (h : ((o.a < 16) && (o.b < 16) && (o.c < 8) && (o.o < 65536) && (o.c < 6) : Bool) = true) (hk : k ≤ 0x58000000) : o.bits + k < 256 ^ 4 := by
  simp only [Bool.and_eq_true, decide_eq_true_eq] at h
  simp only [OpUbr.bits]
  omega
theorem shape62 (o : Nat) (k : Nat) (h : ((o < 65536) : Bool) = true) (hk : k ≤ 0x60000000) : o + k < 256 ^ 4 := by
  simp only [decide_eq_true_eq] at h
  omega
theorem shape63 (i : Nat) (k : Nat) (h : ((i < 32768) : Bool) = true) (hk : k ≤ 0x70000000) : i + k < 256 ^ 4 := by
  simp only [decide_eq_true_eq] at h
  omega
theorem shape64 (a : Nat) (b : Nat) (k : Nat) (h : ((a < 16) && (b < 16) : Bool) = true) (hk : k ≤ 0x78000000) : a * 0x80000 + b * 0x8000 + k < 256 ^ 4 := by
  simp only [Bool.and_eq_true, decide_eq_true_eq] at h
  omega
theorem shape65 (a : Nat) (k : Nat) (h : ((a < 16) : Bool) = true) (hk : k ≤ 0xa0000000) : a * 0x80000 + k < 256 ^ 4 := by
  simp only [decide_eq_true_eq] at h
  omega
theorem shape66 (d : Nat) (k : Nat) (h : ((d < 16) : Bool) = true) (hk : k ≤ 0xa8000000) : d * 0x800000 + k < 256 ^ 4 := by
  simp only [decide_eq_true_eq] at h
  omega
theorem shape67 (d : Nat) (a : Nat) (k : Nat) (h : ((d < 16) && (a < 16) : Bool) = true) (hk : k ≤ 0xb0000000) : d * 0x800000 + a * 0x80000 + k < 256 ^ 4 := by
  simp only [Bool.and_eq_true, decide_eq_true_eq] at h
  omega

theorem mov16 (s : Nat) (d : Nat) : Statement (.mov16 s d) := fun h => ⟨(shape0 s d 0x0 h (by decide)).1, fun _ => (shape0 s d 0x0 h (by decide)).2, (nofun : 2 = 4 → _)⟩
theorem iadd16 (s : Nat) (d : Nat) : Statement (.iadd16 s d) := fun h => ⟨(shape1 s d 0x2 h (by decide)).1, fun _ => (shape1 s d 0x2 h (by decide)).2, (nofun : 2 = 4 → _)⟩
theorem isub16 (s : Nat) (d : Nat) : Statement (.isub16 s d) := fun h => ⟨(shape1 s d 0x4 h (by decide)).1, fun _ => (shape1 s d 0x4 h (by decide)).2, (nofun : 2 = 4 → _)⟩
theorem imul16 (s : Nat) (d : Nat) : Statement (.imul16 s d) := fun h => ⟨(shape1 s d 0x6 h (by decide)).1, fun _ => (shape1 s d 0x6 h (by decide)).2, (nofun : 2 = 4 → _)⟩
theorem and16 (s : Nat) (d : Nat) : Statement (.and16 s d) := fun h => ⟨(shape1 s d 0x8 h (by decide)).1, fun _ => (shape1 s d 0x8 h (by decide)).2, (nofun : 2 = 4 → _)⟩
theorem or16 (s : Nat) (d : Nat) : Statement (.or16 s d) := fun h => ⟨(shape1 s d 0xa h (by decide)).1, fun _ => (shape1 s d 0xa h (by decide)).2, (nofun : 2 = 4 → _)⟩
theorem xor16 (s : Nat) (d : Nat) : Statement (.xor16 s d) := fun h => ⟨(shape1 s d 0xc h (by decide)).1, fun _ => (shape1 s d 0xc h (by decide)).2, (nofun : 2 = 4 → _)⟩
theorem shli16 (i : Nat) (d : Nat) : Statement (.shli16 i d) := fun h => ⟨(shape2 i d 0xe h (by decide)).1, fun _ => (shape2 i d 0xe h (by decide)).2, (nofun : 2 = 4 → _)⟩
theorem shri16 (i : Nat) (d : Nat) : Statement (.shri16 i d) := fun h => ⟨(shape2 i d 0x10 h (by decide)).1, fun _ => (shape2 i d 0x10 h (by decide)).2, (nofun : 2 = 4 → _)⟩
theorem srai16 (i : Nat) (d : Nat) : Statement (.srai16 i d) := fun h => ⟨(shape2 i d 0x12 h (by decide)).1, fun _ => (shape2 i d 0x12 h (by decide)).2, (nofun : 2 = 4 → _)⟩
theorem addi16 (i : Nat) (d : Nat) : Statement (.addi16 i d) := fun h => ⟨(shape2 i d 0x14 h (by decide)).1, fun _ => (shape2 i d 0x14 h (by decide)).2, (nofun : 2 = 4 → _)⟩
theorem fadd16 (s : Nat) (d : Nat) : Statement (.fadd16 s d) := fun h => ⟨(shape1 s d 0x16 h (by decide)).1, fun _ => (shape1 s d 0x16 h (by decide)).2, (nofun : 2 = 4 → _)⟩
theorem fsub16 (s : Nat) (d : Nat) : Statement (.fsub16 s d) := fun h => ⟨(shape1 s d 0x18 h (by decide)).1, fun _ => (shape1 s d 0x18 h (by decide)).2, (nofun : 2 = 4 → _)⟩
theorem fmul16 (s : Nat) (d : Nat) : Statement (.fmul16 s d) := fun h => ⟨(shape1 s d 0x1a h (by decide)).1, fun _ => (shape1 s d 0x1a h (by decide)).2, (nofun : 2 = 4 → _)⟩
theorem fmin16 (s : Nat) (d : Nat) : Statement (.fmin16 s d) := fun h => ⟨(shape1 s d 0x1c h (by decide)).1, fun _ => (shape1 s d 0x1c h (by decide)).2, (nofun : 2 = 4 → _)⟩
theorem fmax16 (s : Nat) (d : Nat) : Statement (.fmax16 s d) := fun h => ⟨(shape1 s d 0x1e h (by decide)).1, fun _ => (shape1 s d 0x1e h (by decide)).2, (nofun : 2 = 4 → _)⟩
theorem iadd (o : OpA) : Statement (.iadd o) := fun h => ⟨(shape3 o 0x3 h (by decide)).1, (nofun : 4 = 2 → _), fun _ _ => (shape3 o 0x3 h (by decide)).2⟩
theorem isub (o : OpA) : Statement (.isub o) := fun h => ⟨(shape3 o 0x40000003 h (by decide)).1, (nofun : 4 = 2 → _), fun _ _ => (shape3 o 0x40000003 h (by decide)).2⟩
theorem imul (o : OpA) : Statement (.imul o) := fun h => ⟨(shape3 o 0x80000003 h (by decide)).1, (nofun : 4 = 2 → _), fun _ _ => (shape3 o 0x80000003 h (by decide)).2⟩
theorem imulh (o : OpA) : Statement (.imulh o) := fun h => ⟨(shape3 o 0xc0000003 h (by decide)).1, (nofun : 4 = 2 → _), fun _ _ => (shape3 o 0xc0000003 h (by decide)).2⟩
theorem imulhn (o : OpA) : Statement (.imulhn o) := fun h => ⟨(shape3 o 0x5 h (by decide)).1, (nofun : 4 = 2 → _), fun _ _ => (shape3 o 0x5 h (by decide)).2⟩
theorem imad (o : OpA) : Statement (.imad o) := fun h => ⟨(shape3 o 0x40000005 h (by decide)).1, (nofun : 4 = 2 → _), fun _ _ => (shape3 o 0x40000005 h (by decide)).2⟩
theorem imin (o : OpA) : Statement (.imin o) := fun h => ⟨(shape3 o 0x80000005 h (by decide)).1, (nofun : 4 = 2 → _), fun _ _ => (shape3 o 0x80000005 h (by decide)).2⟩
theorem imax (o : OpA) : Statement (.imax o) := fun h => ⟨(shape3 o 0xc0000005 h (by decide)).1, (nofun : 4 = 2 → _), fun _ _ => (shape3 o 0xc0000005 h (by decide)).2⟩
theorem nmin (o : OpA) : Statement (.nmin o) := fun h => ⟨(shape3 o 0x7 h (by decide)).1, (nofun : 4 = 2 → _), fun _ _ => (shape3 o 0x7 h (by decide)).2⟩
theorem nmax (o : OpA) : Statement (.nmax o) := fun h => ⟨(shape3 o 0x40000007 h (by decide)).1, (nofun : 4 = 2 → _), fun _ _ => (shape3 o 0x40000007 h (by decide)).2⟩
theorem iabs (o : OpU) : Statement (.iabs o) := fun h => ⟨(shape4 o 0x80000007 h (by decide)).1, (nofun : 4 = 2 → _), fun _ _ => (shape4 o 0x80000007 h (by decide)).2⟩
theorem isad (o : OpA) : Statement (.isad o) := fun h => ⟨(shape3 o 0xc0000007 h (by decide)).1, (nofun : 4 = 2 → _), fun _ _ => (shape3 o 0xc0000007 h (by decide)).2⟩
theorem land (o : OpA) : Statement (.land o) := fun h => ⟨(shape3 o 0x9 h (by decide)).1, (nofun : 4 = 2 → _), fun _ _ => (shape3 o 0x9 h (by decide)).2⟩
theorem lor (o : OpA) : Statement (.lor o) := fun h => ⟨(shape3 o 0x40000009 h (by decide)).1, (nofun : 4 = 2 → _), fun _ _ => (shape3 o 0x40000009 h (by decide)).2⟩
theorem lxor (o : OpA) : Statement (.lxor o) := fun h => ⟨(shape3 o 0x80000009 h (by decide)).1, (nofun : 4 = 2 → _), fun _ _ => (shape3 o 0x80000009 h (by decide)).2⟩
theorem andn (o : OpA) : Statement (.andn o) := fun h => ⟨(shape3 o 0xc0000009 h (by decide)).1, (nofun : 4 = 2 → _), fun _ _ => (shape3 o 0xc0000009 h (by decide)).2⟩
theorem shl (o : OpA) : Statement (.shl o) := fun h => ⟨(shape3 o 0xb h (by decide)).1, (nofun : 4 = 2 → _), fun _ _ => (shape3 o 0xb h (by decide)).2⟩
theorem shr (o : OpA) : Statement (.shr o) := fun h => ⟨(shape3 o 0x4000000b h (by decide)).1, (nofun : 4 = 2 → _), fun _ _ => (shape3 o 0x4000000b h (by decide)).2⟩
theorem sra (o : OpA) : Statement (.sra o) := fun h => ⟨(shape3 o 0x8000000b h (by decide)).1, (nofun : 4 = 2 → _), fun _ _ => (shape3 o 0x8000000b h (by decide)).2⟩
theorem rot (o : OpA) : Statement (.rot o) := fun h => ⟨(shape3 o 0xc000000b h (by decide)).1, (nofun : 4 = 2 → _), fun _ _ => (shape3 o 0xc000000b h (by decide)).2⟩
theorem popc (o : OpU) : Statement (.popc o) := fun h => ⟨(shape4 o 0xd h (by decide)).1, (nofun : 4 = 2 → _), fun _ _ => (shape4 o 0xd h (by decide)).2⟩
theorem clz (o : OpU) : Statement (.clz o) := fun h => ⟨(shape4 o 0x4000000d h (by decide)).1, (nofun : 4 = 2 → _), fun _ _ => (shape4 o 0x4000000d h (by decide)).2⟩
theorem brev (o : OpU) : Statement (.brev o) := fun h => ⟨(shape4 o 0x8000000d h (by decide)).1, (nofun : 4 = 2 → _), fun _ _ => (shape4 o 0x8000000d h (by decide)).2⟩
theorem bfx (o : OpA) : Statement (.bfx o) := fun h => ⟨(shape3 o 0xc000000d h (by decide)).1, (nofun : 4 = 2 → _), fun _ _ => (shape3 o 0xc000000d h (by decide)).2⟩
theorem mov (o : OpU) : Statement (.mov o) := fun h => ⟨(shape4 o 0xf h (by decide)).1, (nofun : 4 = 2 → _), fun _ _ => (shape4 o 0xf h (by decide)).2⟩
theorem sel (o : OpA) : Statement (.sel o) := fun h => ⟨(shape3 o 0x4000000f h (by decide)).1, (nofun : 4 = 2 → _), fun _ _ => (shape3 o 0x4000000f h (by decide)).2⟩
theorem bfi (o : OpA) : Statement (.bfi o) := fun h => ⟨(shape3 o 0x8000000f h (by decide)).1, (nofun : 4 = 2 → _), fun _ _ => (shape3 o 0x8000000f h (by decide)).2⟩
theorem iaddc (o : OpA) : Statement (.iaddc o) := fun h => ⟨(shape3 o 0xc000000f h (by decide)).1, (nofun : 4 = 2 → _), fun _ _ => (shape3 o 0xc000000f h (by decide)).2⟩
theorem iaddi (o : OpI) : Statement (.iaddi o) := fun h => ⟨(shape5 o 0x11 h (by decide)).1, (nofun : 4 = 2 → _), fun _ _ => (shape5 o 0x11 h (by decide)).2⟩
theorem imuli (o : OpI) : Statement (.imuli o) := fun h => ⟨(shape5 o 0x13 h (by decide)).1, (nofun : 4 = 2 → _), fun _ _ => (shape5 o 0x13 h (by decide)).2⟩
theorem andi (o : OpI) : Statement (.andi o) := fun h => ⟨(shape6 o 0x15 h (by decide)).1, (nofun : 4 = 2 → _), fun _ _ => (shape6 o 0x15 h (by decide)).2⟩
theorem ori (o : OpI) : Statement (.ori o) := fun h => ⟨(shape6 o 0x40000015 h (by decide)).1, (nofun : 4 = 2 → _), fun _ _ => (shape6 o 0x40000015 h (by decide)).2⟩
theorem xori (o : OpI) : Statement (.xori o) := fun h => ⟨(shape6 o 0x80000015 h (by decide)).1, (nofun : 4 = 2 → _), fun _ _ => (shape6 o 0x80000015 h (by decide)).2⟩
theorem isubri (o : OpI) : Statement (.isubri o) := fun h => ⟨(shape6 o 0xc0000015 h (by decide)).1, (nofun : 4 = 2 → _), fun _ _ => (shape6 o 0xc0000015 h (by decide)).2⟩
theorem shli (o : OpSh) : Statement (.shli o) := fun h => ⟨(shape7 o 0x17 h (by decide)).1, (nofun : 4 = 2 → _), fun _ _ => (shape7 o 0x17 h (by decide)).2⟩
theorem shri (o : OpSh) : Statement (.shri o) := fun h => ⟨(shape7 o 0x40000017 h (by decide)).1, (nofun : 4 = 2 → _), fun _ _ => (shape7 o 0x40000017 h (by decide)).2⟩
theorem srai (o : OpSh) : Statement (.srai o) := fun h => ⟨(shape7 o 0x80000017 h (by decide)).1, (nofun : 4 = 2 → _), fun _ _ => (shape7 o 0x80000017 h (by decide)).2⟩
theorem movi (o : OpMovi) : Statement (.movi o) := fun h => ⟨(shape8 o 0xc0000017 h (by decide)).1, (nofun : 4 = 2 → _), fun _ _ => (shape8 o 0xc0000017 h (by decide)).2⟩
theorem fadd (o : OpA) : Statement (.fadd o) := fun h => ⟨(shape3 o 0x19 h (by decide)).1, (nofun : 4 = 2 → _), fun _ _ => (shape3 o 0x19 h (by decide)).2⟩
theorem fsub (o : OpA) : Statement (.fsub o) := fun h => ⟨(shape3 o 0x40000019 h (by decide)).1, (nofun : 4 = 2 → _), fun _ _ => (shape3 o 0x40000019 h (by decide)).2⟩
theorem fmul (o : OpA) : Statement (.fmul o) := fun h => ⟨(shape3 o 0x80000019 h (by decide)).1, (nofun : 4 = 2 → _), fun _ _ => (shape3 o 0x80000019 h (by decide)).2⟩
theorem ffma (o : OpA) : Statement (.ffma o) := fun h => ⟨(shape3 o 0xc0000019 h (by decide)).1, (nofun : 4 = 2 → _), fun _ _ => (shape3 o 0xc0000019 h (by decide)).2⟩
theorem fmin (o : OpA) : Statement (.fmin o) := fun h => ⟨(shape3 o 0x1b h (by decide)).1, (nofun : 4 = 2 → _), fun _ _ => (shape3 o 0x1b h (by decide)).2⟩
theorem fmax (o : OpA) : Statement (.fmax o) := fun h => ⟨(shape3 o 0x4000001b h (by decide)).1, (nofun : 4 = 2 → _), fun _ _ => (shape3 o 0x4000001b h (by decide)).2⟩
theorem fminn (o : OpA) : Statement (.fminn o) := fun h => ⟨(shape3 o 0x8000001b h (by decide)).1, (nofun : 4 = 2 → _), fun _ _ => (shape3 o 0x8000001b h (by decide)).2⟩
theorem fmaxn (o : OpA) : Statement (.fmaxn o) := fun h => ⟨(shape3 o 0xc000001b h (by decide)).1, (nofun : 4 = 2 → _), fun _ _ => (shape3 o 0xc000001b h (by decide)).2⟩
theorem frcp (o : OpU) : Statement (.frcp o) := fun h => ⟨(shape4 o 0x1d h (by decide)).1, (nofun : 4 = 2 → _), fun _ _ => (shape4 o 0x1d h (by decide)).2⟩
theorem frsq (o : OpU) : Statement (.frsq o) := fun h => ⟨(shape4 o 0x4000001d h (by decide)).1, (nofun : 4 = 2 → _), fun _ _ => (shape4 o 0x4000001d h (by decide)).2⟩
theorem fsqrt (o : OpU) : Statement (.fsqrt o) := fun h => ⟨(shape4 o 0x8000001d h (by decide)).1, (nofun : 4 = 2 → _), fun _ _ => (shape4 o 0x8000001d h (by decide)).2⟩
theorem fex2 (o : OpU) : Statement (.fex2 o) := fun h => ⟨(shape4 o 0xc000001d h (by decide)).1, (nofun : 4 = 2 → _), fun _ _ => (shape4 o 0xc000001d h (by decide)).2⟩
theorem flg2 (o : OpU) : Statement (.flg2 o) := fun h => ⟨(shape4 o 0x1f h (by decide)).1, (nofun : 4 = 2 → _), fun _ _ => (shape4 o 0x1f h (by decide)).2⟩
theorem fsin (o : OpU) : Statement (.fsin o) := fun h => ⟨(shape4 o 0x4000001f h (by decide)).1, (nofun : 4 = 2 → _), fun _ _ => (shape4 o 0x4000001f h (by decide)).2⟩
theorem fcos (o : OpU) : Statement (.fcos o) := fun h => ⟨(shape4 o 0x8000001f h (by decide)).1, (nofun : 4 = 2 → _), fun _ _ => (shape4 o 0x8000001f h (by decide)).2⟩
theorem ftanh (o : OpU) : Statement (.ftanh o) := fun h => ⟨(shape4 o 0xc000001f h (by decide)).1, (nofun : 4 = 2 → _), fun _ _ => (shape4 o 0xc000001f h (by decide)).2⟩
theorem hadd (o : OpA) : Statement (.hadd o) := fun h => ⟨(shape3 o 0x21 h (by decide)).1, (nofun : 4 = 2 → _), fun _ _ => (shape3 o 0x21 h (by decide)).2⟩
theorem hsub (o : OpA) : Statement (.hsub o) := fun h => ⟨(shape3 o 0x40000021 h (by decide)).1, (nofun : 4 = 2 → _), fun _ _ => (shape3 o 0x40000021 h (by decide)).2⟩
theorem hmul (o : OpA) : Statement (.hmul o) := fun h => ⟨(shape3 o 0x80000021 h (by decide)).1, (nofun : 4 = 2 → _), fun _ _ => (shape3 o 0x80000021 h (by decide)).2⟩
theorem hfma (o : OpA) : Statement (.hfma o) := fun h => ⟨(shape3 o 0xc0000021 h (by decide)).1, (nofun : 4 = 2 → _), fun _ _ => (shape3 o 0xc0000021 h (by decide)).2⟩
theorem hmin (o : OpA) : Statement (.hmin o) := fun h => ⟨(shape3 o 0x23 h (by decide)).1, (nofun : 4 = 2 → _), fun _ _ => (shape3 o 0x23 h (by decide)).2⟩
theorem hmax (o : OpA) : Statement (.hmax o) := fun h => ⟨(shape3 o 0x40000023 h (by decide)).1, (nofun : 4 = 2 → _), fun _ _ => (shape3 o 0x40000023 h (by decide)).2⟩
theorem hdot2 (o : OpA) : Statement (.hdot2 o) := fun h => ⟨(shape3 o 0x80000023 h (by decide)).1, (nofun : 4 = 2 → _), fun _ _ => (shape3 o 0x80000023 h (by decide)).2⟩
theorem dadd (o : OpA) : Statement (.dadd o) := fun h => ⟨(shape3 o 0x25 h (by decide)).1, (nofun : 4 = 2 → _), fun _ _ => (shape3 o 0x25 h (by decide)).2⟩
theorem dsub (o : OpA) : Statement (.dsub o) := fun h => ⟨(shape3 o 0x40000025 h (by decide)).1, (nofun : 4 = 2 → _), fun _ _ => (shape3 o 0x40000025 h (by decide)).2⟩
theorem dmul (o : OpA) : Statement (.dmul o) := fun h => ⟨(shape3 o 0x80000025 h (by decide)).1, (nofun : 4 = 2 → _), fun _ _ => (shape3 o 0x80000025 h (by decide)).2⟩
theorem dfma (o : OpA) : Statement (.dfma o) := fun h => ⟨(shape3 o 0xc0000025 h (by decide)).1, (nofun : 4 = 2 → _), fun _ _ => (shape3 o 0xc0000025 h (by decide)).2⟩
theorem dmin (o : OpA) : Statement (.dmin o) := fun h => ⟨(shape3 o 0x27 h (by decide)).1, (nofun : 4 = 2 → _), fun _ _ => (shape3 o 0x27 h (by decide)).2⟩
theorem dmax (o : OpA) : Statement (.dmax o) := fun h => ⟨(shape3 o 0x40000027 h (by decide)).1, (nofun : 4 = 2 → _), fun _ _ => (shape3 o 0x40000027 h (by decide)).2⟩
theorem drcp (o : OpU) : Statement (.drcp o) := fun h => ⟨(shape4 o 0x80000027 h (by decide)).1, (nofun : 4 = 2 → _), fun _ _ => (shape4 o 0x80000027 h (by decide)).2⟩
theorem dsqrt (o : OpU) : Statement (.dsqrt o) := fun h => ⟨(shape4 o 0xc0000027 h (by decide)).1, (nofun : 4 = 2 → _), fun _ _ => (shape4 o 0xc0000027 h (by decide)).2⟩
theorem icmp (o : OpCmp) : Statement (.icmp o) := fun h => ⟨(shape9 o 0x29 h (by decide)).1, (nofun : 4 = 2 → _), fun _ _ => (shape9 o 0x29 h (by decide)).2⟩
theorem ncmp (o : OpCmp) : Statement (.ncmp o) := fun h => ⟨(shape9 o 0x40000029 h (by decide)).1, (nofun : 4 = 2 → _), fun _ _ => (shape9 o 0x40000029 h (by decide)).2⟩
theorem fcmp (o : OpCmp) : Statement (.fcmp o) := fun h => ⟨(shape10 o 0x80000029 h (by decide)).1, (nofun : 4 = 2 → _), fun _ _ => (shape10 o 0x80000029 h (by decide)).2⟩
theorem dcmp (o : OpCmp) : Statement (.dcmp o) := fun h => ⟨(shape10 o 0xc0000029 h (by decide)).1, (nofun : 4 = 2 → _), fun _ _ => (shape10 o 0xc0000029 h (by decide)).2⟩
theorem pand (o : OpP) : Statement (.pand o) := fun h => ⟨(shape11 o 0x2b h (by decide)).1, (nofun : 4 = 2 → _), fun _ _ => (shape11 o 0x2b h (by decide)).2⟩
theorem por (o : OpP) : Statement (.por o) := fun h => ⟨(shape11 o 0x4000002b h (by decide)).1, (nofun : 4 = 2 → _), fun _ _ => (shape11 o 0x4000002b h (by decide)).2⟩
theorem pxor (o : OpP) : Statement (.pxor o) := fun h => ⟨(shape11 o 0x8000002b h (by decide)).1, (nofun : 4 = 2 → _), fun _ _ => (shape11 o 0x8000002b h (by decide)).2⟩
theorem pnot (o : OpPn) : Statement (.pnot o) := fun h => ⟨(shape12 o 0xc000002b h (by decide)).1, (nofun : 4 = 2 → _), fun _ _ => (shape12 o 0xc000002b h (by decide)).2⟩
theorem cvt (o : OpCvt) : Statement (.cvt o) := fun h => ⟨(shape13 o 0x2d h (by decide)).1, (nofun : 4 = 2 → _), fun _ _ => (shape13 o 0x2d h (by decide)).2⟩
theorem cvtb (o : OpCvt) : Statement (.cvtb o) := fun h => ⟨(shape13 o 0x4000002d h (by decide)).1, (nofun : 4 = 2 → _), fun _ _ => (shape13 o 0x4000002d h (by decide)).2⟩
theorem sxexp (o : OpU) : Statement (.sxexp o) := fun h => ⟨(shape4 o 0x8000002d h (by decide)).1, (nofun : 4 = 2 → _), fun _ _ => (shape4 o 0x8000002d h (by decide)).2⟩
theorem sxset (o : OpA) : Statement (.sxset o) := fun h => ⟨(shape3 o 0xc000002d h (by decide)).1, (nofun : 4 = 2 → _), fun _ _ => (shape3 o 0xc000002d h (by decide)).2⟩
theorem shflIdx (o : OpA) : Statement (.shflIdx o) := fun h => ⟨(shape3 o 0x2f h (by decide)).1, (nofun : 4 = 2 → _), fun _ _ => (shape3 o 0x2f h (by decide)).2⟩
theorem shflUp (o : OpA) : Statement (.shflUp o) := fun h => ⟨(shape3 o 0x4000002f h (by decide)).1, (nofun : 4 = 2 → _), fun _ _ => (shape3 o 0x4000002f h (by decide)).2⟩
theorem shflDown (o : OpA) : Statement (.shflDown o) := fun h => ⟨(shape3 o 0x8000002f h (by decide)).1, (nofun : 4 = 2 → _), fun _ _ => (shape3 o 0x8000002f h (by decide)).2⟩
theorem shflXor (o : OpA) : Statement (.shflXor o) := fun h => ⟨(shape3 o 0xc000002f h (by decide)).1, (nofun : 4 = 2 → _), fun _ _ => (shape3 o 0xc000002f h (by decide)).2⟩
theorem voteAny (o : OpVoteP) : Statement (.voteAny o) := fun h => ⟨(shape14 o 0x31 h (by decide)).1, (nofun : 4 = 2 → _), fun _ _ => (shape14 o 0x31 h (by decide)).2⟩
theorem voteAll (o : OpVoteP) : Statement (.voteAll o) := fun h => ⟨(shape14 o 0x800031 h (by decide)).1, (nofun : 4 = 2 → _), fun _ _ => (shape14 o 0x800031 h (by decide)).2⟩
theorem voteBallot (o : OpVoteB) : Statement (.voteBallot o) := fun h => ⟨(shape15 o 0x1000031 h (by decide)).1, (nofun : 4 = 2 → _), fun _ _ => (shape15 o 0x1000031 h (by decide)).2⟩
theorem red (o : OpRed) : Statement (.red o) := fun h => ⟨(shape16 o 0x40000031 h (by decide)).1, (nofun : 4 = 2 → _), fun _ _ => (shape16 o 0x40000031 h (by decide)).2⟩
theorem scan (o : OpRed) : Statement (.scan o) := fun h => ⟨(shape16 o 0x80000031 h (by decide)).1, (nofun : 4 = 2 → _), fun _ _ => (shape16 o 0x80000031 h (by decide)).2⟩
theorem elect (p : Nat) (g : Nat) : Statement (.elect p g) := fun h => ⟨(shape17 p g 0xc0000031 h (by decide)).1, (nofun : 4 = 2 → _), fun _ _ => (shape17 p g 0xc0000031 h (by decide)).2⟩
theorem qadd (o : OpT) : Statement (.qadd o) := fun h => ⟨(shape18 o 0x33 h (by decide)).1, (nofun : 4 = 2 → _), fun _ _ => (shape18 o 0x33 h (by decide)).2⟩
theorem qsub (o : OpT) : Statement (.qsub o) := fun h => ⟨(shape18 o 0x40000033 h (by decide)).1, (nofun : 4 = 2 → _), fun _ _ => (shape18 o 0x40000033 h (by decide)).2⟩
theorem qmul (o : OpT) : Statement (.qmul o) := fun h => ⟨(shape18 o 0x80000033 h (by decide)).1, (nofun : 4 = 2 → _), fun _ _ => (shape18 o 0x80000033 h (by decide)).2⟩
theorem qand (o : OpT) : Statement (.qand o) := fun h => ⟨(shape18 o 0xc0000033 h (by decide)).1, (nofun : 4 = 2 → _), fun _ _ => (shape18 o 0xc0000033 h (by decide)).2⟩
theorem qor (o : OpT) : Statement (.qor o) := fun h => ⟨(shape18 o 0x35 h (by decide)).1, (nofun : 4 = 2 → _), fun _ _ => (shape18 o 0x35 h (by decide)).2⟩
theorem qxor (o : OpT) : Statement (.qxor o) := fun h => ⟨(shape18 o 0x40000035 h (by decide)).1, (nofun : 4 = 2 → _), fun _ _ => (shape18 o 0x40000035 h (by decide)).2⟩
theorem qshl (o : OpT) : Statement (.qshl o) := fun h => ⟨(shape18 o 0x80000035 h (by decide)).1, (nofun : 4 = 2 → _), fun _ _ => (shape18 o 0x80000035 h (by decide)).2⟩
theorem qshr (o : OpT) : Statement (.qshr o) := fun h => ⟨(shape18 o 0xc0000035 h (by decide)).1, (nofun : 4 = 2 → _), fun _ _ => (shape18 o 0xc0000035 h (by decide)).2⟩
theorem qli (i : Nat) (d : Nat) : Statement (.qli i d) := fun h => ⟨(shape19 i d 0x37 h (by decide)).1, (nofun : 4 = 2 → _), fun _ _ => (shape19 i d 0x37 h (by decide)).2⟩
theorem qaddi (i : Nat) (d : Nat) : Statement (.qaddi i d) := fun h => ⟨(shape20 i d 0x39 h (by decide)).1, (nofun : 4 = 2 → _), fun _ _ => (shape20 i d 0x39 h (by decide)).2⟩
theorem qlui (i : Nat) (d : Nat) : Statement (.qlui i d) := fun h => ⟨(shape20 i d 0x80000039 h (by decide)).1, (nofun : 4 = 2 → _), fun _ _ => (shape20 i d 0x80000039 h (by decide)).2⟩
theorem v2q (a : Nat) (d : Nat) : Statement (.v2q a d) := fun h => ⟨(shape21 a d 0x3b h (by decide)).1, (nofun : 4 = 2 → _), fun _ _ => (shape21 a d 0x3b h (by decide)).2⟩
theorem q2v (o : OpU) : Statement (.q2v o) := fun h => ⟨(shape4 o 0x4000003b h (by decide)).1, (nofun : 4 = 2 → _), fun _ _ => (shape4 o 0x4000003b h (by decide)).2⟩
theorem movx (o : OpMovx) : Statement (.movx o) := fun h => ⟨(shape22 o 0x8000003b h (by decide)).1, (nofun : 4 = 2 → _), fun _ _ => (shape22 o 0x8000003b h (by decide)).2⟩
theorem movs (o : OpMovs) : Statement (.movs o) := fun h => ⟨(shape23 o 0xc000003b h (by decide)).1, (nofun : 4 = 2 → _), fun _ _ => (shape23 o 0xc000003b h (by decide)).2⟩
theorem bra (o : Nat) (g : Nat) : Statement (.bra o g) := fun h => ⟨(shape24 o g 0x3d h (by decide)).1, (nofun : 4 = 2 → _), fun _ _ => (shape24 o g 0x3d h (by decide)).2⟩
theorem call (o : Nat) : Statement (.call o) := fun h => ⟨(shape25 o 0x3f h (by decide)).1, (nofun : 4 = 2 → _), fun _ _ => (shape25 o 0x3f h (by decide)).2⟩
theorem ret : Statement .ret := fun _ => ⟨by decide, by decide, by decide⟩
theorem jmpq (a : Nat) : Statement (.jmpq a) := fun h => ⟨(shape26 a 0xc1 h (by decide)).1, (nofun : 4 = 2 → _), fun _ _ => (shape26 a 0xc1 h (by decide)).2⟩
theorem reconv (o : Nat) : Statement (.reconv o) := fun h => ⟨(shape27 o 0x141 h (by decide)).1, (nofun : 4 = 2 → _), fun _ _ => (shape27 o 0x141 h (by decide)).2⟩
theorem rwait (a : Nat) : Statement (.rwait a) := fun h => ⟨(shape26 a 0x1c1 h (by decide)).1, (nofun : 4 = 2 → _), fun _ _ => (shape26 a 0x1c1 h (by decide)).2⟩
theorem bisq (a : Nat) : Statement (.bisq a) := fun h => ⟨(shape26 a 0x241 h (by decide)).1, (nofun : 4 = 2 → _), fun _ _ => (shape26 a 0x241 h (by decide)).2⟩
theorem exitl : Statement .exitl := fun _ => ⟨by decide, by decide, by decide⟩
theorem brk (i : Nat) : Statement (.brk i) := fun h => ⟨(shape28 i 0x341 h (by decide)).1, (nofun : 4 = 2 → _), fun _ _ => (shape28 i 0x341 h (by decide)).2⟩
theorem nop : Statement .nop := fun _ => ⟨by decide, by decide, by decide⟩
theorem ld32 (o : OpLd) : Statement (.ld32 o) := fun h => ⟨(shape29 o 0x43 h (by decide)).1, (nofun : 4 = 2 → _), fun _ _ => (shape29 o 0x43 h (by decide)).2⟩
theorem ld64 (o : OpLd) : Statement (.ld64 o) := fun h => ⟨(shape29 o 0x45 h (by decide)).1, (nofun : 4 = 2 → _), fun _ _ => (shape29 o 0x45 h (by decide)).2⟩
theorem ldNarrow (o : OpLdn) : Statement (.ldNarrow o) := fun h => ⟨(shape30 o 0x47 h (by decide)).1, (nofun : 4 = 2 → _), fun _ _ => (shape30 o 0x47 h (by decide)).2⟩
theorem ldk32 (o : OpLdk) : Statement (.ldk32 o) := fun h => ⟨(shape31 o 0x20047 h (by decide)).1, (nofun : 4 = 2 → _), fun _ _ => (shape31 o 0x20047 h (by decide)).2⟩
theorem ldk64 (o : OpLdk) : Statement (.ldk64 o) := fun h => ⟨(shape31 o 0x820047 h (by decide)).1, (nofun : 4 = 2 → _), fun _ _ => (shape31 o 0x820047 h (by decide)).2⟩
theorem qld (o : OpQld) : Statement (.qld o) := fun h => ⟨(shape32 o 0x1020047 h (by decide)).1, (nofun : 4 = 2 → _), fun _ _ => (shape32 o 0x1020047 h (by decide)).2⟩
theorem st (o : OpSt) : Statement (.st o) := fun h => ⟨(shape33 o 0x49 h (by decide)).1, (nofun : 4 = 2 → _), fun _ _ => (shape33 o 0x49 h (by decide)).2⟩
theorem qst (o : OpQst) : Statement (.qst o) := fun h => ⟨(shape34 o 0x4b h (by decide)).1, (nofun : 4 = 2 → _), fun _ _ => (shape34 o 0x4b h (by decide)).2⟩
theorem atom (o : OpAtom) : Statement (.atom o) := fun h => ⟨(shape35 o 0x4d h (by decide)).1, (nofun : 4 = 2 → _), fun _ _ => (shape35 o 0x4d h (by decide)).2⟩
theorem redm (o : OpAtom) : Statement (.redm o) := fun h => ⟨(shape36 o 0x8000004d h (by decide)).1, (nofun : 4 = 2 → _), fun _ _ => (shape36 o 0x8000004d h (by decide)).2⟩
theorem cas (o : OpCas) : Statement (.cas o) := fun h => ⟨(shape37 o 0xe000004d h (by decide)).1, (nofun : 4 = 2 → _), fun _ _ => (shape37 o 0xe000004d h (by decide)).2⟩
theorem fence (o : OpFence) : Statement (.fence o) := fun h => ⟨(shape38 o 0x4f h (by decide)).1, (nofun : 4 = 2 → _), fun _ _ => (shape38 o 0x4f h (by decide)).2⟩
theorem pfence (t : Nat) : Statement (.pfence t) := fun h => ⟨(shape39 t 0xcf h (by decide)).1, (nofun : 4 = 2 → _), fun _ _ => (shape39 t 0xcf h (by decide)).2⟩
theorem wbr (a : Nat) (l : Nat) : Statement (.wbr a l) := fun h => ⟨(shape40 a l 0x14f h (by decide)).1, (nofun : 4 = 2 → _), fun _ _ => (shape40 a l 0x14f h (by decide)).2⟩
theorem invr (a : Nat) (l : Nat) : Statement (.invr a l) := fun h => ⟨(shape40 a l 0x1cf h (by decide)).1, (nofun : 4 = 2 → _), fun _ _ => (shape40 a l 0x1cf h (by decide)).2⟩
theorem barAw (n : Nat) (a : Nat) : Statement (.barAw n a) := fun h => ⟨(shape41 n a 0x51 h (by decide)).1, (nofun : 4 = 2 → _), fun _ _ => (shape41 n a 0x51 h (by decide)).2⟩
theorem barArv (n : Nat) (a : Nat) : Statement (.barArv n a) := fun h => ⟨(shape41 n a 0xd1 h (by decide)).1, (nofun : 4 = 2 → _), fun _ _ => (shape41 n a 0xd1 h (by decide)).2⟩
theorem barWt (n : Nat) (a : Nat) : Statement (.barWt n a) := fun h => ⟨(shape41 n a 0x151 h (by decide)).1, (nofun : 4 = 2 → _), fun _ _ => (shape41 n a 0x151 h (by decide)).2⟩
theorem gbarAw (n : Nat) (a : Nat) : Statement (.gbarAw n a) := fun h => ⟨(shape41 n a 0x1d1 h (by decide)).1, (nofun : 4 = 2 → _), fun _ _ => (shape41 n a 0x1d1 h (by decide)).2⟩
theorem gbarArv (n : Nat) (a : Nat) : Statement (.gbarArv n a) := fun h => ⟨(shape41 n a 0x251 h (by decide)).1, (nofun : 4 = 2 → _), fun _ _ => (shape41 n a 0x251 h (by decide)).2⟩
theorem gbarWt (n : Nat) (a : Nat) : Statement (.gbarWt n a) := fun h => ⟨(shape41 n a 0x2d1 h (by decide)).1, (nofun : 4 = 2 → _), fun _ _ => (shape41 n a 0x2d1 h (by decide)).2⟩
theorem mwait (o : OpMwait) : Statement (.mwait o) := fun h => ⟨(shape42 o 0x351 h (by decide)).1, (nofun : 4 = 2 → _), fun _ _ => (shape42 o 0x351 h (by decide)).2⟩
theorem sigd (o : OpSigd) : Statement (.sigd o) := fun h => ⟨(shape43 o 0x3d1 h (by decide)).1, (nofun : 4 = 2 → _), fun _ _ => (shape43 o 0x3d1 h (by decide)).2⟩
theorem send (o : OpSend) : Statement (.send o) := fun h => ⟨(shape44 o 0x53 h (by decide)).1, (nofun : 4 = 2 → _), fun _ _ => (shape44 o 0x53 h (by decide)).2⟩
theorem recv (o : OpRecv) : Statement (.recv o) := fun h => ⟨(shape45 o 0xd3 h (by decide)).1, (nofun : 4 = 2 → _), fun _ _ => (shape45 o 0xd3 h (by decide)).2⟩
theorem chq (c : Nat) (d : Nat) : Statement (.chq c d) := fun h => ⟨(shape46 c d 0x153 h (by decide)).1, (nofun : 4 = 2 → _), fun _ _ => (shape46 c d 0x153 h (by decide)).2⟩
theorem tnew (d : Nat) : Statement (.tnew d) := fun h => ⟨(shape47 d 0x55 h (by decide)).1, (nofun : 4 = 2 → _), fun _ _ => (shape47 d 0x55 h (by decide)).2⟩
theorem tfree (d : Nat) : Statement (.tfree d) := fun h => ⟨(shape47 d 0x20000055 h (by decide)).1, (nofun : 4 = 2 → _), fun _ _ => (shape47 d 0x20000055 h (by decide)).2⟩
theorem tpass (a : Nat) (d : Nat) : Statement (.tpass a d) := fun h => ⟨(shape21 a d 0x40000055 h (by decide)).1, (nofun : 4 = 2 → _), fun _ _ => (shape21 a d 0x40000055 h (by decide)).2⟩
theorem tbind (a : Nat) (d : Nat) : Statement (.tbind a d) := fun h => ⟨(shape21 a d 0x60000055 h (by decide)).1, (nofun : 4 = 2 → _), fun _ _ => (shape21 a d 0x60000055 h (by decide)).2⟩
theorem tfetch (d : Nat) : Statement (.tfetch d) := fun h => ⟨(shape47 d 0x80000055 h (by decide)).1, (nofun : 4 = 2 → _), fun _ _ => (shape47 d 0x80000055 h (by decide)).2⟩
theorem tevict (d : Nat) : Statement (.tevict d) := fun h => ⟨(shape47 d 0xa0000055 h (by decide)).1, (nofun : 4 = 2 → _), fun _ _ => (shape47 d 0xa0000055 h (by decide)).2⟩
theorem twait (d : Nat) : Statement (.twait d) := fun h => ⟨(shape47 d 0xc0000055 h (by decide)).1, (nofun : 4 = 2 → _), fun _ _ => (shape47 d 0xc0000055 h (by decide)).2⟩
theorem tld (a : Nat) (d : Nat) : Statement (.tld a d) := fun h => ⟨(shape21 a d 0x57 h (by decide)).1, (nofun : 4 = 2 → _), fun _ _ => (shape21 a d 0x57 h (by decide)).2⟩
theorem tst (a : Nat) (d : Nat) : Statement (.tst a d) := fun h => ⟨(shape21 a d 0x20000057 h (by decide)).1, (nofun : 4 = 2 → _), fun _ _ => (shape21 a d 0x20000057 h (by decide)).2⟩
theorem tget (o : OpTget) : Statement (.tget o) := fun h => ⟨(shape48 o 0x40000057 h (by decide)).1, (nofun : 4 = 2 → _), fun _ _ => (shape48 o 0x40000057 h (by decide)).2⟩
theorem tset (o : OpTget) : Statement (.tset o) := fun h => ⟨(shape48 o 0x60000057 h (by decide)).1, (nofun : 4 = 2 → _), fun _ _ => (shape48 o 0x60000057 h (by decide)).2⟩
theorem tadds (o : OpT) : Statement (.tadds o) := fun h => ⟨(shape18 o 0x59 h (by decide)).1, (nofun : 4 = 2 → _), fun _ _ => (shape18 o 0x59 h (by decide)).2⟩
theorem tmuls (o : OpT) : Statement (.tmuls o) := fun h => ⟨(shape18 o 0x20000059 h (by decide)).1, (nofun : 4 = 2 → _), fun _ _ => (shape18 o 0x20000059 h (by decide)).2⟩
theorem texps (o : OpT) : Statement (.texps o) := fun h => ⟨(shape18 o 0x40000059 h (by decide)).1, (nofun : 4 = 2 → _), fun _ _ => (shape18 o 0x40000059 h (by decide)).2⟩
theorem tfill (o : OpT) : Statement (.tfill o) := fun h => ⟨(shape18 o 0x60000059 h (by decide)).1, (nofun : 4 = 2 → _), fun _ _ => (shape18 o 0x60000059 h (by decide)).2⟩
theorem tclmp (o : OpT) : Statement (.tclmp o) := fun h => ⟨(shape18 o 0x80000059 h (by decide)).1, (nofun : 4 = 2 → _), fun _ _ => (shape18 o 0x80000059 h (by decide)).2⟩
theorem tcvt (o : OpTcvt) : Statement (.tcvt o) := fun h => ⟨(shape49 o 0xa0000059 h (by decide)).1, (nofun : 4 = 2 → _), fun _ _ => (shape49 o 0xa0000059 h (by decide)).2⟩
theorem mma (o : OpT) : Statement (.mma o) := fun h => ⟨(shape18 o 0x5b h (by decide)).1, (nofun : 4 = 2 → _), fun _ _ => (shape18 o 0x5b h (by decide)).2⟩
theorem mmp (o : OpT) : Statement (.mmp o) := fun h => ⟨(shape18 o 0x2000005b h (by decide)).1, (nofun : 4 = 2 → _), fun _ _ => (shape18 o 0x2000005b h (by decide)).2⟩
theorem mmz (d : Nat) : Statement (.mmz d) := fun h => ⟨(shape47 d 0x4000005b h (by decide)).1, (nofun : 4 = 2 → _), fun _ _ => (shape47 d 0x4000005b h (by decide)).2⟩
theorem acq (n : Nat) (d : Nat) : Statement (.acq n d) := fun h => ⟨(shape50 n d 0x5d h (by decide)).1, (nofun : 4 = 2 → _), fun _ _ => (shape50 n d 0x5d h (by decide)).2⟩
theorem acr (d : Nat) : Statement (.acr d) := fun h => ⟨(shape47 d 0x2000005d h (by decide)).1, (nofun : 4 = 2 → _), fun _ _ => (shape47 d 0x2000005d h (by decide)).2⟩
theorem acrd (o : OpAcrd) : Statement (.acrd o) := fun h => ⟨(shape51 o 0x4000005d h (by decide)).1, (nofun : 4 = 2 → _), fun _ _ => (shape51 o 0x4000005d h (by decide)).2⟩
theorem acld (a : Nat) (d : Nat) : Statement (.acld a d) := fun h => ⟨(shape21 a d 0x6000005d h (by decide)).1, (nofun : 4 = 2 → _), fun _ _ => (shape21 a d 0x6000005d h (by decide)).2⟩
theorem cego (a : Nat) : Statement (.cego a) := fun h => ⟨(shape26 a 0x5f h (by decide)).1, (nofun : 4 = 2 → _), fun _ _ => (shape26 a 0x5f h (by decide)).2⟩
theorem gxgo (a : Nat) : Statement (.gxgo a) := fun h => ⟨(shape26 a 0xdf h (by decide)).1, (nofun : 4 = 2 → _), fun _ _ => (shape26 a 0xdf h (by decide)).2⟩
theorem wpush (n : Nat) (a : Nat) : Statement (.wpush n a) := fun h => ⟨(shape52 n a 0x61 h (by decide)).1, (nofun : 4 = 2 → _), fun _ _ => (shape52 n a 0x61 h (by decide)).2⟩
theorem wpop (p : Nat) (d : Nat) : Statement (.wpop p d) := fun h => ⟨(shape53 p d 0xe1 h (by decide)).1, (nofun : 4 = 2 → _), fun _ _ => (shape53 p d 0xe1 h (by decide)).2⟩
theorem quies (p : Nat) : Statement (.quies p) := fun h => ⟨(shape54 p 0x161 h (by decide)).1, (nofun : 4 = 2 → _), fun _ _ => (shape54 p 0x161 h (by decide)).2⟩
theorem trap (i : Nat) : Statement (.trap i) := fun h => ⟨(shape28 i 0x63 h (by decide)).1, (nofun : 4 = 2 → _), fun _ _ => (shape28 i 0x63 h (by decide)).2⟩
theorem tret : Statement .tret := fun _ => ⟨by decide, by decide, by decide⟩
theorem yield : Statement .yield := fun _ => ⟨by decide, by decide, by decide⟩
theorem exit : Statement .exit := fun _ => ⟨by decide, by decide, by decide⟩
theorem spawn (a : Nat) : Statement (.spawn a) := fun h => ⟨(shape26 a 0x263 h (by decide)).1, (nofun : 4 = 2 → _), fun _ _ => (shape26 a 0x263 h (by decide)).2⟩
theorem kill (a : Nat) : Statement (.kill a) := fun h => ⟨(shape26 a 0x2e3 h (by decide)).1, (nofun : 4 = 2 → _), fun _ _ => (shape26 a 0x2e3 h (by decide)).2⟩
theorem csrr (c : Nat) (d : Nat) : Statement (.csrr c d) := fun h => ⟨(shape55 c d 0x363 h (by decide)).1, (nofun : 4 = 2 → _), fun _ _ => (shape55 c d 0x363 h (by decide)).2⟩
theorem csrw (cnum : Nat) (qs : Nat) : Statement (.csrw cnum qs) := fun h => ⟨(shape56 cnum qs 0x3e3 h (by decide)).1, (nofun : 4 = 2 → _), fun _ _ => (shape56 cnum qs 0x3e3 h (by decide)).2⟩
theorem csrCtlbiWrite (cnum : Nat) (qs : Nat) : Statement (.csrCtlbiWrite cnum qs) := fun _ => ⟨(show 0 < 1 by decide), (nofun : 0 = 2 → _), (nofun : 0 = 4 → _)⟩
theorem csrCbndReload (cnum : Nat) (qs : Nat) : Statement (.csrCbndReload cnum qs) := fun _ => ⟨(show 0 < 1 by decide), (nofun : 0 = 2 → _), (nofun : 0 = 4 → _)⟩
theorem csrCbndWrite (cnum : Nat) (qs : Nat) : Statement (.csrCbndWrite cnum qs) := fun _ => ⟨(show 0 < 1 by decide), (nofun : 0 = 2 → _), (nofun : 0 = 4 → _)⟩
theorem uli (d : Nat) (i : Nat) : Statement (.uli d i) := fun h => ⟨shape57 d i 0x8000000 h (by decide), (nofun : 4 = 2 → _), fun _ => (nofun : true = false → _)⟩
theorem uaddi (o : OpUi) : Statement (.uaddi o) := fun h => ⟨shape58 o 0x10000000 h (by decide), (nofun : 4 = 2 → _), fun _ => (nofun : true = false → _)⟩
theorem uadd (o : OpUr) : Statement (.uadd o) := fun h => ⟨shape59 o 0x18000000 h (by decide), (nofun : 4 = 2 → _), fun _ => (nofun : true = false → _)⟩
theorem usub (o : OpUr) : Statement (.usub o) := fun h => ⟨shape59 o 0x20000000 h (by decide), (nofun : 4 = 2 → _), fun _ => (nofun : true = false → _)⟩
theorem uand (o : OpUr) : Statement (.uand o) := fun h => ⟨shape59 o 0x28000000 h (by decide), (nofun : 4 = 2 → _), fun _ => (nofun : true = false → _)⟩
theorem uor (o : OpUr) : Statement (.uor o) := fun h => ⟨shape59 o 0x30000000 h (by decide), (nofun : 4 = 2 → _), fun _ => (nofun : true = false → _)⟩
theorem ushl (o : OpUr) : Statement (.ushl o) := fun h => ⟨shape59 o 0x38000000 h (by decide), (nofun : 4 = 2 → _), fun _ => (nofun : true = false → _)⟩
theorem ushr (o : OpUr) : Statement (.ushr o) := fun h => ⟨shape59 o 0x40000000 h (by decide), (nofun : 4 = 2 → _), fun _ => (nofun : true = false → _)⟩
theorem uld (o : OpUi) : Statement (.uld o) := fun h => ⟨shape58 o 0x48000000 h (by decide), (nofun : 4 = 2 → _), fun _ => (nofun : true = false → _)⟩
theorem ust (o : OpUst) : Statement (.ust o) := fun h => ⟨shape60 o 0x50000000 h (by decide), (nofun : 4 = 2 → _), fun _ => (nofun : true = false → _)⟩
theorem ubr (o : OpUbr) : Statement (.ubr o) := fun h => ⟨shape61 o 0x58000000 h (by decide), (nofun : 4 = 2 → _), fun _ => (nofun : true = false → _)⟩
theorem ujmp (o : Nat) : Statement (.ujmp o) := fun h => ⟨shape62 o 0x60000000 h (by decide), (nofun : 4 = 2 → _), fun _ => (nofun : true = false → _)⟩
theorem uend : Statement .uend := fun _ => ⟨by decide, by decide, by decide⟩
theorem ufault (i : Nat) : Statement (.ufault i) := fun h => ⟨shape63 i 0x70000000 h (by decide), (nofun : 4 = 2 → _), fun _ => (nofun : true = false → _)⟩
theorem ucomb (a : Nat) (b : Nat) : Statement (.ucomb a b) := fun h => ⟨shape64 a b 0x78000000 h (by decide), (nofun : 4 = 2 → _), fun _ => (nofun : true = false → _)⟩
theorem ufwd (a : Nat) : Statement (.ufwd a) := fun h => ⟨shape65 a 0x80000000 h (by decide), (nofun : 4 = 2 → _), fun _ => (nofun : true = false → _)⟩
theorem umcast (a : Nat) : Statement (.umcast a) := fun h => ⟨shape65 a 0x88000000 h (by decide), (nofun : 4 = 2 → _), fun _ => (nofun : true = false → _)⟩
theorem uwr (a : Nat) : Statement (.uwr a) := fun h => ⟨shape65 a 0x90000000 h (by decide), (nofun : 4 = 2 → _), fun _ => (nofun : true = false → _)⟩
theorem uopt (a : Nat) : Statement (.uopt a) := fun h => ⟨shape65 a 0x98000000 h (by decide), (nofun : 4 = 2 → _), fun _ => (nofun : true = false → _)⟩
theorem usig (a : Nat) : Statement (.usig a) := fun h => ⟨shape65 a 0xa0000000 h (by decide), (nofun : 4 = 2 → _), fun _ => (nofun : true = false → _)⟩
theorem udone (d : Nat) : Statement (.udone d) := fun h => ⟨shape66 d 0xa8000000 h (by decide), (nofun : 4 = 2 → _), fun _ => (nofun : true = false → _)⟩
theorem uget (d : Nat) (a : Nat) : Statement (.uget d a) := fun h => ⟨shape67 d a 0xb0000000 h (by decide), (nofun : 4 = 2 → _), fun _ => (nofun : true = false → _)⟩
theorem joinArrive : Statement .joinArrive := fun _ => ⟨by decide, by decide, by decide⟩
theorem rwaitTimeout : Statement .rwaitTimeout := fun _ => ⟨by decide, by decide, by decide⟩
theorem yieldExpire : Statement .yieldExpire := fun _ => ⟨by decide, by decide, by decide⟩
theorem barrierArrivalTaken : Statement .barrierArrivalTaken := fun _ => ⟨by decide, by decide, by decide⟩
theorem gbarPhaseMessage : Statement .gbarPhaseMessage := fun _ => ⟨by decide, by decide, by decide⟩
theorem monitorWake : Statement .monitorWake := fun _ => ⟨by decide, by decide, by decide⟩
theorem channelStall : Statement .channelStall := fun _ => ⟨by decide, by decide, by decide⟩
theorem channelPacketReceive : Statement .channelPacketReceive := fun _ => ⟨by decide, by decide, by decide⟩
theorem channelCredit : Statement .channelCredit := fun _ => ⟨by decide, by decide, by decide⟩
theorem loadDataReturn : Statement .loadDataReturn := fun _ => ⟨by decide, by decide, by decide⟩
theorem storeLeaveQueue : Statement .storeLeaveQueue := fun _ => ⟨by decide, by decide, by decide⟩
theorem fenceComplete : Statement .fenceComplete := fun _ => ⟨by decide, by decide, by decide⟩
theorem translationWalkComplete : Statement .translationWalkComplete := fun _ => ⟨by decide, by decide, by decide⟩
theorem trapEntry : Statement .trapEntry := fun _ => ⟨by decide, by decide, by decide⟩
theorem lateEngineFault : Statement .lateEngineFault := fun _ => ⟨by decide, by decide, by decide⟩
theorem laneLineFill : Statement .laneLineFill := fun _ => ⟨by decide, by decide, by decide⟩
theorem frameGrant : Statement .frameGrant := fun _ => ⟨by decide, by decide, by decide⟩
theorem fillEnd : Statement .fillEnd := fun _ => ⟨by decide, by decide, by decide⟩
theorem mmpStart : Statement .mmpStart := fun _ => ⟨by decide, by decide, by decide⟩
theorem mmaPerform : Statement .mmaPerform := fun _ => ⟨by decide, by decide, by decide⟩
theorem engineEntryReach : Statement .engineEntryReach := fun _ => ⟨by decide, by decide, by decide⟩
theorem blockStart : Statement .blockStart := fun _ => ⟨by decide, by decide, by decide⟩
theorem blockEnd : Statement .blockEnd := fun _ => ⟨by decide, by decide, by decide⟩
theorem launchAccept : Statement .launchAccept := fun _ => ⟨by decide, by decide, by decide⟩
theorem schedule : Statement .schedule := fun _ => ⟨by decide, by decide, by decide⟩
theorem prioritySwapOut : Statement .prioritySwapOut := fun _ => ⟨by decide, by decide, by decide⟩
theorem launchComplete : Statement .launchComplete := fun _ => ⟨by decide, by decide, by decide⟩
theorem launchKillComplete : Statement .launchKillComplete := fun _ => ⟨by decide, by decide, by decide⟩
theorem hqDoorbell : Statement .hqDoorbell := fun _ => ⟨by decide, by decide, by decide⟩
theorem hqEnable : Statement .hqEnable := fun _ => ⟨by decide, by decide, by decide⟩
theorem hqDisable : Statement .hqDisable := fun _ => ⟨by decide, by decide, by decide⟩
theorem hqbaseWrite : Statement .hqbaseWrite := fun _ => ⟨by decide, by decide, by decide⟩
theorem mgmtDoorbell : Statement .mgmtDoorbell := fun _ => ⟨by decide, by decide, by decide⟩
theorem ctxTableWrite : Statement .ctxTableWrite := fun _ => ⟨by decide, by decide, by decide⟩
theorem ctxSwapOut : Statement .ctxSwapOut := fun _ => ⟨by decide, by decide, by decide⟩
theorem ctxRestore : Statement .ctxRestore := fun _ => ⟨by decide, by decide, by decide⟩
theorem ctxEvictGroups : Statement .ctxEvictGroups := fun _ => ⟨by decide, by decide, by decide⟩
theorem ctxRestoreGroups : Statement .ctxRestoreGroups := fun _ => ⟨by decide, by decide, by decide⟩
theorem ctxFlushLines : Statement .ctxFlushLines := fun _ => ⟨by decide, by decide, by decide⟩
theorem ctxcmdComplete : Statement .ctxcmdComplete := fun _ => ⟨by decide, by decide, by decide⟩
theorem cohortSwapOut : Statement .cohortSwapOut := fun _ => ⟨by decide, by decide, by decide⟩
theorem cohortRestore : Statement .cohortRestore := fun _ => ⟨by decide, by decide, by decide⟩
theorem tlbinvAll : Statement .tlbinvAll := fun _ => ⟨by decide, by decide, by decide⟩
theorem tlbinvPage : Statement .tlbinvPage := fun _ => ⟨by decide, by decide, by decide⟩
theorem tlbinvComplete : Statement .tlbinvComplete := fun _ => ⟨by decide, by decide, by decide⟩
theorem wbctxWrite : Statement .wbctxWrite := fun _ => ⟨by decide, by decide, by decide⟩
theorem packetRoute : Statement .packetRoute := fun _ => ⟨by decide, by decide, by decide⟩
theorem probeLaunch : Statement .probeLaunch := fun _ => ⟨by decide, by decide, by decide⟩
theorem probeHop : Statement .probeHop := fun _ => ⟨by decide, by decide, by decide⟩
theorem recoveryGrant : Statement .recoveryGrant := fun _ => ⟨by decide, by decide, by decide⟩
theorem rotationTokenReturn : Statement .rotationTokenReturn := fun _ => ⟨by decide, by decide, by decide⟩
theorem escapeReinject : Statement .escapeReinject := fun _ => ⟨by decide, by decide, by decide⟩
theorem sliceAccess : Statement .sliceAccess := fun _ => ⟨by decide, by decide, by decide⟩
theorem sliceFillComplete : Statement .sliceFillComplete := fun _ => ⟨by decide, by decide, by decide⟩
theorem sliceWriteback : Statement .sliceWriteback := fun _ => ⟨by decide, by decide, by decide⟩
theorem scrubLine : Statement .scrubLine := fun _ => ⟨by decide, by decide, by decide⟩
theorem fsPeriodStart : Statement .fsPeriodStart := fun _ => ⟨by decide, by decide, by decide⟩
theorem fsbudWrite : Statement .fsbudWrite := fun _ => ⟨by decide, by decide, by decide⟩
theorem governorWindow : Statement .governorWindow := fun _ => ⟨by decide, by decide, by decide⟩
theorem powerEstimate : Statement .powerEstimate := fun _ => ⟨by decide, by decide, by decide⟩
theorem awcfgEnable : Statement .awcfgEnable := fun _ => ⟨by decide, by decide, by decide⟩
theorem awcfgDisable : Statement .awcfgDisable := fun _ => ⟨by decide, by decide, by decide⟩
theorem awRegisterWrite : Statement .awRegisterWrite := fun _ => ⟨by decide, by decide, by decide⟩
theorem awContribution : Statement .awContribution := fun _ => ⟨by decide, by decide, by decide⟩
theorem segmentReceive : Statement .segmentReceive := fun _ => ⟨by decide, by decide, by decide⟩
theorem handlerStart : Statement .handlerStart := fun _ => ⟨by decide, by decide, by decide⟩
theorem bucketSpill : Statement .bucketSpill := fun _ => ⟨by decide, by decide, by decide⟩
theorem ueRetransmit : Statement .ueRetransmit := fun _ => ⟨by decide, by decide, by decide⟩
theorem fabricPacketReceive : Statement .fabricPacketReceive := fun _ => ⟨by decide, by decide, by decide⟩
theorem fabricAck : Statement .fabricAck := fun _ => ⟨by decide, by decide, by decide⟩
theorem laneFailure : Statement .laneFailure := fun _ => ⟨by decide, by decide, by decide⟩
theorem linkRetrainDone : Statement .linkRetrainDone := fun _ => ⟨by decide, by decide, by decide⟩
theorem flctlRetrain : Statement .flctlRetrain := fun _ => ⟨by decide, by decide, by decide⟩
theorem peerAccessTimeout : Statement .peerAccessTimeout := fun _ => ⟨by decide, by decide, by decide⟩
theorem peerAccessReceive : Statement .peerAccessReceive := fun _ => ⟨by decide, by decide, by decide⟩
theorem hostWrite : Statement .hostWrite := fun _ => ⟨by decide, by decide, by decide⟩
theorem hostRead : Statement .hostRead := fun _ => ⟨by decide, by decide, by decide⟩
theorem errRingEnable : Statement .errRingEnable := fun _ => ⟨by decide, by decide, by decide⟩
theorem errRingDisable : Statement .errRingDisable := fun _ => ⟨by decide, by decide, by decide⟩
theorem errcfgWrite : Statement .errcfgWrite := fun _ => ⟨by decide, by decide, by decide⟩
theorem errCorrectionPeriod : Statement .errCorrectionPeriod := fun _ => ⟨by decide, by decide, by decide⟩
theorem katInject : Statement .katInject := fun _ => ⟨by decide, by decide, by decide⟩
theorem scanApply : Statement .scanApply := fun _ => ⟨by decide, by decide, by decide⟩
theorem scanTest : Statement .scanTest := fun _ => ⟨by decide, by decide, by decide⟩
theorem scanComplete : Statement .scanComplete := fun _ => ⟨by decide, by decide, by decide⟩
theorem stkEnterCheckpoint : Statement .stkEnterCheckpoint := fun _ => ⟨by decide, by decide, by decide⟩
theorem stkTakeCheckpoint : Statement .stkTakeCheckpoint := fun _ => ⟨by decide, by decide, by decide⟩
theorem stkLeaveCheckpoint : Statement .stkLeaveCheckpoint := fun _ => ⟨by decide, by decide, by decide⟩
theorem stkWarmResetRestore : Statement .stkWarmResetRestore := fun _ => ⟨by decide, by decide, by decide⟩
theorem stkWarmResetNoRestore : Statement .stkWarmResetNoRestore := fun _ => ⟨by decide, by decide, by decide⟩
theorem checkpointQuiet : Statement .checkpointQuiet := fun _ => ⟨by decide, by decide, by decide⟩
theorem checkpointTimeout : Statement .checkpointTimeout := fun _ => ⟨by decide, by decide, by decide⟩
theorem msgLogOverflow : Statement .msgLogOverflow := fun _ => ⟨by decide, by decide, by decide⟩
theorem rtRaiseTestFloor : Statement .rtRaiseTestFloor := fun _ => ⟨by decide, by decide, by decide⟩
theorem rtSignBindingMap : Statement .rtSignBindingMap := fun _ => ⟨by decide, by decide, by decide⟩
theorem powerGood : Statement .powerGood := fun _ => ⟨by decide, by decide, by decide⟩
theorem kilnRampStep : Statement .kilnRampStep := fun _ => ⟨by decide, by decide, by decide⟩
theorem bootLoader : Statement .bootLoader := fun _ => ⟨by decide, by decide, by decide⟩
theorem bootOs : Statement .bootOs := fun _ => ⟨by decide, by decide, by decide⟩
theorem bootFirmware : Statement .bootFirmware := fun _ => ⟨by decide, by decide, by decide⟩
theorem spdmGetVersion : Statement .spdmGetVersion := fun _ => ⟨by decide, by decide, by decide⟩
theorem spdmGetCapabilities : Statement .spdmGetCapabilities := fun _ => ⟨by decide, by decide, by decide⟩
theorem spdmNegotiateAlgorithms : Statement .spdmNegotiateAlgorithms := fun _ => ⟨by decide, by decide, by decide⟩
theorem spdmGetDigests : Statement .spdmGetDigests := fun _ => ⟨by decide, by decide, by decide⟩
theorem spdmGetCertificate : Statement .spdmGetCertificate := fun _ => ⟨by decide, by decide, by decide⟩
theorem spdmChallenge : Statement .spdmChallenge := fun _ => ⟨by decide, by decide, by decide⟩
theorem spdmGetMeasurements : Statement .spdmGetMeasurements := fun _ => ⟨by decide, by decide, by decide⟩
theorem spdmUnsupportedRequest : Statement .spdmUnsupportedRequest := fun _ => ⟨by decide, by decide, by decide⟩
theorem registerWrite : Statement .registerWrite := fun _ => ⟨by decide, by decide, by decide⟩
theorem illegalInstruction : Statement .illegalInstruction := fun _ => ⟨by decide, by decide, by decide⟩
theorem instructionFetchFault : Statement .instructionFetchFault := fun _ => ⟨by decide, by decide, by decide⟩
theorem conditionalWaitPauseEnd : Statement .conditionalWaitPauseEnd := fun _ => ⟨by decide, by decide, by decide⟩
theorem bankAccess : Statement .bankAccess := fun _ => ⟨by decide, by decide, by decide⟩
theorem tileWriteComplete : Statement .tileWriteComplete := fun _ => ⟨by decide, by decide, by decide⟩
theorem writeAcknowledgement : Statement .writeAcknowledgement := fun _ => ⟨by decide, by decide, by decide⟩
theorem writeBackDrain : Statement .writeBackDrain := fun _ => ⟨by decide, by decide, by decide⟩
theorem uncorrectableError : Statement .uncorrectableError := fun _ => ⟨by decide, by decide, by decide⟩
theorem powerLoss : Statement .powerLoss := fun _ => ⟨by decide, by decide, by decide⟩

end Sys2Proof.Laws.WordFits
end

