-- ==== Sys2Proof/Tests/Slice0.lean ====
section
/-! SUPPORT. Tests of well-formedness, of decoding and of single steps, with expected results from the spec's own words and tables, and for
every statement with hypotheses a state and operands that meet them. -/

open Sys2Proof Sys2Proof.Machine

namespace Sys2Proof.Tests

set_option Elab.async false

/-! ## Well-formedness: an ill-formed term for each check, and a well-formed one at the ends of its fields -/

theorem test_wfFields :
    (Instr.iadd { q := 2, b := 0, a := 0, d := 0, g := 0 }).wf = false ∧ (Instr.iadd { q := 0, b := 64, a := 0, d := 0, g := 0 }).wf = false ∧
    (Instr.iadd { q := 0, b := 0, a := 64, d := 0, g := 0 }).wf = false ∧ (Instr.iadd { q := 0, b := 0, a := 0, d := 64, g := 0 }).wf = false ∧
    (Instr.iadd16 32 0).wf = false ∧ (Instr.iaddi { i := 512, a := 0, d := 0, g := 0 }).wf = false ∧
    (Instr.shli { s := 32, a := 0, d := 0, g := 0 }).wf = false ∧ (Instr.movi { i := 8192, d := 0, g := 0 }).wf = false ∧
    (Instr.cvt { s := 0, t := 64, a := 0, d := 0, g := 0 }).wf = false ∧ (Instr.bra 0x200000 0).wf = false ∧ (Instr.uli 16 0).wf = false ∧
    (Instr.ld32 { o := 32, r := 0, u := 0, a := 0, d := 0, g := 0 }).wf = false ∧ (Instr.csrr 4096 0).wf = false ∧
    (Instr.iadd { q := 1, b := 63, a := 63, d := 63, g := 15 }).wf = true := by decide

/-- R55, R60: guard `!p0`, and a destination `p0`. -/
theorem test_wfGuards :
    (Instr.iadd { q := 0, b := 0, a := 0, d := 0, g := 8 }).wf = false ∧ (Instr.iadd { q := 0, b := 0, a := 0, d := 0, g := 16 }).wf = false ∧
    (Instr.pand { b := 0, a := 0, d := 0, g := 0 }).wf = false ∧ (Instr.elect 0 0).wf = false ∧
    (Instr.icmp { q := 0, b := 0, a := 0, p := 1, c := 6, g := 0 }).wf = false ∧ (Instr.fcmp { q := 0, b := 0, a := 0, p := 1, c := 7, g := 0 }).wf = true ∧
    (Instr.fcmp { q := 0, b := 0, a := 0, p := 0, c := 7, g := 0 }).wf = false := by decide

/-- R52, R61, R65, R67, R68: the values of single fields that are reserved. -/
theorem test_wfReserved :
    (Instr.mov16 0 0).wf = false ∧ (Instr.red { k := 13, a := 0, d := 0, g := 0 }).wf = false ∧ (Instr.reconv 0).wf = false ∧
    (Instr.atom { o := 3, s := 0, t := 4, a := 0, d := 0, g := 0 }).wf = false ∧ (Instr.atom { o := 7, s := 0, t := 0, a := 0, d := 0, g := 0 }).wf = false ∧
    (Instr.redm { o := 6, s := 0, t := 0, a := 0, d := 0, g := 0 }).wf = false ∧ (Instr.redm { o := 3, s := 0, t := 4, a := 0, d := 0, g := 0 }).wf = false ∧
    (Instr.cas { s := 0, t := 5, a := 0, d := 0, g := 0 }).wf = false ∧ (Instr.fence { s := 0, p := 0, c := 1 }).wf = false ∧
    (Instr.pfence 4).wf = false ∧ (Instr.mwait { w := 2, c := 0, p := 0, a := 0, v := 0 }).wf = false ∧
    (Instr.mwait { w := 0, c := 6, p := 0, a := 0, v := 0 }).wf = false ∧ (Instr.send { c := 0, n := 2, a := 0 }).wf = false ∧
    (Instr.acq 17 0).wf = false ∧ (Instr.acq 0 0).wf = false ∧ (Instr.tcvt { t := 1, a := 0, d := 0, s := 0, r := 6 }).wf = false ∧
    (Instr.acrd { b := 0, a := 0, d := 0, l := 0, r := 6 }).wf = false ∧ (Instr.ubr { a := 0, b := 0, c := 6, o := 0 }).wf = false ∧
    (Instr.csrw 3 8).wf = false ∧ (Instr.csrw 3 26).wf = true := by decide

/-! ## Decoding: for every row of the table with an encoding its fixed bits and its fields, each at a value of its own (R51 to R68, R360, R361) -/

def decodeAll (n : Nat) (l : List (Nat × Instr)) : Bool := l.all fun e => e.2.wf && e.2.size == n && (match decode (wordBytes n e.1) with
  | .ok (i, m) => i == e.2 && m == n
  | .error _ => false)

def decodeUliahAll (l : List (Nat × Instr)) : Bool := l.all fun e => e.2.wf && decodeUliah e.1 == some e.2

theorem test_decodeHalf : decodeAll 2 [
    (0x9d20, .mov16 19 41),
    (0x9d22, .iadd16 19 41),
    (0x9d24, .isub16 19 41),
    (0x9d26, .imul16 19 41),
    (0x9d28, .and16 19 41),
    (0x9d2a, .or16 19 41),
    (0x9d2c, .xor16 19 41),
    (0x3d2e, .shli16 7 41),
    (0x3d30, .shri16 7 41),
    (0x3d32, .srai16 7 41),
    (0x3d34, .addi16 7 41),
    (0x9d36, .fadd16 19 41),
    (0x9d38, .fsub16 19 41),
    (0x9d3a, .fmul16 19 41),
    (0x9d3c, .fmin16 19 41),
    (0x9d3e, .fmax16 19 41)] = true := by decide +kernel

theorem test_decodeLaneInteger1 : decodeAll 4 [
    (0x32ad4d83, .iadd { q := 1, b := 37, a := 22, d := 41, g := 11 }),
    (0x72ad4d83, .isub { q := 1, b := 37, a := 22, d := 41, g := 11 }),
    (0xb2ad4d83, .imul { q := 1, b := 37, a := 22, d := 41, g := 11 }),
    (0xf2ad4d83, .imulh { q := 1, b := 37, a := 22, d := 41, g := 11 }),
    (0x32ad4d85, .imulhn { q := 1, b := 37, a := 22, d := 41, g := 11 }),
    (0x72ad4d85, .imad { q := 1, b := 37, a := 22, d := 41, g := 11 }),
    (0xb2ad4d85, .imin { q := 1, b := 37, a := 22, d := 41, g := 11 }),
    (0xf2ad4d85, .imax { q := 1, b := 37, a := 22, d := 41, g := 11 }),
    (0x32ad4d87, .nmin { q := 1, b := 37, a := 22, d := 41, g := 11 }),
    (0x72ad4d87, .nmax { q := 1, b := 37, a := 22, d := 41, g := 11 }),
    (0x802d4d87, .iabs { a := 22, d := 41, g := 11 }),
    (0xf2ad4d87, .isad { q := 1, b := 37, a := 22, d := 41, g := 11 }),
    (0x32ad4d89, .land { q := 1, b := 37, a := 22, d := 41, g := 11 }),
    (0x72ad4d89, .lor { q := 1, b := 37, a := 22, d := 41, g := 11 }),
    (0xb2ad4d89, .lxor { q := 1, b := 37, a := 22, d := 41, g := 11 }),
    (0xf2ad4d89, .andn { q := 1, b := 37, a := 22, d := 41, g := 11 }),
    (0x32ad4d8b, .shl { q := 1, b := 37, a := 22, d := 41, g := 11 }),
    (0x72ad4d8b, .shr { q := 1, b := 37, a := 22, d := 41, g := 11 }),
    (0xb2ad4d8b, .sra { q := 1, b := 37, a := 22, d := 41, g := 11 }),
    (0xf2ad4d8b, .rot { q := 1, b := 37, a := 22, d := 41, g := 11 })] = true := by decide +kernel

theorem test_decodeLaneInteger2 : decodeAll 4 [
    (0x002d4d8d, .popc { a := 22, d := 41, g := 11 }),
    (0x402d4d8d, .clz { a := 22, d := 41, g := 11 }),
    (0x802d4d8d, .brev { a := 22, d := 41, g := 11 }),
    (0xf2ad4d8d, .bfx { q := 1, b := 37, a := 22, d := 41, g := 11 }),
    (0x002d4d8f, .mov { a := 22, d := 41, g := 11 }),
    (0x72ad4d8f, .sel { q := 1, b := 37, a := 22, d := 41, g := 11 }),
    (0xb2ad4d8f, .bfi { q := 1, b := 37, a := 22, d := 41, g := 11 }),
    (0xf2ad4d8f, .iaddc { q := 1, b := 37, a := 22, d := 41, g := 11 }),
    (0xe3ad4d91, .iaddi { i := 455, a := 22, d := 41, g := 11 }),
    (0xe3ad4d93, .imuli { i := 455, a := 22, d := 41, g := 11 }),
    (0x23ad4d95, .andi { i := 71, a := 22, d := 41, g := 11 }),
    (0x63ad4d95, .ori { i := 71, a := 22, d := 41, g := 11 }),
    (0xa3ad4d95, .xori { i := 71, a := 22, d := 41, g := 11 }),
    (0xe3ad4d95, .isubri { i := 71, a := 22, d := 41, g := 11 }),
    (0x09ad4d97, .shli { s := 19, a := 22, d := 41, g := 11 }),
    (0x49ad4d97, .shri { s := 19, a := 22, d := 41, g := 11 }),
    (0x89ad4d97, .srai { s := 19, a := 22, d := 41, g := 11 }),
    (0xf38f4d97, .movi { i := 6599, d := 41, g := 11 })] = true := by decide +kernel

theorem test_decodeLaneFloat1 : decodeAll 4 [
    (0x32ad4d99, .fadd { q := 1, b := 37, a := 22, d := 41, g := 11 }),
    (0x72ad4d99, .fsub { q := 1, b := 37, a := 22, d := 41, g := 11 }),
    (0xb2ad4d99, .fmul { q := 1, b := 37, a := 22, d := 41, g := 11 }),
    (0xf2ad4d99, .ffma { q := 1, b := 37, a := 22, d := 41, g := 11 }),
    (0x32ad4d9b, .fmin { q := 1, b := 37, a := 22, d := 41, g := 11 }),
    (0x72ad4d9b, .fmax { q := 1, b := 37, a := 22, d := 41, g := 11 }),
    (0xb2ad4d9b, .fminn { q := 1, b := 37, a := 22, d := 41, g := 11 }),
    (0xf2ad4d9b, .fmaxn { q := 1, b := 37, a := 22, d := 41, g := 11 }),
    (0x002d4d9d, .frcp { a := 22, d := 41, g := 11 }),
    (0x402d4d9d, .frsq { a := 22, d := 41, g := 11 }),
    (0x802d4d9d, .fsqrt { a := 22, d := 41, g := 11 }),
    (0xc02d4d9d, .fex2 { a := 22, d := 41, g := 11 }),
    (0x002d4d9f, .flg2 { a := 22, d := 41, g := 11 }),
    (0x402d4d9f, .fsin { a := 22, d := 41, g := 11 }),
    (0x802d4d9f, .fcos { a := 22, d := 41, g := 11 }),
    (0xc02d4d9f, .ftanh { a := 22, d := 41, g := 11 }),
    (0x32ad4da1, .hadd { q := 1, b := 37, a := 22, d := 41, g := 11 }),
    (0x72ad4da1, .hsub { q := 1, b := 37, a := 22, d := 41, g := 11 }),
    (0xb2ad4da1, .hmul { q := 1, b := 37, a := 22, d := 41, g := 11 }),
    (0xf2ad4da1, .hfma { q := 1, b := 37, a := 22, d := 41, g := 11 })] = true := by decide +kernel

theorem test_decodeLaneFloat2 : decodeAll 4 [
    (0x32ad4da3, .hmin { q := 1, b := 37, a := 22, d := 41, g := 11 }),
    (0x72ad4da3, .hmax { q := 1, b := 37, a := 22, d := 41, g := 11 }),
    (0xb2ad4da3, .hdot2 { q := 1, b := 37, a := 22, d := 41, g := 11 }),
    (0x32ad4da5, .dadd { q := 1, b := 37, a := 22, d := 41, g := 11 }),
    (0x72ad4da5, .dsub { q := 1, b := 37, a := 22, d := 41, g := 11 }),
    (0xb2ad4da5, .dmul { q := 1, b := 37, a := 22, d := 41, g := 11 }),
    (0xf2ad4da5, .dfma { q := 1, b := 37, a := 22, d := 41, g := 11 }),
    (0x32ad4da7, .dmin { q := 1, b := 37, a := 22, d := 41, g := 11 }),
    (0x72ad4da7, .dmax { q := 1, b := 37, a := 22, d := 41, g := 11 }),
    (0x802d4da7, .drcp { a := 22, d := 41, g := 11 }),
    (0xc02d4da7, .dsqrt { a := 22, d := 41, g := 11 }),
    (0x32ad6da9, .icmp { q := 1, b := 37, a := 22, p := 5, c := 5, g := 11 }),
    (0x72ad6da9, .ncmp { q := 1, b := 37, a := 22, p := 5, c := 5, g := 11 }),
    (0xb2ad6da9, .fcmp { q := 1, b := 37, a := 22, p := 5, c := 5, g := 11 }),
    (0xf2ad6da9, .dcmp { q := 1, b := 37, a := 22, p := 5, c := 5, g := 11 }),
    (0x146045ab, .pand { b := 5, a := 6, d := 1, g := 11 }),
    (0x546045ab, .por { b := 5, a := 6, d := 1, g := 11 }),
    (0x946045ab, .pxor { b := 5, a := 6, d := 1, g := 11 }),
    (0xc06045ab, .pnot { a := 6, d := 1, g := 11 })] = true := by decide +kernel

theorem test_decodeLaneMove : decodeAll 4 [
    (0x32ad4dad, .cvt { s := 1, t := 37, a := 22, d := 41, g := 11 }),
    (0x72ad4dad, .cvtb { s := 1, t := 37, a := 22, d := 41, g := 11 }),
    (0x802d4dad, .sxexp { a := 22, d := 41, g := 11 }),
    (0xf2ad4dad, .sxset { q := 1, b := 37, a := 22, d := 41, g := 11 }),
    (0x32ad4daf, .shflIdx { q := 1, b := 37, a := 22, d := 41, g := 11 }),
    (0x72ad4daf, .shflUp { q := 1, b := 37, a := 22, d := 41, g := 11 }),
    (0xb2ad4daf, .shflDown { q := 1, b := 37, a := 22, d := 41, g := 11 }),
    (0xf2ad4daf, .shflXor { q := 1, b := 37, a := 22, d := 41, g := 11 }),
    (0x000745b1, .voteAny { s := 3, p := 5, g := 11 }),
    (0x008745b1, .voteAll { s := 3, p := 5, g := 11 }),
    (0x01074db1, .voteBallot { s := 3, d := 41, g := 11 }),
    (0x452d4db1, .red { k := 10, a := 22, d := 41, g := 11 }),
    (0x852d4db1, .scan { k := 10, a := 22, d := 41, g := 11 }),
    (0xc00145b1, .elect 5 11)] = true := by decide +kernel

theorem test_decodeUniform : decodeAll 4 [
    (0x12ad4833, .qadd { b := 37, a := 22, d := 41 }),
    (0x52ad4833, .qsub { b := 37, a := 22, d := 41 }),
    (0x92ad4833, .qmul { b := 37, a := 22, d := 41 }),
    (0xd2ad4833, .qand { b := 37, a := 22, d := 41 }),
    (0x12ad4835, .qor { b := 37, a := 22, d := 41 }),
    (0x52ad4835, .qxor { b := 37, a := 22, d := 41 }),
    (0x92ad4835, .qshl { b := 37, a := 22, d := 41 }),
    (0xd2ad4835, .qshr { b := 37, a := 22, d := 41 }),
    (0xb4b4f4b7, .qli 370087 41),
    (0x54b4f4b9, .qaddi 173479 41),
    (0xd4b4f4b9, .qlui 173479 41),
    (0x002d483b, .v2q 22 41),
    (0x402d4dbb, .q2v { a := 22, d := 41, g := 11 }),
    (0xa3414dbb, .movx { c := 1, x := 104, d := 41, g := 11 }),
    (0xe341483b, .movs { c := 1, x := 104, d := 41 })] = true := by decide +kernel

theorem test_decodeControl : decodeAll 4 [
    (0x91a2ddbd, .bra 1193051 11),
    (0x91a2d83f, .call 1193051),
    (0x00000041, .ret),
    (0x002c00c1, .jmpq 22),
    (0x91a2d941, .reconv 1193051),
    (0x002c01c1, .rwait 22),
    (0x002c0241, .bisq 22),
    (0x000002c1, .exitl),
    (0x02d1e341, .brk 23100),
    (0x000003c1, .nop),
    (0x02d1e063, .trap 23100),
    (0x00000163, .yield),
    (0x000001e3, .exit),
    (0xabc14b63, .csrr 2748 41)] = true := by decide +kernel

theorem test_decodeMemory : decodeAll 4 [
    (0xb4ad4dc3, .ld32 { o := 22, r := 2, u := 1, a := 22, d := 41, g := 11 }),
    (0xb4ad4dc5, .ld64 { o := 22, r := 2, u := 1, a := 22, d := 41, g := 11 }),
    (0xb5d94dc7, .ldNarrow { o := 22, r := 2, u := 3, a := 22, d := 41, g := 11 }),
    (0xb4174dc7, .ldk32 { o := 22, r := 2, b := 5, d := 41, g := 11 }),
    (0xb4974dc7, .ldk64 { o := 22, r := 2, b := 5, d := 41, g := 11 }),
    (0xb5174847, .qld { o := 22, r := 2, b := 5, d := 41 }),
    (0xb52c9dc9, .st { o := 22, r := 2, z := 2, a := 22, s := 19, g := 11 }),
    (0xb42c984b, .qst { o := 22, r := 2, a := 22, s := 19 }),
    (0x2dad4dcd, .atom { o := 2, s := 3, t := 3, a := 22, d := 41, g := 11 }),
    (0xadad4dcd, .redm { o := 2, s := 3, t := 3, a := 22, d := 41, g := 11 }),
    (0xedad4dcd, .cas { s := 3, t := 3, a := 22, d := 41, g := 11 }),
    (0xe94f004f, .fence { s := 3, p := 165, c := 60 }),
    (0x000028cf, .pfence 5),
    (0x002c094f, .wbr 22 1),
    (0x002c09cf, .invr 22 1)] = true := by decide +kernel

theorem test_decodeSync : decodeAll 4 [
    (0x05ac0051, .barAw 11 22),
    (0x05ac00d1, .barArv 11 22),
    (0x05ac0151, .barWt 11 22),
    (0x05ac01d1, .gbarAw 11 22),
    (0x05ac0251, .gbarArv 11 22),
    (0x05ac02d1, .gbarWt 11 22),
    (0x62ad9351, .mwait { w := 1, c := 4, p := 5, a := 22, v := 50 }),
    (0xc02d93d1, .sigd { s := 3, a := 22, v := 50 }),
    (0xd42c0053, .send { c := 13, n := 1, a := 22 }),
    (0xd40148d3, .recv { c := 13, n := 1, d := 41 }),
    (0xd0014953, .chq 13 41),
    (0x002c0263, .spawn 22),
    (0x002c02e3, .kill 22)] = true := by decide +kernel

theorem test_decodeTile1 : decodeAll 4 [
    (0x00014855, .tnew 41),
    (0x20014855, .tfree 41),
    (0x402d4855, .tpass 22 41),
    (0x602d4855, .tbind 22 41),
    (0x80014855, .tfetch 41),
    (0xa0014855, .tevict 41),
    (0xc0014855, .twait 41),
    (0x002d4857, .tld 22 41),
    (0x202d4857, .tst 22 41),
    (0x52ad4c57, .tget { b := 37, a := 22, d := 41, c := 1 }),
    (0x72ad4c57, .tset { b := 37, a := 22, d := 41, c := 1 }),
    (0x12ad4859, .tadds { b := 37, a := 22, d := 41 }),
    (0x32ad4859, .tmuls { b := 37, a := 22, d := 41 }),
    (0x52ad4859, .texps { b := 37, a := 22, d := 41 }),
    (0x72ad4859, .tfill { b := 37, a := 22, d := 41 }),
    (0x92ad4859, .tclmp { b := 37, a := 22, d := 41 }),
    (0xb2ad4ed9, .tcvt { t := 37, a := 22, d := 41, s := 1, r := 5 }),
    (0x12ad485b, .mma { b := 37, a := 22, d := 41 }),
    (0x32ad485b, .mmp { b := 37, a := 22, d := 41 }),
    (0x4001485b, .mmz 41)] = true := by decide +kernel

theorem test_decodeTile2 : decodeAll 4 [
    (0x0681485d, .acq 13 41),
    (0x2001485d, .acr 41),
    (0x52ad4edd, .acrd { b := 37, a := 22, d := 41, l := 1, r := 5 }),
    (0x602d485d, .acld 22 41),
    (0x002c005f, .cego 22),
    (0x002c00df, .gxgo 22),
    (0xa02c0061, .wpush 5 22),
    (0x028148e1, .wpop 5 41),
    (0x02800161, .quies 5),
    (0x000000e3, .tret)] = true := by decide +kernel

theorem test_decodeUliah : decodeUliahAll [
    (0x0c85a3c7, .uli 9 369607),
    (0x14b059c7, .uaddi { d := 9, a := 6, i := 22983 }),
    (0x1cb68000, .uadd { d := 9, a := 6, b := 13 }),
    (0x24b68000, .usub { d := 9, a := 6, b := 13 }),
    (0x2cb68000, .uand { d := 9, a := 6, b := 13 }),
    (0x34b68000, .uor { d := 9, a := 6, b := 13 }),
    (0x3cb68000, .ushl { d := 9, a := 6, b := 13 }),
    (0x44b68000, .ushr { d := 9, a := 6, b := 13 }),
    (0x4cb059c7, .uld { d := 9, a := 6, i := 22983 }),
    (0x5036d9c7, .ust { a := 6, b := 13, i := 22983 }),
    (0x5b6b9abc, .ubr { a := 6, b := 13, c := 3, o := 39612 }),
    (0x60009abc, .ujmp 39612),
    (0x68000000, .uend),
    (0x70005a3c, .ufault 23100),
    (0x78368000, .ucomb 6 13),
    (0x80300000, .ufwd 6),
    (0x88300000, .umcast 6),
    (0x90300000, .uwr 6),
    (0x98300000, .uopt 6),
    (0xa0300000, .usig 6),
    (0xac800000, .udone 9),
    (0xb4b00000, .uget 9 6)] = true := by decide +kernel

/-- R52, R55, R60, R65, R67, R68: words with a reserved value or a reserved bit are refused. -/
theorem test_decodeReserved :
    [0x00000403, 0x000007c1, 0x001003c1, 0x00020363, 0x000000cf, 0xffffffff, 0x00000001, 0x0000007f].all
      (fun w => match decode (wordBytes 4 w) with | .ok _ => false | .error _ => true) = true ∧
    (match decode (wordBytes 2 0) with | .ok _ => false | .error _ => true) = true := by decide +kernel

/-- The words that the spec writes out beside their assembly. -/
theorem test_decodeSpec : decodeAll 4 [
    (0x000a141, .reconv 20), (0x001201c1, .rwait 9), (0x0003203f, .call 100), (0x01000051, .barAw 2 0), (0x800c03d1, .sigd { s := 2, a := 6, v := 0 }),
    (0x1c085045, .ld64 { o := 3, r := 2, u := 0, a := 4, d := 10, g := 0 }), (0x119e1843, .ld32 { o := 2, r := 0, u := 3, a := 15, d := 3, g := 0 }),
    (0x100e2847, .ldk32 { o := 2, r := 0, b := 3, d := 5, g := 0 }), (0x1e844849, .st { o := 3, r := 3, z := 1, a := 2, s := 9, g := 0 }),
    (0x1014304b, .qst { o := 2, r := 0, a := 10, s := 6 }), (0x8a8440cd, .redm { o := 0, s := 2, t := 5, a := 2, d := 8, g := 1 }),
    (0xb030004f, .fence { s := 2, p := 192, c := 192 }), (0x000030cf, .pfence 6), (0x00001855, .tnew 3), (0x40042855, .tpass 2 5),
    (0x438a4457, .tget { b := 7, a := 5, d := 8, c := 1 }), (0x448a2859, .texps { b := 9, a := 5, d := 5 }), (0x0400205d, .acq 8 4),
    (0x4588545d, .acrd { b := 11, a := 4, d := 10, l := 1, r := 0 }), (0x98c202d, .cvt { s := 0, t := 19, a := 6, d := 4, g := 0 })] = true := by
  decide +kernel

theorem test_decodeSpecUliah : decodeUliahAll [
    (0x78000000, .ucomb 0 0), (0x88000000, .umcast 0), (0xab000000, .udone 6), (0x5b010002, .ubr { a := 6, b := 0, c := 1, o := 2 }),
    (0xa0000000, .usig 0), (0x68000000, .uend), (0x0b000003, .uli 6 3), (0x782b0000, .ucomb 5 6), (0x90000000, .uwr 0),
    (0x80000000, .ufwd 0)] = true := by decide +kernel

/-! ## States -/

/-- A package with one cohort, on core 0, that has every resource a block can have: `f` and `g` change the cohort and its block. -/
def world (f : Cohort → Cohort := id) (g : Block → Block := id) : State :=
  { State.reset with
    cur := { word := 0x3c1 }, nextId := 2, launches := [(1, firstLaunch)], gangs := [(1, { members := [(0, 0)], window := 0x2000000000000 })]
    cores := [(0, { firstCore with cohorts := [(0, f firstCohort)], blocks := firstCore.blocks.map fun e => (e.1, g e.2) })] }

/-- The split that issues there. -/
def mine (f : Cohort → Cohort := id) : Who :=
  { c := 0, k := 0, i := 0, h := f firstCohort, sp := ((f firstCohort).split? 0).getD {}, word := 0x3c1, len := 4 }

/-- The conditions of `Clear`, evaluated. -/
def clearB (s : State) (w : Who) (u : Uses) : Bool :=
  s.who? == some w && w.sp.state == 0 && w.h.mayIssue && !w.h.atJoin w.sp && !s.heldBack w u && !u.bad w.h.budget (s.handleCount w) &&
    u.odd == none && (!u.priv || w.h.handler) && s.freeHandle w u == none && u.vs.all (fun r => Num.goodTag (w.h.vtag r)) &&
    u.us.all (fun r => Num.goodTag (w.h.utag r)) && w.eaten u == 0

theorem clear_of {s : State} {w : Who} {u : Uses} (h : clearB s w u = true) : Clear s w u := by
  simp only [clearB, Bool.and_eq_true, beq_iff_eq, Bool.not_eq_true', Bool.or_eq_true, List.all_eq_true] at h
  obtain ⟨⟨⟨⟨⟨⟨⟨⟨⟨⟨⟨h1, h2⟩, h3⟩, h4⟩, h5⟩, h6⟩, h0⟩, h7⟩, h8⟩, h9⟩, h10⟩, h11⟩ := h
  exact ⟨h1, h2, h3, h4, h5, h6, h0, fun hp => h7.resolve_left (by simp [hp]), h8, h9, h10, h11⟩

theorem reaches_of {s : State} {w : Who} {u : Uses}
    (h : (s.who? == some w && w.sp.state == 0 && w.h.mayIssue && !w.h.atJoin w.sp && !s.heldBack w u) = true) : Reaches s w u := by
  simp only [Bool.and_eq_true, beq_iff_eq, Bool.not_eq_true'] at h
  obtain ⟨⟨⟨⟨h1, h2⟩, h3⟩, h4⟩, h5⟩ := h
  exact ⟨h1, h2, h3, h4, h5⟩

/-! ## Witnesses: lane instructions -/

/-- A cohort with the same tag on `v62`, `v63` and `q63`. -/
def tagged (t : Nat) (h : Cohort) : Cohort :=
  { h with v := [(62, { tag := t }), (63, { tag := t })], q := [(63, { tag := t })] }

/-- The operands with the greatest numbers: the second one a lane register, and a uniform one. -/
def opV : OpA := { q := 0, b := 63, a := 63, d := 63, g := 15 }
def opQ : OpA := { q := 1, b := 63, a := 63, d := 63, g := 15 }
def opD : OpA := { q := 0, b := 62, a := 62, d := 62, g := 15 }
def opE : OpA := { q := 1, b := 63, a := 62, d := 62, g := 15 }

theorem witness_WritingLanes : 15 < 16 ∧ 31 < 32 := by decide

theorem witness_LaneIntegerResults :
    Clear world mine (usesA opV) ∧ Clear world mine (usesA opQ) ∧ Clear world mine (usesAcc opV) ∧ Clear world mine (usesAcc opQ) := by
  and_intros <;> exact clear_of (by decide +kernel)

theorem witness_LaneBitwiseResults : Clear world mine (usesA opV) ∧ Clear world mine (usesA opQ) := by
  and_intros <;> exact clear_of (by decide +kernel)

theorem witness_FieldResults : Clear world mine (usesA opV) ∧ Clear world mine (usesAcc opQ) := by
  and_intros <;> exact clear_of (by decide +kernel)

theorem witness_LaneUnaryResults :
    Clear world mine (usesU { a := 63, d := 63, g := 15 }) ∧ Clear world mine { usesA opV with guard := 0 } ∧
    Clear world mine { usesA opE with vs := 63 :: (usesA opE).vs, vd := [62, 63], pairs := [62] } := by
  and_intros <;> exact clear_of (by decide +kernel)

theorem witness_ImmediateResults : Clear world mine (laneUses [63] [] [63] 15) ∧ Clear world mine (laneUses [] [] [63] 15) := by
  and_intros <;> exact clear_of (by decide +kernel)

theorem witness_SixteenBitResults :
    Clear world mine (laneUses [31] [] [63] 0) ∧ Clear world mine (laneUses [31, 63] [] [63] 0) ∧ Clear world mine (laneUses [63] [] [63] 0) := by
  and_intros <;> exact clear_of (by decide +kernel)

theorem witness_FloatMinMax :
    Num.unpack .fp32 0xffffffff = .nan ∧ 0xffffffff < 2 ^ 32 ∧ Num.unpack .fp32 0x7f800000 ≠ .nan ∧ Num.unpack .fp32 0 ≠ .nan := by
  decide +kernel

theorem witness_FloatResults :
    Clear (world (tagged 0x11)) (mine (tagged 0x11)) (usesA opV) ∧ Clear (world (tagged 0x11)) (mine (tagged 0x11)) (usesAcc opQ) ∧
    Clear world mine (laneUses [31, 63] [] [63] 0) ∧ ((tagged 0x11) firstCohort).vtag 63 = 0x11 ∧ ((tagged 0x11) firstCohort).utag 63 = 0x11 ∧
    firstCohort.vtag 31 = 0 ∧ firstCohort.vtag 63 = 0 := by
  and_intros <;> first | exact clear_of (by decide +kernel) | decide +kernel

theorem witness_SpecialFunctionResults :
    Clear (world (tagged 0x11)) (mine (tagged 0x11)) (usesU { a := 63, d := 63, g := 15 }) ∧ ((tagged 0x11) firstCohort).vtag 63 = 0x11 := by
  and_intros <;> first | exact clear_of (by decide +kernel) | decide +kernel

/-- A cohort whose split has bit 3 of `frm` set, so that raw packed halves are of format bf16. -/
def brained (h : Cohort) : Cohort :=
  { h with splits := [(0, { pc := 0x10000, entry := BitVec.allOnes 32, exec := BitVec.allOnes 32, frm := 8 })] }

theorem witness_PackedHalfResults :
    Clear (world (tagged 0x12)) (mine (tagged 0x12)) (usesA opQ) ∧ Clear (world brained) (mine brained) (usesA opV) ∧
    Clear (world (tagged 0x13)) (mine (tagged 0x13)) (usesAcc opV) ∧
    (∀ x ∈ [((tagged 0x12) firstCohort).vtag 63, ((tagged 0x12) firstCohort).utag 63], x = 0x12) ∧
    (mine brained).h.vtag 63 = 0 ∧ (mine brained).sp.frm.getLsbD 3 = true ∧ ((tagged 0x13) firstCohort).vtag 63 = 0x13 := by
  and_intros <;> first | exact clear_of (by decide +kernel) | decide +kernel

theorem witness_DoubleResults :
    Clear (world (tagged 0x10)) (mine (tagged 0x10)) (uses64 opD) ∧ Clear (world (tagged 0x10)) (mine (tagged 0x10)) (uses64Acc opE) ∧
    Clear world mine (usesU64 { a := 62, d := 62, g := 15 }) ∧ ((tagged 0x10) firstCohort).vtag 62 = 0x10 ∧
    ((tagged 0x10) firstCohort).utag 63 = 0x10 ∧ firstCohort.vtag 62 = 0 := by
  and_intros <;> first | exact clear_of (by decide +kernel) | decide +kernel

theorem witness_CompareResults :
    Clear world mine (usesCmp { q := 0, b := 63, a := 63, p := 7, c := 5, g := 15 }) ∧
    Clear (world (tagged 0x11)) (mine (tagged 0x11)) (usesCmp { q := 1, b := 63, a := 63, p := 7, c := 7, g := 15 }) ∧
    Clear (world (tagged 0x10)) (mine (tagged 0x10)) (usesCmp64 { q := 0, b := 62, a := 62, p := 0, c := 7, g := 15 }) ∧
    ((tagged 0x11) firstCohort).vtag 63 = 0x11 ∧ ((tagged 0x10) firstCohort).vtag 62 = 0x10 := by
  and_intros <;> first | exact clear_of (by decide +kernel) | decide +kernel

theorem witness_PredicateResults : Clear world mine (laneUses [] [] [] 15) ∧ Clear world mine (laneUses [] [] [] 0) := by
  and_intros <;> exact clear_of (by decide +kernel)

/-- Conversions: to a block, from a block, between element formats, and to 64 bits from a pair. -/
def cvtTo (t a d : Nat) : OpCvt := { s := 1, t := t, a := a, d := d, g := 15 }

theorem witness_ConversionResults :
    Clear world mine (usesCvt (cvtTo 0x22 63 63) mine) ∧ Num.goodTag 0x22 = true ∧
    Clear (world (tagged 0x22)) (mine (tagged 0x22)) (usesCvt (cvtTo 0x11 63 62) (mine (tagged 0x22))) ∧ ((tagged 0x22) firstCohort).vtag 63 = 0x22 ∧
    Clear (world (tagged 0x10)) (mine (tagged 0x10)) (usesCvt (cvtTo 0x10 62 62) (mine (tagged 0x10))) ∧ Num.goodTag 0x10 = true ∧
    ¬ (Num.wideTag ((tagged 0x10) firstCohort |>.vtag 62) = true ∧ 62 % 2 = 1) ∧
    Clear (world (tagged 0x11)) (mine (tagged 0x11)) (usesCvt (cvtTo 0 63 63) (mine (tagged 0x11))) ∧ Num.goodTag 0 = true ∧
    ((tagged 0x11) firstCohort).vtag 63 < 0x20 := by
  and_intros <;> first | exact clear_of (by decide +kernel) | decide +kernel

/-- A control word of `SXSET` in `q63`. -/
def control (n : Nat) (h : Cohort) : Cohort := { h with q := [(63, { val := BitVec.ofNat 64 (n * 256 + 127) })] }

/-- A cohort all of whose lanes are off by `exec`. -/
def masked (h : Cohort) : Cohort := { h with splits := [(0, { pc := 0x10000, entry := BitVec.allOnes 32, exec := 0 })] }

theorem witness_SharedExponentResults :
    Clear (world (tagged 0x22)) (mine (tagged 0x22)) (usesU { a := 63, d := 62, g := 0 }) ∧ 0x20 ≤ ((tagged 0x22) firstCohort).vtag 63 ∧
    Clear world mine (usesU { a := 63, d := 62, g := 0 }) ∧ firstCohort.vtag 63 < 0x20 ∧
    Clear (world masked) (mine masked) (usesA { opV with g := 0 }) ∧ (mine masked).h.writing (mine masked).sp 0 = 0 ∧
    Clear (world (control 0x22)) (mine (control 0x22)) (usesA { opQ with g := 0 }) ∧ ((mine (control 0x22)).srcB opQ 0).toNat / 256 % 64 = 0x22 ∧
    Clear (world (control 0x28)) (mine (control 0x28)) (usesA { opQ with g := 0 }) ∧ ((mine (control 0x28)).srcB opQ 0).toNat / 256 % 64 = 0x28 ∧
    Clear (world (control 0x21)) (mine (control 0x21)) (usesA { opQ with g := 0 }) ∧ ((mine (control 0x21)).srcB opQ 0).toNat / 256 % 64 = 0x21 ∧
    Clear (world (control 0x29)) (mine (control 0x29)) (usesA { opQ with g := 0 }) ∧ ((mine (control 0x29)).srcB opQ 0).toNat / 256 % 64 = 0x29 := by
  and_intros <;> first | exact clear_of (by decide +kernel) | decide +kernel

theorem witness_ShuffleResults :
    Clear world mine { usesA opV with eat := some (mine.shflEat 0 opV) } ∧ Clear world mine { usesA opQ with eat := some (mine.shflEat 3 opQ) } ∧
    Clear world mine { usesA opQ with eat := some (mine.shflEat 1 opQ) } ∧ Clear world mine { usesA opV with eat := some (mine.shflEat 2 opV) } := by
  and_intros <;> exact clear_of (by decide +kernel)

theorem witness_ReductionResults :
    Clear world mine (laneUses [] [] [63] 15) ∧ Clear world mine (laneUses [63] [] [63] 15) ∧
    Clear (world (tagged 0x11)) (mine (tagged 0x11)) (laneUses [63] [] [63] 15) ∧ ((tagged 0x11) firstCohort).vtag 63 = 0x11 ∧
    Clear (world (tagged 0x10)) (mine (tagged 0x10)) (laneUses [63] [] [63] 15) ∧ ((tagged 0x10) firstCohort).vtag 63 ≠ 0 ∧
    ((tagged 0x10) firstCohort).vtag 63 ≠ 0x11 := by
  and_intros <;> first | exact clear_of (by decide +kernel) | decide +kernel

theorem witness_ClassMoveResults :
    Clear world mine { vs := [63], ud := [63], eat := some (mine.eatOne 63 (mine.h.active mine.sp)) } ∧ Clear world mine (laneUses [] [63] [63] 15) ∧
    Clear world mine { ud := [63], whole := true, guard := 15 } ∧ Clear world mine { vd := [63], whole := false, guard := 15 } ∧
    (0x40 + 63 < 0x40 + world.handleCount mine ∧ (world.myHandle mine 63).rows < 2 ^ 8 ∧ (world.myHandle mine 63).cols < 2 ^ 9 ∧
      (world.myHandle mine 63).tag < 2 ^ 6 ∧ (world.myHandle mine 63).layout < 2 ^ 3 ∧ (world.myHandle mine 63).breg < 2 ^ 5 ∧ (world.myHandle mine 63).owner < 2 ^ 5 ∧
      (world.myHandle mine 63).log.length < 2 ^ 4 ∧ (world.myHandle mine 63).phase < 2 ^ 5 ∧ (world.myHandle mine 63).frame < 2 ^ 8) ∧
    ¬ (0xff < 0x40 + world.handleCount mine) ∧ Reaches world mine { ud := [63], whole := true, guard := 15, illegal := true } := by
  and_intros <;> first | exact clear_of (by decide +kernel) | exact reaches_of (by decide +kernel) | decide +kernel

/-- A value in `q63`. -/
def holding (x : DWord) (h : Cohort) : Cohort := { h with q := [(63, { val := x })] }

/-- A block whose handle 63 is `x`. -/
def handled (x : Handle) (b : Block) : Block := { b with handles := [(63, x)] }

/-- A configuration for `tcfg` with a tag and a layout. -/
def config (tag layout : Nat) : DWord := BitVec.ofNat 64 (tag * 2 ^ 17 + layout * 2 ^ 23 + 0xf0f)

theorem witness_SpecialWriteResults :
    Clear (world (holding 5)) (mine (holding 5)) { us := [63] } ∧ ((mine (holding 5)).h.uq 63).toNat % 8 < 6 ∧
    Clear (world (holding 6)) (mine (holding 6)) { us := [63] } ∧ 6 ≤ ((mine (holding 6)).h.uq 63).toNat % 8 ∧
    Clear world mine { vs := [63], eat := some (mine.eatOne 63 (mine.h.active mine.sp)) } ∧ mine.h.active mine.sp ≠ 0 ∧
    Clear (world masked) (mine masked) { vs := [63], eat := some ((mine masked).eatOne 63 ((mine masked).h.active (mine masked).sp)) } ∧
    (mine masked).h.active (mine masked).sp = 0 ∧ 63 < world.handleCount mine ∧ (∃ bl, world.block? 0 0 = some bl ∧ (Tbl.at bl.handles 63 {}).state = .free) ∧
    (∀ e ∈ [(0x3f, 0), (0x11, 0), (0x11, 4), (0, 0), (0x28, 0)], clearB (world (holding (config e.1 e.2))) (mine (holding (config e.1 e.2))) { us := [63] } = true ∧
      bitsAt ((mine (holding (config e.1 e.2))).h.uq 63) 22 17 = e.1 ∧ bitsAt ((mine (holding (config e.1 e.2))).h.uq 63) 25 23 = e.2) ∧
    Num.goodTag 0x3f = false ∧ Num.goodTag 0x11 = true ∧ Num.goodTag 0 = true ∧ Num.goodTag 0x28 = true ∧
    Clear (world (holding (config 0x11 0)) (handled { state := .resident })) (mine (holding (config 0x11 0))) { us := [63] } ∧
    (∃ bl, (world (holding (config 0x11 0)) (handled { state := .resident })).block? 0 0 = some bl ∧ (Tbl.at bl.handles 63 {}).state = .resident) ∧
    Reaches world mine { us := [63], illegal := true } := by
  and_intros <;> first
    | exact clear_of (by decide +kernel) | exact reaches_of (by decide +kernel) | exact ⟨_, rfl, by decide +kernel⟩ | decide +kernel

theorem witness_UniformResults :
    Clear world mine { us := [63, 63], ud := [63] } ∧ Clear world mine { ud := [63] } ∧ Clear world mine { us := [63], ud := [63] } ∧
    Clear world mine { us := [0, 0], ud := [0] } := by
  and_intros <;> exact clear_of (by decide +kernel)

/-! ## Witnesses: control flow, and faults at issue -/

/-- A cohort with `p1` as a mask. -/
def predicated (m : Mask) (h : Cohort) : Cohort := { h with p := [(1, m)] }

/-- A cohort whose split table is full. -/
def crowded (h : Cohort) : Cohort :=
  { predicated 1 h with splits := (List.range 8).map fun i => (i, { pc := 0x10000, entry := 0xf <<< (4 * i), exec := 0xf <<< (4 * i) }) }

/-- A cohort with `n` live join records. -/
def joined (n : Nat) (h : Cohort) : Cohort := { h with joins := (List.range n).map fun i => (i, { addr := 0x20000 }) }

/-- A context whose debug bit is set. -/
def debugged : State := { world with hub := [(0x100040, 4)] }

theorem witness_BranchResults :
    Clear world mine {} ∧ mine.h.active mine.sp = mine.h.active mine.sp &&& mine.h.guardMask 0 ∧
    (mine.h.active mine.sp &&& mine.h.guardMask 1 = 0) ∧
    Clear (world (predicated 1)) (mine (predicated 1)) {} ∧ (mine (predicated 1)).h.active (mine (predicated 1)).sp &&& (mine (predicated 1)).h.guardMask 1 = 1 ∧
    Tbl.lowestFree (mine (predicated 1)).h.splits 8 = some 1 ∧
    Clear (world crowded) (mine crowded) {} ∧ (mine crowded).h.active (mine crowded).sp &&& (mine crowded).h.guardMask 1 = 1 ∧
    (mine crowded).h.active (mine crowded).sp ≠ 1 ∧ Tbl.lowestFree (mine crowded).h.splits 8 = none ∧
    Clear world mine { ud := [63] } ∧ Clear world mine { us := [63] } ∧ (mine.h.uq 63).getLsbD 0 = false ∧
    Clear (world (holding 5)) (mine (holding 5)) { us := [63] } ∧ ((mine (holding 5)).h.uq 63).getLsbD 0 = true := by
  and_intros <;> first | exact clear_of (by decide +kernel) | decide +kernel

theorem witness_RegionResults :
    Clear (world (joined 15)) (mine (joined 15)) {} ∧ Tbl.lowestFree (mine (joined 15)).h.joins 16 = some 15 ∧ (mine (joined 15)).h.joins.length < 16 ∧
    Clear (world (joined 16)) (mine (joined 16)) {} ∧ 16 ≤ (mine (joined 16)).h.joins.length ∧
    Clear world mine { us := [0] } ∧ Clear (world (holding 5)) (mine (holding 5)) { us := [63] } ∧
    ((mine (holding 5)).h.splits.length = 1 ∧ (mine (holding 5)).h.overflow = [] ∧ ∀ j ∈ Tbl.vals (mine (holding 5)).h.joins, j.arrived = 0) ∧
    Clear (world crowded) (mine crowded) { us := [63] } ∧ ¬ (mine crowded).h.splits.length = 1 := by
  and_intros <;> first | exact clear_of (by decide +kernel) | decide +kernel

/-- A cohort whose split has four lanes, and one join record that awaits some lanes. -/
def four (m : Mask) (h : Cohort) : Cohort :=
  { h with splits := [(0, { pc := 0x10000, entry := 0xf, exec := 0xf })], joins := [(15, { addr := 0x20000, mask := m })] }

theorem witness_StopResults :
    Clear world mine {} ∧ (world.ctx mine.h.asid 0).getLsbD 2 = false ∧ mine.h.ending = false ∧
    Clear debugged mine {} ∧ (debugged.ctx mine.h.asid 0).getLsbD 2 = true ∧ mine.h.alive &&& ~~~(mine.h.active mine.sp) = 0 ∧
    Clear (world crowded) (mine crowded) {} ∧ (mine crowded).h.alive &&& ~~~((mine crowded).h.active (mine crowded).sp) ≠ 0 ∧ (mine crowded).h.joins = [] ∧
    (∀ n ∈ [0xf, 0xff], let m : Mask := BitVec.ofNat 32 n
      clearB (world (four m)) (mine (four m)) {} = true ∧ (mine (four m)).h.joins = [(15, { addr := 0x20000, mask := m })] ∧
        (mine (four m)).h.alive &&& ~~~((mine (four m)).h.active (mine (four m)).sp) ≠ 0) ∧
    (0xf : Mask) &&& ~~~((mine (four 0xf)).h.exited ||| 0xf) = 0 ∧ (0xff : Mask) &&& ~~~((mine (four 0xff)).h.exited ||| 0xf) ≠ 0 := by
  and_intros <;> first | exact clear_of (by decide +kernel) | decide +kernel

/-- A cohort with eight registers. -/
def poor (h : Cohort) : Cohort := { h with budget := 8 }

/-- A block with `n` handles. -/
def fewer (n : Nat) (b : Block) : Block := { b with nHandles := n }

/-- What the use of some operands must find for a fault of a tag that an instruction does not accept: tags that are none's. -/
def soundB (t : Nat) (u : Uses) : Bool :=
  let w := mine (tagged t)
  clearB (world (tagged t)) w u && w.h.vtag 63 == t && w.h.vtag 62 == t && w.h.utag 63 == t

theorem witness_IssueFaults :
    (∀ u ∈ [usesA opV, usesA opQ, usesAcc opV, usesAcc opQ, usesU { a := 63, d := 62, g := 15 }, laneUses [62, 63] [] [63] 0,
        usesCmp { q := 1, b := 63, a := 63, p := 7, c := 7, g := 15 }], soundB 0x10 u = true) ∧
    (∀ u ∈ [uses64 opD, uses64Acc opD, usesU64 { a := 62, d := 62, g := 15 }, usesCmp64 { q := 0, b := 62, a := 62, p := 7, c := 7, g := 15 }], soundB 0x11 u = true) ∧
    Reaches (world poor) (mine poor) (uses64 opD) ∧ (uses64 opD).bad (mine poor).h.budget ((world poor).handleCount (mine poor)) = true ∧
    (∀ u ∈ [({ hs := [8] } : Uses), { fresh := [8] }, { hs := [8], us := [63] }, { fresh := [8], us := [63] }, { hs := [8], acc := 0x08, path := some 1 },
        { hs := [8], us := [63], acc := 0x08, path := some 1 }, { hs := [8, 7], us := [63] }],
      (world id (fewer 8)).heldBack mine u = false) ∧ Reaches (world id (fewer 8)) mine { hs := [8] } ∧
    (world id (fewer 8)).handleCount mine = 8 ∧ ((world id (fewer 8)).myHandle mine 8).state ≠ .nonResident ∧
    Reaches (world poor) (mine poor) (usesA opV) ∧ (usesA opV).bad (mine poor).h.budget ((world poor).handleCount (mine poor)) = true ∧
    Reaches (world (tagged 0x3f)) (mine (tagged 0x3f)) (usesA opV) ∧
    (usesA opV).bad (mine (tagged 0x3f)).h.budget ((world (tagged 0x3f)).handleCount (mine (tagged 0x3f))) = false ∧
    (∃ r ∈ (usesA opV).vs, Num.goodTag ((mine (tagged 0x3f)).h.vtag r) = false) ∧
    Reaches world mine { us := [63], priv := true } ∧ Reaches world mine { priv := true, acc := 0x80 } ∧ mine.h.handler = false ∧
    Reaches world mine { hs := [63] } ∧ 63 < world.handleCount mine ∧ (∃ b, world.block? 0 0 = some b ∧ (Tbl.at b.handles 63 {}).state = .free) ∧
    Reaches (world id (handled { state := .released })) mine { hs := [63] } ∧
    (∃ b, (world id (handled { state := .released })).block? 0 0 = some b ∧ (Tbl.at b.handles 63 {}).state = .released) := by
  and_intros <;> first
    | exact clear_of (by decide +kernel) | exact reaches_of (by decide +kernel) | exact ⟨_, rfl, by decide +kernel⟩ | decide +kernel

/-! ## Witnesses: memory -/

theorem bounds_none {s : State} (h : s.bounds = []) (a va n : Nat) : s.boundsOn a va n = [] := by
  simp [State.boundsOn, State.boundReg, Tbl.at, Tbl.find?, h, BoundReg.armed]

/-- Operands of a load: the last pair with the greatest offset, and a lane's index on the last uniform register. -/
def ldPair (u d : Nat) : OpLd := { o := 31, r := 3, u := u, a := 62, d := d, g := 15 }
def ldIndex (u d : Nat) : OpLd := { o := 63, r := 0, u := u, a := 63, d := d, g := 0 }

/-- The use of a load's operands. -/
def ldUses (o : OpLd) (size : Nat) : Uses :=
  { addrUses o.a o.o with vd := dataRegs o.d size, pairs := (addrUses o.a o.o).pairs ++ dataPairs o.d size, acc := 0x80,
                          path := some (if o.u = 1 then 1 else 0), load := true, whole := false, guard := o.g }

theorem witness_LoadsIssue :
    Clear world mine (ldUses (ldPair 0 63) 4) ∧ Clear world mine (ldUses (ldPair 1 63) 4) ∧ Clear world mine (ldUses (ldIndex 2 62) 8) ∧
    Clear world mine (ldUses (ldIndex 3 62) 8) ∧ (∀ l < 32, (mine.h.pair 62 l + BitVec.ofNat 64 (31 * 4)).toNat % 4 = 0) ∧
    (∀ l < 32, (mine.h.uq 63 + (mine.h.lane 31 l).zeroExtend 64).toNat % 8 = 0) ∧
    Clear world mine { addrUses 62 31 with vd := [63], acc := 0x80, path := some 0, load := true, whole := false, guard := 15 } ∧
    Clear world mine { us := [63], vd := dataRegs 63 4, pairs := dataPairs 63 4, acc := 0x80, path := some 2, load := true, whole := false, guard := 15 } ∧
    Clear world mine { us := [63], vd := dataRegs 62 8, pairs := dataPairs 62 8, acc := 0x80, path := some 2, load := true, whole := false, guard := 15 } ∧
    (mine.h.uq 63 + BitVec.ofNat 64 (63 * 8)).toNat % 8 = 0 ∧
    Clear world mine { us := [63], ud := [63], acc := 0x80, path := some 0, load := true } ∧
    Clear world mine { usesAtom { o := 6, s := 2, t := 7, a := 62, d := 61, g := 15 } with vd := dataRegs 61 4, acc := 0xc0, load := true } ∧
    badAtomTag 7 (mine.h.vtag 61) = false ∧
    Clear world mine { vs := pairOf 62 ++ dataRegs 60 8 ++ dataRegs 62 8, vd := dataRegs 60 8, pairs := [62], quads := [60],
                       whole := false, guard := 15, acc := 0xc0, load := true } ∧
    (∀ va n, world.boundsOn 1 va n = []) := by
  and_intros <;> first | exact clear_of (by decide +kernel) | exact bounds_none rfl 1 | decide +kernel

/-- A load of all lanes from one address. -/
def loadOf (va size dst : Nat) (uniform : Bool) : LoadOp :=
  { seq := 1, word := 0, len := 4, pc := 0x10000, kind := .load, path := 0, reuse := 0, scope := 0, size := size, ext := 0, tag := 0, uniform := uniform, dst := dst
    full := 0, mask := BitVec.allOnes 32, lanes := [{ lane := 0, va := va }, { lane := 31, va := va }], stage := 0, got := [], bad := 0
    split := none, handler := false, code := 0, fva := 0 }

/-- A cohort with that load under way. -/
def loading (x : LoadOp) (h : Cohort) : Cohort := { h with loads := [x] }

/-- The world with a translation that does not permit reads. -/
def unreadable : State :=
  { world with cores := [(0, { world.core 0 with tlb := [{ asid := 1, vpn := 0, bits := 20, ppn := 0, r := false, w := false, x := true, sm := false }] })] }

theorem witness_LoadsProceed :
    world.cohort? 0 0 = some firstCohort ∧ firstCohort.ending = false ∧ firstCohort.leaving = false ∧ firstCohort.loads = [] ∧
    (∀ b ∈ (loadOf 0x100000 4 63 false).lanes, world.find 0 1 (world.gangOf 0 firstCohort) .load b.va = .miss) ∧
    unreadable.cohort? 0 0 = some firstCohort ∧ unreadable.find 0 1 (unreadable.gangOf 0 firstCohort) .load 0xffff8 = .noPage ∧
    (∀ x ∈ [loadOf 0 4 63 false, loadOf 0 8 62 false, loadOf 0 8 63 true],
      (world (loading x)).cohort? 0 0 = some (loading x firstCohort) ∧ (loading x firstCohort).loads.find? (fun y => y.seq == x.seq) = some x ∧
      (loading x firstCohort).ending = false ∧ (loading x firstCohort).absent = [] ∧ x.bad = 0 ∧ x.split = none) := by
  and_intros <;> decide +kernel

/-- The world with bound register 31 of the context armed on all addresses of 4-byte integers from 1 to 2 with action trap. -/
def bounded (f : Cohort → Cohort := id) : State :=
  { world f with bounds := [(63, { d0 := 0x8830000000000000, d1 := 0, d2 := 0x1ffffffffffffff, d3 := 0x0000000200000001 })] }

/-- The use of a store's operands. -/
def stUses (s : State) (w : Who) (o : OpSt) : Uses :=
  let u := addrUses o.a o.o
  let lanes : List LaneAcc := ((List.range 32).filter (inMask (w.h.writing w.sp o.g))).map fun l =>
    { lane := l, va := w.h.laneAddr o.a o.o (2 ^ o.z) l, x := w.h.dataAt o.s (2 ^ o.z) l }
  { u with vs := u.vs ++ dataRegs o.s (2 ^ o.z), pairs := u.pairs ++ dataPairs o.s (2 ^ o.z), guard := o.g,
           acc := s.storeCls w.c w.h.asid (s.gangOf w.c w.h) lanes, store := true }

/-- The use of the operands of a `QST` with its address and its data in `q63`. -/
def qstUses (s : State) (w : Who) : Uses :=
  let a : LaneAcc := { lane := 0, va := (w.h.uq 63 + BitVec.ofNat 64 (63 * 8)).toNat, x := (w.h.uq 63).toNat }
  { us := [63, 63], acc := s.storeCls w.c w.h.asid (s.gangOf w.c w.h) [a], store := true }

/-- The world with translations for a page of a peer's window and for one of an alias window, both in use. -/
def reaching (f : Cohort → Cohort := id) : State :=
  let page (n pa : Nat) : TlbEntry := { asid := 1, vpn := n, bits := 20, ppn := pa / 2 ^ 20, r := true, w := true, x := false, sm := false }
  { (world f).onCore 0 fun co => { co with tlb := co.tlb ++ [page 2 0x800000000000, page 3 0xf10000000000] } with
    hub := [(0x200000, 0x1000000), (0x200008, 1), (0x200010, 1), (0x580000, 0x100000001)], links := [(0, { width := 8 })] }

/-- A word from all lanes at the address in `q63`. -/
def stWord : OpSt := { o := 63, r := 0, z := 2, a := 63, s := 62, g := 0 }

theorem witness_StoresIssue :
    Clear world mine (stUses world mine { o := 31, r := 3, z := 3, a := 62, s := 62, g := 15 }) ∧ Clear world mine (stUses world mine stWord) ∧
    (∀ l < 32, (mine.h.pair 62 l + BitVec.ofNat 64 (31 * 8)).toNat % 8 = 0) ∧
    Clear world mine (qstUses world mine) ∧ (mine.h.uq 63 + BitVec.ofNat 64 (63 * 8)).toNat % 8 = 0 ∧
    Clear world mine { usesAtom { o := 6, s := 2, t := 1, a := 62, d := 63, g := 15 } with acc := 0x40, store := true } ∧
    badAtomTag 1 (mine.h.vtag 63) = false ∧
    Clear world mine { us := [63, 63], acc := 0x40, store := true, rel := some { scope := 2, cls := 0xff } } ∧
    (world.findNow 0 1 (world.gangOf 0 firstCohort) .atomic 0).1 = .ok 0 false ∧ regionOf 0 = .near ∧
    Clear (reaching (holding 0x200000)) (mine (holding 0x200000)) { us := [63, 63], acc := 0x40, store := true, rel := some { scope := 3, cls := 0xff } } ∧
    (reaching.findNow 0 1 (reaching.gangOf 0 firstCohort) .atomic 0x200000).1 = .ok 0x800000000000 false ∧ regionOf 0x800000000000 = .peer 0 0 ∧
    Clear (reaching (holding 0x300000)) (mine (holding 0x300000)) (stUses (reaching (holding 0x300000)) (mine (holding 0x300000)) stWord) ∧
    (stUses (reaching (holding 0x300000)) (mine (holding 0x300000)) stWord).acc = 1 ∧ (∀ va n, world.boundsOn 1 va n = []) ∧
    Clear (world (holding 5)) (mine (holding 5)) (stUses (world (holding 5)) (mine (holding 5)) stWord) ∧ inMask ((mine (holding 5)).h.writing (mine (holding 5)).sp 0) 0 = true ∧
    (mine (holding 5)).h.laneAddr 63 63 4 0 % 4 ≠ 0 ∧
    Clear bounded mine (stUses bounded mine stWord) ∧ (∀ j, j < 32 → inMask (mine.h.writing mine.sp 0) j = true → mine.h.laneAddr 63 63 4 j % 4 = 0) ∧
    bounded.boundTrap 1 4 false (((List.range 32).filter (inMask (mine.h.writing mine.sp 0))).map fun l =>
      { lane := l, va := mine.h.laneAddr 63 63 4 l, x := mine.h.dataAt 62 4 l }) = some { lane := 0, va := 0, x := 0 } := by
  and_intros <;> first | exact clear_of (by decide +kernel) | exact bounds_none rfl 1 | decide +kernel

theorem witness_PerformResults :
    world.mem.wf = true ∧ isHomed 0x200010000 = true ∧ 0x200010000 % 8 = 0 ∧ Tbl.find? world.shadows (0x200010000 / 128) = none ∧
    world.poisoned 0x200010000 8 = false ∧ world.poisoned 0x200010000 (typeSize 0) = false ∧ world.poisoned 0x200010000 (typeSize 3) = false ∧ 0xffffffff < 256 ^ typeSize 0 ∧
    2 ^ 64 - 1 < 256 ^ typeSize 3 ∧ ([1, 2] : List Byte) ≠ [] ∧ Tbl.find? world.shadows ((0x200010000 + 2 - 1) / 128) = none := by
  and_intros <;> decide +kernel

/-! ## Witnesses: fences, barriers, monitors and channels -/

/-- A store in the queue. -/
def aStore : StoreOp :=
  { seq := 1, word := 0, len := 4, pc := 0x10000, kind := .store, scope := 0, size := 4, mask := 1, lanes := [{ lane := 0, va := 0 }], handler := false }

/-- A cohort with a store that has not left its queue. -/
def storing (h : Cohort) : Cohort := { holding 5 h with stores := [aStore] }

theorem witness_FenceResults :
    Clear world mine {} ∧ Clear world mine { us := [63, 63], acc := 0x40 } ∧ mine.h.stores = [] ∧ mine.h.uq 63 = 0 ∧
    Clear (world (holding 5)) (mine (holding 5)) { us := [63, 63], acc := 0x40 } ∧ (mine (holding 5)).h.stores = [] ∧ (mine (holding 5)).h.uq 63 ≠ 0 ∧
    Clear (world storing) (mine storing) { us := [63, 63], acc := 0x40 } ∧ (mine storing).h.stores ≠ [] ∧
    Clear world mine { us := [63, 63], acc := 0xc0 } ∧ Clear (world (holding 5)) (mine (holding 5)) { us := [63, 63], acc := 0xc0 } ∧
    (((world (holding 5)).onward (mine (holding 5))).rangeFrames 0 1 5 10 = []) ∧
    Clear (world storing) (mine storing) { us := [63, 63], acc := 0xc0 } := by
  and_intros <;> first | exact clear_of (by decide +kernel) | decide +kernel

/-- A cohort whose lanes have arrived at barrier 15 and at gang barrier 1, in the phase `b`. -/
def arrived (b : Bool) (h : Cohort) : Cohort :=
  { h with barLanes := [(15, BitVec.allOnes 32)], barPhase := [(15, b)], gbarLanes := [(1, BitVec.allOnes 32)], gbarPhase := [(1, b)] }

/-- A cohort whose split waits again, its lanes marked to arrive again or not. -/
def waited (b : Bool) (m : Mask := 0) (h : Cohort) : Cohort :=
  { h with rearrive := [(15, m), (17, m)], barPhase := [(15, b)], gbarPhase := [(1, b)],
           splits := [(0, { pc := 0x10000, entry := BitVec.allOnes 32, exec := BitVec.allOnes 32, rewait := true })] }

theorem witness_BarrierResults :
    (∃ bl, world.block? 0 0 = some bl ∧ (Tbl.at bl.bars 15 {}).phase = false) ∧ (world.myGangBar mine 1).phase = false ∧
    Clear world mine { us := [63], rel := some { scope := 0, cls := 0xc0, by_ := BitVec.allOnes 32, near := true } } ∧ Clear world mine { us := [63], rel := some { scope := 2, cls := 0xc0, by_ := BitVec.allOnes 32 } } ∧ mine.sp.rewait = false ∧
    Tbl.has mine.h.barLanes 15 = false ∧ Tbl.has mine.h.gbarLanes 1 = false ∧
    Clear (world (arrived false)) (mine (arrived false)) { us := [63], rel := some { scope := 0, cls := 0xc0, by_ := BitVec.allOnes 32, near := true } } ∧
    Clear (world (arrived false)) (mine (arrived false)) { us := [63], rel := some { scope := 2, cls := 0xc0, by_ := BitVec.allOnes 32 } } ∧ (mine (arrived false)).sp.rewait = false ∧
    (Tbl.has (mine (arrived false)).h.barLanes 15 = true ∧ (mine (arrived false)).sp.entry &&& ~~~(Tbl.at (mine (arrived false)).h.barLanes 15 0) = 0) ∧
    (Tbl.has (mine (arrived false)).h.gbarLanes 1 = true ∧ (mine (arrived false)).sp.entry &&& ~~~(Tbl.at (mine (arrived false)).h.gbarLanes 1 0) = 0) ∧
    Clear (world (waited true 0)) (mine (waited true 0)) { us := [63], rel := some { scope := 0, cls := 0xc0, by_ := BitVec.allOnes 32, near := true } } ∧ (mine (waited true 0)).sp.rewait = true ∧
    Tbl.at (mine (waited true 0)).h.barPhase 15 false = true ∧
    Clear (world (waited true 0)) (mine (waited true 0)) { us := [63], rel := some { scope := 2, cls := 0xc0, by_ := BitVec.allOnes 32 } } ∧ Tbl.at (mine (waited true 0)).h.gbarPhase 1 false = true ∧
    Clear (world (waited false 0)) (mine (waited false 0)) { us := [63], rel := some { scope := 0, cls := 0xc0, by_ := BitVec.allOnes 32, near := true } } ∧
    Clear (world (waited false 0)) (mine (waited false 0)) { us := [63], rel := some { scope := 2, cls := 0xc0, by_ := BitVec.allOnes 32 } } ∧ (mine (waited false 0)).sp.rewait = true ∧
    Clear (world (waited true 1)) (mine (waited true 1)) { us := [63], rel := some { scope := 0, cls := 0xc0, by_ := BitVec.allOnes 32, near := true } } ∧
    Clear (world (waited true 1)) (mine (waited true 1)) { us := [63], rel := some { scope := 2, cls := 0xc0, by_ := BitVec.allOnes 32 } } ∧
    (∀ n ∈ [15, 17], Tbl.at (mine (waited true 1)).h.rearrive n 0 &&& (mine (waited true 1)).sp.entry ≠ 0) ∧
    (∀ n ∈ [15, 17], Tbl.at (mine (waited true 0)).h.rearrive n 0 &&& (mine (waited true 0)).sp.entry = 0) ∧
    mine.h.alive &&& ~~~(Tbl.at mine.h.barLanes 15 0 ||| mine.sp.entry) = 0 ∧ mine.h.cohortid < 64 ∧
    (∃ bl, world.block? 0 0 = some bl ∧ mine.h.cohortid ∉ (Tbl.at bl.bars 15 {}).who ∧ (Tbl.at bl.bars 15 {}).queue = []) ∧
    Clear world mine { us := [63] } ∧ Clear (world (waited true 0)) (mine (waited true 0)) { us := [63] } := by
  and_intros <;> first | exact clear_of (by decide +kernel) | exact ⟨_, rfl, by decide +kernel⟩ | decide +kernel

/-- The state in which 256 monitors are armed on the slice of that address. -/
def watched : State :=
  { world with monitors := (List.range 256).map fun i => (i + 2, { id := i + 2, addr := 0, wide := false, cond := 0, cmp := 1, uid := 9 }), nextId := 300 }

theorem witness_MonitorResults :
    Clear (world (holding 5)) (mine (holding 5)) { us := [63, 0], acc := 0x80, path := some 0 } ∧ ((mine (holding 5)).h.uq 63).toNat % 4 ≠ 0 ∧
    Clear world mine { us := [63, 0], acc := 0x80, path := some 0 } ∧ world.find 0 1 (world.gangOf 0 firstCohort) .load 0 = .ok 0 false ∧ isHomed 0 = true ∧
    Tbl.find? world.shadows 0 = none ∧ world.poisoned 0 8 = false ∧ Mem.rdN world.mem 0 8 = 0 ∧ mine.h.stores = [] ∧ world.accs = [] ∧ world.readReady (0 / 128) = true ∧
    world.armedAt (homeOf 0) < 256 ∧
    Clear watched mine { us := [63, 0], acc := 0x80, path := some 0 } ∧ watched.find 0 1 (watched.gangOf 0 firstCohort) .load 0 = .ok 0 false ∧
    256 ≤ watched.armedAt (homeOf 0) := by
  and_intros <;> first | exact clear_of (by decide +kernel) | decide +kernel

/-- The world with a channel between its block and itself that it sends on as channel 15 and receives on as channel 14. -/
def channelled (x : Chan) : State :=
  { world id (fun b => { b with sends := [(15, 7)], recvs := [(14, 7)] }) with chans := [(7, x)] }

def chanFull : Chan := { sender := (0, 0), receiver := (0, 0), slots := 1, size := 256, free := 0, full := [(List.replicate 256 1, [0x11, 0x11])] }
def chanFree : Chan := { sender := (0, 0), receiver := (0, 0), slots := 1, size := 128, free := 1 }

theorem witness_ChannelResults :
    (∀ x ∈ [chanFull, chanFree], (channelled x).chan 7 = x ∧
      ∃ bl, (channelled x).block? 0 0 = some bl ∧ Tbl.find? bl.sends 15 = some 7 ∧ Tbl.find? bl.recvs 14 = some 7 ∧ Tbl.find? bl.sends 14 = none ∧
        Tbl.find? bl.sends 13 = none ∧ Tbl.find? bl.recvs 13 = none) ∧
    Clear (channelled chanFull) mine { vs := [62, 63], pairs := [62], rel := some { scope := 2, cls := 0xff } } ∧ chanFull.free = 0 ∧
    Clear (channelled chanFree) mine { vs := [62, 63], pairs := [62], rel := some { scope := 2, cls := 0xff } } ∧ chanFree.free ≠ 0 ∧
    Clear (channelled chanFree) mine { vd := [63] } ∧ chanFree.full = [] ∧ Clear (channelled chanFull) mine { vd := [63] } ∧
    Clear (channelled chanFull) mine { vd := [62, 63], pairs := [62] } ∧ Clear (channelled chanFull) mine { ud := [63] } ∧
    Reaches (channelled chanFull) mine { ud := [63], illegal := true } := by
  refine ⟨?_, ?_⟩
  · intro x hx
    simp only [List.mem_cons, List.not_mem_nil, or_false] at hx
    rcases hx with rfl | rfl <;> exact ⟨by decide +kernel, _, rfl, by decide +kernel⟩
  and_intros <;> first | exact clear_of (by decide +kernel) | exact reaches_of (by decide +kernel) | decide +kernel

/-! ## Witnesses: tiles, accumulators and queues -/

/-- Handle 63 with a tile of 16 by 16 elements. -/
def tile (st : HState) (tag : Nat := 0x11) : Handle := { state := st, tag := tag, cols := 15, rows := 15, frames := if st = .free ∨ st = .nonResident then 0 else 2 }

/-- The world in which handle 63 is that one. -/
def tiled (x : Handle) : State := world id (handled x)

/-- A transfer of a tile under way. -/
def aTransfer (write evict : Bool) : Transfer :=
  { write := write, va := 0, seq := 0, uid := 1, word := 0, pc := 0x10000, evict := evict, applyLog := true, held := false }

/-- The use of one handle, or of one that is set up, with and without an address in `q63`. -/
def useH : Uses := { hs := [63] }
def useHA : Uses := { hs := [63], us := [63] }
def useF : Uses := { fresh := [63] }
def useFA : Uses := { fresh := [63], us := [63] }

theorem witness_HandleResults :
    (∀ x ∈ [tile .free, tile .resident, tile .bound, tile .nonResident, { tile .bound with writes := [aTransfer true true] }, { tile .bound with owner := 1 },
        { tile .filling with fill := some (aTransfer false false) }, tile .bound 0x3f],
      (tiled x).bankWaiters = [] ∧ (∃ bl, (tiled x).block? 0 0 = some bl ∧ Tbl.at bl.handles 63 {} = x) ∧ ((tiled x).core 0).frameWaits = []) ∧
    Clear (tiled (tile .free)) mine useF ∧ (tile .free).tag ≠ 0 ∧ (tile .free).shape.frames ≤ 256 ∧
    ((tiled (tile .free)).core 0).frameRun (tile .free).shape.frames = some 0 ∧
    Clear (tiled (tile .resident)) mine useF ∧ (tile .resident).owner = mine.h.cohortid ∧
    Clear (tiled { tile .bound with owner := 1 }) mine useH ∧ 1 ≠ mine.h.cohortid ∧
    Clear (tiled (tile .bound)) mine useH ∧ (tile .bound).fill = none ∧ (tile .bound).writes = [] ∧
    (∀ m ∈ ((tiled (tile .bound)).core 0).mats, m.slot = 0 → m.ha ≠ 63 ∧ m.hb ≠ 63) ∧
    Clear (tiled { tile .filling with fill := some (aTransfer false false) }) mine useH ∧
    Clear (tiled (tile .bound)) mine useHA ∧ (mine.h.uq 63).toNat < 32 ∧ (∃ bl, (tiled (tile .bound)).block? 0 0 = some bl ∧ (mine.h.uq 63).toNat ∈ bl.live) ∧
    Clear (tiled (tile .resident)) mine useFA ∧ Clear (tiled (tile .free)) mine useFA ∧ (mine.h.uq 63).toNat % 16 = 0 ∧
    (∀ x ∈ [tile .nonResident, tile .bound, tile .resident, { tile .bound with writes := [aTransfer true true] }, tile .bound 0x3f],
      clearB (tiled x) mine { useH with acc := 8, path := some 1 } = true ∧ clearB (tiled x) mine { useH with acc := 4 } = true ∧
      clearB (tiled x) mine { useHA with acc := 8, path := some 1 } = true ∧ clearB (tiled x) mine { useHA with acc := 4 } = true) ∧
    ((tiled (tile .nonResident)).core 0).frameRun (tile .nonResident).shape.frames = some 0 ∧ Num.goodTag 0x11 = true ∧ Num.goodTag 0x3f = false ∧
    (∃ t ∈ [aTransfer true true], t.evict = true ∧ t.held = false) := by
  and_intros <;> first | exact clear_of (by decide +kernel) | exact ⟨_, rfl, by decide +kernel⟩ | (intro x hx; simp only [List.mem_cons, List.not_mem_nil, or_false] at hx; rcases hx with rfl | rfl | rfl | rfl | rfl | rfl | rfl | rfl <;> exact ⟨by decide +kernel, ⟨_, rfl, by decide +kernel⟩, by decide +kernel⟩) | decide +kernel

theorem getD_false {l : List Bool} (h : l.all (!·) = true) (i : Nat) : l.getD i false = false := by
  simp only [List.all_eq_true, Bool.not_eq_true'] at h
  rw [List.getD_eq_getElem?_getD]
  rcases hi : l[i]? with _ | b
  · rfl
  · exact h b (List.mem_of_getElem? hi)

theorem sound_of {x : TImg} (h : (x.bad.all (!·) && x.ebad.all (!·)) = true) (i : Nat) : x.isBad i = false := by
  rw [Bool.and_eq_true] at h
  rw [TImg.isBad, getD_false h.1, getD_false h.2]; rfl

/-- A line of handle 63 named by `q63`, by rows and by columns. -/
def line (c : Nat) : OpTget := { b := 63, a := 63, d := 63, c := c }
def linePair (c : Nat) : OpTget := { b := 63, a := 62, d := 63, c := c }

theorem witness_TileLineResults :
    (∃ bl, (tiled (tile .resident)).block? 0 0 = some bl ∧ Tbl.find? bl.handles 63 = some (tile .resident)) ∧
    Clear (tiled (tile .resident)) mine useH ∧ (tile .resident).owner = mine.h.cohortid ∧ (tile .resident).writes = [] ∧
    ((tiled (tile .resident)).core 0).mats = [] ∧
    Clear (tiled (tile .resident)) mine { useHA with vd := tagRegs 0x11 63, pairs := if Num.wideTag 0x11 then [63] else [], whole := false } ∧
    Clear (tiled (tile .resident 0x10)) mine { useHA with vd := tagRegs 0x10 62, pairs := if Num.wideTag 0x10 then [62] else [], whole := false } ∧
    (∀ t ∈ [0x11, 0x10], Num.goodTag t = true ∧ (∀ col, (lineOf (tile .resident t).shape col (mine.h.uq 63).toNat).2.2 = false) ∧
      ∀ i, ((tiled (tile .resident t)).tileImg 0 (tile .resident t)).isBad i = false) ∧
    (tile .resident).fill = none ∧
    Clear (tiled (tile .resident)) mine { useHA with vs := tagRegs 0x11 63, pairs := if Num.wideTag 0x11 then [63] else [], whole := false } ∧
    Clear (tiled (tile .resident 0x10)) mine { useHA with vs := tagRegs 0x10 62, pairs := if Num.wideTag 0x10 then [62] else [], whole := false } ∧
    mine.h.vtag 63 = 0 ∧
    Clear (tiled (tile .resident 0x3f)) mine { useHA with vs := tagRegs 0x3f 63, pairs := if Num.wideTag 0x3f then [63] else [], whole := false } ∧
    Num.goodTag 0x3f = false ∧ (line 1).a = 63 ∧ (linePair 1).a = 62 ∧ (tiled (tile .resident)).mem.wf = true ∧
    (tile .resident).frame * 4096 + (tile .resident).shape.bytes ≤ 0x100000 := by
  and_intros <;> first
    | exact clear_of (by decide +kernel)
    | exact ⟨_, rfl, by decide +kernel⟩
    | (intro t ht; simp only [List.mem_cons, List.not_mem_nil, or_false] at ht
       rcases ht with rfl | rfl <;> exact ⟨by decide +kernel, by decide +kernel, sound_of (by decide +kernel)⟩)
    | decide +kernel

/-- The operands of a loggable operation in place on handle 63, with its scalar in `q63`. -/
def inPlace : OpT := { b := 63, a := 63, d := 63 }
def convert (t : Nat) : OpTcvt := { t := t, a := 63, d := 63, s := 1, r := 5 }

/-- The world in which handles 62 and 63 are those, in frames of their own. -/
def tiles (x y : Handle) : State := world id fun b => { b with handles := [(62, x), (63, { y with frame := 2 })] }

theorem witness_TileOperationResults :
    inPlace.a = inPlace.d ∧ (convert 0x12).a = (convert 0x12).d ∧
    (∀ x ∈ [tile .nonResident, tile .resident, tile .bound, tile .resident 0x3f, tile .resident 0], clearB (tiled x) mine { hs := [63, 63], us := [63] } = true ∧
      clearB (tiled x) mine useHA = true ∧ clearB (tiled x) mine { useHA with us := [63, 63] } = true ∧ clearB (tiled x) mine { hs := [63, 63] } = true) ∧
    (∀ k ∈ [0, 1, 2, 4], opAccepts k 0x11 = true ∧ badScalar k 0x11 (mine.h.utag 63) = false ∧ opAccepts k 0 = false) ∧
    badClamp 0x11 (mine.h.uq 63).toNat = false ∧ Num.goodTag 0x11 = true ∧ Num.goodTag 0x3f = false ∧ (tile .resident).owner = mine.h.cohortid ∧
    (tile .nonResident).writes = [] ∧ ((tiled (tile .nonResident)).core 0).mats = [] ∧ ((tiled (tile .nonResident)).core 0).frameWaits = [] ∧
    (∃ l, appendLog (tile .nonResident).shape [] { op := 0, tag := 0x11 } (decide (((tiled (tile .nonResident)).core 0).logUsed < 512)) = some l) ∧
    (mine.h.uq 63).toNat < 2 ^ 37 ∧ (tile .resident).shape.holds ((tile .resident).shape.region (mine.h.uq 63).toNat) = true ∧
    Num.goodTag 0x12 = true ∧ cvtFrames (convert 0x12) (tile .resident) ≤ (tile .resident).frames ∧
    (tile .resident).fill = none ∧ (tile .resident).shape.frames ≤ (tile .resident).frames ∧
    (tile .resident).frame * 4096 + (tile .resident).shape.frames * 4096 ≤ 0x100000 ∧
    ((tiled (tile .resident)).mem.wf = true ∧ (tiled (tile .resident)).bankWaiters = []) ∧
    (∀ t ∈ [0x11, 0x12], let s := tiles (tile .resident) (tile .resident t)
      clearB s mine { hs := [63, 62], us := [63] } = true ∧ clearB s mine { hs := [63, 62] } = true ∧ (s.core 0).mats = [] ∧ s.mem.wf = true ∧ s.bankWaiters = []) ∧
    (tile .resident).shape = ({ tile .resident with frame := 2 } : Handle).shape ∧ (tile .resident).shape ≠ (tile .resident 0x12).shape ∧
    2 * 4096 + (tile .resident).shape.frames * 4096 ≤ 0x100000 ∧
    (tile .resident 0x12).shape = { (tile .resident).shape with tag := 0x12, layout := cvtLayout (tile .resident).layout 0x11 0x12 } ∧
    (tile .resident).shape ≠ { (tile .resident).shape with tag := 0x12, layout := cvtLayout (tile .resident).layout 0x11 0x12 } := by
  and_intros <;> first | exact ⟨_, rfl⟩ | decide +kernel

/-- A grant of two banks, all of the block's from bank 14 on, on the core of the world, its word in `q63`. -/
def aGrant (n base : Nat) (ty : Nat := 0) : Grant := { slot := 0, serial := 1, count := n, base := base, ty := ty }
def grantWord (g : Grant) : DWord := BitVec.ofNat 64 (g.slot * 2 ^ 32 + g.serial * 2 ^ 16 + g.count * 16 + g.base)
def granted (g : Grant) (b : Block → Block := id) : State :=
  (world (holding (grantWord g)) b).onCore 0 fun co => { co with grants := [g], grantSerial := 2 }

theorem witness_GrantResults :
    (∃ bl, (granted (aGrant 2 14)).block? 0 0 = some bl ∧ bl.accBase = 0 ∧ bl.accN = 16) ∧
    Clear (granted (aGrant 2 14)) (mine (holding (grantWord (aGrant 2 14)))) { ud := [63] } ∧ 16 < 17 ∧
    ((granted (aGrant 2 14)).core 0).bankRun 0 16 15 = none ∧ ((granted (aGrant 2 14)).core 0).bankRun 0 16 14 = some 0 ∧
    Clear (granted (aGrant 2 14)) (mine (holding (grantWord (aGrant 2 14)))) { us := [63] } ∧
    (granted (aGrant 2 14)).grantOf (mine (holding (grantWord (aGrant 2 14)))) 63 = some (aGrant 2 14) ∧
    Clear (granted (aGrant 2 14)) (mine (holding (grantWord (aGrant 2 14)))) { us := [0] } ∧
    (granted (aGrant 2 14)).grantOf (mine (holding (grantWord (aGrant 2 14)))) 0 = none ∧
    ((granted (aGrant 2 14)).core 0).mats = [] ∧ ((granted (aGrant 2 14)).core 1).mats = [] := by
  and_intros <;> first | exact clear_of (by decide +kernel) | exact ⟨_, rfl, by decide +kernel⟩ | decide +kernel

/-- A block in which handles 62 and 63 are tiles of a type, the second with some columns. -/
def tilePair (tag cols : Nat) (b : Block) : Block :=
  { b with handles := [(62, tile .resident tag), (63, { tile .resident tag with cols := cols, frames := 4 })] }

/-- A grant with its tiles, and the cohort with the grant's word. -/
def multiplying (n tag cols ty : Nat) : State := granted (aGrant n 0 ty) (tilePair tag cols)
def multiplier (n ty : Nat) : Who := mine (holding (grantWord (aGrant n 0 ty)))
def operands : OpT := { b := 63, a := 62, d := 63 }

/-- An epilogue read without scale or bias: of the grant's first elements to lanes tagged fp32, and to the tile of handle 62. -/
def readOut (n tag : Nat) (h : Cohort) : Cohort :=
  { h with q := [(62, { val := BitVec.ofNat 64 (tag * 2 ^ 32 + 0x3f800000) }), (63, { val := grantWord (aGrant n 0 1) })] }
def reading (n tag : Nat) : State :=
  (world (readOut n tag) (tilePair 0x11 15)).onCore 0 fun co => { co with grants := [aGrant n 0 1], grantSerial := 2 }
def epilogue (l d : Nat) : OpAcrd := { b := 62, a := 63, d := d, l := l, r := 0 }

theorem witness_MatrixResults :
    (∀ e ∈ [(4, 0x11, 15, 0), (4, 3, 255, 2), (8, 0x12, 511, 1)],
      let s := multiplying e.1 e.2.1 e.2.2.1 e.2.2.2
      let w := multiplier e.1 e.2.2.2
      clearB s w { hs := [62, 63], us := [63] } = true ∧ s.grantOf w 63 = some (aGrant e.1 0 e.2.2.2) ∧ Num.goodTag e.2.1 = true ∧ (s.core 1).mats = []) ∧
    (∀ e ∈ [(0x11, 15, 1), (0x12, 511, 1)], pairType (tile .resident e.1).shape { (tile .resident e.1).shape with cols := e.2.1 + 1 } = some e.2.2) ∧
    pairType (tile .resident 1).shape (tile .resident 1).shape = some 2 ∧ (tile .resident).shape.cols = 16 ∧ (tile .resident).shape.rows = 16 ∧
    Clear (multiplying 4 0x11 15 0) (multiplier 4 0) { hs := [62], us := [63] } ∧ Clear (multiplying 4 3 15 2) (multiplier 4 2) { hs := [62], us := [63] } ∧
    (tile .resident).layout < 2 ∧ (aGrant 4 0).holds 16 16 = true ∧ ((multiplying 4 0x11 15 0).core 0).mats = [] ∧
    acrdCheck (epilogue 1 63) (mine (readOut 4 0x11)) (reading 4 0x11) = none ∧ acrdHold (epilogue 1 63) (mine (readOut 4 0x11)) (reading 4 0x11) = none ∧
    Clear (reading 4 0x11) (mine (readOut 4 0x11)) { us := [63, 62], vd := [63], whole := false } ∧
    acrdCheck (epilogue 0 62) (mine (readOut 4 0)) (reading 4 0) = none ∧ acrdHold (epilogue 0 62) (mine (readOut 4 0)) (reading 4 0) = none ∧
    Clear (reading 4 0) (mine (readOut 4 0)) { hs := [62], us := [63, 62], whole := true } ∧ (tile .resident).bchk = false ∧
    (reading 4 0x28).grantOf (mine (readOut 4 0x28)) 63 = some (aGrant 4 0 1) ∧ (reading 4 0).grantOf (mine (readOut 4 0)) 63 = some (aGrant 4 0 1) ∧
    (reading 4 0x11).grantOf (mine (readOut 4 0x11)) 63 = some (aGrant 4 0 1) ∧
    acrdCheck (epilogue 1 63) (mine (readOut 4 0x28)) (reading 4 0x28) = none ∧ acrdHold (epilogue 1 63) (mine (readOut 4 0x28)) (reading 4 0x28) = none ∧
    Clear (reading 4 0x28) (mine (readOut 4 0x28)) { us := [63, 62], vd := [63], whole := false } ∧ (reading 4 0x28).accPoison = [] ∧
    (reading 4 0x11).accPoison = [] ∧ ((mine (readOut 4 0x28)).h.uq 62).getLsbD 44 = false ∧ ((mine (readOut 4 0x28)).h.uq 62).getLsbD 51 = false ∧
    (reading 4 0).mem.wf = true ∧ (tile .resident).frame * 4096 + (tile .resident).shape.bytes ≤ 0x100000 := by
  and_intros <;> first | exact clear_of (by decide +kernel) | decide +kernel

/-- The world whose stage has a work queue of two items, with `q` in it. -/
def queued (q : List DWord) (f : Cohort → Cohort := id) : State :=
  { world f with launches := [(1, { firstLaunch with stages := firstLaunch.stages.map fun y => { y with qlog := 1, queue := q }, quiet := true })] }

/-- The world with eight chains on each engine of its core. -/
def chained : State :=
  let x : Chain := { block := 0, uid := 9, slot := 1, pc := 0, word := 0, asid := 1, seq := 0, head := 0, off := 0 }
  let e : Engine := { chains := (List.range 8).map fun k => (k, x) }
  world.onCore 0 fun co => { co with copyEng := e, gatherEng := e }

theorem witness_QueueResults :
    (∃ bl, world.block? 0 0 = some bl ∧ (mine.h.uq 63).toNat + 32 ≤ bl.size) ∧ (mine.h.uq 63).toNat % 32 = 0 ∧
    (∃ l, Tbl.find? world.launches mine.h.launch = some l) ∧
    (∀ m ∈ [0x30, 0x02], clearB world mine { us := [63], acc := m } = true ∧ clearB chained mine { us := [63], acc := m } = true ∧
      clearB (world (holding 33)) (mine (holding 33)) { us := [63], acc := m } = true) ∧
    (∀ e ∈ [0, 1], Tbl.lowestFree ((world.core 0).eng e).chains 8 = some 0 ∧ Tbl.lowestFree ((chained.core 0).eng e).chains 8 = none) ∧ 33 % 32 ≠ 0 ∧
    Clear (queued [1, 2]) mine { us := [63], rel := some { scope := 2, cls := 0xff } } ∧ Clear (queued [1]) mine { us := [63], rel := some { scope := 2, cls := 0xff } } ∧
    (∀ q ∈ [[1, 2], [1], []], ∃ l st, Tbl.find? (queued q).launches 1 = some l ∧ l.stages[0]? = some st ∧ st.queue = q ∧ st.qlog = 1 ∧ l.quiet = true) ∧
    Clear (queued [1, 2]) mine { ud := [63] } ∧ Clear (queued []) mine { ud := [63] } ∧ Clear (queued []) mine {} ∧ mine.h.stage = 0 := by
  and_intros <;> first
    | exact clear_of (by decide +kernel) | exact ⟨_, rfl, by decide +kernel⟩ | exact ⟨_, rfl⟩
    | (intro q hq; simp only [List.mem_cons, List.not_mem_nil, or_false] at hq; rcases hq with rfl | rfl | rfl <;> exact ⟨_, _, rfl, rfl, by decide +kernel⟩)
    | decide +kernel

/-! ## Witnesses: control registers, launches from a program, and traps -/

/-- A cohort in its handler, with the sticky flags of `CSTAT` and its armed region. -/
def handling (x : DWord := 0) (h : Cohort) : Cohort :=
  { holding x h with handler := true, refused := true, mismatch := true,
                     bisque := some { addr := 0x20000, seq := 0, mask := 1, regs := [], preds := [], exec := 0, frm := 0, dph := 0 } }

/-- The world with that cohort, a launch that has one bound register, and an access that has performed or not. -/
def controlled (stage : Nat) : State :=
  let a : Access := { core := 0, uid := 9, seq := 0, kind := .load, scope := 0, size := 4, path := 0, reuse := 0, lanes := [], data := [], stage := stage, pix := 0 }
  { world handling with accs := [(7, a)], launches := [(1, { firstLaunch with nbound := 1, btab := 0x8000 })] }

theorem witness_ControlRegisterResults :
    (∀ n ∈ [0, 1, 2, 3, 4, 5, 0x100, 0x17f], clearB (world handling) (mine handling) { ud := [63], priv := true, illegal := !csrExists n } = true) ∧
    mine.h.bisque = none ∧ (∃ b, (mine handling).h.bisque = some b) ∧
    (∀ u ∈ [({ ud := [63], priv := true, illegal := true } : Uses), { us := [63], priv := true, illegal := true }], Reaches (world handling) (mine handling) u) ∧
    (∀ n ∈ [3, 4, 0x100, 0x103, 0x17f], clearB (controlled 1) (mine handling) (csrwUses n 63) = true ∧ clearB (controlled 0) (mine handling) (csrwUses n 63) = true) ∧
    (∀ e ∈ (controlled 1).accs, e.2.stage ≠ 0) ∧ (∃ e ∈ (controlled 0).accs, e.2.stage = 0) ∧ 0x100 % 4 = 0 ∧ 0x103 % 4 ≠ 0 ∧
    (∃ l, Tbl.find? (controlled 0).launches (mine handling).h.launch = some l ∧ l.btab ≠ 0 ∧ (0x100 - 0x100) / 4 < l.nbound ∧ l.nbound ≤ (0x17c - 0x100) / 4) := by
  and_intros <;> first
    | exact ⟨_, rfl, by decide +kernel⟩ | exact ⟨_, rfl⟩
    | (intro u hu; simp only [List.mem_cons, List.not_mem_nil, or_false] at hu; rcases hu with rfl | rfl <;> exact reaches_of (by decide +kernel))
    | decide +kernel

/-- A stopped cohort, and the world in which its context has a handler. -/
def stopped (h : Cohort) : Cohort := { h with stopped := true, cause := some { code := 16, pc := 0x10000, word := 0x63, addr := 7 } }
def trapping (f : Cohort → Cohort) : State := { world f with ev := [0, 0], hub := [(0x100050, 0x10000)] }

/-- A frame that holds one split. -/
def framed : State := (world handling).poke 0x102100 (splitBytes mine.sp)

/-- A frame with a reserved word set. -/
def misframed : State := { world handling with mem := [(0x108030, 1)] }

theorem witness_SystemInstructionResults :
    Clear world mine { us := [63], rel := some { scope := 2, cls := 0xff } } ∧
    Clear (world (holding 5)) (mine (holding 5)) { us := [63], rel := some { scope := 2, cls := 0xff } } ∧ ((mine (holding 5)).h.uq 63).toNat % 256 ≠ 0 ∧
    Clear (world handling) (mine handling) { us := [63], priv := true } ∧
    (∃ l, Tbl.find? (world handling).launches 1 = some l ∧ l.cdest = ((mine handling).h.uq 63).toNat ∧
      ((world handling).onward (mine handling)).launchOver 1 l = false) ∧
    Clear (world (handling 5)) (mine (handling 5)) { us := [63], priv := true } ∧
    (∀ e ∈ (world (handling 5)).launches, e.2.cdest ≠ ((mine (handling 5)).h.uq 63).toNat) ∧
    Clear misframed (mine handling) { priv := true, acc := 0x80 } ∧ misframed.refusesTret (mine handling).h = true ∧
    Clear framed (mine handling) { priv := true, acc := 0x80 } ∧ framed.refusesTret (mine handling).h = false ∧
    framed.peekN ((mine handling).h.image + 0x8020) 8 = 0 ∧ framed.peekN ((mine handling).h.image + 0x8028) 8 = 0 ∧ (mine handling).h.late = [] ∧
    (mine handling).h.wake.getLsbD 1 = false ∧ (∀ e, e < 2 → ∀ x ∈ ((framed.core 0).eng e).chains, x.2.faulted = false) ∧ framed.waiting = [] ∧
    (readSplit (framed.peekN 0x102100 32)).isSome = true ∧ (∀ j, j < 16 → readJoin (framed.peekN ((mine handling).h.image + 0x2400 + 32 * j) 32) = none) := by
  and_intros <;> first | exact clear_of (by decide +kernel) | exact ⟨_, rfl, by decide +kernel⟩ | decide +kernel

theorem homed_of {a : Nat} (h : a < nearEnd) : isHomed a = true := by simp [isHomed, regionOf, h]

/-- A chain of the cohort that has faulted outside a region. -/
def lateChain : Chain := { block := 0, uid := 1, slot := 0, pc := 0x10000, word := 0x5f, asid := 1, seq := 1, head := 0, off := 0, faulted := true }
def chaining (f : Cohort → Cohort) : State :=
  { (world f).onCore 0 fun co => { co with copyEng := { chains := [(3, lateChain)] } } with ev := [0, 0, 3, 5, 0x77] }

theorem witness_TrapEntryResults :
    (trapping stopped).arg 0 = 0 ∧ (trapping stopped).arg 1 = 0 ∧ (trapping stopped).cohort? 0 0 = some (stopped firstCohort) ∧
    (stopped firstCohort).stopped = true ∧ (stopped firstCohort).ending = false ∧ (stopped firstCohort).leaving = false ∧
    (trapping stopped).drained 0 (stopped firstCohort) = true ∧
    (trapping stopped).causeOf 0 (stopped firstCohort) = some { code := 16, pc := 0x10000, word := 0x63, addr := 7 } ∧
    (stopped firstCohort).handler = false ∧ (trapping stopped).ctx 1 0x10 ≠ 0 ∧ (trapping stopped).mem.wf = true ∧
    (∀ i, i < 0x10000 → isHomed ((stopped firstCohort).image + i) = true) ∧
    (world stopped).ctx 1 0x10 = 0 ∧ (trapping fun h => handling 0 (stopped h)).drained 0 (handling 0 (stopped firstCohort)) = true ∧
    (handling 0 (stopped firstCohort)).handler = true ∧
    world.who? = some mine ∧ mine.sp.state = 0 ∧ mine.h.mayIssue = true ∧ mine.h.atJoin mine.sp = false ∧
    (chaining id).chainAt 0 0 3 = some lateChain ∧ (chaining id).cohortBy 1 = some firstCohort ∧ firstCohort.ending = false ∧
    lateChain.inRegion = false ∧ (chaining id).whereIs 1 = some (0, 0) ∧ (chaining id).cohort? 0 0 = some firstCohort := by
  and_intros <;> first
    | exact fun i hi => homed_of (by simp only [stopped, firstCohort, nearEnd]; omega)
    | decide +kernel

/-! ## Witnesses: the Uliah engine -/

/-- A handler of window 0 with registers e1 to e4. -/
def aHandler : Handler :=
  { win := 0, tag := 0, seg := 0, round := 0, pc := 4095, e := [(1, 1), (2, 0x20000), (3, 0x20004), (4, 0xf00000000000)] }

/-- The package with that handler and nothing else. -/
def combining (h : Handler) : State := { State.reset with ev := [5], ul := { handlers := [(5, h)] } }

theorem witness_UliahComputes :
    Tbl.find? (combining { aHandler with count := 65536 }).ul.handlers 5 = some { aHandler with count := 65536 } ∧
    Tbl.find? (combining aHandler).ul.handlers 5 = some aHandler ∧ aHandler.count < 65536 ∧ (combining aHandler).arg 0 = 5 ∧
    ulCond 1 (aHandler.reg 0) (aHandler.reg 1) = true ∧ ulCond 0 (aHandler.reg 0) (aHandler.reg 1) = false ∧
    (0 : Int) ≤ aHandler.pc + (BitVec.ofNat 16 0xf001).toInt ∧ aHandler.pc + (BitVec.ofNat 16 0xf001).toInt < (4096 : Int) ∧
    (4096 : Int) ≤ aHandler.pc + (BitVec.ofNat 16 1).toInt ∧ aHandler.pc + (BitVec.ofNat 16 0xf000).toInt < (0 : Int) ∧
    (combining aHandler).ul.handlers.Pairwise (fun x y => x.1 < y.1) ∧
    (aHandler.reg 3 + (BitVec.ofNat 15 0).signExtend 64).toNat % 8 ≠ 0 ∧ isHomed (aHandler.reg 4 + (BitVec.ofNat 15 0).signExtend 64).toNat = false ∧
    (aHandler.reg 2 + (BitVec.ofNat 15 0x7ff8).signExtend 64).toNat = 0x1fff8 ∧ 0x1fff8 % 8 = 0 ∧ isHomed 0x1fff8 = true ∧
    ((combining aHandler).portPass [0x1fff8] []).isSome = true ∧ ((combining aHandler).portPass [] [0x1fff8]).isSome = true ∧
    Tbl.find? (combining aHandler).shadows (0x1fff8 / 128) = none ∧ (combining aHandler).poisoned 0x1fff8 8 = false ∧
    ({ combining aHandler with poison := [0x1fff] } : State).poisoned 0x1fff8 8 = true ∧ (combining aHandler).mem.wf = true := by
  and_intros <;> decide +kernel

/-- An entry of a group table. -/
def entry (kind base port peer win : Nat) : List Byte := leBytes 16 (kind * 2 ^ 124 + base * 2 ^ 64 + peer * 2 ^ 48 + port * 2 ^ 45 + win * 2 ^ 32)

/-- A window in a mode with an element type, two segments, four ranks, a group table at 0x10000 and a signal object at 0x30000, in which the handler has
a partial; an optimiser descriptor lies at 0x20000. -/
def collective (mode ty : Nat) (h : Handler) : State :=
  { (combining h).poke 0x10000 (entry 1 0x40000 0 0 0 ++ entry 3 0 0 0 7 ++ entry 0 0 0 0 0 ++ entry 2 0 1 3 7 ++ entry 5 0 0 0 0) with
    hub := [(0x200000, BitVec.ofNat 64 (mode * 2 ^ 24 + ty * 2 ^ 18 + 0x11 * 2 ^ 6)), (0x200008, 2), (0x200010, BitVec.ofNat 64 (4 * 2 ^ 48)), (0x200018, 0x10000),
            (0x200030, 0x30000), (0x400070, 1)] }
def optimising (h : Handler) : State :=
  (collective 1 0x11 h).poke 0x20000 (leBytes 8 1 ++ leBytes 8 0x50000 ++ leBytes 8 0x60000)

/-- A partial, and the handler that has it. -/
def aPartial : Sum := { elems := List.replicate 64 0x3f800000, exps := [] }
def owner : Handler := { aHandler with part := some aPartial }

/-- An input of the handler's group that covers ranks 0 to `hi`. -/
def anInput (hi : Nat) : Segment := { win := 0, tag := 0, seg := 0, round := 0, rlo := 0, rhi := hi, data := List.replicate 256 0 }
def given (mode ty hi : Nat) : State := { collective mode ty aHandler with ul := { handlers := [(5, aHandler)], inputs := [(8, anInput hi)] } }

/-- The same with a range recorded that the input overlaps. -/
def overlapping : State := { given 1 0x11 1 with ul := { (given 1 0x11 1).ul with seen := [(0, 0, 0, 0, 1, 3)] } }

/-- The entry at an index of the table, what is wrong with it, and whether the firing schedule lets its lines pass. -/
def entryAtIndex (ix : Nat) : Option (Nat × Bool × Bool) :=
  let s := collective 1 0x11 owner
  (s.groupEntry 0 ix).map fun z => (z.1 / 2 ^ 124, s.entryBad owner aPartial z.1, (z.2.fsLines 5 none (s.outLines owner aPartial z.1)).isSome)

theorem witness_UliahCombines :
    Tbl.find? (collective 1 0x11 aHandler).ul.handlers 5 = some aHandler ∧ aHandler.count < 65536 ∧ aHandler.comb = none ∧
    (aHandler.reg 0).toNat % 2 ^ 16 < (aHandler.reg 1).toNat % 2 ^ 16 ∧ bitsAt ((collective 1 0x11 aHandler).aw 0 0x10) 63 48 = 4 ∧
    (∀ m ∈ [1, 2, 3], (collective m 0x11 aHandler).awMode 0 = m) ∧
    (collective 1 0x11 aHandler).groupInputs aHandler = [] ∧ (given 1 0x11 1).groupInputs aHandler = [(8, anInput 1)] ∧
    (given 3 0x11 1).groupInputs aHandler = [(8, anInput 1)] ∧ (given 2 0x11 0).groupInputs aHandler = [(8, anInput 0)] ∧ (aHandler.reg 1).toNat = 1 ∧
    Tbl.find? (collective 1 0x11 owner).ul.handlers 5 = some owner ∧ owner.part = some aPartial ∧ (owner.reg 1).toNat < segElems 0x11 ∧
    segElems 0x11 ≤ (owner.reg 2).toNat ∧
    ((collective 1 0x11 owner).bucket 0 0).round = owner.round ∧ owner.done = false ∧ (collective 1 0x11 owner).awNseg 0 = 2 ∧
    (insNat ((collective 1 0x11 owner).bucket 0 0).doneSegs 0).length = 1 ∧ ((collective 1 0x11 owner).bucket 0 0).round ≠ ({ owner with round := 1 } : Handler).round ∧
    (collective 1 0x11 owner).groupEntry 0 (owner.reg 4).toNat = none ∧
    entryAtIndex 0 = some (1, false, true) ∧ entryAtIndex 1 = some (3, false, true) ∧ entryAtIndex 2 = some (0, true, true) ∧
    entryAtIndex 3 = some (2, false, true) ∧ entryAtIndex 4 = some (5, true, true) ∧
    ((collective 1 0x11 owner).portPass [(collective 1 0x11 owner).groupPa 0 0] []).isSome = true ∧
    ((collective 1 0x11 owner).portPass [(collective 1 0x11 owner).groupPa 0 1, (collective 1 0x11 owner).groupPa 0 2] []).isSome = true ∧
    ((collective 1 0x11 owner).portPass [0x30000] []).isSome = true ∧
    (∀ y ∈ (overlapping.groupInputs aHandler), y.2.spilled = none) ∧ (8, anInput 1) ∈ overlapping.groupInputs aHandler ∧ (0, 0, 0, 0, 1, 3) ∈ overlapping.ul.seen ∧
    (anInput 1).rlo ≤ 3 ∧ 1 ≤ (anInput 1).rhi ∧ (∀ y ∈ overlapping.groupInputs aHandler, ¬ (y.2.rlo = 1 ∧ y.2.rhi = 3)) ∧ (given 1 0x11 1).ul.seen = [] ∧
    isHomed ((collective 1 0x11 owner).outPlace owner aPartial 0x40000) = true ∧ (collective 1 0x11 owner).shadows = [] ∧
    (collective 1 0x11 owner).mem.wf = true ∧
    (owner.reg 3).toNat % 128 ≠ 0 ∧ (owner.reg 2).toNat % 128 = 0 ∧ isHomed (owner.reg 2).toNat = true ∧ isHomed (owner.reg 4).toNat = false ∧
    (optimising owner).awMode 0 = 1 ∧ (optimising owner).awType 0 = 0x11 ∧
    (optimising owner).optBad 0x20000 (((optimising owner).homeRead 0x20000 128 0).2.peekBytes 0x20000 128) 0 64 = false ∧
    bitsAt ((collective 1 0x11 owner).aw 0 0x30) 51 0 = 0x30000 ∧ 0x30000 % 8 = 0 ∧ isHomed 0x30000 = true ∧
    Tbl.find? (collective 1 0x11 owner).shadows (0x30000 / 128) = none ∧ (∀ y ∈ owner.pending, Tbl.has (collective 1 0x11 owner).peers y = false) := by
  and_intros <;> decide +kernel

/-! ## Witnesses: the rows that take effect on their own -/

/-- What a row acts on. -/
def actsOn (s : State) (l : List Nat) : State := { s with ev := l }

/-- A cohort whose split, with some lanes, stands at the address of its join record 2, which awaits all lanes. -/
def joiningJ : Join := { addr := 0x10000, mask := BitVec.allOnes 32 }
def joining (e : Mask) (h : Cohort) : Cohort :=
  { h with joins := [(2, joiningJ)], splits := [(0, { pc := 0x10000, entry := e, exec := e, join := some 2 })] }

/-- A join record at which lane 1 has waited for its bound. -/
def boundedJ : Join := { addr := 0x20000, mask := 3, arrived := 2, mexec := 2, lead := 1, run := true }
def expired (h : Cohort) : Cohort := { h with joins := [(2, boundedJ)], splits := [(0, { pc := 0x10000, entry := 1, exec := 1, join := some 2 })] }

/-- A cohort whose split is in a state. -/
def inState (n t : Nat) (h : Cohort) : Cohort :=
  { h with splits := [(0, { pc := 0x10000, entry := BitVec.allOnes 32, exec := BitVec.allOnes 32, state := n, timer := t })] }

/-- The world at a cycle of its core, with an arrival of a count at barrier 15 of a block of some cohorts. -/
def arriving (cycle d n : Nat) : State :=
  (world id fun b => { b with bars := [(15, { queue := [(4, 0, d)] })], ncohorts := n }).onCore 0 fun co => { co with lclk := cycle }

/-- The world whose gang has a barrier on a side. -/
def gangAt (x : GangBar) : State := { world with gangs := [(1, { members := [(0, 0)], window := 0x2000000000000, bars := [(2, x)] })] }

/-- A cohort that is parked on monitor 9. -/
def parkedOn : Parked := { split := 0, pred := 7, mon := 9 }
def parked (b : Bool) (h : Cohort) : Cohort := { h with parked := some parkedOn, stopped := b }

/-- The world with a channel that holds a payload on its way. -/
def aPayload : List Byte × List Nat := ([1, 2, 3, 4], [0])
def inFlight (n : Nat) : Chan := { sender := (0, 0), receiver := (0, 0), slots := 2, size := 128, free := 0, flight := List.replicate n aPayload }
def carrying (n : Nat) : State := { world with chans := [(7, inFlight n)], ev := [7] }

theorem witness_CohortRowResults :
    (∀ e ∈ [(1 : Mask), BitVec.allOnes 32], (actsOn (world (joining e)) [0, 0, 0]).cohort? 0 0 = some (joining e firstCohort) ∧
      (joining e firstCohort).mayIssue = true ∧ Tbl.find? (joining e firstCohort).joins 2 = some joiningJ ∧
      ∃ sp, (joining e firstCohort).split? 0 = some sp ∧ sp.state = 0 ∧ sp.join = some 2 ∧ joiningJ.addr = sp.pc ∧ sp.entry = e) ∧
    joiningJ.mask &&& ~~~(joiningJ.arrived ||| BitVec.allOnes 32) &&& ~~~firstCohort.dmask &&& ~~~firstCohort.exited = 0 ∧
    joiningJ.mask &&& ~~~(joiningJ.arrived ||| 1) &&& ~~~firstCohort.dmask &&& ~~~firstCohort.exited ≠ 0 ∧
    (world expired).cohort? 0 0 = some (expired firstCohort) ∧ Tbl.find? (expired firstCohort).joins 2 = some boundedJ ∧ boundedJ.run = true ∧
    boundedJ.timer = 0 ∧ (expired firstCohort).stopped = false ∧ boundedJ.arrived &&& ~~~(expired firstCohort).dmask ≠ 0 ∧
    (∀ e ∈ (expired firstCohort).splits, e.2.join = some 2 → (expired firstCohort).atJoin e.2 = false) ∧
    (∃ sp, (inState 4 0 firstCohort).split? 0 = some sp ∧ sp.state = 4 ∧ sp.timer = 0) ∧
    (∀ e ∈ [(4, 0, 1), (5, 0, 1), (5, 2, 4)], ∃ bl, (arriving e.1 e.2.1 e.2.2).block? 0 0 = some bl ∧ (Tbl.at bl.bars 15 {}).queue = (4, 0, e.2.1) :: [] ∧
      (Tbl.at bl.bars 15 {}).who = [] ∧ bl.ncohorts = e.2.2 ∧ bl.live = [0] ∧ ((arriving e.1 e.2.1 e.2.2).core 0).lclk = e.1 ∧
      ((arriving e.1 e.2.1 e.2.2).core 0).barClk ≤ e.1 ∧ ∀ m ∈ ((arriving e.1 e.2.1 e.2.2).core 0).arrivals, 4 * 64 + 0 ≤ m) ∧
    (∀ x ∈ [({ seen := true } : GangBar), {}, { done := true }], ∃ g, Tbl.find? (gangAt x).gangs 1 = some g ∧ Tbl.at g.bars (2 * 1 + (1 - 1)) {} = x) ∧
    (∀ b, (world (parked b)).whereIs 1 = some (0, 0) ∧ (world (parked b)).cohort? 0 0 = some (parked b firstCohort) ∧ (parked b firstCohort).hparked = none ∧
      (parked b firstCohort).parked = some parkedOn ∧ (parked b firstCohort).stopped = b) ∧
    firstCohort.handler = false ∧ (firstCohort.split? parkedOn.split).isSome = true ∧
    (∃ sp, (inState 3 5 firstCohort).split? 0 = some sp ∧ sp.state = 3 ∧ 5 ≤ sp.timer) ∧
    (∃ l, Tbl.find? ({ world (inState 3 5) with launches := [(1, { firstLaunch with wdog := 5 })] } : State).launches 1 = some l ∧ l.wdog = 5) ∧
    Tbl.find? (carrying 1).chans 7 = some (inFlight 1) ∧ (inFlight 1).flight = aPayload :: [] ∧
    (inFlight 1).free + (inFlight 1).flight.length + (inFlight 1).full.length < (inFlight 1).slots := by
  and_intros <;> first
    | exact ⟨_, rfl, by decide +kernel⟩
    | (intro e he; simp only [List.mem_cons, List.not_mem_nil, or_false] at he; rcases he with rfl | rfl | rfl <;> exact ⟨_, rfl, by decide +kernel⟩)
    | (intro e he; simp only [List.mem_cons, List.not_mem_nil, or_false] at he
       rcases he with rfl | rfl <;> exact ⟨by decide +kernel, by decide +kernel, by decide +kernel, _, rfl, by decide +kernel⟩)
    | decide +kernel

/-- The world with one access of its cohort under way, or more. -/
def anAccess (kind : AccKind) (pa : Nat) : Access :=
  { core := 0, uid := 1, seq := 4, kind := kind, scope := 0, size := 4, path := 0, reuse := 3, lanes := [{ lane := 0, va := pa, pa := pa, x := 0x01020304 }]
    data := [], stage := 0, pix := 0 }
def acting (l : List (Nat × Access)) (f : Cohort → Cohort := id) : State := { world f with accs := l, nextId := 20 }

/-- The first granule of a core's scratchpad and a line of near memory. -/
def inScratch : Nat := 0xf00000000000
def inNear : Nat := 0x40

/-- A cohort with one store and a fence behind it; a store that its core has no translation for. -/
def storingAt (va : Nat) (h : Cohort) : Cohort := { h with stores := [{ aStore with lanes := [{ lane := 0, va := va }] }] }
def fencing (h : Cohort) : Cohort := { h with fences := [{ seq := 0, scope := 0, pred := 0x40, succ := 0xc0, paths := 0, handler := false }] }
def readOnly : State :=
  (world (storingAt 0)).onCore 0 fun co => { co with tlb := co.tlb.map fun e => { e with w := false } }

/-- Page tables of context 2 that map its first gigabyte. -/
def mapped : State :=
  (({ world with hub := [(0x100088, 0x200000)], ev := [0, 2, 5] }.poke 0x200000 (leBytes 8 0x201001)).poke 0x201000 (leBytes 8 0x202001)).poke 0x202000
    (leBytes 8 0x0f)

/-- A cohort whose register 5 has its line in the image. -/
def lineless (h : Cohort) : Cohort := { h with absent := [5], imaged := [5] }

/-- The world in which the home slice of the near line is as given. -/
def sliced (l : List (Nat × Access)) (sl : Slice) : State := { acting l with slices := [(homeOf inNear, sl)], ev := [7] }
def holding1 : Slice := { ways := [{ set := sliceSet (inNear / 128), line := inNear / 128, rrpv := 0, dirty := false }] }
def missing1 : Slice := { misses := [{ line := inNear / 128, reuse := 0, ids := [] }] }

theorem witness_AccessRowResults :
    ((acting [(7, { anAccess .load inNear with stage := 1 })]).whereIs 1 = some (0, 0) ∧ (acting []).invals = []) ∧
    (∀ va ∈ [0, 0x500000], (world (storingAt va)).cohort? 0 0 = some (storingAt va firstCohort) ∧ (storingAt va firstCohort).writeStuck 1 = false ∧
      (storingAt va firstCohort).loads = [] ∧ (storingAt va firstCohort).ending = false) ∧
    (world (storingAt 0x500000)).storeMiss 0 (storingAt 0x500000 firstCohort) { aStore with lanes := [{ lane := 0, va := 0x500000 }] } = some 0x500 ∧
    (world (storingAt 0)).storeMiss 0 (storingAt 0 firstCohort) { aStore with lanes := [{ lane := 0, va := 0 }] } = none ∧
    (world (storingAt 0)).storeFails 0 (storingAt 0 firstCohort) { aStore with lanes := [{ lane := 0, va := 0 }] } = none ∧
    readOnly.storeMiss 0 (storingAt 0 firstCohort) { aStore with lanes := [{ lane := 0, va := 0 }] } = none ∧
    readOnly.storeFails 0 (storingAt 0 firstCohort) { aStore with lanes := [{ lane := 0, va := 0 }] } = some 0 ∧ firstCohort.bisque = none ∧
    (∃ f ∈ (fencing firstCohort).fences, (world fencing).fenceDone 0 (fencing firstCohort) f = true) ∧
    5 * 4096 < 2 ^ 57 ∧ (mapped.core 0).tlbFind 2 (5 * 4096) = none ∧ (mapped.walk 2 (5 * 4096)).isSome = true ∧ (∀ y ∈ (mapped.core 0).cohorts, y.2.asid ≠ 2) ∧
    (world lineless).cohort? 0 0 = some (lineless firstCohort) ∧ 5 ∈ (lineless firstCohort).absent ∧ 5 ∈ (lineless firstCohort).imaged ∧
    world.shadows = [] ∧ world.mem.wf = true ∧ ((world lineless).core 0).lines.length < 2048 ∧
    (acting [(6, anAccess .store inScratch), (7, anAccess .load inScratch)]).overtakes 7 (anAccess .load inScratch) = true ∧
    (∀ k ∈ [AccKind.load, .store], (acting [(7, anAccess k inScratch)]).overtakes 7 (anAccess k inScratch) = false) ∧
    (acting [(7, { anAccess .load inScratch with full := 2 })]).overtakes 7 { anAccess .load inScratch with full := 2 } = false ∧
    (acting []).isFull inScratch = false ∧ ({ acting [] with full := [inScratch / 16] } : State).isFull inScratch = true ∧
    (∀ sl ∈ [holding1, {}], ∀ m ∈ ((sliced [] sl).slice (homeOf (inNear / 128 * 128))).misses, m.line ≠ inNear / 128) ∧
    ((sliced [] holding1).slice (homeOf (inNear / 128 * 128))).holds (inNear / 128) = true ∧
    ((sliced [] {}).slice (homeOf (inNear / 128 * 128))).holds (inNear / 128) = false ∧ ((sliced [] {}).slice (homeOf (inNear / 128 * 128))).misses.length < 64 ∧
    ((sliced [] {}).slice (homeOf (inNear / 128 * 128))).wbuf.length < 16 ∧
    (∀ y ∈ (sliced [(7, anAccess .wback inNear)] {}).accs, y.1 ≠ 7 → y.2.meets (anAccess .wback inNear) = false) ∧
    ((sliced [] missing1).slice (homeOf inNear)).missOf (inNear / 128) = some { line := inNear / 128, reuse := 0, ids := [] } ∧
    ((sliced [] missing1).slice (homeOf inNear)).fill (inNear / 128) 0 false ≠ none ∧
    world.portHolds 1 = false ∧ (sliced [] {}).fsYields 8 ((sliced [] {}).fsPath none (inNear / 128)) = false ∧
    ((acting []).core 0).l1Find (inNear / 128) = none ∧ sameCtl (inNear / 128) (inNear / 128) = true ∧ regionOf inScratch = .core 0 .scratch 0 := by
  and_intros <;> decide +kernel

/-- A packet of core 0's router for another router, and the state of a package whose network is as given. -/
def aPacket (here from_ dst : Nat) : Packet :=
  { cls := 0, src := 1, dst := dst, here := here, from_ := from_, colFirst := false, acks := 0, incarn := 0, deliver := { row := .bankAccess, ops := [3] } }
def networked (x : Net) (l : List Nat := [7]) : State := { State.reset with net := x, ev := l, nextId := 20 }

/-- One packet at the head of its input. -/
def routing (p : Packet) : Net := { packets := [(7, p)], inputs := [(inputKey p.here p.from_ p.cls, [7])] }

/-- Two routers whose inputs from each other are full with packets for each other. -/
def inputA : Nat := inputKey 0 1 0
def inputB : Nat := inputKey 1 0 0
def blocked : Net :=
  { packets := [(7, aPacket 0 1 1), (8, aPacket 1 0 0)], inputs := Tbl.put [(inputA, [7])] inputB [8], depth := 0, hubClock := 5000
    stuck := Tbl.put [(inputA, 0)] inputB 0 }
def aCycle (b : Bool) : Cycle := { time := 4999, inputs := [inputA, inputB], granted := b }

theorem witness_NetworkRowResults :
    Tbl.find? (networked {}).net.packets 7 = none ∧ ((networked { packets := [(7, aPacket 0 1 1)] }).net.queue inputA).head? ≠ some 7 ∧
    (∀ p ∈ [aPacket 0 1 1, aPacket 0 1 0, aPacket 16 17 16, { aPacket 0 1 1 with cls := 4 }, { aPacket 0 1 1 with incarn := 1 }, { aPacket 0 1 0 with cls := 1 }],
      Tbl.find? (networked (routing p)).net.packets 7 = some p ∧ ((networked (routing p)).net.queue (inputKey p.here p.from_ p.cls)).head? = some 7) ∧
    (Tbl.at (networked {}).stackTbl 1 {}).incarn = 0 ∧ Tbl.at (networked {}).stackTbl 0 {} = {} ∧ ({} : StackSt).step = 0 ∧
    ({} : StackSt).packets = [] ∧ ({} : StackSt).mode = false ∧
    (Tbl.at ({ networked (routing (aPacket 0 1 0)) with stackTbl := [(0, { step := 1 })] } : State).stackTbl 0 {}).step ≠ 0 ∧
    (networked (routing (aPacket 0 1 1))).net.canMove 7 (aPacket 0 1 1) = true ∧ (networked { routing (aPacket 0 1 1) with depth := 0 }).net.canMove 7 (aPacket 0 1 1) = false ∧
    (networked {} [inputA]).net.probeDue inputA = false ∧ (networked blocked [inputA]).net.probeDue inputA = true ∧
    blocked.waitsFor inputA = some inputB ∧ blocked.waitsFor inputB = some inputA ∧ inputB ≠ inputA ∧
    ({ blocked with probes := [(9, [inputA])] } : Net).lowerProbe inputB inputA = false ∧ ({ blocked with depth := 7 } : Net).waitsFor inputB = none ∧
    blocked.isCycle (aCycle false).inputs = true ∧ ({ blocked with depth := 7 } : Net).isCycle (aCycle false).inputs = false ∧
    (blocked.again (aCycle false)).length < 2 ∧ (∀ e ∈ [(9, aCycle false)], e.2.granted = false) ∧ blocked.rotation = [] ∧
    Tbl.at ({ routing (aPacket 16 16 1) with inputs := [], escape := [(16, [7])] } : Net).escape 16 [] = [7] ∧
    ({ routing (aPacket 16 16 1) with inputs := [] } : Net).flowHeld 7 (aPacket 16 16 1) = false ∧
    ({ routing (aPacket 16 16 1) with inputs := [] } : Net).room (aPacket 16 16 1).nextInput = true ∧
    (networked {}).fsRefuses 0 0 0x10000 = false ∧ (networked {}).fsRefuses 0 0 0x18000 = true := by
  and_intros <;> decide +kernel

/-- A request of the cohort for frames for handle 63. -/
def aRequest (n : Nat) : FrameReq := { uid := 1, split := 0, slot := 0, handle := 63, frames := n }
def wanting (n : Nat) : State :=
  actsOn ((tiled { tile .filling with frames := 0 }).onCore 0 fun co => { co with frameWaits := [aRequest n] }) [0]

/-- A handle whose tile is being read from an address, and one whose tile is being written. -/
def fillingFrom (va : Nat) : Handle := { tile .filling with fill := some { aTransfer false false with va := va } }
def writingTo (code : Nat) : Handle := { tile .resident with writes := [{ aTransfer true false with code := code }] }
def tileWorld (x : Handle) : State := actsOn (tiled x) [0, 0, 63]

/-- A multiply of tiles 62 and 63 into the grant, and the core that has it. -/
def aMultiply (started : Bool) : MatOp := { id := 11, slot := 0, grant := 1, ha := 62, hb := 63, paired := !started, started := started }
def performing (started : Bool) (tag ty : Nat) : State :=
  actsOn ((multiplying 4 tag 15 ty).onCore 0 fun co => { co with mats := [aMultiply started] }) (if started then [0, 11] else [0])

theorem noAcrd_of {n : Nat} (h : (match decodeWord n with | .ok (.acrd _) => false | _ => true) = true) (o : OpAcrd) : decodeWord n ≠ .ok (.acrd o) := by
  intro e; rw [e] at h; cases h

/-- A chain of the cohort at the start of its block's scratchpad, and the scratchpad with the entry there. -/
def aChain (state off : Nat) : Chain :=
  { block := 0, uid := 1, slot := 0, pc := 0x10000, word := 0x5f, asid := 1, seq := 1, head := 0, off := off, state := state }
def entryBytes (op opf aux a b g : Nat) : List Byte :=
  leBytes 8 (aux * 2 ^ 48 + opf * 2 ^ 40 + op * 2 ^ 32) ++ leBytes 8 a ++ leBytes 8 b ++ leBytes 8 g
def chainAt (ch : Chain) (bs : List Byte) : State :=
  actsOn ((world.poke 0xf00000000000 bs).onCore 0 fun co => { co with copyEng := { chains := [(3, ch)] } }) [0, 0, 3]
def parsed (bs : List Byte) : Entry := entryAt ((chainAt (aChain 0 0) bs).peekBytes (coreBase 0 + 0 + 0) 32)

/-- The subtraction of a chain's signal, at its home slice. -/
def aSub : Access := { anAccess .sub inNear with size := 8, chain := 1 }
def subtracting : State := sliced [(7, aSub)] holding1

theorem witness_TileRowResults :
    (∀ n ∈ [2, 300], ((wanting n).core 0).frameWaits = aRequest n :: [] ∧ (wanting n).requestLive 0 (aRequest n) = true ∧
      ∃ bl, (wanting n).block? 0 0 = some bl ∧ Tbl.find? bl.handles 63 = some { tile .filling with frames := 0 }) ∧
    ((wanting 300).core 0).frameRun 300 = none ∧ ((wanting 2).core 0).frameRun 2 = some 0 ∧
    (∀ va ∈ [0, 0x500000], ∃ bl, (tileWorld (fillingFrom va)).block? 0 0 = some bl ∧ Tbl.find? bl.handles 63 = some (fillingFrom va) ∧
      (∀ k ∈ bl.handles, k.2.owner ∈ bl.live) ∧ (fillingFrom va).shape.frames ≤ (fillingFrom va).frames ∧ (fillingFrom va).state = .filling) ∧
    (∃ z, ((tileWorld (fillingFrom 0)).readImage 0 1 1 0 (fillingFrom 0).memShape).1 = .ok z) ∧ (tileWorld (fillingFrom 0)).accs = [] ∧
    (∃ z, ((tileWorld (fillingFrom 0x500000)).readImage 0 1 1 0x500000 (fillingFrom 0x500000).memShape).1 = .error z) ∧
    (tileWorld (fillingFrom 0x500000)).whereIs 1 = some (0, 0) ∧ (tileWorld (fillingFrom 0x500000)).cohort? 0 0 = some firstCohort ∧
    firstCohort.ending = false ∧
    (∀ code ∈ [0, 255], ∃ bl, (tileWorld (writingTo code)).block? 0 0 = some bl ∧ Tbl.find? bl.handles 63 = some (writingTo code) ∧
      (∀ k ∈ bl.handles, k.2.owner ∈ bl.live) ∧ (writingTo code).state ≠ .nonResident ∧
      (tileWorld (writingTo code)).writeStuck { aTransfer true false with code := code } = false) ∧
    (∀ o, decodeWord (aTransfer true false).word ≠ .ok (.acrd o)) ∧
    ((performing false 0x11 1).core 0).mats.find? (fun m => m.paired && !m.started) = some (aMultiply false) ∧ ((performing false 0x11 1).core (0 ^^^ 1)).mats = [] ∧
    (∀ e ∈ [(0x11, 1), (1, 2)], ((performing true e.1 e.2).core 0).mats = aMultiply true :: [] ∧ (performing true e.1 e.2).mem.wf = true ∧
      ((performing true e.1 e.2).core 0).grants.find? (fun g => g.slot == 0 && g.serial == 1) = some (aGrant 4 0 e.2) ∧
      ∃ bl, (performing true e.1 e.2).block? 0 0 = some bl ∧ (∀ k ∈ bl.handles, k.2.owner ∈ bl.live) ∧
        (Tbl.at bl.handles 62 {}).shape.rows = 16 ∧ (Tbl.at bl.handles 63 {}).shape.cols = 16) ∧
    (∃ bl, (chainAt (aChain 0 0) []).block? 0 0 = some bl ∧ bl.killed = false ∧ bl.base = 0 ∧ bl.size < 0x7fff0 + 32 ∧ 0 + 32 ≤ bl.size) ∧
    (∀ st ∈ [0, 1], ∀ off ∈ [0, 0x7fff0], (chainAt (aChain st off) []).chainAt 0 0 3 = some (aChain st off)) ∧ (aChain 0 0).faulted = false ∧
    (chainAt (aChain 0 0) []).chainWaits 0 (aChain 0 0) = false ∧
    (∀ bs ∈ [[], entryBytes 9 0 0 0 0 0, entryBytes 7 0 1 0 0 0, entryBytes 7 0 2 0 0 0, entryBytes 5 0 0 0x40 3 0, entryBytes 10 0 0 0 0 0],
      (chainAt (aChain 0 0) bs).poisoned (coreBase 0 + 0 + 0) 32 = false ∧ (((chainAt (aChain 0 0) bs).core 0).eng 0).cache = []) ∧
    (parsed []).malformed 0 0x80000 = true ∧
    (∀ op ∈ [(9, 0, 0, 0, 0), (7, 0, 1, 0, 0), (7, 0, 2, 0, 0), (5, 0, 0, 0x40, 3), (10, 0, 0, 0, 0)],
      (parsed (entryBytes op.1 op.2.1 op.2.2.1 op.2.2.2.1 op.2.2.2.2 0)).malformed 0 0x80000 = false ∧
      (parsed (entryBytes op.1 op.2.1 op.2.2.1 op.2.2.2.1 op.2.2.2.2 0)).op = op.1) ∧ (aChain 0 0).loops = [] ∧ (aChain 0 0).pending = [] ∧
    (parsed (entryBytes 5 0 0 0x40 3 0)).opf = 0 ∧ (parsed (entryBytes 5 0 0 0x40 3 0)).a = 0x40 ∧
    (let s := chainAt (aChain 0 0) (entryBytes 5 0 0 0x40 3 0)
     s.find 0 1 1 .atomic 0x40 = .ok 0x40 false ∧ isHomed 0x40 = true ∧ Tbl.find? s.shadows (0x40 / 128) = none ∧ s.poisoned 0x40 8 = false ∧ s.mem.wf = true ∧
       (s.core 0).l1 = [] ∧ s.accs = [] ∧ (s.fsLinks 4 (coreRouter 0) [0x40]).isSome = true ∧ s.chainClear (aChain 0 0) (parsed (entryBytes 5 0 0 0x40 3 0)).drains = true) ∧
    (aChain 0 0).entry = [] ∧ (aTransfer false false).code ≠ 255 ∧
    (∀ va ∈ [0, 0x500000], (tileWorld (fillingFrom va)).spanReady 0 1 1 .load ((fillingFrom va).memShape.spans va) = true) ∧
    (∃ bl, (tileWorld (writingTo 0)).block? 0 0 = some bl ∧ (tileWorld (writingTo 0)).tileReady 0 bl (writingTo 0) (aTransfer true false) = true) ∧
    (Tbl.find? subtracting.accs 7 = some aSub ∧ aSub.kind = .sub ∧ aSub.size = 8 ∧ aSub.chain ≠ 0 ∧ aSub.stage = 0 ∧ subtracting.overtakes 7 aSub = false ∧
      (∀ w ∈ subtracting.accs, w.1 ≠ 7 → w.2.meets aSub = false) ∧ isHomed inNear = true ∧ (subtracting.slice (homeOf (inNear / 128 * 128))).holds (inNear / 128) = true ∧
      (subtracting.fsPass 4 (subtracting.fsPath none (inNear / 128))).isSome = true ∧ subtracting.shadows = [] ∧ subtracting.mem.wf = true ∧
      subtracting.poisoned inNear 8 = false) := by
  and_intros <;> first
    | exact noAcrd_of (by decide +kernel)
    | exact ⟨_, rfl, by decide +kernel⟩
    | exact ⟨_, rfl⟩
    | (intro e he; simp only [List.mem_cons, List.not_mem_nil, or_false] at he
       rcases he with rfl | rfl <;> first
         | exact ⟨by decide +kernel, by decide +kernel, _, rfl, by decide +kernel⟩
         | exact ⟨by decide +kernel, by decide +kernel, by decide +kernel, _, rfl, by decide +kernel⟩
         | exact ⟨_, rfl, by decide +kernel⟩)
    | decide +kernel

/-! ## Witnesses: launches -/

/-- Page tables that map the first gigabyte of a context's addresses to themselves, and a context that has images. -/
def pagesOf (asid : Nat) (s : State) : State :=
  (({ s with hub := [(8, 1), (0x100000 + 64 * asid, 1), (0x100008 + 64 * asid, 0x200000), (0x100020 + 64 * asid, 0x100000), (0x100028 + 64 * asid, 32)] }.poke 0x200000
    (leBytes 8 0x201001)).poke 0x201000 (leBytes 8 0x202001)).poke 0x202000 (leBytes 8 0x0f)

/-- The launch of the world with a completion object, and with the blocks of its stage as given. -/
def aLaunch (kind total placed ended : Nat) : Launch :=
  { firstLaunch with cdest := 0x40, kind := kind, cseq := 9, stages := firstLaunch.stages.map fun st => { st with gx := total, placed := placed, ended := ended } }

/-- The world with a block that has not started, and with one that is over. -/
def fresh : State := actsOn (world id fun b => { b with started := false }) [0, 0]
def spent : State :=
  pagesOf 1 (actsOn ({ world id fun b => { b with live := [] } with launches := [(1, aLaunch 0 2 1 0)] }.onCore 0 fun co => { co with cohorts := [] }) [0, 0])

/-- A launch record of one block, and the header and stage table of its image. -/
def aRecord : List Byte :=
  leBytes 4 7 ++ [3, 1, 0, 0] ++ leBytes 8 0x10000 ++ leBytes 8 0x40 ++ leBytes 24 0 ++ leBytes 32 1 ++ leBytes 112 0 ++ leBytes 64 0x100010001
def anImage : List Byte :=
  leBytes 4 0x39564c46 ++ [1, 0, 1, 0] ++ leBytes 8 0x10000000100 ++ leBytes 24 0 ++ leBytes 24 0x40 ++ leBytes 4 0 ++ leBytes 8 0x101 ++ leBytes 4 1 ++
    leBytes 16 1

/-- The launch unit with one record before it that a `SPAWN` has submitted. -/
def submitted (bs : List Byte) : Submission := { src := .spawn 0 1 0 1, addr := 0x300, asid := 1, level := 3, bytes := some bs }
def waiting1 (bs : List Byte) : State := pagesOf 1 ({ world with launches := [], waiting := [(5, submitted bs)], net := { hubClock := 1 } }.poke 0x10000 anImage)
def taken1 (bs : List Byte) : State := { waiting1 bs with waiting := Tbl.del (waiting1 bs).waiting 5 }

/-- A launch that waits for a core: alone in the package, and beside one whose only block takes a cohort slot of core 0 and yields it. -/
def waitSt (cohorts : Nat) : StageSt := { entry := firstPc, cohorts := cohorts, regs := [1], roles := [cohorts], gx := 1, gy := 1, gz := 1 }
def waiter (cohorts : Nat) : Launch := { aLaunch 0 1 0 0 with level := 1, stages := [waitSt cohorts] }
def alone : State := pagesOf 1 { State.reset with launches := [(1, waiter 1)] }
def beside : State := pagesOf 1 { world (inState 4 0) with launches := [(2, waiter 32), (1, firstLaunch)], ev := [2] }

/-- The package with a launch that is over. -/
def done (l : Launch) : State := pagesOf 1 (actsOn { State.reset with launches := [(1, l)] } [1])

/-- A write to a peer that the rejection of record 9 waits for. -/
def rejecting : PeerAcc := { peer := 31, off := 0x40, kind := .store, size := 4, data := 0, access := 6, launch := 9, since := none }

theorem accept_of {v : Verdict} (h : (match v with | .accept l => l.status == 0 && l.nbound == 0 | _ => false) = true) :
    ∃ l, v = .accept l ∧ l.status = 0 ∧ l.nbound = 0 := by
  cases v with
  | reject n => cases h
  | accept l => exact ⟨l, rfl, by simpa using h⟩

theorem witness_LaunchRowResults :
    (∃ bl l, fresh.block? 0 0 = some bl ∧ bl.started = false ∧ Tbl.find? fresh.launches bl.launch = some l ∧ l.stages[bl.stage]? ≠ none) ∧
    (∃ bl l, spent.block? 0 0 = some bl ∧ bl.handles = [] ∧ Tbl.find? spent.launches bl.launch = some l ∧ l.stages[bl.stage]? ≠ none ∧ l.killed = false ∧
      l.kind = 0 ∧ (∃ y ∈ l.stages, y.qd = false ∧ y.ended + 1 < y.total) ∧ spent.hubPa l.asid .atomic l.cdest = some 0x40) ∧
    spent.blockOver 0 0 = true ∧ spent.withholder 0 0 = none ∧ spent.shadows = [] ∧ spent.mem.wf = true ∧ isHomed 0x40 = true ∧
    spent.poisoned 0x40 8 = false ∧
    64 ≤ ({ world with launches := (List.range 64).map fun i => (i, firstLaunch) } : State).launches.length ∧
    (∀ bs ∈ [leBytes 256 0, aRecord], (waiting1 bs).launches.length < 64 ∧ (waiting1 bs).nextAccept = some (5, submitted bs)) ∧
    (taken1 (leBytes 256 0)).checkRecord (.spawn 0 1 0 1) 1 3 false (leBytes 256 0) = .reject 1 ∧
    (∃ l, (taken1 aRecord).checkRecord (submitted aRecord).src 1 3 false aRecord = .accept l ∧ l.status = 0 ∧ l.nbound = 0) ∧
    (alone.launches = [(1, waiter 1)] ∧ alone.comeback (·.wake.getLsbD 0) 1 = none ∧ alone.comeback (·.auto) 1 = none ∧ (alone.hubReg 0x2008).getLsbD 63 = false ∧ alone.chooseCores (waiter 1) [0] = some [0] ∧
      1 ≤ (alone.freeImages 1).length) ∧
    (∀ n ∈ [1, 32], (waiter n).chans = [] ∧ (waiter n).level = 1 ∧ (waiter n).killed = false ∧ (waiter n).stages = [waitSt n] ∧ (waitSt n).qd = false ∧
      (waitSt n).queue = [] ∧ (waitSt n).placed < (waitSt n).total ∧ (waitSt n).ended < (waitSt n).total ∧ (waitSt n).redo = [] ∧ (waitSt n).gang = 1 ∧
      (waitSt n).cohorts = n) ∧
    (beside.launches = [(2, waiter 32), (1, firstLaunch)] ∧ beside.comeback (·.wake.getLsbD 0) 2 = none ∧ beside.comeback (·.auto) 2 = none ∧ (beside.hubReg 0x2008).getLsbD 63 = false ∧
      beside.chooseCores (waiter 32) [0] = none ∧ beside.swapPlan (waiter 32) [0] = [(0, 0)]) ∧
    (firstLaunch.level = 0 ∧ firstLaunch.killed = false ∧
      ∀ y ∈ firstLaunch.stages, y.qd = false ∧ y.queue = [] ∧ y.redo = [] ∧ y.placed = y.total ∧ y.ended < y.total) ∧
    (∀ kind ∈ [1, 2], (done (aLaunch kind 1 1 1)).launchOver 1 (aLaunch kind 1 1 1) = true ∧ ({ aLaunch kind 1 1 1 with killed := true } : Launch).killOver = true ∧
      (done (aLaunch kind 1 1 1)).peersOwe 1 = false) ∧
    (∀ e ∈ [done (aLaunch 2 1 1 1)], e.peersOwe 9 = false ∧ e.cdestOk 1 0x40 2 0 = true) ∧
    ({ done (aLaunch 2 1 1 1) with peers := [(5, rejecting)] } : State).peersOwe 9 = true ∧
    (done (aLaunch 1 1 1 1)).hubPa 1 .atomic 0x40 = some 0x40 ∧ (done (aLaunch 1 1 1 1)).hubPa 1 .store 0x40 = some 0x40 := by
  and_intros <;> first
    | exact accept_of (by decide +kernel)
    | exact ⟨_, _, rfl, by decide +kernel, rfl, by decide +kernel⟩
    | decide +kernel

/-! ## Witnesses: contexts and cohorts that are out -/

/-- The package with the cohort of the world out, its block still placed. -/
def outside (f : Cohort → Cohort := id) : State :=
  { (world.onCore 0 fun co => { co with cohorts := [], away := [f firstCohort] }) with hub := [(8, 1)] }

/-- The package with that cohort's group evicted, and the group. -/
def evicted : State := outside.evictGroup 1 7 (7 * 4096) (outside.blocksOf 1)
def copied : List SavedBlock × Nat × State := outside.saveBlocks (7 * 4096) (outside.blocksOf 1)
def theGroup : SavedGroup := { asid := 1, page := 7, gangs := outside.gangs, blocks := copied.1, chans := [], counts := copied.2.1 }
def recalled : State := { evicted with ev := [1, 7] }

/-- The package with a command under way. -/
def busyWith (cmd : Nat) (s : State) : State := { s with hub := [(0x2000, BitVec.ofNat 64 (cmd * 2 ^ 60 + 7 * 2 ^ 12 + 1)), (0x2008, 0x8000000000000000)] }

def leaver (h : Cohort) : Cohort := { h with leaving := true }
def recalling (b : Bool) (h : Cohort) : Cohort := { h with asked := b }
def unsaved (h : Cohort) : Cohort := { h with dirty := [5], v := [(5, { val := List.replicate 32 9 })] }

/-- The package with an invalidation that waits for access 6, and one that waits for none. -/
def invalidating (id n : Nat) : State := actsOn { acting [(6, anAccess .load inNear)] with invals := [(id, [n])] } [id]

theorem witness_ContextRowResults :
    ((∃ x ∈ Tbl.vals world.launches, x.asid = 1) ∧ ∀ x ∈ Tbl.vals world.launches, x.asid ≠ 4095) ∧
    (((busyWith 1 world).hubReg 0x2008).getLsbD 63 = true ∧ (world.hubReg 0x2008).getLsbD 63 = false) ∧
    (∀ s ∈ [outside, world], ∃ bl, s.blocksOf 1 = [((0, 0), bl)] ∧ bl.handles = [] ∧ (∀ x ∈ (s.core 0).away, x.slot = 0 → x.frozen = []) ∧
      s.mayEvict 0 0 bl = (s == outside)) ∧
    areaHomed (7 % 2 ^ 40 * 4096) (savedSize (outside.blocksOf 1)) = true ∧
    (busyWith 2 outside).hubReg 0x2000 = BitVec.ofNat 64 (2 * 2 ^ 60 + 7 * 2 ^ 12 + 1) ∧ ((busyWith 2 outside).hubReg 0x2008).getLsbD 63 = true ∧
    (∀ b, ∃ co y, Tbl.vals (busyWith 2 (outside (recalling b))).cores = [co] ∧ co.away = [y] ∧ y.asid = 1 ∧ y.asked = b) ∧
    (recalled.saved = [theGroup] ∧ (recalled.hubReg 0x2008).getLsbD 63 = false) ∧
    (((recalled.setHub 0x2000 0x4000000000007001).setHub 0x2008 0x8000000000000000).returnGroup theGroup).isSome = true ∧
    ((Tbl.vals (outside unsaved).cores).flatMap fun co => co.away.filter (·.asid == 1)) = [unsaved firstCohort] ∧ (outside unsaved).saved = [] ∧
    (outside unsaved).cohortBy 1 = some (unsaved firstCohort) ∧ 5 < firstCohort.budget ∧ isHomed (firstCohort.image + 128 * 5) = true ∧
    ((unsaved firstCohort).vreg 5).poison = 0 ∧ (outside unsaved).shadows = [] ∧ (outside unsaved).mem.wf = true ∧
    ((busyWith 1 (world leaver)).cohort? 0 0 = some (leaver firstCohort) ∧ (leaver firstCohort).asid = 1) ∧
    (∀ co ∈ Tbl.vals (busyWith 1 world).cores, ∀ y ∈ Tbl.vals co.cohorts, y.asid = 1 → y.leaving = false) ∧
    (world leaver).mayLeave 0 (leaver firstCohort) = true ∧ firstCohort.ending = false ∧ firstCohort.handler = false ∧
    Tbl.put ((world leaver).core 0).cohorts 0 (leaver firstCohort) = ((world leaver).core 0).cohorts ∧
    outside.awayAt 1 = some 0 ∧ (outside.core 0).away.find? (fun x => x.uid == 1 && x.frozen == []) = some firstCohort ∧ (outside.core 0).homeSlot 1 = some 0 ∧
    firstCohort.late = [] ∧ outside.shadows = [] ∧ outside.peekN (firstCohort.image + 0x20a4) 4 / 32 % 4 = 0 ∧
    outside.peekN (firstCohort.image + 0x20a8) 4 % 4 = 0 ∧ outside.peekN (firstCohort.image + 0x8020) 8 % 64 = 0 ∧
    outside.peekN (firstCohort.image + 0x8028) 8 % 2 = 0 ∧
    (({ world with hub := [(0x2018, 0x8000000000000000)] } : State).hubReg 0x2018).getLsbD 63 = true ∧ (world.hubReg 0x2018).getLsbD 63 = false ∧
    (∀ id ∈ [0, 3], Tbl.find? (invalidating id 6).invals id = some [6] ∧ 6 ∈ (invalidating id 6).inFlight ∧
      Tbl.find? (invalidating id 5).invals id = some [5] ∧ 5 ∉ (invalidating id 5).inFlight) := by
  and_intros <;> first
    | (intro s hs; simp only [List.mem_cons, List.not_mem_nil, or_false] at hs; rcases hs with rfl | rfl <;> exact ⟨_, rfl, by decide +kernel⟩)
    | (intro b; exact ⟨_, _, rfl, rfl, by cases b <;> decide +kernel⟩)
    | decide +kernel

/-! ## Witnesses: the host, collectives and links -/

/-- The package with a host queue of four entries or with another configuration, and a context to run in. -/
def ringed (n cfg : Nat) (l : List Nat) : State := { State.reset with hub := [(0x100040, 1), (0x500008 + 64 * n, BitVec.ofNat 64 cfg)], ev := l, nextId := 20 }

/-- The package past its boot, with something from the host, and the same where the host may move no more lines in this period. -/
def booted (l : List Nat) : State := { world with boot := { stage := 9 }, ev := l }
def starved (l : List Nat) : State := { booted l with fs := [(fsCountKey 0 (homeOf 0x40) 6, 0x10000)] }

theorem witness_HostRowResults :
    (∀ n ∈ [0, 63], let head := ((ringed n 0x20 [n, 5]).hubReg (0x500000 + 64 * n + 16)).toNat % 2 ^ 16
      head = 0 ∧ 2 ^ bitsAt ((ringed n 0x20 [n, 5]).hubReg (0x500000 + 64 * n + 8)) 7 4 = 4 ∧ (4 < (5 + 2 ^ 16 - head) % 2 ^ 16) ∧
        (4 + 2 ^ 16 - head) % 2 ^ 16 ≤ 4) ∧
    (∀ y ∈ Tbl.vals (ringed 0 0x20 []).waiting, y.src ≠ .hostQueue 0) ∧
    ((ringed 0 0x21 []).hubReg 0x500008).getLsbD 0 = true ∧ ((ringed 0 0x20 []).hubReg 0x500008).getLsbD 0 = false ∧
    (let x : DWord := BitVec.ofNat 64 0x1000c1
     bitsAt x 17 16 < 2 ∧ 2 ≤ bitsAt x 7 4 ∧ bitsAt x 7 4 ≤ 12 ∧ (ringed 0 0x20 []).ctxValid (bitsAt x 31 20) = true) ∧
    (ringed 0 0x20 []).ctxValid (bitsAt (BitVec.ofNat 64 0x2000c1 : DWord) 31 20) = false ∧
    (world.boot.stage = 0 ∧ (booted []).boot.stage ≠ 0 ∧ (booted []).boot.halted = false) ∧
    ((booted []).hostWait = [] ∧ (booted []).hostRow = none) ∧ 0x3000000000 ≤ 0x3000000000 ∧ 0x40 < 0x3000000000 ∧
    (∀ w, (starved []).hostPass 0x40 (min 2 (0x3000000000 - 0x40)) w = none ∧ ((booted []).hostPass 0x40 (min 2 (0x3000000000 - 0x40)) w).isSome = true) ∧
    (booted []).shadows = [] ∧
    (booted []).mem.wf = true ∧ (booted []).poisoned 0x40 2 = false := by
  and_intros <;> decide +kernel

/-- The address where core 0 contributes to segment 1 of tag 2 of window 0, an access that does so, and the window. -/
def inAlias : Nat := 0xf10000020104
def contributing : State :=
  { acting [(7, anAccess .store inAlias)] with ev := [7], hub := [(0x200000, 0x1440440), (0x200008, 2), (0x200010, 0x4000000000001)] }

/-- The same where the slots of the window's port are all taken. -/
def full512 : State :=
  { contributing with ul := { inputs := (List.range 512).map fun i => (i + 8, { win := 0, tag := 9, seg := i, round := 0, rlo := 0, rhi := 0, data := [] }) } }

/-- A window that takes segments of a header. -/
def aHeader : Nat := 2 * 2 ^ 224 + 1 * 2 ^ 208 + 0x11 * 2 ^ 162 + 4 * 2 ^ 32
def receiving (u : Uliah := {}) : State := { contributing with accs := [], ul := u, ev := [0, aHeader, 0x01020304, 0] }
def anInput1 : Segment := segmentOf 0 aHeader 0x01020304 0
def grouped : State := { receiving { inputs := [(8, anInput1)] } with ev := [0, 2, 1] }

/-- A window that spills, with a handler that has waited long. -/
def aWaiter : Handler := { win := 0, tag := 2, seg := 1, round := 0, pc := 0, comb := some (0, 3, 1) }
def spilling : State :=
  { grouped with hub := (0x200028, 0x100000010) :: grouped.hub, ul := { grouped.ul with handlers := [(5, aWaiter)] }, net := { hubClock := 16 } }

/-- A window with a spill area at 0x20000, and a packet sent over Ultra Ethernet at cycle 0 with a timeout of 16. -/
def spillable : State := { spilling with hub := (0x200020, 0x20000) :: (0x200028, 0x200000010) :: spilling.hub }
def aSegment : UePacket := { port := 0, peer := 3, win := 7, header := aHeader, payload := 0 }
def sending (t : Nat) : State := { world with hub := [(0x480000, 16)], net := { hubClock := t }, ul := { sent := [(8, aSegment)] }, ev := [8] }

/-- The package with a link in a state. -/
def linked (k : Link) (l : List Nat) : State := { world with links := [(0, k)], ev := l }
def sentAs (q : Nat) : FabPacket := { seq := q, items := [] }
def upLink : Link := { width := 16, unacked := [sentAs 4, sentAs 5, sentAs 6] }

/-- An access to a peer that has had no link for long. -/
def anOwed (kind : AccKind) : PeerAcc := { peer := 31, off := 0x40, kind := kind, size := 4, data := 0, access := 6, launch := 1, since := some 0 }
def owing (kind : AccKind) : State :=
  { acting [(6, anAccess .load inNear)] with peers := [(9, anOwed kind)], net := { hubClock := 0x100000 }, ev := [9] }

theorem witness_CollectiveRowResults :
    (contributing.awMode 0 ≠ 0 ∧ (world.awMode 0 = 0 ∧ world.awMode 255 = 0)) ∧
    world.awOk 0 (BitVec.ofNat 64 0x1440440 &&& awMask 0) = true ∧ world.awOk 0 (BitVec.ofNat 64 0x4000000 &&& awMask 0) = false ∧
    contributing.accs = [(7, anAccess .store inAlias)] ∧ regionOf inAlias = .alias_ 0 0x20104 ∧ contributing.awHalted 0 = false ∧
    contributing.mayContribute 0 0 0x20104 = true ∧ contributing.ul.parts = [] ∧ contributing.slotsUsed (contributing.awPort 0) < 512 ∧
    (contributing.fsPass 5 [(3, columnLink (coreRouter 0) (unitRouter 1))]).isSome = true ∧ (contributing.bucket 0 2).spilled = false ∧
    512 ≤ full512.slotsUsed (full512.awPort 0) ∧ full512.spillPages 0 = 0 ∧ full512.mayContribute 0 0 0x20104 = true ∧ full512.awHalted 0 = false ∧ (∃ i ∈ dataBytes (contributing.awMode 0) (contributing.awType 0), i < 4 ∨ 4 + 4 ≤ i) ∧
    world.takesSegment 0 aHeader = none ∧ receiving.takesSegment 0 aHeader = some 0 ∧ receiving.awHalted 0 = false ∧ (anInput1.round + 256 - (receiving.bucket 0 anInput1.tag).round) % 256 < 128 ∧
    receiving.ul.seen.contains anInput1.range = false ∧ (receiving { seen := [anInput1.range] }).ul.seen.contains anInput1.range = true ∧
    (receiving.bucket 0 anInput1.tag).spilled = false ∧ receiving.slotsUsed (receiving.awPort 0) < 512 ∧
    (grouped.awMode 0 ≠ 0 ∧ grouped.awHalted 0 = false ∧ 1 ∉ (grouped.bucket 0 2).begun ∧ grouped.groupLive 0 2 (grouped.bucket 0 2).round 1 = false ∧
      (∃ i ∈ Tbl.vals grouped.ul.inputs, i.win = 0 ∧ i.tag = 2 ∧ i.seg = 1 ∧ i.round = (grouped.bucket 0 2).round) ∧ grouped.ul.handlers = []) ∧
    (bitsAt (spilling.aw 0 40) 31 0 ≠ 0 ∧ spilling.spillPages 0 ≠ 0 ∧ (spilling.bucket 0 2).spilled = false ∧
      (∃ h ∈ Tbl.vals spilling.ul.handlers, h.win = 0 ∧ h.tag = 2 ∧ h.seg = 1 ∧ h.comb ≠ none ∧ h.since + bitsAt (spilling.aw 0 40) 31 0 ≤ spilling.net.hubClock)) ∧
    (∀ t ∈ [15, 16], Tbl.find? (sending t).ul.sent 8 = some aSegment ∧ (t < aSegment.since + (sending t).ueTimeout aSegment.port) = (t = 15)) ∧
    (spillable.ul.inputs = [(8, anInput1)] ∧ anInput1.spilled = none ∧ anInput1.bad = [] ∧ spillable.ul.parts = [] ∧ spillable.spillPlace 0 = some 0 ∧
      (spillable.portPass [] (spanOf (spillable.spillPa 0 0) (32 + anInput1.data.length))).isSome = true ∧ spillable.shadows = [] ∧ spillable.mem.wf = true) ∧
    (∀ o ∈ accessOps 128 [0, 0, 0, 0x40, 8, 0, 0, 77], o.getD 3 0 / 2 ^ 38 ≠ 1) ∧
    ({ upLink with retrain := some 8 } : Link).retrain = some 8 ∧ ({ upLink with width := 0 } : Link).width = 0 ∧
    (∀ k ∈ [AccKind.load, .store], (linked upLink []).peerReady k 0x40 4 = true) ∧ (linked upLink []).poisoned 0x40 4 = false ∧
    (∃ ln, Tbl.find? (owing .store).launches 1 = some ln ∧ ln.nerr = 0) ∧
    (∀ e ∈ [sentAs 4], e.seq ≠ 5) ∧ upLink.unacked = [sentAs 4] ++ sentAs 5 :: [sentAs 6] ∧ upLink.width ≠ 0 ∧ upLink.retrain = none ∧
    (3 ∈ upLink.lanes ∧ 0 < min upLink.width (widest (insNat upLink.badLanes 3))) ∧
    (3 ∉ ({ upLink with width := 4, badLanes := [2] } : Link).lanes) ∧
    (4 ∈ ({ upLink with width := 4, badLanes := [0, 8, 12] } : Link).lanes ∧ widest (insNat [0, 8, 12] 4) = 0) ∧ widest upLink.badLanes ≠ 0 ∧
    (∀ kind ∈ [AccKind.load, .store], (owing kind).peerCut 31 = true) ∧ (∃ ln, Tbl.find? (owing .store).launches 1 = some ln) ∧
    (peerTarget 0x40 = some 0x40 ∧ isHomed 0x40 = true) := by
  and_intros <;> first | exact ⟨_, rfl⟩ | decide +kernel

/-! ## Witnesses: reliability, power and boot -/

/-- The package with an error ring of 64 records, or none, and corrections counted by unit 0 of class 2. -/
def ringing (base : DWord) (l : List Nat) : State := { world with hub := [(0x600000, base)], corrected := [(2 * 4096, (0, 3))], ev := l }

/-- The package whose firing schedule grants scrub no more of a line, and that with a scan under way. -/
def unscrubbed : State := { world with fs := [(fsCountKey (ctlArbiter 1).1 (ctlArbiter 1).2 1, 0x10000)], ev := [1, 2] }
def scanning (stage : Nat) (blocks : Bool := false) : State :=
  { (if blocks then world else State.reset) with scan := { stage := stage, core := 0, package := 0x1000 }, hub := [(0x680008, 0x100)], ev := [2 ^ 60 + 0x1000] }

/-- The world in known-answer mode, with a suspect lane or none. -/
def answering (x : List Nat) (v : Nat) : State :=
  { (world.onCore 0 fun co => { co with suspect := x.map fun m => (0, BitVec.ofNat 32 m) }) with hub := [(0x100040, 2)], ev := [0, 0, v] }

/-- A cohort that a checkpoint of stack 0 brings back. -/
def returning (h : Cohort) : Cohort := { h with back := [0] }

/-- The package with an area for the checkpoints of stack 0 in the memory of stack 1. -/
def stacking (pages : Nat) (x : StackSt) (s : State := world) (clock : Nat := 0) : State :=
  { s with hub := [(0x700008, 0x104000000000), (0x700010, BitVec.ofNat 64 pages)], stackTbl := [(0, x)], net := { hubClock := clock }, ev := [0] }

theorem witness_ReliabilityRowResults :
    ((ringing 0x8000000000001000 []).hubReg 0x600000).getLsbD 63 = true ∧ ((ringing 0 []).hubReg 0x600000).getLsbD 63 = false ∧
    (∀ b ∈ [0, 0x8000000000001000], Tbl.find? (ringing (BitVec.ofNat 64 b) [2, 0]).corrected (2 * 4096 + 0) = some (0, 3)) ∧
    ((ringing 0x8000000000001000 []).shadows = [] ∧ (ringing 0x8000000000001000 []).mem.wf = true) ∧
    (let s := ringing 0x8000000000001000 [2, 0]
     let head := (s.hubReg 0x600010).toNat % 2 ^ 32
     (head + 2 ^ 32 - (s.hubReg 0x600018).toNat % 2 ^ 32) % 2 ^ 32 ≠ 2 ^ (6 + bitsAt (s.hubReg 0x600008) 3 0) ∧
       isHomed ((s.hubReg 0x600000).toNat % 2 ^ 52 / 64 * 64 + 32 * (head % 2 ^ (6 + bitsAt (s.hubReg 0x600008) 3 0))) = true) ∧
    (isHomed (1 * 128) = true ∧ unscrubbed.fsPass 1 [ctlArbiter 1] = none ∧ (world.fsPass 1 [ctlArbiter 1]).isSome = true) ∧
    (isHomed 0x40 = true ∧ regionOf (accBase 0 + 4) = .core 0 .acc 4) ∧
    (world.cohort? 0 (163 / 8192) = some firstCohort ∧ firstCohort.absent = [] ∧ world.cohort? 0 0 = some firstCohort ∧ firstCohort.ending = false) ∧
    (∃ bl, world.block? 0 firstCohort.slot = some bl) ∧ (∃ ln, Tbl.find? world.launches firstCohort.launch = some ln) ∧
    ((scanning 0).scan.stage = 0 ∧ (2 ^ 60 + 0x1000) / 2 ^ 60 % 16 = 1 ∧ (scanning 0).shadows = []) ∧
    ((scanning 1).scan.stage = 1 ∧ ((scanning 1).core (scanning 1).scan.core).blocks = []) ∧
    ((linesOf (scanning 1).scanLines).all (scanning 1).readReady = true ∧ ((scanning 1).fsLines 2 none (scanning 1).scanLines).isSome = true) ∧
    (firstCohort.late = [] ∧ world.block? 0 firstCohort.slot ≠ none ∧ 10 < 256) ∧
    ((scanning 2).scan.stage = 2 ∧ ((scanning 2).hubReg 0x680008).toNat % 2 ^ 52 / 8 * 8 = 0x100 ∧ isHomed 0x100 = true ∧ (scanning 2).mem.wf = true ∧
      ((scanning 2).hubReg 0x600000).getLsbD 63 = false) ∧
    (∀ x ∈ [[], [8], [24]], ((answering x 8).core 0).homed 0 = [0] ∧ (answering x 8).cohort? 0 0 = some firstCohort ∧
      ((answering x 8).ctx firstCohort.asid 0).getLsbD 1 = true ∧ ((answering x 8).hubReg 0x600000).getLsbD 63 = false ∧
      (Tbl.at ((answering x 8).core 0).suspect 0 0).toNat = x.headD 0) ∧ lowestLane 24 = 3 ∧ (24 : Mask) &&& ~~~(1#32 <<< 3) ≠ 0 ∧ lowestLane 8 = 3 ∧
      (8 : Mask).getLsbD 3 = true ∧ (16 : Mask).getLsbD 3 = false ∧
    (firstCohort.alive.getLsbD 3 = true ∧ firstCohort.alive &&& ~~~(1#32 <<< 3) ≠ 0) ∧
    ((stacking 0x1000 {}).areaOk 0 = true ∧ ckptSize ((stacking 0x1000 {}).covered 0) ≤ (stacking 0x1000 {}).stkReg 0 16 % 2 ^ 32 * 4096) ∧
    (world.areaOk 0 = false ∧ (stacking 1 {}).areaOk 0 = true ∧ ¬ ckptSize ((stacking 1 {}).covered 0) ≤ (stacking 1 {}).stkReg 0 16 % 2 ^ 32 * 4096) ∧
    (∀ e ∈ world.placedBlocks, e.1.1 / 32 ≠ 7) ∧
    (∀ e ∈ (stacking 0x1000 { step := 1 } outside).covered 0, e.2.started = true ∧
      ∀ h ∈ Tbl.vals ((stacking 0x1000 { step := 1 } outside).core e.1.1).cohorts, h.slot ≠ e.1.2) ∧
    (∀ e ∈ (stacking 0x1000 { step := 2 } outside).covered 0, (stacking 0x1000 { step := 2 } outside).mayEvict e.1.1 e.1.2 e.2 = true) ∧
    (stacking 0x1000 { step := 2 } outside).covered 0 ≠ [] ∧
    (∀ e ∈ [({ step := 4 } : StackSt), { step := 5 }, { step := 5, up := 32 }, { step := 3 }], Tbl.at (stacking 0x1000 e).stackTbl 0 {} = e) ∧
    ((stacking 0x1000 {}).setHub 8 1).stackCores 0 = [0] ∧ (stacking 0x1000 {}).stackCores 0 = [] ∧
    (∃ co ∈ Tbl.vals (stacking 0x1000 { step := 3 } (outside returning)).cores, ∃ h ∈ co.away, 0 ∈ h.back) ∧
    (∀ co ∈ Tbl.vals (stacking 0x1000 { step := 3 } outside).cores, ∀ h ∈ co.away, 0 ∉ h.back) := by
  and_intros <;> first | exact ⟨_, rfl⟩ | decide +kernel

/-- The package at a stage of its boot, with some islands up. -/
def booting (stage islands : Nat) (l : List Nat := []) : State := { State.reset with boot := { stage := stage, islands := islands }, hub := [(8, 1)], ev := l }

theorem witness_BootRowResults :
    (∀ stage ∈ [0, 1, 2, 3], (booting stage 0).boot.stage = stage ∧ (booting stage 0).boot.halted = false) ∧
    (32 ≤ (booting 1 32).boot.islands ∧ (booting 1 32).boot.stage < 3) ∧
    (∀ e ∈ [(1, 0, 287), (1, 31, 285), (3, 32, 0), (3, 33, 288), (3, 36, 291), (3, 37, 292), (3, 44, 299)],
      (booting e.1 e.2.1).boot.stage ≠ 0 ∧ ((booting e.1 e.2.1).boot.islands < 32 ∨ 3 ≤ (booting e.1 e.2.1).boot.stage) ∧
        (booting e.1 e.2.1).rampOrder[(booting e.1 e.2.1).boot.islands]? = some e.2.2) ∧
    (booting 3 0).scan.passed = 0 ∧ ({ booting 3 0 with scan := { passed := 4 } } : State).scan.passed ≠ 0 ∧
    (∀ x ∈ [0, 511], (booting 3 0 [x, 7]).ev = [x, 7] ∧ x < 512) := by
  and_intros <;> decide +kernel

/-! ## Witnesses: encodings, steps and memory -/

theorem witness_DecodeEncode :
    (Instr.mov16 15 0).wf = true ∧ (Instr.mov16 15 0).size = 2 ∧ (Instr.bra 0x1fffff 15).wf = true ∧ (Instr.bra 0x1fffff 15).size = 4 ∧
    (Instr.bra 0x1fffff 15).isUliah = false ∧ (Instr.uli 15 0x7ffff).wf = true ∧ (Instr.uli 15 0x7ffff).isUliah = true := by
  decide +kernel

theorem decodes_of {r : Except DecodeError Instr} (h : (match r with | .ok _ => true | .error _ => false) = true) : ∃ i, r = .ok i := by
  cases r with
  | ok i => exact ⟨i, rfl⟩
  | error _ => cases h

theorem witness_EncodeDecode :
    (0xffc0 < 2 ^ 16 ∧ 0xffc0 % 2 = 0 ∧ ∃ i, decodeHalf 0xffc0 = .ok i) ∧
    (0xffffd03d < 2 ^ 32 ∧ 0xffffd03d % 2 = 1 ∧ ∃ i, decodeWord 0xffffd03d = .ok i) ∧ (decodeUliah 0x0f87ffff).isSome = true := by
  and_intros <;> first | exact decodes_of (by decide +kernel) | decide +kernel

/-- A core's word placed at reset, and what the unit of its split picks there. -/
def placed (w : Nat) : State := State.reset.withFetchWord 32 w
def picked (w : Nat) : Option (Nat × Nat) × State := (({ placed w with turn := 2 }).tickCore 0).pick 0 0 false
def cycled (w : Nat) : State := (picked w).2.quadCycle 0 0
def pickedH (w : Nat) : Cohort := ((cycled w).cohort? 0 0).getD {}
def pickedS (w : Nat) : Split := ((pickedH w).split? 0).getD {}

theorem witness_StepRunsDecoded :
    ((placed 0x3c1).picks = [] ∧ (placed 0x3c1).agenda = [] ∧ (placed 0x3c1).turn = 0 ∧ (Tbl.keys (placed 0x3c1).cores)[0]? = some 0 ∧
      (picked 0x3c1).1 = some (0, 0) ∧ (cycled 0x3c1).cohort? 0 0 = some (pickedH 0x3c1) ∧ (pickedH 0x3c1).split? 0 = some (pickedS 0x3c1) ∧
      ((cycled 0x3c1).fetchAt 0 (pickedH 0x3c1).asid ((cycled 0x3c1).gangOf 0 (pickedH 0x3c1)) (pickedS 0x3c1).pc.toNat).1 = .bytes (wordBytes 4 0x3c1)) ∧
    (match decode (wordBytes 4 0x3c1) with | .ok x => x == (.nop, 4) | .error _ => false) = true ∧
    ((placed 0x68000000).picks = [] ∧ (placed 0x68000000).agenda = [] ∧ (Tbl.keys (placed 0x68000000).cores)[0]? = none ∧
      (placed 0x68000000).ul.port = 0 ∧ ({ placed 0x68000000 with turn := 2 }).tickHub.nextHandler = some (0, 1) ∧
      (({ placed 0x68000000 with turn := 2 }).tickHub.ulFetch { win := 0, tag := 0, seg := 0, round := 0, pc := 0 }).bind decodeUliah = some .uend) ∧
    ({ world with agenda := [{ row := .schedule, ops := [] }] } : State).turn % 2 = 0 := by
  and_intros <;> decide +kernel

theorem next_of {r : Out} (h : (match r with | .next _ => true | _ => false) = true) : ∃ t, r = .next t := by
  cases r with
  | next t => exact ⟨t, rfl⟩
  | fault _ => cases h
  | refused _ => cases h

theorem witness_MemoryStaysCanonical : (placed 0x3c1).mem.wf = true ∧ (placed 0x3c1).mem ≠ [] ∧ ∃ t, step (placed 0x3c1) = .next t := by
  and_intros <;> first | exact next_of (by decide +kernel) | decide +kernel

end Sys2Proof.Tests
end

section
/-! SUPPORT. The lanes that an instruction writes, one mask operation at a time (R7, R55, R78). -/

namespace Sys2Proof.Machine

open Sys2Proof

@[simp] theorem inMask_and (m n : Mask) (l : Nat) : inMask (m &&& n) l = (inMask m l && inMask n l) := by
  simp [inMask]

theorem inMask_not (m : Mask) {l : Nat} (hl : l < 32) : inMask (~~~m) l = !inMask m l := by
  simp [inMask, hl]

theorem inMask_allOnes {l : Nat} (hl : l < 32) : inMask (BitVec.allOnes 32) l = true := by
  rw [inMask, BitVec.getLsbD_allOnes, decide_eq_true hl]

/-- R7: the active lanes. -/
theorem Cohort.inMask_active_iff (h : Cohort) (sp : Split) {l : Nat} (hl : l < 32) :
    inMask (h.active sp) l = true ↔ inMask sp.entry l = true ∧ inMask sp.exec l = true ∧ inMask h.dmask l = false := by
  simp [Cohort.active, inMask_not _ hl, and_assoc]

/-- R55: guards 1 to 7 test a predicate, and 8 to 15 the same predicates negated. -/
theorem Cohort.inMask_guardMask_iff (h : Cohort) {g l : Nat} (hg : g < 16) (hl : l < 32) :
    inMask (h.guardMask g) l = true ↔
      g = 0 ∨ (0 < g ∧ g < 8 ∧ inMask (h.pred g) l = true) ∨ (8 ≤ g ∧ inMask (h.pred (g - 8)) l = false) := by
  rcases Nat.eq_zero_or_pos g with rfl | hpos
  · simp only [Cohort.guardMask, ↓reduceIte, inMask_allOnes hl, true_or]
  · rcases Nat.lt_or_ge g 8 with h8 | h8
    · simp [Cohort.guardMask, hpos.ne', Nat.not_le.mpr h8, Nat.mod_eq_of_lt h8, hpos, h8]
    · have hmod : g % 8 = g - 8 := by omega
      simp [Cohort.guardMask, hpos.ne', h8, hmod, inMask_not _ hl, Nat.not_lt.mpr h8]

/-- Settles O1: the writing lanes are the active ones where the guard passes. -/
theorem writingLanes : Obligations.WritingLanes := by
  intro h sp g l hg hl
  rw [Cohort.writing, inMask_and, Bool.and_eq_true, h.inMask_active_iff sp hl, h.inMask_guardMask_iff hg hl]
  simp only [and_assoc]

end Sys2Proof.Machine
end

section
/-! SUPPORT. Hub registers read after a write of one, and at reset (R6). -/

namespace Sys2Proof.Machine

open Sys2Proof

/-- The offsets of the hub registers that are held as they were written: those of links, stacks and program memory are computed. -/
def StoredReg (off : Nat) : Prop :=
  ¬ (0x580100 ≤ off ∧ off < 0x580300) ∧ ¬ (0x700000 ≤ off ∧ off < 0x700200 ∧ off % 0x40 = 0x18) ∧ ¬ (0x300000 ≤ off ∧ off < 0x304000)

theorem State.hubReg_of_stored (s : State) {off : Nat} (h : StoredReg off) :
    s.hubReg off = (Tbl.find? s.hub off).getD (hubReset off) := by
  obtain ⟨hlink, hstack, hprog⟩ := h
  have hstat : ¬ (0x580100 ≤ off ∧ off < 0x580200) := by omega
  have hctl : ¬ (0x580200 ≤ off ∧ off < 0x580300) := by omega
  unfold State.hubReg
  rw [if_neg hstat, if_neg hctl, if_neg hstack, if_neg hprog]
  cases Tbl.find? s.hub off <;> rfl

/-- The value of a hub register rests on these parts of the state alone. -/
theorem State.hubReg_congr {s t : State} (off : Nat) (hfind : Tbl.find? t.hub off = Tbl.find? s.hub off) (hlinks : t.links = s.links)
    (hstacks : t.stackTbl = s.stackTbl) (hul : t.ul = s.ul) : t.hubReg off = s.hubReg off := by
  simp only [State.hubReg, hfind, hlinks, hstacks, hul]

theorem State.hubReg_setHub_self (s : State) {off : Nat} (x : DWord) (h : StoredReg off) : (s.setHub off x).hubReg off = x := by
  rw [State.hubReg_of_stored _ h, State.setHub_hub, Tbl.find?_put_self, Option.getD_some]

theorem State.hubReg_setHub_ne (s : State) {off y : Nat} (x : DWord) (h : y ≠ off) : (s.setHub off x).hubReg y = s.hubReg y :=
  State.hubReg_congr y (Tbl.find?_put_ne s.hub x h) rfl rfl rfl

theorem State.reset_hubReg {off : Nat} (h : StoredReg off) : State.reset.hubReg off = hubReset off :=
  State.hubReg_of_stored _ h

/-- R320: at reset no entry of the context table is valid. -/
theorem State.reset_ctxValid {asid : Nat} (h : asid < 4096) : State.reset.ctxValid asid = false := by
  have hstored : StoredReg (0x100000 + 64 * asid + 0) := by unfold StoredReg; omega
  have hzero : hubReset (0x100000 + 64 * asid + 0) = 0 := by
    simp (disch := omega) only [hubReset, if_neg]
  rw [State.ctxValid, State.ctx, State.reset_hubReg hstored, hzero]
  rfl

/-- A byte put at bit 8 of a number that is clear there leaves what lies on both sides of it. -/
theorem packageId_fields (c : BitVec 8) :
    (0x09400001#64 ||| (c.zeroExtend 64 <<< 8)).toNat / 2 ^ 16 = 0x940 ∧ (0x09400001#64 ||| (c.zeroExtend 64 <<< 8)).toNat % 2 ^ 8 = 1 := by
  have hlt : c.toNat < 2 ^ 8 := c.isLt
  have hshift : (c.zeroExtend 64 <<< 8).toNat = c.toNat * 2 ^ 8 := by
    rw [BitVec.toNat_shiftLeft, BitVec.toNat_setWidth, Nat.shiftLeft_eq]
    omega
  have hhigh : c.toNat * 2 ^ 8 / 2 ^ 16 = 0 := by omega
  have hlow : c.toNat * 2 ^ 8 % 2 ^ 8 = 0 := by omega
  rw [BitVec.toNat_or, hshift, Nat.or_div_two_pow, Nat.or_mod_two_pow, hhigh, hlow]
  decide

/-- R17: the fields of `PKGID` on both sides of the stepping. -/
theorem hubReset_packageId : (hubReset 0).toNat / 2 ^ 16 = 0x940 ∧ (hubReset 0).toNat % 2 ^ 8 = 1 :=
  packageId_fields Config.stepping

/-- R287: the reset value of every budget of the firing schedule. -/
theorem hubReset_budget {cls act : Nat} (hcls : cls < 4) (hact : act < 8) : hubReset (0x1000 + 0x40 * cls + 8 * act) = 0x10000 := by
  have hzero : 0x1000 + 0x40 * cls + 8 * act ≠ 0 := by omega
  have hpair : 0x1000 + 0x40 * cls + 8 * act ≠ 0x38 := by omega
  have hrange : 0x1000 ≤ 0x1000 + 0x40 * cls + 8 * act ∧ 0x1000 + 0x40 * cls + 8 * act < 0x1100 := by omega
  rw [hubReset, if_neg hzero, if_neg hpair, if_pos hrange]

/-- Settles O60: what stands in tables is empty, and each hub register reads its reset value. -/
theorem resetState : Obligations.ResetState := by
  have hpkg : State.reset.hubReg 0 = hubReset 0 := State.reset_hubReg (by unfold StoredReg; omega)
  refine ⟨rfl, rfl, rfl, rfl, rfl, fun a ha => State.reset_ctxValid ha, ?_, ?_, fun cls act hcls hact => ?_, ?_, Mem.reset_wf, fun _ => rfl⟩
  · rw [hpkg]; exact hubReset_packageId.1
  · rw [hpkg]; exact hubReset_packageId.2
  · rw [State.reset_hubReg (by unfold StoredReg; omega), hubReset_budget hcls hact]
  · exact State.reset_hubReg (by unfold StoredReg; omega)

end Sys2Proof.Machine
end

section
/-! SUPPORT. What the bytes of memory are after a write at a home slice, and what reads and grants of lines leave as it was (R276 to R278, R286). -/

namespace Sys2Proof

/-- Bytes written are read back, and every other byte reads as before. -/
theorem Mem.rd_wrBytes {m : Mem} (h : m.wf = true) (a : Nat) (bs : List Byte) (b : Nat) :
    Mem.rd (Mem.wrBytes m a bs) b = if a ≤ b ∧ b < a + bs.length then bs.getD (b - a) 0 else Mem.rd m b := by
  split
  · next hin =>
    have hlt : b - a < bs.length := by omega
    have hread := Mem.rd_wrBytes_in h a bs (b - a) hlt
    rw [Nat.add_sub_cancel' hin.1] at hread
    rw [hread, List.getD_eq_getElem _ _ hlt]
  · next hout => exact Mem.rd_wrBytes_out h a bs b (by omega)

/-- R2: each byte of a number in little-endian order. -/
theorem leBytes_getD (n w : Nat) {i : Nat} (h : i < n) : (leBytes n w).getD i 0 = BitVec.ofNat 8 (w / 256 ^ i) := by
  induction n generalizing w i with
  | zero => omega
  | succ n ih =>
    cases i with
    | zero => simp [leBytes]
    | succ i =>
      rw [leBytes, List.getD_cons_succ, ih _ (by omega), Nat.div_div_eq_div_mul, Nat.pow_succ, Nat.mul_comm]

end Sys2Proof

namespace Sys2Proof.Machine

open Sys2Proof

/-! Near memory (R14). -/

theorem regionOf_near {pa : Nat} (h : pa < nearEnd) : regionOf pa = .near := if_pos h

theorem isHomed_near {pa : Nat} (h : pa < nearEnd) : isHomed pa = true := by rw [isHomed, regionOf_near h]

theorem State.peek_near (s : State) {pa : Nat} (h : pa < nearEnd) : s.peek pa = Mem.rd s.mem pa := by
  rw [State.peek, regionOf_near h]

/-- What stands in near memory rests on the bytes of memory alone. -/
theorem State.peekN_near {s t : State} {pa n : Nat} (hmem : t.mem = s.mem) (h : ∀ i, i < n → pa + i < nearEnd) : t.peekN pa n = s.peekN pa n := by
  have hbytes : ∀ i ∈ List.range n, t.peek (pa + i) = s.peek (pa + i) := by
    intro i hi
    have hlt : pa + i < nearEnd := h i (List.mem_range.mp hi)
    rw [State.peek_near t hlt, State.peek_near s hlt, hmem]
  rw [State.peekN, State.peekN, List.map_congr_left hbytes]

theorem State.narrow_of_none {s : State} {line : Nat} (h : Tbl.find? s.shadows line = none) : s.narrow line = s := by
  rw [State.narrow, h]

theorem State.narrowIn_of_none {s : State} {pa n : Nat} (hfirst : Tbl.find? s.shadows (pa / 128) = none)
    (hlast : Tbl.find? s.shadows ((pa + n - 1) / 128) = none) : s.narrowIn pa n = s := by
  rw [State.narrowIn, State.narrow_of_none hfirst, State.narrow_of_none hlast, ite_self]

/-! Lines at their slices. -/

/-- A line written at its home changes the slices, the network and what is due. -/
theorem State.lineWritten_frame (s : State) (line : Nat) :
    { s.lineWritten line with slices := s.slices, nextId := s.nextId, agenda := s.agenda, net := s.net } = s := by
  unfold State.lineWritten
  dsimp only
  split <;> rfl

/-- A line read at its home changes the slices and what is due. -/
theorem State.lineRead_frame (s : State) (line reuse : Nat) :
    { s.lineRead line reuse with slices := s.slices, agenda := s.agenda } = s := by
  unfold State.lineRead
  dsimp only
  split
  · rfl
  · split <;> rfl

/-- Lines written at their homes change the slices, the network and what is due. -/
theorem State.foldl_lineWritten_frame (s : State) (lines : List Nat) :
    { lines.foldl State.lineWritten s with slices := s.slices, nextId := s.nextId, agenda := s.agenda, net := s.net } = s := by
  refine List.foldlRecOn lines State.lineWritten
    (motive := fun t => { t with slices := s.slices, nextId := s.nextId, agenda := s.agenda, net := s.net } = s) rfl ?_
  intro t ht line _
  exact (congrArg (fun u : State => { u with slices := s.slices, nextId := s.nextId, agenda := s.agenda, net := s.net })
    (t.lineWritten_frame line)).trans ht

/-- Where no shadow is open, lines read and narrowed at their homes change the slices and what is due. -/
theorem State.foldl_lineRead_frame {s : State} (hshadows : s.shadows = []) (lines : List Nat) :
    { lines.foldl (fun (u : State) line => (u.lineRead line 0).narrow line) s with slices := s.slices, agenda := s.agenda } = s := by
  refine List.foldlRecOn lines (fun (u : State) line => (u.lineRead line 0).narrow line)
    (motive := fun t => { t with slices := s.slices, agenda := s.agenda } = s) rfl ?_
  intro t ht line _
  have hread := t.lineRead_frame line 0
  have hopen : (t.lineRead line 0).shadows = [] := calc
    (t.lineRead line 0).shadows = t.shadows := (congrArg State.shadows hread :)
    _ = s.shadows := (congrArg State.shadows ht :)
    _ = [] := hshadows
  rw [State.narrow_of_none (by rw [hopen, Tbl.find?_nil])]
  exact (congrArg (fun u : State => { u with slices := s.slices, agenda := s.agenda }) hread).trans ht

/-! Bytes at their home. -/

/-- R280: monitors that fire leave the bytes of memory. -/
theorem State.fireSeen_mem (s view : State) (ws : List (Nat × Nat)) : (s.fireSeen view ws).mem = s.mem :=
  List.foldlRecOn (motive := fun t : State => t.mem = s.mem) _ State.wake rfl fun _ ht _ _ => ht

/-- R276: where no shadow is open on the first and the last line, the bytes of one access land as they are. -/
theorem State.land_mem {s : State} {pa : Nat} {bs : List Byte} (hfirst : Tbl.find? s.shadows (pa / 128) = none)
    (hlast : Tbl.find? s.shadows ((pa + bs.length - 1) / 128) = none) : (s.land [(pa, bs)]).mem = Mem.wrBytes s.mem pa bs := by
  unfold State.land
  rw [State.fireSeen_mem]
  simp only [List.foldl_cons, List.foldl_nil, State.narrowIn_of_none hfirst hlast, State.poke]

/-- A write at its home writes its bytes, unless they are in a frame that no handle holds. -/
theorem State.homeWrite_mem {s : State} {pa : Nat} {bs : List Byte} (hhome : isHomed pa = true ∨ s.frameless pa = false ∨ bs = [])
    (hfirst : Tbl.find? s.shadows (pa / 128) = none) (hlast : Tbl.find? s.shadows ((pa + bs.length - 1) / 128) = none) :
    (s.homeWrite pa bs).mem = Mem.wrBytes s.mem pa bs := by
  unfold State.homeWrite
  split
  · have hframe := s.foldl_lineWritten_frame (linesIn pa bs.length)
    have hshadows : ((linesIn pa bs.length).foldl State.lineWritten s).shadows = s.shadows := (congrArg State.shadows hframe :)
    have hmem : ((linesIn pa bs.length).foldl State.lineWritten s).mem = s.mem := (congrArg State.mem hframe :)
    rw [State.land_mem (by rw [hshadows, hfirst]) (by rw [hshadows, hlast]), hmem]
  · next hnot =>
    split
    · next hframeless =>
      obtain rfl : bs = [] := by simpa [hnot, hframeless] using hhome
      rfl
    · rfl

/-! Grants of the firing schedule (R286). -/

/-- A grant changes the counts and `FSSTAT`. -/
theorem State.fsGrant_frame (s : State) (cls ix act : Nat) : { s.fsGrant cls ix act with fs := s.fs, hub := s.hub } = s := by
  unfold State.fsGrant
  dsimp only
  split <;> rfl

/-- Grants along a path change the counts and `FSSTAT`. -/
theorem State.fsPass_frame {s u : State} {act : Nat} {path : List (Nat × Nat)} (h : s.fsPass act path = some u) :
    { u with fs := s.fs, hub := s.hub } = s := by
  unfold State.fsPass at h
  split at h
  · obtain rfl := Option.some.inj h
    refine List.foldlRecOn path (fun (t : State) p => t.fsGrant p.1 p.2 act)
      (motive := fun t => { t with fs := s.fs, hub := s.hub } = s) rfl ?_
    intro t ht p _
    exact (congrArg (fun u : State => { u with fs := s.fs, hub := s.hub }) (t.fsGrant_frame p.1 p.2 act)).trans ht
  · cases h

end Sys2Proof.Machine
end

section
/-! SUPPORT. What stands in a sparse table after an entry has been put there. -/

namespace Sys2Proof

variable {α : Type}

theorem Tbl.mem_put_self (t : Tbl α) (k : Nat) (a : α) : (k, a) ∈ Tbl.put t k a := by
  induction t with
  | nil => exact List.mem_singleton_self _
  | cons e r ih =>
    simp only [Tbl.put]
    split
    · exact List.mem_cons_self
    · split
      · exact List.mem_cons_self
      · exact List.mem_cons_of_mem _ ih

theorem Tbl.mem_put_of_ne {t : Tbl α} {k : Nat} {e : Nat × α} (a : α) (h : e ∈ t) (hne : e.1 ≠ k) : e ∈ Tbl.put t k a := by
  induction t with
  | nil => cases h
  | cons x r ih =>
    simp only [Tbl.put]
    split
    · exact List.mem_cons_of_mem _ h
    · split
      · next hk =>
        rcases List.mem_cons.mp h with rfl | hr
        · exact absurd hk hne
        · exact List.mem_cons_of_mem _ hr
      · rcases List.mem_cons.mp h with rfl | hr
        · exact List.mem_cons_self
        · exact List.mem_cons_of_mem _ (ih hr)

theorem Tbl.mem_of_mem_put {t : Tbl α} {k : Nat} {a : α} {e : Nat × α} (h : e ∈ Tbl.put t k a) : e = (k, a) ∨ e ∈ t := by
  induction t with
  | nil => exact .inl (List.mem_singleton.mp h)
  | cons x r ih =>
    simp only [Tbl.put] at h
    split at h
    · exact List.mem_cons.mp h
    · split at h
      · exact (List.mem_cons.mp h).imp_right (List.mem_cons_of_mem _)
      · rcases List.mem_cons.mp h with rfl | hr
        · exact .inr List.mem_cons_self
        · exact (ih hr).imp_right (List.mem_cons_of_mem _)

end Sys2Proof
end

section
/-! SUPPORT. The rows that write one hub register: host queues and writes by access kind (R6, R376, R377, R423). -/

namespace Sys2Proof.Machine

open Sys2Proof

/-! The shapes of these rows. -/

/-- The row writes one hub register; the others, every byte of memory and every core are as before. -/
def SetsReg (s : State) (row : Instr) (off : Nat) (x : DWord) : Prop :=
  Answers s row fun t => t.hubReg off = x ∧ (∀ y, y ≠ off → t.hubReg y = s.hubReg y) ∧ t.mem = s.mem ∧ t.cores = s.cores

theorem setsReg_of_setHub {s : State} {row : Instr} {off : Nat} {x : DWord} (hoff : StoredReg off)
    (h : exec row s = .next (s.setHub off x)) : SetsReg s row off x :=
  ⟨_, h, s.hubReg_setHub_self x hoff, fun _ hy => s.hubReg_setHub_ne x hy, rfl, rfl⟩

/-- The launch unit's look at the records that wait is a row that is due. -/
theorem State.pokeLaunch_frame (s : State) : { s.pokeLaunch with agenda := s.agenda } = s := by
  unfold State.pokeLaunch State.pushOnce
  split
  · rfl
  · split <;> rfl

@[simp] theorem State.pokeLaunch_hubReg (s : State) (off : Nat) : s.pokeLaunch.hubReg off = s.hubReg off :=
  (congrArg (fun u : State => u.hubReg off) s.pokeLaunch_frame :)

@[simp] theorem State.pokeLaunch_mem (s : State) : s.pokeLaunch.mem = s.mem := (congrArg State.mem s.pokeLaunch_frame :)

@[simp] theorem State.pokeLaunch_cores (s : State) : s.pokeLaunch.cores = s.cores := (congrArg State.cores s.pokeLaunch_frame :)

@[simp] theorem State.pokeLaunch_waiting (s : State) : s.pokeLaunch.waiting = s.waiting := (congrArg State.waiting s.pokeLaunch_frame :)

@[simp] theorem State.pokeLaunch_nextId (s : State) : s.pokeLaunch.nextId = s.nextId := (congrArg State.nextId s.pokeLaunch_frame :)

/-- Where a record waits, the launch unit's look at it is due. -/
theorem State.mem_agenda_pokeLaunch {s : State} (h : s.waiting ≠ []) : Due.mk .launchAccept [] ∈ s.pokeLaunch.agenda := by
  rw [State.pokeLaunch, if_neg h, State.pushOnce]
  split
  · next hin => exact List.contains_iff_mem.mp hin
  · simp

theorem State.arg_zero {s : State} {a : Nat} {l : List Nat} (h : s.ev = a :: l) : s.arg 0 = a := by simp [State.arg, h]

theorem State.arg_one {s : State} {a b : Nat} {l : List Nat} (h : s.ev = a :: b :: l) : s.arg 1 = b := by simp [State.arg, h]

/-! Configuration of host queues (R377). -/

/-- The offset of a register of host queue `n`. -/
theorem storedReg_hq {n off : Nat} (hn : n < 64) (hoff : off < 64) : StoredReg (0x500000 + 64 * n + off) := by
  unfold StoredReg; omega

/-- What a mask reaches that is set all the same is not read through it. -/
theorem and_or_absorb (x m y : DWord) : (x &&& (m ||| y)) ||| y = (x &&& m) ||| y := by grind

/-- A field is read through a mask that keeps all of it. -/
theorem bitsAt_and {x m : DWord} {hi lo : Nat} (h : bitsAt m hi lo = 2 ^ (hi + 1 - lo) - 1) : bitsAt (x &&& m) hi lo = bitsAt x hi lo := by
  unfold bitsAt at *
  rw [BitVec.toNat_and, Nat.and_div_two_pow, Nat.and_mod_two_pow, h, Nat.and_two_pow_sub_one_eq_mod, Nat.mod_mod]

/-- R377: a host queue that is there and not enabled takes its configuration. -/
theorem State.hq_opens {s : State} {n : Nat} (hn : n < 64) (hoff : ¬ (s.hq n 8).getLsbD 0 = true) :
    (decide (64 ≤ n) || (s.hq n 8).getLsbD 0) = false := by
  rw [decide_eq_false (Nat.not_le.mpr hn), Bool.false_or]
  exact Bool.eq_false_of_not_eq_true hoff

/-- R377: the fields of a value written to `HQCFG` that pass. -/
def HqCfgOk (s : State) (x : DWord) : Prop :=
  bitsAt x 17 16 < 2 ∧ 2 ≤ bitsAt x 7 4 ∧ bitsAt x 7 4 ≤ 12 ∧ s.ctxValid (bitsAt x 31 20) = true

theorem hqCfgOk_mask (s : State) (x : DWord) : HqCfgOk s (x &&& hqMask) ↔ HqCfgOk s x := by
  have hlevel : bitsAt (x &&& hqMask) 17 16 = bitsAt x 17 16 := bitsAt_and (by decide)
  have hsize : bitsAt (x &&& hqMask) 7 4 = bitsAt x 7 4 := bitsAt_and (by decide)
  have hasid : bitsAt (x &&& hqMask) 31 20 = bitsAt x 31 20 := bitsAt_and (by decide)
  rw [HqCfgOk, HqCfgOk, hlevel, hsize, hasid]

section
variable {s : State} {n v : Nat} (hev : s.ev = [n, v]) (hn : n < 64)
include hev hn

omit hn in
theorem hqEnable_enabled (hon : (s.hq n 8).getLsbD 0 = true) : exec .hqEnable s = .next s := by
  simp [exec_hqEnable, execHqEnable, State.arg_zero hev, hon]

omit hn in
theorem hqbaseWrite_enabled (hon : (s.hq n 8).getLsbD 0 = true) : exec .hqbaseWrite s = .next s := by
  simp [exec_hqbaseWrite, execHqbaseWrite, State.arg_zero hev, hon]

theorem hqEnable_passes (hoff : ¬ (s.hq n 8).getLsbD 0 = true) (hok : HqCfgOk s (BitVec.ofNat 64 v)) :
    SetsReg s .hqEnable (0x500000 + 64 * n + 8) ((BitVec.ofNat 64 v &&& 0xffff00f0) ||| 1) := by
  have hval : (BitVec.ofNat 64 v &&& hqMask) ||| 1 = (BitVec.ofNat 64 v &&& 0xffff00f0) ||| 1 := and_or_absorb _ 0xffff00f0 1
  have hcheck := (hqCfgOk_mask s _).mpr hok
  have hrun : exec .hqEnable s = .next (s.setHq n 8 ((BitVec.ofNat 64 v &&& 0xffff00f0) ||| 1)).pokeLaunch := by
    rw [exec_hqEnable, execHqEnable, State.arg_zero hev, State.arg_one hev, State.hq_opens hn hoff, if_neg Bool.false_ne_true, ← hval]
    exact if_pos (by simpa only [HqCfgOk, Bool.and_eq_true, decide_eq_true_eq, and_assoc] using hcheck)
  have hstored := storedReg_hq hn (by omega : 8 < 64)
  refine ⟨_, hrun, ?_, fun y hy => ?_, ?_, ?_⟩
  · rw [State.pokeLaunch_hubReg]; exact s.hubReg_setHub_self _ hstored
  · rw [State.pokeLaunch_hubReg]; exact s.hubReg_setHub_ne _ hy
  · rw [State.pokeLaunch_mem]; rfl
  · rw [State.pokeLaunch_cores]; rfl

theorem hqEnable_fails (hoff : ¬ (s.hq n 8).getLsbD 0 = true) (hbad : ¬ HqCfgOk s (BitVec.ofNat 64 v)) :
    Answers s .hqEnable fun t => (t.hubReg (0x500000 + 64 * n + 8)).getLsbD 0 = false ∧
      t.hubReg (0x500000 + 64 * n + 32) = s.hubReg (0x500000 + 64 * n + 32) ||| 4 ∧ t.mem = s.mem := by
  have hcheck := mt (hqCfgOk_mask s _).mp hbad
  have hrun : exec .hqEnable s =
      .next ((s.setHq n 8 (BitVec.ofNat 64 v &&& hqMask &&& 0xffff00f0)).setHq n 0x20 (s.hq n 0x20 ||| 4)) := by
    rw [exec_hqEnable, execHqEnable, State.arg_zero hev, State.arg_one hev, State.hq_opens hn hoff, if_neg Bool.false_ne_true]
    exact if_neg (by simpa only [HqCfgOk, Bool.and_eq_true, decide_eq_true_eq, and_assoc] using hcheck)
  refine ⟨_, hrun, ?_, ?_, rfl⟩
  · rw [State.setHq, State.hubReg_setHub_ne _ _ (by omega), State.setHq, State.hubReg_setHub_self _ _ (storedReg_hq hn (by omega)),
      BitVec.getLsbD_and]
    simp
  · exact State.hubReg_setHub_self _ _ (storedReg_hq hn (by omega))

theorem hqbaseWrite_disabled (hoff : ¬ (s.hq n 8).getLsbD 0 = true) :
    SetsReg s .hqbaseWrite (0x500000 + 64 * n + 0) (BitVec.ofNat 64 v &&& 0x800fffffffffffc0) :=
  setsReg_of_setHub (storedReg_hq hn (by omega)) <| by
    rw [exec_hqbaseWrite, execHqbaseWrite, State.arg_zero hev, State.arg_one hev, State.hq_opens hn hoff, if_neg Bool.false_ne_true]
    rfl

theorem hqDisable_sets : SetsReg s .hqDisable (0x500000 + 64 * n + 8) (s.hubReg (0x500000 + 64 * n + 8) &&& 0xfffffffffffffffe) :=
  setsReg_of_setHub (storedReg_hq hn (by omega)) <| by
    simp [exec_hqDisable, execHqDisable, State.arg_zero hev, Nat.not_le.mpr hn, State.setHq, State.hq]

/-- R377: a tail that lies beyond the ring is an overflow. -/
theorem hqDoorbell_overflow (hv : v < 2 ^ 16)
    (hfar : 2 ^ bitsAt (s.hq n 8) 7 4 < (v + 2 ^ 16 - (s.hq n 16).toNat % 2 ^ 16) % 2 ^ 16) :
    SetsReg s .hqDoorbell (0x500000 + 64 * n + 32) (s.hubReg (0x500000 + 64 * n + 32) ||| 2) :=
  setsReg_of_setHub (storedReg_hq hn (by omega)) <| by
    rw [exec_hqDoorbell, execHqDoorbell, State.arg_zero hev, State.arg_one hev, Nat.mod_eq_of_lt hv, if_neg (Nat.not_le.mpr hn), if_pos hfar]
    rfl

end

/-! Writes by access kind (R6). -/

section
variable {s : State} {a v : Nat} (hev : s.ev = [a, v])
include hev

theorem registerWrite_program (hlo : 0x300000 ≤ a) (hhi : a < 0x304000) : Answers s .registerWrite fun t =>
    t.ul.prog = Tbl.put s.ul.prog ((a - 0x300000) / 4) ((BitVec.ofNat 64 v).truncate 32) ∧ t.hub = s.hub ∧ t.mem = s.mem := by
  rw [Answers, exec_registerWrite, execRegisterWrite, State.arg_zero hev, State.arg_one hev, if_pos ⟨hlo, hhi⟩]
  exact ⟨_, rfl, rfl, rfl, rfl⟩

/-- R423: a power limit in range is taken. -/
theorem registerWrite_powerCap (ha : a = 0x720100) (hmin : 1000 ≤ v) (hmax : v ≤ 4000) :
    SetsReg s .registerWrite a (BitVec.ofNat 64 v) := by
  have hval : (BitVec.ofNat 64 v).toNat % 2 ^ 16 = v := by rw [BitVec.toNat_ofNat]; omega
  refine setsReg_of_setHub (by unfold StoredReg; omega) ?_
  rw [exec_registerWrite, execRegisterWrite, State.arg_zero hev, State.arg_one hev, if_neg (by omega), if_neg (by omega), if_pos ha]
  dsimp only
  rw [hval, if_pos ⟨hmin, hmax⟩]

/-- A register without a row of its own keeps what a write does not reach, takes what it reaches, and clears where 1 is written to clear. -/
theorem registerWrite_masked (hprog : ¬ (0x300000 ≤ a ∧ a < 0x304000)) (hcmd : a ≠ 0x2000) (hcap : a ≠ 0x720100)
    (hmask : rwMask a ||| w1cMask a ≠ 0) :
    exec .registerWrite s = .next (s.setHub a ((s.hubReg a &&& ~~~(rwMask a ||| w1cMask a)) ||| (BitVec.ofNat 64 v &&& rwMask a) |||
      (s.hubReg a &&& w1cMask a &&& ~~~BitVec.ofNat 64 v))) := by
  rw [exec_registerWrite, execRegisterWrite, State.arg_zero hev, State.arg_one hev, if_neg hprog, if_neg hcmd, if_neg hcap]
  exact if_neg hmask

/-- A register whose bits a write clears by 1, and reaches in no other way. -/
theorem registerWrite_clears (hstored : StoredReg a) (hcmd : a ≠ 0x2000) (hcap : a ≠ 0x720100) (hrw : rwMask a = 0) (hmask : w1cMask a ≠ 0) :
    SetsReg s .registerWrite a (s.hubReg a &&& ~~~(BitVec.ofNat 64 v &&& w1cMask a)) := by
  have hval (r x m : DWord) : (r &&& ~~~(0 ||| m)) ||| (x &&& 0) ||| (r &&& m &&& ~~~x) = r &&& ~~~(x &&& m) := by
    ext i hi
    cases hr : r[i] <;> cases hx : x[i] <;> simp [hr, hx]
  have ⟨_, _, hprog⟩ := hstored
  refine setsReg_of_setHub hstored ?_
  rw [registerWrite_masked hev hprog hcmd hcap (by simpa [hrw] using hmask), hrw, hval]

/-- A register whose bits a write reaches, and clears in no other way. -/
theorem registerWrite_takes (hstored : StoredReg a) (hcmd : a ≠ 0x2000) (hcap : a ≠ 0x720100) (hw1c : w1cMask a = 0) (hmask : rwMask a ≠ 0) :
    SetsReg s .registerWrite a ((s.hubReg a &&& ~~~rwMask a) ||| (BitVec.ofNat 64 v &&& rwMask a)) := by
  have hval (r x m : DWord) : (r &&& ~~~(m ||| 0)) ||| (x &&& m) ||| (r &&& 0 &&& ~~~x) = (r &&& ~~~m) ||| (x &&& m) := by
    ext i hi
    simp
  have ⟨_, _, hprog⟩ := hstored
  refine setsReg_of_setHub hstored ?_
  rw [registerWrite_masked hev hprog hcmd hcap (by simpa [hw1c] using hmask), hw1c, hval]

/-- R377: the status bits of a host queue are cleared by 1. -/
theorem registerWrite_hqStatus {i : Nat} (ha : a = 0x500020 + 64 * i) (hi : i < 64) :
    SetsReg s .registerWrite a (s.hubReg a &&& ~~~(BitVec.ofNat 64 v &&& 6)) := by
  have hrw : rwMask a = 0 := by
    simp (disch := omega) only [rwMask, if_neg]
  have hw1c : w1cMask a = 6 := by
    rw [w1cMask, if_neg (by omega), if_pos (by omega)]
  have hclears := registerWrite_clears hev (by unfold StoredReg; omega) (by omega) (by omega) hrw (by rw [hw1c]; decide)
  rwa [hw1c] at hclears

/-- R382: the fields of a peer's configuration that a write reaches. -/
theorem registerWrite_peer {i : Nat} (ha : a = 0x580000 + 8 * i) (hi : i < 32) :
    SetsReg s .registerWrite a ((s.hubReg a &&& 0x00000000fffffffe) ||| (BitVec.ofNat 64 v &&& 0xffffffff00000001)) := by
  have hrw : rwMask a = 0xffffffff00000001 := by
    rw [rwMask, if_pos (by omega)]
  have hw1c : w1cMask a = 0 := by
    simp (disch := omega) only [w1cMask, if_neg]
  have htakes := registerWrite_takes hev (by unfold StoredReg; omega) (by omega) (by omega) hw1c (by rw [hrw]; decide)
  rwa [hrw] at htakes

end

end Sys2Proof.Machine
end

section
/-! SUPPORT. The rows of the host that put records before the launch unit (R376, R377, R379). -/

namespace Sys2Proof.Machine

open Sys2Proof

/-! One record. -/

/-- A record submitted changes what waits, the next name and what is due. -/
theorem State.submit_frame (s : State) (x : Submission) :
    { s.submit x with waiting := s.waiting, nextId := s.nextId, agenda := s.agenda } = s :=
  (congrArg (fun u : State => { u with waiting := s.waiting, nextId := s.nextId, agenda := s.agenda })
    (State.pokeLaunch_frame { s with nextId := s.nextId + 1, waiting := Tbl.put s.waiting s.nextId { x with at_ := s.net.hubClock } }) :)

@[simp] theorem State.submit_waiting (s : State) (x : Submission) :
    (s.submit x).waiting = Tbl.put s.waiting s.nextId { x with at_ := s.net.hubClock } := State.pokeLaunch_waiting _

theorem State.mem_waiting_submit (s : State) (x : Submission) : (s.nextId, { x with at_ := s.net.hubClock }) ∈ (s.submit x).waiting := by
  rw [State.submit_waiting]
  exact Tbl.mem_put_self _ _ _

@[simp] theorem State.submit_nextId (s : State) (x : Submission) : (s.submit x).nextId = s.nextId + 1 := State.pokeLaunch_nextId _

@[simp] theorem State.submit_mem (s : State) (x : Submission) : (s.submit x).mem = s.mem := State.pokeLaunch_mem _

/-- R379: the doorbell of the management queue submits its entry. -/
theorem mgmtDoorbell_submits {s : State} {a v : Nat} (hev : s.ev = [a, v]) : Answers s .mgmtDoorbell fun t =>
    Tbl.find? t.waiting s.nextId = some { src := .mgmt, addr := a, asid := v, level := 3, bytes := none, at_ := s.net.hubClock } ∧
      Due.mk .launchAccept [] ∈ t.agenda ∧ t.mem = s.mem := by
  have hrun : exec .mgmtDoorbell s = .next (s.submit { src := .mgmt, addr := a, asid := v, level := 3, bytes := none }) := by
    rw [exec_mgmtDoorbell, execMgmtDoorbell, hev]
    rfl
  refine ⟨_, hrun, ?_, ?_, State.submit_mem _ _⟩
  · rw [State.submit_waiting, Tbl.find?_put_self]
  · exact State.mem_agenda_pokeLaunch (List.ne_nil_of_mem (Tbl.mem_put_self _ _ _))

/-! The entries of a host queue (R376, R377). -/

/-- Entry `a` of host queue `n` is submitted and waits. -/
def Submitted (n : Nat) (s : State) (a : Nat) : Prop := ∃ e ∈ s.waiting, e.2.src = .hostQueue n ∧ e.2.addr = a

/-- The names of what host queue `n` has submitted have all been given out. -/
def QueueNamed (n : Nat) (s : State) : Prop := ∀ e ∈ s.waiting, e.2.src = .hostQueue n → e.1 < s.nextId

/-- Entry `a` of host queue `n` submitted, unless it waits already (R377). -/
def State.submitOnce (n : Nat) (s : State) (a : Nat) : State :=
  if (Tbl.vals s.waiting).any fun x => x.src == .hostQueue n && x.addr == a then s
  else s.submit { src := .hostQueue n, addr := a, asid := 0, level := 0, bytes := none }

/-- Either entry `a` waits already and nothing changes, or it is submitted. -/
theorem State.submitOnce_cases (n : Nat) (s : State) (a : Nat) :
    (Submitted n s a ∧ s.submitOnce n a = s) ∨
      s.submitOnce n a = s.submit { src := .hostQueue n, addr := a, asid := 0, level := 0, bytes := none } := by
  unfold State.submitOnce
  split
  · next hany =>
    obtain ⟨y, hy, hmatch⟩ := List.any_eq_true.mp hany
    obtain ⟨e, he, rfl⟩ := List.mem_map.mp hy
    rw [Bool.and_eq_true, beq_iff_eq, beq_iff_eq] at hmatch
    exact .inl ⟨⟨e, he, hmatch⟩, rfl⟩
  · exact .inr rfl

theorem submitted_submitOnce (n : Nat) (s : State) (a : Nat) : Submitted n (s.submitOnce n a) a := by
  rcases s.submitOnce_cases n a with ⟨hin, heq⟩ | heq
  · rwa [heq]
  · rw [heq]
    exact ⟨_, s.mem_waiting_submit _, rfl, rfl⟩

theorem QueueNamed.submitOnce {n : Nat} {s : State} (h : QueueNamed n s) (a : Nat) : QueueNamed n (s.submitOnce n a) := by
  rcases s.submitOnce_cases n a with ⟨_, heq⟩ | heq
  · rwa [heq]
  · rw [heq]
    intro e he hsrc
    rw [State.submit_waiting] at he
    rw [State.submit_nextId]
    rcases Tbl.mem_of_mem_put he with rfl | hold
    · exact Nat.lt_succ_self _
    · exact Nat.lt_succ_of_lt (h e hold hsrc)

theorem Submitted.submitOnce {n b : Nat} {s : State} (hnamed : QueueNamed n s) (h : Submitted n s b) (a : Nat) :
    Submitted n (s.submitOnce n a) b := by
  rcases s.submitOnce_cases n a with ⟨_, heq⟩ | heq
  · rwa [heq]
  · obtain ⟨e, he, hsrc, haddr⟩ := h
    rw [heq]
    refine ⟨e, ?_, hsrc, haddr⟩
    rw [State.submit_waiting]
    exact Tbl.mem_put_of_ne _ he (hnamed e he hsrc).ne

theorem Submitted.foldl_submitOnce {n b : Nat} {s : State} (hnamed : QueueNamed n s) (h : Submitted n s b) (l : List Nat) :
    Submitted n (l.foldl (State.submitOnce n) s) b := by
  induction l generalizing s with
  | nil => exact h
  | cons a r ih => exact ih (hnamed.submitOnce a) (h.submitOnce hnamed a)

/-- Every entry of a list that is submitted waits. -/
theorem submitted_foldl_submitOnce {n a : Nat} {s : State} (hnamed : QueueNamed n s) {l : List Nat} (h : a ∈ l) :
    Submitted n (l.foldl (State.submitOnce n) s) a := by
  induction l generalizing s with
  | nil => cases h
  | cons b r ih =>
    rcases List.mem_cons.mp h with rfl | hr
    · exact (submitted_submitOnce n s a).foldl_submitOnce (hnamed.submitOnce a) r
    · exact ih (hnamed.submitOnce b) hr

/-- Entries submitted change what waits, the next name and what is due. -/
theorem State.foldl_submitOnce_frame (n : Nat) (s : State) (l : List Nat) :
    { l.foldl (State.submitOnce n) s with waiting := s.waiting, nextId := s.nextId, agenda := s.agenda } = s := by
  refine List.foldlRecOn l (State.submitOnce n)
    (motive := fun t => { t with waiting := s.waiting, nextId := s.nextId, agenda := s.agenda } = s) rfl ?_
  intro t ht a _
  rcases t.submitOnce_cases n a with ⟨_, heq⟩ | heq
  · rw [heq, ht]
  · rw [heq]
    exact (congrArg (fun u : State => { u with waiting := s.waiting, nextId := s.nextId, agenda := s.agenda }) (t.submit_frame _)).trans ht

/-- The tail that a doorbell writes, with the entries up to it submitted, where none of the queue's waits. -/
theorem hqDoorbell_run {s : State} {n v : Nat} (hev : s.ev = [n, v]) (hn : n < 64) (hv : v < 2 ^ 16)
    (hidle : ∀ y ∈ Tbl.vals s.waiting, y.src ≠ .hostQueue n)
    (hroom : (v + 2 ^ 16 - (s.hq n 16).toNat % 2 ^ 16) % 2 ^ 16 ≤ 2 ^ bitsAt (s.hq n 8) 7 4) :
    exec .hqDoorbell s = .next (((List.range ((v + 2 ^ 16 - (s.hq n 16).toNat % 2 ^ 16) % 2 ^ 16)).map
      fun i => ((s.hq n 16).toNat % 2 ^ 16 + i) % 2 ^ 16).foldl (State.submitOnce n) (s.setHq n 24 (BitVec.ofNat 64 v))) := by
  have hkeep (l : List Nat) : List.filter (fun (e : Nat × Submission) => !(e.2.src == .hostQueue n) || l.contains e.2.addr) s.waiting = s.waiting := by
    refine List.filter_eq_self.mpr fun e he => ?_
    rw [beq_false_of_ne (hidle e.2 (List.mem_map_of_mem he))]
    rfl
  rw [exec_hqDoorbell, execHqDoorbell, State.arg_zero hev, State.arg_one hev, Nat.mod_eq_of_lt hv, if_neg (Nat.not_le.mpr hn),
    if_neg (Nat.not_lt.mpr hroom)]
  dsimp only
  rw [hkeep]
  rfl

/-- R376, R377: a doorbell within the ring submits the entries from the head up to the tail written. -/
theorem hqDoorbell_submits {s : State} {n v : Nat} (hev : s.ev = [n, v]) (hn : n < 64) (hv : v < 2 ^ 16)
    (hidle : ∀ y ∈ Tbl.vals s.waiting, y.src ≠ .hostQueue n)
    (hroom : (v + 2 ^ 16 - (s.hq n 16).toNat % 2 ^ 16) % 2 ^ 16 ≤ 2 ^ bitsAt (s.hq n 8) 7 4) :
    Answers s .hqDoorbell fun t => t.hubReg (0x500000 + 64 * n + 24) = BitVec.ofNat 64 v ∧ t.mem = s.mem ∧
      ∀ i, i < (v + 2 ^ 16 - (s.hq n 16).toNat % 2 ^ 16) % 2 ^ 16 →
        ∃ y ∈ Tbl.vals t.waiting, y.src = .hostQueue n ∧ y.addr = ((s.hq n 16).toNat % 2 ^ 16 + i) % 2 ^ 16 := by
  have hnamed : QueueNamed n (s.setHq n 24 (BitVec.ofNat 64 v)) := fun e he hsrc => absurd hsrc (hidle e.2 (List.mem_map_of_mem he))
  refine ⟨_, hqDoorbell_run hev hn hv hidle hroom, ?_, ?_, fun i hi => ?_⟩
  · have hframe := State.foldl_submitOnce_frame n (s.setHq n 24 (BitVec.ofNat 64 v))
    exact (congrArg (fun u : State => u.hubReg (0x500000 + 64 * n + 24)) (hframe _) :).trans
      (s.hubReg_setHub_self _ (storedReg_hq hn (by omega)))
  · exact (congrArg State.mem (State.foldl_submitOnce_frame n (s.setHq n 24 (BitVec.ofNat 64 v)) _) :)
  · obtain ⟨e, he, hentry⟩ := submitted_foldl_submitOnce hnamed
      (List.mem_map_of_mem (f := fun i => ((s.hq n 16).toNat % 2 ^ 16 + i) % 2 ^ 16) (List.mem_range.mpr hi))
    exact ⟨e.2, List.mem_map_of_mem he, hentry⟩

end Sys2Proof.Machine
end

section
/-! SUPPORT. The accesses of the host: their order, and what they reach (R286, R375, R427). -/

namespace Sys2Proof.Machine

open Sys2Proof

/-! Their order. -/

theorem State.hostArrives_off {s : State} (d : Due) (h : s.boot.stage = 0) : s.hostArrives d = s := if_pos h

theorem State.hostArrives_behind {s : State} (d : Due) (hon : s.boot.stage ≠ 0) (h : s.hostWait ≠ []) :
    s.hostArrives d = { s with hostWait := s.hostWait ++ [d] } := by
  rw [State.hostArrives, if_neg hon, if_neg h]

theorem State.hostArrives_performs {s t : State} {d : Due} (hon : s.boot.stage ≠ 0) (hfirst : s.hostWait = []) (h : s.hostNow d = some t) :
    s.hostArrives d = { t with hostWait := [] } := by
  rw [State.hostArrives, if_neg hon, if_pos hfirst, State.hostDrain, h]
  rfl

/-- An access that performs and leaves none waiting. -/
theorem State.hostArrives_answers {s t : State} {d : Due} (hon : s.boot.stage ≠ 0) (hfirst : s.hostWait = []) (h : s.hostNow d = some t)
    (ht : t.hostWait = []) : s.hostArrives d = t := by
  rw [State.hostArrives_performs hon hfirst h, ← ht]

theorem State.hostArrives_waits {s : State} {d : Due} (hon : s.boot.stage ≠ 0) (hfirst : s.hostWait = []) (h : s.hostNow d = none) :
    s.hostArrives d = { s with hostWait := [d] } := by
  rw [State.hostArrives, if_neg hon, if_pos hfirst, State.hostDrain, h]

/-- No access of the host waits, and the last register write that came of one is no longer due. -/
def HostFirst (s : State) : Prop := s.hostWait = [] ∧ ∀ d, s.hostRow = some d → d ∉ s.agenda

theorem HostFirst.row_done {s : State} (h : HostFirst s) : s.hostRow.any s.agenda.contains = false := by
  cases hrow : s.hostRow with
  | none => rfl
  | some d => simpa using h.2 d hrow

theorem HostFirst.hostNow_write {s : State} (h : HostFirst s) {bar a n v : Nat} (hev : s.ev = [bar, a, n, v]) :
    s.hostNow { row := .hostWrite, ops := s.ev } = s.hostWriteNow bar a n v := by
  rw [State.hostNow, h.row_done, hev]
  rfl

theorem HostFirst.hostNow_read {s : State} (h : HostFirst s) {bar a n : Nat} (hev : s.ev = [bar, a, n]) :
    s.hostNow { row := .hostRead, ops := s.ev } = s.hostReadNow bar a n := by
  rw [State.hostNow, h.row_done, hev]
  rfl

/-! What they reach. -/

theorem nearPart_in {a n i : Nat} (h : i < nearPart a n) : a + i < nearEnd := by
  unfold nearPart at h; omega

/-- Near memory ends before the access: none of its bytes lie there. -/
theorem nearPart_beyond {a : Nat} (n : Nat) (h : nearEnd ≤ a) : nearPart a n = 0 := by
  unfold nearPart; omega

/-- An access that goes on at its slices changes the counts of the firing schedule and `FSSTAT`. -/
theorem State.hostPass_frame {s u : State} {a n : Nat} {writes : Bool} (h : s.hostPass a n writes = some u) :
    { u with fs := s.fs, hub := s.hub } = s :=
  State.fsPass_frame (Option.ite_none_right_eq_some.mp h).2

theorem State.hostWriteNow_memory (s : State) {bar : Nat} (a n v : Nat) (hbar : bar ≠ 0) :
    s.hostWriteNow bar a n v = (s.hostPass a (nearPart a n) true).map fun t => t.homeWrite a (leBytes (nearPart a n) v) := if_neg hbar

/-- The bytes of a host write that lie in near memory are written. -/
theorem State.homeWrite_nearPart_mem {s u : State} {a n : Nat} {writes : Bool} (hpass : s.hostPass a (nearPart a n) writes = some u)
    (hshadows : s.shadows = []) (v : Nat) : (u.homeWrite a (leBytes (nearPart a n) v)).mem = Mem.wrBytes s.mem a (leBytes (nearPart a n) v) := by
  have hframe := State.hostPass_frame hpass
  have hmem : u.mem = s.mem := (congrArg State.mem hframe :)
  have hnone (line : Nat) : Tbl.find? u.shadows line = none := by
    rw [show u.shadows = [] from (congrArg State.shadows hframe :).trans hshadows, Tbl.find?_nil]
  have hhome : isHomed a = true ∨ u.frameless a = false ∨ leBytes (nearPart a n) v = [] := by
    rcases Nat.lt_or_ge a nearEnd with hnear | hfar
    · exact .inl (isHomed_near hnear)
    · rw [nearPart_beyond n hfar]; exact .inr (.inr rfl)
  rw [State.homeWrite_mem hhome (hnone _) (hnone _), hmem]

/-- Beyond near memory a host read answers zero. -/
theorem State.hostReadNow_beyond (s : State) {bar a : Nat} (n : Nat) (hbar : bar ≠ 0) (h : nearEnd ≤ a) :
    s.hostReadNow bar a n = some (s.hostReply a 0 false) := by
  rw [State.hostReadNow, if_neg hbar, nearPart_beyond n h]
  rfl

theorem State.hostReadNow_waits {s : State} {bar a n : Nat} (hbar : bar ≠ 0) (h : s.hostPass a (nearPart a n) false = none) :
    s.hostReadNow bar a n = none := by
  rw [State.hostReadNow, if_neg hbar, h]
  rfl

/-- A host read of sound near memory answers with the bytes there. -/
theorem State.hostReadNow_near {s u : State} {bar a n : Nat} (hbar : bar ≠ 0) (hpass : s.hostPass a (nearPart a n) false = some u)
    (hshadows : s.shadows = []) (hsound : s.poisoned a (nearPart a n) = false) :
    ∃ t, s.hostReadNow bar a n = some t ∧ t.hostOut = s.hostOut ++ [{ what := a, value := s.peekN a (nearPart a n) }] ∧ t.mem = s.mem := by
  have hpassed := State.hostPass_frame hpass
  have hopen : u.shadows = [] := (congrArg State.shadows hpassed :).trans hshadows
  have hread := State.foldl_lineRead_frame hopen (linesIn a (nearPart a n))
  set t := (linesIn a (nearPart a n)).foldl (fun (u : State) line => (u.lineRead line 0).narrow line) u with ht
  have hmem : t.mem = s.mem := (congrArg State.mem hread :).trans (congrArg State.mem hpassed :)
  have hout : t.hostOut = s.hostOut := (congrArg State.hostOut hread :).trans (congrArg State.hostOut hpassed :)
  have hgood : t.poisoned a (nearPart a n) = false :=
    ((congrArg (fun x : State => x.poisoned a (nearPart a n)) hread :).trans
      (congrArg (fun x : State => x.poisoned a (nearPart a n)) hpassed :)).trans hsound
  have hval : t.peekN a (nearPart a n) = s.peekN a (nearPart a n) := State.peekN_near hmem fun _ hi => nearPart_in hi
  refine ⟨t.hostReply a (s.peekN a (nearPart a n)) false, ?_, ?_, hmem⟩
  · rw [State.hostReadNow, if_neg hbar, hpass, Option.map_some, ← ht]
    dsimp only
    rw [hgood, Bool.and_false, if_neg Bool.false_ne_true, hval]
  · rw [State.hostReply, hout]

/-! The rows (R375). -/

section
variable {s : State} {bar a n v : Nat} (hev : s.ev = [bar, a, n, v]) (hon : s.boot.stage ≠ 0) (hfirst : HostFirst s)
include hev hon hfirst

/-- A host write of a hub register leaves its row due. -/
theorem hostWrite_register (hbar : bar = 0) (hrun : s.boot.halted = false) (hn : n = 8) (ha : a % 8 = 0)
    (hprog : a < 0x300000 ∨ 0x304000 ≤ a) : exec .hostWrite s = .next
      { s with agenda := s.agenda ++ [registerRow a (v % 2 ^ 64)], hostRow := some (registerRow a (v % 2 ^ 64)) } := by
  have hout : (decide (0x300000 ≤ a) && decide (a < 0x304000)) = false := by
    rw [Bool.and_eq_false_iff, decide_eq_false_iff_not, decide_eq_false_iff_not]; omega
  have hnow : s.hostWriteNow bar a n v =
      some { s with agenda := s.agenda ++ [registerRow a (v % 2 ^ 64)], hostRow := some (registerRow a (v % 2 ^ 64)) } := by
    rw [State.hostWriteNow, if_pos hbar, hrun, hn, ha, hout]
    rfl
  rw [exec_hostWrite, execHostWrite, State.hostArrives_answers hon hfirst.1 ((hfirst.hostNow_write hev).trans hnow) hfirst.1]

/-- Program memory takes no host write, and no register does while boot has stopped. -/
theorem hostWrite_ignored (hbar : bar = 0) (h : (0x300000 ≤ a ∧ a < 0x304000) ∨ s.boot.halted = true) : exec .hostWrite s = .next s := by
  have hnow : s.hostWriteNow bar a n v = some s := by
    rw [State.hostWriteNow, if_pos hbar]
    refine if_pos ?_
    rcases h with ⟨hlo, hhi⟩ | hhalt
    · simp [hlo, hhi]
    · simp [hhalt]
  rw [exec_hostWrite, execHostWrite, State.hostArrives_answers hon hfirst.1 ((hfirst.hostNow_write hev).trans hnow) hfirst.1]

theorem hostWrite_waits (hbar : bar = 1) (hpass : s.hostPass a (nearPart a n) true = none) :
    exec .hostWrite s = .next { s with hostWait := [{ row := .hostWrite, ops := s.ev }] } := by
  have hnow : s.hostWriteNow bar a n v = none := by
    rw [State.hostWriteNow_memory s a n v (by omega), hpass, Option.map_none]
  rw [exec_hostWrite, execHostWrite, State.hostArrives_waits hon hfirst.1 ((hfirst.hostNow_write hev).trans hnow)]

theorem hostWrite_memory {u : State} (hbar : bar = 1) (hpass : s.hostPass a (nearPart a n) true = some u) (hshadows : s.shadows = [])
    (hwf : s.mem.wf = true) : Answers s .hostWrite fun t => ∀ y, Mem.rd t.mem y =
      if a ≤ y ∧ y < a + nearPart a n then BitVec.ofNat 8 (v / 256 ^ (y - a)) else Mem.rd s.mem y := by
  have hnow : s.hostWriteNow bar a n v = some (u.homeWrite a (leBytes (nearPart a n) v)) := by
    rw [State.hostWriteNow_memory s a n v (by omega), hpass, Option.map_some]
  rw [Answers, exec_hostWrite, execHostWrite, State.hostArrives_performs hon hfirst.1 ((hfirst.hostNow_write hev).trans hnow)]
  refine ⟨_, rfl, fun y => ?_⟩
  dsimp only
  rw [State.homeWrite_nearPart_mem hpass hshadows, Mem.rd_wrBytes hwf, leBytes_length]
  split
  · next hin => exact leBytes_getD _ _ (by omega)
  · rfl

end

section
variable {s : State} {bar a n : Nat} (hev : s.ev = [bar, a, n]) (hon : s.boot.stage ≠ 0) (hfirst : HostFirst s)
include hev hon hfirst

/-- While boot has stopped a host read finds `BOOTSTAT` alone. -/
theorem hostRead_halted (hbar : bar = 0) (hhalt : s.boot.halted = true) (ha : a / 8 * 8 ≠ 0x720000) : exec .hostRead s = .next s := by
  have hnow : s.hostReadNow bar a n = some s := by
    rw [State.hostReadNow, if_pos hbar]
    exact if_pos (by simpa [hhalt] using ha)
  rw [exec_hostRead, execHostRead, State.hostArrives_answers hon hfirst.1 ((hfirst.hostNow_read hev).trans hnow) hfirst.1]

theorem hostRead_beyond (hbar : bar = 1) (ha : nearEnd ≤ a) : Answers s .hostRead fun t =>
    t.hostOut = s.hostOut ++ [{ what := a, value := 0 }] ∧ t.mem = s.mem := by
  have hnow := s.hostReadNow_beyond n (by omega : bar ≠ 0) ha
  rw [Answers, exec_hostRead, execHostRead, State.hostArrives_performs hon hfirst.1 ((hfirst.hostNow_read hev).trans hnow)]
  exact ⟨_, rfl, rfl, rfl⟩

theorem hostRead_waits (hbar : bar = 1) (hpass : s.hostPass a (nearPart a n) false = none) :
    exec .hostRead s = .next { s with hostWait := [{ row := .hostRead, ops := s.ev }] } := by
  have hnow := State.hostReadNow_waits (by omega : bar ≠ 0) hpass
  rw [exec_hostRead, execHostRead, State.hostArrives_waits hon hfirst.1 ((hfirst.hostNow_read hev).trans hnow)]

theorem hostRead_near {u : State} (hbar : bar = 1) (hpass : s.hostPass a (nearPart a n) false = some u) (hshadows : s.shadows = [])
    (hsound : s.poisoned a (nearPart a n) = false) : Answers s .hostRead fun t =>
      t.hostOut = s.hostOut ++ [{ what := a, value := s.peekN a (nearPart a n) }] ∧ t.mem = s.mem := by
  obtain ⟨t, hnow, hout, hmem⟩ := State.hostReadNow_near (by omega : bar ≠ 0) hpass hshadows hsound
  rw [Answers, exec_hostRead, execHostRead, State.hostArrives_performs hon hfirst.1 ((hfirst.hostNow_read hev).trans hnow)]
  exact ⟨_, rfl, hout, hmem⟩

end

/-- Settles O51, row by row. -/
theorem hostRowResults : Obligations.HostRowResults := by
  intro s u n a v i bar
  refine ⟨fun hev hn hv => ⟨hqDoorbell_overflow hev hn hv, hqDoorbell_submits hev hn hv⟩, fun hev hn => ⟨?_, ?_, hqDisable_sets hev hn⟩,
    mgmtDoorbell_submits, fun hev => ⟨?_, ?_, ?_⟩, fun hev hon => ⟨?_, ?_⟩, fun hev => ⟨?_, ?_, ?_, ?_⟩⟩
  · exact fun hon => ⟨hqEnable_enabled hev hon, hqbaseWrite_enabled hev hon⟩
  · exact fun hoff => ⟨hqEnable_passes hev hn hoff, hqEnable_fails hev hn hoff, hqbaseWrite_disabled hev hn hoff⟩
  · exact fun hoff => congrArg _ (State.hostArrives_off _ hoff)
  · exact fun hon hwait => congrArg _ (State.hostArrives_behind _ hon hwait)
  · exact fun hon hfirst => ⟨hostWrite_register hev hon hfirst, hostWrite_ignored hev hon hfirst,
      fun hbar => ⟨hostWrite_waits hev hon hfirst hbar, hostWrite_memory hev hon hfirst hbar⟩⟩
  · exact fun hwait => congrArg _ (State.hostArrives_behind _ hon hwait)
  · exact fun hfirst => ⟨hostRead_halted hev hon hfirst, fun hbar => ⟨hostRead_beyond hev hon hfirst hbar, hostRead_waits hev hon hfirst hbar,
      fun _ => hostRead_near hev hon hfirst hbar⟩⟩
  · exact registerWrite_program hev
  · exact registerWrite_powerCap hev
  · exact registerWrite_hqStatus hev
  · exact registerWrite_peer hev

end Sys2Proof.Machine
end

section
/-! SUPPORT. Every operation of the model keeps the memory in its canonical form (`Mem.wf`): one lemma for each operation, in the order of
the model's files, built on the lemmas that say what a byte written, a range written and a range cleared do to the form. A state that
differs from a canonical one in other parts is canonical too (`State.Canonical.upd`). -/

namespace Sys2Proof.Machine

open Sys2Proof

set_option Elab.async false

/-! The form as a property of states and of what holds them, and how it passes through folds, options and choices. -/

/-- The memory of the state is in its canonical form. -/
def State.Canonical (s : State) : Prop := s.mem.wf = true

/-- The state that an outcome goes on with, if any, is canonical. -/
def Out.Canonical (o : Out) : Prop :=
  match o with
  | .next t => t.Canonical
  | _ => True

/-- The state that an action acts on is canonical. -/
def Action.Canonical (a : Action) : Prop :=
  match a with
  | .run _ t => t.Canonical
  | .guarded _ t => t.Canonical
  | .rest t => t.Canonical

/-- The state that a pass of `Schedule` has placed a group in, if any, is canonical. -/
def Sched.Canonical (x : Sched) : Prop :=
  match x with
  | .placed t => t.Canonical
  | _ => True

/-- What an option holds, if anything, has a canonical state. -/
def CanonicalIn {α : Type} (f : α → State) (o : Option α) : Prop := ∀ x ∈ o, (f x).Canonical

section
variable {α β : Type} {c : Prop} {_ : Decidable c}

theorem State.Canonical.ite {s t : State} (hs : s.Canonical) (ht : t.Canonical) : (if c then s else t).Canonical := by
  split
  · exact hs
  · exact ht

theorem Out.Canonical.ite {o p : Out} (ho : Out.Canonical o) (hp : Out.Canonical p) : Out.Canonical (if c then o else p) := by
  split
  · exact ho
  · exact hp

theorem Action.Canonical.ite {a b : Action} (ha : a.Canonical) (hb : b.Canonical) : (if c then a else b).Canonical := by
  split
  · exact ha
  · exact hb

theorem State.Canonical.upd {s t : State} (hs : s.Canonical) (h : t.mem = s.mem := by rfl) : t.Canonical := by
  rw [Canonical, h]; exact hs

theorem State.Canonical.foldl {s : State} {f : State → α → State} {l : List α} (hs : s.Canonical)
    (hf : ∀ t x, t.Canonical → (f t x).Canonical) : (l.foldl f s).Canonical :=
  List.foldlRecOn l f hs fun t ht x _ => hf t x ht

/-- What a fold's steps keep holds at its end. -/
theorem foldl_keeps {γ : Type} (P : γ → Prop) {z : γ} {f : γ → α → γ} {l : List α} (hz : P z) (hf : ∀ y x, P y → P (f y x)) :
    P (l.foldl f z) :=
  List.foldlRecOn l f hz fun y hy x _ => hf y x hy

theorem foldlFst {z : State × β} {f : State × β → α → State × β} {l : List α} (hz : z.1.Canonical)
    (hf : ∀ y x, y.1.Canonical → (f y x).1.Canonical) : (l.foldl f z).1.Canonical :=
  foldl_keeps (fun y : State × β => y.1.Canonical) hz hf

theorem foldlSnd {z : β × State} {f : β × State → α → β × State} {l : List α} (hz : z.2.Canonical)
    (hf : ∀ y x, y.2.Canonical → (f y x).2.Canonical) : (l.foldl f z).2.Canonical :=
  foldl_keeps (fun y : β × State => y.2.Canonical) hz hf

theorem foldlSndSnd {γ : Type} {z : γ × β × State} {f : γ × β × State → α → γ × β × State} {l : List α} (hz : z.2.2.Canonical)
    (hf : ∀ y x, y.2.2.Canonical → (f y x).2.2.Canonical) : (l.foldl f z).2.2.Canonical :=
  foldl_keeps (fun y : γ × β × State => y.2.2.Canonical) hz hf

theorem iteSnd {p q : β × State} (hp : p.2.Canonical) (hq : q.2.Canonical) : (if c then p else q).2.Canonical := by
  split
  · exact hp
  · exact hq

theorem State.Canonical.ofSnd {p : β × State} {b : β} {t : State} (hp : p.2.Canonical) (h : p = (b, t)) : t.Canonical := by
  subst h; exact hp

theorem CanonicalIn.get {o : Option State} {t : State} (ho : CanonicalIn id o) (h : o = .some t) : t.Canonical := ho t h

theorem CanonicalIn.getSnd {o : Option (α × State)} {x : α × State} (ho : CanonicalIn Prod.snd o) (h : o = .some x) : x.2.Canonical :=
  ho x h

variable {f : α → State} {g : β → State}

theorem CanonicalIn.none : CanonicalIn f none := nofun

theorem CanonicalIn.some {x : α} (hx : (f x).Canonical) : CanonicalIn f (some x) := by
  rintro _ ⟨⟩; exact hx

theorem CanonicalIn.ite {o p : Option α} (ho : CanonicalIn f o) (hp : CanonicalIn f p) : CanonicalIn f (if c then o else p) := by
  split
  · exact ho
  · exact hp

theorem CanonicalIn.map {o : Option β} {k : β → α} (h : ∀ x ∈ o, (f (k x)).Canonical) : CanonicalIn f (o.map k) := by
  intro y hy
  obtain ⟨x, hx, rfl⟩ := Option.mem_map.mp hy
  exact h x hx

theorem CanonicalIn.bind {o : Option β} {k : β → Option α} (h : ∀ x ∈ o, CanonicalIn f (k x)) : CanonicalIn f (o.bind k) := by
  intro y hy
  obtain ⟨x, hx, hk⟩ := Option.mem_bind_iff.mp hy
  exact h x hx y hk

theorem CanonicalIn.getD {o : Option State} {t : State} (ho : CanonicalIn id o) (ht : t.Canonical) : (o.getD t).Canonical := by
  cases o with
  | none => exact ht
  | some x => exact ho x rfl

theorem elim_canonical {o : Option β} {t : State} {k : β → State} (ht : t.Canonical) (h : ∀ x ∈ o, (k x).Canonical) :
    (o.elim t k).Canonical := by
  cases o with
  | none => exact ht
  | some x => exact h x rfl
end

variable {s t : State}

/-! Regs: cores, cohorts and blocks. -/

theorem State.Canonical.setCore (hm : s.Canonical) {c : Nat} {x : CoreSt} : (s.setCore c x).Canonical := hm

theorem State.Canonical.onCore (hm : s.Canonical) {c : Nat} {f : CoreSt → CoreSt} : (s.onCore c f).Canonical := hm.setCore

theorem State.Canonical.setCohort (hm : s.Canonical) {c k : Nat} {h : Cohort} : (s.setCohort c k h).Canonical := hm.onCore

theorem State.Canonical.onCohort (hm : s.Canonical) {c k : Nat} {f : Cohort → Cohort} : (s.onCohort c k f).Canonical := by
  unfold State.onCohort
  split
  · exact hm.setCohort
  · exact hm

theorem State.Canonical.setBlock (hm : s.Canonical) {c b : Nat} {x : Block} : (s.setBlock c b x).Canonical := hm.onCore

theorem State.Canonical.onBlock (hm : s.Canonical) {c b : Nat} {f : Block → Block} : (s.onBlock c b f).Canonical := by
  unfold State.onBlock
  split
  · exact hm.setBlock
  · exact hm

theorem State.Canonical.pushAll (hm : s.Canonical) {l : List Due} : (s.pushAll l).Canonical := hm

theorem State.Canonical.push (hm : s.Canonical) {i : Instr} {ops : List Nat} : (s.push i ops).Canonical := hm.pushAll

theorem State.Canonical.pushOnce (hm : s.Canonical) {i : Instr} {ops : List Nat} : (s.pushOnce i ops).Canonical := hm.ite hm.push

theorem State.Canonical.draw (hm : s.Canonical) : (s.draw).2.Canonical := hm.upd

/-! Packets: packets sent. -/

theorem State.Canonical.onNet (hm : s.Canonical) {f : Net → Net} : (s.onNet f).Canonical := hm

theorem State.Canonical.sendTo (hm : s.Canonical) {cls acks src dst port : Nat} {d : Due} : (s.sendTo cls acks src dst port d).Canonical := hm

theorem State.Canonical.send (hm : s.Canonical) {cls acks src dst : Nat} {d : Due} : (s.send cls acks src dst d).Canonical := hm.sendTo

/-! Map: bytes of memory, their poison and the shadows open on them, and hub registers. -/

theorem State.Canonical.setHub (hm : s.Canonical) {off : Nat} {x : DWord} : (s.setHub off x).Canonical := hm

theorem State.Canonical.poke (hm : s.Canonical) {pa : Nat} {bs : List Byte} : (s.poke pa bs).Canonical := Mem.wrBytes_wf _ _ hm.upd

theorem State.Canonical.taint (hm : s.Canonical) {pa n : Nat} : (s.taint pa n).Canonical := hm.ite hm.upd

theorem State.Canonical.narrow (hm : s.Canonical) {line : Nat} : (s.narrow line).Canonical := by
  unfold State.narrow
  split
  · exact hm
  · dsimp only
    exact Mem.wrBytes_wf _ _ hm.upd

theorem State.Canonical.onSaved (hm : s.Canonical) {uid : Nat} {f : Cohort → Cohort} : (s.onSaved uid f).Canonical := hm

theorem State.Canonical.onOut (hm : s.Canonical) {uid : Nat} {f : Cohort → Cohort} : (s.onOut uid f).Canonical := by
  unfold State.onOut
  split
  · exact hm.onCore
  · exact hm.onSaved

theorem State.Canonical.onUid (hm : s.Canonical) {uid : Nat} {f : Cohort → Cohort} : (s.onUid uid f).Canonical := by
  unfold State.onUid
  split
  · exact hm.onCohort
  · exact hm.onOut

theorem State.Canonical.dropLine (hm : s.Canonical) {uid r : Nat} : (s.dropLine uid r).Canonical := hm

/-! Lines: the lines of the home slices. -/

theorem State.Canonical.setSlice (hm : s.Canonical) {n : Nat} {x : Slice} : (s.setSlice n x).Canonical := hm

theorem State.Canonical.onSlice (hm : s.Canonical) {n : Nat} {f : Slice → Slice} : (s.onSlice n f).Canonical := hm.setSlice

theorem State.Canonical.sendBack (hm : s.Canonical) {n line : Nat} : (s.sendBack n line).Canonical := hm.send

theorem State.Canonical.lineWritten (hm : s.Canonical) {line : Nat} : (s.lineWritten line).Canonical := by
  unfold State.lineWritten
  dsimp only
  exact hm.setSlice.ite hm.setSlice.sendBack

theorem State.Canonical.lineRead (hm : s.Canonical) {line reuse : Nat} : (s.lineRead line reuse).Canonical := by
  unfold State.lineRead
  dsimp only
  split
  · exact hm.setSlice
  · split
    · exact hm.setSlice.push
    · exact hm.setSlice
    · exact hm.setSlice

theorem State.Canonical.lineAtomic (hm : s.Canonical) {line : Nat} : (s.lineAtomic line).Canonical := hm.lineRead.onSlice

theorem State.Canonical.hostTouch (hm : s.Canonical) {a n : Nat} {writes : Bool} : (s.hostTouch a n writes).Canonical :=
  hm.foldl fun _ _ ht => ht.lineAtomic.ite ht.lineRead

/-! Mmu: table walks and translation. -/

theorem State.Canonical.readWalk (hm : s.Canonical) {asid va n page : Nat} : (s.readWalk asid va n page).Canonical := by
  induction n generalizing s page with
  | zero => exact hm
  | succ n ih =>
    unfold State.readWalk
    extract_lets +onlyGivenNames a
    exact hm.ite (hm.lineRead.ite (ih hm.lineRead))

theorem State.Canonical.walkReads (hm : s.Canonical) {asid va : Nat} : (s.walkReads asid va).Canonical := hm.readWalk

theorem State.Canonical.findNow (hm : s.Canonical) {c asid gang : Nat} {a : Machine.Acc} {va : Nat} : (s.findNow c asid gang a va).2.Canonical := by
  unfold State.findNow
  split
  · split
    · exact hm.walkReads
    · dsimp only
      exact hm.walkReads.onCore
  · exact hm

/-! Home: monitors, and reads and writes at their home. -/

theorem State.Canonical.wake (hm : s.Canonical) {m : Monitor} : (s.wake m).Canonical := hm.upd.sendTo

theorem State.Canonical.fireSeen (hm : s.Canonical) {ws : List (Nat × Nat)} : (s.fireSeen t ws).Canonical := by
  unfold State.fireSeen
  dsimp only
  exact hm.foldl fun _ _ ht => ht.wake

theorem State.Canonical.fire (hm : s.Canonical) {pa n : Nat} : (s.fire pa n).Canonical := hm.fireSeen

theorem State.Canonical.narrowIn (hm : s.Canonical) {pa n : Nat} : (s.narrowIn pa n).Canonical := hm.narrow.narrow.ite hm

theorem State.Canonical.land (hm : s.Canonical) {ws : List (Nat × List Byte)} : (s.land ws).Canonical := by
  unfold State.land
  dsimp only
  exact ((hm.foldl fun _ _ ht => ht.narrowIn).foldl fun _ _ ht => ht.poke).fireSeen

theorem State.Canonical.homeWrite (hm : s.Canonical) {pa : Nat} {bs : List Byte} : (s.homeWrite pa bs).Canonical :=
  (hm.foldl fun _ _ ht => ht.lineWritten).land.ite (hm.ite hm.poke)

theorem State.Canonical.look (hm : s.Canonical) {pa n : Nat} : (s.look pa n).2.Canonical := hm.narrowIn

theorem State.Canonical.homeRead (hm : s.Canonical) {pa n reuse : Nat} : (s.homeRead pa n reuse).2.Canonical :=
  ((hm.foldl fun _ _ ht => ht.lineRead).ite hm).look

/-! Life: error records, barriers, handles and frames, and the end of cohorts. -/

theorem State.Canonical.errRec (hm : s.Canonical) {cls ix code detail addr asid count extra : Nat} :
    (s.errRec cls ix code detail addr asid count extra).Canonical := by
  unfold State.errRec
  dsimp only
  exact hm.setHub.ite hm.homeWrite.setHub

theorem State.Canonical.launchErr (hm : s.Canonical) {l code stage core slot pc : Nat} : (s.launchErr l code stage core slot pc).Canonical := hm

theorem State.Canonical.retryHolds (hm : s.Canonical) {c : Nat} {f : Hold → Bool} : (s.retryHolds c f).Canonical := hm.onCore

theorem State.Canonical.nudgeFences (hm : s.Canonical) {c b : Nat} : (s.nudgeFences c b).Canonical := hm.foldl fun _ _ ht => ht.pushOnce.ite ht

theorem State.Canonical.completeBarrier (hm : s.Canonical) {c b n : Nat} : (s.completeBarrier c b n).Canonical := by
  unfold State.completeBarrier
  split
  · exact hm
  · dsimp only
    exact hm.setBlock.onCore.nudgeFences

theorem State.Canonical.settleBarriers (hm : s.Canonical) {c b : Nat} {l : List Nat} : (s.settleBarriers c b l).Canonical := by
  induction l generalizing s with
  | nil => exact hm
  | cons n l ih =>
    unfold State.settleBarriers
    split
    · exact hm
    · dsimp only
      exact (ih hm.completeBarrier).ite (ih hm)

theorem State.Canonical.cohortArrives (hm : s.Canonical) {c k n : Nat} : (s.cohortArrives c k n).Canonical := by
  unfold State.cohortArrives
  split
  · exact hm
  · split
    · exact hm
    · dsimp only
      exact hm.setBlock.pushOnce.ite hm

theorem State.Canonical.releaseSide (hm : s.Canonical) {gid n d : Nat} : (s.releaseSide gid n d).Canonical := by
  unfold State.releaseSide
  split
  · exact hm
  · dsimp only
    exact (hm.upd.foldl fun _ _ ht => by
      split
      · exact ht
      · exact ht.onCore.nudgeFences.ite ht).ite hm

theorem State.Canonical.settleSide (hm : s.Canonical) {gid n d : Nat} : (s.settleSide gid n d).Canonical := by
  unfold State.settleSide
  split
  · exact hm
  · dsimp only
    exact (hm.upd.push.ite hm.upd).releaseSide.ite hm

theorem State.Canonical.blockArrives (hm : s.Canonical) {c b n : Nat} : (s.blockArrives c b n).Canonical := by
  unfold State.blockArrives
  split
  · exact hm
  · split
    · exact hm
    · dsimp only
      exact hm.upd.settleSide.settleSide.ite hm

theorem State.Canonical.settleArrivals (hm : s.Canonical) {c k b : Nat} : (s.settleArrivals c k b).Canonical :=
  hm.foldl fun _ _ ht => ht.cohortArrives.blockArrives

theorem State.Canonical.clearFrames (hm : s.Canonical) {c frame n : Nat} : (s.clearFrames c frame n).Canonical := hm.ite (Mem.clear_wf _ _ hm.upd)

theorem State.Canonical.freeFrames (hm : s.Canonical) {c frame n : Nat} : (s.freeFrames c frame n).Canonical :=
  hm.clearFrames.ite hm.clearFrames.pushOnce

theorem State.Canonical.setHandle (hm : s.Canonical) {c b n : Nat} {x : Handle} : (s.setHandle c b n x).Canonical := hm.onBlock

theorem State.Canonical.releaseHandle (hm : s.Canonical) {c b n : Nat} : (s.releaseHandle c b n).Canonical := by
  unfold State.releaseHandle
  split
  · exact hm
  · split
    · exact hm
    · exact hm.ite hm.setHandle.freeFrames

theorem State.Canonical.dropFrameReqs (hm : s.Canonical) {c uid : Nat} : (s.dropFrameReqs c uid).Canonical := by
  unfold State.dropFrameReqs
  dsimp only
  exact hm.ite hm.setCore.pushOnce

theorem State.Canonical.releaseOrphans (hm : s.Canonical) {c b : Nat} : (s.releaseOrphans c b).Canonical := by
  unfold State.releaseOrphans
  split
  · exact hm
  · dsimp only
    exact hm.foldl fun _ _ ht => ht.releaseHandle

theorem State.Canonical.detectQuiet (hm : s.Canonical) {l : Nat} : (s.detectQuiet l).Canonical := hm.upd.ite hm

theorem State.Canonical.checkBlock (hm : s.Canonical) {c b : Nat} : (s.checkBlock c b).Canonical := hm.pushOnce.ite hm

theorem State.Canonical.nudgeInvals (hm : s.Canonical) : s.nudgeInvals.Canonical := hm.foldl fun _ _ ht => ht.pushOnce

theorem State.Canonical.reap (hm : s.Canonical) {c k : Nat} : (s.reap c k).Canonical := by
  unfold State.reap
  split
  · exact hm
  · exact hm.onCore.checkBlock.pushOnce.ite hm

theorem State.Canonical.notify (hm : s.Canonical) {c k : Nat} : (s.notify c k).Canonical := by
  unfold State.notify
  split
  · exact hm
  · extract_lets +onlyGivenNames s1 s2 s3 s4
    have h1 : s1.Canonical := hm.pushOnce.ite hm
    have h2 : s2.Canonical := h1.pushOnce.ite h1
    have h3 : s3.Canonical := h2.ite h2.pushOnce
    exact (h3.ite h3.pushOnce).reap

theorem State.Canonical.lateErrs (hm : s.Canonical) {h : Cohort} {c k : Nat} : (s.lateErrs h c k).Canonical := hm.foldl fun _ _ ht => ht.launchErr

theorem State.Canonical.dropHeldWrites (hm : s.Canonical) {c b uid : Nat} : (s.dropHeldWrites c b uid).Canonical := hm.onBlock.onCore

theorem State.Canonical.endCohort (hm : s.Canonical) {c k : Nat} {err : Option (Nat × Nat)} : (s.endCohort c k err).Canonical := by
  unfold State.endCohort
  split
  · exact hm
  · split
    · exact hm
    · extract_lets +onlyGivenNames s0 s1 src s2 s3 s4 s5 s6 s7 s8 s9
      have h0 : s0.Canonical := by
        unfold s0
        split
        · exact hm.launchErr
        · exact hm
      have h1 : s1.Canonical := h0.lateErrs
      have h2 : s2.Canonical := h1.upd
      have h3 : s3.Canonical := h2.onBlock.dropHeldWrites
      have h4 : s4.Canonical := h3.dropFrameReqs.releaseOrphans
      have h5 : s5.Canonical := h4.settleBarriers
      have h6 : s6.Canonical := h5.foldl fun _ _ ht => ht.blockArrives
      have h7 : s7.Canonical := by
        unfold s7
        split
        · exact h6
        · exact h6.foldl fun _ _ ht => ht.settleSide.settleSide
      have h8 : s8.Canonical := h7.foldl fun _ _ ht => ht.foldl fun _ _ hu => hu.push
      have h9 : s9.Canonical := h8.pushOnce.ite h8
      exact (h9.pushOnce.ite h9).notify

theorem State.Canonical.turnGrey (hm : s.Canonical) {c k : Nat} {m : Mask} {pc : Nat} : (s.turnGrey c k m pc).Canonical := by
  unfold State.turnGrey
  split
  · exact hm
  · dsimp only
    exact hm.ite (hm.setCohort.endCohort.ite hm.setCohort.settleArrivals)

theorem State.Canonical.greyLanes (hm : s.Canonical) {c k : Nat} {m : Mask} {pc : Nat} : (s.greyLanes c k m pc).Canonical := by
  unfold State.greyLanes
  split
  · exact hm
  · dsimp only
    exact hm.ite hm.errRec.turnGrey

theorem State.Canonical.exitLanes (hm : s.Canonical) {c k : Nat} {m : Mask} : (s.exitLanes c k m).Canonical := by
  unfold State.exitLanes
  split
  · exact hm
  · extract_lets +onlyGivenNames h' s1
    have h1 : s1.Canonical := hm.setCohort
    exact h1.endCohort.ite h1.settleArrivals

/-! Net: packets on their way. -/

theorem State.Canonical.leaveInput (hm : s.Canonical) {id : Nat} {p : Packet} : (s.leaveInput id p).Canonical := by
  unfold State.leaveInput
  dsimp only
  split
  · exact hm
  · exact hm.upd.pushOnce

theorem State.Canonical.dropPacket (hm : s.Canonical) {id : Nat} : (s.dropPacket id).Canonical := hm

theorem State.Canonical.onStackSt (hm : s.Canonical) {st : Nat} {f : StackSt → StackSt} : (s.onStackSt st f).Canonical := hm

theorem State.Canonical.logPacket (hm : s.Canonical) {st : Nat} {d : Due} : (s.logPacket st d).Canonical := by
  unfold State.logPacket
  dsimp only
  exact (hm.foldl fun _ _ ht => ht.homeWrite).onStackSt.pushAll

theorem State.Canonical.releasePackets (hm : s.Canonical) {st : Nat} {l : List Due} : (s.releasePackets st l).Canonical := by
  induction l generalizing s with
  | nil => exact hm
  | cons d l ih =>
    unfold State.releasePackets
    exact (ih hm.pushAll).ite ((ih hm.logPacket).ite hm.upd.pushOnce)

theorem State.Canonical.toStack (hm : s.Canonical) {st : Nat} {d : Due} : (s.toStack st d).Canonical := by
  unfold State.toStack
  dsimp only
  exact hm.upd.ite hm.releasePackets

theorem State.Canonical.deliver (hm : s.Canonical) {id : Nat} {p : Packet} : (s.deliver id p).Canonical := by
  unfold State.deliver
  extract_lets +onlyGivenNames f n s1
  have h1 : s1.Canonical := hm.upd
  exact h1.toStack.ite h1.pushAll

theorem State.Canonical.enterNext (hm : s.Canonical) {id : Nat} {p : Packet} : (s.enterNext id p).Canonical := by
  unfold State.enterNext
  dsimp only
  exact hm.upd.push

theorem State.Canonical.hop (hm : s.Canonical) {id : Nat} : (s.hop id).Canonical := by
  unfold State.hop
  split
  · exact hm
  · dsimp only
    exact hm.ite (hm.leaveInput.dropPacket.errRec.ite
        ((hm.leaveInput.dropPacket.errRec.ite hm.leaveInput.dropPacket.errRec.onNet).ite
            (hm.leaveInput.deliver.ite (hm.leaveInput.enterNext.ite hm.upd.push))))

theorem State.Canonical.sendPeer (hm : s.Canonical) {id : Nat} {x : PeerAcc} : (s.sendPeer id x).Canonical := by
  unfold State.sendPeer
  extract_lets +onlyGivenNames l k s1
  have h1 : s1.Canonical := hm.upd
  exact h1.ite h1.errRec

theorem State.Canonical.writePeer (hm : s.Canonical) {x : PeerAcc} : (s.writePeer x).2.Canonical := hm.upd.sendPeer

theorem State.Canonical.linkSend (hm : s.Canonical) {l : Nat} : (s.linkSend l).Canonical := by
  unfold State.linkSend
  dsimp only
  exact hm.ite hm.upd

theorem State.Canonical.linkRecord (hm : s.Canonical) {l : Nat} : (s.linkRecord l).Canonical := by
  unfold State.linkRecord
  dsimp only
  exact hm.errRec

/-! Chain: the chains of the engines. -/

theorem State.Canonical.onChain (hm : s.Canonical) {c e n : Nat} {f : Chain → Chain} : (s.onChain c e n f).Canonical := hm.onCore

theorem State.Canonical.chainAcked (hm : s.Canonical) {c id : Nat} : (s.chainAcked c id).Canonical := by
  unfold State.chainAcked
  exact hm.foldl fun _ _ ht => by
    dsimp only
    exact ht.foldl fun _ _ ht1 => ht1.onChain.pushOnce

theorem State.Canonical.chainRead (hm : s.Canonical) {c code id : Nat} {got : List LaneAcc} {lost : Option Nat} :
    (s.chainRead c code id got lost).Canonical := by
  unfold State.chainRead
  dsimp only
  split
  · exact hm
  · exact hm.ite (hm.onChain.pushOnce.ite hm.onChain)

/-! Access: how loads, stores and atomics proceed. -/

theorem State.Canonical.writeBack (hm : s.Canonical) {c uid seq : Nat} {f : L1Frame} : (s.writeBack c uid seq f).Canonical := hm.ite hm.upd.sendTo

theorem State.Canonical.evictL1 (hm : s.Canonical) {c key : Nat} : (s.evictL1 c key).Canonical := by
  unfold State.evictL1
  split
  · exact hm
  · exact hm.onCore.writeBack

theorem State.Canonical.frameFor (hm : s.Canonical) {c line : Nat} {sm : Bool} {rrpv pix : Nat} : (s.frameFor c line sm rrpv pix).2.Canonical := by
  unfold State.frameFor
  split
  · exact hm
  · dsimp only
    exact hm.onCore.evictL1.onCore

theorem State.Canonical.updateL1 (hm : s.Canonical) {c pa : Nat} {bs : List Byte} : (s.updateL1 c pa bs).Canonical := by
  unfold State.updateL1
  split
  · exact hm
  · exact hm.onCore

theorem State.Canonical.storeLine (hm : s.Canonical) {c line : Nat} {ws : List (Nat × List Byte)} {reuse : Nat} :
    (s.storeLine c line ws reuse).Canonical := by
  unfold State.storeLine
  dsimp only
  split
  · exact hm.onCore
  · exact hm.writeBack.ite hm.frameFor.onCore

theorem State.Canonical.heal (hm : s.Canonical) {gs : List Nat} : (s.heal gs).Canonical := hm.ite hm.upd

theorem State.Canonical.openFresh (hm : s.Canonical) {line ty : Nat} : (s.openFresh line ty).Canonical := by
  unfold State.openFresh
  dsimp only
  exact hm.narrow.ite hm

theorem State.Canonical.openShadow (hm : s.Canonical) {line ty : Nat} : (s.openShadow line ty).Canonical := by
  unfold State.openShadow
  extract_lets +onlyGivenNames s1
  have h1 : s1.Canonical := by
    unfold s1
    split
    · exact hm.ite hm.narrow.openFresh
    · exact hm.openFresh
  exact h1

theorem State.Canonical.atomAt (hm : s.Canonical) {kind : AccKind} {a : LaneAcc} : (s.atomAt kind a).2.Canonical := by
  unfold State.atomAt
  split
  · extract_lets +onlyGivenNames n r
    split
    · exact hm
    · exact hm.look.land
  · extract_lets +onlyGivenNames n r
    have hr : r.2.Canonical := hm.look
    split
    · exact hm
    · exact hr.land.ite hr
  · extract_lets +onlyGivenNames n
    split
    · exact hm
    · split
      · extract_lets +onlyGivenNames r
        exact hm.look.land
      · split
        · extract_lets +onlyGivenNames s1 i s2
          exact hm.openShadow.upd.fireSeen
        · extract_lets +onlyGivenNames old w
          exact hm.poke
  · extract_lets +onlyGivenNames r
    split
    · exact hm
    · exact hm.look.land
  · exact hm

theorem State.Canonical.atomAll (hm : s.Canonical) {kind : AccKind} {l : List LaneAcc} : (s.atomAll kind l).2.Canonical := by
  induction l generalizing s with
  | nil => exact hm
  | cons a l ih => exact ih hm.atomAt

theorem State.Canonical.nudgeLoads (hm : s.Canonical) {c : Nat} {h : Cohort} : (s.nudgeLoads c h).Canonical := by
  unfold State.nudgeLoads
  split
  · exact hm.pushOnce
  · exact hm

theorem State.Canonical.saveLine (hm : s.Canonical) {h : Cohort} {r : Nat} : (s.saveLine h r).Canonical := by
  unfold State.saveLine
  dsimp only
  exact hm.homeWrite.foldl fun _ _ ht => ht.taint

theorem State.Canonical.writeLine (hm : s.Canonical) {uid r : Nat} : (s.writeLine uid r).Canonical := by
  unfold State.writeLine
  split
  · exact hm
  · exact (hm.saveLine.ite hm).onUid

theorem State.Canonical.evictLine (hm : s.Canonical) {c : Nat} : (s.evictLine c).Canonical := by
  unfold State.evictLine
  dsimp only
  split
  · exact hm
  · split
    · exact hm
    · exact hm.writeLine.dropLine

theorem State.Canonical.fillLine (hm : s.Canonical) {c k r : Nat} : (s.fillLine c k r).Canonical := by
  unfold State.fillLine
  split
  · exact hm
  · extract_lets +onlyGivenNames s
    have hs : s.Canonical := hm.evictLine
    split
    · exact hs
    · extract_lets +onlyGivenNames a t x
      exact (hs.narrow.ite hs).setCohort.onCore

theorem State.Canonical.fillFor (hm : s.Canonical) {c k : Nat} {x : LoadOp} : (s.fillFor c k x).Canonical :=
  hm.ite (hm.foldl fun _ _ ht => ht.fillLine)

theorem State.Canonical.finishLoad (hm : s.Canonical) {c k seq : Nat} : (s.finishLoad c k seq).Canonical := by
  unfold State.finishLoad
  split
  · exact hm
  · extract_lets +onlyGivenNames s
    have hs : s.Canonical := hm.fillFor
    split
    · exact hs
    · extract_lets +onlyGivenNames h1 h2 s1 s2
      have h1 : s1.Canonical := hs.setCohort
      exact (h1.ite h1.greyLanes).nudgeLoads.notify

theorem State.Canonical.faultLoad (hm : s.Canonical) {c k seq code va : Nat} : (s.faultLoad c k seq code va).Canonical := by
  unfold State.faultLoad
  split
  · exact hm
  · exact hm.setCohort.launchErr.nudgeLoads.notify.ite hm.setCohort.notify

theorem State.Canonical.launchAcc (hm : s.Canonical) {a : Access} : (s.launchAcc a).Canonical := by
  unfold State.launchAcc
  extract_lets +onlyGivenNames id s1
  have h1 : s1.Canonical := hm.upd
  split
  · exact h1
  · split
    · exact h1.sendTo
    · exact h1.sendTo
    · exact h1.sendTo
    · exact h1.sendPeer
    · exact h1.send
    · exact h1.send

theorem State.Canonical.cleanFor (hm : s.Canonical) {c : Nat} {kind : AccKind} {lanes : List LaneAcc} : (s.cleanFor c kind lanes).Canonical := by
  unfold State.cleanFor
  split
  · exact hm
  · exact hm
  · exact hm.foldl fun _ _ ht => by
      split
      · exact ht.evictL1
      · exact ht

theorem State.Canonical.issueLoad (hm : s.Canonical) {c k : Nat} {h : Cohort} {x : LoadOp} : (s.issueLoad c k h x).Canonical := by
  unfold State.issueLoad
  extract_lets +onlyGivenNames plain co older hits rest under got bad s1 seen s2 groups s3
  have h3 : s3.Canonical := (hm.cleanFor.foldl fun _ _ ht => ht.onCore).onCohort.foldl fun _ _ ht => ht.launchAcc
  exact h3.finishLoad.ite h3

theorem State.Canonical.advanceLoad (hm : s.Canonical) {c k seq : Nat} : (s.advanceLoad c k seq).Canonical := by
  unfold State.advanceLoad
  split
  · exact hm
  · split
    · exact hm
    · split
      · exact hm
      · dsimp only
        split
        · exact hm.faultLoad
        · split
          · exact hm.faultLoad
          · split
            · exact hm.pushOnce
            · exact hm.ite hm.onCohort.issueLoad

theorem State.Canonical.startLoad (hm : s.Canonical) {c k : Nat} {x : LoadOp} : (s.startLoad c k x).Canonical := by
  unfold State.startLoad
  extract_lets +onlyGivenNames s1
  have h1 : s1.Canonical := hm.onCohort
  exact h1.finishLoad.ite h1.advanceLoad

theorem State.Canonical.captureQueue (hm : s.Canonical) {a : Access} : (s.captureQueue a).Canonical := by
  unfold State.captureQueue
  split
  · exact hm
  · split
    · exact hm
    · exact hm.onCohort

theorem State.Canonical.bindLoad (hm : s.Canonical) {uid seq : Nat} {got : List LaneAcc} {bad : Mask} : (s.bindLoad uid seq got bad).Canonical := by
  unfold State.bindLoad
  split
  · exact hm
  · exact hm.onCohort

theorem State.Canonical.taintLanes (hm : s.Canonical) {l : List LaneAcc} : (s.taintLanes l).Canonical := hm.foldl fun _ _ ht => ht.taint

theorem State.Canonical.serve (hm : s.Canonical) {a : Access} : (s.serve a).2.2.Canonical := by
  unfold State.serve
  split
  · extract_lets +onlyGivenNames s1
    exact hm.foldl fun _ _ ht => ht.narrowIn
  · extract_lets +onlyGivenNames s1
    have h1 : s1.Canonical := hm.land.heal
    exact h1.ite h1.taintLanes
  · exact hm.land.heal.taintLanes
  · extract_lets +onlyGivenNames bad r
    exact hm.atomAll

theorem State.Canonical.leaveStore (hm : s.Canonical) {c k : Nat} {h : Cohort} {st : StoreOp} : (s.leaveStore c k h st).Canonical := by
  unfold State.leaveStore
  extract_lets +onlyGivenNames gang lanes mine rest own out acc bytes s0 s1 s2 s3 s4 s5
  have h1 : s1.Canonical := (hm.onCohort.foldl fun _ _ ht => ht.storeLine).onCore
  have h2 : s2.Canonical := (h1.foldl fun _ _ ht => ht.updateL1).ite h1.cleanFor
  have h4 : s4.Canonical := (h2.ite h2.serve).foldl fun _ _ ht => ht.launchAcc
  exact (h4.ite h4.pushOnce).nudgeLoads.notify

theorem State.Canonical.queueStore (hm : s.Canonical) {c k : Nat} {st : StoreOp} : (s.queueStore c k st).Canonical := hm.ite hm.onCohort.pushOnce

theorem State.Canonical.performed (hm : s.Canonical) {id : Nat} {a : Access} {got : List LaneAcc} {bad : Mask} {data : List Byte} {stage : Nat} :
    (s.performed id a got bad data stage).Canonical :=
  hm.upd.ite (hm.bindLoad.ite hm).upd

theorem State.Canonical.respond (hm : s.Canonical) {id : Nat} {a : Access} : (s.respond id a).Canonical := hm.sendTo

theorem State.Canonical.answer (hm : s.Canonical) {id : Nat} {a : Access} {got : List LaneAcc} {bad : Mask} {data : List Byte} :
    (s.answer id a got bad data).Canonical :=
  hm.performed.respond

theorem State.Canonical.landBacks (hm : s.Canonical) {c line : Nat} : (s.landBacks c line).Canonical := by
  unfold State.landBacks
  exact hm.foldl fun _ _ ht => by
    dsimp only
    exact ht.lineWritten.serve.answer

theorem State.Canonical.dropL1 (hm : s.Canonical) {c pa n : Nat} : (s.dropL1 c pa n).Canonical := by
  unfold State.dropL1
  exact hm.ite ((hm.foldl fun _ _ ht => ht.landBacks).foldl fun _ _ ht => by
    extract_lets +onlyGivenNames t1
    have ht1 : t1.Canonical := ht.onCore
    exact ht1.ite ht1.lineWritten.serve)

/-! Ops: what every core instruction shares. -/

theorem State.Canonical.trapWith (hm : s.Canonical) {c k : Nat} {x : Cause} : (s.trapWith c k x).Canonical := hm.onCohort.pushOnce

theorem State.Canonical.stopAt (hm : s.Canonical) {w : Who} {b : Bad} : (s.stopAt w b).Canonical := hm.trapWith

theorem State.Canonical.advance (hm : s.Canonical) {w : Who} : (s.advance w).Canonical := hm.onCohort

theorem State.Canonical.callLines (hm : s.Canonical) {w : Who} {u : Uses} : (s.callLines w u).Canonical := hm.ite (hm.foldl fun _ _ ht => ht.pushOnce)

theorem State.Canonical.run (hm : s.Canonical) {w : Who} {hold : Who → State → Option State} {body : Who → State → State}
    (hhold : ∀ w t, t.Canonical → CanonicalIn id (hold w t)) (hbody : ∀ w t, t.Canonical → (body w t).Canonical) :
    (s.run w hold body).Canonical := by
  unfold State.run
  split
  · next heq => exact (hhold _ _ hm).get heq
  · exact hbody _ _ hm.advance

theorem State.Canonical.issue (hm : s.Canonical) {u : Who → State → Uses} {check : Who → State → Option Bad} {hold : Who → State → Option State}
    {body : Who → State → State} (hhold : ∀ w t, t.Canonical → CanonicalIn id (hold w t)) (hbody : ∀ w t, t.Canonical → (body w t).Canonical) :
    Out.Canonical (issue u check hold body s) := by
  unfold Machine.issue
  split
  · exact trivial
  · split
    · exact hm.callLines
    · exact hm.pushOnce
    · exact hm.stopAt
    · extract_lets +onlyGivenNames s1
      have h1 : s1.Canonical := hm.greyLanes
      split
      · exact h1
      · split
        · exact h1
        · exact h1.run (fun _ _ ht => hhold _ _ ht) (fun _ _ ht => hbody _ _ ht)
    · exact hm.run (fun _ _ ht => hhold _ _ ht) (fun _ _ ht => hbody _ _ ht)

theorem noHold_canonical {x : Who} : CanonicalIn id (noHold x s) :=
  .none

theorem State.Canonical.issueOwn (hm : s.Canonical) {u : Uses} {check : Who → State → Option Bad} {f : Who → Cohort → Cohort} :
    Out.Canonical (issueOwn u check f s) :=
  hm.issue (fun _ _ _ => noHold_canonical) (fun _ _ ht => ht.onCohort)

theorem State.Canonical.waitIn (hm : s.Canonical) {w : Who} {code : Nat} {hold : Hold} : (s.waitIn w code hold).Canonical := hm.onCohort

theorem State.Canonical.putImg (hm : s.Canonical) {a : Nat} {bs : List Byte} : (s.putImg a bs).Canonical := hm.homeWrite

theorem State.Canonical.putTable (hm : s.Canonical) {a n : Nat} {f : Nat → Option (List Byte)} : (s.putTable a n f).Canonical :=
  hm.foldl fun _ _ ht => ht.putImg

theorem State.Canonical.settle (hm : s.Canonical) {a n : Nat} : (s.settle a n).Canonical := hm.foldl fun _ _ ht => ht.narrow.ite ht

theorem State.Canonical.putPreds (hm : s.Canonical) {a : Nat} {p : Tbl Mask} : (s.putPreds a p).Canonical := hm.foldl fun _ _ ht => ht.putImg

theorem State.Canonical.putQs (hm : s.Canonical) {a ta lo : Nat} {h : Cohort} : (s.putQs a ta lo h).Canonical :=
  hm.foldl fun _ _ ht => ht.putImg.putImg

theorem State.Canonical.putBisque (hm : s.Canonical) {img : Nat} {b : Bisque} : (s.putBisque img b).Canonical := by
  unfold State.putBisque
  dsimp only
  exact (hm.foldl fun _ _ ht => ht.putImg.putImg).putPreds.putImg

theorem State.Canonical.saveFlow (hm : s.Canonical) {img : Nat} {h : Cohort} : (s.saveFlow img h).Canonical := by
  unfold State.saveFlow
  extract_lets +onlyGivenNames s1 s2 s3 s4
  have h4 : s4.Canonical := hm.putTable.putTable.putTable.putPreds.putQs
  split
  · exact h4.putBisque
  · exact h4

theorem State.Canonical.replayPut (hm : s.Canonical) {r : Replay} {a : Nat} : (Replay.put r s a).Canonical := by
  unfold Replay.put
  dsimp only
  exact hm.putImg.putImg.foldl fun _ _ ht => ht.putImg.putImg

theorem State.Canonical.dropTransfers (hm : s.Canonical) {c : Nat} {h : Cohort} {seq : Nat} : (s.dropTransfers c h seq).Canonical := hm.onBlock

theorem State.Canonical.putFrame (hm : s.Canonical) {img : Nat} {x : Cause} {swap : Bool} {reps : List Replay} :
    (s.putFrame img x swap reps).Canonical := by
  unfold State.putFrame
  extract_lets +onlyGivenNames s1 s2
  have h2 : s2.Canonical := hm.putImg.foldl fun _ _ ht => ht.replayPut
  split
  · exact h2.putImg
  · exact h2

theorem State.Canonical.saveTrap (hm : s.Canonical) {c k : Nat} {h0 : Cohort} {x : Cause} {swap : Bool} : (s.saveTrap c k h0 x swap).Canonical := by
  unfold State.saveTrap
  extract_lets +onlyGivenNames u h x' src h1 h2 s1 stores young tiles again reps s2 h3 s3
  have hu : u.Canonical := by
    unfold u
    split
    · exact (hm.foldl fun _ _ ht => ht.fillLine).ite hm
    · exact hm
  have hs1 : s1.Canonical := by
    unfold s1
    split
    · exact hu.dropTransfers.ite hu
    · exact hu
  have hs2 : s2.Canonical := hs1.onBlock
  have hs3 : s3.Canonical := hs2.upd
  exact hs3.dropFrameReqs.setCohort.settle.saveFlow.putFrame

theorem State.Canonical.enterTrap (hm : s.Canonical) {c k : Nat} : (s.enterTrap c k).Canonical := by
  unfold State.enterTrap
  split
  · exact hm
  · split
    · exact hm
    · split
      · exact hm.ite hm.pushOnce
      · split
        · exact hm.onCohort
        · exact hm.onCohort.endCohort.ite hm.saveTrap.onCohort

theorem State.Canonical.reinject (hm : s.Canonical) {c k : Nat} {r : Replay} {skip : Bool} : (s.reinject c k r skip).Canonical := by
  unfold State.reinject
  split
  · exact hm
  · split
    · dsimp only
      exact hm.onBlock.pushOnce
    · split
      · exact hm
      · split
        · exact hm
        · dsimp only
          split
          · exact hm.setCohort
          · split
            · exact hm.setCohort.pushOnce
            · exact hm.setCohort.pushOnce

theorem State.Canonical.reinjectAll (hm : s.Canonical) {c k img : Nat} : (s.reinjectAll c k img).Canonical := by
  unfold State.reinjectAll
  dsimp only
  exact (hm.foldl fun _ _ ht => ht.reinject).onCohort

theorem State.Canonical.acquireDev (hm : s.Canonical) {c k : Nat} : (s.acquireDev c k).Canonical := hm.onCohort.pushOnce

theorem State.Canonical.giveUpChains (hm : s.Canonical) {c : Nat} {h : Cohort} : (s.giveUpChains c h).Canonical := by
  unfold State.giveUpChains
  exact hm.foldl fun _ _ ht => ht.foldl fun _ _ ht1 => by
    dsimp only
    exact ht1.onCore.push

theorem State.Canonical.resumeChain (hm : s.Canonical) {c : Nat} {h : Cohort} : (s.resumeChain c h).Canonical := by
  unfold State.resumeChain
  dsimp only
  exact hm.giveUpChains.ite hm.onCore.push

theorem State.Canonical.leaveTrap (hm : s.Canonical) {c k : Nat} {h : Cohort} : (s.leaveTrap c k h).Canonical := by
  unfold State.leaveTrap
  extract_lets +onlyGivenNames h1 h2 s1 s2
  have h2 : s2.Canonical := (hm.setCohort.acquireDev.ite hm.setCohort).reinjectAll.resumeChain
  exact h2.ite h2.pushOnce

/-! Bounds: the bound registers. -/

theorem State.Canonical.setBound (hm : s.Canonical) {asid n : Nat} {r : BoundReg} : (s.setBound asid n r).Canonical := hm

theorem State.Canonical.setBstat (hm : s.Canonical) {c k : Nat} {m : BitVec 32} : (s.setBstat c k m).Canonical := hm.ite hm.onCohort

/-! Arbiter: the firing schedule. -/

theorem State.Canonical.fsGrant (hm : s.Canonical) {cls ix act : Nat} : (s.fsGrant cls ix act).Canonical := by
  unfold State.fsGrant
  extract_lets +onlyGivenNames n s1
  have h1 : s1.Canonical := hm.upd
  exact h1.setHub.ite h1

theorem State.Canonical.fsPass (hm : s.Canonical) {act : Nat} {path : List (Nat × Nat)} : CanonicalIn id (s.fsPass act path) :=
  .ite (.some (hm.foldl fun _ _ ht => ht.fsGrant)) .none

theorem State.Canonical.fsLines (hm : s.Canonical) {act : Nat} {src : Option Nat} {pas : List Nat} : CanonicalIn id (s.fsLines act src pas) :=
  hm.fsPass

theorem State.Canonical.fsLinks (hm : s.Canonical) {act router : Nat} {pas : List Nat} : CanonicalIn id (s.fsLinks act router pas) := hm.fsPass

theorem State.Canonical.execFsbudWrite (hm : s.Canonical) : Out.Canonical (execFsbudWrite s) := by
  unfold Machine.execFsbudWrite
  dsimp only
  exact .ite hm (.ite hm.setHub hm.setHub)

theorem State.Canonical.execFsPeriodStart (hm : s.Canonical) : Out.Canonical (execFsPeriodStart s) := by
  unfold Machine.execFsPeriodStart
  dsimp only
  exact .ite hm hm.upd

/-! Collective: collective windows and combine ports. -/

theorem State.Canonical.awCount (hm : s.Canonical) {w hi lo : Nat} : (s.awCount w hi lo).Canonical := by
  unfold State.awCount
  dsimp only
  exact hm.setHub

theorem State.Canonical.onUl (hm : s.Canonical) {f : Uliah → Uliah} : (s.onUl f).Canonical := hm

theorem State.Canonical.setBucket (hm : s.Canonical) {b : Bucket} : (s.setBucket b).Canonical := hm.onUl

theorem State.Canonical.portPass (hm : s.Canonical) {reads writes : List Nat} : CanonicalIn id (s.portPass reads writes) := .ite hm.fsLines .none

theorem State.Canonical.portWrite (hm : s.Canonical) {pa : Nat} {bs : List Byte} {bad : List Nat} : (s.portWrite pa bs bad).Canonical := by
  unfold State.portWrite
  dsimp only
  exact (hm.foldl fun _ _ ht => ht.homeWrite).foldl fun _ _ ht => ht.taint

theorem State.Canonical.portRead (hm : s.Canonical) {pa n : Nat} : (s.portRead pa n).2.2.Canonical := by
  unfold State.portRead
  dsimp only
  exact hm.foldl fun _ _ ht => ht.homeRead

theorem State.Canonical.putSpill (hm : s.Canonical) {w : Nat} {bs : List Byte} {bad : List Nat} : CanonicalIn Prod.snd (s.putSpill w bs bad) :=
  .bind fun _ _ => .map fun _ hx1 => (hm.portPass.get hx1).portWrite

theorem State.Canonical.spillInput (hm : s.Canonical) {x : Segment} : CanonicalIn Prod.snd (s.spillInput x) := .map fun _ hx => hm.putSpill.getSnd hx

theorem State.Canonical.fetchInput (hm : s.Canonical) {x : Segment} : (s.fetchInput x).2.Canonical := by
  unfold State.fetchInput
  split
  · exact hm
  · dsimp only
    exact hm.portRead

theorem State.Canonical.spillPart (hm : s.Canonical) {id : Nat} {h : Handler} : (s.spillPart id h).Canonical := by
  unfold State.spillPart
  split
  · exact elim_canonical hm fun _ hx => by
      dsimp only
      exact hm.putSpill.getSnd hx
  · exact hm

theorem State.Canonical.fetchPart (hm : s.Canonical) {h : Handler} : CanonicalIn Prod.snd (s.fetchPart h) := by
  unfold State.fetchPart
  split
  · exact .some hm
  · dsimp only
    exact .map fun _ hx => (hm.portPass.get hx).portRead

theorem State.Canonical.spill (hm : s.Canonical) {w tag : Nat} : (s.spill w tag).Canonical := by
  unfold State.spill
  extract_lets +onlyGivenNames b
  split
  · exact hm
  · extract_lets +onlyGivenNames s0 s1 s2
    have h0 : s0.Canonical := hm.ite hm.setBucket.awCount
    have h1 : s1.Canonical := h0.foldl fun _ _ ht => elim_canonical ht fun _ hx => (ht.spillInput.getSnd hx).onUl
    have h2 : s2.Canonical := h1.foldl fun _ _ ht => elim_canonical ht fun _ hx => (ht.putSpill.getSnd hx).onUl
    exact h2.foldl fun _ _ ht => ht.spillPart

theorem State.Canonical.rouse (hm : s.Canonical) {w tag seg : Nat} : (s.rouse w tag seg).Canonical := hm.ite hm.pushOnce

theorem State.Canonical.holdInput (hm : s.Canonical) {x : Segment} : (s.holdInput x).Canonical := by
  unfold State.holdInput
  extract_lets +onlyGivenNames id s1
  have h1 : s1.Canonical := hm.upd.onUl
  exact h1.rouse.ite h1

theorem State.Canonical.acceptInput (hm : s.Canonical) {x : Segment} : CanonicalIn id (s.acceptInput x) := by
  unfold State.acceptInput
  dsimp only
  exact .ite (.some hm) (.ite (.some hm.awCount) (.ite (.some hm.holdInput) (.map fun _ hx => ((hm.ite hm.spill).spillInput.getSnd hx).holdInput)))

theorem State.Canonical.payHalt (hm : s.Canonical) {sig : Nat} : (s.payHalt sig).Canonical := by
  unfold State.payHalt
  split
  · split
    · next heq => exact (hm.portPass.get heq).homeWrite
    · exact hm.onUl
  · split
    · exact hm.writePeer
    · exact hm.poke.ite hm
    · exact hm

theorem State.Canonical.payOwed (hm : s.Canonical) : s.payOwed.Canonical := hm.onUl.foldl fun _ _ ht => ht.payHalt

theorem State.Canonical.haltWindow (hm : s.Canonical) {w code word extra : Nat} : (s.haltWindow w code word extra).Canonical := by
  unfold State.haltWindow
  extract_lets +onlyGivenNames x y s1 sig s2
  have h1 : s1.Canonical := hm.setHub.onUl
  exact (h1.ite h1.payHalt).errRec

theorem State.Canonical.execAwcfgEnable (hm : s.Canonical) : Out.Canonical (execAwcfgEnable s) := by
  unfold Machine.execAwcfgEnable
  dsimp only
  exact .ite hm (.ite hm.setHub.setHub.onUl hm.setHub.setHub)

theorem State.Canonical.execAwcfgDisable (hm : s.Canonical) : Out.Canonical (execAwcfgDisable s) := by
  unfold Machine.execAwcfgDisable
  dsimp only
  exact .ite hm hm.setHub.setHub.onUl

theorem State.Canonical.execAwRegisterWrite (hm : s.Canonical) : Out.Canonical (execAwRegisterWrite s) := by
  unfold Machine.execAwRegisterWrite
  dsimp only
  exact .ite hm hm.setHub

theorem State.Canonical.openPart (hm : s.Canonical) {w tag seg rank : Nat} : CanonicalIn Prod.snd (s.openPart w tag seg rank) := by
  unfold State.openPart
  split
  · exact .some hm
  · dsimp only
    exact .ite (.some hm) (.map fun _ hx => (hm.ite hm.spill).putSpill.getSnd hx)

theorem State.Canonical.fillPart (hm : s.Canonical) {x : Assembly} {i : Nat} {bs : List Byte} : CanonicalIn id (s.fillPart x i bs) := by
  unfold State.fillPart
  split
  · exact .some hm
  · exact .map fun _ hx => (hm.portPass.get hx).homeWrite

theorem State.Canonical.partData (hm : s.Canonical) {x : Assembly} : (s.partData x).2.Canonical := by
  unfold State.partData
  split
  · exact hm
  · dsimp only
    exact hm.portRead

theorem State.Canonical.assemble (hm : s.Canonical) {w off rank : Nat} {bs : List Byte} : CanonicalIn id (s.assemble w off rank bs) := by
  unfold State.assemble
  dsimp only
  exact .bind fun _ hx => .bind fun _ hx1 =>
    .ite ((hm.openPart.getSnd hx).fillPart.get hx1).partData.onUl.acceptInput (.some ((hm.openPart.getSnd hx).fillPart.get hx1).onUl)

theorem State.Canonical.contribute (hm : s.Canonical) {c size : Nat} {l : List LaneAcc} : CanonicalIn id (s.contribute c size l) := by
  induction l generalizing s with
  | nil => exact .some hm
  | cons x l ih =>
    unfold State.contribute
    split
    · exact .ite (ih hm) (.bind fun _ hx => ih (hm.assemble.get hx))
    · exact ih hm

theorem State.Canonical.execAwContribution (hm : s.Canonical) : Out.Canonical (execAwContribution s) := by
  unfold Machine.execAwContribution
  dsimp only
  split
  · exact hm
  · split
    · exact hm
    · split
      · exact hm.push
      · split
        · exact hm.upd.push
        · next heq => exact ((CanonicalIn.bind fun _ hx => (hm.contribute.get hx).fsPass).get heq).answer

theorem State.Canonical.execSegmentReceive (hm : s.Canonical) : Out.Canonical (execSegmentReceive s) := by
  unfold Machine.execSegmentReceive
  dsimp only
  split
  · exact hm.errRec.ite hm.errRec.onUl
  · split
    · exact .ite hm.push hm
    · next heq => exact (hm.acceptInput.get heq).ite (hm.acceptInput.get heq).onUl

theorem State.Canonical.execUeRetransmit (hm : s.Canonical) : Out.Canonical (execUeRetransmit s) := by
  unfold Machine.execUeRetransmit
  dsimp only
  split
  · exact hm
  · exact .ite hm.onUl (.ite hm hm.onUl)

theorem State.Canonical.execHandlerStart (hm : s.Canonical) : Out.Canonical (execHandlerStart s) := by
  unfold Machine.execHandlerStart
  dsimp only
  exact .ite hm (.ite hm.push hm.upd.setBucket.onUl)

theorem State.Canonical.execBucketSpill (hm : s.Canonical) : Out.Canonical (execBucketSpill s) := by
  unfold Machine.execBucketSpill
  dsimp only
  exact .ite hm.spill hm

theorem State.Canonical.advanceRound (hm : s.Canonical) {w tag : Nat} : (s.advanceRound w tag).Canonical := by
  unfold State.advanceRound
  dsimp only
  exact hm.awCount.setBucket.onUl.foldl fun _ _ ht => ht.rouse

theorem State.Canonical.endHandler (hm : s.Canonical) {id : Nat} {h : Handler} : (s.endHandler id h).Canonical := by
  unfold State.endHandler
  dsimp only
  exact hm.onUl

/-! Bank: the banks of the stores. -/

theorem State.Canonical.bankServe (hm : s.Canonical) {id : Nat} : (s.bankServe id).Canonical := by
  unfold State.bankServe
  split
  · exact hm
  · exact hm.ite (hm.push.ite ((hm.upd.ite hm).ite (hm.captureQueue.serve.upd.ite hm.captureQueue.serve).answer))

theorem State.Canonical.fillGranules (hm : s.Canonical) {gs : List Nat} : (s.fillGranules gs).Canonical := by
  unfold State.fillGranules
  dsimp only
  exact hm.ite (hm.upd.foldl fun _ _ ht => ht.bankServe)

/-! MemoryOps: loads, stores and atomics. -/

theorem State.Canonical.beginLoad (hm : s.Canonical) {w : Who} {x : MemShape} {m : Mask} {ls : List LaneAcc} : (s.beginLoad w x m ls).Canonical := by
  unfold State.beginLoad
  dsimp only
  exact hm.startLoad.ite hm.onCohort.startLoad

theorem State.Canonical.loadWith (hm : s.Canonical) {u : Uses} {x : MemShape} {g : Nat} {addr : Cohort → Nat → Nat} :
    Out.Canonical (loadWith u x g addr s) := by
  unfold Machine.loadWith
  dsimp only
  exact hm.issue (fun _ _ _ => noHold_canonical) (fun _ _ ht => ht.beginLoad)

theorem State.Canonical.loadLanes (hm : s.Canonical) {size : Nat} {o : OpLd} : Out.Canonical (loadLanes size o s) := by
  unfold Machine.loadLanes
  dsimp only
  exact hm.loadWith

theorem State.Canonical.loadConst (hm : s.Canonical) {size : Nat} {o : OpLdk} : Out.Canonical (loadConst size o s) := hm.loadWith

theorem State.Canonical.execQld (hm : s.Canonical) {o : OpQld} : Out.Canonical (execQld o s) := by
  unfold Machine.execQld
  dsimp only
  exact hm.issue (fun _ _ _ => noHold_canonical) (fun _ _ ht => ht.beginLoad)

theorem State.Canonical.boundHold (hm : s.Canonical) {size : Nat} {cas : Bool} {ls : Who → List LaneAcc} {w : Who} :
    CanonicalIn id (boundHold size cas ls w s) := by
  unfold Machine.boundHold
  split
  · exact .some hm.setBstat.stopAt
  · exact .none

theorem State.Canonical.beginStore (hm : s.Canonical) {w : Who} {x : MemShape} {m : Mask} {ls : List LaneAcc} : (s.beginStore w x m ls).Canonical :=
  hm.setBstat.queueStore

theorem State.Canonical.execSt (hm : s.Canonical) {o : OpSt} : Out.Canonical (execSt o s) := by
  unfold Machine.execSt
  dsimp only
  exact hm.issue (fun _ _ ht => ht.boundHold) (fun _ _ ht => ht.beginStore)

theorem State.Canonical.execQst (hm : s.Canonical) {o : OpQst} : Out.Canonical (execQst o s) := by
  unfold Machine.execQst
  dsimp only
  exact hm.issue (fun _ _ ht => ht.boundHold) (fun _ _ ht => ht.beginStore)

theorem State.Canonical.execAtom (hm : s.Canonical) {o : OpAtom} : Out.Canonical (execAtom o s) := by
  unfold Machine.execAtom
  dsimp only
  exact hm.issue (fun _ _ ht => .ite ht.boundHold .none) fun _ _ ht => ht.setBstat.beginLoad.ite ht.beginLoad

theorem State.Canonical.execCas (hm : s.Canonical) {o : OpCas} : Out.Canonical (execCas o s) := by
  unfold Machine.execCas
  dsimp only
  exact hm.issue (fun _ _ ht => ht.boundHold) fun _ _ ht => ht.setBstat.beginLoad

theorem State.Canonical.lateStore (hm : s.Canonical) {c k : Nat} {h : Cohort} {st : StoreOp} {va : Nat} : (s.lateStore c k h st va).Canonical := by
  unfold State.lateStore
  dsimp only
  exact hm.setCohort.launchErr.notify.ite hm.setCohort.notify

theorem State.Canonical.execStoreLeaveQueue (hm : s.Canonical) : Out.Canonical (execStoreLeaveQueue s) := by
  unfold Machine.execStoreLeaveQueue
  dsimp only
  split
  · exact hm
  · split
    · exact hm
    · split
      · exact hm
      · split
        · exact hm.pushOnce
        · split
          · exact hm.lateStore
          · exact hm.leaveStore

theorem State.Canonical.walkFails (hm : s.Canonical) {c k asid vpn : Nat} : (s.walkFails c k asid vpn).Canonical := by
  unfold State.walkFails
  split
  · exact hm
  · extract_lets +onlyGivenNames gang miss s1
    have h1 : s1.Canonical := by
      unfold s1
      split
      · exact hm.faultLoad
      · exact hm
    split
    · exact h1
    · split
      · exact h1
      · split
        · exact h1.ite h1.lateStore
        · exact h1

theorem State.Canonical.walkDone (hm : s.Canonical) {c k : Nat} : (s.walkDone c k).Canonical := by
  unfold State.walkDone
  split
  · exact hm
  · extract_lets +onlyGivenNames s1
    have h1 : s1.Canonical := hm.foldl fun _ _ ht => ht.advanceLoad
    exact h1.ite h1.pushOnce

theorem State.Canonical.execTranslationWalkComplete (hm : s.Canonical) : Out.Canonical (execTranslationWalkComplete s) := by
  unfold Machine.execTranslationWalkComplete
  dsimp only
  split
  · exact hm.foldl fun _ _ ht => ht.walkDone
  · split
    · exact hm.foldl fun _ _ ht => ht.walkDone
    · split
      · exact hm.walkReads.onCore.foldl fun _ _ ht => ht.walkDone
      · exact hm.walkReads.foldl fun _ _ ht => ht.walkFails.walkDone

theorem State.Canonical.fillCache (hm : s.Canonical) {a : Access} : (s.fillCache a).Canonical := by
  unfold State.fillCache
  split
  · exact hm
  · dsimp only
    split
    · exact hm
    · split
      · split
        · exact hm
        · exact hm.frameFor.foldl fun _ _ ht => ht.ite ht.onCore
      · exact hm.ite hm.onCore
      · exact hm.ite hm.onCore

theorem State.Canonical.refreshL1 (hm : s.Canonical) {c line : Nat} : (s.refreshL1 c line).Canonical := by
  unfold State.refreshL1
  split
  · exact hm
  · dsimp only
    exact hm.ite hm.onCore

theorem State.Canonical.execLoadDataReturn (hm : s.Canonical) : Out.Canonical (execLoadDataReturn s) := by
  unfold Machine.execLoadDataReturn
  extract_lets +onlyGivenNames uid seq id
  split
  · exact hm
  · split
    · exact hm
    · split
      · exact hm.upd.chainRead.nudgeInvals
      · extract_lets +onlyGivenNames x s0 s1
        have h0 : s0.Canonical := hm.upd.fillCache
        have h1 : s1.Canonical := (h0.refreshL1.ite h0).nudgeInvals
        split
        · exact h1
        · split
          · exact h1
          · exact h1.finishLoad

theorem State.Canonical.execWriteAcknowledgement (hm : s.Canonical) : Out.Canonical (execWriteAcknowledgement s) := by
  unfold Machine.execWriteAcknowledgement
  split
  · exact hm
  · extract_lets +onlyGivenNames s1
    have h1 : s1.Canonical := hm.upd
    exact .ite h1.chainAcked.nudgeInvals ((h1.foldl fun _ _ ht => ht.notify).nudgeInvals.foldl fun _ _ ht => ht.checkBlock)

/-! Fence: fences and ranges. -/

theorem State.Canonical.addFence (hm : s.Canonical) {w : Who} {scope pred succ paths : Nat} : (s.addFence w scope pred succ paths).Canonical :=
  hm.onCohort.pushOnce

theorem State.Canonical.storesFirst (hm : s.Canonical) {w : Who} : CanonicalIn id (storesFirst w s) := .ite .none (.some hm)

theorem State.Canonical.flushFrames (hm : s.Canonical) {w : Who} {fs : Tbl L1Frame} {drop : Bool} : (s.flushFrames w fs drop).Canonical := by
  unfold State.flushFrames
  exact hm.foldl fun _ _ ht => by
    dsimp only
    exact ht.writeBack.onCore

theorem State.Canonical.execWbr (hm : s.Canonical) {a l : Nat} : Out.Canonical (execWbr a l s) := by
  unfold Machine.execWbr
  refine hm.issue (fun _ _ ht => ht.storesFirst) fun _ _ ht => ?_
  dsimp only
  exact ht.ite ht.flushFrames

theorem State.Canonical.execInvr (hm : s.Canonical) {a l : Nat} : Out.Canonical (execInvr a l s) := by
  unfold Machine.execInvr
  refine hm.issue (fun _ _ ht => ht.storesFirst) fun _ _ ht => ?_
  dsimp only
  exact ht.ite ht.flushFrames.addFence

theorem State.Canonical.execFenceComplete (hm : s.Canonical) : Out.Canonical (execFenceComplete s) := by
  unfold Machine.execFenceComplete
  dsimp only
  split
  · exact hm
  · exact .ite hm hm.setCohort.onCore.notify

/-! Engine: the entries of command chains. -/

theorem State.Canonical.startChain (hm : s.Canonical) {e a acc : Nat} : Out.Canonical (startChain e a acc s) := by
  unfold Machine.startChain
  refine hm.issue (fun _ _ ht => ?_) fun _ _ ht => ?_
  · split
    · exact .none
    · exact .some ht.waitIn
  · split
    · exact ht
    · dsimp only
      exact ht.onCore.push

theorem State.Canonical.granuleWrite (hm : s.Canonical) {g : Nat} {bs : List (Nat × Byte × Bool)} : (s.granuleWrite g bs).Canonical := by
  unfold State.granuleWrite
  extract_lets +onlyGivenNames half ws s1
  have h1 : s1.Canonical := hm.land.ite (hm.foldl fun _ _ ht => ht.homeWrite)
  exact h1.taint.ite (h1.upd.ite h1)

theorem State.Canonical.granulesWrite (hm : s.Canonical) {l : List (Nat × Byte × Bool)} : (s.granulesWrite l).Canonical := by
  unfold State.granulesWrite
  dsimp only
  exact (hm.foldl fun _ _ ht => ht.lineWritten).foldl fun _ _ ht => ht.granuleWrite

theorem State.Canonical.imageLine (hm : s.Canonical) {uid r : Nat} : (s.imageLine uid r).Canonical := by
  unfold State.imageLine
  split
  · exact hm
  · dsimp only
    exact (hm.ite hm.homeWrite).writeLine.dropLine.onUid

theorem State.Canonical.windowWrite (hm : s.Canonical) {uid : Nat} {bs : List (Nat × Byte × Bool)} : (s.windowWrite uid bs).Canonical := by
  unfold State.windowWrite
  dsimp only
  split
  · exact (hm.foldl fun _ _ ht => ht.fillLine).onCohort
  · split
    · exact hm
    · exact (hm.foldl fun _ _ ht => ht.imageLine).granulesWrite.onOut

theorem State.Canonical.execBankAccess (hm : s.Canonical) : Out.Canonical (execBankAccess s) := by
  unfold Machine.execBankAccess
  extract_lets +onlyGivenNames id
  split
  · exact hm
  · split
    · exact .ite hm (.ite hm.push hm.windowWrite.answer)
    · extract_lets +onlyGivenNames s1
      have h1 : s1.Canonical := hm.bankServe
      exact .ite h1.fillGranules h1

theorem State.Canonical.translateUnit (hm : s.Canonical) {c e asid gang : Nat} {l : List (ESrc × Nat)} :
    (s.translateUnit c e asid gang l).2.Canonical := by
  induction l generalizing s with
  | nil => exact hm
  | cons x l ih =>
    obtain ⟨src, dst⟩ := x
    unfold State.translateUnit
    extract_lets +onlyGivenNames rd
    have hrd : rd.2.Canonical := by
      unfold rd
      split
      · exact hm
      · split
        · next heq => exact hm.findNow.ofSnd heq
        · next heq => exact hm.findNow.ofSnd heq
    clear_value rd
    split
    · exact hrd
    · split
      · next heq =>
        have h2 := hrd.findNow.ofSnd heq
        split
        · exact h2
        · split
          · next heq1 => exact (ih h2).ofSnd heq1
          · exact ih h2
      · next heq => exact hrd.findNow.ofSnd heq

theorem State.Canonical.translateUnits (hm : s.Canonical) {c e asid gang : Nat} {l : List (List (ESrc × Nat))} :
    (s.translateUnits c e asid gang l).2.2.Canonical := by
  induction l generalizing s with
  | nil => exact hm
  | cons u l ih =>
    unfold State.translateUnits
    split
    · next heq => exact hm.translateUnit.ofSnd heq
    · next heq => exact ih (hm.translateUnit.ofSnd heq)

theorem State.Canonical.dropBlocks (hm : s.Canonical) {c : Nat} {pas : List Nat} : (s.dropBlocks c pas).Canonical := by
  unfold State.dropBlocks
  exact hm.foldl fun _ _ ht => by
    split
    · exact ht.evictL1
    · exact ht

theorem State.Canonical.chainReads (hm : s.Canonical) {c e n reuse : Nat} {p : Plan} : (s.chainReads c e n reuse p).Canonical := by
  unfold State.chainReads
  dsimp only
  exact hm.onChain.foldl fun _ _ ht => ht.launchAcc.onChain

theorem State.Canonical.chainWrites (hm : s.Canonical) {c e n : Nat} {ch : Chain} {nf : Bool} {lanes : List LaneAcc} :
    (s.chainWrites c e n ch nf lanes).Canonical := by
  unfold State.chainWrites
  exact hm.dropBlocks.foldl fun _ _ ht => by
    dsimp only
    exact ht.launchAcc.onChain

theorem State.Canonical.awayBstat (hm : s.Canonical) {c uid : Nat} {m : BitVec 32} : (s.awayBstat c uid m).Canonical := by
  unfold State.awayBstat
  split
  · exact hm
  · dsimp only
    exact hm.onCore.putImg

theorem State.Canonical.engineBounds (hm : s.Canonical) {c uid asid off : Nat} {regs : Tbl BoundReg} {l : List (Nat × Byte)} :
    (s.engineBounds c uid asid off regs l).2.Canonical := by
  unfold State.engineBounds
  extract_lets +onlyGivenNames rs bad m s1
  have h1 : s1.Canonical := by
    unfold s1
    split
    · exact hm.setBstat
    · exact hm.awayBstat
  exact h1.foldl fun _ _ ht => ht.errRec.ite ht

theorem State.Canonical.endChain (hm : s.Canonical) {c e n : Nat} {x : Chain} : (s.endChain c e n x).Canonical := by
  unfold State.endChain
  extract_lets +onlyGivenNames s1 s2
  have h1 : s1.Canonical := hm.onCore.retryHolds
  have h2 : s2.Canonical := by
    unfold s2
    split
    · exact h1.notify
    · exact h1
  exact h2.checkBlock

theorem State.Canonical.chainFault (hm : s.Canonical) {c e n sub va progress : Nat} : (s.chainFault c e n sub va progress).Canonical :=
  hm.onChain.push

theorem State.Canonical.giveUpChain (hm : s.Canonical) {c e n : Nat} {x : Chain} : (s.giveUpChain c e n x).Canonical :=
  hm.endChain.ite hm.onChain.push

theorem State.Canonical.reachEntry (hm : s.Canonical) {c e n off asid : Nat} {bs : List Byte} : (s.reachEntry c e n off asid bs).Canonical :=
  hm.onChain.onCore

theorem State.Canonical.chainTo (hm : s.Canonical) {c e n off : Nat} : (s.chainTo c e n off).Canonical := hm.onChain.push

theorem State.Canonical.chainStays (hm : s.Canonical) {c e n : Nat} : (s.chainStays c e n).Canonical := hm.push

theorem State.Canonical.writePlan (hm : s.Canonical) {c e n : Nat} {ch : Chain} {x : Entry} {p : Plan} : (s.writePlan c e n ch x p).Canonical := by
  unfold State.writePlan
  extract_lets +onlyGivenNames vals bd lanes s1
  have h1 : s1.Canonical := hm.engineBounds.chainWrites.onChain
  exact h1.chainStays.ite (h1.onChain.chainStays.ite h1.chainTo)

theorem State.Canonical.startUnits (hm : s.Canonical) {c e n : Nat} {ch : Chain} {bl : Block} {x : Entry} :
    (s.startUnits c e n ch bl x).Canonical := by
  unfold State.startUnits
  split
  · exact hm
  · split
    · exact hm.chainFault
    · extract_lets +onlyGivenNames last units z flat rest
      have hz : z.2.2.Canonical := hm.translateUnits
      split
      · exact hz.chainStays
      · next heq => exact (hz.fsLinks.get heq).chainFault.ite ((hz.fsLinks.get heq).writePlan.ite (hz.fsLinks.get heq).chainReads)

theorem State.Canonical.dataEntry (hm : s.Canonical) {c e n : Nat} {ch : Chain} {bl : Block} {x : Entry} : (s.dataEntry c e n ch bl x).Canonical := by
  unfold State.dataEntry
  split
  · exact hm.chainFault.ite hm
  · split
    · exact hm
    · split
      · exact hm.chainFault
      · exact hm.writePlan
  · exact hm.startUnits

theorem State.Canonical.signalEntry (hm : s.Canonical) {c e n : Nat} {ch : Chain} {bl : Block} {x : Entry} :
    (s.signalEntry c e n ch bl x).Canonical := by
  unfold State.signalEntry
  split
  · exact hm.chainFault
  · split
    · next heq =>
        split
        · exact (hm.findNow.ofSnd heq).chainStays
        · next heq1 =>
            dsimp only
            exact ((hm.findNow.ofSnd heq).fsLinks.get heq1).dropBlocks.launchAcc.onChain.chainTo
    · next heq => exact (hm.findNow.ofSnd heq).chainFault

theorem State.Canonical.setFullEntry (hm : s.Canonical) {c e n : Nat} {ch : Chain} {bl : Block} {x : Entry} :
    (s.setFullEntry c e n ch bl x).Canonical := by
  unfold State.setFullEntry
  split
  · exact hm.chainFault
  · dsimp only
    split
    · exact hm.translateUnits.chainFault
    · split
      · exact hm.translateUnits.chainTo
      · exact hm.translateUnits.chainFault.ite hm.translateUnits.fillGranules.chainTo

theorem State.Canonical.condEntry (hm : s.Canonical) {c e n : Nat} {ch : Chain} {bl : Block} {x : Entry} : (s.condEntry c e n ch bl x).Canonical := by
  unfold State.condEntry
  extract_lets +onlyGivenNames k
  refine hm.chainFault.ite ?_
  split
  · split
    · next heq =>
      split
      · exact (hm.findNow.ofSnd heq).chainStays
      · next heq1 => exact ((hm.findNow.ofSnd heq).fsLinks.get heq1).chainReads
    · next heq => exact (hm.findNow.ofSnd heq).chainFault
  · exact hm.ite (hm.chainFault.ite (hm.chainFault.ite ((hm.onChain.chainTo.ite hm.onChain.onChain.push).ite hm.onChain.chainTo)))

theorem State.Canonical.actEntry (hm : s.Canonical) {c e n : Nat} {ch : Chain} {bl : Block} {x : Entry} : (s.actEntry c e n ch bl x).Canonical := by
  unfold State.actEntry
  split
  · exact hm
  · extract_lets +onlyGivenNames s1
    have h1 : s1.Canonical := hm.ite hm.onChain
    split
    · exact h1.signalEntry
    · exact h1.setFullEntry
    · split
      · exact h1.onChain.chainTo
      · exact h1.chainFault
    · exact h1.condEntry
    · exact h1.chainTo
    · exact h1.endChain
    · exact h1.dataEntry

theorem State.Canonical.reachNext (hm : s.Canonical) {c e n : Nat} {ch : Chain} {bl : Block} : (s.reachNext c e n ch bl).Canonical := by
  unfold State.reachNext
  split
  · exact hm.chainStays
  · split
    · exact hm.chainFault
    · split
      · exact hm.chainFault
      · extract_lets +onlyGivenNames s1 x
        have h1 : s1.Canonical := hm.reachEntry
        split
        · exact h1.chainFault
        · extract_lets +onlyGivenNames ch1
          split
          · exact h1.chainFault
          · exact h1.actEntry

theorem State.Canonical.execEngineEntryReach (hm : s.Canonical) : Out.Canonical (execEngineEntryReach s) := by
  unfold Machine.execEngineEntryReach
  dsimp only
  split
  · exact hm
  · exact .ite hm.giveUpChain (.ite (.ite hm.giveUpChain hm) (.ite hm.giveUpChain (.ite hm (.ite hm.actEntry hm.reachNext))))

theorem State.Canonical.execConditionalWaitPauseEnd (hm : s.Canonical) : Out.Canonical (execConditionalWaitPauseEnd s) := by
  unfold Machine.execConditionalWaitPauseEnd
  dsimp only
  split
  · exact hm
  · exact .ite hm hm.onChain.chainStays

theorem State.Canonical.rollbackOut (hm : s.Canonical) {c : Nat} {h : Cohort} {b : Bisque} : (s.rollbackOut c h b).Canonical := by
  unfold State.rollbackOut
  dsimp only
  exact ((hm.settle.dropTransfers.foldl fun _ _ ht => ht.saveLine.putImg.dropLine).putImg.foldl fun _ _ ht => ht.replayPut).saveFlow.onOut

theorem State.Canonical.faultOut (hm : s.Canonical) {c : Nat} {h : Cohort} {x : Cause} : (s.faultOut c h x).Canonical := by
  unfold State.faultOut
  split
  · exact hm.onOut
  · extract_lets +onlyGivenNames img x' s1 s2 s3
    have h1 : s1.Canonical := by
      unfold s1
      split
      · exact hm.rollbackOut.ite hm
      · exact hm
    have h2 : s2.Canonical := h1.putImg.putImg
    have h3 : s3.Canonical := by
      unfold s3
      split
      · exact h2.putImg
      · exact h2
    exact h3.putImg.onOut

theorem State.Canonical.execLateEngineFault (hm : s.Canonical) : Out.Canonical (execLateEngineFault s) := by
  unfold Machine.execLateEngineFault
  extract_lets +onlyGivenNames c e n sub
  split
  · exact hm
  · extract_lets +onlyGivenNames bl
    split
    · exact hm.launchErr.giveUpChain
    · split
      · exact hm.launchErr.giveUpChain
      · extract_lets +onlyGivenNames roll x s1
        have h1 : s1.Canonical := hm.giveUpChain.ite hm
        split
        · exact h1.onCohort.notify
        · exact h1.faultOut

/-! Fabric: peers. -/

theorem State.Canonical.onLink (hm : s.Canonical) {l : Nat} {f : Link → Link} : (s.onLink l f).Canonical := hm

theorem State.Canonical.peerDone (hm : s.Canonical) {id : Nat} {x : PeerAcc} {got : List LaneAcc} {bad : Mask} :
    (s.peerDone id x got bad).Canonical := by
  unfold State.peerDone
  extract_lets +onlyGivenNames s1
  have h1 : s1.Canonical := hm.upd
  split
  · exact h1
  · exact h1.answer.ite h1

theorem State.Canonical.peerReadFails (hm : s.Canonical) {id : Nat} {x : PeerAcc} : (s.peerReadFails id x).Canonical := by
  unfold State.peerReadFails
  extract_lets +onlyGivenNames s1
  have h1 : s1.Canonical := hm.upd
  split
  · exact h1
  · extract_lets +onlyGivenNames va
    split
    · exact h1.chainRead.nudgeInvals
    · split
      · exact h1.nudgeInvals
      · exact h1.faultLoad.nudgeInvals

theorem State.Canonical.peerWriteFails (hm : s.Canonical) {id : Nat} {x : PeerAcc} : (s.peerWriteFails id x).Canonical := hm.launchErr.errRec.peerDone

theorem State.Canonical.peerAnswer (hm : s.Canonical) {id value how : Nat} : (s.peerAnswer id value how).Canonical := by
  unfold State.peerAnswer
  split
  · exact hm
  · exact (hm.peerReadFails.ite hm.peerWriteFails).ite (hm.peerDone.ite hm.peerDone)

theorem State.Canonical.execPeerAccessTimeout (hm : s.Canonical) : Out.Canonical (execPeerAccessTimeout s) := by
  unfold Machine.execPeerAccessTimeout
  dsimp only
  split
  · exact hm
  · exact .ite hm (hm.setHub.peerReadFails.ite hm.setHub.peerWriteFails)

theorem State.Canonical.execFabricAck (hm : s.Canonical) : Out.Canonical (execFabricAck s) := by
  unfold Machine.execFabricAck
  dsimp only
  exact .ite hm (.ite (hm.onLink.ite hm) (hm.onLink.ite hm).onLink.linkRecord)

theorem State.Canonical.peerArrives (hm : s.Canonical) {l : Nat} {ops : List Nat} : (s.peerArrives l ops).Canonical := by
  unfold State.peerArrives
  dsimp only
  exact hm.toStack.ite hm.pushAll

theorem State.Canonical.execFabricPacketReceive (hm : s.Canonical) : Out.Canonical (execFabricPacketReceive s) := by
  unfold Machine.execFabricPacketReceive
  dsimp only
  exact .ite hm (.ite hm.onLink (.ite (hm.onLink.foldl fun _ _ ht => ht.peerArrives) hm.onLink.peerAnswer))

theorem State.Canonical.peerEngineWrite (hm : s.Canonical) {pa : Nat} {bs : List Byte} {nf : Bool} {bad : Nat} :
    (s.peerEngineWrite pa bs nf bad).Canonical := by
  unfold State.peerEngineWrite
  extract_lets +onlyGivenNames marked
  split
  · split
    · exact hm.windowWrite
    · exact hm
  · extract_lets +onlyGivenNames s1
    have h1 : s1.Canonical := hm.granulesWrite
    exact h1.ite h1.fillGranules
  · exact hm.granulesWrite

theorem State.Canonical.peerLines (hm : s.Canonical) {kind : AccKind} {pa n : Nat} : (s.peerLines kind pa n).Canonical :=
  hm.ite (hm.foldl fun _ _ ht => ht.lineRead.ite (ht.lineWritten.ite ht.lineAtomic))

theorem State.Canonical.sendReply (hm : s.Canonical) {l pa : Nat} {r : Reply} : (s.sendReply l pa r).Canonical := by
  unfold State.sendReply
  extract_lets +onlyGivenNames s1
  have h1 : s1.Canonical := hm.onLink
  exact h1.errRec.ite h1

theorem State.Canonical.peerReceive (hm : s.Canonical) {ops : List Nat} : (s.peerReceive ops).Canonical := by
  unfold State.peerReceive
  dsimp only
  split
  · exact hm.sendReply.ite (hm.push.ite (hm.peerEngineWrite.sendReply.ite hm.peerLines.serve.sendReply))
  · exact hm.sendReply

theorem State.Canonical.cutLink (hm : s.Canonical) : s.cutLink.Canonical := hm.foldl fun _ _ ht => ht.pushOnce

theorem State.Canonical.execLaneFailure (hm : s.Canonical) : Out.Canonical (execLaneFailure s) := by
  unfold Machine.execLaneFailure
  dsimp only
  exact .ite hm (.ite hm.onLink (.ite hm.onLink.linkRecord.cutLink hm.onLink.pushOnce))

theorem State.Canonical.execLinkRetrainDone (hm : s.Canonical) : Out.Canonical (execLinkRetrainDone s) := by
  unfold Machine.execLinkRetrainDone
  dsimp only
  split
  · exact hm
  · exact .ite hm.onLink hm.onLink.linkRecord

theorem State.Canonical.execFlctlRetrain (hm : s.Canonical) : Out.Canonical (execFlctlRetrain s) := by
  unfold Machine.execFlctlRetrain
  dsimp only
  exact .ite hm hm.onLink.pushOnce

/-! LaunchUnit: the launch unit. -/

theorem State.Canonical.drawBytes (hm : s.Canonical) {n : Nat} : (s.drawBytes n).2.Canonical := foldlSnd hm fun _ _ ht => ht.draw

theorem State.Canonical.readVia (hm : s.Canonical) {tr : Nat → Option Nat} {va n : Nat} : (s.readVia tr va n).2.Canonical := by
  unfold State.readVia
  exact foldlSnd hm fun _ _ ht => by
    split
    · split
      · dsimp only
        exact ht.drawBytes
      · dsimp only
        split <;> exact ht.narrow
    · exact ht

theorem State.Canonical.hubRead (hm : s.Canonical) {asid va n : Nat} : (s.hubRead asid va n).2.Canonical := hm.readVia

theorem State.Canonical.hubWrite (hm : s.Canonical) {asid launch va : Nat} {bs : List Byte} : (s.hubWrite asid launch va bs).Canonical := by
  unfold State.hubWrite
  split
  · exact hm
  · split
    · exact hm.writePeer
    · exact hm.homeWrite

theorem State.Canonical.writeWord (hm : s.Canonical) {asid launch va v : Nat} : (s.writeWord asid launch va v).Canonical := by
  unfold State.writeWord
  split
  · dsimp only
    exact hm.hostTouch
  · exact hm.hubWrite

theorem State.Canonical.hubSub (hm : s.Canonical) {asid launch va : Nat} : (s.hubSub asid launch va).Canonical := by
  unfold State.hubSub
  split
  · exact hm
  · split
    · exact hm.writePeer
    · extract_lets +onlyGivenNames s1
      have h1 : s1.Canonical := hm.lineAtomic.ite hm
      exact h1.ite h1.atomAt

theorem State.Canonical.snapRecord (hm : s.Canonical) {tr : Nat → Option Nat} {va : Nat} : (s.snapRecord tr va).2.Canonical := by
  unfold State.snapRecord
  split
  · exact hm
  · split
    · next heq _ => exact (hm.readVia.ofSnd heq).upd
    · next heq _ => exact hm.readVia.ofSnd heq

theorem State.Canonical.loadBound (hm : s.Canonical) {cls ix asid n va : Nat} : (s.loadBound cls ix asid n va).Canonical := by
  unfold State.loadBound
  split
  · next heq => exact (hm.hubRead.ofSnd heq).setBound.errRec
  · next heq =>
      extract_lets +onlyGivenNames r b t1
      have ht1 : t1.Canonical := (hm.hubRead.ofSnd heq).upd.setBound
      exact ht1.errRec.ite ht1

theorem State.Canonical.loadBounds (hm : s.Canonical) {l : Launch} : (s.loadBounds l).Canonical := by
  unfold State.loadBounds
  extract_lets +onlyGivenNames first s1
  have h1 : s1.Canonical := hm.foldl fun _ _ ht => ht.loadBound
  exact (h1.foldl fun _ _ ht => ht.ite ht.setBound).upd.ite h1

theorem State.Canonical.wakeCdest (hm : s.Canonical) {asid launch cdest kind scope cseq : Nat} :
    (s.wakeCdest asid launch cdest kind scope cseq).Canonical :=
  hm.ite (hm.writeWord.ite hm.hubWrite)

theorem State.Canonical.endReject (hm : s.Canonical) {ops : List Nat} : (s.endReject ops).Canonical := by
  unfold State.endReject
  dsimp only
  exact hm.push.ite hm.wakeCdest

theorem State.Canonical.reportReject (hm : s.Canonical) {asid : Nat} {b : List Byte} {reason : Nat} : (s.reportReject asid b reason).Canonical := by
  unfold State.reportReject
  extract_lets +onlyGivenNames st id s0 s1
  have h0 : s0.Canonical := hm.upd
  exact (h0.ite h0.hubWrite).endReject

theorem State.Canonical.spawnRejected (hm : s.Canonical) {src : Source} : (s.spawnRejected src).Canonical := by
  unfold State.spawnRejected
  split
  · split <;> exact hm.launchErr
  · exact hm

theorem State.Canonical.rejectUnread (hm : s.Canonical) {src : Source} {asid addr : Nat} : (s.rejectUnread src asid addr).Canonical := by
  unfold State.rejectUnread
  dsimp only
  exact hm.errRec.spawnRejected

theorem State.Canonical.enterLaunch (hm : s.Canonical) {l : Launch} : (s.enterLaunch l).Canonical := by
  unfold State.enterLaunch
  extract_lets +onlyGivenNames id s1
  have h1 : s1.Canonical := hm.upd.loadBounds
  exact (h1.ite h1.hubWrite).pushOnce

theorem State.Canonical.judge (hm : s.Canonical) {src : Source} {asid level : Nat} {privileged : Bool} {b : List Byte} :
    (s.judge src asid level privileged b).Canonical := by
  unfold State.judge
  split
  · exact hm.enterLaunch
  · exact hm.reportReject.spawnRejected

theorem State.Canonical.judgeEntry (hm : s.Canonical) {src : Source} {asid level va : Nat} {reserved privileged : Bool} :
    (s.judgeEntry src asid level va reserved privileged).Canonical := by
  unfold State.judgeEntry
  split
  · exact hm.rejectUnread
  · split
    · next heq => exact (hm.snapRecord.ofSnd heq).judge
    · next heq => exact (hm.snapRecord.ofSnd heq).rejectUnread

theorem State.Canonical.readRing (hm : s.Canonical) {base : DWord} {off n : Nat} : (s.readRing base off n).2.Canonical := by
  unfold State.readRing
  dsimp only
  exact (hm.foldl fun _ _ ht => ht.lineRead.narrow).ite hm.hostTouch

theorem State.Canonical.judgeHost (hm : s.Canonical) {n entry : Nat} : (s.judgeHost n entry).Canonical := by
  unfold State.judgeHost
  extract_lets +onlyGivenNames cfg asid cap i s1
  have h1 : s1.Canonical := hm.setHub
  exact (h1.readRing.judge.ite h1.readRing.reportReject).ite h1.readRing.judgeEntry

theorem State.Canonical.releaseSpawn (hm : s.Canonical) {src : Source} {id : Nat} : (s.releaseSpawn src id).Canonical := by
  unfold State.releaseSpawn
  split
  · split
    · exact hm.onCohort
    · exact hm
  · exact hm

theorem State.Canonical.take (hm : s.Canonical) {id : Nat} {x : Submission} : (s.take id x).Canonical := by
  unfold State.take
  extract_lets +onlyGivenNames s1 s2
  have h1 : s1.Canonical := hm.upd
  have h2 : s2.Canonical := by
    unfold s2
    split
    · exact h1.judgeHost
    · exact h1.judgeEntry
    · split
      · exact h1.judge
      · exact h1.rejectUnread
  exact h2.releaseSpawn

theorem State.Canonical.pokeLaunch (hm : s.Canonical) : s.pokeLaunch.Canonical := hm.ite hm.pushOnce

theorem State.Canonical.execLaunchAccept (hm : s.Canonical) : Out.Canonical (execLaunchAccept s) := by
  unfold Machine.execLaunchAccept
  split
  · exact hm.endReject
  · split
    · exact hm
    · split
      · exact hm.push.ite hm
      · exact hm.take.pokeLaunch

theorem State.Canonical.submit (hm : s.Canonical) {x : Submission} : (s.submit x).Canonical := hm.upd.pokeLaunch

/-! Host: host accesses and host queues. -/

theorem State.Canonical.setHq (hm : s.Canonical) {n off : Nat} {v : DWord} : (s.setHq n off v).Canonical := hm.setHub

theorem State.Canonical.execHqDoorbell (hm : s.Canonical) : Out.Canonical (execHqDoorbell s) := by
  unfold Machine.execHqDoorbell
  dsimp only
  exact .ite hm (.ite hm.setHq (hm.upd.foldl fun _ _ ht => ht.ite ht.submit))

theorem State.Canonical.execHqEnable (hm : s.Canonical) : Out.Canonical (execHqEnable s) := by
  unfold Machine.execHqEnable
  dsimp only
  exact .ite hm (.ite hm.setHq.pokeLaunch hm.setHq.setHq)

theorem State.Canonical.execHqDisable (hm : s.Canonical) : Out.Canonical (execHqDisable s) := by
  unfold Machine.execHqDisable
  dsimp only
  exact .ite hm hm.setHq

theorem State.Canonical.execHqbaseWrite (hm : s.Canonical) : Out.Canonical (execHqbaseWrite s) := by
  unfold Machine.execHqbaseWrite
  dsimp only
  exact .ite hm hm.setHq

theorem State.Canonical.submitMgmt (hm : s.Canonical) {l : List Nat} : (s.submitMgmt l).Canonical := by
  induction s, l using State.submitMgmt.induct with
  | case1 s a b r ih => exact ih hm.submit
  | case2 s l h => rw [State.submitMgmt]; exacts [hm, h]

theorem State.Canonical.refuseCmd (hm : s.Canonical) : s.refuseCmd.Canonical := hm.ite hm.setHub

theorem State.Canonical.execRegisterWrite (hm : s.Canonical) : Out.Canonical (execRegisterWrite s) := by
  unfold Machine.execRegisterWrite
  dsimp only
  exact .ite hm.upd (.ite hm.refuseCmd (.ite (hm.setHub.ite hm) (.ite hm hm.setHub)))

theorem State.Canonical.hostPass (hm : s.Canonical) {a n : Nat} {writes : Bool} : CanonicalIn id (s.hostPass a n writes) := .ite hm.fsLines .none

theorem State.Canonical.hostReply (hm : s.Canonical) {a v : Nat} {bad : Bool} : (s.hostReply a v bad).Canonical := hm

theorem State.Canonical.hostWriteNow (hm : s.Canonical) {bar a n v : Nat} : CanonicalIn id (s.hostWriteNow bar a n v) :=
  .ite (.ite (.some hm) (.some hm.upd)) (.map fun _ hx => (hm.hostPass.get hx).homeWrite)

theorem State.Canonical.hostReadNow (hm : s.Canonical) {bar a n : Nat} : CanonicalIn id (s.hostReadNow bar a n) := by
  unfold State.hostReadNow
  exact .ite (.ite (.some hm) (.some hm.hostReply)) (.map fun _ hx => by
    extract_lets +onlyGivenNames t v
    have ht : t.Canonical := (hm.hostPass.get hx).foldl fun _ _ ht => ht.lineRead.narrow
    exact ht.errRec.hostReply.ite ht.hostReply)

theorem State.Canonical.hostNow (hm : s.Canonical) {d : Due} : CanonicalIn id (s.hostNow d) := by
  unfold State.hostNow
  dsimp only
  exact .ite .none (.ite hm.hostWriteNow hm.hostReadNow)

theorem State.Canonical.hostDrain (hm : s.Canonical) {l : List Due} : (s.hostDrain l).Canonical := by
  induction l generalizing s with
  | nil => exact hm
  | cons d l ih =>
    unfold State.hostDrain
    split
    · next heq => exact ih (hm.hostNow.get heq)
    · exact hm

theorem State.Canonical.hostArrives (hm : s.Canonical) {d : Due} : (s.hostArrives d).Canonical := hm.ite (hm.hostDrain.ite hm.upd)

/-! NetworkOps: hops and deadlock. -/

theorem State.Canonical.dropProbe (hm : s.Canonical) {id : Nat} {l : List Nat} : (s.dropProbe id l).Canonical := hm

theorem State.Canonical.execProbeLaunch (hm : s.Canonical) : Out.Canonical (execProbeLaunch s) := by
  unfold Machine.execProbeLaunch
  dsimp only
  exact .ite hm.upd.push hm

theorem State.Canonical.execProbeHop (hm : s.Canonical) : Out.Canonical (execProbeHop s) := by
  unfold Machine.execProbeHop
  dsimp only
  split
  · exact hm
  · split
    · exact hm.dropProbe
    · exact .ite hm.upd.push (.ite hm.dropProbe hm.upd.push)

theorem State.Canonical.escapePacket (hm : s.Canonical) {id : Nat} : (s.escapePacket id).Canonical := by
  unfold State.escapePacket
  split
  · exact hm
  · dsimp only
    exact hm.upd.pushOnce

theorem State.Canonical.escalate (hm : s.Canonical) {l : List Nat} : (s.escalate l).Canonical := by
  unfold State.escalate
  dsimp only
  exact (hm.foldl fun _ _ ht => ht.upd).foldl fun _ _ ht => ht.escapePacket

theorem State.Canonical.execRecoveryGrant (hm : s.Canonical) : Out.Canonical (execRecoveryGrant s) := by
  unfold Machine.execRecoveryGrant
  dsimp only
  split
  · exact hm
  · exact .ite (hm.ite hm.push) (.ite hm.upd (.ite hm.upd.escalate hm.upd.push))

theorem State.Canonical.rotateOne (hm : s.Canonical) {n : Net} {e : Nat × Nat} : (State.rotateOne n s e).Canonical := by
  unfold State.rotateOne
  split
  · exact hm
  · split
    · exact hm
    · exact hm.leaveInput.enterNext.onNet

theorem State.Canonical.execRotationTokenReturn (hm : s.Canonical) : Out.Canonical (execRotationTokenReturn s) := by
  unfold Machine.execRotationTokenReturn
  extract_lets +onlyGivenNames id
  split
  · exact hm
  · extract_lets +onlyGivenNames s1
    have h1 : s1.Canonical := hm.onNet
    exact .ite h1 (.ite h1.escalate (h1.foldl fun _ _ ht => ht.rotateOne).onNet)

theorem State.Canonical.execEscapeReinject (hm : s.Canonical) : Out.Canonical (execEscapeReinject s) := by
  unfold Machine.execEscapeReinject
  extract_lets +onlyGivenNames r
  split
  · exact hm
  · extract_lets +onlyGivenNames s1 s2
    have h1 : s1.Canonical := hm.onNet
    have h2 : s2.Canonical := h1.ite h1.pushOnce
    split
    · exact h2
    · exact .ite hm.push (.ite h2.deliver (.ite h2.enterNext hm.push))

/-! Reliability: errors, scrubbing and the scan controller. -/

theorem State.Canonical.execErrcfgWrite (hm : s.Canonical) : Out.Canonical (execErrcfgWrite s) := by
  unfold Machine.execErrcfgWrite
  dsimp only
  exact .ite hm hm.setHub

theorem State.Canonical.countFixed (hm : s.Canonical) {cls ix st n : Nat} : (s.countFixed cls ix st n).Canonical := hm.ite hm.upd

theorem State.Canonical.execErrCorrectionPeriod (hm : s.Canonical) : Out.Canonical (execErrCorrectionPeriod s) := by
  unfold Machine.execErrCorrectionPeriod
  dsimp only
  split
  · exact hm
  · exact hm.upd.errRec

theorem State.Canonical.errStruck (hm : s.Canonical) {st ix pa asid : Nat} : (s.errStruck st ix pa asid).Canonical := hm.draw.errRec

theorem State.Canonical.strikeL1 (hm : s.Canonical) {c pa : Nat} : (s.strikeL1 c pa).Canonical := by
  unfold State.strikeL1
  split
  · exact hm
  · dsimp only
    exact hm.onCore.errStruck.ite hm.onCore.countFixed

theorem State.Canonical.strike (hm : s.Canonical) {st ix a : Nat} : (s.strike st ix a).Canonical := by
  unfold State.strike
  split
  · exact hm.taint.errStruck.ite hm
  · exact hm.taint.errStruck.ite hm
  · exact hm.strikeL1
  · split
    · exact hm.taint.errStruck
    · exact hm.taint.errStruck
    · exact hm
  · split
    · exact hm.upd.errStruck
    · exact hm
  · dsimp only
    split
    · exact hm
    · exact hm.ite hm.setCohort.errStruck
  · split
    · exact hm
    · exact hm.errStruck.endCohort
  · exact hm.onCore.countFixed
  · exact hm
  · exact hm.countFixed.ite hm.upd.linkRecord
  · exact hm

theorem State.Canonical.execUncorrectableError (hm : s.Canonical) : Out.Canonical (execUncorrectableError s) := by
  unfold Machine.execUncorrectableError
  dsimp only
  exact .ite hm.countFixed hm.strike

theorem State.Canonical.execScrubLine (hm : s.Canonical) : Out.Canonical (execScrubLine s) := by
  unfold Machine.execScrubLine
  dsimp only
  split
  · exact hm
  · split
    · exact hm.push
    · next heq => exact (hm.fsPass.get heq).countFixed

theorem State.Canonical.scanStat (hm : s.Canonical) {busy : Bool} {result core : Nat} : (s.scanStat busy result core).Canonical := hm.setHub

theorem State.Canonical.execScanApply (hm : s.Canonical) : Out.Canonical (execScanApply s) := by
  unfold Machine.execScanApply
  extract_lets +onlyGivenNames v core pa
  split
  · exact hm
  · extract_lets +onlyGivenNames s1
    have h1 : s1.Canonical := hm.setHub.scanStat.narrow
    split
    · exact h1.upd.push
    · extract_lets +onlyGivenNames src s2
      exact h1.upd.onCore.push

theorem State.Canonical.execScanTest (hm : s.Canonical) : Out.Canonical (execScanTest s) := by
  unfold Machine.execScanTest
  split
  · exact hm
  · split
    · exact hm.pushOnce
    · next heq =>
      extract_lets +onlyGivenNames t pass s1 n serial src s2
      have h0 : CanonicalIn id (if (linesOf s.scanLines).all s.readReady then s.fsLines 2 none s.scanLines else none) := .ite hm.fsLines .none
      have hs0 := h0.get heq
      have ht : t.Canonical := hs0.foldl fun _ _ ht => ht.lineRead
      have h1 : s1.Canonical := ht.draw.onCore
      clear_value s1
      have h2 : s2.Canonical := h1
      exact h2.push.pushOnce

theorem State.Canonical.storeSys (hm : s.Canonical) {pa v : Nat} : (s.storeSys pa v).Canonical := by
  unfold State.storeSys
  split
  · exact hm.writePeer
  · exact hm.poke.ite hm
  · exact hm.homeWrite
  · exact hm.homeWrite
  · dsimp only
    exact hm.hostTouch
  · exact hm

theorem State.Canonical.katConfirm (hm : s.Canonical) {c p l : Nat} : (s.katConfirm c p l).Canonical := by
  unfold State.katConfirm
  dsimp only
  exact hm.onCore.errRec.foldl fun _ _ ht => ht.turnGrey

theorem State.Canonical.execKatInject (hm : s.Canonical) : Out.Canonical (execKatInject s) := by
  unfold Machine.execKatInject
  dsimp only
  exact .ite hm (.ite (hm.onCore.onCore.foldl fun _ _ ht => ht.errRec) (hm.onCore.onCore.katConfirm.ite hm.onCore.onCore))

/-! LaneFp: floating-point and predicate instructions. -/

theorem State.Canonical.float2 (hm : s.Canonical) {o : OpA} {f : Nat → Nat → Nat → Nat} : Out.Canonical (float2 o f s) := hm.issueOwn

theorem State.Canonical.float1 (hm : s.Canonical) {o : OpU} {f : Nat → Nat → Nat} : Out.Canonical (float1 o f s) := hm.issueOwn

theorem State.Canonical.floatHalf (hm : s.Canonical) {r d : Nat} {f : Nat → Nat → Nat → Nat} : Out.Canonical (floatHalf r d f s) := hm.issueOwn

theorem State.Canonical.packedHalf (hm : s.Canonical) {o : OpA} {acc : Bool} {f : Num.Fmt → Nat → Word → Word → Word → Word} :
    Out.Canonical (packedHalf o acc f s) := by
  unfold Machine.packedHalf
  dsimp only
  exact hm.issueOwn

theorem State.Canonical.double2 (hm : s.Canonical) {o : OpA} {f : Nat → Nat → Nat → Nat} : Out.Canonical (double2 o f s) := hm.issueOwn

theorem State.Canonical.double1 (hm : s.Canonical) {o : OpU} {f : Nat → Nat → Nat} : Out.Canonical (double1 o f s) := hm.issueOwn

theorem State.Canonical.compare (hm : s.Canonical) {o : OpCmp} {u : Uses} {bad : Who → Bool} {f : Who → Nat → Bool} :
    Out.Canonical (compare o u bad f s) :=
  hm.issueOwn

theorem State.Canonical.pred2 (hm : s.Canonical) {o : OpP} {f : Mask → Mask → Mask} : Out.Canonical (pred2 o f s) := hm.issueOwn

/-! LaneConv: conversions, operations across lanes, and moves. -/

theorem State.Canonical.convertLanes (hm : s.Canonical) {o : OpCvt} {bad : Who → Bool} : Out.Canonical (convertLanes o bad s) :=
  hm.issue (fun _ _ _ => noHold_canonical) (fun _ _ ht => ht.onCohort)

theorem State.Canonical.sxsetHold (hm : s.Canonical) {o : OpA} {w : Who} : CanonicalIn id (sxsetHold o w s) := by
  unfold Machine.sxsetHold
  split
  · exact .ite (.some hm.stopAt) .none
  · exact .none

theorem State.Canonical.shuffle (hm : s.Canonical) {mode : Nat} {o : OpA} : Out.Canonical (shuffle mode o s) :=
  hm.issue (fun _ _ _ => noHold_canonical) (fun _ _ ht => ht.onCohort)

theorem State.Canonical.writeSpecial (hm : s.Canonical) {w : Who} {x : Nat} {v : DWord} : (s.writeSpecial w x v).Canonical := by
  unfold State.writeSpecial
  split
  · exact hm.onCohort
  · exact hm.onCohort
  · exact hm.onCohort
  · exact hm.onCohort
  · exact hm.setHandle

theorem State.Canonical.execMovs (hm : s.Canonical) {o : OpMovs} : Out.Canonical (execMovs o s) := by
  unfold Machine.execMovs
  refine hm.issue (fun _ _ _ => noHold_canonical) fun _ _ ht => ?_
  split
  · exact ht
  · exact ht.writeSpecial

/-! Fetch: fetching. -/

theorem State.Canonical.fetchHalf (hm : s.Canonical) {c asid gang va : Nat} : (s.fetchHalf c asid gang va).2.Canonical := by
  unfold State.fetchHalf
  split
  · next heq =>
      dsimp only
      split <;> exact (hm.findNow.ofSnd heq).lineRead.narrow
  · next heq => exact hm.findNow.ofSnd heq
  · next heq => exact hm.findNow.ofSnd heq

theorem State.Canonical.fetchAt (hm : s.Canonical) {c asid gang pc : Nat} : (s.fetchAt c asid gang pc).2.Canonical := by
  unfold State.fetchAt
  split
  · next heq =>
    have h1 := hm.fetchHalf.ofSnd heq
    split
    · exact h1
    · split
      · next heq1 => exact h1.fetchHalf.ofSnd heq1
      · exact h1.fetchHalf
  · exact hm.fetchHalf

/-! Sync: barriers, monitors, signals and channels. -/

theorem State.Canonical.waitAgain (hm : s.Canonical) {w : Who} {n : Nat} : (s.waitAgain w n).Canonical := hm.onCohort.waitIn

theorem State.Canonical.waitDone (hm : s.Canonical) {w : Who} : (s.waitDone w).Canonical := hm.onCohort.pushOnce

theorem State.Canonical.arriveBar (hm : s.Canonical) {w : Who} {n count : Nat} : (s.arriveBar w n count).Canonical := hm.onCohort.cohortArrives

theorem State.Canonical.execBarrierArrivalTaken (hm : s.Canonical) : Out.Canonical (execBarrierArrivalTaken s) := by
  unfold Machine.execBarrierArrivalTaken
  dsimp only
  split
  · exact hm
  · split
    · exact hm
    · exact .ite hm.pushOnce ((hm.setBlock.onCore.completeBarrier.ite hm.setBlock.onCore).ite
        (hm.setBlock.onCore.completeBarrier.ite hm.setBlock.onCore).pushOnce)

theorem State.Canonical.arriveGang (hm : s.Canonical) {w : Who} {n count : Nat} : (s.arriveGang w n count).Canonical := hm.onCohort.blockArrives

theorem State.Canonical.execGbarPhaseMessage (hm : s.Canonical) : Out.Canonical (execGbarPhaseMessage s) := by
  unfold Machine.execGbarPhaseMessage
  dsimp only
  split
  · exact hm
  · exact .ite hm.push hm.upd.releaseSide

theorem State.Canonical.mwaitAt (hm : s.Canonical) {w : Who} {o : OpMwait} {pa : Nat} : (s.mwaitAt w o pa).Canonical := by
  unfold State.mwaitAt
  extract_lets +onlyGivenNames n r v act
  have hr : r.2.Canonical := hm.homeRead
  exact hr.greyLanes.ite (hr.onCohort.acquireDev.ite (hr.onCohort.ite hr.upd.onCohort))

theorem State.Canonical.mwaitHold (hm : s.Canonical) {o : OpMwait} {w : Who} : CanonicalIn id (mwaitHold o w s) := by
  unfold Machine.mwaitHold
  split
  · exact .ite (.some hm) .none
  · exact .none

theorem State.Canonical.execMwait (hm : s.Canonical) {o : OpMwait} : Out.Canonical (execMwait o s) := by
  unfold Machine.execMwait
  refine hm.issue (fun _ _ ht => ht.mwaitHold) fun _ _ ht => ?_
  extract_lets +onlyGivenNames t1
  have ht1 : t1.Canonical := ht.findNow
  split
  · exact ht1.mwaitAt
  · exact ht1

theorem State.Canonical.wakeImage (hm : s.Canonical) {h : Cohort} {mon : Nat} : (s.wakeImage h mon).Canonical := hm.putImg

theorem State.Canonical.wakeAway (hm : s.Canonical) {c uid mon : Nat} : (s.wakeAway c uid mon).Canonical := by
  unfold State.wakeAway
  split
  · exact hm
  · exact hm.onCore.wakeImage.pushOnce

theorem State.Canonical.wakeSaved (hm : s.Canonical) {uid mon : Nat} : (s.wakeSaved uid mon).Canonical := by
  unfold State.wakeSaved
  split
  · exact hm
  · exact hm.upd.wakeImage

theorem State.Canonical.execMonitorWake (hm : s.Canonical) : Out.Canonical (execMonitorWake s) := by
  unfold Machine.execMonitorWake
  dsimp only
  split
  · split
    · exact hm
    · exact .ite hm.setCohort.acquireDev (.ite (.ite hm.setCohort hm.setCohort.acquireDev) hm)
  · split
    · exact hm.wakeAway
    · exact hm.wakeSaved

theorem State.Canonical.execSend (hm : s.Canonical) {o : OpSend} : Out.Canonical (execSend o s) := by
  unfold Machine.execSend
  refine hm.issue (fun _ _ ht => ?_) fun _ _ ht => ?_
  · split
    · exact .ite (.some ht.waitIn) .none
    · exact .none
  · split
    · exact ht
    · dsimp only
      exact ht.upd.sendTo

theorem State.Canonical.ackChannel (hm : s.Canonical) {x : Chan} : (s.ackChannel x).Canonical := hm.ite hm.sendTo

theorem State.Canonical.execChannelPacketReceive (hm : s.Canonical) : Out.Canonical (execChannelPacketReceive s) := by
  unfold Machine.execChannelPacketReceive
  dsimp only
  split
  · exact hm
  · exact hm.upd.onCore.ackChannel.checkBlock

theorem State.Canonical.execRecv (hm : s.Canonical) {o : OpRecv} : Out.Canonical (execRecv o s) := by
  unfold Machine.execRecv
  refine hm.issue (fun _ _ ht => ?_) fun _ _ ht => ?_
  · split
    · exact .ite (.some ht.waitIn) .none
    · exact .none
  · split
    · exact ht
    · dsimp only
      split
      · exact ht
      · exact ht.onCohort.acquireDev.upd.sendTo

theorem State.Canonical.execChannelCredit (hm : s.Canonical) : Out.Canonical (execChannelCredit s) := by
  unfold Machine.execChannelCredit
  dsimp only
  exact .ite hm hm.upd.onCore

theorem State.Canonical.execChq (hm : s.Canonical) {c d : Nat} : Out.Canonical (execChq c d s) := by
  unfold Machine.execChq
  refine hm.issue (fun _ _ _ => noHold_canonical) fun _ _ ht => ?_
  split
  · exact ht.onCohort
  · exact ht

theorem State.Canonical.execChannelStall (hm : s.Canonical) : Out.Canonical (execChannelStall s) := by
  unfold Machine.execChannelStall
  dsimp only
  split
  · exact hm
  · split
    · exact hm
    · split
      · exact hm
      · exact hm.trapWith

/-! Worklist: stage queues. -/

theorem State.Canonical.onStage (hm : s.Canonical) {l n : Nat} {f : StageSt → StageSt} : (s.onStage l n f).Canonical := hm

theorem State.Canonical.execWpush (hm : s.Canonical) {n a : Nat} : Out.Canonical (execWpush n a s) := by
  unfold Machine.execWpush
  refine hm.issue (fun _ _ ht => ?_) fun _ _ ht => ht.onStage.pushOnce
  split
  · exact .ite (.some ht.waitIn) .none
  · exact .none

theorem State.Canonical.retryPushes (hm : s.Canonical) {l n : Nat} : (s.retryPushes l n).Canonical := hm

theorem State.Canonical.status (hm : s.Canonical) {w : Who} {p : Nat} {b : Bool} : (s.status w p b).Canonical := hm.onCohort

theorem State.Canonical.execWpop (hm : s.Canonical) {p d : Nat} : Out.Canonical (execWpop p d s) := by
  unfold Machine.execWpop
  refine hm.issue (fun _ _ _ => noHold_canonical) fun _ _ ht => ?_
  extract_lets +onlyGivenNames t1
  have ht1 : t1.Canonical := ht.onCohort
  split
  · extract_lets +onlyGivenNames t2
    exact ht1.onStage.onCohort.status.acquireDev.retryPushes.pushOnce
  · exact ht1.onCohort.status.pushOnce

theorem State.Canonical.execQuies (hm : s.Canonical) {p : Nat} : Out.Canonical (execQuies p s) := by
  unfold Machine.execQuies
  refine hm.issue (fun _ _ _ => noHold_canonical) fun _ _ ht => ?_
  dsimp only
  exact ht.onCohort.detectQuiet.status.pushOnce

/-! Placement: placing, starting and ending blocks and launches. -/

theorem State.Canonical.placeBlock (hm : s.Canonical) {id : Nat} {l : Launch} {n task gid window k c : Nat} :
    CanonicalIn Prod.snd (s.placeBlock id l n task gid window k c) := by
  unfold State.placeBlock
  dsimp only
  split
  · exact .none
  · exact .ite .none (.some hm.upd.onCore.push)

theorem State.Canonical.placeGang (hm : s.Canonical) {id : Nat} {l : Launch} {n t0 c0 : Nat} : CanonicalIn Prod.snd (s.placeGang id l n t0 c0) := by
  unfold State.placeGang
  extract_lets +onlyGivenNames st gid d window src s1 z
  have hz : CanonicalIn Prod.snd z :=
    foldl_keeps (CanonicalIn Prod.snd) (.some hm.draw.upd) fun _ _ hy => .bind fun _ hx => .map fun _ hw => (hy.getSnd hx).placeBlock.getSnd hw
  exact .map fun _ hx => (hz.getSnd hx).upd

theorem State.Canonical.joinChan (hm : s.Canonical) {d : ChanDecl} {x y : Nat × Nat} : (s.joinChan d x y).Canonical := by
  unfold State.joinChan
  dsimp only
  exact hm.upd.onBlock.onBlock

theorem State.Canonical.joinChans (hm : s.Canonical) {l : Launch} {made : Tbl (List (Nat × Nat))} : (s.joinChans l made).Canonical := by
  unfold State.joinChans
  exact hm.foldl fun _ _ ht => by
    split
    · exact ht.foldl fun _ _ ht1 => ht1.joinChan
    · exact ht

theorem State.Canonical.placeGroup (hm : s.Canonical) {uid : Nat} {l : Launch} {ns : List Nat} : CanonicalIn id (s.placeGroup uid l ns) := by
  unfold State.placeGroup
  extract_lets +onlyGivenNames z
  have hz : CanonicalIn Prod.snd z := .bind fun _ _ =>
    foldl_keeps (CanonicalIn Prod.snd) (.some hm) fun _ _ hy => .bind fun _ hx => .map fun _ hw => (hy.getSnd hx).placeGang.getSnd hw
  exact .map fun _ hx => (hz.getSnd hx).joinChans

theorem State.Canonical.swapBlock (hm : s.Canonical) {c b : Nat} {auto : Bool} : (s.swapBlock c b auto).Canonical := by
  unfold State.swapBlock
  dsimp only
  exact hm.foldl fun _ _ ht => ht.onCohort.pushOnce

theorem State.Canonical.execPrioritySwapOut (hm : s.Canonical) : Out.Canonical (execPrioritySwapOut s) := by
  unfold Machine.execPrioritySwapOut
  split
  · exact hm
  · dsimp only
    exact hm.foldl fun _ _ ht => ht.swapBlock

theorem State.Canonical.discard (hm : s.Canonical) {id : Nat} : (s.discard id).Canonical := by
  unfold State.discard
  split
  · exact hm
  · exact hm.foldl fun _ _ ht => (ht.foldl fun _ _ ht1 => ht1.launchErr).upd.onStage.retryPushes.ite ht

theorem State.Canonical.checkLaunch (hm : s.Canonical) {id : Nat} : (s.checkLaunch id).Canonical := by
  unfold State.checkLaunch
  split
  · exact hm
  · exact hm.pushOnce.ite (hm.pushOnce.ite hm)

theorem State.Canonical.tryStages (hm : s.Canonical) {id : Nat} {l : Launch} {ns : List Nat} : Sched.Canonical (s.tryStages id l ns).1 := by
  induction ns with
  | nil => trivial
  | cons n ns ih =>
    unfold State.tryStages
    split
    · exact ih
    · split
      · next heq => exact hm.placeGroup.get heq
      · exact ih

theorem State.Canonical.pass (hm : s.Canonical) {ids : List Nat} {blocked : Bool} : Sched.Canonical (s.pass ids blocked).1 := by
  induction ids generalizing blocked with
  | nil => trivial
  | cons id ids ih =>
    unfold State.pass
    split
    · exact ih
    · split
      · trivial
      · have ht := hm.tryStages (id := id) (l := ‹Launch›) (ns := (List.range (Launch.stages ‹_›).length).reverse)
        split
        · next heq => rwa [heq] at ht
        · exact ih

theorem State.Canonical.passLevels (hm : s.Canonical) {ls : List Nat} {blocked : Bool} : Sched.Canonical (s.passLevels ls blocked).1 := by
  induction ls generalizing blocked with
  | nil => trivial
  | cons v ls ih =>
    unfold State.passLevels
    split
    · trivial
    · split
      · exact ih
      · exact hm.pass

theorem State.Canonical.execSchedule (hm : s.Canonical) : Out.Canonical (execSchedule s) := by
  unfold Machine.execSchedule
  extract_lets +onlyGivenNames s0 s1
  have h0 : s0.Canonical := hm.foldl fun _ _ ht => ht.discard.checkLaunch
  have h1 : s1.Canonical := h0.pushOnce.ite h0
  have hp := h1.passLevels (ls := [3, 2, 1, 0]) (blocked := false)
  split
  · next heq => rw [heq] at hp; exact State.Canonical.pushOnce hp
  · exact (h1.foldl fun _ _ ht => ht.pushOnce).pushOnce
  · exact h1.foldl fun _ _ ht => ht.pushOnce

theorem State.Canonical.clearStore (hm : s.Canonical) {a n : Nat} : (s.clearStore a n).Canonical := hm.ite (Mem.clear_wf _ _ hm.upd)

theorem State.Canonical.execBlockStart (hm : s.Canonical) : Out.Canonical (execBlockStart s) := by
  unfold Machine.execBlockStart
  dsimp only
  split
  · exact hm
  · exact .ite hm (hm.clearStore.clearStore.upd.setBlock.onCore.foldl fun _ _ ht => ht.notify).checkBlock

theorem State.Canonical.freeBlock (hm : s.Canonical) {c b : Nat} {x : Block} : (s.freeBlock c b x).Canonical := by
  unfold State.freeBlock
  extract_lets +onlyGivenNames s1 s2 gone s3 held
  have h2 : s2.Canonical := (hm.foldl fun _ _ ht => ht.releaseHandle).onCore
  exact h2.upd.ite h2

theorem State.Canonical.countBlock (hm : s.Canonical) {id stage : Nat} : (s.countBlock id stage).Canonical := by
  unfold State.countBlock
  extract_lets +onlyGivenNames s1 s2
  have h1 : s1.Canonical := hm.onStage.discard
  have h2 : s2.Canonical := by
    unfold s2
    split
    · exact h1
    · exact h1.ite (h1.upd.ite h1.hubSub)
  exact h2.checkLaunch.pushOnce

theorem State.Canonical.execBlockEnd (hm : s.Canonical) : Out.Canonical (execBlockEnd s) := by
  unfold Machine.execBlockEnd
  extract_lets +onlyGivenNames c b
  split
  · exact hm.countBlock
  · split
    · exact hm
    · split
      · exact hm
      · extract_lets +onlyGivenNames s1 d s2
        have h1 : s1.Canonical := hm.freeBlock
        have h2 : s2.Canonical := by
          unfold s2
          split
          · exact h1.upd.pushOnce
          · exact h1.countBlock
        exact h2.pushOnce.ite h2

theorem State.Canonical.closeLaunch (hm : s.Canonical) {id : Nat} {l : Launch} {row : Instr} {state : Nat} {finish : State → State}
    (hfinish : ∀ t, t.Canonical → (finish t).Canonical) : (s.closeLaunch id l row state finish).Canonical := by
  unfold State.closeLaunch
  extract_lets +onlyGivenNames src s1
  have hsrc : src.Canonical := hm.ite hm.hubWrite
  have h1 : s1.Canonical := hm.ite hsrc.upd
  exact h1.push.ite (hfinish _ h1.upd).pokeLaunch.pushOnce

theorem State.Canonical.execLaunchComplete (hm : s.Canonical) : Out.Canonical (execLaunchComplete s) := by
  unfold Machine.execLaunchComplete
  dsimp only
  split
  · exact hm
  · exact .ite hm (hm.closeLaunch (fun _ ht => ht.writeWord.ite (ht.hubSub.ite ht)))

theorem State.Canonical.execLaunchKillComplete (hm : s.Canonical) : Out.Canonical (execLaunchKillComplete s) := by
  unfold Machine.execLaunchKillComplete
  dsimp only
  split
  · exact hm
  · exact .ite (hm.closeLaunch (fun _ ht => ht.wakeCdest)) hm

/-! Save: what eviction and checkpoints write and read back. -/

theorem State.Canonical.loadPart (hm : s.Canonical) {a n : Nat} {p : SavedPart} : (s.loadPart a n p).Canonical :=
  Mem.foldl_wf _ (fun _ _ hw => Mem.wr_wf _ _ hw) _ _ hm.clearStore

theorem Mem.setBits_wf {m : Mem} {a : Nat} {l : List Nat} (h : m.wf = true) : (Mem.setBits m a l).wf = true :=
  Mem.foldl_wf _ (fun _ _ hw => Mem.wr_wf _ _ hw) _ _ h

theorem State.Canonical.putPart (hm : s.Canonical) {a n : Nat} {p : SavedPart} : (s.putPart a n p).Canonical :=
  Mem.setBits_wf (Mem.setBits_wf (Mem.foldl_wf _ (fun _ _ hw => Mem.wr_wf _ _ hw) _ _ (Mem.clear_wf _ _ hm)))

theorem State.Canonical.putParts (hm : s.Canonical) {a : Nat} {l : List (Nat × Nat)} : (s.putParts a l).2.Canonical :=
  foldlSnd hm fun _ _ ht => ht.putPart

theorem State.Canonical.getParts (hm : s.Canonical) {a : Nat} {l : List (Nat × Nat)} : (s.getParts a l).Canonical :=
  foldlSnd hm fun _ _ ht => ht.loadPart

theorem State.Canonical.putWords (hm : s.Canonical) {a : Nat} {l : List Nat} : (s.putWords a l).Canonical := hm.poke

theorem State.Canonical.saveBlock (hm : s.Canonical) {c b a : Nat} {x : Block} : (s.saveBlock c b a x).2.Canonical := by
  unfold State.saveBlock
  dsimp only
  exact hm.putParts.putWords

theorem State.Canonical.saveBlocks (hm : s.Canonical) {a : Nat} {l : List ((Nat × Nat) × Block)} : (s.saveBlocks a l).2.2.Canonical :=
  foldlSndSnd hm fun _ _ hy => by
    dsimp only
    exact hy.saveBlock

theorem State.Canonical.putCounts (hm : s.Canonical) {a : Nat} {t' : Tbl Chan} : (s.putCounts a t').Canonical := hm.putWords

/-! SystemOps: traps, control registers, launches and kills. -/

theorem State.Canonical.execTret (hm : s.Canonical) : Out.Canonical (execTret s) := by
  unfold Machine.execTret
  refine hm.issue (fun _ _ _ => noHold_canonical) fun _ _ ht => ?_
  split
  · exact ht
  · exact ht.setCohort.ite ht.leaveTrap

theorem State.Canonical.badWord (hm : s.Canonical) {word len : Nat} {b : Bad} : (s.badWord word len b).Canonical := by
  unfold State.badWord
  split
  · exact hm
  · exact hm.ite (hm.pushOnce.ite hm.stopAt)

theorem State.Canonical.dropTlb (hm : s.Canonical) {asid : Nat} {f : TlbEntry → Bool} : (s.dropTlb asid f).Canonical := hm

theorem State.Canonical.ctlbi (hm : s.Canonical) {w : Who} {va : Nat} : (s.ctlbi w va).Canonical := by
  unfold State.ctlbi
  extract_lets +onlyGivenNames s1
  have h1 : s1.Canonical := hm.dropTlb
  exact h1.ite h1.upd.waitIn

theorem State.Canonical.reloadBound (hm : s.Canonical) {w : Who} {n : Nat} : (s.reloadBound w n).Canonical := by
  unfold State.reloadBound
  split
  · exact hm
  · exact hm.ite hm.loadBound

theorem State.Canonical.writeBound (hm : s.Canonical) {asid n k : Nat} {v : DWord} : (s.writeBound asid n k v).Canonical := hm.setBound

theorem State.Canonical.csrWrite (hm : s.Canonical) {w : Who} {n : Nat} {v : DWord} : (s.csrWrite w n v).Canonical :=
  hm.onCohort.ite (hm.ctlbi.ite (hm.reloadBound.ite hm.writeBound))

theorem State.Canonical.execTlbinvComplete (hm : s.Canonical) : Out.Canonical (execTlbinvComplete s) := by
  unfold Machine.execTlbinvComplete
  dsimp only
  split
  · exact hm
  · exact .ite hm (hm.upd.setHub.ite (hm.upd.foldl fun _ _ ht => ht.pushOnce))

theorem State.Canonical.execSpawn (hm : s.Canonical) {a : Nat} : Out.Canonical (execSpawn a s) := by
  unfold Machine.execSpawn
  refine hm.issue (fun _ _ _ => noHold_canonical) fun _ _ ht => ?_
  dsimp only
  exact ht.findNow.snapRecord.submit.waitIn

theorem State.Canonical.killAway (hm : s.Canonical) {c : Nat} {h : Cohort} : (s.killAway c h).Canonical :=
  hm.lateErrs.dropHeldWrites

theorem State.Canonical.reachChains (hm : s.Canonical) {c b : Nat} : (s.reachChains c b).Canonical :=
  hm.foldl fun _ _ ht => ht.foldl fun _ _ ht1 => ht1.pushOnce

theorem State.Canonical.killBlock (hm : s.Canonical) {c b : Nat} : (s.killBlock c b).Canonical := by
  unfold State.killBlock
  dsimp only
  exact ((hm.onBlock.foldl fun _ _ ht => ht.endCohort).foldl fun _ _ ht => ht.killAway).onBlock.releaseOrphans.reachChains.checkBlock

theorem State.Canonical.killLaunch (hm : s.Canonical) {id : Nat} : (s.killLaunch id).Canonical := by
  unfold State.killLaunch
  extract_lets +onlyGivenNames s1 bs s2 lost gone uids s3
  have h2 : s2.Canonical := hm.upd.foldl fun _ _ ht => ht.killBlock
  have h3 : s3.Canonical := h2.foldl fun _ _ ht => ht.onStage
  exact h3.upd.checkLaunch.pushOnce

theorem State.Canonical.execKill (hm : s.Canonical) {a : Nat} : Out.Canonical (execKill a s) := by
  unfold Machine.execKill
  refine hm.issue (fun _ _ _ => noHold_canonical) fun _ _ ht => ?_
  dsimp only
  exact ht.foldl fun _ _ ht1 => ht1.killLaunch

/-! Context: contexts, eviction and return. -/

theorem State.Canonical.flushLines (hm : s.Canonical) {h : Cohort} : (s.flushLines h).Canonical := hm.foldl fun _ _ ht => ht.imageLine

theorem State.Canonical.giveLines (hm : s.Canonical) {h : Cohort} : (s.giveLines h).1.Canonical := by
  unfold State.giveLines
  exact foldlFst hm fun _ _ ht => by
    split
    · exact ht
    · exact (ht.saveLine.ite ht).dropLine

theorem State.Canonical.saveRest (hm : s.Canonical) {h : Cohort} : (s.saveRest h).Canonical := by
  unfold State.saveRest
  dsimp only
  exact hm.putImg.putImg

theorem State.Canonical.saveHandler (hm : s.Canonical) {h : Cohort} : (s.saveHandler h).Canonical := by
  unfold State.saveHandler
  dsimp only
  exact hm.settle.putQs.putPreds.putImg

theorem State.Canonical.execCohortSwapOut (hm : s.Canonical) : Out.Canonical (execCohortSwapOut s) := by
  unfold Machine.execCohortSwapOut
  extract_lets +onlyGivenNames c k
  split
  · exact hm
  · split
    · exact hm
    · split
      · extract_lets +onlyGivenNames s1 s2
        have h1 : s1.Canonical := hm.ite hm.pushOnce
        exact (h1.pushOnce.ite h1).foldl fun _ _ ht => ht.pushOnce.pushOnce.ite ht
      · extract_lets +onlyGivenNames cause s1
        have h1 : s1.Canonical := hm.saveHandler.ite hm.saveTrap
        split
        · exact h1
        · extract_lets +onlyGivenNames h2 s2 s3
          exact (h1.ite h1.putQs).saveRest.onCore.pushOnce.pushOnce

theorem State.Canonical.applyWake (hm : s.Canonical) {c k : Nat} : (s.applyWake c k).Canonical := by
  unfold State.applyWake
  split
  · exact hm
  · exact hm.ite ((hm.setCohort.acquireDev.ite hm).ite (hm.setCohort.ite hm.setCohort.acquireDev))

theorem State.Canonical.resumeOrTrap (hm : s.Canonical) {c k : Nat} : (s.resumeOrTrap c k).Canonical := by
  unfold State.resumeOrTrap
  split
  · exact hm
  · exact hm.ite ((hm.endCohort.ite hm.setCohort).ite hm.reinjectAll.resumeChain)

theorem State.Canonical.execCohortRestore (hm : s.Canonical) : Out.Canonical (execCohortRestore s) := by
  unfold Machine.execCohortRestore
  dsimp only
  split
  · exact hm
  · split
    · exact hm.settle.setCore.applyWake.resumeOrTrap.notify.pushOnce
    · exact hm

theorem State.Canonical.takeCmd (hm : s.Canonical) {cmd page asid : Nat} {f : State → State} (hf : ∀ t, t.Canonical → (f t).Canonical) :
    (s.takeCmd cmd page asid f).Canonical :=
  hm.ite (hf _ hm.setHub.setHub).pushOnce

theorem State.Canonical.onAway (hm : s.Canonical) {asid : Nat} {f : Cohort → Cohort} : (s.onAway asid f).Canonical := hm

theorem State.Canonical.execCtxSwapOut (hm : s.Canonical) : Out.Canonical (execCtxSwapOut s) := by
  unfold Machine.execCtxSwapOut
  dsimp only
  exact hm.takeCmd (fun _ ht => ht.onAway.foldl fun _ _ ht1 => ht1.onCohort.pushOnce)

theorem State.Canonical.recall (hm : s.Canonical) {asid : Nat} {p : Cohort → Bool} : (s.recall asid p).Canonical := by
  unfold State.recall
  dsimp only
  exact hm.onAway.foldl fun _ _ ht => ht.pushOnce

theorem State.Canonical.execCtxFlushLines (hm : s.Canonical) : Out.Canonical (execCtxFlushLines s) := by
  unfold Machine.execCtxFlushLines
  dsimp only
  exact hm.takeCmd fun _ ht => ht.foldl fun _ _ ht1 => ht1.flushLines

theorem State.Canonical.evictGroup (hm : s.Canonical) {asid page a : Nat} {mine : List ((Nat × Nat) × Block)} :
    (s.evictGroup asid page a mine).Canonical := by
  unfold State.evictGroup
  dsimp only
  exact (hm.saveBlocks.putCounts.foldl fun _ _ ht => ht.freeBlock.onCore).upd.pushOnce

theorem State.Canonical.evictAll (hm : s.Canonical) {asid page a n : Nat} : (s.evictAll asid page a n).Canonical := by
  induction n generalizing s a with
  | zero => exact hm
  | succ n ih =>
    unfold State.evictAll
    split
    · exact hm
    · exact ih hm.evictGroup

theorem State.Canonical.execCtxEvictGroups (hm : s.Canonical) : Out.Canonical (execCtxEvictGroups s) := by
  unfold Machine.execCtxEvictGroups
  dsimp only
  exact hm.takeCmd fun _ ht => ht.evictAll.ite ht.setHub

theorem State.Canonical.moveCohorts (hm : s.Canonical) {c : Nat} {b : SavedBlock} : (s.moveCohorts c b).2.Canonical := by
  unfold State.moveCohorts
  split
  · exact hm
  · exact foldlSnd hm.onCore fun _ _ ht => by
      dsimp only
      exact ht.giveLines

theorem State.Canonical.returnBlock (hm : s.Canonical) {c gid : Nat} {b : SavedBlock} : CanonicalIn Prod.snd (s.returnBlock c gid b) := by
  unfold State.returnBlock
  dsimp only
  split
  · exact .some hm.moveCohorts.onCore.getParts
  · exact .none

theorem State.Canonical.returnGang (hm : s.Canonical) {g : SavedGroup} {gid : Nat} : CanonicalIn id (s.returnGang g gid) := by
  unfold State.returnGang
  extract_lets +onlyGivenNames bs runs go was
  have hgo : ∀ c, CanonicalIn Prod.snd (go c) := fun c =>
    foldl_keeps (CanonicalIn Prod.snd) (.some hm) fun _ _ hy => .bind fun _ hx => .map fun _ hw => (hy.getSnd hx).returnBlock.getSnd hw
  refine .map fun y hy => ?_
  obtain ⟨c, -, hc⟩ := List.exists_of_findSome?_eq_some hy
  exact ((hgo c).getSnd hc).upd

theorem State.Canonical.returnGroup (hm : s.Canonical) {g : SavedGroup} : CanonicalIn id (s.returnGroup g) := by
  unfold State.returnGroup
  extract_lets +onlyGivenNames z
  have hz : CanonicalIn id z := foldl_keeps (CanonicalIn id) (.some hm) fun _ _ hy => .bind fun _ hx => (hy.get hx).returnGang
  exact .map fun _ hx => (hz.get hx).upd

theorem State.Canonical.returnGroups (hm : s.Canonical) {asid page : Nat} : (s.returnGroups asid page).Canonical :=
  hm.foldl fun _ _ ht => (CanonicalIn.map fun _ hx => (ht.returnGroup.get hx).recall).getD ht

theorem State.Canonical.execCtxcmdComplete (hm : s.Canonical) : Out.Canonical (execCtxcmdComplete s) := by
  unfold Machine.execCtxcmdComplete
  extract_lets +onlyGivenNames v asid page cmd
  split
  · exact hm
  · extract_lets +onlyGivenNames s1 leaving waiting saved busy
    have h1 : s1.Canonical := hm.returnGroups.ite hm
    exact .ite h1 h1.setHub

theorem State.Canonical.execCtxTableWrite (hm : s.Canonical) : Out.Canonical (execCtxTableWrite s) := by
  unfold Machine.execCtxTableWrite
  extract_lets +onlyGivenNames asid off a live m old new s1
  have h1 : s1.Canonical := hm.setHub
  exact h1.upd.ite h1

theorem State.Canonical.tlbinv (hm : s.Canonical) {v : DWord} {asid : Nat} {f : TlbEntry → Bool} : (s.tlbinv v asid f).Canonical :=
  hm.ite hm.upd.pushOnce

/-! Stacks: checkpoints and warm reset. -/

theorem State.Canonical.execWbctxWrite (hm : s.Canonical) : Out.Canonical (execWbctxWrite s) := by
  unfold Machine.execWbctxWrite
  dsimp only
  exact .ite hm hm.setHub

theorem State.Canonical.freeze (hm : s.Canonical) {st : Nat} : (s.freeze st).Canonical := by
  unfold State.freeze
  exact hm.foldl fun _ _ ht => by
    dsimp only
    exact ht.onCore.swapBlock

theorem State.Canonical.thaw (hm : s.Canonical) {st : Nat} : (s.thaw st).Canonical := by
  unfold State.thaw
  dsimp only
  exact hm.upd.foldl fun _ _ ht => ht.pushOnce

theorem State.Canonical.finishCheckpoint (hm : s.Canonical) {st : Nat} : (s.finishCheckpoint st).Canonical :=
  hm.push.ite hm.onStackSt.releasePackets.pushOnce

theorem State.Canonical.endCheckpoint (hm : s.Canonical) {st : Nat} {complete : Bool} {f : StackSt → StackSt} :
    (s.endCheckpoint st complete f).Canonical := by
  unfold State.endCheckpoint
  dsimp only
  exact hm.upd.thaw.pushAll.finishCheckpoint

theorem State.Canonical.failCheckpoint (hm : s.Canonical) {st code : Nat} : (s.failCheckpoint st code).Canonical := hm.endCheckpoint

theorem State.Canonical.beginCheckpoint (hm : s.Canonical) {st : Nat} {forced : Bool} : (s.beginCheckpoint st forced).Canonical := by
  unfold State.beginCheckpoint
  extract_lets +onlyGivenNames s1
  have h1 : s1.Canonical := hm.onStackSt
  exact h1.failCheckpoint.ite (h1.failCheckpoint.ite h1.onStackSt.freeze.pushOnce)

theorem State.Canonical.execStkEnterCheckpoint (hm : s.Canonical) : Out.Canonical (execStkEnterCheckpoint s) := by
  unfold Machine.execStkEnterCheckpoint
  dsimp only
  exact .ite hm hm.onStackSt.beginCheckpoint

theorem State.Canonical.execStkLeaveCheckpoint (hm : s.Canonical) : Out.Canonical (execStkLeaveCheckpoint s) := by
  unfold Machine.execStkLeaveCheckpoint
  dsimp only
  exact .ite hm hm.onStackSt.pushAll.releasePackets

theorem State.Canonical.takeSnapshot (hm : s.Canonical) {st : Nat} : (s.takeSnapshot st).2.Canonical := by
  unfold State.takeSnapshot
  dsimp only
  exact foldlSndSnd hm.saveBlocks.putCounts fun _ _ hy => hy.settle.putPart

theorem State.Canonical.execCheckpointQuiet (hm : s.Canonical) : Out.Canonical (execCheckpointQuiet s) := by
  unfold Machine.execCheckpointQuiet
  dsimp only
  split
  · exact .ite hm (hm.foldl fun _ _ ht => ht.flushLines).onStackSt.pushOnce
  · exact .ite hm hm.takeSnapshot.endCheckpoint
  · exact hm.finishCheckpoint
  · exact hm

theorem State.Canonical.execCheckpointTimeout (hm : s.Canonical) : Out.Canonical (execCheckpointTimeout s) := by
  unfold Machine.execCheckpointTimeout
  dsimp only
  exact .ite hm.failCheckpoint hm

theorem State.Canonical.execMsgLogOverflow (hm : s.Canonical) : Out.Canonical (execMsgLogOverflow s) := by
  unfold Machine.execMsgLogOverflow
  dsimp only
  exact .ite hm.beginCheckpoint hm

theorem State.Canonical.removeGroups (hm : s.Canonical) {bs : List ((Nat × Nat) × Block)} : (s.removeGroups bs).Canonical := by
  unfold State.removeGroups
  dsimp only
  exact hm.foldl fun _ _ ht => ht.onCore

theorem State.Canonical.wipe (hm : s.Canonical) {st : Nat} : (s.wipe st).Canonical := by
  unfold State.wipe
  dsimp only
  exact Mem.clear_wf _ _ hm.onStackSt.upd

theorem State.Canonical.reloadBlock (hm : s.Canonical) {e : SavedBlock} : (s.reloadBlock e).Canonical := by
  unfold State.reloadBlock
  dsimp only
  exact hm.onCore.getParts

theorem State.Canonical.resumeGroups (hm : s.Canonical) {st : Nat} {k : Checkpoint} : (s.resumeGroups st k).Canonical := by
  unfold State.resumeGroups
  extract_lets +onlyGivenNames s1 s2 s3
  have h1 : s1.Canonical := hm.foldl fun _ _ ht => State.Canonical.foldl ht.upd fun _ _ hu => hu.push
  have h2 : s2.Canonical := h1.foldl fun _ _ ht => State.Canonical.foldl ht.upd fun _ _ hu => hu.push.ite hu
  have h3 : s3.Canonical := h2.foldl fun _ _ ht => ht.upd.fire
  exact h3.foldl fun _ _ ht => ht.pushOnce

theorem State.Canonical.replayAccess (hm : s.Canonical) {a : Access} : (s.replayAccess a).Canonical := by
  unfold State.replayAccess
  split
  · exact hm.windowWrite
  · extract_lets +onlyGivenNames s1 s2
    have h1 : s1.Canonical := by
      unfold s1
      split
      · exact hm
      · exact hm.serve
    have h2 : s2.Canonical := h1.upd.ite h1
    exact h2.fillGranules.ite h2

theorem State.Canonical.replayItem (hm : s.Canonical) {x : LogItem} : (s.replayItem x).Canonical := by
  unfold State.replayItem
  split
  · exact hm.replayAccess
  · exact hm.upd.pushAll
  · exact hm.peerReceive.upd.ite hm

theorem State.Canonical.reissue (hm : s.Canonical) {st : Nat} : (s.reissue st).Canonical := by
  unfold State.reissue
  extract_lets +onlyGivenNames toMe coming
  exact hm.foldl fun _ _ ht => by
    extract_lets +onlyGivenNames a
    split
    · extract_lets +onlyGivenNames t1
      have ht1 : t1.Canonical := by
        unfold t1
        split
        · exact ht
        · exact ht.onCohort
      exact ht1.upd.pushOnce
    · exact ht.pushOnce.ite (ht.push.ite ht.pushOnce)

theorem State.Canonical.redoGang (hm : s.Canonical) {launch stage first : Nat} : (s.redoGang launch stage first).Canonical := by
  unfold State.redoGang
  split
  · exact hm
  · exact hm.countBlock.ite hm.onStage.pushOnce

theorem State.Canonical.restoreStack (hm : s.Canonical) {st : Nat} : (s.restoreStack st).Canonical := by
  unfold State.restoreStack
  extract_lets +onlyGivenNames x k back lost s1 s2 s3
  have h2 : s2.Canonical := hm.onStackSt.foldl fun _ _ ht => ht.redoGang
  have h3 : s3.Canonical := (h2.foldl fun _ _ ht => ht.reloadBlock).foldl fun _ _ ht => ht.settle.loadPart
  exact (h3.resumeGroups.foldl fun _ _ ht => ht.replayItem).releasePackets.reissue

theorem State.Canonical.emptyStack (hm : s.Canonical) {st : Nat} : (s.emptyStack st).Canonical := by
  unfold State.emptyStack
  dsimp only
  exact hm.onStackSt.releasePackets.reissue.pushOnce

theorem State.Canonical.stackRamp (hm : s.Canonical) {st : Nat} : (s.stackRamp st).Canonical := by
  unfold State.stackRamp
  dsimp only
  exact hm.ite (hm.onStackSt.push.ite (hm.restoreStack.ite hm.emptyStack))

theorem State.Canonical.resetRestore (hm : s.Canonical) {st : Nat} : (s.resetRestore st).Canonical := by
  unfold State.resetRestore
  dsimp only
  exact hm.removeGroups.wipe.onStackSt.push

theorem State.Canonical.resetEmpty (hm : s.Canonical) {st result : Nat} : (s.resetEmpty st result).Canonical := by
  unfold State.resetEmpty
  dsimp only
  exact (((hm.foldl fun _ _ ht => ht.killLaunch).foldl fun _ _ ht => ht.freeBlock).wipe.onStackSt.foldl fun _ _ ht => ht.countBlock).pushAll.push

theorem State.Canonical.execStkWarmResetRestore (hm : s.Canonical) : Out.Canonical (execStkWarmResetRestore s) := by
  unfold Machine.execStkWarmResetRestore
  dsimp only
  split
  · exact hm
  · split
    · exact hm.resetRestore
    · exact hm.resetEmpty

/-! Clock: timers and periods. -/

theorem State.Canonical.pushDue (hm : s.Canonical) {d : Due} : (s.pushDue d).Canonical := hm.pushOnce

theorem State.Canonical.tickCore (hm : s.Canonical) {c : Nat} : (s.tickCore c).Canonical := by
  unfold State.tickCore
  extract_lets +onlyGivenNames s1 co due s2 s3
  have h2 : s2.Canonical := hm.onCore.foldl fun _ _ ht => ht.pushDue
  have h3 : s3.Canonical := h2.push.ite h2
  exact h3.push.ite h3

theorem State.Canonical.quadCycle (hm : s.Canonical) {c p : Nat} : (s.quadCycle c p).Canonical := by
  unfold State.quadCycle
  dsimp only
  exact hm.pushOnce.ite hm.onCore

theorem State.Canonical.timePeers (hm : s.Canonical) : s.timePeers.Canonical := hm

theorem State.Canonical.tickHub (hm : s.Canonical) : (s.tickHub).Canonical := by
  unfold State.tickHub
  extract_lets +onlyGivenNames src s0 s1 s2
  have h1 : s1.Canonical := (hm.upd.foldl fun _ _ ht => ht.linkSend).timePeers
  have h2 : s2.Canonical := h1.payOwed.hostDrain.foldl fun _ _ ht => ht.pushDue
  exact (h2.foldl fun _ _ ht => ht.pushDue).ite h2

/-! Flow: branches, splits and joins, and exits. -/

theorem State.Canonical.jumpTo (hm : s.Canonical) {n : Nat} : Out.Canonical (jumpTo n s) :=
  hm.issue (fun _ _ _ => noHold_canonical) (fun _ _ ht => ht.onCohort)

theorem State.Canonical.joinArrive (hm : s.Canonical) {c k i : Nat} : (s.joinArrive c k i).Canonical := by
  unfold State.joinArrive
  split
  · exact hm
  · split
    · exact hm
    · exact hm.ite (hm.setCohort.ite hm.setCohort)

theorem State.Canonical.execRwaitTimeout (hm : s.Canonical) : Out.Canonical (execRwaitTimeout s) := by
  unfold Machine.execRwaitTimeout
  dsimp only
  split
  · exact hm
  · exact .ite (.ite (hm.foldl fun _ _ ht => ht.joinArrive) hm.setCohort) hm

theorem State.Canonical.softTrap (hm : s.Canonical) {w : Who} {code imm : Nat} : (s.softTrap w code imm).Canonical := hm.trapWith

theorem State.Canonical.execYieldExpire (hm : s.Canonical) : Out.Canonical (execYieldExpire s) := by
  unfold Machine.execYieldExpire
  dsimp only
  split
  · exact hm
  · exact .ite hm hm.setCohort

/-! LaneInt: integer lane instructions. -/

theorem State.Canonical.lane2 (hm : s.Canonical) {o : OpA} {f : Word → Word → Word} : Out.Canonical (lane2 o f s) := hm.issueOwn

theorem State.Canonical.lane3 (hm : s.Canonical) {o : OpA} {f : Word → Word → Word → Word} : Out.Canonical (lane3 o f s) := hm.issueOwn

theorem State.Canonical.lane1 (hm : s.Canonical) {o : OpU} {f : Word → Word} : Out.Canonical (lane1 o f s) := hm.issueOwn

theorem State.Canonical.half2 (hm : s.Canonical) {r d : Nat} {f : Word → Word → Word} : Out.Canonical (half2 r d f s) := hm.issueOwn

theorem State.Canonical.half1 (hm : s.Canonical) {d : Nat} {f : Word → Word} : Out.Canonical (half1 d f s) := hm.issueOwn

theorem State.Canonical.laneImm (hm : s.Canonical) {d a g : Nat} {f : Word → Word} : Out.Canonical (laneImm d a g f s) := hm.issueOwn

/-! Boot: power-good, boot and the loss of power. -/

theorem State.Canonical.onBoot (hm : s.Canonical) {f : Boot → Boot} : (s.onBoot f).Canonical := hm

theorem State.Canonical.bootStat (hm : s.Canonical) {stage failure : Nat} : (s.bootStat stage failure).Canonical := hm.setHub

theorem State.Canonical.bootStage (hm : s.Canonical) {stage : Nat} : (s.bootStage stage).Canonical := hm.onBoot.bootStat

theorem State.Canonical.bootFails (hm : s.Canonical) {failure : Nat} : (s.bootFails failure).Canonical := hm.onBoot.bootStat

theorem State.Canonical.measure (hm : s.Canonical) {i v : Nat} : (s.measure i v).Canonical := hm.onBoot

theorem State.Canonical.rampUp (hm : s.Canonical) {x : Nat} : (s.rampUp x).Canonical := hm.upd.ite (hm.setHub.ite (hm.upd.ite hm))

theorem State.Canonical.execKilnRampStep (hm : s.Canonical) : Out.Canonical (execKilnRampStep s) := by
  unfold Machine.execKilnRampStep
  dsimp only
  split
  · exact hm.stackRamp
  · split
    · exact hm
    · split
      · exact hm
      · exact hm.rampUp.onBoot.pushOnce

theorem State.Canonical.useMap (hm : s.Canonical) {copy : Nat} : (s.useMap copy).Canonical := by
  unfold State.useMap
  dsimp only
  exact ((hm.foldl fun _ _ ht => ht.setHub).foldl fun _ _ ht => ht.setHub).setHub.onBoot

theorem State.Canonical.execBootLoader (hm : s.Canonical) : Out.Canonical (execBootLoader s) := by
  unfold Machine.execBootLoader
  split
  · exact hm
  · split
    · exact hm.bootFails
    · exact hm.bootStage.measure.push

theorem State.Canonical.execBootOs (hm : s.Canonical) : Out.Canonical (execBootOs s) := by
  unfold Machine.execBootOs
  split
  · exact hm
  · split
    · exact hm.push
    · split
      · exact hm.bootFails
      · extract_lets +onlyGivenNames s1
        have h1 : s1.Canonical := hm.useMap
        split
        · exact h1.bootFails
        · exact h1.bootStage.measure.pushOnce.push

theorem State.Canonical.startFirmware (hm : s.Canonical) : s.startFirmware.Canonical := by
  unfold State.startFirmware
  split
  · exact hm.bootFails
  · dsimp only
    exact hm.bootStage.measure.measure.measure.push

theorem State.Canonical.finishBoot (hm : s.Canonical) : s.finishBoot.Canonical := by
  unfold State.finishBoot
  dsimp only
  exact hm.upd.foldl fun _ _ ht => ht.upd.setHub

theorem State.Canonical.execRtSignBindingMap (hm : s.Canonical) : Out.Canonical (execRtSignBindingMap s) := by
  unfold Machine.execRtSignBindingMap
  dsimp only
  exact hm.upd.setHub

theorem execPowerLoss_canonical : Out.Canonical (execPowerLoss s) :=
  Mem.reset_wf

/-! Tile: handles and tile transfers. -/

theorem State.Canonical.tileHold (hm : s.Canonical) {w : Who} {reads changed : List Nat} : CanonicalIn id (s.tileHold w reads changed) := by
  unfold State.tileHold
  split
  · exact .some hm.waitIn
  · exact .some hm.waitIn
  · exact .none

theorem State.Canonical.freeTile (hm : s.Canonical) {c b n : Nat} : (s.freeTile c b n).Canonical := hm.onCore

theorem State.Canonical.setFull (hm : s.Canonical) {c : Nat} {h : Handle} {on : Bool} : (s.setFull c h on).Canonical := by
  unfold State.setFull
  dsimp only
  exact hm.fillGranules.ite hm.upd

theorem State.Canonical.waitFrames (hm : s.Canonical) {w : Who} {n k : Nat} : (s.waitFrames w n k).Canonical := hm.waitIn.onCore.pushOnce

theorem State.Canonical.frameHold (hm : s.Canonical) {w : Who} {n k : Nat} : CanonicalIn id (s.frameHold w n k) :=
  .ite .none (.ite (.some hm.waitIn) (.some hm.waitFrames))

theorem State.Canonical.popRequest (hm : s.Canonical) {w : Who} {n : Nat} : (s.popRequest w n).Canonical := hm.onCore.pushOnce.ite hm

theorem State.Canonical.granuleAddrs (hm : s.Canonical) {c asid gang : Nat} {a : Machine.Acc} {l : List Nat} :
    (s.granuleAddrs c asid gang a l).2.Canonical := by
  induction l generalizing s with
  | nil => exact hm
  | cons va l ih =>
    unfold State.granuleAddrs
    split
    · next heq =>
      have h1 := hm.findNow.ofSnd heq
      split
      · exact h1
      · split
        · next heq1 => exact (ih h1).ofSnd heq1
        · exact ih h1
    · next heq => exact hm.findNow.ofSnd heq
    · next heq => exact hm.findNow.ofSnd heq

theorem State.Canonical.readGranule (hm : s.Canonical) {c pa : Nat} : (s.readGranule c pa).2.2.Canonical := by
  unfold State.readGranule
  split
  · exact hm
  · extract_lets +onlyGivenNames line
    split
    · exact hm.onCore
    · extract_lets +onlyGivenNames s1 s2
      have h1 : s1.Canonical := hm.lineRead.narrow
      exact h1.ite h1.onCore

theorem State.Canonical.readGranules (hm : s.Canonical) {c : Nat} {l : List (Nat × Nat)} : (s.readGranules c l).2.2.Canonical := by
  induction l generalizing s with
  | nil => exact hm
  | cons x l ih => exact ih hm.readGranule

theorem State.Canonical.readPart (hm : s.Canonical) {c asid gang va : Nat} {t' : TShape} {gs : List Nat} :
    (s.readPart c asid gang va t' gs).2.Canonical := by
  unfold State.readPart
  split
  · next heq => exact hm.granuleAddrs.ofSnd heq
  · next heq =>
      dsimp only
      exact (hm.granuleAddrs.ofSnd heq).readGranules

theorem State.Canonical.readImage (hm : s.Canonical) {c asid gang va : Nat} {t' : TShape} : (s.readImage c asid gang va t').2.Canonical := hm.readPart

theorem State.Canonical.writeGranule (hm : s.Canonical) {c pa : Nat} {bs : List Byte} {bad : Bool} : (s.writeGranule c pa bs bad).Canonical := by
  unfold State.writeGranule
  extract_lets +onlyGivenNames s1
  have h1 : s1.Canonical := hm.dropL1.homeWrite.onCore
  exact h1.taint.ite h1

theorem State.Canonical.writeGranules (hm : s.Canonical) {c : Nat} {poison : List Nat} {i : Nat} {bs : List Byte} {l : List Nat} :
    (s.writeGranules c poison i bs l).Canonical := by
  induction l generalizing s i bs with
  | nil => exact hm
  | cons pa l ih => exact ih hm.writeGranule

theorem State.Canonical.putTile (hm : s.Canonical) {c : Nat} {h : Handle} {t' : TShape} {x : TImg} : (s.putTile c h t' x).Canonical := by
  unfold State.putTile
  dsimp only
  exact hm.upd.poke.foldl fun _ _ ht => ht.taint

theorem State.Canonical.readTile (hm : s.Canonical) {w : Who} {n : Nat} {gs : List Nat} : (s.readTile w n gs).2.Canonical := by
  unfold State.readTile
  dsimp only
  split
  · exact hm
  · split
    · next heq => exact hm.readPart.ofSnd heq
    · next heq => exact hm.readPart.ofSnd heq

theorem State.Canonical.forceFetch (hm : s.Canonical) {w : Who} {n : Nat} : (s.forceFetch w n).Canonical := by
  unfold State.forceFetch
  dsimp only
  exact hm.setHandle.onCore.waitIn.pushOnce

theorem State.Canonical.residentHold (hm : s.Canonical) {w : Who} {reads changed : List Nat} : CanonicalIn id (s.residentHold w reads changed) := by
  unfold State.residentHold
  split
  · next heq => exact .some (hm.tileHold.get heq)
  · split
    · exact .some hm.forceFetch
    · exact .none

theorem State.Canonical.readHeld (hm : s.Canonical) {w : Who} {n : Nat} {e : Nat × Nat} : (s.readHeld w n e).Canonical := by
  unfold State.readHeld
  dsimp only
  exact hm.onBlock.onCohort.notify

theorem State.Canonical.readHold (hm : s.Canonical) {w : Who} {n : Nat} {gs : List Nat} : CanonicalIn id (s.readHold w n gs) := by
  unfold State.readHold
  split
  · next heq => exact .some (hm.tileHold.get heq)
  · dsimp only
    split
    · exact .some hm
    · split
      · exact .none
      · next heq => exact .some (hm.readTile.ofSnd heq).readHeld

theorem State.Canonical.newTile (hm : s.Canonical) {c b n owner f : Nat} : (s.newTile c b n owner f).Canonical := by
  unfold State.newTile
  split
  · exact hm
  · dsimp only
    exact hm.setHandle.clearFrames.setFull

theorem State.Canonical.startFetch (hm : s.Canonical) {c b n f : Nat} {t' : Transfer} : (s.startFetch c b n f t').Canonical := by
  unfold State.startFetch
  split
  · exact hm
  · dsimp only
    exact hm.setHandle.clearFrames.pushOnce

theorem State.Canonical.endFill (hm : s.Canonical) {c b n : Nat} {h : Handle} {x : Option TImg} : (s.endFill c b n h x).Canonical := by
  unfold State.endFill
  extract_lets +onlyGivenNames k h' s1 s2
  have h1 : s1.Canonical := hm.setHandle
  have h2 : s2.Canonical := by
    unfold s2
    split
    · exact h1.putTile
    · exact h1
  exact h2.setFull.freeFrames

theorem State.Canonical.settleFill (hm : s.Canonical) {c b n : Nat} {t' : Transfer} : (s.settleFill c b n t').Canonical := by
  unfold State.settleFill
  extract_lets +onlyGivenNames s0 s1
  have h1 : s1.Canonical := (hm.pushOnce.ite hm).freeTile.releaseOrphans
  split
  · exact h1.notify
  · exact h1

theorem State.Canonical.execFillEnd (hm : s.Canonical) : Out.Canonical (execFillEnd s) := by
  unfold Machine.execFillEnd
  extract_lets +onlyGivenNames c b n
  split
  · exact hm
  · extract_lets +onlyGivenNames h
    split
    · exact hm
    · split
      · exact hm
      · split
        · exact hm.setHandle.freeTile
        · split
          · extract_lets +onlyGivenNames s1
            exact hm.setHandle.freeFrames.onCore.pushOnce
          · split
            · exact hm.endFill.settleFill
            · extract_lets +onlyGivenNames asid
              split
              · exact hm.push
              · split
                · next heq =>
                    extract_lets +onlyGivenNames s2
                    have h2 : s2.Canonical := (hm.readImage.ofSnd heq).setHandle
                    split
                    · exact h2.onCohort.notify
                    · exact h2
                · next heq => exact (hm.readImage.ofSnd heq).endFill.settleFill

theorem State.Canonical.execTbind (hm : s.Canonical) {a n : Nat} : Out.Canonical (execTbind a n s) := by
  unfold Machine.execTbind
  refine hm.issue (fun _ _ ht => ht.tileHold) fun _ _ ht => ?_
  dsimp only
  exact ht.setHandle

theorem State.Canonical.execTfetch (hm : s.Canonical) {n : Nat} : Out.Canonical (execTfetch n s) := by
  unfold Machine.execTfetch
  refine hm.issue (fun _ _ ht => ?_) fun _ _ ht => ht.popRequest.ite ht.popRequest.startFetch
  dsimp only
  split
  · exact .ite (.some ht.waitIn) .none
  · split
    · next heq => exact .some (ht.tileHold.get heq)
    · exact ht.frameHold

theorem State.Canonical.startWrite (hm : s.Canonical) {w : Who} {n : Nat} {x : Transfer} : (s.startWrite w n x).Canonical := hm.setHandle.pushOnce

theorem State.Canonical.execTevict (hm : s.Canonical) {n : Nat} : Out.Canonical (execTevict n s) := by
  unfold Machine.execTevict
  refine hm.issue (fun _ _ ht => ?_) fun _ _ ht => ht.startWrite.ite ht
  dsimp only
  split
  · next heq => exact .some (ht.tileHold.get heq)
  · exact .ite (.some ht.forceFetch) .none

theorem State.Canonical.execTld (hm : s.Canonical) {a n : Nat} : Out.Canonical (execTld a n s) := by
  unfold Machine.execTld
  refine hm.issue (fun _ _ ht => ht.tileHold) fun _ _ ht => ?_
  dsimp only
  exact ht.setHandle.setFull.pushOnce

theorem State.Canonical.endWrite (hm : s.Canonical) {c b n : Nat} {x : Transfer} : (s.endWrite c b n x).Canonical := by
  unfold State.endWrite
  split
  · exact hm
  · extract_lets +onlyGivenNames h h1 s1 s2
    have h1 : s1.Canonical := hm.setHandle.freeFrames.ite hm.setHandle
    have h2 : s2.Canonical := (h1.ite h1.retryHolds).freeTile.releaseOrphans.checkBlock
    split
    · exact h2.notify
    · exact h2

theorem State.Canonical.holdWrite (hm : s.Canonical) {c b n : Nat} {x : Transfer} {code va : Nat} : (s.holdWrite c b n x code va).Canonical := by
  unfold State.holdWrite
  split
  · dsimp only
    exact hm.onBlock.onCohort.notify
  · dsimp only
    exact hm.launchErr.endWrite

theorem State.Canonical.lateTile (hm : s.Canonical) {c b n : Nat} {x : Transfer} {va : Nat} : (s.lateTile c b n x va).Canonical := by
  unfold State.lateTile
  split
  · exact hm.holdWrite
  · dsimp only
    exact hm.onCohort.holdWrite

theorem State.Canonical.writeTile (hm : s.Canonical) {c b n : Nat} {h : Handle} {asid gang : Nat} {x : Transfer} {img : TImg} :
    (s.writeTile c b n h asid gang x img).Canonical := by
  unfold State.writeTile
  extract_lets +onlyGivenNames t chk s1
  have h1 : s1.Canonical := by
    unfold s1
    split
    · exact hm.setBstat
    · exact hm
  split
  · exact h1.holdWrite
  · split
    · next heq => exact (h1.granuleAddrs.ofSnd heq).lateTile
    · next heq => exact (h1.granuleAddrs.ofSnd heq).writeGranules.endWrite

theorem State.Canonical.execTget (hm : s.Canonical) {o : OpTget} : Out.Canonical (execTget o s) := by
  unfold Machine.execTget
  refine hm.issue (fun _ _ ht => ht.readHold) fun _ _ ht => ?_
  split
  · next heq => exact ht.readTile.ofSnd heq
  · next heq =>
      dsimp only
      exact (ht.readTile.ofSnd heq).onCohort.greyLanes

theorem State.Canonical.putLine (hm : s.Canonical) {c : Nat} {h : Handle} {col : Bool} {i c0 : Nat} {m : Mask} {f : Nat → Nat} :
    (s.putLine c h col i c0 m f).Canonical := by
  unfold State.putLine
  extract_lets +onlyGivenNames tt a old bs was hit whole s1
  have h1 : s1.Canonical := Mem.foldl_wf _ (fun m e hw => by split <;> [exact hw; exact Mem.wr_wf _ _ hw]) _ _ hm
  exact h1.foldl fun _ _ ht => ht.upd

theorem State.Canonical.execTset (hm : s.Canonical) {o : OpTget} : Out.Canonical (execTset o s) := by
  unfold Machine.execTset
  refine hm.issue (fun _ _ ht => ht.residentHold) fun _ _ ht => ?_
  dsimp only
  exact ht.putLine

/-! TileLog: loggable tile operations and frame grants. -/

theorem State.Canonical.inPlaceHold (hm : s.Canonical) {w : Who} {n : Nat} {e : LogEntry} : CanonicalIn id (s.inPlaceHold w n e) := by
  unfold State.inPlaceHold
  dsimp only
  split
  · exact hm.tileHold
  · split
    · exact .some hm.waitIn
    · split
      · exact .none
      · exact .ite (.some hm.waitIn) (.some hm.forceFetch)

theorem State.Canonical.runInPlace (hm : s.Canonical) {w : Who} {n : Nat} {e : LogEntry} : (s.runInPlace w n e).Canonical := by
  unfold State.runInPlace
  extract_lets +onlyGivenNames s h
  have hs : s.Canonical := hm.popRequest
  split
  · split
    · exact hs.setHandle
    · exact hs
  · extract_lets +onlyGivenNames r k
    exact hs.setHandle.clearFrames.putTile.setFull.freeFrames.ite hs.setHandle.putTile.setFull.freeFrames

theorem State.Canonical.runOutOfPlace (hm : s.Canonical) {w : Who} {a d : Nat} {e : LogEntry} : (s.runOutOfPlace w a d e).Canonical := by
  unfold State.runOutOfPlace
  dsimp only
  exact (hm.setHandle.ite hm).putTile

theorem State.Canonical.tileScalar (hm : s.Canonical) {op : Nat} {o : OpT} : Out.Canonical (tileScalar op o s) := by
  unfold Machine.tileScalar
  dsimp only
  exact hm.issue (fun _ _ ht => .ite ht.inPlaceHold ht.residentHold) (fun _ _ ht => ht.runInPlace.ite ht.runOutOfPlace)

theorem State.Canonical.execTfill (hm : s.Canonical) {o : OpT} : Out.Canonical (execTfill o s) := by
  unfold Machine.execTfill
  dsimp only
  exact hm.issue (fun _ _ ht => ht.inPlaceHold) (fun _ _ ht => ht.runInPlace)

theorem State.Canonical.execTcvt (hm : s.Canonical) {o : OpTcvt} : Out.Canonical (execTcvt o s) := by
  unfold Machine.execTcvt
  dsimp only
  refine hm.issue (fun _ _ ht => ?_) fun _ _ ht => ht.runInPlace.ite ht.runOutOfPlace
  split
  · split
    · next heq => exact .some (ht.inPlaceHold.get heq)
    · exact .ite ht.frameHold .none
  · exact ht.residentHold

theorem State.Canonical.execFrameGrant (hm : s.Canonical) : Out.Canonical (execFrameGrant s) := by
  unfold Machine.execFrameGrant
  dsimp only
  split
  · exact hm.onCore
  · split
    · exact hm.onCore
    · split
      · exact hm.onCore.setHandle.clearFrames.onCore.pushOnce.ite hm.onCore.setHandle.clearFrames.onCore.pushOnce.pushOnce
      · split
        · exact hm.onCore
        · exact hm.onCore.onCohort

/-! Matrix: accumulators, multiplies and tile writes. -/

theorem State.Canonical.setAcc (hm : s.Canonical) {c : Nat} {g : Grant} {i n v : Nat} {bad : Bool} : (s.setAcc c g i n v bad).Canonical := by
  unfold State.setAcc
  dsimp only
  exact Mem.wrN_wf _ _ _ hm.upd

theorem State.Canonical.clearBanks (hm : s.Canonical) {c base n : Nat} : (s.clearBanks c base n).Canonical := by
  unfold State.clearBanks
  dsimp only
  exact Mem.clear_wf _ _ hm.upd

theorem State.Canonical.grantHold (hm : s.Canonical) {w : Who} {q : Nat} {order array : Bool} : CanonicalIn id (s.grantHold w q order array) := by
  unfold State.grantHold
  split
  · exact .none
  · exact .ite (.some hm.waitIn) .none

theorem State.Canonical.execAcq (hm : s.Canonical) {n d : Nat} : Out.Canonical (execAcq n d s) := by
  unfold Machine.execAcq
  dsimp only
  refine hm.issue (fun _ _ ht => ?_) fun _ _ ht => ?_
  · split
    · exact .none
    · exact .some ht.waitIn
  · split
    · exact ht
    · exact ht.onCore.onCohort

theorem State.Canonical.execAcr (hm : s.Canonical) {q : Nat} : Out.Canonical (execAcr q s) := by
  unfold Machine.execAcr
  refine hm.issue (fun _ _ ht => ht.grantHold) fun _ _ ht => ?_
  split
  · exact ht
  · exact ht.clearBanks.onCore.retryHolds

theorem State.Canonical.execMmz (hm : s.Canonical) {q : Nat} : Out.Canonical (execMmz q s) := by
  unfold Machine.execMmz
  refine hm.issue (fun _ _ ht => ht.grantHold) fun _ _ ht => ?_
  split
  · exact ht
  · exact ht.clearBanks.onCore

theorem State.Canonical.multiply (hm : s.Canonical) {c : Nat} {g : Grant} {ha hb : Handle} : (s.multiply c g ha hb).Canonical := by
  unfold State.multiply
  dsimp only
  exact hm.foldl fun _ _ ht => ht.foldl fun _ _ ht1 => ht1.setAcc

theorem State.Canonical.startMultiply (hm : s.Canonical) {w : Who} {o : OpT} {paired : Bool} : (s.startMultiply w o paired).Canonical := by
  unfold State.startMultiply
  split
  · exact hm
  · extract_lets +onlyGivenNames id ty m s1
    have h1 : s1.Canonical := hm.upd.onCore
    exact h1.push.ite h1.push

theorem State.Canonical.multiplyHold (hm : s.Canonical) {o : OpT} {w : Who} : CanonicalIn id (multiplyHold o w s) := by
  unfold Machine.multiplyHold
  split
  · next heq => exact .some (hm.grantHold.get heq)
  · exact hm.residentHold

theorem State.Canonical.pairedHold (hm : s.Canonical) {o : OpT} {w : Who} : CanonicalIn id (pairedHold o w s) := by
  unfold Machine.pairedHold
  split
  · next heq => exact .some (hm.grantHold.get heq)
  · split
    · exact .some hm.waitIn
    · exact .map fun _ _ => hm.forceFetch

theorem State.Canonical.retireMultiply (hm : s.Canonical) {c : Nat} {m : MatOp} : (s.retireMultiply c m).Canonical := by
  unfold State.retireMultiply
  extract_lets +onlyGivenNames s1 s2 s3
  have h2 : s2.Canonical := hm.onCore.freeTile.freeTile.retryHolds.retryHolds
  have h3 : s3.Canonical := by
    unfold s3
    split
    · exact h2.releaseOrphans.checkBlock.notify
    · exact h2.releaseOrphans.checkBlock
  exact h3.pushOnce.ite h3

theorem State.Canonical.execMmpStart (hm : s.Canonical) : Out.Canonical (execMmpStart s) := by
  unfold Machine.execMmpStart
  dsimp only
  split
  · exact hm
  · exact .ite hm.retireMultiply (.ite hm hm.onCore.push)

theorem State.Canonical.execMmaPerform (hm : s.Canonical) : Out.Canonical (execMmaPerform s) := by
  unfold Machine.execMmaPerform
  extract_lets +onlyGivenNames c
  split
  · exact hm
  · split
    · exact .ite hm.push hm
    · extract_lets +onlyGivenNames hnd s1
      have h1 : s1.Canonical := by
        unfold s1
        split
        · exact hm.multiply
        · exact hm
      exact h1.retireMultiply

theorem State.Canonical.sides (hm : s.Canonical) {w : Who} {e : Epi} : (s.sides w e).2.2.Canonical := by
  unfold State.sides
  extract_lets +onlyGivenNames rd a b
  have hrd : ∀ {t : State} {n : Nat}, t.Canonical → (rd t n).2.Canonical := by
    intro t n ht
    unfold rd
    split
    · next heq => exact ht.readTile.ofSnd heq
    · next heq => exact ht.readTile.ofSnd heq
  have ha : a.2.Canonical := iteSnd (hrd hm) hm
  exact iteSnd (hrd ha) ha

theorem State.Canonical.acrdTile (hm : s.Canonical) {w : Who} {o : OpAcrd} : (s.acrdTile w o).2.Canonical := by
  unfold State.acrdTile
  split
  · exact hm
  · extract_lets +onlyGivenNames e h x img s1
    have h1 : s1.Canonical := hm.sides.onCohort
    split
    · exact h1.putTile
    · extract_lets +onlyGivenNames chk s2
      have h2 : s2.Canonical := h1.setBstat.ite h1
      split
      · exact h2
      · exact h2.putTile

theorem State.Canonical.acrdLanes (hm : s.Canonical) {w : Who} {o : OpAcrd} : (s.acrdLanes w o).Canonical := by
  unfold State.acrdLanes
  split
  · exact hm
  · dsimp only
    exact hm.sides.onCohort.greyLanes

theorem State.Canonical.acrdHold (hm : s.Canonical) {o : OpAcrd} {w : Who} : CanonicalIn id (acrdHold o w s) := by
  unfold Machine.acrdHold
  split
  · next heq => exact .some (hm.grantHold.get heq)
  · exact hm.residentHold

theorem State.Canonical.execAcrd (hm : s.Canonical) {o : OpAcrd} : Out.Canonical (execAcrd o s) := by
  unfold Machine.execAcrd
  refine hm.issue (fun _ _ ht => ht.acrdHold) fun _ _ ht => ?_
  split
  · exact ht.acrdLanes
  · split
    · next heq => exact ht.acrdTile.ofSnd heq
    · next heq =>
        dsimp only
        exact (ht.acrdTile.ofSnd heq).setHandle.onCohort.notify

theorem State.Canonical.execAcld (hm : s.Canonical) {a q : Nat} : Out.Canonical (execAcld a q s) := by
  unfold Machine.execAcld
  refine hm.issue (fun _ _ ht => ?_) fun _ _ ht => ?_
  · split
    · next heq => exact .some (ht.grantHold.get heq)
    · exact ht.residentHold
  · split
    · exact ht
    · dsimp only
      exact (ht.foldl fun _ _ ht1 => ht1.setAcc).onCore

theorem State.Canonical.performWrite (hm : s.Canonical) {c b n : Nat} {bl : Block} {h : Handle} {x : Transfer} :
    (s.performWrite c b n bl h x).Canonical := by
  unfold State.performWrite
  dsimp only
  split
  · exact hm.endWrite
  · split
    · split
      · next heq => exact (hm.acrdTile.ofSnd heq).endWrite
      · next heq => exact (hm.acrdTile.ofSnd heq).holdWrite
    · split
      · split
        · next heq => exact (hm.readImage.ofSnd heq).holdWrite
        · next heq => exact (hm.readImage.ofSnd heq).writeTile
      · exact hm.writeTile

theorem State.Canonical.execTileWriteComplete (hm : s.Canonical) : Out.Canonical (execTileWriteComplete s) := by
  unfold Machine.execTileWriteComplete
  dsimp only
  split
  · exact hm
  · split
    · exact hm
    · exact .ite hm (.ite hm.push (hm.performWrite.ite hm.performWrite.pushOnce))

/-! Power: the governor. -/

theorem State.Canonical.execPowerEstimate (hm : s.Canonical) : Out.Canonical (execPowerEstimate s) :=
  hm

/-! Slices: accesses at the home slices. -/

theorem State.Canonical.slicePerform (hm : s.Canonical) {id : Nat} {a : Access} {stage : Nat} : (s.slicePerform id a stage).Canonical := by
  unfold State.slicePerform
  extract_lets +onlyGivenNames r data s1
  have h1 : s1.Canonical := hm.captureQueue.onSlice.serve.performed
  exact h1.respond.ite h1

theorem State.Canonical.sliceWrite (hm : s.Canonical) {id : Nat} {a : Access} {again : Due} : (s.sliceWrite id a again).Canonical := by
  unfold State.sliceWrite
  dsimp only
  split
  · exact hm.slicePerform
  · split
    · exact hm.setSlice.slicePerform.sendBack
    · exact hm.pushAll

theorem State.Canonical.arrive (hm : s.Canonical) {id : Nat} {a : Access} : (s.arrive id a).2.Canonical := by
  unfold State.arrive
  split
  · exact hm
  · dsimp only
    exact hm.upd.ite hm

theorem State.Canonical.slicePass (hm : s.Canonical) {a : Access} : CanonicalIn id (s.slicePass a) := by
  unfold State.slicePass
  dsimp only
  exact .ite hm.fsPass (.ite .none (.some hm))

theorem State.Canonical.execSliceAccess (hm : s.Canonical) : Out.Canonical (execSliceAccess s) := by
  unfold Machine.execSliceAccess
  extract_lets +onlyGivenNames id
  split
  · exact hm
  · split
    · exact hm
    · split
      · next heq => exact (hm.arrive.ofSnd heq).push
      · next heq =>
          split
          · exact (hm.arrive.ofSnd heq).push
          · next heq1 =>
              extract_lets +onlyGivenNames n sl
              split
              · exact ((CanonicalIn.ite (hm.arrive.ofSnd heq).slicePass .none).get heq1).sliceWrite
              · split
                · exact (((CanonicalIn.ite (hm.arrive.ofSnd heq).slicePass .none).get heq1).onSlice.ite
                    ((CanonicalIn.ite (hm.arrive.ofSnd heq).slicePass .none).get heq1)).slicePerform
                · split
                  · exact ((CanonicalIn.ite (hm.arrive.ofSnd heq).slicePass .none).get heq1).push
                  · extract_lets +onlyGivenNames s2
                    have h2 : s2.Canonical := ((CanonicalIn.ite (hm.arrive.ofSnd heq).slicePass .none).get heq1).setSlice.slicePerform
                    exact h2.push.ite h2

theorem State.Canonical.answerJoined (hm : s.Canonical) {id : Nat} : (s.answerJoined id).Canonical := by
  unfold State.answerJoined
  split
  · exact hm
  · exact hm.upd.respond.ite hm

theorem State.Canonical.execSliceFillComplete (hm : s.Canonical) : Out.Canonical (execSliceFillComplete s) := by
  unfold Machine.execSliceFillComplete
  extract_lets +onlyGivenNames n line sl
  split
  · exact hm
  · split
    · exact hm.push
    · extract_lets +onlyGivenNames src s1 s2
      have h1 : s1.Canonical := hm.setSlice
      have h2 : s2.Canonical := by
        unfold s2
        split
        · exact h1.narrow.sendBack.ite h1.narrow
        · exact h1
      exact h2.foldl fun _ _ ht => ht.answerJoined

theorem State.Canonical.execSliceWriteback (hm : s.Canonical) : Out.Canonical (execSliceWriteback s) := by
  unfold Machine.execSliceWriteback
  dsimp only
  split
  · exact hm
  · split
    · exact hm
    · split
      · next heq => exact (hm.arrive.ofSnd heq).push
      · next heq => exact .ite (hm.arrive.ofSnd heq).push (hm.arrive.ofSnd heq).sliceWrite

theorem State.Canonical.execWriteBackDrain (hm : s.Canonical) : Out.Canonical (execWriteBackDrain s) := by
  unfold Machine.execWriteBackDrain
  dsimp only
  exact hm.setSlice.onNet

/-! Spdm: the SPDM responder. -/

theorem State.Canonical.spdmReply (hm : s.Canonical) {r : Reply} : (s.spdmReply r).Canonical := hm.ite (hm.upd.ite hm.upd)

/-! UliahOps: the Uliah instructions. -/

theorem State.Canonical.setHandler (hm : s.Canonical) {id : Nat} {h : Handler} : (s.setHandler id h).Canonical := hm.onUl

theorem State.Canonical.ulFault (hm : s.Canonical) {h : Handler} {code extra : Nat} : (s.ulFault h code extra).Canonical := hm.haltWindow

theorem State.Canonical.uliah (hm : s.Canonical) {f : Nat → Handler → State → State} (hf : ∀ n h t, t.Canonical → (f n h t).Canonical) :
    Out.Canonical (uliah f s) := by
  unfold Machine.uliah
  split
  · exact trivial
  · exact .ite hm.ulFault (hf _ _ _ hm)

theorem State.Canonical.uliahPut (hm : s.Canonical) {d : Nat} {f : Handler → DWord} : Out.Canonical (uliahPut d f s) :=
  hm.uliah (fun _ _ _ ht => ht.setHandler)

theorem State.Canonical.ulJump (hm : s.Canonical) {id : Nat} {h : Handler} {off : Nat} : (s.ulJump id h off).Canonical := by
  unfold State.ulJump
  split
  · exact hm.setHandler
  · exact hm.ulFault

theorem State.Canonical.execUld (hm : s.Canonical) {o : OpUi} : Out.Canonical (execUld o s) := by
  unfold Machine.execUld
  refine hm.uliah fun _ _ _ ht => ?_
  extract_lets +onlyGivenNames pa
  split
  · exact ht.ulFault
  · split
    · exact ht
    · next heq =>
        extract_lets +onlyGivenNames r
        have hr : r.2.Canonical := (ht.portPass.get heq).homeRead
        exact hr.ulFault.ite hr.setHandler

theorem State.Canonical.execUst (hm : s.Canonical) {o : OpUst} : Out.Canonical (execUst o s) := by
  unfold Machine.execUst
  refine hm.uliah fun _ _ _ ht => ?_
  dsimp only
  split
  · exact ht.ulFault
  · split
    · exact ht
    · next heq => exact (ht.portPass.get heq).homeWrite.setHandler

theorem State.Canonical.collect (hm : s.Canonical) {id : Nat} {h : Handler} {lo hi n r : Nat} : (s.collect id h lo hi n r).Canonical := by
  induction n generalizing s h r with
  | zero => exact hm.setHandler
  | succ n ih =>
    unfold State.collect
    dsimp only
    split
    · exact hm.ulFault
    · split
      · exact hm.setHandler
      · split
        · exact hm.setHandler
        · exact hm.ulFault.ite (ih hm.fetchInput.onUl)

theorem State.Canonical.inputsPass (hm : s.Canonical) {h : Handler} : CanonicalIn id (s.inputsPass h) := hm.portPass

theorem State.Canonical.execUcomb (hm : s.Canonical) {a b : Nat} : Out.Canonical (execUcomb a b s) := by
  unfold Machine.execUcomb
  refine hm.uliah fun _ _ _ ht => ?_
  dsimp only
  split
  · split
    · exact ht
    · split
      · exact ht
      · next heq => exact ((CanonicalIn.bind fun _ hx => .map fun _ hx1 => (ht.fetchPart.getSnd hx).inputsPass.get hx1).getSnd heq).collect
  · split
    · exact ht.ulFault
    · split
      · exact ht
      · next heq => exact (ht.inputsPass.get heq).collect

theorem State.Canonical.partOf (hm : s.Canonical) {h : Handler} : (s.partOf h).2.Canonical := by
  unfold State.partOf
  split
  · exact hm
  · dsimp only
    exact foldlSnd hm fun _ _ ht => ht.draw

theorem State.Canonical.groupEntry (hm : s.Canonical) {w ix : Nat} : CanonicalIn Prod.snd (s.groupEntry w ix) := by
  unfold State.groupEntry
  dsimp only
  exact .ite .none (.some hm.homeRead)

theorem State.Canonical.writeOut (hm : s.Canonical) {h : Handler} {p : Sum} {base : Nat} : (s.writeOut h p base).2.Canonical := by
  unfold State.writeOut
  dsimp only
  split
  · exact foldlSnd hm fun _ _ ht => ht.writePeer
  · exact hm.portWrite

theorem State.Canonical.sendOut (hm : s.Canonical) {h : Handler} {p : Sum} {e : Nat} : (s.sendOut h p e).Canonical := by
  unfold State.sendOut
  extract_lets +onlyGivenNames w mode ty b len header s1 win
  have h1 : s1.Canonical := hm.onUl
  exact h1.push.ite h1.upd.onUl

theorem State.Canonical.toEntry (hm : s.Canonical) {h : Handler} {p : Sum} {e : Nat} : (s.toEntry h p e).2.Canonical := by
  unfold State.toEntry
  split
  · dsimp only
    exact hm.writeOut
  · exact hm.sendOut

theorem State.Canonical.sendAll (hm : s.Canonical) {id : Nat} {h : Handler} {p : Sum} {es : List Nat} : (s.sendAll id h p es).Canonical := by
  unfold State.sendAll
  split
  · exact hm.setHandler
  · next heq =>
      dsimp only
      exact (foldlSnd (hm.portPass.get heq) fun _ _ ht => ht.toEntry).setHandler

theorem State.Canonical.uliahSend (hm : s.Canonical) {a : Nat} {kinds : List Nat} : Out.Canonical (uliahSend a kinds s) := by
  unfold Machine.uliahSend
  refine hm.uliah fun _ _ _ ht => ?_
  extract_lets +onlyGivenNames p
  have hp : p.2.Canonical := ht.partOf
  split
  · exact ht
  · next heq =>
      split
      · exact ht.ulFault
      · next heq1 => exact ((hp.portPass.get heq).groupEntry.getSnd heq1).ulFault.ite ((hp.portPass.get heq).groupEntry.getSnd heq1).sendAll

theorem State.Canonical.entriesFrom (hm : s.Canonical) {h : Handler} {p : Sum} {n ix : Nat} : (s.entriesFrom h p n ix).2.Canonical := by
  induction n generalizing s ix with
  | zero => exact hm
  | succ n ih =>
    unfold State.entriesFrom
    split
    · exact hm
    · next heq =>
      have he := hm.groupEntry.getSnd heq
      exact iteSnd he (iteSnd he (ih he))

theorem State.Canonical.execUmcast (hm : s.Canonical) {a : Nat} : Out.Canonical (execUmcast a s) := by
  unfold Machine.execUmcast
  refine hm.uliah fun _ _ _ ht => ?_
  extract_lets +onlyGivenNames p ix n
  split
  · exact ht
  · next heq =>
      extract_lets +onlyGivenNames r
      have hr : r.2.Canonical := (ht.partOf.portPass.get heq).entriesFrom
      split
      · exact hr.ulFault
      · exact hr.sendAll

theorem State.Canonical.optElem (hm : s.Canonical) {kind : Nat} {d : List Byte} {i e : Nat} {p : Sum} : (s.optElem kind d i e p).2.Canonical := by
  unfold State.optElem
  extract_lets +onlyGivenNames wa ma va as_ s0 bad r s1 s2 s3
  have h1 : s1.Canonical := (hm.foldl fun _ _ ht => ht.homeRead).homeWrite.homeWrite
  have h2 : s2.Canonical := h1.ite h1.homeWrite
  exact (h2.foldl fun _ _ ht => ht.taint).ite h2

theorem State.Canonical.execUopt (hm : s.Canonical) {a : Nat} : Out.Canonical (execUopt a s) := by
  unfold Machine.execUopt
  refine hm.uliah fun _ _ _ ht => ?_
  extract_lets +onlyGivenNames pa ty n i
  split
  · exact ht.ulFault
  · extract_lets +onlyGivenNames t1 d
    have ht1 : t1.Canonical := ht.homeRead
    split
    · exact ht1.ulFault
    · extract_lets +onlyGivenNames bases as_
      split
      · exact ht
      · next heq =>
          extract_lets +onlyGivenNames p r
          exact (foldlSnd (ht1.portPass.get heq).partOf fun _ _ ht3 => ht3.optElem).setHandler

theorem State.Canonical.homeSub (hm : s.Canonical) {id : Nat} {h : Handler} {pa : Nat} : (s.homeSub id h pa).Canonical := by
  unfold State.homeSub
  split
  · exact hm
  · next heq => exact (hm.portPass.get heq).lineAtomic.atomAt.setHandler

theorem State.Canonical.execUsig (hm : s.Canonical) {a : Nat} : Out.Canonical (execUsig a s) := by
  refine hm.uliah fun _ h t ht => ?_
  extract_lets +onlyGivenNames pa h1
  refine ht.ulFault.ite (ht.ite ?_)
  split
  · exact ht.writePeer.setHandler.ite ht.ulFault
  · exact ht.atomAt.setHandler.ite ht.ulFault
  · exact ht.homeSub
  · exact ht.homeSub
  · exact ht.ulFault

theorem State.Canonical.execUdone (hm : s.Canonical) {d : Nat} : Out.Canonical (execUdone d s) := by
  unfold Machine.execUdone
  refine hm.uliah fun _ _ _ ht => ?_
  extract_lets +onlyGivenNames b mine b1 left src t1
  have ht1 : t1.Canonical := ht.setBucket.setHandler
  exact ht1.advanceRound.ite ht1

theorem State.Canonical.execUget (hm : s.Canonical) {d a : Nat} : Out.Canonical (execUget d a s) := by
  unfold Machine.execUget
  refine hm.uliah fun _ _ _ ht => ?_
  dsimp only
  exact ht.ulFault.ite ht.partOf.setHandler

/-! Uniform: uniform instructions. -/

theorem State.Canonical.uniform2 (hm : s.Canonical) {o : OpT} {f : DWord → DWord → DWord} : Out.Canonical (uniform2 o f s) := hm.issueOwn

/-! Dispatch: every instruction. -/

theorem State.Canonical.exec (hm : s.Canonical) {i : Instr} : Out.Canonical (exec i s) := by
  cases i with
  | mov16 | mov | sel | iaddc | movi | ffma | dfma | pnot | sxexp | voteAny | voteAll | voteBallot | red | scan | elect | qli | qaddi | qlui
  | q2v | bra | call | reconv | rwait | nop | yield =>
    simp only [exec_mov16, exec_mov, exec_sel, exec_iaddc, exec_movi, exec_ffma, exec_dfma, exec_pnot, exec_sxexp, exec_voteAny, exec_voteAll,
      exec_voteBallot, exec_red, exec_scan, exec_elect, exec_qli, exec_qaddi, exec_qlui, exec_q2v, exec_bra, exec_call, exec_reconv, exec_rwait,
      exec_nop, exec_yield]
    exact hm.issueOwn
  | iadd16 | isub16 | imul16 | and16 | or16 | xor16 =>
    simp only [exec_iadd16, exec_isub16, exec_imul16, exec_and16, exec_or16, exec_xor16]
    exact hm.half2
  | shli16 | shri16 | srai16 | addi16 =>
    simp only [exec_shli16, exec_shri16, exec_srai16, exec_addi16]
    exact hm.half1
  | fadd16 | fsub16 | fmul16 | fmin16 | fmax16 =>
    simp only [exec_fadd16, exec_fsub16, exec_fmul16, exec_fmin16, exec_fmax16]
    exact hm.floatHalf
  | iadd | isub | imul | imulh | imulhn | imin | imax | nmin | nmax | isad | land | lor | lxor | andn | shl | shr | sra | rot | bfx =>
    simp only [exec_iadd, exec_isub, exec_imul, exec_imulh, exec_imulhn, exec_imin, exec_imax, exec_nmin, exec_nmax, exec_isad, exec_land,
      exec_lor, exec_lxor, exec_andn, exec_shl, exec_shr, exec_sra, exec_rot, exec_bfx]
    exact hm.lane2
  | imad | bfi =>
    simp only [exec_imad, exec_bfi]
    exact hm.lane3
  | iabs | popc | clz | brev =>
    simp only [exec_iabs, exec_popc, exec_clz, exec_brev]
    exact hm.lane1
  | iaddi | imuli | andi | ori | xori | isubri | shli | shri | srai =>
    simp only [exec_iaddi, exec_imuli, exec_andi, exec_ori, exec_xori, exec_isubri, exec_shli, exec_shri, exec_srai]
    exact hm.laneImm
  | fadd | fsub | fmul | fmin | fmax | fminn | fmaxn =>
    simp only [exec_fadd, exec_fsub, exec_fmul, exec_fmin, exec_fmax, exec_fminn, exec_fmaxn]
    exact hm.float2
  | frcp | frsq | fsqrt | fex2 | flg2 | fsin | fcos | ftanh =>
    simp only [exec_frcp, exec_frsq, exec_fsqrt, exec_fex2, exec_flg2, exec_fsin, exec_fcos, exec_ftanh]
    exact hm.float1
  | hadd | hsub | hmul | hfma | hmin | hmax | hdot2 =>
    simp only [exec_hadd, exec_hsub, exec_hmul, exec_hfma, exec_hmin, exec_hmax, exec_hdot2]
    exact hm.packedHalf
  | dadd | dsub | dmul | dmin | dmax =>
    simp only [exec_dadd, exec_dsub, exec_dmul, exec_dmin, exec_dmax]
    exact hm.double2
  | drcp | dsqrt =>
    simp only [exec_drcp, exec_dsqrt]
    exact hm.double1
  | icmp | ncmp | fcmp | dcmp =>
    simp only [exec_icmp, exec_ncmp, exec_fcmp, exec_dcmp]
    exact hm.compare
  | pand | por | pxor =>
    simp only [exec_pand, exec_por, exec_pxor]
    exact hm.pred2
  | cvt | cvtb =>
    simp only [exec_cvt, exec_cvtb]
    exact hm.convertLanes
  | sxset => rw [exec_sxset]; exact hm.issue (fun _ _ ht => ht.sxsetHold) (fun _ _ ht => ht.onCohort)
  | shflIdx | shflUp | shflDown | shflXor =>
    simp only [exec_shflIdx, exec_shflUp, exec_shflDown, exec_shflXor]
    exact hm.shuffle
  | qadd | qsub | qmul | qand | qor | qxor | qshl | qshr =>
    simp only [exec_qadd, exec_qsub, exec_qmul, exec_qand, exec_qor, exec_qxor, exec_qshl, exec_qshr]
    exact hm.uniform2
  | v2q | movx | bisq | csrr =>
    simp only [exec_v2q, exec_movx, exec_bisq, exec_csrr]
    exact hm.issue (fun _ _ _ => noHold_canonical) (fun _ _ ht => ht.onCohort)
  | movs => exact hm.execMovs
  | ret | jmpq =>
    simp only [exec_ret, exec_jmpq]
    exact hm.jumpTo
  | exitl => rw [exec_exitl]; exact hm.issue (fun _ _ _ => noHold_canonical) (fun _ _ ht => ht.exitLanes)
  | brk => rw [exec_brk]; exact hm.issue (fun _ _ _ => noHold_canonical) (fun _ _ ht => ht.softTrap.ite ht)
  | ld32 | ld64 =>
    simp only [exec_ld32, exec_ld64]
    exact hm.loadLanes
  | ldNarrow => rw [exec_ldNarrow]; exact hm.loadWith
  | ldk32 | ldk64 =>
    simp only [exec_ldk32, exec_ldk64]
    exact hm.loadConst
  | qld => exact hm.execQld
  | st => exact hm.execSt
  | qst => exact hm.execQst
  | atom => exact hm.execAtom
  | redm | sigd =>
    simp only [exec_redm, exec_sigd]
    exact hm.issue (fun _ _ _ => noHold_canonical) (fun _ _ ht => ht.queueStore)
  | cas => exact hm.execCas
  | fence | pfence =>
    simp only [exec_fence, exec_pfence]
    exact hm.issue (fun _ _ _ => noHold_canonical) (fun _ _ ht => ht.addFence)
  | wbr => exact hm.execWbr
  | invr => exact hm.execInvr
  | barAw =>
    rw [exec_barAw]
    exact hm.issue (fun _ _ ht => .ite (.ite (.some ht.waitIn) .none) (.ite (.some ht.waitAgain) (.some ht.waitIn.arriveBar)))
        (fun _ _ ht => ht.waitDone)
  | barArv => rw [exec_barArv]; exact hm.issue (fun _ _ ht => .ite (.some ht.waitAgain) .none) (fun _ _ ht => ht.arriveBar)
  | barWt => rw [exec_barWt]; exact hm.issue (fun _ _ ht => .ite (.some ht.waitIn) .none) (fun _ _ ht => ht.waitDone)
  | gbarAw =>
    rw [exec_gbarAw]
    exact hm.issue (fun _ _ ht => .ite (.ite (.some ht.waitIn) .none) (.ite (.some ht.waitAgain) (.some ht.waitIn.arriveGang))) (fun _ _ ht => ht)
  | gbarArv => rw [exec_gbarArv]; exact hm.issue (fun _ _ ht => .ite (.some ht.waitAgain) .none) (fun _ _ ht => ht.arriveGang)
  | gbarWt => rw [exec_gbarWt]; exact hm.issue (fun _ _ ht => .ite (.some ht.waitIn) .none) (fun _ _ ht => ht)
  | mwait => exact hm.execMwait
  | send => exact hm.execSend
  | recv => exact hm.execRecv
  | chq => exact hm.execChq
  | tnew => rw [exec_tnew]; exact hm.issue (fun _ _ ht => ht.frameHold) (fun _ _ ht => ht.popRequest.newTile)
  | tfree => rw [exec_tfree]; exact hm.issue (fun _ _ ht => .ite (.some ht.waitIn) .none) (fun _ _ ht => ht.releaseHandle.freeTile)
  | tpass => rw [exec_tpass]; exact hm.issue (fun _ _ _ => noHold_canonical) (fun _ _ ht => ht.setHandle)
  | tbind => exact hm.execTbind
  | tfetch => exact hm.execTfetch
  | tevict => exact hm.execTevict
  | twait => rw [exec_twait]; exact hm.issue (fun _ _ ht => ht.tileHold) (fun _ _ ht => ht)
  | tld => exact hm.execTld
  | tst => rw [exec_tst]; exact hm.issue (fun _ _ ht => ht.readHold) (fun _ _ ht => ht.startWrite)
  | tget => exact hm.execTget
  | tset => exact hm.execTset
  | tadds | tmuls | texps | tclmp =>
    simp only [exec_tadds, exec_tmuls, exec_texps, exec_tclmp]
    exact hm.tileScalar
  | tfill => exact hm.execTfill
  | tcvt => exact hm.execTcvt
  | mma => rw [exec_mma]; exact hm.issue (fun _ _ ht => ht.multiplyHold) (fun _ _ ht => ht.startMultiply)
  | mmp => rw [exec_mmp]; exact hm.issue (fun _ _ ht => .ite ht.pairedHold ht.multiplyHold) (fun _ _ ht => ht.startMultiply)
  | mmz => exact hm.execMmz
  | acq => exact hm.execAcq
  | acr => exact hm.execAcr
  | acrd => exact hm.execAcrd
  | acld => exact hm.execAcld
  | cego | gxgo =>
    simp only [exec_cego, exec_gxgo]
    exact hm.startChain
  | wpush => exact hm.execWpush
  | wpop => exact hm.execWpop
  | quies => exact hm.execQuies
  | trap => rw [exec_trap]; exact hm.issue (fun _ _ _ => noHold_canonical) (fun _ _ ht => ht.softTrap)
  | tret => exact hm.execTret
  | exit => rw [exec_exit]; exact hm.issue (fun _ _ _ => noHold_canonical) (fun _ _ ht => ht.endCohort)
  | spawn => exact hm.execSpawn
  | kill => exact hm.execKill
  | csrw => rw [exec_csrw]; exact hm.issue (fun _ _ _ => noHold_canonical) (fun _ _ ht => ht.csrWrite)
  | csrCtlbiWrite => rw [exec_csrCtlbiWrite]; exact hm.issue (fun _ _ _ => noHold_canonical) (fun _ _ ht => ht.ctlbi)
  | csrCbndReload => rw [exec_csrCbndReload]; exact hm.issue (fun _ _ _ => noHold_canonical) (fun _ _ ht => ht.reloadBound)
  | csrCbndWrite => rw [exec_csrCbndWrite]; exact hm.issue (fun _ _ _ => noHold_canonical) (fun _ _ ht => ht.writeBound)
  | uli | uaddi | uadd | usub | uand | uor | ushl | ushr =>
    simp only [exec_uli, exec_uaddi, exec_uadd, exec_usub, exec_uand, exec_uor, exec_ushl, exec_ushr]
    exact hm.uliahPut
  | uld => exact hm.execUld
  | ust => exact hm.execUst
  | ubr => rw [exec_ubr]; exact hm.uliah (fun _ _ _ ht => ht.ulJump.ite ht.setHandler)
  | ujmp => rw [exec_ujmp]; exact hm.uliah (fun _ _ _ ht => ht.ulJump)
  | uend => rw [exec_uend]; exact hm.uliah (fun _ _ _ ht => ht.endHandler)
  | ufault => rw [exec_ufault]; exact hm.uliah (fun _ _ _ ht => ht.ulFault)
  | ucomb => exact hm.execUcomb
  | ufwd | uwr =>
    simp only [exec_ufwd, exec_uwr]
    exact hm.uliahSend
  | umcast => exact hm.execUmcast
  | uopt => exact hm.execUopt
  | usig => exact hm.execUsig
  | udone => exact hm.execUdone
  | uget => exact hm.execUget
  | joinArrive => rw [exec_joinArrive]; exact hm.joinArrive
  | rwaitTimeout => exact hm.execRwaitTimeout
  | yieldExpire => exact hm.execYieldExpire
  | barrierArrivalTaken => exact hm.execBarrierArrivalTaken
  | gbarPhaseMessage => exact hm.execGbarPhaseMessage
  | monitorWake => exact hm.execMonitorWake
  | channelStall => exact hm.execChannelStall
  | channelPacketReceive => exact hm.execChannelPacketReceive
  | channelCredit => exact hm.execChannelCredit
  | loadDataReturn => exact hm.execLoadDataReturn
  | storeLeaveQueue => exact hm.execStoreLeaveQueue
  | fenceComplete => exact hm.execFenceComplete
  | translationWalkComplete => exact hm.execTranslationWalkComplete
  | trapEntry => rw [exec_trapEntry]; exact hm.enterTrap
  | lateEngineFault => exact hm.execLateEngineFault
  | laneLineFill => rw [exec_laneLineFill]; exact hm.fillLine
  | frameGrant => exact hm.execFrameGrant
  | fillEnd => exact hm.execFillEnd
  | mmpStart => exact hm.execMmpStart
  | mmaPerform => exact hm.execMmaPerform
  | engineEntryReach => exact hm.execEngineEntryReach
  | blockStart => exact hm.execBlockStart
  | blockEnd => exact hm.execBlockEnd
  | launchAccept => exact hm.execLaunchAccept
  | schedule => exact hm.execSchedule
  | prioritySwapOut => exact hm.execPrioritySwapOut
  | launchComplete => exact hm.execLaunchComplete
  | launchKillComplete => exact hm.execLaunchKillComplete
  | hqDoorbell => exact hm.execHqDoorbell
  | hqEnable => exact hm.execHqEnable
  | hqDisable => exact hm.execHqDisable
  | hqbaseWrite => exact hm.execHqbaseWrite
  | mgmtDoorbell => rw [exec_mgmtDoorbell]; exact hm.submitMgmt
  | ctxTableWrite => exact hm.execCtxTableWrite
  | ctxSwapOut => exact hm.execCtxSwapOut
  | ctxRestore => rw [exec_ctxRestore]; exact hm.takeCmd (fun _ ht => ht.recall)
  | ctxEvictGroups => exact hm.execCtxEvictGroups
  | ctxRestoreGroups => rw [exec_ctxRestoreGroups]; exact hm.takeCmd (fun _ ht => ht.returnGroups)
  | ctxFlushLines => exact hm.execCtxFlushLines
  | ctxcmdComplete => exact hm.execCtxcmdComplete
  | cohortSwapOut => exact hm.execCohortSwapOut
  | cohortRestore => exact hm.execCohortRestore
  | tlbinvAll | tlbinvPage =>
    simp only [exec_tlbinvAll, exec_tlbinvPage]
    exact hm.tlbinv
  | tlbinvComplete => exact hm.execTlbinvComplete
  | wbctxWrite => exact hm.execWbctxWrite
  | packetRoute => rw [exec_packetRoute]; exact hm.hop
  | probeLaunch => exact hm.execProbeLaunch
  | probeHop => exact hm.execProbeHop
  | recoveryGrant => exact hm.execRecoveryGrant
  | rotationTokenReturn => exact hm.execRotationTokenReturn
  | escapeReinject => exact hm.execEscapeReinject
  | sliceAccess => exact hm.execSliceAccess
  | sliceFillComplete => exact hm.execSliceFillComplete
  | sliceWriteback => exact hm.execSliceWriteback
  | scrubLine => exact hm.execScrubLine
  | fsPeriodStart => exact hm.execFsPeriodStart
  | fsbudWrite => exact hm.execFsbudWrite
  | governorWindow => rw [exec_governorWindow]; exact hm.onCore
  | powerEstimate => exact hm.execPowerEstimate
  | awcfgEnable => exact hm.execAwcfgEnable
  | awcfgDisable => exact hm.execAwcfgDisable
  | awRegisterWrite => exact hm.execAwRegisterWrite
  | awContribution => exact hm.execAwContribution
  | segmentReceive => exact hm.execSegmentReceive
  | handlerStart => exact hm.execHandlerStart
  | bucketSpill => exact hm.execBucketSpill
  | ueRetransmit => exact hm.execUeRetransmit
  | fabricPacketReceive => exact hm.execFabricPacketReceive
  | fabricAck => exact hm.execFabricAck
  | laneFailure => exact hm.execLaneFailure
  | linkRetrainDone => exact hm.execLinkRetrainDone
  | flctlRetrain => exact hm.execFlctlRetrain
  | peerAccessTimeout => exact hm.execPeerAccessTimeout
  | peerAccessReceive => rw [exec_peerAccessReceive]; exact hm.peerReceive
  | hostWrite | hostRead =>
    simp only [exec_hostWrite, exec_hostRead]
    exact hm.hostArrives
  | errRingEnable => rw [exec_errRingEnable]; exact .ite hm hm.setHub.setHub.setHub.setHub
  | errRingDisable => rw [exec_errRingDisable]; exact hm.setHub
  | errcfgWrite => exact hm.execErrcfgWrite
  | errCorrectionPeriod => exact hm.execErrCorrectionPeriod
  | katInject => exact hm.execKatInject
  | scanApply => exact hm.execScanApply
  | scanTest => exact hm.execScanTest
  | scanComplete => rw [exec_scanComplete]; exact .ite hm hm.errRec.upd.scanStat.storeSys
  | stkEnterCheckpoint => exact hm.execStkEnterCheckpoint
  | stkTakeCheckpoint => rw [exec_stkTakeCheckpoint]; exact .ite hm hm.beginCheckpoint
  | stkLeaveCheckpoint => exact hm.execStkLeaveCheckpoint
  | stkWarmResetRestore => exact hm.execStkWarmResetRestore
  | stkWarmResetNoRestore => rw [exec_stkWarmResetNoRestore]; exact .ite hm hm.resetEmpty
  | checkpointQuiet => exact hm.execCheckpointQuiet
  | checkpointTimeout => exact hm.execCheckpointTimeout
  | msgLogOverflow => exact hm.execMsgLogOverflow
  | rtRaiseTestFloor => rw [exec_rtRaiseTestFloor]; exact .ite hm hm.setHub
  | rtSignBindingMap => exact hm.execRtSignBindingMap
  | powerGood => rw [exec_powerGood]; exact .ite hm hm.bootStage.onBoot.measure.push.push
  | kilnRampStep => exact hm.execKilnRampStep
  | bootLoader => exact hm.execBootLoader
  | bootOs => exact hm.execBootOs
  | bootFirmware => rw [exec_bootFirmware]; exact .ite hm (.ite hm.startFirmware (.ite hm.finishBoot hm))
  | spdmGetVersion | spdmNegotiateAlgorithms | spdmGetDigests | spdmGetCertificate | spdmChallenge | spdmGetMeasurements | spdmUnsupportedRequest =>
    simp only [exec_spdmGetVersion, exec_spdmNegotiateAlgorithms, exec_spdmGetDigests, exec_spdmGetCertificate, exec_spdmChallenge,
      exec_spdmGetMeasurements, exec_spdmUnsupportedRequest]
    exact hm.spdmReply
  | spdmGetCapabilities => rw [exec_spdmGetCapabilities]; exact hm.draw.spdmReply
  | registerWrite => exact hm.execRegisterWrite
  | illegalInstruction | instructionFetchFault =>
    simp only [exec_illegalInstruction, exec_instructionFetchFault]
    exact hm.badWord
  | conditionalWaitPauseEnd => exact hm.execConditionalWaitPauseEnd
  | bankAccess => exact hm.execBankAccess
  | tileWriteComplete => exact hm.execTileWriteComplete
  | writeAcknowledgement => exact hm.execWriteAcknowledgement
  | writeBackDrain => exact hm.execWriteBackDrain
  | uncorrectableError => exact hm.execUncorrectableError
  | powerLoss => exact execPowerLoss_canonical

/-! Issue: the choice of what a step does. -/

theorem State.Canonical.issuing (hm : s.Canonical) {c k i word len : Nat} : (s.issuing c k i word len).Canonical := hm

theorem State.Canonical.issueAt (hm : s.Canonical) {c k i : Nat} : Action.Canonical (s.issueAt c k i) := by
  unfold State.issueAt
  split
  · exact hm
  · split
    · exact hm
    · split
      · next heq => exact (hm.fetchAt.ofSnd heq).upd
      · next heq =>
          split
          · exact (hm.fetchAt.ofSnd heq).issuing
          · exact (hm.fetchAt.ofSnd heq).issuing
          · exact (hm.fetchAt.ofSnd heq).upd
          · exact hm.fetchAt.ofSnd heq

theorem State.Canonical.badGuard (hm : s.Canonical) : s.badGuard.Canonical := hm

theorem Action.Canonical.actionOut {a : Action} (ha : a.Canonical) : Out.Canonical a.out := by
  cases a with
  | run i t => exact State.Canonical.exec ha
  | guarded i t => exact .ite (State.Canonical.exec ha) (State.Canonical.exec (State.Canonical.badGuard ha))
  | rest t => exact ha

theorem State.Canonical.noWait (hm : s.Canonical) {c k i : Nat} : (s.noWait c k i).Canonical := hm.onCohort

theorem State.Canonical.lookAt (hm : s.Canonical) {c k i : Nat} {uni : Bool} {rd : List Cand} : (s.lookAt c k i uni rd).2.Canonical := by
  unfold State.lookAt
  split
  · exact hm
  · split
    · exact hm
    · split
      · exact hm.noWait
      · split
        · exact hm
        · have ho := (hm.issueAt (c := c) (k := k) (i := i)).actionOut
          split
          · next heq =>
            rw [heq] at ho
            exact iteSnd hm (State.Canonical.upd ho).noWait
          · exact hm

theorem State.Canonical.survey (hm : s.Canonical) {c p : Nat} {uni : Bool} : (s.survey c p uni).2.Canonical :=
  foldlSnd hm fun _ _ ht => foldlSnd ht fun _ _ ht1 => ht1.lookAt

theorem State.Canonical.countWaits (hm : s.Canonical) {c : Nat} {rd : List Cand} {x : Cand} : (s.countWaits c rd x).Canonical :=
  hm.foldl fun _ _ ht => ht.onCohort

theorem State.Canonical.occupy (hm : s.Canonical) {c p : Nat} {uni : Bool} {k i : Nat} : (s.occupy c p uni k i).Canonical := by
  unfold State.occupy
  split
  · exact hm
  · split
    · exact hm
    · dsimp only
      exact hm.onCore

theorem State.Canonical.pick (hm : s.Canonical) {c p : Nat} {uni : Bool} : (s.pick c p uni).2.Canonical := by
  unfold State.pick
  extract_lets +onlyGivenNames r
  have hr : r.2.Canonical := hm.survey
  split
  · exact hr
  · split
    · exact hr
    · exact hr.countWaits.onCore.occupy

theorem State.Canonical.unitCycle (hm : s.Canonical) {c p : Nat} {uni : Bool} : Action.Canonical (s.unitCycle c p uni) := by
  unfold State.unitCycle
  extract_lets +onlyGivenNames s1
  have h1 : s1.Canonical := hm.tickCore.ite hm
  split
  · next heq => exact (h1.pick.ofSnd heq).ite (h1.pick.ofSnd heq).quadCycle
  · next heq => exact ((h1.pick.ofSnd heq).ite (h1.pick.ofSnd heq).quadCycle).issueAt

theorem State.Canonical.hubCycle (hm : s.Canonical) : Action.Canonical (s.hubCycle) := by
  unfold State.hubCycle
  extract_lets +onlyGivenNames s1
  have h1 : s1.Canonical := hm.tickHub.ite hm
  split
  · exact h1.upd
  · extract_lets +onlyGivenNames src s2
    have h2 : s2.Canonical := h1.upd
    split
    · exact h2
    · split
      · exact h2
      · exact h2.ulFault

theorem State.Canonical.unit (hm : s.Canonical) {n : Nat} : Action.Canonical (s.unit n) := by
  unfold State.unit
  dsimp only
  split
  · exact hm.unitCycle
  · exact hm.hubCycle

theorem State.Canonical.runDue (hm : s.Canonical) {d : Due} : Action.Canonical (s.runDue d) := hm.upd

theorem State.Canonical.nextAction (hm : s.Canonical) : Action.Canonical s.nextAction := by
  unfold State.nextAction
  split
  · extract_lets +onlyGivenNames t
    have ht : t.Canonical := hm.upd
    split
    · exact ht.upd.runDue
    · exact ht.unit
  · split
    · exact hm.upd.unit
    · exact .ite hm.upd.runDue hm.upd.unit

end Sys2Proof.Machine
end

section
namespace Sys2Proof.Machine

open Sys2Proof

/-- Settles O59: the action that a step takes is of a canonical state, and every instruction and row keeps the form. -/
theorem memoryStaysCanonical : Obligations.MemoryStaysCanonical := by
  intro s t hm h
  have ho : Out.Canonical (step s) := (State.Canonical.nextAction hm).actionOut
  rw [h] at ho
  exact ho

end Sys2Proof.Machine
end

section
/-! SUPPORT. The moves between register classes, and special registers read (R10, R64, R103, R104, R163). -/

namespace Sys2Proof.Machine

open Sys2Proof

/-! An instruction of its cohort alone whose registers, or whose effect, the state decides. -/

/-- Such an instruction that is clear to issue is one of `issueOwn`, with the registers and the effect of that state. -/
theorem issue_onCohort {s : State} {w : Who} {u : Who → State → Uses} {check : Who → State → Option Bad} {f : Who → State → Cohort → Cohort}
    (c : Clear s w (u w s)) (hc : check w s = none) :
    issue u check noHold (fun w t => t.onCohort w.c w.k (f w t)) s = issueOwn (u w s) check (fun w => f w (s.onward w)) s := by
  rw [issue_runs c hc rfl, issueOwn_runs c hc, State.onCohort_some (State.cohort?_setCohort_self ..), State.setCohort_setCohort]

/-! Moves between classes (R103). -/

theorem v2q_writes {s : State} {w : Who} {a d : Nat} (c : Clear s w { vs := [a], ud := [d], eat := some (w.eatOne a (w.h.active w.sp)) }) :
    let m := w.h.active w.sp
    WritesUniform s w (exec (.v2q a d) s) d (if m = 0 then 0 else (w.h.lane a (lowestLane m)).zeroExtend 64) (if m = 0 then 0 else w.h.vtag a) := by
  dsimp only
  rw [exec_v2q, execV2q, issue_onCohort c rfl]
  refine writesUniform _ ?_ c rfl
  by_cases hm : w.h.active w.sp = 0
  · simp only [if_pos hm]
  · simp only [if_neg hm]

theorem q2v_writes {s : State} {w : Who} {o : OpU} (c : Clear s w (laneUses [] [o.a] [o.d] o.g)) :
    WritesLanes s w (exec (.q2v o) s) o.d (w.h.writing w.sp o.g) (if Num.wideTag (w.h.utag o.a) then 0 else w.h.utag o.a)
      fun _ => (w.h.uq o.a).truncate 32 := by
  rw [exec_q2v, execQ2v]
  exact writesLanes _ rfl c rfl

/-! The fields of `tcfg` (R163). -/

/-- A bit of a doubleword as a field of one bit. -/
theorem getLsbD_eq_bitsAt (v : DWord) (i : Nat) : v.getLsbD i = decide (bitsAt v i i = 1) := by
  rw [bitsAt, Nat.add_sub_cancel_left, pow_one, ← Nat.testBit_eq_decide_div_mod_eq]
  rfl

/-- Each field of a handle's `tcfg` fits the bits that R163 gives it. -/
structure Handle.FieldsFit (y : Handle) : Prop where
  rows : y.rows < 2 ^ 8
  cols : y.cols < 2 ^ 9
  tag : y.tag < 2 ^ 6
  layout : y.layout < 2 ^ 3
  breg : y.breg < 2 ^ 5
  owner : y.owner < 2 ^ 5
  log : y.log.length < 2 ^ 4
  phase : y.phase < 2 ^ 5
  frame : y.frame < 2 ^ 8

theorem HState.code_lt (x : HState) : x.code < 2 ^ 3 := by cases x <;> decide

/-- The frame that `tcfg` shows: 0 for a handle that holds none. -/
def Handle.firstFrame (y : Handle) : Nat := if y.frames = 0 then 0 else y.frame

theorem Handle.FieldsFit.firstFrame {y : Handle} (hy : y.FieldsFit) : y.firstFrame < 2 ^ 8 := by
  unfold Handle.firstFrame
  split
  · decide
  · exact hy.frame

theorem Handle.FieldsFit.tcfg_toNat {y : Handle} (hy : y.FieldsFit) :
    y.tcfg.toNat = y.rows + y.cols * 2 ^ 8 + y.tag * 2 ^ 17 + y.layout * 2 ^ 23 + y.breg * 2 ^ 26 + y.bchk.toNat * 2 ^ 31 +
      y.owner * 2 ^ 32 + y.state.code * 2 ^ 37 + y.log.length * 2 ^ 40 + y.phase * 2 ^ 44 + y.firstFrame * 2 ^ 49 := by
  have hchk : (if y.bchk then 2 ^ 31 else 0) = y.bchk.toNat * 2 ^ 31 := by cases y.bchk <;> rfl
  have hframe := hy.firstFrame
  obtain ⟨hrows, hcols, htag, hlayout, hbreg, howner, hlog, hphase, -⟩ := hy
  have hstate := y.state.code_lt
  have hb := y.bchk.toNat_lt
  rw [Handle.tcfg, hchk, BitVec.toNat_ofNat, ← Handle.firstFrame]
  refine Nat.mod_eq_of_lt ?_
  omega

/-- The fields of the doubleword `v` are those of the handle (R163). -/
structure Handle.ShownBy (y : Handle) (v : DWord) : Prop where
  rows : bitsAt v 7 0 = y.rows
  cols : bitsAt v 16 8 = y.cols
  tag : bitsAt v 22 17 = y.tag
  layout : bitsAt v 25 23 = y.layout
  breg : bitsAt v 30 26 = y.breg
  bchk : v.getLsbD 31 = y.bchk
  owner : bitsAt v 36 32 = y.owner
  state : bitsAt v 39 37 = y.state.code
  log : bitsAt v 43 40 = y.log.length
  phase : bitsAt v 48 44 = y.phase
  frame : bitsAt v 56 49 = y.firstFrame
  rest : bitsAt v 63 57 = 0

theorem Handle.FieldsFit.shownBy_tcfg {y : Handle} (hy : y.FieldsFit) : y.ShownBy y.tcfg := by
  have hv := hy.tcfg_toNat
  have hframe := hy.firstFrame
  obtain ⟨hrows, hcols, htag, hlayout, hbreg, howner, hlog, hphase, -⟩ := hy
  have hstate := y.state.code_lt
  have hb := y.bchk.toNat_lt
  generalize y.tcfg = v at *
  have hchk : bitsAt v 31 31 = y.bchk.toNat := by unfold bitsAt; omega
  constructor
  case bchk => rw [getLsbD_eq_bitsAt, hchk]; cases y.bchk <;> rfl
  all_goals unfold bitsAt; omega

/-! Special registers read (R64, R104). -/

/-- R64: the index names a special register. -/
theorem specialOk_iff {s : State} {w : Who} {n : Nat} : specialOk s w n = true ↔
    n ≤ 0xa ∨ n = 0x10 ∨ n = 0x11 ∨ n = 0x18 ∨ n = 0x19 ∨ (0x40 ≤ n ∧ n < 0x40 + s.handleCount w ∧ n < 0x80) := by
  simp [specialOk, or_assoc, and_assoc]

/-- No special register reads where the issuing split is, nor its place in issue order. -/
theorem specialVal_onward (s : State) (w : Who) (n : Nat) : specialVal (s.onward w) w n = specialVal s w n := by
  have hcore : (s.onward w).core w.c = { s.core w.c with cohorts := Tbl.put (s.core w.c).cohorts w.k w.gone } := by simp [State.setCohort]
  have hclock : ((s.onward w).core w.c).lclk = (s.core w.c).lclk := by rw [hcore]
  have hhandle : ∀ m, (s.onward w).myHandle w m = s.myHandle w m := fun m => by rw [State.myHandle, State.block?, hcore]; rfl
  unfold specialVal
  rw [hclock, hhandle]

/-- R163: past the fixed ones, a special register is the `tcfg` of a handle. -/
theorem specialVal_tcfg {s : State} {w : Who} {n : Nat} (hn : 0x40 ≤ n) : specialVal s w n = (s.myHandle w (n - 0x40)).tcfg := by
  unfold specialVal
  split
  case h_15 => rfl
  all_goals omega

/-- What `MOVX` names, where its index is good or bad. -/
def movxUses (x : OpMovx) (illegal : Bool) : Uses :=
  { vd := if x.c = 1 then [] else [x.d], ud := if x.c = 1 then [x.d] else [], whole := x.c = 1, guard := x.g, illegal := illegal }

/-- `MOVX` gives the register that it writes a value, or the low word of it in each writing lane (R104). -/
def MovxGives (s : State) (w : Who) (x : OpMovx) (v : DWord) : Prop :=
  (x.c = 1 → WritesUniform s w (exec (.movx x) s) x.d v 0) ∧
  (x.c ≠ 1 → WritesLanes s w (exec (.movx x) s) x.d (w.h.writing w.sp x.g) 0 fun _ => v.truncate 32)

section
variable {s : State} {w : Who} {x : OpMovx}

theorem movx_illegal (hbad : specialOk s w x.x = false) (c : Reaches s w (movxUses x true)) : Stops s w (exec (.movx x) s) 2 0 0 := by
  rw [exec_movx, execMovx]
  exact issue_stops (b := { code := 2 }) (by rw [hbad]; exact c) (by rw [hbad]; rfl)

variable (hok : specialOk s w x.x = true) (c : Clear s w (movxUses x false))
include hok c

theorem movx_writesUniform (hc : x.c = 1) : WritesUniform s w (exec (.movx x) s) x.d
    (if x.x = 2 then if w.h.writing w.sp x.g = 0 then 0 else BitVec.ofNat 64 (lowestLane (w.h.writing w.sp x.g)) else specialVal s w x.x) 0 := by
  have hclear : Clear s w (movxUses x !specialOk s w x.x) := by rw [hok]; exact c
  rw [exec_movx, execMovx, issue_onCohort hclear rfl]
  refine writesUniform _ ?_ hclear rfl
  simp only [if_pos hc, specialVal_onward]

theorem movx_writesLanes (hc : x.c ≠ 1) : WritesLanes s w (exec (.movx x) s) x.d (w.h.writing w.sp x.g) 0 fun l =>
    if x.x = 2 then BitVec.ofNat 32 l else (specialVal s w x.x).truncate 32 := by
  have hclear : Clear s w (movxUses x !specialOk s w x.x) := by rw [hok]; exact c
  rw [exec_movx, execMovx, issue_onCohort hclear rfl]
  refine writesLanes _ ?_ hclear rfl
  simp only [if_neg hc, specialVal_onward]

theorem movx_gives (hlane : x.x ≠ 2) : MovxGives s w x (specialVal s w x.x) :=
  ⟨fun hc => by simpa only [if_neg hlane] using movx_writesUniform hok c hc, fun hc => by simpa only [if_neg hlane] using movx_writesLanes hok c hc⟩
end

/-- R64: the special registers of fixed index other than `laneid`. -/
theorem movx_fixed {s : State} {w : Who} {x : OpMovx} (c : Clear s w (movxUses x false)) (n : Nat)
    (hn : n ≤ 0xa ∧ n ≠ 2 ∨ n = 0x10 ∨ n = 0x11 ∨ n = 0x18 ∨ n = 0x19) (hx : x.x = n) : MovxGives s w x (specialVal s w n) := by
  subst hx
  exact movx_gives (specialOk_iff.2 (by omega)) c (by omega)

/-- Settles O19, move by move; each special register of fixed index is one case of `movx_fixed`. -/
theorem classMoveResults : Obligations.ClassMoveResults := by
  intro s w a d o x
  refine ⟨v2q_writes, q2v_writes, fun c => ⟨movx_fixed c 0 (by decide), movx_fixed c 1 (by decide), fun hx => ?_, movx_fixed c 3 (by decide),
    movx_fixed c 4 (by decide), movx_fixed c 5 (by decide), movx_fixed c 6 (by decide), movx_fixed c 7 (by decide), movx_fixed c 8 (by decide),
    movx_fixed c 9 (by decide), movx_fixed c 0xa (by decide), movx_fixed c 0x10 (by decide), movx_fixed c 0x11 (by decide),
    movx_fixed c 0x18 (by decide), movx_fixed c 0x19 (by decide), fun hlow hcount hhigh => ?_⟩, fun hnamed c => ?_⟩
  · have hok : specialOk s w x.x = true := specialOk_iff.2 (by omega)
    exact ⟨fun hc => by simpa only [if_pos hx] using movx_writesUniform hok c hc, fun hc => by simpa only [if_pos hx] using movx_writesLanes hok c hc⟩
  · have hgives := movx_gives (specialOk_iff.2 (by omega)) c (by omega)
    refine ⟨_, specialVal_tcfg hlow ▸ hgives, fun hrows hcols htag hlayout hbreg howner hlog hphase hframe => ?_⟩
    have hfit : (s.myHandle w (x.x - 0x40)).FieldsFit := ⟨hrows, hcols, htag, hlayout, hbreg, howner, hlog, hphase, hframe⟩
    obtain ⟨rows, cols, tag, layout, breg, bchk, owner, state, log, phase, frame, rest⟩ := hfit.shownBy_tcfg
    exact ⟨rows, cols, tag, layout, breg, bchk, owner, state, log, phase, frame, rest⟩
  · exact movx_illegal (Bool.eq_false_of_not_eq_true fun hok => hnamed (specialOk_iff.1 hok)) c

end Sys2Proof.Machine
end

section
/-! SUPPORT. The order of values behind the minimum and the maximum (R42, R60). -/

namespace Sys2Proof.Num

/-- R42: no value stands both below and above another. -/
theorem below_asymm {a b : FVal} (ha : a ≠ .nan) (hb : b ≠ .nan) (h : below a b = true) : below b a = false := by
  match a, b with
  | .nan, _ => exact absurd rfl ha
  | _, .nan => exact absurd rfl hb
  | .inf s, .inf t => cases s <;> cases t <;> simp_all [below]
  | .inf s, .fin .. => cases s <;> simp_all [below]
  | .fin .., .inf t => cases t <;> simp_all [below]
  | .fin s m e, .fin t n f =>
    simp only [below, min_comm f e, Bool.or_eq_true, Bool.and_eq_true, decide_eq_true_eq, beq_iff_eq] at h ⊢
    rcases h with hlt | ⟨⟨⟨heq, hs⟩, ht⟩, -⟩
    · simp [hlt.not_gt, hlt.ne']
    · simp_all

/-- R60: numeric order leaves out of R42's order what holds between zeros. -/
theorem below_of_less {a b : FVal} (h : less a b = true) : below a b = true := by
  unfold less at h
  split at h
  case h_4 => exact h
  all_goals cases h

theorem less_eq_false_of_not_below {a b : FVal} (h : ¬ below a b = true) : less a b = false :=
  Bool.eq_false_of_not_eq_true fun hless => h (below_of_less hless)

theorem less_eq_false_of_below {a b : FVal} (ha : a ≠ .nan) (hb : b ≠ .nan) (h : below a b = true) : less b a = false :=
  less_eq_false_of_not_below (by rw [below_asymm ha hb h]; decide)

section
variable {f : Fmt} {a b : Nat}

theorem fmin_nan (h : unpack f a = .nan ∨ unpack f b = .nan) : fmin f a b = f.nan := if_pos h

theorem fmax_nan (h : unpack f a = .nan ∨ unpack f b = .nan) : fmax f a b = f.nan := if_pos h

theorem fminn_left (ha : unpack f a = .nan) (hb : unpack f b ≠ .nan) : fminn f a b = b := by rw [fminn, if_pos ha, if_neg hb]

theorem fmaxn_left (ha : unpack f a = .nan) (hb : unpack f b ≠ .nan) : fmaxn f a b = b := by rw [fmaxn, if_pos ha, if_neg hb]

variable (ha : unpack f a ≠ .nan)
include ha

theorem fminn_right (hb : unpack f b = .nan) : fminn f a b = a := by rw [fminn, if_neg ha, if_pos hb]

theorem fmaxn_right (hb : unpack f b = .nan) : fmaxn f a b = a := by rw [fmaxn, if_neg ha, if_pos hb]

variable (hb : unpack f b ≠ .nan)
include hb

theorem fminn_eq_fmin : fminn f a b = fmin f a b := by rw [fminn, if_neg ha, if_neg hb]

theorem fmaxn_eq_fmax : fmaxn f a b = fmax f a b := by rw [fmaxn, if_neg ha, if_neg hb]

/-- R42: the minimum is one of two numbers, and the other is no less. -/
theorem fmin_cases : fmin f a b = a ∧ less (unpack f b) (unpack f a) = false ∨ fmin f a b = b ∧ less (unpack f a) (unpack f b) = false := by
  rw [fmin, if_neg (not_or.2 ⟨ha, hb⟩)]
  split
  · next h => exact .inr ⟨rfl, less_eq_false_of_below hb ha h⟩
  · next h => exact .inl ⟨rfl, less_eq_false_of_not_below h⟩

/-- R42: the maximum is one of two numbers, and the other is no greater. -/
theorem fmax_cases : fmax f a b = a ∧ less (unpack f a) (unpack f b) = false ∨ fmax f a b = b ∧ less (unpack f b) (unpack f a) = false := by
  rw [fmax, if_neg (not_or.2 ⟨ha, hb⟩)]
  split
  · next h => exact .inr ⟨rfl, less_eq_false_of_below ha hb h⟩
  · next h => exact .inl ⟨rfl, less_eq_false_of_not_below h⟩

end

/-- Settles O8: the cases of NaNs, the numbers by the asymmetry of the order, and the two zeros by computation. -/
theorem floatMinMax : Obligations.FloatMinMax := by
  intro a b _ _
  exact ⟨fun h => ⟨fmin_nan h, fmax_nan h⟩, fun ha hb => ⟨fminn_left ha hb, fmaxn_left ha hb⟩, fun ha hb => ⟨fminn_right ha hb, fmaxn_right ha hb⟩,
    fun ha hb => ⟨fminn_eq_fmin ha hb, fmaxn_eq_fmax ha hb, fmin_cases ha hb, fmax_cases ha hb⟩, by decide, by decide, by decide, by decide⟩

end Sys2Proof.Num
end

section
/-! SUPPORT. The packed-half instructions: the format that the operands' tags give, and the elements of a word (R27, R32, R89). -/

namespace Sys2Proof.Machine

open Sys2Proof

/-- R32: tags that are raw or `t` give the format `t`, where `frm.hfmt` names it for operands that are all raw. -/
theorem halfTag_eq {l : List Nat} {t : Nat} {hfmt : Bool} (ht : t = 0x12 ∨ t = 0x13) (hl : ∀ x ∈ l, x = 0 ∨ x = t)
    (hraw : (∀ x ∈ l, x = 0) → t = if hfmt then 0x13 else 0x12) : halfTag l hfmt = some t := by
  unfold halfTag
  split
  · next hnil =>
    rw [hraw fun x hx => by simpa using List.filter_eq_nil_iff.mp hnil x hx]
  · next x r hcons =>
    have hall : ∀ y ∈ x :: r, y = t := fun y hy => by
      obtain ⟨hy, hne⟩ := List.mem_filter.mp (hcons ▸ hy)
      exact (hl y hy).resolve_left (by simpa using hne)
    obtain rfl : x = t := hall x List.mem_cons_self
    rw [if_pos ⟨ht, by simpa using fun y hy => hall y (List.mem_cons_of_mem _ hy)⟩]

theorem elem_zero (x : Word) : elem x 0 = x.toNat % 2 ^ 16 := by rw [elem, Nat.mul_zero, pow_zero, Nat.div_one]

theorem elem_one (x : Word) : elem x 1 = x.toNat / 2 ^ 16 := by
  have hlt : x.toNat < 2 ^ 32 := x.isLt
  rw [elem, Nat.mul_one, Nat.mod_eq_of_lt (by omega)]

theorem each2_eq (f : Nat → Nat → Nat) :
    each2 f = fun a b => BitVec.ofNat 32 (f (a.toNat % 2 ^ 16) (b.toNat % 2 ^ 16) + 2 ^ 16 * f (a.toNat / 2 ^ 16) (b.toNat / 2 ^ 16)) := by
  funext a b
  simp only [each2, packed, elem_zero, elem_one]

section
variable {s : State} {w : Who} {o : OpA} {t : Nat} {i : Instr}

/-- R89: a packed-half instruction that does not read its destination. -/
theorem packedHalf_writes {g : Num.Fmt → Nat → Word → Word → Word} (c : Clear s w (usesA o))
    (ht : halfTag [w.h.vtag o.a, w.h.tagB o.q o.b] w.sp.hfmt = some t) (hi : exec i s = packedHalf o false (fun f r a b _ => g f r a b) s) :
    LaneOp2 s w o i t (g (halfFmt t) w.sp.mode) := by
  rw [LaneOp2, hi]
  refine writesLanes _ ?_ c ?_
  · simp only [List.append_nil, Bool.false_eq_true, if_false, ht, Option.getD_some]
    rfl
  · simp [tagCheck, ht]

/-- R89: an instruction that computes each element apart. -/
theorem packedHalf_each_writes {g : Num.Fmt → Nat → Nat → Nat → Nat} (c : Clear s w (usesA o))
    (ht : halfTag [w.h.vtag o.a, w.h.tagB o.q o.b] w.sp.hfmt = some t)
    (hi : exec i s = packedHalf o false (fun f r a b _ => each2 (g f r) a b) s) :
    LaneOp2 s w o i t fun a b => BitVec.ofNat 32 (g (halfFmt t) w.sp.mode (a.toNat % 2 ^ 16) (b.toNat % 2 ^ 16) +
      2 ^ 16 * g (halfFmt t) w.sp.mode (a.toNat / 2 ^ 16) (b.toNat / 2 ^ 16)) := by
  simpa only [each2_eq] using packedHalf_writes c ht hi

/-- R89: a packed-half instruction that reads its destination. -/
theorem packedHalf_acc_writes {g : Num.Fmt → Nat → Word → Word → Word → Word} (c : Clear s w (usesAcc o))
    (ht : halfTag [w.h.vtag o.a, w.h.tagB o.q o.b, w.h.vtag o.d] w.sp.hfmt = some t) (hi : exec i s = packedHalf o true g s) :
    LaneOp3 s w o i t (g (halfFmt t) w.sp.mode) := by
  rw [LaneOp3, hi]
  refine writesLanes _ ?_ c ?_
  · simp only [List.cons_append, List.nil_append, if_true, ht, Option.getD_some]
    rfl
  · simp [tagCheck, ht]

end

/-- Settles O11: each instruction is `packedHalf` of its operation, once the tags have given the format. -/
theorem packedHalfResults : Obligations.PackedHalfResults := by
  intro s w o t ht
  refine ⟨fun c hagree => ?_, fun c hagree => ?_⟩
  · have htag := halfTag_eq ht hagree.1 hagree.2
    refine ⟨packedHalf_each_writes c htag exec_hadd, packedHalf_each_writes c htag exec_hsub, packedHalf_each_writes c htag exec_hmul,
      packedHalf_each_writes c htag exec_hmin, packedHalf_each_writes c htag exec_hmax, ?_⟩
    have hdot := packedHalf_writes c htag exec_hdot2
    simp only [packed, elem_zero, elem_one, Nat.mul_zero, Nat.add_zero] at hdot
    exact hdot
  · have hfma := packedHalf_acc_writes c (halfTag_eq ht hagree.1 hagree.2) exec_hfma
    simp only [packed, elem_zero, elem_one] at hfma
    exact hfma

end Sys2Proof.Machine
end

section
/-! SUPPORT. The conversions: tags of blocks and of elements, blocks written, and the dither phase (R29, R31, R38, R93, R94). -/

namespace Sys2Proof.Machine

open Sys2Proof

/-! Tags (R31). -/

theorem sxOf_isSome {tag : Nat} (hgood : Num.goodTag tag = true) (h : 0x20 ≤ tag) : (Num.sxOf tag).isSome = true := by
  simp [Num.goodTag] at hgood
  rw [Num.sxOf, if_pos (by omega)]
  rfl

theorem sxOf_isNone {tag : Nat} (h : tag < 0x20) : Num.sxOf tag = none := if_neg (by omega)

/-- R93: a conversion reads its source. -/
theorem mem_usesCvt (o : OpCvt) (w : Who) : o.a ∈ (usesCvt o w).vs := by
  simp only [usesCvt, laneUses]
  split
  · exact List.mem_cons_self
  · exact List.mem_singleton_self _

/-! Splits and blocks written. -/

theorem Cohort.split?_onSplit_self {h : Cohort} {i : Nat} {sp : Split} (hi : h.split? i = some sp) (f : Split → Split) :
    (h.onSplit i f).split? i = some (f sp) := by
  rw [Cohort.split?] at hi
  rw [Cohort.onSplit, Cohort.split?, Tbl.find?_adj, if_pos rfl, hi, Option.map_some]

theorem Cohort.split?_onSplit_ne (h : Cohort) {i j : Nat} (hj : j ≠ i) (f : Split → Split) : (h.onSplit i f).split? j = h.split? j := by
  rw [Cohort.onSplit, Cohort.split?, Tbl.find?_adj, if_neg hj, Cohort.split?]

/-- R29: each writing lane of a block gets its mantissa, and every lane that is not grey the exponent. -/
theorem Cohort.setBlockLanes_set (h : Cohort) (n : Nat) (m : Mask) (tag e : Nat) (f : Nat → Int) :
    LanesSet h (h.setBlockLanes n m tag e f) n (if m = 0 then 0 else ~~~h.dmask) tag
      fun l => if inMask m l then sxWord e (f l) else BitVec.ofNat 32 (e * 2 ^ 24 + (h.lane n l).toNat % 2 ^ 24) := by
  unfold Cohort.setBlockLanes
  split
  · have hset := Cohort.setLanes_set h n 0 tag fun _ => 0
    exact ⟨fun l hl => by simpa [inMask] using hset.words l hl, hset.tag, hset.poison, hset.others⟩
  · exact Cohort.setLanes_set ..

/-! The effect of a conversion: lane registers and, under DTH, the phase (R38). -/

/-- The split past a conversion. -/
def Who.converted (w : Who) : Split := if w.sp.frm.toNat % 8 = 5 then { w.past with dph := w.sp.dph + 1 } else w.past

/-- A conversion that writes lane registers by `x`, whatever `regs` says of them. -/
theorem converts {s : State} {w : Who} {u : Uses} {check : Who → State → Option Bad} {f : Who → Cohort → Cohort} {x : Cohort}
    {regs : Cohort → Prop} (c : Clear s w u) (hc : check w s = none) (hf : f w w.gone = x.advancePhase w)
    (hx : ∃ v y, x = { w.gone with v := v, dirty := y }) (hregs : ∀ l, regs { x with splits := l }) :
    Completes s w (issueOwn u check f s) fun h =>
      WentOn w w.converted h ∧ SameBut w.h h ∧ regs h ∧ SameUniform w.h h ∧ SamePreds w.h h := by
  refine issueOwn_completes c hc ?_
  have hwent := Who.gone_wentOn c.who
  obtain ⟨v, y, rfl⟩ := hx
  rw [hf, Who.converted, Cohort.advancePhase, Split.mode]
  split
  · exact ⟨⟨Cohort.split?_onSplit_self hwent.here _, fun j hj => (Cohort.split?_onSplit_ne _ hj _).trans (hwent.others j hj), rfl⟩,
      w.gone_sameBut, hregs _, fun _ => ⟨rfl, rfl⟩, fun _ => rfl⟩
  · exact ⟨⟨hwent.here, hwent.others, rfl⟩, w.gone_sameBut, hregs w.gone.splits, fun _ => ⟨rfl, rfl⟩, fun _ => rfl⟩

section
variable {s : State} {w : Who} {o : OpCvt} {bad : Who → Bool}

/-- A conversion is of its cohort alone. -/
theorem convertLanes_eq (c : Clear s w (usesCvt o w)) (hbad : bad w = false) : convertLanes o bad s =
    issueOwn (usesCvt o w) (tagCheck bad) (fun w h => if (Num.sxOf o.t).isSome then h.toBlock w o else h.toElems w o) s :=
  issue_onCohort (u := fun w _ => usesCvt o w) (f := fun w _ h => if (Num.sxOf o.t).isSome then h.toBlock w o else h.toElems w o) c
    (by rw [tagCheck, hbad]; rfl)

/-- R94: the block that the writing lanes' values make. -/
def Who.block (w : Who) (o : OpCvt) : Nat × List Int :=
  Num.toSX ((List.range 32).map fun l => if inMask (w.h.writing w.sp o.g) l then w.h.elemVal o.a l else Num.FVal.fin false 0 0)
    (o.t - 0x20) (o.s == 1) w.sp.mode w.sp.dph.toNat

/-- R93: the bits of a lane's converted element. -/
def Who.element (w : Who) (o : OpCvt) (l : Nat) : Nat :=
  if o.t = 0 then w.h.elemBits o.a l
  else Num.convert (w.h.vtag o.a) (w.h.sxExp o.a) o.t (o.s == 1) w.sp.mode l w.sp.dph.toNat (w.h.elemBits o.a l)

variable (c : Clear s w (usesCvt o w)) (hbad : bad w = false)
include c hbad

theorem convertLanes_block (ht : (Num.sxOf o.t).isSome = true) : Completes s w (convertLanes o bad s) fun h =>
    WentOn w w.converted h ∧ SameBut w.h h ∧
      LanesSet w.h h o.d (if w.h.writing w.sp o.g = 0 then 0 else ~~~w.h.dmask) o.t
        (fun l => if inMask (w.h.writing w.sp o.g) l then sxWord (w.block o).1 ((w.block o).2.getD l 0)
          else BitVec.ofNat 32 ((w.block o).1 * 2 ^ 24 + (w.h.lane o.d l).toNat % 2 ^ 24)) ∧
      SameUniform w.h h ∧ SamePreds w.h h := by
  rw [convertLanes_eq c hbad]
  have hset := (Cohort.setBlockLanes_set w.gone o.d (w.h.writing w.sp o.g) o.t (w.block o).1 fun l => (w.block o).2.getD l 0).ofGone
  refine converts c (by rw [tagCheck, hbad]; rfl) (if_pos ht) ?_ fun l => ⟨hset.words, hset.tag, hset.poison, hset.others⟩
  unfold Cohort.setBlockLanes
  split <;> exact ⟨_, _, rfl⟩

theorem convertLanes_elements (ht : Num.sxOf o.t = none) : Completes s w (convertLanes o bad s) fun h =>
    WentOn w w.converted h ∧ SameBut w.h h ∧
      (if wideDest (w.h.vtag o.a) o.t = true then PairSet w.h h o.d (w.h.writing w.sp o.g) o.t fun l => BitVec.ofNat 64 (w.element o l)
        else LanesSet w.h h o.d (w.h.writing w.sp o.g) o.t fun l => BitVec.ofNat 32 (w.element o l)) ∧
      SameUniform w.h h ∧ SamePreds w.h h := by
  rw [convertLanes_eq c hbad]
  refine converts c (by rw [tagCheck, hbad]; rfl) (if_neg (by rw [ht]; decide)) ?_ fun l => ?_
  · split
    · exact Cohort.setPair_only ..
    · exact ⟨_, _, rfl⟩
  · by_cases hwide : wideDest (w.h.vtag o.a) o.t = true
    · simp only [if_pos hwide]
      have hset := (Cohort.setPair_set w.gone o.d (w.h.writing w.sp o.g) o.t fun l => BitVec.ofNat 64 (w.element o l)).ofGone
      exact ⟨hset.words, hset.tags, hset.others⟩
    · simp only [if_neg hwide]
      have hset := (Cohort.setLanes_set w.gone o.d (w.h.writing w.sp o.g) o.t fun l => BitVec.ofNat 32 (w.element o l)).ofGone
      exact ⟨hset.words, hset.tag, hset.poison, hset.others⟩

end

/-- Settles O15, by whether the target, and for `CVTB` the source, is a block. -/
theorem conversionResults : Obligations.ConversionResults := by
  intro s w o c hgood hpair
  have hbad : badCvt o w = false := by
    rw [badCvt, hgood, Bool.not_true, Bool.false_or]
    simpa using hpair
  refine ⟨fun ht => ?_, fun ht => ⟨?_, fun hsrc => ?_, fun hsrc => ?_⟩⟩
  · have hblock := sxOf_isSome hgood ht
    exact ⟨convertLanes_block c hbad hblock, convertLanes_block c (by rw [hbad, Option.isNone_eq_false_iff.2 hblock]; rfl) hblock⟩
  · exact convertLanes_elements c hbad (sxOf_isNone ht)
  · have hblock := sxOf_isSome (c.laneTags o.a (mem_usesCvt o w)) hsrc
    exact convertLanes_elements c (by rw [hbad, Option.isNone_eq_false_iff.2 hblock, Bool.and_false]; rfl) (sxOf_isNone ht)
  · exact issue_traps (b := { code := 6 }) (u := fun w _ => usesCvt o w) c
      (by rw [tagCheck, sxOf_isNone ht, sxOf_isNone hsrc, hbad]; rfl)

end Sys2Proof.Machine
end

section
/-! SUPPORT. `VOTE.ballot`, the reductions and the scans (R44, R45, R98, R99). -/

namespace Sys2Proof.Machine

open Sys2Proof

theorem voteBallot_writes {s : State} {w : Who} {v : OpVoteB} (c : Clear s w (laneUses [] [] [v.d] v.g)) :
    WritesLanes s w (exec (.voteBallot v) s) v.d (w.h.writing w.sp v.g) 0 fun _ => w.h.pred v.s &&& w.h.writing w.sp v.g := by
  rw [exec_voteBallot, execVoteBallot]
  exact writesLanes _ rfl c rfl

/-- What a lane instruction writes rests on the 32 lanes. -/
theorem WritesLanes.congr {s : State} {w : Who} {r : Out} {d tag : Nat} {m : Mask} {f g : Nat → Word} (h : WritesLanes s w r d m tag f)
    (hfg : ∀ l, l < 32 → f l = g l) : WritesLanes s w r d m tag g := by
  obtain ⟨t, h', hr, honly, hat, hwent, hsame, hset, hrest⟩ := h
  exact ⟨t, h', hr, honly, hat, hwent, hsame, ⟨fun l hl => by rw [hset.words l hl, hfg l hl], hset.tag, hset.poison, hset.others⟩, hrest⟩

/-- R45: the lanes up to `l`. -/
theorem take_range_map {α : Type} (f : Nat → α) {l : Nat} (hl : l < 32) :
    ((List.range 32).map f).take (l + 1) = (List.range (l + 1)).map f := by
  rw [← List.map_take, List.take_range, Nat.min_eq_left hl]

/-- The tag that a reduction and a scan give (R99). -/
theorem redTag_eq (k : Nat) : (if isFloatOp k then 0x11 else 0) = if k < 8 then 0 else 0x11 := by
  simp only [isFloatOp, decide_eq_true_eq, ← Nat.not_lt, ite_not]

section
variable {s : State} {w : Who} {o : OpRed} (c : Clear s w (laneUses [o.a] [] [o.d] o.g))
include c

/-- R44: the reduction gives each writing lane the pairwise tree of the contributing lanes. -/
theorem red_writes (hbad : badRed o w = false) : WritesLanes s w (exec (.red o) s) o.d (w.h.writing w.sp o.g) (if o.k < 8 then 0 else 0x11)
    fun _ => (pairwiseTree o.k w.sp.mode (w.contrib o)).getD 0 := by
  rw [exec_red, execRed, redTag_eq]
  exact writesLanes _ rfl c (by rw [tagCheck, hbad]; rfl)

/-- R45: the scan gives each writing lane the fold of the contributing lanes up to it. -/
theorem scan_writes (hbad : badRed o w = false) : WritesLanes s w (exec (.scan o) s) o.d (w.h.writing w.sp o.g) (if o.k < 8 then 0 else 0x11)
    fun l => (((List.range (l + 1)).map fun l => if inMask (w.h.writing w.sp o.g) l then some (w.h.lane o.a l) else none).foldl
      (combineOpt o.k w.sp.mode) none).getD 0 := by
  rw [exec_scan, execScan, redTag_eq]
  refine WritesLanes.congr (writesLanes _ rfl c (by rw [tagCheck, hbad]; rfl)) fun l hl => ?_
  rw [Who.contrib, take_range_map _ hl]

end

/-- Settles O18: the tag decides between the values and the fault. -/
theorem reductionResults : Obligations.ReductionResults := by
  intro s w v o
  refine ⟨voteBallot_writes, fun c htag => ?_, fun c hk hraw hfp => ?_⟩
  · have hbad : badRed o w = false := by
      rcases htag with hk | ht | ht
      · simp [badRed, isFloatOp, hk]
      all_goals simp [badRed, wrongTag, ht]
    exact ⟨red_writes c hbad, scan_writes c hbad⟩
  · have hbad : tagCheck (badRed o) w s = some { code := 6 } := by simp [tagCheck, badRed, isFloatOp, wrongTag, hk, hraw, hfp]
    exact ⟨issue_traps (u := fun _ _ => laneUses [o.a] [] [o.d] o.g) c hbad, issue_traps (u := fun _ _ => laneUses [o.a] [] [o.d] o.g) c hbad⟩

end Sys2Proof.Machine
end

section
/-! SUPPORT. Blocks and their handles read after a write (R54, R161). -/

namespace Sys2Proof.Machine

open Sys2Proof

@[simp] theorem State.block?_setCohort (s : State) (c k : Nat) (h : Cohort) (d b : Nat) : (s.setCohort c k h).block? d b = s.block? d b := by
  by_cases hd : d = c
  · subst hd; simp [State.block?, State.setCohort]
  · simp [State.block?, State.setCohort, State.core_onCore_ne _ _ hd]

@[simp] theorem State.block?_setBlock_self (s : State) (c b : Nat) (x : Block) : (s.setBlock c b x).block? c b = some x := by
  simp [State.block?, State.setBlock]

@[simp] theorem State.cohort?_setBlock (s : State) (c b : Nat) (x : Block) (d k : Nat) : (s.setBlock c b x).cohort? d k = s.cohort? d k := by
  by_cases hd : d = c
  · subst hd; simp [State.cohort?, State.setBlock]
  · simp [State.cohort?, State.setBlock, State.core_onCore_ne _ _ hd]

theorem State.onBlock_some {s : State} {c b : Nat} {x : Block} (hb : s.block? c b = some x) (f : Block → Block) :
    s.onBlock c b f = s.setBlock c b (f x) := by
  rw [State.onBlock, hb]

theorem State.setHandle_of_block {s : State} {c b : Nat} {bl : Block} (hb : s.block? c b = some bl) (n : Nat) (x : Handle) :
    s.setHandle c b n x = s.setBlock c b { bl with handles := Tbl.put bl.handles n x } := by
  rw [State.setHandle, State.onBlock_some hb]

theorem State.myHandle_of_block {s : State} {w : Who} {bl : Block} (hb : s.block? w.c w.h.slot = some bl) (n : Nat) :
    s.myHandle w n = Tbl.at bl.handles n {} := by
  rw [State.myHandle, hb, Option.elim_some]

@[simp] theorem State.myHandle_onward (s : State) (w : Who) (n : Nat) : (s.onward w).myHandle w n = s.myHandle w n := by
  rw [State.myHandle, State.myHandle, State.block?_setCohort]

end Sys2Proof.Machine
end

section
/-! SUPPORT. Writes of special registers (R34, R64, R104, R163, R164). -/

namespace Sys2Proof.Machine

open Sys2Proof

/-! What `MOVS` names, and the value that it writes. -/

/-- What `MOVS` names, where its index and its mode are good or bad. -/
def movsUses (o : OpMovs) (w : Who) (illegal : Bool) : Uses :=
  { vs := if o.c = 1 then [] else [o.d], us := if o.c = 1 then [o.d] else [], illegal := illegal,
    eat := if o.c = 1 then none else some (w.eatOne o.d (w.h.active w.sp)) }

theorem execMovs_eq (o : OpMovs) (s : State) : execMovs o s =
    issue (fun w t => movsUses o w (!(specialOk t w o.x && specialRw o.x) || badMode o w)) (movsCheck o) noHold
      (fun w t => match movsVal o w with
        | none => t
        | some v => t.writeSpecial w o.x v) s := rfl

/-- R64: the special registers of fixed index that software may write. -/
def FixedRw (x : Nat) : Prop := x = 0 ∨ x = 0x10 ∨ x = 0x11 ∨ x = 0x18

theorem FixedRw.special_ok {x : Nat} (h : FixedRw x) (s : State) (w : Who) : (specialOk s w x && specialRw x) = true := by
  rw [Bool.and_eq_true]
  exact ⟨specialOk_iff.2 (by unfold FixedRw at h; omega), by rcases h with rfl | rfl | rfl | rfl <;> rfl⟩

theorem FixedRw.lt {x : Nat} (h : FixedRw x) : x < 0x40 := by rcases h with rfl | rfl | rfl | rfl <;> decide

theorem special_bad {s : State} {w : Who} {x : Nat} (hfixed : ¬ FixedRw x) (h : x < 0x40 ∨ 0x40 + s.handleCount w ≤ x ∨ 0x80 ≤ x) :
    (specialOk s w x && specialRw x) = false := by
  refine Bool.eq_false_of_not_eq_true fun hok => ?_
  obtain ⟨hok, hrw⟩ := Bool.and_eq_true_iff.mp hok
  have hnamed := specialOk_iff.1 hok
  simp only [FixedRw, specialRw, Bool.or_eq_true, beq_iff_eq, Bool.and_eq_true, decide_eq_true_eq] at hfixed hrw
  omega

theorem special_handle_ok {s : State} {w : Who} {x n : Nat} (hx : x = 0x40 + n) (hn : n < 64) (hcount : n < s.handleCount w) :
    (specialOk s w x && specialRw x) = true := by
  rw [Bool.and_eq_true]
  exact ⟨specialOk_iff.2 (by omega), by simp [specialRw]; omega⟩

section
variable {s : State} {w : Who} {o : OpMovs}

theorem movs_illegal (hbad : (!(specialOk s w o.x && specialRw o.x) || badMode o w) = true) (c : Reaches s w (movsUses o w true)) :
    Stops s w (exec (.movs o) s) 2 0 0 := by
  rw [exec_movs, execMovs_eq]
  exact issue_stops (b := { code := 2 }) (by rw [hbad]; exact c) (by rw [hbad]; rfl)

theorem badMode_of_ne (h : o.x ≠ 0x10) : badMode o w = false := by rw [badMode, beq_false_of_ne h, Bool.false_and]

theorem badMode_of_none (h : movsVal o w = none) : badMode o w = false := by rw [badMode, h, Option.any_none, Bool.and_false]

/-- R104: with no active lane no register is written. -/
theorem movs_none (hx : FixedRw o.x) (c : Clear s w (movsUses o w false)) (hv : movsVal o w = none) :
    MovesOn s w (exec (.movs o) s) w.past.pc := by
  have hclear : Clear s w (movsUses o w (!(specialOk s w o.x && specialRw o.x) || badMode o w)) := by
    rw [hx.special_ok s w, badMode_of_none hv]; exact c
  rw [exec_movs, execMovs_eq, issue_runs hclear (if_pos hx.lt) rfl, hv]
  exact ⟨_, _, rfl, State.setCohort_only .., State.cohort?_setCohort_self .., Who.gone_wentOn c.who, w.gone_sameBut, fun _ => rfl,
    fun _ => ⟨rfl, rfl⟩, fun _ => rfl⟩

variable {v : DWord} (hv : movsVal o w = some v)
include hv

theorem movs_runs (hok : (specialOk s w o.x && specialRw o.x) = true) (hmode : badMode o w = false) (hcheck : movsCheck o w s = none)
    (c : Clear s w (movsUses o w false)) : exec (.movs o) s = .next ((s.onward w).writeSpecial w o.x v) := by
  have hclear : Clear s w (movsUses o w (!(specialOk s w o.x && specialRw o.x) || badMode o w)) := by
    rw [hok, hmode]; exact c
  rw [exec_movs, execMovs_eq, issue_runs hclear hcheck rfl, hv]

theorem movs_fixed_runs (hx : FixedRw o.x) (hmode : badMode o w = false) (c : Clear s w (movsUses o w false)) :
    exec (.movs o) s = .next ((s.onward w).writeSpecial w o.x v) :=
  movs_runs hv (hx.special_ok s w) hmode (if_pos hx.lt) c

/-- R34, R104: a register of the split. -/
theorem movs_split (hx : FixedRw o.x) (hmode : badMode o w = false) (c : Clear s w (movsUses o w false)) {f : Cohort → Split → Split}
    (hf : (s.onward w).writeSpecial w o.x v = (s.onward w).onCohort w.c w.k fun h => h.onSplit w.i (f h)) :
    Completes s w (exec (.movs o) s) fun h =>
      WentOn w (f w.gone w.past) h ∧ SameBut w.h h ∧ SameLanes w.h h ∧ SameUniform w.h h ∧ SamePreds w.h h := by
  have hwent := Who.gone_wentOn c.who
  rw [movs_fixed_runs hv hx hmode c, hf, State.onCohort_some (State.cohort?_setCohort_self ..), State.setCohort_setCohort]
  exact ⟨_, _, rfl, State.setCohort_only .., State.cohort?_setCohort_self ..,
    ⟨Cohort.split?_onSplit_self hwent.here _, fun j hj => (Cohort.split?_onSplit_ne _ hj _).trans (hwent.others j hj), rfl⟩, w.gone_sameBut,
    fun _ => rfl, fun _ => ⟨rfl, rfl⟩, fun _ => rfl⟩

/-- R34, R69: no mode 6 or 7. -/
theorem movs_badMode (hx : o.x = 0x10) (hmode : 6 ≤ v.toNat % 8) (c : Clear s w (movsUses o w false)) : Stops s w (exec (.movs o) s) 2 0 0 := by
  have hbad : badMode o w = true := by simp [badMode, hx, hv, hmode]
  exact movs_illegal (by rw [hbad, Bool.or_true]) ⟨c.who, c.ready, c.free, c.onward, c.unheld⟩

/-- R104: a bit of `bstat` that is written as 1 clears. -/
theorem movs_bstat (hx : o.x = 0x18) (c : Clear s w (movsUses o w false)) : Completes s w (exec (.movs o) s) fun h =>
    WentOn w w.past h ∧ h.bstat = w.h.bstat &&& ~~~(v.truncate 32) ∧ SameBut w.h { h with bstat := w.h.bstat } ∧ SameLanes w.h h ∧
      SameUniform w.h h ∧ SamePreds w.h h := by
  have hwent := Who.gone_wentOn c.who
  rw [movs_fixed_runs hv (by unfold FixedRw; omega) (badMode_of_ne (by omega)) c, hx, State.writeSpecial,
    State.onCohort_some (State.cohort?_setCohort_self ..), State.setCohort_setCohort]
  exact ⟨_, _, rfl, State.setCohort_only .., State.cohort?_setCohort_self .., ⟨hwent.here, hwent.others, rfl⟩, rfl, w.gone_sameBut, fun _ => rfl,
    fun _ => ⟨rfl, rfl⟩, fun _ => rfl⟩

/-! `tcfg` (R163, R164). -/

section
variable {n : Nat} {bl : Block} (hx : o.x = 0x40 + n) (hn : n < 64) (hcount : n < s.handleCount w)
  (hb : s.block? w.c w.h.slot = some bl) (c : Clear s w (movsUses o w false))
include hx hn hcount hb c

theorem movs_tcfg_runs (hcheck : tcfgBad (Tbl.at bl.handles n {}) v = none) :
    ∃ t, exec (.movs o) s = .next t ∧ t.cohort? w.c w.k = some w.gone ∧ t.mem = s.mem ∧
      t.block? w.c w.h.slot = some { bl with handles := Tbl.put bl.handles n ((Tbl.at bl.handles n {}).configure v) } := by
  have hwrite : (s.onward w).writeSpecial w o.x v =
      (s.onward w).setHandle w.c w.h.slot n ((Tbl.at bl.handles n {}).configure v) := by
    unfold State.writeSpecial
    split
    case h_5 => rw [State.myHandle_onward, State.myHandle_of_block hb, hx, Nat.add_sub_cancel_left]
    all_goals omega
  have hnone : movsCheck o w s = none := by
    rw [movsCheck, if_neg (by omega), hv, hx, Nat.add_sub_cancel_left, State.myHandle_of_block hb]
    exact hcheck
  rw [movs_runs hv (special_handle_ok hx hn hcount) (badMode_of_ne (by omega)) hnone c, hwrite,
    State.setHandle_of_block ((State.block?_setCohort ..).trans hb)]
  exact ⟨_, rfl, (State.cohort?_setBlock ..).trans (State.cohort?_setCohort_self ..), rfl, State.block?_setBlock_self ..⟩

theorem movs_tcfg_stops {b : Bad} (hcheck : tcfgBad (Tbl.at bl.handles n {}) v = some b) :
    Stops s w (exec (.movs o) s) b.code b.sub b.addr := by
  have hclear : Clear s w (movsUses o w (!(specialOk s w o.x && specialRw o.x) || badMode o w)) := by
    rw [special_handle_ok hx hn hcount, badMode_of_ne (by omega)]; exact c
  rw [exec_movs, execMovs_eq]
  refine issue_traps (u := fun w t => movsUses o w (!(specialOk t w o.x && specialRw o.x) || badMode o w)) hclear ?_
  rw [movsCheck, if_neg (by omega), hv, hx, Nat.add_sub_cancel_left, State.myHandle_of_block hb]
  exact hcheck

end
end

/-- R163: the state of the handle lets its configuration be written. -/
theorem HState.open_iff (x : HState) : (x != .free && x != .released) = false ↔ x = .free ∨ x = .released := by cases x <;> decide

/-- R164: what the configuration written may not be, for a tag that is not reserved. -/
theorem tcfg_operand_iff {tag layout : Nat} (hgood : Num.goodTag tag = true) :
    (4 ≤ layout || tag == 0 || ((Num.sxOf tag).isSome != decide (2 ≤ layout))) = true ↔ 4 ≤ layout ∨ tag = 0 ∨ (0x20 ≤ tag ↔ layout < 2) := by
  have hblock : (Num.sxOf tag).isSome = decide (0x20 ≤ tag) := by
    by_cases h : 0x20 ≤ tag
    · rw [sxOf_isSome hgood h, decide_eq_true h]
    · rw [sxOf_isNone (by omega), decide_eq_false h]; rfl
  have hlayout : decide (2 ≤ layout) = !decide (layout < 2) := by
    rw [← decide_not]; exact decide_eq_decide.2 Nat.not_lt.symm
  rw [hblock, hlayout]
  by_cases h1 : 0x20 ≤ tag <;> by_cases h2 : layout < 2 <;> simp [h1, h2]

theorem movsVal_uniform {o : OpMovs} {w : Who} (h : o.c = 1) : movsVal o w = some (w.h.uq o.d) := if_pos h

theorem movsVal_lane {o : OpMovs} {w : Who} (hc : o.c ≠ 1) (hact : w.h.active w.sp ≠ 0) :
    movsVal o w = some ((w.h.lane o.d (lowestLane (w.h.active w.sp))).zeroExtend 64) := by
  rw [movsVal, if_neg hc]
  exact if_neg hact

theorem movsVal_none {o : OpMovs} {w : Who} (hc : o.c ≠ 1) (hact : w.h.active w.sp = 0) : movsVal o w = none := by
  rw [movsVal, if_neg hc]
  exact if_pos hact

theorem movsUses_false (o : OpMovs) (w : Who) : movsUses o w false =
    if o.c = 1 then { us := [o.d] } else { vs := [o.d], eat := some (w.eatOne o.d (w.h.active w.sp)) } := by
  unfold movsUses
  split <;> rfl

theorem movsUses_true (o : OpMovs) (w : Who) : movsUses o w true = { movsUses o w false with illegal := true } := rfl

/-- Settles O20, register by register. -/
theorem specialWriteResults : Obligations.SpecialWriteResults := by
  intro s w c x d v i act uses moved
  have huses : uses = movsUses { c := c, x := x, d := d } w false := (movsUses_false { c := c, x := x, d := d } w).symm
  rw [huses]
  refine ⟨fun hclear hval => ?_, fun hclear hc hact hx => ?_, fun hfixed hx hreach => ?_⟩
  · have hv : movsVal { c := c, x := x, d := d } w = some v := by
      rcases hval with ⟨hc, rfl⟩ | ⟨hc, hact, rfl⟩
      · exact movsVal_uniform hc
      · exact movsVal_lane hc hact
    refine ⟨?_, fun hx hmode => ?_, fun hx hmode => movs_badMode hv hx hmode hclear, ?_, fun hx => movs_bstat hv hx hclear, ?_⟩
    · rintro rfl
      exact movs_split hv (.inl rfl) rfl hclear rfl
    · subst hx
      exact movs_split hv (.inr (.inl rfl)) (by simp [badMode, hv, Nat.not_le.mpr hmode]) hclear rfl
    · rintro rfl
      exact movs_split hv (.inr (.inr (.inl rfl))) rfl hclear rfl
    · intro n bl hx hn hcount hb y tag layout open_ operand z
      have hstops {b : Bad} (h : tcfgBad y v = some b) := movs_tcfg_stops hv hx hn hcount hb hclear h
      refine ⟨fun htag => hstops (b := { code := 6 }) ?_, fun htag hopen => hstops (b := { code := 8 }) ?_,
        fun htag hopen hop => hstops (b := { code := 9 }) ?_, fun htag hopen hop => movs_tcfg_runs hv hx hn hcount hb hclear ?_⟩
      · rw [tcfgBad, htag]; rfl
      · rw [tcfgBad, htag, Bool.eq_true_of_not_eq_false (mt (HState.open_iff _).1 hopen)]; rfl
      · rw [tcfgBad, htag, (HState.open_iff _).2 hopen, (tcfg_operand_iff htag).2 hop]; rfl
      · rw [tcfgBad, htag, (HState.open_iff _).2 hopen, Bool.eq_false_of_not_eq_true (mt (tcfg_operand_iff htag).1 hop)]; rfl
  · exact movs_none hx hclear (movsVal_none hc hact)
  · refine movs_illegal ?_ (by rw [movsUses_true]; exact hreach)
    rw [special_bad (by simpa [FixedRw] using hfixed) hx]; rfl

end Sys2Proof.Machine
end

section
/-! SUPPORT. The faults at issue in their order (R32, R33, R54, R69, R161, R321). -/

namespace Sys2Proof.Machine

open Sys2Proof

/-! What an instruction names and checks at issue. -/

/-- In `s` the instruction names `u` and has faults of its own by `check`. -/
def IssuesAs (s : State) (i : Instr) (u : Who → State → Uses) (check : Who → State → Option Bad) : Prop :=
  ∃ hold body, exec i s = issue u check hold body s

theorem IssuesAs.stops {s : State} {i : Instr} {w : Who} {u : Who → State → Uses} {check : Who → State → Option Bad} {b : Bad}
    (h : IssuesAs s i u check) (c : Reaches s w (u w s)) (hf : s.issueFault w (u w s) check = some b) :
    Stops s w (exec i s) b.code b.sub b.addr := by
  obtain ⟨hold, body, hi⟩ := h
  rw [hi]
  exact issue_stops c hf

/-! The order of the faults (R69). -/

section
variable {s : State} {w : Who} {u : Uses} (check : Who → State → Option Bad)

theorem issueFault_illegal (h : u.bad w.h.budget (s.handleCount w) = true) : s.issueFault w u check = some { code := 2 } := if_pos h

/-- R54: a handle at or above the block's count is an illegal field. -/
theorem bad_of_handle {n : Nat} (hmem : n ∈ u.hs ++ u.fresh) (h : s.handleCount w ≤ n) : u.bad w.h.budget (s.handleCount w) = true := by
  have hany : (u.hs ++ u.fresh).any (s.handleCount w ≤ ·) = true := List.any_eq_true.mpr ⟨n, hmem, decide_eq_true h⟩
  simp only [Uses.bad, hany, Bool.or_true, Bool.true_or]

variable (hlegal : u.bad w.h.budget (s.handleCount w) = false) (hodd : u.odd = none)
include hlegal hodd

theorem issueFault_priv (hpriv : u.priv = true) (h : w.h.handler = false) : s.issueFault w u check = some { code := 3 } := by
  simp [State.issueFault, hlegal, hodd, hpriv, h]

theorem issueFault_handle (hpriv : u.priv = false) {b : Bad} (h : s.freeHandle w u = some b) : s.issueFault w u check = some b := by
  simp [State.issueFault, hlegal, hodd, hpriv, h]

variable (hpriv : u.priv = false) (hhs : u.hs = [])
include hpriv hhs

/-- With no handle named and no privilege asked for, the tags come next. -/
theorem issueFault_tags : s.issueFault w u check =
    if u.vs.any (fun r => !Num.goodTag (w.h.vtag r)) || u.us.any (fun r => !Num.goodTag (w.h.utag r)) then some { code := 6 }
    else check w s := by
  have hfree : s.freeHandle w u = none := by
    unfold State.freeHandle
    split
    · rfl
    · rw [hhs]; rfl
  simp [State.issueFault, hlegal, hodd, hpriv, hfree]

theorem issueFault_reserved (h : ∃ r ∈ u.vs, Num.goodTag (w.h.vtag r) = false) : s.issueFault w u check = some { code := 6 } := by
  obtain ⟨r, hr, hbad⟩ := h
  have hany : (u.vs.any fun r => !Num.goodTag (w.h.vtag r)) = true := List.any_eq_true.mpr ⟨r, hr, by rw [hbad]; rfl⟩
  rw [issueFault_tags check hlegal hodd hpriv hhs, hany, Bool.true_or, if_pos rfl]

theorem issueFault_own (hv : ∀ r ∈ u.vs, Num.goodTag (w.h.vtag r) = true) (hu : ∀ r ∈ u.us, Num.goodTag (w.h.utag r) = true) :
    s.issueFault w u check = check w s := by
  have hvs : (u.vs.any fun r => !Num.goodTag (w.h.vtag r)) = false := List.any_eq_false.mpr fun r hr => by rw [hv r hr]; decide
  have hus : (u.us.any fun r => !Num.goodTag (w.h.utag r)) = false := List.any_eq_false.mpr fun r hr => by rw [hu r hr]; decide
  rw [issueFault_tags check hlegal hodd hpriv hhs, hvs, hus]
  rfl

end

/-! Lane instructions, whose faults at issue lie in their registers and tags. -/

/-- The names of a lane instruction: no branch target, no privilege and no handle. -/
structure LaneNames (u : Uses) : Prop where
  odd : u.odd = none
  priv : u.priv = false
  hs : u.hs = []

/-- The instruction has reached its own check: what comes before finds no fault. -/
def Sound (s : State) (w : Who) (u : Uses) : Prop := Reaches s w u ∧ u.bad w.h.budget (s.handleCount w) = false ∧
  (∀ r ∈ u.vs, Num.goodTag (w.h.vtag r) = true) ∧ ∀ r ∈ u.us, Num.goodTag (w.h.utag r) = true

section
variable {s : State} {w : Who} {u : Uses} {i : Instr} {check : Who → State → Option Bad}

theorem IssuesAs.stops_illegal (h : IssuesAs s i (fun _ _ => u) check) (c : Reaches s w u) (hbad : u.bad w.h.budget (s.handleCount w) = true) :
    Stops s w (exec i s) 2 0 0 := h.stops c (issueFault_illegal check hbad)

theorem IssuesAs.stops_reserved (h : IssuesAs s i (fun _ _ => u) check) (hu : LaneNames u) (c : Reaches s w u)
    (hlegal : u.bad w.h.budget (s.handleCount w) = false) (htag : ∃ r ∈ u.vs, Num.goodTag (w.h.vtag r) = false) :
    Stops s w (exec i s) 6 0 0 := h.stops c (issueFault_reserved check hlegal hu.odd hu.priv hu.hs htag)

theorem IssuesAs.stops_tag {f : Who → Bool} (h : IssuesAs s i (fun _ _ => u) (tagCheck f)) (hu : LaneNames u) (c : Sound s w u)
    (hf : f w = true) : Stops s w (exec i s) 6 0 0 := by
  obtain ⟨hreach, hlegal, hvs, hus⟩ := c
  have hcheck : tagCheck f w s = some { code := 6 } := if_pos hf
  exact h.stops hreach ((issueFault_own _ hlegal hu.odd hu.priv hu.hs hvs hus).trans hcheck)

end

/-! Which instructions name and check what. -/

theorem laneInt_issue (s : State) (o : OpA) : ∀ i ∈ [Instr.iadd o, .isub o, .imul o, .imin o, .imax o, .land o, .lor o, .lxor o, .shl o, .shr o,
    .sra o, .rot o, .bfx o, .isad o], IssuesAs s i (fun _ _ => usesA o) noCheck := by
  simp only [List.forall_mem_cons]
  exact ⟨⟨_, _, exec_iadd⟩, ⟨_, _, exec_isub⟩, ⟨_, _, exec_imul⟩, ⟨_, _, exec_imin⟩, ⟨_, _, exec_imax⟩, ⟨_, _, exec_land⟩, ⟨_, _, exec_lor⟩,
    ⟨_, _, exec_lxor⟩, ⟨_, _, exec_shl⟩, ⟨_, _, exec_shr⟩, ⟨_, _, exec_sra⟩, ⟨_, _, exec_rot⟩, ⟨_, _, exec_bfx⟩, ⟨_, _, exec_isad⟩, List.forall_mem_nil _⟩

theorem float2_issue (s : State) (o : OpA) : ∀ i ∈ [Instr.fadd o, .fsub o, .fmul o, .fmin o, .fmax o, .fminn o, .fmaxn o],
    IssuesAs s i (fun _ _ => usesA o) (tagCheck (badF2 o)) := by
  simp only [List.forall_mem_cons]
  exact ⟨⟨_, _, exec_fadd⟩, ⟨_, _, exec_fsub⟩, ⟨_, _, exec_fmul⟩, ⟨_, _, exec_fmin⟩, ⟨_, _, exec_fmax⟩, ⟨_, _, exec_fminn⟩, ⟨_, _, exec_fmaxn⟩,
    List.forall_mem_nil _⟩

theorem packedHalf_issue (s : State) (o : OpA) : ∀ i ∈ [Instr.hadd o, .hsub o, .hmul o, .hmin o, .hmax o, .hdot2 o],
    IssuesAs s i (fun _ _ => usesA o) (tagCheck fun w => (halfTag [w.h.vtag o.a, w.h.tagB o.q o.b] w.sp.hfmt).isNone) := by
  simp only [List.forall_mem_cons]
  exact ⟨⟨_, _, exec_hadd⟩, ⟨_, _, exec_hsub⟩, ⟨_, _, exec_hmul⟩, ⟨_, _, exec_hmin⟩, ⟨_, _, exec_hmax⟩, ⟨_, _, exec_hdot2⟩, List.forall_mem_nil _⟩

theorem double2_issue (s : State) (o : OpA) : ∀ i ∈ [Instr.dadd o, .dsub o, .dmul o, .dmin o, .dmax o],
    IssuesAs s i (fun _ _ => uses64 o) (tagCheck (badD2 o)) := by
  simp only [List.forall_mem_cons]
  exact ⟨⟨_, _, exec_dadd⟩, ⟨_, _, exec_dsub⟩, ⟨_, _, exec_dmul⟩, ⟨_, _, exec_dmin⟩, ⟨_, _, exec_dmax⟩, List.forall_mem_nil _⟩

theorem float1_issue (s : State) (p : OpU) : ∀ i ∈ [Instr.frcp p, .frsq p, .fsqrt p, .fex2 p, .flg2 p, .fsin p, .fcos p, .ftanh p],
    IssuesAs s i (fun _ _ => usesU p) (tagCheck fun w => wrongTag 0x11 (w.h.vtag p.a)) := by
  simp only [List.forall_mem_cons]
  exact ⟨⟨_, _, exec_frcp⟩, ⟨_, _, exec_frsq⟩, ⟨_, _, exec_fsqrt⟩, ⟨_, _, exec_fex2⟩, ⟨_, _, exec_flg2⟩, ⟨_, _, exec_fsin⟩, ⟨_, _, exec_fcos⟩,
    ⟨_, _, exec_ftanh⟩, List.forall_mem_nil _⟩

theorem double1_issue (s : State) (p : OpU) : ∀ i ∈ [Instr.drcp p, .dsqrt p],
    IssuesAs s i (fun _ _ => usesU64 p) (tagCheck fun w => wrongTag 0x10 (w.h.vtag p.a)) := by
  simp only [List.forall_mem_cons]
  exact ⟨⟨_, _, exec_drcp⟩, ⟨_, _, exec_dsqrt⟩, List.forall_mem_nil _⟩

theorem floatHalf_issue (s : State) (q d : Nat) : ∀ i ∈ [Instr.fadd16 q d, .fsub16 q d, .fmul16 q d, .fmin16 q d, .fmax16 q d],
    IssuesAs s i (fun _ _ => laneUses [q, d] [] [d] 0) (tagCheck fun w => wrongTag 0x11 (w.h.vtag d) || wrongTag 0x11 (w.h.vtag q)) := by
  simp only [List.forall_mem_cons]
  exact ⟨⟨_, _, exec_fadd16⟩, ⟨_, _, exec_fsub16⟩, ⟨_, _, exec_fmul16⟩, ⟨_, _, exec_fmin16⟩, ⟨_, _, exec_fmax16⟩, List.forall_mem_nil _⟩

/-- The lane instructions of format A with two sources. -/
theorem lane_issue (s : State) (o : OpA) {i : Instr} (hi : i ∈ [Instr.iadd o, .isub o, .imul o, .imin o, .imax o, .land o, .lor o, .lxor o, .shl o,
    .shr o, .sra o, .rot o, .bfx o, .isad o] ++ [Instr.fadd o, .fsub o, .fmul o, .fmin o, .fmax o, .fminn o, .fmaxn o] ++
    [Instr.hadd o, .hsub o, .hmul o, .hmin o, .hmax o, .hdot2 o]) : ∃ check, IssuesAs s i (fun _ _ => usesA o) check := by
  rcases List.mem_append.mp hi with hi | hi
  · rcases List.mem_append.mp hi with hi | hi
    · exact ⟨_, laneInt_issue s o i hi⟩
    · exact ⟨_, float2_issue s o i hi⟩
  · exact ⟨_, packedHalf_issue s o i hi⟩

/-! Handles (R54, R161). -/

/-- The handle instructions with the names that each has. -/
def handleForms (a n : Nat) : List (Instr × Uses) :=
  [(.tfree n, { hs := [n] }), (.twait n, { hs := [n] }), (.tnew n, { fresh := [n] }), (.tpass a n, { hs := [n], us := [a] }),
    (.tbind a n, { fresh := [n], us := [a] }), (.tfetch n, { hs := [n], acc := 0x08, path := some 1 }),
    (.tld a n, { hs := [n], us := [a], acc := 0x08, path := some 1 })]

theorem handle_issue (s : State) (a n : Nat) : ∀ e ∈ handleForms a n, n ∈ e.2.hs ++ e.2.fresh ∧ ∃ check, IssuesAs s e.1 (fun _ _ => e.2) check := by
  simp only [handleForms, List.forall_mem_cons]
  exact ⟨⟨List.mem_singleton_self n, _, _, _, exec_tfree⟩, ⟨List.mem_singleton_self n, _, _, _, exec_twait⟩,
    ⟨List.mem_singleton_self n, _, _, _, exec_tnew⟩, ⟨List.mem_singleton_self n, _, _, _, exec_tpass⟩,
    ⟨List.mem_singleton_self n, _, _, _, exec_tbind⟩, ⟨List.mem_singleton_self n, _, _, _, exec_tfetch⟩,
    ⟨List.mem_singleton_self n, _, _, _, exec_tld⟩, List.forall_mem_nil _⟩

/-- R184: resident operands are no accesses. -/
theorem State.tileReads_resident {s : State} {w : Who} {a b : Nat} (ha : (s.myHandle w a).state ≠ .nonResident)
    (hb : (s.myHandle w b).state ≠ .nonResident) (u : Uses) : s.tileReads w [a, b] u = u := by
  simp [State.tileReads, ha, hb]

theorem multiply_issue (s : State) (v : OpT) : ∀ i ∈ [Instr.mma v, .mmp v],
    ∃ check, IssuesAs s i (fun w t => t.tileReads w [v.a, v.b] { hs := [v.a, v.b], us := [v.d] }) check := by
  simp only [List.forall_mem_cons]
  exact ⟨⟨_, _, _, exec_mma⟩, ⟨_, _, _, exec_mmp⟩, List.forall_mem_nil _⟩

theorem multiply_stops {s : State} {w : Who} {v : OpT} (c : Reaches s w { hs := [v.a, v.b], us := [v.d] })
    (h : s.handleCount w ≤ v.a ∨ s.handleCount w ≤ v.b) (ha : (s.myHandle w v.a).state ≠ .nonResident)
    (hb : (s.myHandle w v.b).state ≠ .nonResident) : ∀ i ∈ [Instr.mma v, .mmp v], Stops s w (exec i s) 2 0 0 := by
  intro i hi
  obtain ⟨check, hissue⟩ := multiply_issue s v i hi
  have hnames := State.tileReads_resident ha hb { hs := [v.a, v.b], us := [v.d] }
  refine hissue.stops (b := { code := 2 }) (by rw [hnames]; exact c) ?_
  rw [hnames]
  rcases h with h | h
  · exact issueFault_illegal check (bad_of_handle List.mem_cons_self h)
  · exact issueFault_illegal check (bad_of_handle (List.mem_cons_of_mem _ List.mem_cons_self) h)

/-- R161: a handle that is free or released. -/
theorem freeHandle_singleton {s : State} {w : Who} {b : Block} (n : Nat) (hb : s.block? w.c w.h.slot = some b) :
    s.freeHandle w { hs := [n] } = match (Tbl.at b.handles n {}).state with
      | .free => some { code := 5, sub := n + 64 }
      | .released => some { code := 5, sub := n + 128 }
      | _ => none := by
  simp only [State.freeHandle, hb, List.findSome?_cons, List.findSome?_nil]
  cases (Tbl.at b.handles n {}).state <;> rfl

theorem handle_stops {s : State} {w : Who} {n : Nat} {b : Bad} (c : Reaches s w { hs := [n] }) (hn : n < s.handleCount w)
    (hfree : s.freeHandle w { hs := [n] } = some b) : ∀ i ∈ [Instr.tfree n, .twait n], Stops s w (exec i s) b.code b.sub b.addr := by
  have hlegal : ({ hs := [n] } : Uses).bad w.h.budget (s.handleCount w) = false := by simp [Uses.bad, hn]
  have hissue : ∀ i ∈ [Instr.tfree n, .twait n], ∃ check, IssuesAs s i (fun _ _ => { hs := [n] }) check := by
    simp only [List.forall_mem_cons]
    exact ⟨⟨_, _, _, exec_tfree⟩, ⟨_, _, _, exec_twait⟩, List.forall_mem_nil _⟩
  intro i hi
  obtain ⟨check, h⟩ := hissue i hi
  exact h.stops c (issueFault_handle check hlegal rfl rfl hfree)

/-! Privilege (R321). -/

section
variable {s : State} {w : Who} (hprogram : w.h.handler = false)
include hprogram

theorem kill_stops {a : Nat} (c : Reaches s w { us := [a], priv := true }) : Stops s w (exec (.kill a) s) 3 0 0 :=
  IssuesAs.stops (b := { code := 3 }) (u := fun _ _ => { us := [a], priv := true }) ⟨_, _, exec_kill⟩ c (issueFault_priv _ rfl rfl rfl hprogram)

theorem tret_stops (c : Reaches s w { priv := true, acc := 0x80 }) : Stops s w (exec .tret s) 3 0 0 :=
  IssuesAs.stops (b := { code := 3 }) (u := fun _ _ => { priv := true, acc := 0x80 }) ⟨_, _, exec_tret⟩ c (issueFault_priv _ rfl rfl rfl hprogram)

theorem csrr_stops {n d : Nat} (c : Reaches s w { ud := [d], priv := true }) (hn : csrExists n = true) : Stops s w (exec (.csrr n d) s) 3 0 0 := by
  have hissue : IssuesAs s (.csrr n d) (fun _ _ => { ud := [d], priv := true }) noCheck := ⟨_, _, by rw [exec_csrr, execCsrr, hn]; rfl⟩
  exact hissue.stops (b := { code := 3 }) c (issueFault_priv _ rfl rfl rfl hprogram)

end

/-! Tags of operands (R32). -/

theorem wrongTag_iff {f t : Nat} : wrongTag f t = true ↔ t ≠ 0 ∧ t ≠ f := by simp [wrongTag]

theorem wrongTag_or_iff {f t u : Nat} : (wrongTag f t || wrongTag f u) = true ↔ (t ≠ 0 ∧ t ≠ f) ∨ (u ≠ 0 ∧ u ≠ f) := by
  rw [Bool.or_eq_true, wrongTag_iff, wrongTag_iff]

/-- R32: tags of no packed-half format, and tags of both, give none. -/
theorem halfTag_isNone {l : List Nat} {hfmt : Bool} (h : (∃ t ∈ l, t ≠ 0 ∧ t ≠ 0x12 ∧ t ≠ 0x13) ∨ (0x12 ∈ l ∧ 0x13 ∈ l)) :
    (halfTag l hfmt).isNone = true := by
  have hkeep : ∀ {t}, t ∈ l → t ≠ 0 → t ∈ l.filter (· != 0) := fun hl h0 => List.mem_filter.mpr ⟨hl, bne_iff_ne.mpr h0⟩
  unfold halfTag
  split
  · next hnil =>
    rcases h with ⟨t, ht, h0, -⟩ | ⟨h12, -⟩
    · exact absurd (hnil ▸ hkeep ht h0) (List.not_mem_nil)
    · exact absurd (hnil ▸ hkeep h12 (by decide)) (List.not_mem_nil)
  · next x r hcons =>
    rw [if_neg]
    · rfl
    rintro ⟨hx, hall⟩
    have heq : ∀ {t}, t ∈ l → t ≠ 0 → t = x := fun hl h0 =>
      (List.mem_cons.mp (hcons ▸ hkeep hl h0)).elim id fun hr => by simpa using List.all_eq_true.mp hall _ hr
    rcases h with ⟨t, ht, h0, h12, h13⟩ | ⟨h12, h13⟩
    · have := heq ht h0
      omega
    · have := heq h12 (by decide)
      have := heq h13 (by decide)
      omega

/-- Settles O25, fault by fault in their order. -/
theorem issueFaults : Obligations.IssueFaults := by
  intro s w o p x v a n q d sound other tagB two mixed lanes fp32 half fp64 handles
  refine ⟨fun c hbad i hi => ?_, fun c hlegal htag i hi => ?_, fun c hbad i hi => (double2_issue s o i hi).stops_illegal c hbad,
    fun c => ⟨fun h i hi => (float2_issue s o i hi).stops_tag ⟨rfl, rfl, rfl⟩ c (wrongTag_or_iff.2 h),
      fun h i hi => (packedHalf_issue s o i hi).stops_tag ⟨rfl, rfl, rfl⟩ c (halfTag_isNone h)⟩,
    fun c => ⟨fun h => ?_, fun h => ?_⟩,
    fun c h i hi => (double2_issue s o i hi).stops_tag ⟨rfl, rfl, rfl⟩ c (wrongTag_or_iff.2 h), fun c h => ?_,
    fun c h i hi => (float1_issue s p i hi).stops_tag ⟨rfl, rfl, rfl⟩ c (wrongTag_iff.2 h),
    fun c h i hi => (double1_issue s p i hi).stops_tag ⟨rfl, rfl, rfl⟩ c (wrongTag_iff.2 h),
    fun c h i hi => (floatHalf_issue s q d i hi).stops_tag ⟨rfl, rfl, rfl⟩ c (wrongTag_or_iff.2 h),
    fun c h => IssuesAs.stops_tag ⟨_, _, exec_fcmp⟩ ⟨rfl, rfl, rfl⟩ c (wrongTag_or_iff.2 h),
    fun c h => IssuesAs.stops_tag ⟨_, _, exec_dcmp⟩ ⟨rfl, rfl, rfl⟩ c (wrongTag_or_iff.2 h), fun e he c hn => ?_, multiply_stops,
    fun hprogram => ⟨kill_stops hprogram, tret_stops hprogram, csrr_stops hprogram⟩,
    fun c hn b hb => ⟨fun hfree => ?_, fun hreleased => ?_⟩⟩
  · obtain ⟨check, hissue⟩ := lane_issue s o hi
    exact hissue.stops_illegal c hbad
  · obtain ⟨check, hissue⟩ := lane_issue s o hi
    exact hissue.stops_reserved ⟨rfl, rfl, rfl⟩ c hlegal htag
  · refine IssuesAs.stops_tag ⟨_, _, exec_ffma⟩ ⟨rfl, rfl, rfl⟩ c ?_
    rw [badF2, Bool.or_eq_true, wrongTag_or_iff, wrongTag_iff]
    exact h
  · exact IssuesAs.stops_tag ⟨_, _, exec_hfma⟩ ⟨rfl, rfl, rfl⟩ c (halfTag_isNone h)
  · refine IssuesAs.stops_tag ⟨_, _, exec_dfma⟩ ⟨rfl, rfl, rfl⟩ c ?_
    rw [badD2, Bool.or_eq_true, wrongTag_or_iff, wrongTag_iff]
    exact h
  · obtain ⟨hmem, check, hissue⟩ := handle_issue s a n e he
    exact hissue.stops_illegal c (bad_of_handle hmem hn)
  · exact handle_stops (b := { code := 5, sub := n + 64 }) c hn (by rw [freeHandle_singleton n hb, hfree])
  · exact handle_stops (b := { code := 5, sub := n + 128 }) c hn (by rw [freeHandle_singleton n hb, hreleased])

end Sys2Proof.Machine
end

section
/-! SUPPORT. The handle instructions: their checks and holds, and what they leave of handles and frames (R33, R161, R162, R166 to R169, R234). -/

namespace Sys2Proof.Machine

open Sys2Proof

/-! Frames and full bits (R232, R234). -/

theorem State.bankWaiters_congr {s t : State} (h : t.accs = s.accs) : t.bankWaiters = s.bankWaiters := by
  simp only [State.bankWaiters, h]

/-- R232: where no load waits at a bank, a fill sets full bits and does nothing else. -/
theorem State.fillGranules_eq {s : State} (h : s.bankWaiters = []) (gs : List Nat) : ∃ l, s.fillGranules gs = { s with full := l } := by
  unfold State.fillGranules
  dsimp only
  split
  · exact ⟨s.full, rfl⟩
  · exact ⟨_, congrArg (List.foldl _ _) ((State.bankWaiters_congr rfl).trans h)⟩

theorem State.setFull_eq {s : State} (h : s.bankWaiters = []) (c : Nat) (x : Handle) (on : Bool) :
    ∃ l, s.setFull c x on = { s with full := l } := by
  unfold State.setFull
  split
  · exact State.fillGranules_eq h _
  · exact ⟨_, rfl⟩

theorem State.clearFrames_frame (s : State) (c f k : Nat) :
    { s.clearFrames c f k with mem := s.mem, full := s.full, poison := s.poison } = s := by
  unfold State.clearFrames
  split <;> rfl

/-- R234: frames cleared read zero, and every other byte is as before. -/
theorem State.rd_clearFrames (s : State) (c f k b : Nat) : Mem.rd (s.clearFrames c f k).mem b =
    if tileBase c + f * 4096 ≤ b ∧ b < tileBase c + f * 4096 + k * 4096 then 0 else Mem.rd s.mem b := by
  unfold State.clearFrames
  split
  · next hk => rw [if_neg (by omega)]
  · exact Mem.rd_clear ..

theorem State.pushOnce_frame (s : State) (i : Instr) (l : List Nat) : { s.pushOnce i l with agenda := s.agenda } = s := by
  unfold State.pushOnce
  split <;> rfl

/-! The checks (R186). -/

theorem firstBad_none_cons (l : List (Option Bad)) : firstBad (none :: l) = firstBad l := rfl

theorem firstBad_some_cons (b : Bad) (l : List (Option Bad)) : firstBad (some b :: l) = some b := rfl

theorem firstBad_nil : firstBad [] = none := rfl

theorem badIf_of_not {b : Bool} (h : b = false) (code sub addr : Nat) : badIf b code sub addr = none := by rw [h]; rfl

theorem badIf_of {b : Bool} (h : b = true) (code sub addr : Nat) : badIf b code sub addr = some { code := code, sub := sub, addr := addr } := by
  rw [h]; rfl

/-- The handle is allocated: neither free nor released. -/
theorem Handle.isAlloc_iff {x : Handle} : x.isAlloc = true ↔ x.state ≠ .free ∧ x.state ≠ .released := by simp [Handle.isAlloc]

theorem Handle.isAlloc_of_open {x : Handle} (h : x.state = .free ∨ x.state = .released) : x.isAlloc = false := by
  rcases h with h | h <;> rw [Handle.isAlloc, h] <;> rfl

section
variable {s : State} {w : Who} {n : Nat} {x : Handle} (hx : s.myHandle w n = x)
include hx

theorem State.notOwner_owned (h : x.owner = w.h.cohortid) : s.notOwner w n = none := badIf_of_not (by simp [hx, h]) ..

theorem State.notOwner_open (h : x.isAlloc = false) : s.notOwner w n = none :=
  badIf_of_not (by rw [hx, ← Handle.isAlloc, h, Bool.false_and]) ..

theorem State.notOwner_other (halloc : x.isAlloc = true) (h : x.owner ≠ w.h.cohortid) : s.notOwner w n = some { code := 7, sub := n } :=
  badIf_of (by rw [hx, ← Handle.isAlloc, halloc, bne_iff_ne.mpr h]; rfl) ..

theorem State.stateBad_none {f : Handle → Bool} (h : f x = false) : s.stateBad w n f = none := badIf_of_not (by rw [hx, h]) ..

theorem State.stateBad_some {f : Handle → Bool} (h : f x = true) : s.stateBad w n f = some { code := 8 } := badIf_of (by rw [hx, h]) ..

theorem State.tileTag_none (h : Num.goodTag x.tag = true) : s.tileTag w n = none := badIf_of_not (by rw [hx, h]; rfl) ..

theorem State.tileTag_some (h : Num.goodTag x.tag = false) : s.tileTag w n = some { code := 6 } := badIf_of (by rw [hx, h]; rfl) ..

theorem State.rawTag_none (h : x.tag ≠ 0) : s.rawTag w n = none := badIf_of_not (by rw [hx]; exact beq_false_of_ne h) ..

end

theorem Who.unaligned16_none {w : Who} {a : Nat} (h : (w.h.uq a).toNat % 16 = 0) : w.unaligned16 a = none := badIf_of_not (by rw [h]; rfl) ..

/-! What earlier work holds (R162, R168). -/

/-- No write of the tile is to come but for those that the trap of cohort `uid` holds. -/
theorem Transfer.keeps_eq_false_iff {t : Transfer} {uid : Nat} : t.keeps (some uid) = false ↔ t.held = true ∧ t.uid = uid := by
  simp [Transfer.keeps, eq_comm (a := uid)]

theorem Handle.leaves_eq_false_iff {x : Handle} {uid : Nat} :
    x.leaves uid = false ↔ ∀ t ∈ x.writes, t.evict = true → t.held = true ∧ t.uid = uid := by
  simp only [Handle.leaves, List.any_eq_false, Bool.not_eq_true, Bool.and_eq_false_iff, Transfer.keeps_eq_false_iff]
  exact forall₂_congr fun t _ => by cases t.evict <;> simp

/-- R168: nothing earlier on a handle has yet to perform. -/
def HandleIdle (s : State) (w : Who) (n : Nat) (x : Handle) : Prop :=
  x.fill = none ∧ (∀ t ∈ x.writes, t.held = true ∧ t.uid = w.h.uid) ∧
    ∀ m ∈ (s.core w.c).mats, m.slot = w.h.slot → m.ha ≠ n ∧ m.hb ≠ n

theorem HandleIdle.of_quiet {s : State} {w : Who} {n : Nat} {x : Handle} (hfill : x.fill = none) (hwrites : x.writes = [])
    (hmats : ∀ m ∈ (s.core w.c).mats, m.slot = w.h.slot → m.ha ≠ n ∧ m.hb ≠ n) : HandleIdle s w n x :=
  ⟨hfill, by rw [hwrites]; exact List.forall_mem_nil _, hmats⟩

theorem State.mustWaitTile_change_iff {s : State} {w : Who} {n : Nat} {x : Handle} (hx : s.myHandle w n = x) :
    s.mustWaitTile w n true = false ↔ HandleIdle s w n x := by
  have hmats : ((s.core w.c).mats.any fun m => m.slot == w.h.slot && (m.ha == n || m.hb == n)) = false ↔
      ∀ m ∈ (s.core w.c).mats, m.slot = w.h.slot → m.ha ≠ n ∧ m.hb ≠ n := by simp
  have hwrites : (x.writes.any (·.keeps (some w.h.uid))) = false ↔ ∀ t ∈ x.writes, t.held = true ∧ t.uid = w.h.uid := by
    simp only [List.any_eq_false, Bool.not_eq_true, Transfer.keeps_eq_false_iff]
  simp only [State.mustWaitTile, hx, State.handleBusy, Bool.true_and, Bool.or_eq_false_iff, Handle.leaves_eq_false_iff, hmats, hwrites,
    Option.isSome_eq_false_iff, Option.isNone_iff_eq_none, HandleIdle, and_assoc]
  exact ⟨fun ⟨h1, _, h2⟩ => ⟨h1, h2⟩, fun ⟨h1, h2⟩ => ⟨h1, fun t ht _ => h2.1 t ht, h2⟩⟩

section
variable {s : State} {w : Who} {n : Nat} {x : Handle} (hx : s.myHandle w n = x)
include hx

theorem State.tileHold_change_none (h : HandleIdle s w n x) : s.tileHold w [] [n] = none := by
  simp [State.tileHold, (State.mustWaitTile_change_iff hx).2 h]

theorem State.tileHold_change_waits (h : ¬ HandleIdle s w n x) : s.tileHold w [] [n] = some (s.waitIn w 7 (.tile n)) := by
  simp [State.tileHold, Bool.eq_true_of_not_eq_false (mt (State.mustWaitTile_change_iff hx).1 h)]

theorem State.tileHold_read_none (hfill : x.fill = none) (h : x.leaves w.h.uid = false) : s.tileHold w [n] [] = none := by
  simp [State.tileHold, State.mustWaitTile, hx, hfill, h]

/-- R176: a tile in its frames is read at once. -/
theorem State.readHold_none (hfill : x.fill = none) (h : x.leaves w.h.uid = false) (hstate : x.state ≠ .nonResident) (gs : List Nat) :
    s.readHold w n gs = none := by
  simp [State.readHold, State.tileHold_read_none hx hfill h, State.readTile, hx, hstate]

end

/-- R166: with no request before it a free run is taken at once. -/
theorem State.frameHold_none {s : State} {w : Who} (n : Nat) {k f : Nat} (hwaits : (s.core w.c).frameWaits = [])
    (hrun : (s.core w.c).frameRun k = some f) : s.frameHold w n k = none := by
  simp [State.frameHold, hwaits, hrun]

theorem State.popRequest_none {s : State} {w : Who} (n : Nat) (h : (s.core w.c).frameWaits = []) : s.popRequest w n = s := by
  simp [State.popRequest, State.ownRequest, h]

theorem State.core_onward (s : State) (w : Who) :
    (s.onward w).core w.c = { s.core w.c with cohorts := Tbl.put (s.core w.c).cohorts w.k w.gone } := by simp [State.setCohort]

theorem State.popRequest_onward {s : State} {w : Who} (n : Nat) (h : (s.core w.c).frameWaits = []) : (s.onward w).popRequest w n = s.onward w :=
  State.popRequest_none n (by rw [State.core_onward]; exact h)

theorem State.frameRun_onward (s : State) (w : Who) (k : Nat) : ((s.onward w).core w.c).frameRun k = (s.core w.c).frameRun k := by
  rw [State.core_onward]
  rfl

/-! The shapes of completion. -/

/-- A wait of the split at its instruction. -/
theorem State.waitIn_waits {s : State} {w : Who} (h : s.who? = some w) (code : Nat) (hold : Hold) :
    Waits s w (.next (s.waitIn w code hold)) code hold := by
  have hme := (State.who?_some h).1
  have heq : s.waitIn w code hold = s.setCohort w.c w.k (w.h.onSplit w.i fun sp => { sp with state := code, hold := hold }) :=
    State.onCohort_some hme _
  refine ⟨_, rfl, ?_, fun c k hck => ?_, List.forall_mem_nil _, ?_⟩
  · rw [heq, State.cohort?_setCohort_self]
  · rw [heq]
    by_cases hc : c = w.c
    · subst hc
      exact State.cohort?_setCohort_slot _ _ _ fun hk => hck ⟨rfl, hk⟩
    · exact State.cohort?_setCohort_core _ _ _ _ hc
  · rw [heq]
    rfl

/-- An instruction that only goes on. -/
theorem onward_movesOn {s : State} {w : Who} (h : s.who? = some w) : MovesOn s w (.next (s.onward w)) w.past.pc :=
  ⟨_, _, rfl, State.setCohort_only .., State.cohort?_setCohort_self .., Who.gone_wentOn h, w.gone_sameBut, fun _ => rfl, fun _ => ⟨rfl, rfl⟩,
    fun _ => rfl⟩

/-- In `t` the issuing split has gone on, and handle `n` of its block is `y`. -/
structure HandleLeft (w : Who) (bl : Block) (n : Nat) (y : Handle) (t : State) : Prop where
  cohort : t.cohort? w.c w.k = some w.gone
  block : t.block? w.c w.h.slot = some { bl with handles := Tbl.put bl.handles n y }

theorem HandleLeft.of_cores {w : Who} {bl : Block} {n : Nat} {y : Handle} {t u : State} (h : HandleLeft w bl n y t) (hc : u.cores = t.cores) :
    HandleLeft w bl n y u := by
  have hcore : u.core w.c = t.core w.c := by rw [State.core, State.core, hc]
  exact ⟨by rw [State.cohort?, hcore]; exact h.cohort, by rw [State.block?, hcore]; exact h.block⟩

theorem State.setHandle_left {s : State} {w : Who} {bl : Block} (hb : s.block? w.c w.h.slot = some bl) (n : Nat) (y : Handle) :
    HandleLeft w bl n y ((s.onward w).setHandle w.c w.h.slot n y) := by
  rw [State.setHandle_of_block ((State.block?_setCohort ..).trans hb)]
  exact ⟨(State.cohort?_setBlock ..).trans (State.cohort?_setCohort_self ..), State.block?_setBlock_self ..⟩

theorem State.setHandle_mem (s : State) (c b n : Nat) (y : Handle) : (s.setHandle c b n y).mem = s.mem := State.onBlock_mem ..

theorem State.setHandle_accs (s : State) (c b n : Nat) (y : Handle) : (s.setHandle c b n y).accs = s.accs := State.onBlock_accs ..

/-- The instruction leaves handle `n` as `y` and rows due, and every byte of memory is as before. -/
def SetsHandle (s : State) (w : Who) (i : Instr) (bl : Block) (n : Nat) (y : Handle) (due : List Due) : Prop :=
  ∃ t, exec i s = .next t ∧ t.cohort? w.c w.k = some w.gone ∧ t.block? w.c w.h.slot = some { bl with handles := Tbl.put bl.handles n y } ∧
    (∀ d ∈ due, d ∈ t.agenda) ∧ t.mem = s.mem

/-- The instruction leaves handle `n` as `y`, whose `k` frames read zero, and rows due, and every other byte is as before. -/
def TakesFrames (s : State) (w : Who) (i : Instr) (bl : Block) (n k : Nat) (y : Handle) (due : List Due) : Prop :=
  ∃ t, exec i s = .next t ∧ t.cohort? w.c w.k = some w.gone ∧ t.block? w.c w.h.slot = some { bl with handles := Tbl.put bl.handles n y } ∧
    (∀ d ∈ due, d ∈ t.agenda) ∧
    ∀ b, Mem.rd t.mem b = if frameAddr w.c y ≤ b ∧ b < frameAddr w.c y + k * 4096 then 0 else Mem.rd s.mem b

section
variable {s : State} {w : Who} {i : Instr} {bl : Block} {n : Nat} {y : Handle} (hb : s.block? w.c w.h.slot = some bl)
include hb

theorem setsHandle_of_exec {t : State} {due : List Due} (h : exec i s = .next t)
    (hcores : t.cores = ((s.onward w).setHandle w.c w.h.slot n y).cores) (hmem : t.mem = s.mem) (hdue : ∀ d ∈ due, d ∈ t.agenda) :
    SetsHandle s w i bl n y due :=
  have hleft := (State.setHandle_left hb n y).of_cores hcores
  ⟨t, h, hleft.cohort, hleft.block, hdue, hmem⟩

/-- An instruction that clears the frames that its handle takes. -/
theorem takesFrames_of_exec {t : State} {due : List Due} {k : Nat} (h : exec i s = .next t)
    (hcores : t.cores = ((s.onward w).setHandle w.c w.h.slot n y).cores)
    (hmem : t.mem = (((s.onward w).setHandle w.c w.h.slot n y).clearFrames w.c y.frame k).mem) (hdue : ∀ d ∈ due, d ∈ t.agenda) :
    TakesFrames s w i bl n k y due := by
  have hleft := (State.setHandle_left hb n y).of_cores hcores
  refine ⟨t, h, hleft.cohort, hleft.block, hdue, fun b => ?_⟩
  rw [hmem, State.rd_clearFrames, State.setHandle_mem]
  rfl

end

/-! What the handle instructions read (R184). -/

/-- R184: a tile in its frames is no access. -/
theorem State.tileReads_single {s : State} {w : Who} {n : Nat} {x : Handle} (hx : s.myHandle w n = x) (h : x.state ≠ .nonResident) (u : Uses) :
    s.tileReads w [n] u = u := by
  simp [State.tileReads, hx, h]

/-- R166: `TEVICT` reads no image where the tile is in its frames or its log is empty. -/
theorem tevictUses_eq {s : State} {w : Who} {n : Nat} {x : Handle} (hx : s.myHandle w n = x) (hlog : x.state = .nonResident → x.log = []) (u : Uses) :
    (if (s.myHandle w n).log = [] then u else s.tileReads w [n] u) = u := by
  rw [hx]
  split
  · rfl
  · next h => exact State.tileReads_single hx (fun hstate => h (hlog hstate)) u

/-! The instructions (R166, R169). -/

section
variable {s : State} {w : Who} {n a : Nat} {bl : Block} {x : Handle} (hb : s.block? w.c w.h.slot = some bl) (hx : s.myHandle w n = x)

/-- R161: an instruction that names a handle finds it allocated. -/
theorem Clear.isAlloc {u : Uses} (c : Clear s w u) (hhs : u.hs = [n]) (hb : s.block? w.c w.h.slot = some bl) (hx : s.myHandle w n = x) :
    x.isAlloc = true := by
  have hfree := c.handles
  rw [State.freeHandle, hhs, hb] at hfree
  rw [State.myHandle_of_block hb] at hx
  rw [Handle.isAlloc_iff]
  constructor <;> intro hstate <;> simp [hx, hstate] at hfree

/-- The handle that `TNEW` leaves. -/
def Handle.created (x : Handle) (f owner : Nat) : Handle :=
  { x with frame := f, frames := x.shape.frames, state := .resident, owner := owner, phase := 0, log := [], backing := 0, writes := [], fill := none }

/-- The handle whose fetch `TFETCH` begins. -/
def Handle.fetching (x : Handle) (f : Nat) (t : Transfer) : Handle :=
  { x with frame := f, frames := x.shape.frames, state := .filling, retBound := true, fill := some t }

include hx

include hb in
theorem tnew_takes {f : Nat} (hbank : s.bankWaiters = []) (c : Clear s w { fresh := [n] }) (hopen : x.state = .free ∨ x.state = .released)
    (htag : x.tag ≠ 0) (hframes : x.shape.frames ≤ 256) (hwaits : (s.core w.c).frameWaits = [])
    (hrun : (s.core w.c).frameRun x.shape.frames = some f) :
    TakesFrames s w (.tnew n) bl n x.shape.frames (x.created f w.h.cohortid) [] := by
  have hclosed := Handle.isAlloc_of_open hopen
  have hcheck : firstBad [s.notOwner w n, s.stateBad w n (·.isAlloc), s.rawTag w n, badIf (decide (256 < (s.myHandle w n).shape.frames)) 9] = none := by
    rw [State.notOwner_open hx hclosed, State.stateBad_none hx hclosed, State.rawTag_none hx htag, hx,
      badIf_of_not (decide_eq_false (Nat.not_lt.mpr hframes))]
    rfl
  have hhold : s.frameHold w n (s.myHandle w n).shape.frames = none := by rw [hx]; exact State.frameHold_none n hwaits hrun
  have hclear := ((s.onward w).setHandle w.c w.h.slot n (x.created f w.h.cohortid)).clearFrames_frame w.c f x.shape.frames
  obtain ⟨l, hfull⟩ := State.setFull_eq (s := ((s.onward w).setHandle w.c w.h.slot n (x.created f w.h.cohortid)).clearFrames w.c f x.shape.frames)
    ((State.bankWaiters_congr ((congrArg State.accs hclear :).trans (State.setHandle_accs ..))).trans hbank) w.c (x.created f w.h.cohortid) true
  refine takesFrames_of_exec hb ?_ (congrArg State.cores hclear :) rfl (List.forall_mem_nil _) (t := { State.clearFrames _ w.c f x.shape.frames with full := l })
  rw [exec_tnew, execTnew, issue_runs c hcheck hhold, State.popRequest_onward n hwaits, State.frameRun_onward, State.myHandle_onward, hx, hrun,
    Option.getD_some, State.newTile, State.block?_setCohort, hb, ← hfull]
  dsimp only
  rw [← State.myHandle_of_block hb, hx]
  rfl

theorem tnew_stops (c : Clear s w { fresh := [n] }) (howner : x.owner = w.h.cohortid) (halloc : x.isAlloc = true) :
    Stops s w (exec (.tnew n) s) 8 0 0 := by
  have hcheck : firstBad [s.notOwner w n, s.stateBad w n (·.isAlloc), s.rawTag w n, badIf (decide (256 < (s.myHandle w n).shape.frames)) 9] =
      some { code := 8 } := by
    rw [State.notOwner_owned hx howner, State.stateBad_some hx halloc]
    rfl
  rw [exec_tnew, execTnew]
  exact issue_traps (b := { code := 8 }) c hcheck

include hb in
theorem tfree_stops (c : Clear s w { hs := [n] }) (howner : x.owner ≠ w.h.cohortid) : Stops s w (exec (.tfree n) s) 7 n 0 := by
  rw [exec_tfree, execTfree]
  exact issue_traps (b := { code := 7, sub := n }) c (State.notOwner_other hx (c.isAlloc rfl hb hx) howner)

include hb in
theorem twait_stops (c : Clear s w { hs := [n] }) (howner : x.owner ≠ w.h.cohortid) : Stops s w (exec (.twait n) s) 7 n 0 := by
  rw [exec_twait, execTwait]
  exact issue_traps (b := { code := 7, sub := n }) c (State.notOwner_other hx (c.isAlloc rfl hb hx) howner)

theorem twait_movesOn (c : Clear s w { hs := [n] }) (howner : x.owner = w.h.cohortid) (hidle : HandleIdle s w n x) :
    MovesOn s w (exec (.twait n) s) w.past.pc := by
  rw [exec_twait, execTwait, issue_runs c (State.notOwner_owned hx howner) (State.tileHold_change_none hx hidle)]
  exact onward_movesOn c.who

theorem twait_waits (c : Clear s w { hs := [n] }) (howner : x.owner = w.h.cohortid) (hidle : ¬ HandleIdle s w n x) :
    Waits s w (exec (.twait n) s) 7 (.tile n) := by
  rw [exec_twait, execTwait, issue_held c (State.notOwner_owned hx howner) (State.tileHold_change_waits hx hidle)]
  exact State.waitIn_waits c.who ..

include hb in
theorem tpass_sets (c : Clear s w { hs := [n], us := [a] }) (howner : x.owner = w.h.cohortid) (hlt : (w.h.uq a).toNat < 32)
    (hlive : (w.h.uq a).toNat ∈ bl.live) : SetsHandle s w (.tpass a n) bl n { x with owner := (w.h.uq a).toNat } [] := by
  have hcheck : firstBad [s.notOwner w n, badIf (decide (32 ≤ (w.h.uq a).toNat) ||
      !((s.block? w.c w.h.slot).elim false fun b => b.live.contains (w.h.uq a).toNat)) 9] = none := by
    rw [State.notOwner_owned hx howner, hb, badIf_of_not (by simp [hlive, Nat.not_le.mpr hlt])]
    rfl
  refine setsHandle_of_exec hb ?_ rfl (State.setHandle_mem ..) (List.forall_mem_nil _)
  rw [exec_tpass, execTpass, issue_runs c hcheck rfl, State.myHandle_onward, hx]

section
variable (c : Clear s w { fresh := [n], us := [a] }) (hidle : HandleIdle s w n x) (halign : (w.h.uq a).toNat % 16 = 0)
include c hidle halign

include hb in
theorem tbind_resident (howner : x.owner = w.h.cohortid) (hstate : x.state = .resident) :
    SetsHandle s w (.tbind a n) bl n { x with state := .bound, backing := (w.h.uq a).toNat } [] := by
  have halloc : x.isAlloc = true := by rw [Handle.isAlloc, hstate]; rfl
  have hcheck : firstBad [s.notOwner w n, s.stateBad w n (fun h => h.isAlloc && h.state != .resident),
      badIf (!(s.myHandle w n).isAlloc && (s.myHandle w n).tag == 0) 9, w.unaligned16 a] = none := by
    rw [State.notOwner_owned hx howner, State.stateBad_none hx (by rw [hstate, Bool.and_eq_false_iff]; exact .inr rfl),
      badIf_of_not (by rw [hx, halloc]; rfl), Who.unaligned16_none halign]
    rfl
  refine setsHandle_of_exec hb ?_ rfl (State.setHandle_mem ..) (List.forall_mem_nil _)
  rw [exec_tbind, execTbind, issue_runs c hcheck (State.tileHold_change_none hx hidle), State.myHandle_onward, hx]
  dsimp only
  rw [if_pos hstate]

include hb in
theorem tbind_open (hopen : x.state = .free ∨ x.state = .released) (htag : x.tag ≠ 0) :
    SetsHandle s w (.tbind a n) bl n { x with state := .nonResident, backing := (w.h.uq a).toNat, owner := w.h.cohortid, log := [], phase := 0,
                                              frame := 0, frames := 0, writes := [] } [] := by
  have hclosed := Handle.isAlloc_of_open hopen
  have hcheck : firstBad [s.notOwner w n, s.stateBad w n (fun h => h.isAlloc && h.state != .resident),
      badIf (!(s.myHandle w n).isAlloc && (s.myHandle w n).tag == 0) 9, w.unaligned16 a] = none := by
    rw [State.notOwner_open hx hclosed, State.stateBad_none hx (by rw [hclosed]; rfl),
      badIf_of_not (by rw [hx, beq_false_of_ne htag, Bool.and_false]), Who.unaligned16_none halign]
    rfl
  have hstate : x.state ≠ .resident := by rcases hopen with h | h <;> rw [h] <;> decide
  refine setsHandle_of_exec hb ?_ rfl (State.setHandle_mem ..) (List.forall_mem_nil _)
  rw [exec_tbind, execTbind, issue_runs c hcheck (State.tileHold_change_none hx hidle), State.myHandle_onward, hx]
  dsimp only
  rw [if_neg hstate]

end

section
variable (c : Clear s w { hs := [n], acc := 0x08, path := some 1 })
include c

theorem tfetch_reserved (htag : Num.goodTag x.tag = false) : Stops s w (exec (.tfetch n) s) 6 0 0 := by
  rw [exec_tfetch, execTfetch]
  exact issue_traps (b := { code := 6 }) c (by rw [State.tileTag_some hx htag]; rfl)

variable (htag : Num.goodTag x.tag = true) (howner : x.owner = w.h.cohortid)
include htag howner

theorem tfetch_stops (hstate : x.state = .resident) : Stops s w (exec (.tfetch n) s) 8 0 0 := by
  rw [exec_tfetch, execTfetch]
  exact issue_traps (b := { code := 8 }) c (by
    rw [State.tileTag_none hx htag, State.notOwner_owned hx howner, State.stateBad_some (f := (·.state == .resident)) hx (by rw [hstate]; rfl)]
    rfl)

variable (hframes : x.shape.frames ≤ 256)
include hframes

omit c in
theorem tfetch_check (hstate : x.state ≠ .resident) : firstBad [s.tileTag w n, s.notOwner w n, s.stateBad w n (·.state == .resident),
    badIf (decide (256 < (s.myHandle w n).shape.frames)) 9] = none := by
  rw [State.tileTag_none hx htag, State.notOwner_owned hx howner, State.stateBad_none (f := (·.state == .resident)) hx (beq_false_of_ne hstate), hx,
    badIf_of_not (decide_eq_false (Nat.not_lt.mpr hframes))]
  rfl

variable (hwaits : (s.core w.c).frameWaits = [])

section
variable (hstate : x.state = .bound ∨ x.state = .filling)
include hstate

omit hx c htag howner hframes in
theorem not_resident_of_held : x.state ≠ .resident ∧ x.state ≠ .nonResident := by rcases hstate with h | h <;> rw [h] <;> decide

include hwaits in
theorem tfetch_movesOn (hleaves : x.leaves w.h.uid = false) : MovesOn s w (exec (.tfetch n) s) w.past.pc := by
  obtain ⟨hres, hnon⟩ := not_resident_of_held hstate
  rw [exec_tfetch, execTfetch, issue_runs c (tfetch_check hx htag howner hframes hres) (by simp [hx, hnon, hleaves]), State.myHandle_onward, hx,
    if_pos (bne_iff_ne.mpr hnon), State.popRequest_onward n hwaits]
  exact onward_movesOn c.who

theorem tfetch_waits (hleaves : x.leaves w.h.uid = true) : Waits s w (exec (.tfetch n) s) 7 (.tile n) := by
  obtain ⟨hres, hnon⟩ := not_resident_of_held hstate
  rw [exec_tfetch, execTfetch, issue_held (t := s.waitIn w 7 (.tile n)) c (tfetch_check hx htag howner hframes hres) (by simp [hx, hnon, hleaves])]
  exact State.waitIn_waits c.who ..

end

include hb hwaits in
theorem tfetch_takes {f : Nat} (hstate : x.state = .nonResident) (hidle : HandleIdle s w n x)
    (hrun : (s.core w.c).frameRun x.shape.frames = some f) : TakesFrames s w (.tfetch n) bl n x.shape.frames
      (x.fetching f (w.transfer false false x.backing (w.h.seq + 1))) [{ row := .fillEnd, ops := [w.c, w.h.slot, n] }] := by
  have hhold : s.frameHold w n x.shape.frames = none := State.frameHold_none n hwaits hrun
  have hclear := ((s.onward w).setHandle w.c w.h.slot n
    (x.fetching f (w.transfer false false x.backing (w.h.seq + 1)))).clearFrames_frame w.c f x.shape.frames
  refine takesFrames_of_exec hb (t := (State.clearFrames _ w.c f x.shape.frames).pushOnce .fillEnd [w.c, w.h.slot, n]) ?_
    ((State.pushOnce_cores ..).trans (congrArg State.cores hclear :)) (State.pushOnce_mem ..) (List.forall_mem_singleton.2 (State.mem_pushOnce ..))
  rw [exec_tfetch, execTfetch, issue_runs c (tfetch_check hx htag howner hframes (by rw [hstate]; decide))
      (by simp [hx, hstate, State.tileHold_change_none hx hidle, hhold]), State.myHandle_onward, hx, if_neg (by rw [hstate]; decide),
    State.popRequest_onward n hwaits, State.frameRun_onward, hrun, Option.getD_some, State.startFetch, State.block?_setCohort, hb]
  dsimp only
  rw [← State.myHandle_of_block hb, hx]
  rfl

end

section
variable (c : Clear s w { hs := [n], acc := 0x04 }) (hlog : x.state = .nonResident → x.log = [])
include c hlog

theorem tevict_reserved (htag : Num.goodTag x.tag = false) : Stops s w (exec (.tevict n) s) 6 0 0 := by
  rw [exec_tevict, execTevict]
  exact issue_traps (b := { code := 6 }) (by rw [tevictUses_eq hx hlog]; exact c) (by rw [State.tileTag_some hx htag]; rfl)

theorem tevict_runs (htag : Num.goodTag x.tag = true) (howner : x.owner = w.h.cohortid) (hidle : HandleIdle s w n x)
    (hstate : x.state = .bound ∨ x.state = .nonResident) : exec (.tevict n) s = .next
      (if x.state = .bound then (s.onward w).startWrite w n (w.transfer true true x.backing (w.h.seq + 1)) else s.onward w) := by
  have hstays : (x.state == .resident || (x.state == .filling && !x.retBound)) = false := by rcases hstate with h | h <;> rw [h] <;> rfl
  have hfetch : ¬ (x.state = .nonResident ∧ x.log ≠ []) := fun h => h.2 (hlog h.1)
  rw [exec_tevict, execTevict, issue_runs (by rw [tevictUses_eq hx hlog]; exact c)
    (by rw [State.tileTag_none hx htag, State.notOwner_owned hx howner, State.stateBad_none hx hstays]; rfl)
    (by simp only [State.tileHold_change_none hx hidle, hx, if_neg hfetch]), State.myHandle_onward, hx]

end

include hb in
/-- A write of the tile begins, and memory is as before. -/
theorem startWrite_sets {i : Instr} {y : Transfer} (h : exec i s = .next ((s.onward w).startWrite w n y)) :
    SetsHandle s w i bl n { x with writes := x.writes ++ [y] } [{ row := .tileWriteComplete, ops := [w.c, w.h.slot, n] }] := by
  rw [State.startWrite, State.myHandle_onward, hx] at h
  exact setsHandle_of_exec hb h (State.pushOnce_cores ..) ((State.pushOnce_mem ..).trans (State.setHandle_mem ..))
    (List.forall_mem_singleton.2 (State.mem_pushOnce ..))

section
variable (c : Clear s w { hs := [n], us := [a], acc := 0x08, path := some 1 })
include c

theorem tld_reserved (htag : Num.goodTag x.tag = false) : Stops s w (exec (.tld a n) s) 6 0 0 := by
  rw [exec_tld, execTld]
  exact issue_traps (b := { code := 6 }) c (by rw [State.tileTag_some hx htag]; rfl)

include hb in
theorem tld_sets (htag : Num.goodTag x.tag = true) (howner : x.owner = w.h.cohortid) (hidle : HandleIdle s w n x)
    (halign : (w.h.uq a).toNat % 16 = 0) (hstate : x.state ≠ .nonResident) : SetsHandle s w (.tld a n) bl n
      { x with state := .filling, retBound := x.state == .bound, fill := some (w.transfer false false (w.h.uq a).toNat (w.h.seq + 1)) }
      [{ row := .fillEnd, ops := [w.c, w.h.slot, n] }] := by
  have hcheck : firstBad [s.tileTag w n, s.notOwner w n, s.stateBad w n (·.state == .nonResident), w.unaligned16 a] = none := by
    rw [State.tileTag_none hx htag, State.notOwner_owned hx howner, State.stateBad_none (f := (·.state == .nonResident)) hx (beq_false_of_ne hstate), Who.unaligned16_none halign]
    rfl
  refine setsHandle_of_exec hb (t := (State.setFull _ w.c x false).pushOnce .fillEnd [w.c, w.h.slot, n]) ?_ (State.pushOnce_cores ..)
    ((State.pushOnce_mem ..).trans (State.setHandle_mem ..)) (List.forall_mem_singleton.2 (State.mem_pushOnce ..))
  rw [exec_tld, execTld, issue_runs c hcheck (State.tileHold_change_none hx hidle), State.myHandle_onward, hx]

end

section
variable (c : Clear s w { hs := [n], us := [a], acc := 0x04 }) (hstate : x.state ≠ .nonResident)
include c hstate

theorem tst_reserved (htag : Num.goodTag x.tag = false) : Stops s w (exec (.tst a n) s) 6 0 0 := by
  rw [exec_tst, execTst]
  exact issue_traps (b := { code := 6 }) (by rw [State.tileReads_single hx hstate]; exact c) (by rw [State.tileTag_some hx htag]; rfl)

include hb in
theorem tst_sets (htag : Num.goodTag x.tag = true) (howner : x.owner = w.h.cohortid) (hfill : x.fill = none) (hleaves : x.leaves w.h.uid = false)
    (halign : (w.h.uq a).toNat % 16 = 0) : SetsHandle s w (.tst a n) bl n
      { x with writes := x.writes ++ [w.transfer true false (w.h.uq a).toNat (w.h.seq + 1)] }
      [{ row := .tileWriteComplete, ops := [w.c, w.h.slot, n] }] := by
  refine startWrite_sets hb hx ?_
  rw [exec_tst, execTst, issue_runs (by rw [State.tileReads_single hx hstate]; exact c)
    (by rw [State.tileTag_none hx htag, State.notOwner_owned hx howner, Who.unaligned16_none halign]; rfl)
    (State.readHold_none hx hfill hleaves hstate _)]

end
end

/-- Settles O34, instruction by instruction. -/
theorem handleResults : Obligations.HandleResults := by
  intro s w n a bl hb hbank x va frames owned quiet idle moves sets takes good stays reserved fillDue writeDue
  have hx : s.myHandle w n = x := State.myHandle_of_block hb n
  have hidle : quiet → HandleIdle s w n x := fun ⟨hfill, hwrites, hmats⟩ => .of_quiet hfill hwrites hmats
  refine ⟨fun c => ⟨fun hopen htag hframes hwaits f => tnew_takes hb hx hbank c hopen htag hframes hwaits,
      fun howner hfree hrel => tnew_stops hx c howner (Handle.isAlloc_iff.2 ⟨hfree, hrel⟩)⟩,
    fun c => ⟨fun howner => ⟨tfree_stops hb hx c howner, twait_stops hb hx c howner⟩, twait_movesOn hx c, twait_waits hx c⟩,
    tpass_sets hb hx, fun c hquiet halign => ⟨tbind_resident hb hx c (hidle hquiet) halign, tbind_open hb hx c (hidle hquiet) halign⟩,
    fun c => ⟨tfetch_reserved hx c, fun hgood howner hwaits hframes => ⟨fun hstate hquiet f => ?_, fun hstate hstays => ?_, fun hstate hstays => ?_,
      tfetch_stops hx c hgood howner⟩⟩,
    fun c hlog => tevict_reserved hx c hlog, fun c hgood howner hquiet => ⟨fun hstate => ?_, fun hstate hlog => ?_⟩,
    tld_reserved hx, fun c hgood howner hquiet => tld_sets hb hx c hgood howner (hidle hquiet),
    tst_reserved hx, fun c hgood howner hfill hstays halign hstate => ?_⟩
  · exact tfetch_takes hb hx c hgood howner hframes hwaits hstate (hidle hquiet)
  · exact tfetch_movesOn hx c hgood howner hframes hwaits hstate (Handle.leaves_eq_false_iff.2 hstays)
  · exact tfetch_waits hx c hgood howner hframes hstate (Bool.eq_true_of_not_eq_false (mt Handle.leaves_eq_false_iff.1 hstays))
  · have hruns := tevict_runs hx c (by rw [hstate]; nofun) hgood howner (hidle hquiet) (.inl hstate)
    rw [if_pos hstate] at hruns
    have hsets := startWrite_sets hb hx hruns
    rw [hquiet.2.1] at hsets
    exact hsets
  · rw [tevict_runs hx c (fun _ => hlog) hgood howner (hidle hquiet) (.inr hstate), if_neg (by rw [hstate]; decide)]
    exact onward_movesOn c.who
  · exact tst_sets hb hx c hstate hgood howner hfill (Handle.leaves_eq_false_iff.2 hstays) halign

end Sys2Proof.Machine
end

section
/-! SUPPORT. Rows put on what is due, with nothing else changed: what waits for a cohort's work is looked at again (R211, R227). -/

namespace Sys2Proof.Machine

open Sys2Proof

/-- From `s` to `t` rows have come due, and nothing else has changed. -/
structure OnlyDue (s t : State) : Prop where
  rest : { t with agenda := s.agenda } = s
  kept : ∀ d ∈ s.agenda, d ∈ t.agenda

namespace OnlyDue

variable {s t u : State}

theorem refl (s : State) : OnlyDue s s := ⟨rfl, fun _ hd => hd⟩

theorem trans (h : OnlyDue s t) (h' : OnlyDue t u) : OnlyDue s u :=
  ⟨(congrArg (fun v : State => { v with agenda := s.agenda }) h'.rest).trans h.rest, fun d hd => h'.kept d (h.kept d hd)⟩

theorem pushOnce (s : State) (i : Instr) (l : List Nat) : OnlyDue s (s.pushOnce i l) := by
  unfold State.pushOnce
  split
  · exact refl s
  · exact ⟨rfl, fun d hd => List.mem_append_left _ hd⟩

theorem ite {p : Prop} [Decidable p] (ht : OnlyDue s t) (hu : OnlyDue s u) : OnlyDue s (if p then t else u) := by
  split
  · exact ht
  · exact hu

theorem cores (h : OnlyDue s t) : t.cores = s.cores := (congrArg State.cores h.rest :)

theorem mem (h : OnlyDue s t) : t.mem = s.mem := (congrArg State.mem h.rest :)

theorem core (h : OnlyDue s t) (c : Nat) : t.core c = s.core c := by rw [State.core, State.core, h.cores]

theorem cohort? (h : OnlyDue s t) (c k : Nat) : t.cohort? c k = s.cohort? c k := by rw [State.cohort?, State.cohort?, h.core]

theorem block? (h : OnlyDue s t) (c b : Nat) : t.block? c b = s.block? c b := by rw [State.block?, State.block?, h.core]

end OnlyDue

theorem State.reap_of_live {s : State} {c k : Nat} {h : Cohort} (hh : s.cohort? c k = some h) (hlive : h.ending = false) : s.reap c k = s := by
  rw [State.reap, hh]
  dsimp only
  rw [hlive]
  rfl

/-- A live cohort looked at again: rows come due, its trap among them where it has stopped. -/
theorem State.notify_live {s : State} {c k : Nat} {h : Cohort} (hh : s.cohort? c k = some h) (hlive : h.ending = false) :
    OnlyDue s (s.notify c k) ∧ (h.stopped = true → { row := .trapEntry, ops := [c, k] } ∈ (s.notify c k).agenda) := by
  unfold State.notify
  rw [hh]
  dsimp only
  set s1 := if h.stopped then s.pushOnce .trapEntry [c, k] else s with hs1
  set s2 := if h.leaving then s1.pushOnce .cohortSwapOut [c, k] else s1
  set s3 := if h.fences.isEmpty then s2 else s2.pushOnce .fenceComplete [c, k]
  set s4 := if h.stores.isEmpty then s3 else s3.pushOnce .storeLeaveQueue [c, k]
  have h1 : OnlyDue s s1 := .ite (.pushOnce ..) (.refl s)
  have h2 : OnlyDue s1 s2 := .ite (.pushOnce ..) (.refl s1)
  have h3 : OnlyDue s2 s3 := .ite (.refl s2) (.pushOnce ..)
  have h4 : OnlyDue s3 s4 := .ite (.refl s3) (.pushOnce ..)
  have hrest : OnlyDue s1 s4 := (h2.trans h3).trans h4
  rw [State.reap_of_live (((h1.trans hrest).cohort? c k).trans hh) hlive]
  refine ⟨h1.trans hrest, fun hstop => hrest.kept _ ?_⟩
  rw [hs1, if_pos hstop]
  exact State.mem_pushOnce ..

end Sys2Proof.Machine
end

section
/-! SUPPORT. Loads: what translation finds, faults, and the values written at the end (R31, R78, R141, R142, R324, R333). -/

namespace Sys2Proof.Machine

open Sys2Proof

/-! What an access finds rests on no cohort (R139, R140, R324). -/

theorem State.core_setCohort (s : State) (c k : Nat) (h : Cohort) (d : Nat) :
    { (s.setCohort c k h).core d with cohorts := (s.core d).cohorts } = s.core d := by
  by_cases hd : d = c
  · subst hd; simp [State.setCohort]
  · rw [State.setCohort, State.core_onCore_ne _ _ hd]

theorem State.reaches_setCohort (s : State) (c k : Nat) (h : Cohort) (a : Machine.Acc) (pa : Nat) :
    (s.setCohort c k h).reaches a pa = s.reaches a pa := by
  have hblocks (d : Nat) : ((s.setCohort c k h).core d).blocks = (s.core d).blocks := (congrArg CoreSt.blocks (s.core_setCohort c k h d) :)
  unfold State.reaches
  simp only [hblocks]
  rfl

theorem State.pooled_setCohort (s : State) (c k : Nat) (h : Cohort) (gid x : Nat) : (s.setCohort c k h).pooled gid x = s.pooled gid x := by
  simp only [State.pooled, State.member, State.block?_setCohort]
  rfl

theorem State.find_setCohort (s : State) (c k : Nat) (h : Cohort) (d asid gang : Nat) (a : Machine.Acc) (va : Nat) :
    (s.setCohort c k h).find d asid gang a va = s.find d asid gang a va := by
  have htlb : ((s.setCohort c k h).core d).tlbFind asid va = (s.core d).tlbFind asid va :=
    (congrArg (fun x : CoreSt => x.tlbFind asid va) (s.core_setCohort c k h d) :)
  simp only [State.find, htlb, State.reaches_setCohort, State.pooled_setCohort]
  rfl

theorem State.gangOf_setCohort (s : State) (c k : Nat) (h x : Cohort) (d : Nat) : (s.setCohort c k h).gangOf d x = s.gangOf d x := by
  rw [State.gangOf, State.gangOf, State.block?_setCohort]

/-! A load that starts (R141, R324, R333). -/

/-- Only the cohort in slot `k` of core `c` has changed, to `h'`, and rows have come due. -/
theorem OnlyDue.rest_of_setCohort {s t : State} {c k : Nat} {h' : Cohort} (h : OnlyDue (s.setCohort c k h') t) :
    t.cohort? c k = some h' ∧ (∀ c' k', ¬ (c' = c ∧ k' = k) → t.cohort? c' k' = s.cohort? c' k') ∧
      { t with cores := s.cores, agenda := s.agenda } = s := by
  refine ⟨(h.cohort? c k).trans (State.cohort?_setCohort_self ..), fun c' k' hck => (h.cohort? c' k').trans ?_, ?_⟩
  · by_cases hc : c' = c
    · subst hc
      exact State.cohort?_setCohort_slot _ _ _ fun hk => hck ⟨rfl, hk⟩
    · exact State.cohort?_setCohort_core _ _ _ _ hc
  · exact (congrArg (fun u : State => { u with cores := s.cores, agenda := s.agenda }) h.rest :)

/-- The load is the youngest of a cohort whose other loads wait for full bits. -/
structure Youngest (h : Cohort) (x : LoadOp) : Prop where
  kind : x.kind = .load
  others : ∀ y ∈ h.loads, y.seq ≠ x.seq ∧ y.stage = 1 ∧ y.full ≠ 0

/-- The cohort with one more load. -/
def Cohort.listLoad (h : Cohort) (x : LoadOp) : Cohort := { h with loads := h.loads ++ [x] }

/-- R324: a load goes on by what its addresses find. -/
theorem State.startLoad_eq {s : State} {c k : Nat} {h : Cohort} {x : LoadOp} (hh : s.cohort? c k = some h) {a : LaneAcc} {l : List LaneAcc}
    (hlanes : x.lanes = a :: l) :
    s.startLoad c k x = (s.setCohort c k (h.listLoad x)).advanceLoad c k x.seq := by
  rw [State.startLoad, hlanes, if_neg (List.cons_ne_nil _ _), State.onCohort_some hh]
  rfl

section
variable {h : Cohort} {x : LoadOp} (hy : Youngest h x)
include hy

theorem Youngest.find : (h.listLoad x).loads.find? (fun y => y.seq == x.seq) = some x := by
  have hnone : h.loads.find? (fun y => y.seq == x.seq) = none := List.find?_eq_none.mpr fun y hm => by simp [(hy.others y hm).1]
  simp [Cohort.listLoad, List.find?_append, hnone]

theorem Youngest.mustFollow : (h.listLoad x).mustFollow x = false := by
  have hold : ∀ y ∈ h.loads, (decide (y.seq < x.seq) && (y.stage != 1 || y.full == 0)) = false := fun y hm => by
    simp [(hy.others y hm).2.1, (hy.others y hm).2.2]
  simp only [Cohort.mustFollow, Cohort.listLoad, hy.kind, List.any_append, List.any_cons, List.any_nil, Nat.lt_irrefl]
  simpa using hold

theorem Youngest.onLoad (f : LoadOp → LoadOp) : (h.listLoad x).onLoad x.seq f = h.listLoad (f x) := by
  have hkeep : h.loads.map (fun y => if y.seq = x.seq then f y else y) = h.loads :=
    (List.map_congr_left fun y hm => if_neg (hy.others y hm).1).trans (List.map_id _)
  simp [Cohort.onLoad, Cohort.listLoad, hkeep]

variable {s : State} {c k : Nat} (hh : s.cohort? c k = some h) (hstage : x.stage = 0)
include hh hstage

theorem startLoad_miss {a : LaneAcc} {l : List LaneAcc} (hlanes : x.lanes = a :: l)
    (hmiss : ∀ b ∈ x.lanes, s.find c h.asid (s.gangOf c h) .load b.va = .miss) :
    s.startLoad c k x = (s.setCohort c k (h.listLoad x)).pushOnce .translationWalkComplete [c, h.asid, a.va / 4096] := by
  have hgang : s.gangOf c (h.listLoad x) = s.gangOf c h := rfl
  have hfound : x.lanes.map (fun b => (b, s.find c h.asid (s.gangOf c h) .load b.va)) = x.lanes.map fun b => (b, Found.miss) :=
    List.map_congr_left fun b hb => by rw [hmiss b hb]
  rw [State.startLoad_eq hh hlanes, State.advanceLoad, State.cohort?_setCohort_self]
  dsimp only
  rw [hy.find]
  dsimp only
  rw [hy.mustFollow, hstage, State.gangOf_setCohort, hgang, hy.kind]
  simp only [State.find_setCohort]
  rw [show (AccKind.load).acc = Machine.Acc.load from rfl, show (h.listLoad x).asid = h.asid from rfl, hfound]
  have hnever : List.find? (fun _ => false) l = none := List.find?_eq_none.mpr fun _ _ => Bool.false_ne_true
  simp [List.find?_map, hlanes, show (Found.miss == Found.noPage) = false from rfl, hnever]

theorem startLoad_noPage {a : LaneAcc} {l : List LaneAcc} (hlanes : x.lanes = a :: l) (hlive : h.ending = false)
    (hpage : s.find c h.asid (s.gangOf c h) .load a.va = .noPage) :
    s.startLoad c k x =
      (s.setCohort c k (h.listLoad { x with stage := 3, code := 18, fva := a.va }).halt).notify c k := by
  have hgang : s.gangOf c (h.listLoad x) = s.gangOf c h := rfl
  rw [State.startLoad_eq hh hlanes, State.advanceLoad, State.cohort?_setCohort_self]
  dsimp only
  rw [hy.find]
  dsimp only
  rw [hy.mustFollow, hstage, State.gangOf_setCohort, hgang, hy.kind, hlanes]
  simp only [State.find_setCohort, List.map_cons]
  rw [show (AccKind.load).acc = Machine.Acc.load from rfl, show (h.listLoad x).asid = h.asid from rfl, hpage]
  simp only [bne_self_eq_false, Bool.or_false, Bool.false_eq_true, if_false, List.find?_cons, beq_self_eq_true]
  rw [State.faultLoad, State.cohort?_setCohort_self]
  dsimp only
  rw [show (h.listLoad x).ending = false from hlive, if_neg Bool.false_ne_true, hy.onLoad, State.setCohort_setCohort, hy.kind,
    hlanes]

end

/-! A load that finishes (R78, R141, R142). -/

theorem State.fillLine_held {s : State} {c k : Nat} {h : Cohort} (hh : s.cohort? c k = some h) (habsent : h.absent = []) (r : Nat) :
    s.fillLine c k r = s := by
  rw [State.fillLine, hh, Option.elim_some, habsent]
  rfl

theorem State.fillFor_held {s : State} {c k : Nat} {h : Cohort} (hh : s.cohort? c k = some h) (habsent : h.absent = []) (x : LoadOp) :
    s.fillFor c k x = s := by
  have hfill := State.fillLine_held hh habsent
  unfold State.fillFor
  split
  · rfl
  · split
    · simp only [List.foldl_cons, List.foldl_nil, hfill]
    · simp only [List.foldl_cons, List.foldl_nil, hfill]

theorem State.nudgeLoads_onlyDue (s : State) (c : Nat) (h : Cohort) : OnlyDue s (s.nudgeLoads c h) := by
  unfold State.nudgeLoads
  split
  · exact .pushOnce ..
  · exact .refl s

/-- The value that a lane of a load has got. -/
def LoadOp.gotVal (x : LoadOp) (l : Nat) : Nat := ((x.got.find? fun a => a.lane == l).map (·.x)).getD 0

theorem LoadOp.gotVal_eq (x : LoadOp) (l : Nat) : (x.got.find? fun a => a.lane == l).elim 0 (·.x) = x.gotVal l := by
  unfold LoadOp.gotVal
  cases x.got.find? fun a => a.lane == l <;> rfl

theorem extend_eight (v : Nat) : extend 0 8 v = BitVec.ofNat 64 v := by
  apply BitVec.eq_of_toNat_eq
  simp [extend]

/-- R141: the word that a lane receives: extended by its sign, or by zeros. -/
theorem truncate_extend (ext size v : Nat) : (extend ext size v).truncate 32 =
    if ext = 1 then (BitVec.ofNat (8 * size) v).signExtend 32 else BitVec.ofNat 32 (v % 256 ^ size) := by
  unfold extend
  split
  · simp [sextTo]
  · simp

/-- A finished load as its cohort has it: out of the list, its registers written. -/
def Cohort.finished (h : Cohort) (x : LoadOp) : Cohort := ({ h with loads := h.loads.filter fun y => y.seq != x.seq } : Cohort).writeLoad x

theorem finishLoad_cohort {s : State} {c k : Nat} {h : Cohort} {x : LoadOp} (hh : s.cohort? c k = some h)
    (hx : h.loads.find? (fun y => y.seq == x.seq) = some x) (habsent : h.absent = []) (hbad : x.bad = 0) (hsplit : x.split = none)
    (hlive : (h.finished x).ending = false) : (s.finishLoad c k x.seq).cohort? c k = some (h.finished x) := by
  have hput : s.finishLoad c k x.seq = ((s.setCohort c k (h.finished x)).nudgeLoads c (h.finished x)).notify c k := by
    rw [State.finishLoad, hh, Option.bind_some, hx]
    dsimp only
    rw [State.fillFor_held hh habsent, hh]
    dsimp only
    rw [hsplit, if_pos hbad]
    rfl
  have hnudge := (s.setCohort c k (h.finished x)).nudgeLoads_onlyDue c (h.finished x)
  have hat : ((s.setCohort c k (h.finished x)).nudgeLoads c (h.finished x)).cohort? c k = some (h.finished x) :=
    (hnudge.cohort? c k).trans (State.cohort?_setCohort_self ..)
  rw [hput, (State.notify_live hat hlive).1.cohort? c k, hat]

/-- The lanes that a load without poison writes. -/
theorem loadMask_eq {x : LoadOp} (hbad : x.bad = 0) (m : Mask) : x.mask &&& ~~~x.bad &&& m = x.mask &&& m := by
  rw [hbad, show ~~~(0 : Mask) = BitVec.allOnes 32 from rfl, BitVec.and_allOnes]

section
variable {h : Cohort} {x : LoadOp}

/-- What a finished load leaves: the list, the rest of the cohort and the registers. -/
structure LoadWritten (h : Cohort) (x : LoadOp) (h' : Cohort) : Prop where
  loads : h'.loads = h.loads.filter fun y => y.seq != x.seq
  splits : h'.splits = h.splits
  same : SameBut h { h' with loads := h.loads }
  preds : SamePreds h h'
  live : h'.ending = h.ending

theorem Cohort.finished_uniform (hbad : x.bad = 0) (hu : x.uniform = true) : LoadWritten h x (h.finished x) ∧
    UniformSet h (h.finished x) x.dst (BitVec.ofNat 64 ((x.got.headD { lane := 0, va := 0 }).x)) x.tag ∧ SameLanes h (h.finished x) := by
  have heq : h.finished x = ({ h with loads := h.loads.filter fun y => y.seq != x.seq } : Cohort).setQ x.dst
      (BitVec.ofNat 64 ((x.got.headD { lane := 0, va := 0 }).x)) x.tag := by
    rw [Cohort.finished, Cohort.writeLoad, if_pos hu, if_pos hbad, extend_eight]
  have hset := Cohort.setQ_set ({ h with loads := h.loads.filter fun y => y.seq != x.seq } : Cohort) x.dst
    (BitVec.ofNat 64 ((x.got.headD { lane := 0, va := 0 }).x)) x.tag
  rw [heq]
  refine ⟨?_, ⟨hset.value, hset.zero, hset.others⟩, ?_⟩
  · unfold Cohort.setQ
    split <;> exact ⟨rfl, rfl, rfl, fun _ => rfl, rfl⟩
  · unfold Cohort.setQ
    split <;> exact fun _ => rfl

theorem Cohort.finished_pair (hbad : x.bad = 0) (hu : x.uniform = false) (hsize : x.size = 8) : LoadWritten h x (h.finished x) ∧
    PairSet h (h.finished x) x.dst (x.mask &&& ~~~h.dmask) x.tag (fun l => extend x.ext 8 (x.gotVal l)) ∧ SameUniform h (h.finished x) := by
  have heq : h.finished x = ({ h with loads := h.loads.filter fun y => y.seq != x.seq } : Cohort).setPair x.dst (x.mask &&& ~~~h.dmask) x.tag
      fun l => extend x.ext 8 (x.gotVal l) := by
    rw [Cohort.finished, Cohort.writeLoad, if_neg (by rw [hu]; decide), if_pos hsize, loadMask_eq hbad, hsize]
    simp only [LoadOp.gotVal_eq]
  have hset := Cohort.setPair_set ({ h with loads := h.loads.filter fun y => y.seq != x.seq } : Cohort) x.dst (x.mask &&& ~~~h.dmask) x.tag
    fun l => extend x.ext 8 (x.gotVal l)
  rw [heq]
  exact ⟨⟨rfl, rfl, rfl, fun _ => rfl, rfl⟩, ⟨hset.words, hset.tags, hset.others⟩, fun _ => ⟨rfl, rfl⟩⟩

theorem Cohort.finished_lanes (hbad : x.bad = 0) (hu : x.uniform = false) (hsize : x.size ≠ 8) : LoadWritten h x (h.finished x) ∧
    LanesSet h (h.finished x) x.dst (x.mask &&& ~~~h.dmask) x.tag (fun l => (extend x.ext x.size (x.gotVal l)).truncate 32) ∧
    SameUniform h (h.finished x) := by
  have heq : h.finished x = ({ h with loads := h.loads.filter fun y => y.seq != x.seq } : Cohort).setLanes x.dst (x.mask &&& ~~~h.dmask) x.tag
      fun l => (extend x.ext x.size (x.gotVal l)).truncate 32 := by
    rw [Cohort.finished, Cohort.writeLoad, if_neg (by rw [hu]; decide), if_neg hsize, loadMask_eq hbad]
    simp only [LoadOp.gotVal_eq]
  have hset := Cohort.setLanes_set ({ h with loads := h.loads.filter fun y => y.seq != x.seq } : Cohort) x.dst (x.mask &&& ~~~h.dmask) x.tag
    fun l => (extend x.ext x.size (x.gotVal l)).truncate 32
  rw [heq]
  exact ⟨⟨rfl, rfl, rfl, fun _ => rfl, rfl⟩, ⟨hset.words, hset.tag, hset.poison, hset.others⟩, fun _ => ⟨rfl, rfl⟩⟩

theorem Cohort.finished_written (hbad : x.bad = 0) : LoadWritten h x (h.finished x) := by
  rcases Bool.eq_false_or_eq_true x.uniform with hu | hu
  · exact (Cohort.finished_uniform hbad hu).1
  · by_cases hsize : x.size = 8
    · exact (Cohort.finished_pair hbad hu hsize).1
    · exact (Cohort.finished_lanes hbad hu hsize).1

end

/-- Settles O27: the start of a load by what its first address finds, and its end by the form of its destination. -/
theorem loadsProceed : Obligations.LoadsProceed := by
  refine ⟨fun s c k h x a l hh hlanes hstage hkind hlive hstay hothers => ?_, fun s c k h x hh hx hlive habsent hbad hsplit => ?_⟩
  · have hy : Youngest h x := ⟨hkind, hothers⟩
    refine ⟨fun hmiss => ?_, fun hpage => ?_⟩
    · rw [startLoad_miss hy hh hstage hlanes hmiss]
      exact ⟨(OnlyDue.pushOnce ..).rest_of_setCohort, State.mem_pushOnce ..⟩
    · rw [startLoad_noPage hy hh hstage hlanes hlive hpage]
      obtain ⟨honly, hdue⟩ := State.notify_live (State.cohort?_setCohort_self s c k (h.listLoad { x with stage := 3, code := 18, fva := a.va }).halt) hlive
      exact ⟨honly.rest_of_setCohort, hdue rfl⟩
  · have hwritten := Cohort.finished_written (h := h) hbad
    refine ⟨_, finishLoad_cohort hh hx habsent hbad hsplit (hwritten.live.trans hlive), hwritten.loads, hwritten.splits, hwritten.same, hwritten.preds,
      fun hu hsize hext => ?_, fun hu hsize _ => ?_, fun hu => (Cohort.finished_uniform hbad hu).2⟩
    · have hpair := (Cohort.finished_pair (h := h) hbad hu hsize).2
      simp only [hext, extend_eight] at hpair
      exact hpair
    · have hset := (Cohort.finished_lanes (h := h) hbad hu hsize).2
      simp only [truncate_extend] at hset
      exact hset

end Sys2Proof.Machine
end

section
/-! SUPPORT. Issued work that is over: what waits for it goes on, with nothing but cohorts and what is due changed (R162, R166, R193, R219). -/

namespace Sys2Proof

theorem Tbl.mem_of_find? {α : Type} {t : Tbl α} {k : Nat} {a : α} (h : Tbl.find? t k = some a) : (k, a) ∈ t := by
  induction t with
  | nil => cases h
  | cons e r ih =>
    rw [Tbl.find?] at h
    split at h
    · next hk =>
      obtain rfl := Option.some.inj h
      rw [← hk]
      exact List.mem_cons_self
    · exact List.mem_cons_of_mem _ (ih h)

end Sys2Proof

namespace Sys2Proof.Machine

open Sys2Proof

/-- From `s` to `t` cohorts of the cores have gone on or have left their slots, and rows have come due; nothing else has changed. -/
structure GoesOn (s t : State) : Prop where
  rest : { t with cores := s.cores, agenda := s.agenda } = s
  core : ∀ d, { t.core d with cohorts := (s.core d).cohorts, away := (s.core d).away, lines := (s.core d).lines } = s.core d
  kept : ∀ d ∈ s.agenda, d ∈ t.agenda

namespace GoesOn

variable {s t u : State}

theorem refl (s : State) : GoesOn s s := ⟨rfl, fun _ => rfl, fun _ hd => hd⟩

theorem trans (h : GoesOn s t) (h' : GoesOn t u) : GoesOn s u where
  rest := (congrArg (fun v : State => { v with cores := s.cores, agenda := s.agenda }) h'.rest).trans h.rest
  core d := (congrArg (fun co : CoreSt => { co with cohorts := (s.core d).cohorts, away := (s.core d).away, lines := (s.core d).lines }) (h'.core d)).trans (h.core d)
  kept d hd := h'.kept d (h.kept d hd)

theorem pushOnce (s : State) (i : Instr) (l : List Nat) : GoesOn s (s.pushOnce i l) := by
  unfold State.pushOnce
  split
  · exact refl s
  · exact ⟨rfl, fun _ => rfl, fun d hd => List.mem_append_left _ hd⟩

theorem ite {p : Prop} [Decidable p] (ht : GoesOn s t) (hu : GoesOn s u) : GoesOn s (if p then t else u) := by
  split
  · exact ht
  · exact hu

theorem onCore (s : State) (c : Nat) {f : CoreSt → CoreSt}
    (hf : ∀ co, { f co with cohorts := co.cohorts, away := co.away, lines := co.lines } = co) : GoesOn s (s.onCore c f) where
  rest := rfl
  core d := by
    by_cases hd : d = c
    · subst hd
      rw [State.core_onCore_self]
      exact hf _
    · rw [State.core_onCore_ne _ _ hd]
  kept _ hd := hd

theorem freeTile (s : State) (c b n : Nat) : GoesOn s (s.freeTile c b n) := onCore s c fun _ => rfl

theorem retryHolds (s : State) (c : Nat) (f : Hold → Bool) : GoesOn s (s.retryHolds c f) := onCore s c fun _ => rfl

theorem checkBlock (s : State) (c b : Nat) : GoesOn s (s.checkBlock c b) := .ite (pushOnce ..) (refl s)

theorem reap (s : State) (c k : Nat) : GoesOn s (s.reap c k) := by
  unfold State.reap
  split
  · exact refl s
  · refine .ite (.trans (.trans (onCore s c ?_) (checkBlock ..)) (pushOnce ..)) (refl s)
    exact fun _ => rfl

theorem notify (s : State) (c k : Nat) : GoesOn s (s.notify c k) := by
  unfold State.notify
  split
  · exact refl s
  · have htrap (t : State) (p : Prop) [Decidable p] (i : Instr) (l : List Nat) : GoesOn t (if p then t.pushOnce i l else t) :=
      .ite (pushOnce ..) (refl t)
    have hskip (t : State) (p : Prop) [Decidable p] (i : Instr) (l : List Nat) : GoesOn t (if p then t else t.pushOnce i l) :=
      .ite (refl t) (pushOnce ..)
    exact ((((htrap ..).trans (htrap ..)).trans (hskip ..)).trans (hskip ..)).trans (reap ..)

theorem mem (h : GoesOn s t) : t.mem = s.mem := (congrArg State.mem h.rest :)

theorem accPoison (h : GoesOn s t) : t.accPoison = s.accPoison := (congrArg State.accPoison h.rest :)

theorem blocks (h : GoesOn s t) (c : Nat) : (t.core c).blocks = (s.core c).blocks := (congrArg CoreSt.blocks (h.core c) :)

theorem block? (h : GoesOn s t) (c b : Nat) : t.block? c b = s.block? c b := by rw [State.block?, State.block?, h.blocks]

theorem mats (h : GoesOn s t) (c : Nat) : (t.core c).mats = (s.core c).mats := (congrArg CoreSt.mats (h.core c) :)

theorem eng (h : GoesOn s t) (c e : Nat) : (t.core c).eng e = (s.core c).eng e := (congrArg (fun co : CoreSt => co.eng e) (h.core c) :)

end GoesOn

/-- R162: where every handle's owner is alive, no handle of the block is released. -/
theorem State.releaseOrphans_of_live {s : State} {c b : Nat} {bl : Block} (hb : s.block? c b = some bl)
    (hlive : ∀ k ∈ bl.handles, k.2.owner ∈ bl.live) : s.releaseOrphans c b = s := by
  unfold State.releaseOrphans
  rw [hb]
  dsimp only
  rw [List.filter_eq_nil_iff.mpr, List.map_nil, List.foldl_nil]
  intro k hk
  simp [hlive k hk]

/-- The owners of a block's handles are still alive when one of them has changed under the same owner. -/
theorem owners_alive_put {bl : Block} {n : Nat} {x y : Handle} (hx : Tbl.find? bl.handles n = some x) (hlive : ∀ k ∈ bl.handles, k.2.owner ∈ bl.live)
    (hy : y.owner = x.owner) : ∀ k ∈ Tbl.put bl.handles n y, k.2.owner ∈ bl.live := by
  intro k hk
  rcases Tbl.mem_of_mem_put hk with rfl | hold
  · rw [hy]
    exact hlive _ (Tbl.mem_of_find? hx)
  · exact hlive k hold

end Sys2Proof.Machine
end

section
/-! SUPPORT. The request at the head of a core's frame queue (R166, R233). -/

namespace Sys2Proof.Machine

open Sys2Proof

/-- The core with its queue of frame requests as given. -/
def CoreSt.queued (co : CoreSt) (l : List FrameReq) : CoreSt := { co with frameWaits := l }

theorem State.liveRequests_cons {s : State} {c : Nat} {r : FrameReq} (h : s.requestLive c r = true) (l : List FrameReq) : s.liveRequests c (r :: l) = r :: l :=
  if_pos h

theorem CoreSt.frameRun_queued (co : CoreSt) (l : List FrameReq) (k : Nat) : (co.queued l).frameRun k = co.frameRun k := rfl

theorem State.block?_queued (s : State) (c b : Nat) (l : List FrameReq) : (s.onCore c (·.queued l)).block? c b = s.block? c b := by
  rw [State.block?, State.core_onCore_self]
  rfl

section

variable {s : State} {c : Nat} {r : FrameReq} {rs : List FrameReq} (hev : s.ev = [c]) (hq : (s.core c).frameWaits = r :: rs)
  (hlive : s.requestLive c r = true)
include hev hq hlive

/-- R233: where no run is free, the queue keeps its live requests. -/
theorem frameGrant_waits (hrun : (s.core c).frameRun r.frames = none) : exec .frameGrant s = .next (s.onCore c (·.queued (r :: rs))) := by
  have hrun' : ((s.onCore c (·.queued (r :: rs))).core c).frameRun r.frames = none := by
    rw [State.core_onCore_self, CoreSt.frameRun_queued, hrun]
  rw [exec_frameGrant, execFrameGrant]
  simp only [State.arg, hev, List.getD_cons_zero, hq, State.liveRequests_cons hlive]
  exact hrun' ▸ rfl

/-- R166, R233, R234: where a run is free, a fill that waits for frames has them, clear, and begins to read. -/
theorem frameGrant_fills {bl : Block} {h : Handle} {f : Nat} (hb : s.block? c r.slot = some bl) (hh : Tbl.find? bl.handles r.handle = some h)
    (hstate : h.state = .filling) (hframes : h.frames = 0) (hrun : (s.core c).frameRun r.frames = some f) :
    Answers s .frameGrant fun t =>
      (t.core c).frameWaits = rs ∧ Due.mk .fillEnd [c, r.slot, r.handle] ∈ t.agenda ∧
      (∀ a, Mem.rd t.mem a = if tileBase c + f * 4096 ≤ a ∧ a < tileBase c + (f + r.frames) * 4096 then 0 else Mem.rd s.mem a) ∧
      t.block? c r.slot = some { bl with handles := Tbl.put bl.handles r.handle { h with frame := f, frames := r.frames } } := by
  set s1 := s.onCore c (·.queued (r :: rs)) with hs1
  have hrun' : (s1.core c).frameRun r.frames = some f := by rw [hs1, State.core_onCore_self, CoreSt.frameRun_queued, hrun]
  have hb1 : s1.block? c r.slot = some bl := (s.block?_queued ..).trans hb
  have hat : (s1.block? c r.slot).elim ({} : Handle) (fun b => Tbl.at b.handles r.handle {}) = h := by
    rw [hb1]
    exact Tbl.at_of_find? _ hh
  set s2 := (s1.setHandle c r.slot r.handle (h.take f r.frames)).clearFrames c f r.frames with hs2
  set s3 := (s2.onCore c (·.queued rs)).pushOnce .fillEnd [c, r.slot, r.handle] with hs3
  set t := if rs = [] then s3 else s3.pushOnce .frameGrant [c] with ht
  have hexec : exec .frameGrant s = .next t := by
    rw [exec_frameGrant, execFrameGrant]
    simp only [State.arg, hev, List.getD_cons_zero, hq, State.liveRequests_cons hlive]
    dsimp only [CoreSt.queued] at hs1
    rw [← hs1, hrun']
    dsimp only
    rw [hat, if_pos ⟨hstate, hframes⟩]
    rfl
  have hdue : OnlyDue s3 t := .ite (.refl s3) (.pushOnce ..)
  have hdue3 : OnlyDue (s2.onCore c (·.queued rs)) s3 := .pushOnce ..
  have hcores2 : s2.cores = (s1.setHandle c r.slot r.handle (h.take f r.frames)).cores := (congrArg State.cores (State.clearFrames_frame ..) :)
  refine ⟨t, hexec, ?_, hdue.kept _ (State.mem_pushOnce ..), fun a => ?_, ?_⟩
  · rw [hdue.core, hdue3.core, State.core_onCore_self]
    rfl
  · rw [hdue.mem, hdue3.mem, State.onCore_mem, hs2, State.rd_clearFrames, State.setHandle_mem]
    simp only [hs1, State.onCore_mem, Nat.add_mul, Nat.add_assoc]
  · rw [hdue.block?, hdue3.block?, State.block?_queued, State.block?, State.core, hcores2, State.setHandle_of_block hb1]
    exact State.block?_setBlock_self ..

end

end Sys2Proof.Machine
end

section
/-! SUPPORT. What reading an image leaves of a core (R184, R325): its blocks, its cohorts and the accesses stay, whatever the reads bring into caches. -/

namespace Sys2Proof

theorem Tbl.find?_cons_self {α : Type} (k : Nat) (a : α) (r : Tbl α) : Tbl.find? ((k, a) :: r) k = some a := if_pos rfl

section

variable {α β : Type} {g : Nat × α → Option (Nat × β)} {k : Nat} {d : α} {i : β} (hkey : ∀ e x, g e = some x → x.1 = e.1)
include hkey

/-- A search that names keys skips the entries of other keys than the one it finds. -/
theorem Tbl.skip_of_findSome? {j : Nat} {b : α} {r : Tbl α} (hjk : j ≠ k) (h : List.findSome? g ((j, b) :: r) = some (k, i)) :
    g (j, b) = none ∧ r.findSome? g = some (k, i) := by
  rw [List.findSome?_cons] at h
  cases hgb : g (j, b) with
  | none => exact ⟨rfl, by rwa [hgb] at h⟩
  | some x =>
    rw [hgb] at h
    obtain rfl := Option.some.inj h
    exact absurd (hkey _ _ hgb).symm hjk

/-- What a search finds at a key is what it finds in the entry that a lookup of the key gives, if that has anything. -/
theorem Tbl.at_of_findSome? {t : Tbl α} {x : Nat × β} (h : t.findSome? g = some (k, i)) (hx : g (k, Tbl.at t k d) = some x) : x = (k, i) := by
  induction t with
  | nil => cases h
  | cons e r ih =>
    obtain ⟨j, b⟩ := e
    by_cases hjk : j = k
    · subst hjk
      rw [Tbl.at_of_find? d (Tbl.find?_cons_self j b r)] at hx
      rw [List.findSome?_cons, hx] at h
      exact Option.some.inj h
    · rw [Tbl.at, Tbl.find?, if_neg hjk] at hx
      exact ih (Tbl.skip_of_findSome? hkey hjk h).2 hx

/-- A search goes on finding an entry at its key when another is put there in which it finds the same. -/
theorem Tbl.findSome?_put {t : Tbl α} {a : α} (ha : g (k, a) = g (k, Tbl.at t k d)) (h : t.findSome? g = some (k, i)) :
    (Tbl.put t k a).findSome? g = some (k, i) := by
  induction t with
  | nil => cases h
  | cons e r ih =>
    obtain ⟨j, b⟩ := e
    rw [Tbl.put]
    by_cases hjk : j = k
    · subst hjk
      rw [Tbl.at_of_find? d (Tbl.find?_cons_self j b r)] at ha
      rw [if_neg (lt_irrefl j), if_pos rfl, List.findSome?_cons, ha, ← List.findSome?_cons]
      exact h
    · split
      · rw [List.findSome?_cons, ha]
        cases hx : g (k, Tbl.at ((j, b) :: r) k d) with
        | none => exact h
        | some x => exact congrArg some (Tbl.at_of_findSome? hkey h hx)
      · obtain ⟨hnone, hrest⟩ := Tbl.skip_of_findSome? hkey hjk h
        rw [Tbl.at, Tbl.find?, if_neg hjk] at ha
        rw [List.findSome?_cons, hnone]
        exact ih ha hrest

end

end Sys2Proof

namespace Sys2Proof.Machine

open Sys2Proof

/-- A resident cohort stays where it is when its core changes but for its cohorts. -/
theorem State.whereIs_onCore {s : State} {c uid i : Nat} {f : CoreSt → CoreSt} (hf : ∀ co, (f co).cohorts = co.cohorts) (h : s.whereIs uid = some (c, i)) :
    (s.onCore c f).whereIs uid = some (c, i) := by
  rw [State.whereIs, State.onCore_cores]
  refine Tbl.findSome?_put (d := {}) (fun e x hx => ?_) ?_ h
  · obtain ⟨y, -, rfl⟩ := Option.map_eq_some_iff.mp hx
    rfl
  · dsimp only
    rw [hf]
    rfl

/-- From `s` to `t` caches, slices, memory and what is due may differ, by reads for core `c`; no block, cohort or access of the core does. -/
structure ReadsAt (c : Nat) (s t : State) : Prop where
  accs : t.accs = s.accs
  blocks : (t.core c).blocks = (s.core c).blocks
  cohorts : (t.core c).cohorts = (s.core c).cohorts
  whereIs : ∀ uid i, s.whereIs uid = some (c, i) → t.whereIs uid = some (c, i)

namespace ReadsAt

variable {c : Nat} {s t u : State}

theorem of_cores (hcores : t.cores = s.cores) (haccs : t.accs = s.accs) : ReadsAt c s t where
  accs := haccs
  blocks := by rw [State.core, State.core, hcores]
  cohorts := by rw [State.core, State.core, hcores]
  whereIs uid i h := by rw [← h, State.whereIs, State.whereIs, hcores]

theorem refl (s : State) : ReadsAt c s s := of_cores rfl rfl

theorem trans (h : ReadsAt c s t) (h' : ReadsAt c t u) : ReadsAt c s u where
  accs := h'.accs.trans h.accs
  blocks := h'.blocks.trans h.blocks
  cohorts := h'.cohorts.trans h.cohorts
  whereIs uid i hi := h'.whereIs uid i (h.whereIs uid i hi)

theorem onCore (s : State) {f : CoreSt → CoreSt} (hblocks : ∀ co, (f co).blocks = co.blocks) (hcohorts : ∀ co, (f co).cohorts = co.cohorts) :
    ReadsAt c s (s.onCore c f) where
  accs := rfl
  blocks := by rw [State.core_onCore_self, hblocks]
  cohorts := by rw [State.core_onCore_self, hcohorts]
  whereIs _ _ h := State.whereIs_onCore hcohorts h

theorem block? (h : ReadsAt c s t) (b : Nat) : t.block? c b = s.block? c b := by rw [State.block?, State.block?, h.blocks]

theorem cohort? (h : ReadsAt c s t) (k : Nat) : t.cohort? c k = s.cohort? c k := by rw [State.cohort?, State.cohort?, h.cohorts]

theorem narrow (s : State) (line : Nat) : ReadsAt c s (s.narrow line) := by
  unfold State.narrow
  split
  · exact refl s
  · exact of_cores rfl rfl

theorem lineRead (s : State) (line reuse : Nat) : ReadsAt c s (s.lineRead line reuse) :=
  of_cores (congrArg State.cores (s.lineRead_frame line reuse) :) (congrArg State.accs (s.lineRead_frame line reuse) :)

theorem readWalk (s : State) (asid va n page : Nat) : ReadsAt c s (s.readWalk asid va n page) := by
  induction n generalizing s page with
  | zero => exact refl s
  | succ n ih =>
    unfold State.readWalk
    dsimp only
    split
    · exact refl s
    · split
      · exact lineRead ..
      · exact (lineRead ..).trans (ih ..)

theorem findNow (s : State) (asid gang : Nat) (a : Machine.Acc) (va : Nat) : ReadsAt c s (s.findNow c asid gang a va).2 := by
  unfold State.findNow
  split
  · split
    · exact readWalk ..
    · dsimp only
      refine (readWalk ..).trans (onCore _ ?_ ?_)
      all_goals exact fun _ => rfl
  · exact refl s

theorem granuleAddrs (s : State) (asid gang : Nat) (a : Machine.Acc) (vas : List Nat) : ReadsAt c s (s.granuleAddrs c asid gang a vas).2 := by
  induction vas generalizing s with
  | nil => exact refl s
  | cons va r ih =>
    have hfind := findNow (c := c) s asid gang a va
    rw [State.granuleAddrs]
    split
    · next pa _ s1 h1 =>
      rw [h1] at hfind
      split
      · exact hfind
      · have hrest := hfind.trans (ih s1)
        split
        · next l s2 h2 => rwa [h2] at hrest
        · exact hrest
    · next s1 h1 => rwa [h1] at hfind
    · next s1 h1 => rwa [h1] at hfind

theorem readGranule (s : State) (pa : Nat) : ReadsAt c s (s.readGranule c pa).2.2 := by
  unfold State.readGranule
  split
  · exact refl s
  · dsimp only
    split
    · dsimp only
      refine onCore _ ?_ ?_
      all_goals exact fun _ => rfl
    · split
      · exact (lineRead ..).trans (narrow ..)
      · dsimp only
        refine ((lineRead ..).trans (narrow ..)).trans (onCore _ ?_ ?_)
        all_goals exact fun _ => rfl

theorem readGranules (s : State) (l : List (Nat × Nat)) : ReadsAt c s (s.readGranules c l).2.2 := by
  induction l generalizing s with
  | nil => exact refl s
  | cons e r ih => exact (readGranule ..).trans (ih _)

/-- R184: an image read leaves the core's blocks and cohorts, and the accesses. -/
theorem readImage (s : State) (asid gang va : Nat) (x : TShape) : ReadsAt c s (s.readImage c asid gang va x).2 := by
  have haddrs := granuleAddrs (c := c) s asid gang .load ((List.range x.granules).map fun g => va + 16 * g)
  rw [State.readImage, State.readPart]
  split
  · next e s1 h1 => rwa [h1] at haddrs
  · next l s1 h1 =>
    rw [h1] at haddrs
    exact haddrs.trans (readGranules ..)

end ReadsAt

end Sys2Proof.Machine
end

section
/-! SUPPORT. The end of a fill (R166, R177). -/

namespace Sys2Proof.Machine

open Sys2Proof

theorem State.taint_frame (s : State) (pa n : Nat) : { s.taint pa n with poison := s.poison } = s := by
  unfold State.taint
  split <;> rfl

theorem State.putTile_keeps (s : State) (c : Nat) (h : Handle) (x : TShape) (img : TImg) :
    (s.putTile c h x img).cores = s.cores ∧ (s.putTile c h x img).accs = s.accs := by
  unfold State.putTile
  refine List.foldlRecOn (motive := fun t : State => t.cores = s.cores ∧ t.accs = s.accs) _ _ ⟨rfl, rfl⟩ ?_
  intro t ⟨hcores, haccs⟩ g _
  have htaint := t.taint_frame (frameAddr c h + 16 * g) 16
  exact ⟨(congrArg State.cores htaint :).trans hcores, (congrArg State.accs htaint :).trans haccs⟩

theorem State.freeFrames_cores (s : State) (c f k : Nat) : (s.freeFrames c f k).cores = s.cores := by
  have hclear : (s.clearFrames c f k).cores = s.cores := (congrArg State.cores (s.clearFrames_frame c f k) :)
  unfold State.freeFrames
  split
  · exact hclear
  · rw [State.pushOnce_cores, hclear]

/-- The handle once its fill has ended (R177). -/
def Handle.filled (h : Handle) : Handle :=
  { h with state := if h.retBound then .bound else .resident, fill := none, log := [], frames := h.shape.frames }

/-- The handle whose fill a trap is to hold (R177). -/
def Handle.fillHeld (h : Handle) (x : Transfer) (code fva : Nat) : Handle := { h with fill := some { x with held := true, code := code, fva := fva } }

theorem State.bankWaiters_nil {s : State} (h : s.accs = []) : s.bankWaiters = [] := by simp [State.bankWaiters, h, sortBy]

/-- R177: where no access waits, the end of a fill changes its handle of the cores. -/
theorem State.endFill_cores {s : State} (haccs : s.accs = []) (c b n : Nat) (h : Handle) (img : TImg) :
    (s.endFill c b n h (some img)).cores = (s.setHandle c b n h.filled).cores := by
  obtain ⟨hcores, haccs1⟩ := (s.setHandle c b n h.filled).putTile_keeps c h.filled h.filled.shape img
  have haccs' : ((s.setHandle c b n h.filled).putTile c h.filled h.filled.shape img).accs = [] := calc
    _ = (s.setHandle c b n h.filled).accs := haccs1
    _ = s.accs := State.setHandle_accs ..
    _ = [] := haccs
  obtain ⟨l, hfull⟩ := State.setFull_eq (State.bankWaiters_nil haccs') c h.filled true
  calc (s.endFill c b n h (some img)).cores
      = (((s.setHandle c b n h.filled).putTile c h.filled h.filled.shape img).setFull c h.filled true).cores := State.freeFrames_cores ..
    _ = ((s.setHandle c b n h.filled).putTile c h.filled h.filled.shape img).cores := by rw [hfull]
    _ = (s.setHandle c b n h.filled).cores := hcores

/-- What waits for a fill goes on; no handle is released with it where their owners are alive. -/
theorem GoesOn.settleFill {s : State} {c b : Nat} {bl : Block} (hb : s.block? c b = some bl) (hlive : ∀ k ∈ bl.handles, k.2.owner ∈ bl.live)
    (n : Nat) (x : Transfer) : GoesOn s (s.settleFill c b n x) := by
  unfold State.settleFill
  dsimp only
  set s0 := if (s.core c).mats.any (!·.started) then s.pushOnce .mmpStart [c] else s
  have h0 : GoesOn s (s0.freeTile c b n) := (GoesOn.ite (.pushOnce ..) (.refl s)).trans (.freeTile ..)
  rw [State.releaseOrphans_of_live ((h0.block? c b).trans hb) hlive]
  split
  · exact h0.trans (.notify ..)
  · exact h0

theorem State.block?_of_cores {s t : State} (h : t.cores = s.cores) (c b : Nat) : t.block? c b = s.block? c b := by
  rw [State.block?, State.block?, State.core, State.core, h]

section

variable {s u : State} {c b n : Nat} {bl : Block} {h : Handle} {x : Transfer} (hev : s.ev = [c, b, n]) (hb : s.block? c b = some bl)
  (hh : Tbl.find? bl.handles n = some h) (hfill : h.fill = some x) (hheld : x.held = false) (hstate : h.state = .filling)
  (hframes : h.shape.frames ≤ h.frames) (hcode : x.code ≠ 255)
  (hready : s.spanReady c ((Tbl.find? s.launches bl.launch).elim 0 (·.asid)) bl.gang .load (h.memShape.spans x.va) = true)
include hev hb hh hfill hheld hstate hframes hcode hready

/-- FILL_END reads the image, and ends the fill with it or holds it for its trap. -/
theorem fillEnd_eq : exec .fillEnd s =
    match s.readImage c ((Tbl.find? s.launches bl.launch).elim 0 (·.asid)) bl.gang x.va h.memShape with
    | (.error e, s1) =>
      match (s1.setHandle c b n (h.fillHeld x e.1 e.2)).whereIs x.uid with
      | some (_, k) => .next (((s1.setHandle c b n (h.fillHeld x e.1 e.2)).onCohort c k Cohort.halt).notify c k)
      | none => .next (s1.setHandle c b n (h.fillHeld x e.1 e.2))
    | (.ok y, s1) => .next ((s1.endFill c b n h (some (applyLog h.log h.memShape y).2)).settleFill c b n x) := by
  rw [exec_fillEnd, execFillEnd]
  simp only [State.arg, hev, List.getD_cons_zero, List.getD_cons_succ, hb, Tbl.at_of_find? _ hh]
  rw [hfill]
  dsimp only
  rw [if_neg (by rw [hheld]; decide), if_neg (by rw [hstate]; decide), if_neg (Nat.not_lt.mpr hframes), if_neg hcode, hready]
  rfl

/-- R177: a fill whose image has come ends, and its handle is resident or bound. -/
theorem fillEnd_ends {img : TImg} (hread : s.readImage c ((Tbl.find? s.launches bl.launch).elim 0 (·.asid)) bl.gang x.va h.memShape = (.ok img, u))
    (haccs : s.accs = []) (hlive : ∀ k ∈ bl.handles, k.2.owner ∈ bl.live) :
    Answers s .fillEnd fun t => ∃ bl', t.block? c b = some bl' ∧ Tbl.find? bl'.handles n = some h.filled := by
  have hreads : ReadsAt c s u := by
    have := ReadsAt.readImage (c := c) s ((Tbl.find? s.launches bl.launch).elim 0 (·.asid)) bl.gang x.va h.memShape
    rwa [hread] at this
  set u1 := u.endFill c b n h (some (applyLog h.log h.memShape img).2) with hu1
  have hb1 : u1.block? c b = some { bl with handles := Tbl.put bl.handles n h.filled } := by
    rw [hu1, State.block?_of_cores (State.endFill_cores (hreads.accs.trans haccs) ..), State.setHandle_of_block ((hreads.block? b).trans hb)]
    exact State.block?_setBlock_self ..
  have hgo : GoesOn u1 (u1.settleFill c b n x) := .settleFill hb1 (owners_alive_put hh hlive rfl) n x
  refine ⟨u1.settleFill c b n x, ?_, _, (hgo.block? c b).trans hb1, Tbl.find?_put_self ..⟩
  rw [fillEnd_eq hev hb hh hfill hheld hstate hframes hcode hready, hread]

/-- R177, R324: a fill whose image cannot be read is held, and its cohort stops for the trap. -/
theorem fillEnd_holds {bad : Nat × Nat} {i : Nat} {y : Cohort}
    (hread : s.readImage c ((Tbl.find? s.launches bl.launch).elim 0 (·.asid)) bl.gang x.va h.memShape = (.error bad, u))
    (hwhere : s.whereIs x.uid = some (c, i)) (hy : s.cohort? c i = some y) (hending : y.ending = false) :
    Answers s .fillEnd fun t => (∃ bl', t.block? c b = some bl' ∧ Tbl.find? bl'.handles n = some (h.fillHeld x bad.1 bad.2)) ∧
      t.cohort? c i = some y.halt ∧ Due.mk .trapEntry [c, i] ∈ t.agenda := by
  have hreads : ReadsAt c s u := by
    have := ReadsAt.readImage (c := c) s ((Tbl.find? s.launches bl.launch).elim 0 (·.asid)) bl.gang x.va h.memShape
    rwa [hread] at this
  set u1 := u.setHandle c b n (h.fillHeld x bad.1 bad.2) with hu1
  have hset : u1 = u.setBlock c b { bl with handles := Tbl.put bl.handles n (h.fillHeld x bad.1 bad.2) } :=
    State.setHandle_of_block ((hreads.block? b).trans hb) ..
  have hwhere1 : u1.whereIs x.uid = some (c, i) := by
    rw [hset]
    refine State.whereIs_onCore ?_ (hreads.whereIs _ _ hwhere)
    exact fun _ => rfl
  have hy1 : u1.cohort? c i = some y := by rw [hset, State.cohort?_setBlock, hreads.cohort?, hy]
  set u2 := u1.setCohort c i y.halt with hu2
  have hy2 : u2.cohort? c i = some y.halt := State.cohort?_setCohort_self ..
  obtain ⟨hdue, htrap⟩ := State.notify_live hy2 hending
  refine ⟨u2.notify c i, ?_, ⟨{ bl with handles := Tbl.put bl.handles n (h.fillHeld x bad.1 bad.2) }, ?_, Tbl.find?_put_self ..⟩, (hdue.cohort? c i).trans hy2, htrap rfl⟩
  · rw [fillEnd_eq hev hb hh hfill hheld hstate hframes hcode hready, hread]
    dsimp only
    rw [← hu1, hwhere1]
    dsimp only
    rw [State.onCohort_some hy1]
  · rw [hdue.block?, hu2, State.block?_setCohort, hset]
    exact State.block?_setBlock_self ..

end

end Sys2Proof.Machine
end

section
/-! SUPPORT. The write of a tile that has started (R166, R169, R331). -/

namespace Sys2Proof.Machine

open Sys2Proof

theorem State.tileReady_of_lost {s : State} {x : Transfer} (h : x.code = 255) (c : Nat) (bl : Block) (y : Handle) : s.tileReady c bl y x = true := by
  simp [State.tileReady, h]

theorem State.performWrite_tile {s : State} {x : Transfer} {h : Handle} (c b n : Nat) (bl : Block) (hcode : x.code ≠ 255) (hstate : h.state ≠ .nonResident)
    (hacrd : ∀ o, decodeWord x.word ≠ .ok (.acrd o)) : s.performWrite c b n bl h x =
      s.writeTile c b n h ((Tbl.find? s.launches bl.launch).elim 0 (·.asid)) bl.gang x (s.tileImg c h) := by
  unfold State.performWrite
  dsimp only
  rw [if_neg hcode]
  split
  · next o _ hdec _ => exact absurd hdec (hacrd o)
  · rw [if_neg hstate]

/-- A write that leaves its handle without evicting it: the handle loses it, and what waits goes on. -/
theorem State.endWrite_alone {s : State} {c b n : Nat} {bl : Block} {h : Handle} {x : Transfer} (hb : s.block? c b = some bl)
    (hh : Tbl.find? bl.handles n = some h) (hwrites : h.writes = [x]) (hevict : x.evict = false) (hlive : ∀ k ∈ bl.handles, k.2.owner ∈ bl.live) :
    GoesOn (s.setHandle c b n { h with writes := [] }) (s.endWrite c b n x) := by
  unfold State.endWrite
  rw [hb]
  dsimp only
  rw [Tbl.at_of_find? _ hh, hwrites, hevict]
  have hnone : List.filter (fun t => !(t.seq == x.seq && t.uid == x.uid)) [x] = [] := by simp
  rw [hnone, if_neg Bool.false_ne_true]
  set s1 := s.setHandle c b n { h with writes := [] } with hs1
  set s2 := if x.grant = 0 then s1 else s1.retryHolds c (· == .grant)
  have hb1 : s1.block? c b = some { bl with handles := Tbl.put bl.handles n { h with writes := [] } } := by
    rw [hs1, State.setHandle_of_block hb]
    exact State.block?_setBlock_self ..
  have hfree : GoesOn s1 (s2.freeTile c b n) := (GoesOn.ite (.refl s1) (.retryHolds ..)).trans (.freeTile ..)
  rw [State.releaseOrphans_of_live ((hfree.block? c b).trans hb1) (owners_alive_put hh hlive rfl)]
  have hcheck : GoesOn s1 ((s2.freeTile c b n).checkBlock c b) := hfree.trans (.checkBlock ..)
  split
  · exact hcheck.trans (.notify ..)
  · exact hcheck

section

variable {s : State} {c b n : Nat} {bl : Block} {h : Handle} {x : Transfer} (hev : s.ev = [c, b, n]) (hb : s.block? c b = some bl)
  (hh : Tbl.find? bl.handles n = some h) (hwrites : h.writes = [x]) (hheld : x.held = false) (hstuck : s.writeStuck x = false)
include hev hb hh hwrites hheld hstuck

theorem tileWriteComplete_eq (hready : s.tileReady c bl h x = true) : exec .tileWriteComplete s = .next (s.performWrite c b n bl h x) := by
  rw [exec_tileWriteComplete, execTileWriteComplete]
  simp only [State.arg, hev, List.getD_cons_zero, List.getD_cons_succ, hb, Tbl.at_of_find? _ hh, hwrites]
  have hfind : List.find? (fun y : Transfer => !y.held) [x] = some x := by simp [hheld]
  have hone : (List.filter (fun y : Transfer => !y.held) [x]).length ≤ 1 := List.length_filter_le ..
  rw [hfind]
  dsimp only
  rw [hstuck, hready, if_pos hone]
  rfl

/-- R169: the write of a tile in its frames puts its contents. -/
theorem tileWriteComplete_writes (hready : s.tileReady c bl h x = true) (hcode : x.code ≠ 255) (hstate : h.state ≠ .nonResident)
    (hacrd : ∀ o, decodeWord x.word ≠ .ok (.acrd o)) : exec .tileWriteComplete s =
      .next (s.writeTile c b n h ((Tbl.find? s.launches bl.launch).elim 0 (·.asid)) bl.gang x (s.tileImg c h)) := by
  rw [tileWriteComplete_eq hev hb hh hwrites hheld hstuck hready, State.performWrite_tile c b n bl hcode hstate hacrd]

/-- A write that is lost leaves its handle with nothing written. -/
theorem tileWriteComplete_drops (hcode : x.code = 255) (hevict : x.evict = false) (hlive : ∀ k ∈ bl.handles, k.2.owner ∈ bl.live) :
    Answers s .tileWriteComplete fun t =>
      (∃ bl', t.block? c b = some bl' ∧ Tbl.find? bl'.handles n = some { h with writes := [] }) ∧ t.mem = s.mem := by
  have hgo := State.endWrite_alone hb hh hwrites hevict hlive
  refine ⟨s.endWrite c b n x, ?_, ⟨{ bl with handles := Tbl.put bl.handles n { h with writes := [] } }, ?_, Tbl.find?_put_self ..⟩,
    hgo.mem.trans (State.setHandle_mem ..)⟩
  · rw [tileWriteComplete_eq hev hb hh hwrites hheld hstuck (State.tileReady_of_lost hcode ..), State.performWrite, if_pos hcode]
  · rw [hgo.block?, State.setHandle_of_block hb]
    exact State.block?_setBlock_self ..

end

end Sys2Proof.Machine
end

section
/-! SUPPORT. Accumulator elements and matrix multiplies (R46, R179 to R181). -/

namespace Sys2Proof

theorem Mem.rdBytes_congr {m m' : Mem} {a n : Nat} (h : ∀ b, a ≤ b → b < a + n → Mem.rd m b = Mem.rd m' b) : Mem.rdBytes m a n = Mem.rdBytes m' a n := by
  induction n generalizing a with
  | zero => rfl
  | succ n ih => rw [Mem.rdBytes, Mem.rdBytes, h a (by omega) (by omega), ih fun b hlo hhi => h b (by omega) (by omega)]

/-- A number read beside one that is written is as before. -/
theorem Mem.rdN_wrN_apart {m : Mem} (hwf : m.wf = true) {a b j k : Nat} (h : a + j ≤ b ∨ b + k ≤ a) (v : Nat) :
    Mem.rdN (Mem.wrN m b k v) a j = Mem.rdN m a j := by
  have hbytes : Mem.rdBytes (Mem.wrN m b k v) a j = Mem.rdBytes m a j := by
    refine Mem.rdBytes_congr fun x hlo hhi => Mem.rd_wrBytes_out hwf _ _ _ ?_
    rw [leBytes_length]
    omega
  rw [Mem.rdN, Mem.rdN, hbytes]

end Sys2Proof

namespace Sys2Proof.Machine

open Sys2Proof

/-! Elements (R179). -/

/-- R179: elements of rows below 256 and columns below 512 stand apart. -/
theorem accAddr_apart (c : Nat) (g : Grant) {i n i' n' : Nat} (hi : i < 256) (hn : n < 512) (hi' : i' < 256) (hn' : n' < 512) (h : (i, n) ≠ (i', n')) :
    accAddr c g i n + 4 ≤ accAddr c g i' n' ∨ accAddr c g i' n' + 4 ≤ accAddr c g i n := by
  have hne : i ≠ i' ∨ n ≠ n' := by
    by_contra hboth
    exact h (by simpa [not_or] using hboth)
  simp only [accAddr]
  omega

theorem State.accAt_setAcc_self {s : State} (hwf : s.mem.wf = true) (c : Nat) (g : Grant) (i n v : Nat) (bad : Bool) :
    ((s.setAcc c g i n v bad).accAt c g i n).1 = v % 2 ^ 32 := Mem.rdN_wrN hwf ..

theorem State.accAt_setAcc_ne {s : State} (hwf : s.mem.wf = true) (c : Nat) (g : Grant) {i n i' n' : Nat} (hi : i < 256) (hn : n < 512) (hi' : i' < 256)
    (hn' : n' < 512) (h : (i, n) ≠ (i', n')) (v : Nat) (bad : Bool) : ((s.setAcc c g i' n' v bad).accAt c g i n).1 = (s.accAt c g i n).1 :=
  Mem.rdN_wrN_apart hwf (accAddr_apart c g hi hn hi' hn' h) v

/-- One element of a grant written, with its value and its poison by row and column. -/
def State.putElem (c : Nat) (g : Grant) (val : Nat × Nat → Nat) (bad : Nat × Nat → Bool) (s : State) (p : Nat × Nat) : State :=
  s.setAcc c g p.1 p.2 (val p) (bad p)

section

variable (c : Nat) (g : Grant) (val : Nat × Nat → Nat) (bad : Nat × Nat → Bool)

theorem State.foldl_putElem_cores (s : State) (l : List (Nat × Nat)) : (l.foldl (State.putElem c g val bad) s).cores = s.cores :=
  List.foldlRecOn (motive := fun t : State => t.cores = s.cores) l _ rfl fun _ ht _ _ => ht

/-- R179: of elements that are written one after the other, each one once, every one has its value. -/
theorem State.accAt_foldl_putElem {l : List (Nat × Nat)} (hnodup : l.Nodup) (hin : ∀ p ∈ l, p.1 < 256 ∧ p.2 < 512) {i j : Nat} (hi : i < 256)
    (hj : j < 512) {s : State} (hwf : s.mem.wf = true) : ((l.foldl (State.putElem c g val bad) s).accAt c g i j).1 =
      if (i, j) ∈ l then val (i, j) % 2 ^ 32 else (s.accAt c g i j).1 := by
  induction l generalizing s with
  | nil => rfl
  | cons p r ih =>
    obtain ⟨hnot, hr⟩ := List.nodup_cons.mp hnodup
    obtain ⟨hp1, hp2⟩ := hin p List.mem_cons_self
    rw [List.foldl_cons, ih hr (fun q hq => hin q (List.mem_cons_of_mem _ hq)) (Mem.wrN_wf _ _ _ hwf)]
    by_cases hp : (i, j) = p
    · subst hp
      rw [if_neg hnot, if_pos List.mem_cons_self]
      exact State.accAt_setAcc_self hwf ..
    · have hkeep : ((State.putElem c g val bad s p).accAt c g i j).1 = (s.accAt c g i j).1 := State.accAt_setAcc_ne hwf c g hi hj hp1 hp2 hp ..
      rw [hkeep]
      simp only [List.mem_cons, hp, false_or]

end

/-! Multiplies (R46, R180). -/

/-- R46: the element of a row and a column after a multiply, from the old one. -/
def macValue (g : Grant) (ta tb : TShape) (a b : TImg) (p : Nat × Nat) (old : Nat) : Nat :=
  if g.ty = 2 then intAccum (ta.rowOf (fun e => a.elems.getD e 0) p.1) (tb.colOf (fun e => b.elems.getD e 0) p.2) old
  else matAccum (ta.tag == 0x11) ta.sx.isSome (ta.rowOf (ta.value a) p.1) (tb.colOf (tb.value b) p.2) old

/-- R180: the poison of the element of a row and a column after a multiply, from the old one. -/
def macPoison (ta tb : TShape) (a b : TImg) (p : Nat × Nat) (old : Bool) : Bool :=
  old || (ta.rowOf a.isBad p.1).any id || (tb.colOf b.isBad p.2).any id

/-- R180: a multiply takes each row with each column. -/
theorem State.multiply_eq (s : State) (c : Nat) (g : Grant) (ha hb : Handle) : s.multiply c g ha hb =
    (List.range ha.shape.rows ×ˢ List.range hb.shape.cols).foldl
      (State.putElem c g (fun p => macValue g ha.shape hb.shape (s.tileImg c ha) (s.tileImg c hb) p (s.accAt c g p.1 p.2).1)
        fun p => macPoison ha.shape hb.shape (s.tileImg c ha) (s.tileImg c hb) p (s.accAt c g p.1 p.2).2) s := by
  unfold State.multiply
  simp only [List.foldl_map, SProd.sprod, List.product, List.foldl_flatMap]
  rfl

theorem State.multiply_cores (s : State) (c : Nat) (g : Grant) (ha hb : Handle) : (s.multiply c g ha hb).cores = s.cores := by
  rw [State.multiply_eq, State.foldl_putElem_cores]

/-- R46, R180: each element of a multiply takes its row and its column. -/
theorem State.accAt_multiply {s : State} (hwf : s.mem.wf = true) (c : Nat) (g : Grant) {ha hb : Handle} (hrows : ha.shape.rows ≤ 256)
    (hcols : hb.shape.cols ≤ 512) {i j : Nat} (hi : i < ha.shape.rows) (hj : j < hb.shape.cols) : ((s.multiply c g ha hb).accAt c g i j).1 =
      macValue g ha.shape hb.shape (s.tileImg c ha) (s.tileImg c hb) (i, j) (s.accAt c g i j).1 % 2 ^ 32 := by
  have hbounds : ∀ p ∈ List.range ha.shape.rows ×ˢ List.range hb.shape.cols, p.1 < 256 ∧ p.2 < 512 := by
    intro p hp
    obtain ⟨h1, h2⟩ := List.mem_product.mp hp
    rw [List.mem_range] at h1 h2
    omega
  have hmem : (i, j) ∈ List.range ha.shape.rows ×ˢ List.range hb.shape.cols :=
    List.pair_mem_product.mpr ⟨List.mem_range.mpr hi, List.mem_range.mpr hj⟩
  rw [State.multiply_eq, State.accAt_foldl_putElem _ _ _ _ (List.nodup_range.product List.nodup_range) hbounds (by omega) (by omega) hwf, if_pos hmem]

/-! A multiply that starts, and one that performs (R180, R181). -/

/-- A core without a multiply. -/
def CoreSt.dropMat (co : CoreSt) (id : Nat) : CoreSt := { co with mats := co.mats.filter fun x => x.id != id }

/-- A core with a paired multiply started. -/
def CoreSt.startMat (co : CoreSt) (id : Nat) : CoreSt := { co with mats := co.mats.map fun x => if x.id = id then { x with started := true } else x }

/-- What waits for a multiply goes on; no handle is released with it where their owners are alive. -/
theorem GoesOn.retireMultiply {s : State} {c : Nat} {m : MatOp} {bl : Block} (hb : s.block? c m.slot = some bl)
    (hlive : ∀ k ∈ bl.handles, k.2.owner ∈ bl.live) : GoesOn (s.onCore c (·.dropMat m.id)) (s.retireMultiply c m) := by
  unfold State.retireMultiply
  dsimp only
  set s1 := s.onCore c (·.dropMat m.id) with hs1
  dsimp only [CoreSt.dropMat] at hs1
  rw [← hs1]
  set s2 := (((s1.freeTile c m.slot m.ha).freeTile c m.slot m.hb).retryHolds c (· == .grant)).retryHolds (c ^^^ 1) (· == .grant)
  have hgo : GoesOn s1 s2 := (((GoesOn.freeTile ..).trans (.freeTile ..)).trans (.retryHolds ..)).trans (.retryHolds ..)
  have hb1 : s1.block? c m.slot = some bl := by
    rw [← hb, hs1, State.block?, State.core_onCore_self]
    rfl
  rw [State.releaseOrphans_of_live ((hgo.block? ..).trans hb1) hlive]
  have hcheck : GoesOn s1 (s2.checkBlock c m.slot) := hgo.trans (.checkBlock ..)
  split
  · next d k _ =>
    have hall : GoesOn s1 ((s2.checkBlock c m.slot).notify d k) := hcheck.trans (.notify ..)
    exact .ite (hall.trans (.pushOnce ..)) hall
  · exact .ite (hcheck.trans (.pushOnce ..)) hcheck

/-- R181: a paired multiply starts once its operands have come and the follower's array is free. -/
theorem mmpStart_starts {s : State} {c : Nat} {m : MatOp} {bl : Block} (hev : s.ev = [c])
    (hm : (s.core c).mats.find? (fun m => m.paired && !m.started) = some m) (hfree : (s.core (c ^^^ 1)).mats = []) (hb : s.block? c m.slot = some bl)
    (ha : (Tbl.at bl.handles m.ha {}).fill = none) (hbf : (Tbl.at bl.handles m.hb {}).fill = none) :
    exec .mmpStart s = .next ((s.onCore c (·.startMat m.id)).push .mmaPerform [c, m.id]) := by
  have hlost : s.lostOperand c m = false := by simp [State.lostOperand, hb, ha, hbf]
  have hin : s.operandsIn c m.slot [m.ha, m.hb] = true := by simp [State.operandsIn, hb, ha, hbf]
  rw [exec_mmpStart, execMmpStart]
  simp only [State.arg, hev, List.getD_cons_zero, hm, hlost, hfree, hin]
  rfl

/-- R180: the oldest multiply of a core performs on its grant. -/
theorem mmaPerform_performs {s : State} {c : Nat} {m : MatOp} {ms : List MatOp} {bl : Block} {g : Grant} (hev : s.ev = [c, m.id])
    (hm : (s.core c).mats = m :: ms) (hb : s.block? c m.slot = some bl)
    (hg : (s.core c).grants.find? (fun g => g.slot == m.slot && g.serial == m.grant) = some g) :
    exec .mmaPerform s = .next ((s.multiply c g (Tbl.at bl.handles m.ha {}) (Tbl.at bl.handles m.hb {})).retireMultiply c m) := by
  rw [exec_mmaPerform, execMmaPerform]
  simp only [State.arg, hev, List.getD_cons_zero, List.getD_cons_succ, hm, hb, hg, bne_self_eq_false]
  rfl

end Sys2Proof.Machine
end

section
/-! SUPPORT. The chains of a core's engines (R188 to R193): one read after it has changed, and what a change of one leaves. -/

namespace Sys2Proof

/-- An entry taken out of a table, whatever it was changed to before. -/
theorem Tbl.del_adj {α : Type} (t : Tbl α) (k : Nat) (f : α → α) : Tbl.del (Tbl.adj t k f) k = Tbl.del t k := by
  induction t with
  | nil => rfl
  | cons e r ih =>
    rw [Tbl.adj]
    split
    · next hj => rw [Tbl.del, Tbl.del, if_pos hj, if_pos hj]
    · next hj => rw [Tbl.del, Tbl.del, if_neg hj, if_neg hj, ih]

end Sys2Proof

namespace Sys2Proof.Machine

open Sys2Proof

@[simp] theorem CoreSt.eng_onEng (co : CoreSt) (e : Nat) (f : Engine → Engine) : (co.onEng e f).eng e = f (co.eng e) := by
  unfold CoreSt.eng CoreSt.onEng
  split <;> rfl

theorem State.chainAt_of_cores {s t : State} (h : t.cores = s.cores) (c e n : Nat) : t.chainAt c e n = s.chainAt c e n := by
  rw [State.chainAt, State.chainAt, State.core, State.core, h]

theorem State.eng_onCore_onEng (s : State) (c e : Nat) (f : Engine → Engine) : ((s.onCore c (·.onEng e f)).core c).eng e = f ((s.core c).eng e) := by
  rw [State.core_onCore_self, CoreSt.eng_onEng]

theorem State.chains_onChain (s : State) (c e n : Nat) (f : Chain → Chain) :
    (((s.onChain c e n f).core c).eng e).chains = Tbl.adj ((s.core c).eng e).chains n f := by
  rw [State.onChain, State.eng_onCore_onEng]

theorem State.chainAt_onChain {s : State} {c e n : Nat} {ch : Chain} (h : s.chainAt c e n = some ch) (f : Chain → Chain) :
    (s.onChain c e n f).chainAt c e n = some (f ch) := by
  rw [State.chainAt] at h
  rw [State.chainAt, State.chains_onChain, Tbl.find?_adj, if_pos rfl, h]
  rfl

/-! An entry that the chain has reached (R192, R193, R203). -/

/-- The chain with its snapshot of an entry, and of what the entry is checked by (R192, R248, R401). -/
def State.snapshot (s : State) (ch : Chain) (bs : List Byte) : Chain :=
  { ch with entry := bs, owners := s.windowOwners, regs := s.armedBounds ch.asid, drained := false, plan := none, reads := [], lost := none, due := none }

/-- The chain stopped by a fault at its entry (R203). -/
def Chain.stopped (ch : Chain) : Chain :=
  { ch with faulted := true, progress := 0, entry := [], plan := none, reads := [], lost := none, due := none }

/-- The chain at another entry, which it has yet to reach. -/
def Chain.movedTo (ch : Chain) (off : Nat) : Chain := { ch with off := off, progress := 0, state := 0, entry := [] }

theorem State.chainAt_reachEntry {s : State} {c e n : Nat} {ch : Chain} (h : s.chainAt c e n = some ch) (off : Nat) (bs : List Byte) :
    (s.reachEntry c e n off ch.asid bs).chainAt c e n = some (s.snapshot ch bs) := by
  have hchain := State.chainAt_onChain h (fun x => { x with
    entry := bs, owners := s.windowOwners, regs := s.armedBounds ch.asid, drained := false, plan := none, reads := [], lost := none, due := none })
  rw [State.reachEntry, State.chainAt, State.eng_onCore_onEng]
  exact hchain

/-- R203: a chain that faults is stopped, its fault is on its way, and memory is as before. -/
theorem State.chainFault_stops {s : State} {c e n : Nat} {ch : Chain} (h : s.chainAt c e n = some ch) (sub va : Nat) :
    (s.chainFault c e n sub va 0).chainAt c e n = some ch.stopped ∧
      Due.mk .lateEngineFault [c, e, n, sub, va] ∈ (s.chainFault c e n sub va 0).agenda ∧ (s.chainFault c e n sub va 0).mem = s.mem :=
  ⟨State.chainAt_onChain h _, List.mem_append_right _ (List.mem_singleton_self _), rfl⟩

/-- The chain is as given and is looked at again. -/
def State.ChainNext (t : State) (c e n : Nat) (ch : Chain) : Prop := t.chainAt c e n = some ch ∧ Due.mk .engineEntryReach [c, e, n] ∈ t.agenda

theorem State.chainNext_chainTo {s : State} {c e n : Nat} {ch : Chain} (h : s.chainAt c e n = some ch) (off : Nat) :
    (s.chainTo c e n off).ChainNext c e n (ch.movedTo off) :=
  ⟨State.chainAt_onChain h _, List.mem_append_right _ (List.mem_singleton_self _)⟩

/-- R193: the end of a chain frees its slot. -/
theorem State.endChain_chains (s : State) (c e n : Nat) (x : Chain) :
    (((s.endChain c e n x).core c).eng e).chains = Tbl.del ((s.core c).eng e).chains n ∧ (s.endChain c e n x).mem = s.mem := by
  set s0 := s.onCore c fun co => co.onEng e fun y => { chains := Tbl.del y.chains n, cache := y.cache.filter fun z => z.1 != n } with hs0
  have hgo : GoesOn s0 (s.endChain c e n x) := by
    unfold State.endChain
    dsimp only
    rw [← hs0]
    split
    · exact ((GoesOn.retryHolds ..).trans (.notify ..)).trans (.checkBlock ..)
    · exact (GoesOn.retryHolds ..).trans (.checkBlock ..)
  refine ⟨?_, hgo.mem⟩
  rw [hgo.eng, hs0, State.eng_onCore_onEng]

end Sys2Proof.Machine
end

section
/-! SUPPORT. What does not rest on the engines of the cores, nor on the order of accesses: addresses (R139, R222) and grants (R286). -/

namespace Sys2Proof.Machine

open Sys2Proof

/-! Grants (R286). -/

/-- Two states read the same where the blocks of the cores and the hub's registers agree. -/
theorem State.peek_congr {s t : State} (hmem : t.mem = s.mem) (hblock : ∀ c b, t.block? c b = s.block? c b) (hhub : ∀ off, t.hubReg off = s.hubReg off)
    (pa : Nat) : t.peek pa = s.peek pa := by
  unfold State.peek
  split
  · unfold State.pageWord
    simp only [hblock]
  · rw [hhub]
  · rw [hmem]

/-- What the grants of the firing schedule rest on: two states agree in it. -/
structure SameArbiters (s t : State) : Prop where
  fs : t.fs = s.fs
  net : t.net = s.net
  slices : t.slices = s.slices
  scan : t.scan = s.scan
  agenda : t.agenda = s.agenda
  hostWait : t.hostWait = s.hostWait
  peek : ∀ pa, t.peek pa = s.peek pa
  accs : ∀ id, (Tbl.find? t.accs id).map (fun a => (a.core, a.chain, a.lanes)) = (Tbl.find? s.accs id).map fun a => (a.core, a.chain, a.lanes)

namespace SameArbiters

variable {s t : State} (h : SameArbiters s t)
include h

theorem fsPath (src : Option Nat) (line : Nat) : t.fsPath src line = s.fsPath src line := by
  unfold State.fsPath State.slice
  rw [h.slices]

theorem fsOpen (cls ix act : Nat) : t.fsOpen cls ix act = s.fsOpen cls ix act := by
  rw [State.fsOpen, State.fsOpen, State.fsBudget, State.fsBudget, h.fs]

theorem fsUrgent (act : Nat) (p : Nat × Nat) : t.fsUrgent act p = s.fsUrgent act p := by
  rw [State.fsUrgent, State.fsUrgent, h.fsOpen, State.fsBudget, State.fsBudget, h.fs, h.net]

theorem fsAsks (d : Due) : t.fsAsks d = s.fsAsks d := by
  have hpath : ∀ src, t.fsPath src = s.fsPath src := fun src => funext (h.fsPath src)
  have haccs := h.accs (d.ops.headD 0)
  unfold State.fsAsks
  split
  · rfl
  · rw [hpath]
  · rw [hpath]
  · simp only [hpath, h.scan, State.peekN, h.peek]
  · cases ha : Tbl.find? t.accs (d.ops.headD 0) <;> cases hb : Tbl.find? s.accs (d.ops.headD 0) <;> simp_all
  · cases ha : Tbl.find? t.accs (d.ops.headD 0) <;> cases hb : Tbl.find? s.accs (d.ops.headD 0) <;> simp_all
  · rfl

theorem fsYields (act : Nat) (path : List (Nat × Nat)) : t.fsYields act path = s.fsYields act path := by
  have hasks : t.fsAsks = s.fsAsks := funext h.fsAsks
  simp only [State.fsYields, h.agenda, h.hostWait, hasks, h.fsUrgent]

/-- R286: a request passes in both or in neither. -/
theorem fsPass (act : Nat) (path : List (Nat × Nat)) (hpass : s.fsPass act path ≠ none) : ∃ u, t.fsPass act path = some u := by
  unfold State.fsPass at hpass ⊢
  simp only [h.fsOpen, h.fsYields]
  split at hpass
  · next hok => exact ⟨_, if_pos hok⟩
  · exact absurd rfl hpass

end SameArbiters

/-! Engines (R188). -/

/-- From `s` to `t` the engines of the cores may differ; nothing else has changed. -/
structure EnginesOnly (s t : State) : Prop where
  rest : { t with cores := s.cores } = s
  core : ∀ d, { t.core d with copyEng := (s.core d).copyEng, gatherEng := (s.core d).gatherEng } = s.core d

namespace EnginesOnly

variable {s t u : State}

theorem trans (h : EnginesOnly s t) (h' : EnginesOnly t u) : EnginesOnly s u where
  rest := (congrArg (fun v : State => { v with cores := s.cores }) h'.rest).trans h.rest
  core d := (congrArg (fun co : CoreSt => { co with copyEng := (s.core d).copyEng, gatherEng := (s.core d).gatherEng }) (h'.core d)).trans (h.core d)

theorem onEng (s : State) (c e : Nat) (f : Engine → Engine) : EnginesOnly s (s.onCore c (·.onEng e f)) where
  rest := rfl
  core d := by
    by_cases hd : d = c
    · subst hd
      rw [State.core_onCore_self, CoreSt.onEng]
      split <;> rfl
    · rw [State.core_onCore_ne _ _ hd]

theorem reachEntry (s : State) (c e n off asid : Nat) (bs : List Byte) : EnginesOnly s (s.reachEntry c e n off asid bs) :=
  (onEng ..).trans (onEng ..)

section

variable (h : EnginesOnly s t)
include h

theorem mem : t.mem = s.mem := (congrArg State.mem h.rest :)

theorem accs : t.accs = s.accs := (congrArg State.accs h.rest :)

theorem l1 (c : Nat) : (t.core c).l1 = (s.core c).l1 := (congrArg CoreSt.l1 (h.core c) :)

theorem blocks (c : Nat) : (t.core c).blocks = (s.core c).blocks := (congrArg CoreSt.blocks (h.core c) :)

theorem block? (c b : Nat) : t.block? c b = s.block? c b := by rw [State.block?, State.block?, h.blocks]

theorem hubReg (off : Nat) : t.hubReg off = s.hubReg off :=
  State.hubReg_congr off (congrArg (fun v : State => Tbl.find? v.hub off) h.rest :) (congrArg State.links h.rest :) (congrArg State.stackTbl h.rest :)
    (congrArg State.ul h.rest :)

theorem sameArbiters : SameArbiters s t where
  fs := (congrArg State.fs h.rest :)
  net := (congrArg State.net h.rest :)
  slices := (congrArg State.slices h.rest :)
  scan := (congrArg State.scan h.rest :)
  agenda := (congrArg State.agenda h.rest :)
  hostWait := (congrArg State.hostWait h.rest :)
  peek := State.peek_congr h.mem h.block? h.hubReg
  accs id := by rw [h.accs]

theorem gang (g : Nat) : t.gang g = s.gang g := (congrArg (fun v : State => v.gang g) h.rest :)

theorem pooled (g x : Nat) : t.pooled g x = s.pooled g x := by
  have hmember : t.member g (x / 2 ^ 19 % 16) = s.member g (x / 2 ^ 19 % 16) := by simp only [State.member, h.gang, h.block?]
  rw [State.pooled, State.pooled, hmember, h.gang]

theorem reaches (a : Machine.Acc) (pa : Nat) : t.reaches a pa = s.reaches a pa := by
  have hpresent : ∀ c, t.present c = s.present c := fun c => by simp only [State.present, h.hubReg]
  have hlanes : ∀ l, t.linkLanes l = s.linkLanes l := fun l => (congrArg (fun v : State => v.linkLanes l) h.rest :)
  have hpeer : ∀ p, t.peerOk p = s.peerOk p := fun p => by simp only [State.peerOk, h.hubReg, hlanes]
  simp only [State.reaches, hpresent, hpeer, h.blocks]

theorem aliasBad (c pa : Nat) : t.aliasBad c pa = s.aliasBad c pa := by
  have haw : ∀ w off, t.aw w off = s.aw w off := fun w off => h.hubReg _
  have hmay : ∀ w off, t.mayContribute c w off = s.mayContribute c w off := fun w off => by
    rw [State.mayContribute, State.mayContribute, haw, haw, haw]
  simp only [State.aliasBad, hmay]

/-- R139, R222: what an access finds for an address. -/
theorem find (c asid g : Nat) (a : Machine.Acc) (va : Nat) : t.find c asid g a va = s.find c asid g a va := by
  have htlb : (t.core c).tlbFind asid va = (s.core c).tlbFind asid va := (congrArg (fun co : CoreSt => co.tlbFind asid va) (h.core c) :)
  simp only [State.find, h.gang, h.pooled, h.reaches, h.aliasBad, htlb]

end

end EnginesOnly

end Sys2Proof.Machine
end

section
/-! SUPPORT. A chain that reaches an entry (R190 to R193, R203). -/

namespace Sys2Proof.Machine

open Sys2Proof

/-! An access that leaves its core (R270, R384). -/

/-- An access that brings a peer no poison leaves its core: it is listed, and cores and memory are as before. -/
theorem State.launchAcc_keeps {s : State} {a : Access} (hpeer : ∀ p off x, (s.peerAccOf s.nextId p off a x).bad = []) :
    (s.launchAcc a).cores = s.cores ∧ (s.launchAcc a).mem = s.mem ∧ Tbl.find? (s.launchAcc a).accs s.nextId = some a := by
  have hlisted : Tbl.find? (Tbl.put s.accs s.nextId a) s.nextId = some a := Tbl.find?_put_self ..
  unfold State.launchAcc
  dsimp only
  split
  · exact ⟨rfl, rfl, hlisted⟩
  · next x _ _ =>
    split
    · exact ⟨rfl, rfl, hlisted⟩
    · exact ⟨rfl, rfl, hlisted⟩
    · exact ⟨rfl, rfl, hlisted⟩
    · next p off _ =>
      rw [State.sendPeer, if_pos (hpeer p off x)]
      exact ⟨rfl, rfl, hlisted⟩
    · exact ⟨rfl, rfl, hlisted⟩
    · exact ⟨rfl, rfl, hlisted⟩

/-- R369: a subtraction brings a peer no poison. -/
theorem State.peerAccOf_sub {s : State} {a : Access} (h : a.kind = .sub) (id p off : Nat) (x : LaneAcc) : (s.peerAccOf id p off a x).bad = [] := by
  unfold State.peerAccOf
  dsimp only
  split
  · rw [if_pos h]
  · rfl

theorem State.dropBlocks_of_empty {s : State} {c : Nat} (h : (s.core c).l1 = []) (pas : List Nat) : s.dropBlocks c pas = s := by
  have hfind : ∀ line, (s.core c).l1Find line = none := fun line => by rw [CoreSt.l1Find, h]; rfl
  refine List.foldlRecOn (motive := fun t : State => t = s) _ _ rfl ?_
  intro t ht line _
  rw [ht, hfind]

theorem State.findNow_of_found {s : State} {c asid gang va pa : Nat} {a : Machine.Acc} {sm : Bool} (h : s.find c asid gang a va = .ok pa sm) :
    s.findNow c asid gang a va = (.ok pa sm, s) := by
  rw [State.findNow, h]

/-! Entries (R190, R193). -/

/-- The chain with one more access that has yet to perform. -/
def Chain.awaits (id : Nat) (ch : Chain) : Chain := { ch with pending := ch.pending ++ [id] }

/-- The operand of a signal entry (R202). -/
def Entry.operand (z : Entry) (pa : Nat) : LaneAcc := { lane := 0, va := z.a, pa := pa, x := if z.b = 0 then 1 else z.b }

/-- R193, R202: a signal entry sends its subtraction, and the chain goes on. -/
theorem State.signalEntry_sends {s : State} {c e n pa : Nat} {ch ch' : Chain} {bl : Block} {z : Entry} (hch : s.chainAt c e n = some ch)
    (haligned : z.a % 8 = 0) (hfind : s.find c ch'.asid bl.gang .atomic z.a = .ok pa false) (hl1 : (s.core c).l1 = [])
    (hlinks : ∃ u, s.fsLinks 4 (coreRouter c) [pa] = some u) :
    (s.signalEntry c e n ch' bl z).mem = s.mem ∧
      (s.signalEntry c e n ch' bl z).ChainNext c e n ((ch.awaits s.nextId).movedTo (ch'.off + 32)) ∧
      Tbl.find? (s.signalEntry c e n ch' bl z).accs s.nextId = some (chainAccess c e n .sub z.opf 8 0 [z.operand pa]) := by
  obtain ⟨u, hu⟩ := hlinks
  have hframe := State.fsPass_frame hu
  have hcores : u.cores = s.cores := (congrArg State.cores hframe :)
  have hid : u.nextId = s.nextId := (congrArg State.nextId hframe :)
  have hl1u : (u.core c).l1 = [] := by rw [State.core, hcores]; exact hl1
  obtain ⟨hlcores, hlmem, hlisted⟩ := State.launchAcc_keeps (s := u) (a := chainAccess c e n .sub z.opf 8 0 [z.operand pa])
    fun p off x => State.peerAccOf_sub rfl _ _ _ _
  have heq : s.signalEntry c e n ch' bl z = ((u.launchAcc (chainAccess c e n .sub z.opf 8 0 [z.operand pa])).onChain c e n fun y =>
      { y with pending := y.pending ++ [u.nextId] }).chainTo c e n (ch'.off + 32) := by
    unfold State.signalEntry
    rw [if_neg (by rw [haligned]; decide), State.findNow_of_found hfind]
    dsimp only
    rw [hu]
    dsimp only
    rw [State.dropBlocks_of_empty hl1u]
    rfl
  have hlch : (u.launchAcc (chainAccess c e n .sub z.opf 8 0 [z.operand pa])).chainAt c e n = some ch := by
    rw [State.chainAt_of_cores (hlcores.trans hcores), hch]
  rw [heq, ← hid]
  exact ⟨hlmem.trans (congrArg State.mem hframe :), State.chainNext_chainTo (State.chainAt_onChain hlch _) _, hlisted⟩

/-- R191: a well-formed loop entry runs its body at least once. -/
theorem Entry.aux_of_loop {z : Entry} {e size : Nat} (hop : z.op = 7) (h : z.malformed e size = false) : z.aux ≠ 0 := by
  intro haux
  rw [Entry.malformed, hop] at h
  simp [haux] at h

theorem State.refusedAtReach_none {s : State} {z : Entry} (h : [1, 2, 3, 4, 11].contains z.op = false) (c e : Nat) (ch : Chain) (bl : Block) :
    s.refusedAtReach c e ch bl z = none := by
  rw [State.refusedAtReach, h]
  rfl

/-- The chain once what its entry drains has performed. -/
def Chain.drain (ch : Chain) : Chain := { ch with drained := true }

/-- The chain with its loop records as given. -/
def Chain.looped (l : List (Nat × Nat × Nat)) (ch : Chain) : Chain := { ch with loops := l }

theorem State.onChain_mem (s : State) (c e n : Nat) (f : Chain → Chain) : (s.onChain c e n f).mem = s.mem := rfl

theorem State.chainTo_mem (s : State) (c e n off : Nat) : (s.chainTo c e n off).mem = s.mem := rfl

theorem State.reachEntry_mem (s : State) (c e n off asid : Nat) (bs : List Byte) : (s.reachEntry c e n off asid bs).mem = s.mem := rfl

theorem State.chainClear_reachEntry (s : State) (c e n off asid : Nat) (ch : Chain) (bs bs' : List Byte) (l : List Nat) :
    (s.reachEntry c e n off asid bs).chainClear (s.snapshot ch bs') l = s.chainClear ch l := rfl

/-- The chain at an entry that it has reached, with its snapshot but for the bytes. -/
def State.reachedBy (s : State) (ch : Chain) : Chain :=
  { ch with owners := s.windowOwners, regs := s.armedBounds ch.asid, drained := false, plan := none, reads := [], lost := none, due := none }

/-- The chain past an entry that it has reached, at another offset. -/
def State.passed (s : State) (ch : Chain) (off : Nat) : Chain := { s.reachedBy ch with drained := true, progress := 0, off := off }

/-- The chain faulted where it stands. -/
def Chain.failed (ch : Chain) : Chain := { ch with faulted := true, progress := 0, plan := none, reads := [], lost := none, due := none }

section

variable {ch : Chain} (hentry : ch.entry = [])
include hentry

theorem Chain.stopped_eq_failed : ch.stopped = ch.failed := by
  rw [Chain.stopped, Chain.failed, hentry]

theorem State.stopped_snapshot (s : State) (bs : List Byte) : (s.snapshot ch bs).stopped = (s.reachedBy ch).failed := by
  rw [Chain.stopped, State.snapshot, Chain.failed, State.reachedBy, hentry]

theorem State.movedTo_drain_snapshot (hstate : ch.state = 0) (s : State) (bs : List Byte) (off : Nat) :
    (s.snapshot ch bs).drain.movedTo off = s.passed ch off := by
  rw [Chain.movedTo, Chain.drain, State.snapshot, State.passed, State.reachedBy, hentry, hstate]

end

theorem State.looped_passed {s : State} {ch : Chain} (hloops : ch.loops = []) (off : Nat) : (s.passed ch off).looped [] = s.passed ch off := by
  rw [Chain.looped, State.passed, State.reachedBy, hloops]

section

variable {s : State} {ch : Chain} {z : Entry} (c e n : Nat) (bl : Block) (hnot : ch.drained = false) (hclear : s.chainClear ch z.drains = true)
include hnot hclear

theorem State.actEntry_jump (hop : z.op = 9) : s.actEntry c e n ch bl z = (s.onChain c e n Chain.drain).chainTo c e n z.g := by
  rw [State.actEntry, hnot, hclear, hop]
  rfl

theorem State.actEntry_signal (hop : z.op = 5) : s.actEntry c e n ch bl z = (s.onChain c e n Chain.drain).signalEntry c e n ch bl z := by
  rw [State.actEntry, hnot, hclear, hop]
  rfl

theorem State.actEntry_end (hop : z.op = 10) : s.actEntry c e n ch bl z = (s.onChain c e n Chain.drain).endChain c e n ch := by
  rw [State.actEntry, hnot, hclear, hop]
  rfl

theorem State.actEntry_loop {l : List (Nat × Nat × Nat)} {off : Nat} (hop : z.op = 7) (hloop : ch.loop z = some (l, off)) :
    s.actEntry c e n ch bl z = ((s.onChain c e n Chain.drain).onChain c e n (Chain.looped l)).chainTo c e n off := by
  rw [State.actEntry, hnot, hclear, hop]
  dsimp only
  rw [hloop]
  rfl

end

/-- R193: the first pass of a loop entry outside any loop. -/
theorem Chain.loop_first {ch : Chain} {z : Entry} (hloops : ch.loops = []) (haux : z.aux ≠ 0) :
    ch.loop z = some (if z.aux = 1 then ([], ch.off + 32) else ([(ch.off, z.aux - 1, z.aux)], z.g)) := by
  have hlast : z.aux - 1 = 0 ↔ z.aux = 1 := by omega
  unfold Chain.loop
  simp [hloops, hlast]

section

variable {s : State} {c e n : Nat} {ch : Chain} {bl : Block} (hev : s.ev = [c, e, n]) (hch : s.chainAt c e n = some ch)
include hev hch

/-- CONDITIONAL_WAIT_PAUSE_END: the chain looks at its word again. -/
theorem conditionalWaitPauseEnd_ends (hstate : ch.state = 1) :
    Answers s .conditionalWaitPauseEnd fun t => t.ChainNext c e n { ch with state := 0 } ∧ t.mem = s.mem := by
  refine ⟨(s.onChain c e n fun y => { y with state := 0 }).chainStays c e n, ?_,
    ⟨State.chainAt_onChain hch _, List.mem_append_right _ (List.mem_singleton_self _)⟩, rfl⟩
  rw [exec_conditionalWaitPauseEnd, execConditionalWaitPauseEnd]
  simp only [State.arg, hev, List.getD_cons_zero, List.getD_cons_succ, hch]
  rw [if_neg (by rw [hstate]; decide)]

variable (hb : s.block? c ch.block = some bl) (hkilled : bl.killed = false) (hfaulted : ch.faulted = false) (hentry : ch.entry = []) (hstate : ch.state = 0)
include hb hkilled hfaulted hentry hstate

theorem engineEntryReach_eq : exec .engineEntryReach s = .next (s.reachNext c e n ch bl) := by
  have hbl : s.chainBlock c ch = bl := by rw [State.chainBlock, hb]; rfl
  rw [exec_engineEntryReach, execEngineEntryReach]
  simp only [State.arg, hev, List.getD_cons_zero, List.getD_cons_succ, hch, hbl, hstate, hfaulted, hkilled, hentry]
  rfl

variable (hwaits : s.chainWaits c ch = false)
include hwaits

/-- R192, R203: a chain that runs past its allocation faults. -/
theorem engineEntryReach_beyond (hsize : bl.size < ch.off + 32) : Answers s .engineEntryReach fun t =>
    t.chainAt c e n = some ch.failed ∧ Due.mk .lateEngineFault [c, e, n, 0, ch.off] ∈ t.agenda ∧ t.mem = s.mem := by
  rw [← Chain.stopped_eq_failed hentry]
  refine ⟨s.chainFault c e n 0 ch.off 0, ?_, State.chainFault_stops hch 0 ch.off⟩
  rw [engineEntryReach_eq hev hch hb hkilled hfaulted hentry hstate, State.reachNext, if_neg (by rw [hwaits]; decide), if_pos hsize]

variable (hsize : ch.off + 32 ≤ bl.size) (hpoison : s.poisoned (coreBase c + bl.base + ch.off) 32 = false) (hcache : ((s.core c).eng e).cache = [])
include hsize hpoison hcache

/-- R192: the chain takes its snapshot of the entry, and stops or acts on it. -/
theorem engineEntryReach_reaches {bs : List Byte} (hbs : s.peekBytes (coreBase c + bl.base + ch.off) 32 = bs) : exec .engineEntryReach s = .next
    (if (entryAt bs).malformed e bl.size then (s.reachEntry c e n ch.off ch.asid bs).chainFault c e n 0 ch.off 0
     else match (s.reachEntry c e n ch.off ch.asid bs).refusedAtReach c e (s.snapshot ch bs) bl (entryAt bs) with
       | some va => (s.reachEntry c e n ch.off ch.asid bs).chainFault c e n 0 va ch.progress
       | none => (s.reachEntry c e n ch.off ch.asid bs).actEntry c e n (s.snapshot ch bs) bl (entryAt bs)) := by
  have hbytes : s.reachBytes c e n bl.base ch.off = some bs := by
    rw [State.reachBytes, hcache]
    dsimp only [List.find?_nil]
    rw [hpoison, hbs]
    rfl
  rw [engineEntryReach_eq hev hch hb hkilled hfaulted hentry hstate, State.reachNext, if_neg (by rw [hwaits]; decide), if_neg (Nat.not_lt.mpr hsize), hbytes]
  rfl

/-- R191, R203: a malformed entry stops the chain. -/
theorem engineEntryReach_malformed {bs : List Byte} (hbs : s.peekBytes (coreBase c + bl.base + ch.off) 32 = bs)
    (hbad : (entryAt bs).malformed e bl.size = true) : Answers s .engineEntryReach fun t =>
      t.chainAt c e n = some (s.reachedBy ch).failed ∧ Due.mk .lateEngineFault [c, e, n, 0, ch.off] ∈ t.agenda ∧ t.mem = s.mem := by
  rw [← s.stopped_snapshot hentry bs]
  obtain ⟨hchain, hdue, hmem⟩ := State.chainFault_stops (State.chainAt_reachEntry hch ch.off bs) 0 ch.off
  refine ⟨_, ?_, hchain, hdue, hmem⟩
  rw [engineEntryReach_reaches hev hch hb hkilled hfaulted hentry hstate hwaits hsize hpoison hcache hbs, if_pos hbad]

variable {bs : List Byte} (hbs : s.peekBytes (coreBase c + bl.base + ch.off) 32 = bs) (hgood : (entryAt bs).malformed e bl.size = false)
  (hclear : s.chainClear ch (entryAt bs).drains = true)
include hbs hgood hclear

omit hclear in
/-- R193: an entry that moves no data acts once the chain has its snapshot. -/
theorem engineEntryReach_acts (hdata : [1, 2, 3, 4, 11].contains (entryAt bs).op = false) :
    exec .engineEntryReach s = .next ((s.reachEntry c e n ch.off ch.asid bs).actEntry c e n (s.snapshot ch bs) bl (entryAt bs)) := by
  rw [engineEntryReach_reaches hev hch hb hkilled hfaulted hentry hstate hwaits hsize hpoison hcache hbs, if_neg (by rw [hgood]; decide),
    State.refusedAtReach_none hdata]

/-- R193: a jump entry sends the chain on. -/
theorem engineEntryReach_jumps (hop : (entryAt bs).op = 9) : Answers s .engineEntryReach fun t =>
    t.ChainNext c e n (s.passed ch (entryAt bs).g) ∧ t.mem = s.mem := by
  rw [← s.movedTo_drain_snapshot hentry hstate bs]
  have hdrained := State.chainAt_onChain (State.chainAt_reachEntry hch ch.off bs) Chain.drain
  refine ⟨_, ?_, State.chainNext_chainTo hdrained (entryAt bs).g, rfl⟩
  rw [engineEntryReach_acts hev hch hb hkilled hfaulted hentry hstate hwaits hsize hpoison hcache hbs hgood (by rw [hop]; rfl),
    State.actEntry_jump c e n bl rfl ((s.chainClear_reachEntry c e n ch.off ch.asid ch bs bs _).trans hclear) hop]

/-- R193: a loop entry outside any loop sends the chain back, or on after a single pass. -/
theorem engineEntryReach_loops (hop : (entryAt bs).op = 7) (hloops : ch.loops = []) : Answers s .engineEntryReach fun t => t.mem = s.mem ∧
    t.ChainNext c e n (if (entryAt bs).aux = 1 then s.passed ch (ch.off + 32)
      else (s.passed ch (entryAt bs).g).looped [(ch.off, (entryAt bs).aux - 1, (entryAt bs).aux)]) := by
  rw [← s.looped_passed hloops (ch.off + 32), ← s.movedTo_drain_snapshot hentry hstate bs, ← s.movedTo_drain_snapshot hentry hstate bs]
  have hdrained := State.chainAt_onChain (State.chainAt_reachEntry hch ch.off bs) Chain.drain
  have hloop : (s.snapshot ch bs).loop (entryAt bs) =
      some (if (entryAt bs).aux = 1 then ([], ch.off + 32) else ([(ch.off, (entryAt bs).aux - 1, (entryAt bs).aux)], (entryAt bs).g)) :=
    Chain.loop_first (ch := s.snapshot ch bs) hloops (Entry.aux_of_loop hop hgood)
  have hacts := engineEntryReach_acts hev hch hb hkilled hfaulted hentry hstate hwaits hsize hpoison hcache hbs hgood (by rw [hop]; rfl)
  have hclear' := (s.chainClear_reachEntry c e n ch.off ch.asid ch bs bs (entryAt bs).drains).trans hclear
  split
  · next haux =>
    rw [if_pos haux] at hloop
    refine ⟨_, ?_, ?_, State.chainNext_chainTo (State.chainAt_onChain hdrained (Chain.looped [])) (ch.off + 32)⟩
    · rw [hacts, State.actEntry_loop c e n bl rfl hclear' hop hloop]
    · rw [State.chainTo_mem, State.onChain_mem, State.onChain_mem, State.reachEntry_mem]
  · next haux =>
    rw [if_neg haux] at hloop
    refine ⟨_, ?_, ?_, State.chainNext_chainTo (State.chainAt_onChain hdrained (Chain.looped [(ch.off, (entryAt bs).aux - 1, (entryAt bs).aux)]))
      (entryAt bs).g⟩
    · rw [hacts, State.actEntry_loop c e n bl rfl hclear' hop hloop]
    · rw [State.chainTo_mem, State.onChain_mem, State.onChain_mem, State.reachEntry_mem]

/-- R193, R202: a signal entry sends its subtraction, and the chain goes on. -/
theorem engineEntryReach_signals {pa : Nat} (hop : (entryAt bs).op = 5) (haligned : (entryAt bs).a % 8 = 0)
    (hfind : s.find c ch.asid bl.gang .atomic (entryAt bs).a = .ok pa false) (hl1 : (s.core c).l1 = []) (hlinks : s.fsLinks 4 (coreRouter c) [pa] ≠ none) :
    Answers s .engineEntryReach fun t => t.mem = s.mem ∧
      t.ChainNext c e n ((s.passed ch (ch.off + 32)).awaits s.nextId) ∧
      Tbl.find? t.accs s.nextId = some (chainAccess c e n .sub (entryAt bs).opf 8 0 [(entryAt bs).operand pa]) := by
  have hdrained := State.chainAt_onChain (State.chainAt_reachEntry hch ch.off bs) Chain.drain
  have hengines : EnginesOnly s ((s.reachEntry c e n ch.off ch.asid bs).onChain c e n Chain.drain) := (EnginesOnly.reachEntry ..).trans (.onEng ..)
  rw [← s.movedTo_drain_snapshot hentry hstate bs]
  have hsends := State.signalEntry_sends (ch' := s.snapshot ch bs) hdrained haligned ((hengines.find ..).trans hfind) ((hengines.l1 c).trans hl1)
    (hengines.sameArbiters.fsPass _ _ hlinks)
  refine ⟨_, ?_, hsends⟩
  rw [engineEntryReach_acts hev hch hb hkilled hfaulted hentry hstate hwaits hsize hpoison hcache hbs hgood (by rw [hop]; rfl),
    State.actEntry_signal c e n bl rfl ((s.chainClear_reachEntry c e n ch.off ch.asid ch bs bs _).trans hclear) hop]

/-- R193: an end entry frees the chain's slot. -/
theorem engineEntryReach_ends (hop : (entryAt bs).op = 10) : Answers s .engineEntryReach fun t =>
    ((t.core c).eng e).chains = Tbl.del ((s.core c).eng e).chains n ∧ t.mem = s.mem := by
  obtain ⟨hchains, hmem⟩ := State.endChain_chains ((s.reachEntry c e n ch.off ch.asid bs).onChain c e n Chain.drain) c e n (s.snapshot ch bs)
  refine ⟨_, ?_, hchains.trans ?_, hmem⟩
  · rw [engineEntryReach_acts hev hch hb hkilled hfaulted hentry hstate hwaits hsize hpoison hcache hbs hgood (by rw [hop]; rfl),
      State.actEntry_end c e n bl rfl ((s.chainClear_reachEntry c e n ch.off ch.asid ch bs bs _).trans hclear) hop]
  · rw [State.chains_onChain, Tbl.del_adj, State.reachEntry, State.eng_onCore_onEng]
    dsimp only
    rw [State.chains_onChain, Tbl.del_adj]

end

end Sys2Proof.Machine
end

section
/-! SUPPORT. A subtraction of a chain that performs at its slice (R130, R202, R276, R277). -/

namespace Sys2Proof

theorem Mem.rdBytes_eq_map (m : Mem) (a n : Nat) : Mem.rdBytes m a n = (List.range n).map fun i => Mem.rd m (a + i) := by
  induction n generalizing a with
  | zero => rfl
  | succ n ih =>
    rw [Mem.rdBytes, ih, List.range_succ_eq_map, List.map_cons, List.map_map]
    refine congrArg _ (List.map_congr_left fun i _ => ?_)
    rw [Function.comp_apply, Nat.succ_eq_add_one, Nat.add_assoc, Nat.add_comm 1 i]

end Sys2Proof

namespace Sys2Proof.Machine

open Sys2Proof

/-- R14: near and far memory lie below every other range. -/
theorem lt_of_isHomed {pa : Nat} (h : isHomed pa = true) : pa < 0x120000000000 := by
  by_contra hge
  have hnear : ¬ pa < nearEnd := fun hlt => hge (Nat.lt_trans hlt (by decide))
  have hfar : ¬ (0x100000000000 ≤ pa ∧ pa < 0x120000000000) := fun hin => hge hin.2
  rw [isHomed, regionOf, if_neg hnear, if_neg hfar] at h
  dsimp only at h
  split_ifs at h

/-- R14: what an address below the ranges of peers reads is a byte of memory. -/
theorem State.peek_low (s : State) {pa : Nat} (h : pa < 0x800000000000) : s.peek pa = Mem.rd s.mem pa := by
  have hregion : regionOf pa = .near ∨ regionOf pa = .far ∨ regionOf pa = .unmapped := by
    rw [regionOf]
    split_ifs
    any_goals omega
    · exact .inl rfl
    · exact .inr (.inl rfl)
    · exact .inr (.inr rfl)
  rw [State.peek]
  rcases hregion with hr | hr | hr <;> rw [hr]

theorem State.peekN_homed (s : State) {pa : Nat} (h : isHomed pa = true) : s.peekN pa 8 = Mem.rdN s.mem pa 8 := by
  have hlt := lt_of_isHomed h
  have hpeek : ∀ i ∈ List.range 8, s.peek (pa + i) = Mem.rd s.mem (pa + i) := by
    intro i hi
    rw [List.mem_range] at hi
    exact s.peek_low (by omega)
  rw [State.peekN, Mem.rdN, Mem.rdBytes_eq_map, List.map_congr_left hpeek]

/-- R130: a subtraction where no shadow is open and nothing is poisoned takes its operand from the 8 bytes. -/
theorem State.atomAt_sub {s : State} {l : LaneAcc} (hhome : isHomed l.pa = true) (hshadows : s.shadows = []) (hgood : s.poisoned l.pa 8 = false) :
    (s.atomAt .sub l).2.mem = Mem.wrN s.mem l.pa 8 ((Mem.rdN s.mem l.pa 8 + 2 ^ 64 - l.x % 2 ^ 64) % 2 ^ 64) := by
  have hnone : ∀ line, Tbl.find? s.shadows line = none := fun line => by rw [hshadows, Tbl.find?_nil]
  have hlook : s.look l.pa 8 = (Mem.rdN s.mem l.pa 8, s) := by
    rw [State.look, State.narrowIn_of_none (hnone _) (hnone _), State.peekN_homed s hhome]
  have heq : (s.atomAt .sub l).2 = s.land [(l.pa, leBytes 8 ((Mem.rdN s.mem l.pa 8 + 2 ^ 64 - l.x % 2 ^ 64) % 2 ^ 64))] := by
    rw [State.atomAt, hlook, hgood]
    rfl
  rw [heq]
  exact State.land_mem (hnone _) (hnone _)

/-- A chain's subtraction that performs at its slice is answered, with what its lane has done to memory (R276). -/
theorem State.slicePerform_sub {s : State} {a : Access} {l : LaneAcc} (n : Nat) (hkind : a.kind = .sub) (hlanes : a.lanes = [l]) (hchain : a.chain ≠ 0) :
    (∃ a', Tbl.find? (s.slicePerform n a 1).accs n = some a' ∧ a'.stage = 1) ∧
      (s.slicePerform n a 1).mem = ((s.onSlice (homeOf (a.line * 128)) (·.takeIn a)).atomAt .sub l).2.mem := by
  have hcapture : s.captureQueue a = s := by rw [State.captureQueue, hkind]; rfl
  have hserve (t : State) : (t.serve a).2.2 = (t.atomAt .sub l).2 := by
    rw [State.serve, hkind, hlanes]
    rfl
  rw [State.slicePerform, hcapture, if_pos rfl, State.performed, if_pos (by simpa using hchain), hserve]
  exact ⟨⟨_, Tbl.find?_put_self .., rfl⟩, rfl⟩

/-! The order of arrival (R276). -/

/-- The access as it arrives at its slice: with its place in the order of arrival. -/
def State.arrived (s : State) (a : Access) : Access := if a.stamp = 0 then { a with stamp := s.nextId } else a

/-- The slice's list of arrivals with an access. -/
def State.listed (s : State) (n : Nat) (a : Access) : State :=
  if a.stamp = 0 then { s with accs := Tbl.put s.accs n (s.arrived a), nextId := s.nextId + 1 } else s

theorem State.arrived_keeps (s : State) (a : Access) : { s.arrived a with stamp := a.stamp } = a := by
  unfold State.arrived
  split <;> rfl

theorem State.arrived_kind (s : State) (a : Access) : (s.arrived a).kind = a.kind := (congrArg Access.kind (s.arrived_keeps a) :)

theorem State.arrived_chain (s : State) (a : Access) : (s.arrived a).chain = a.chain := (congrArg Access.chain (s.arrived_keeps a) :)

theorem State.arrived_lanes (s : State) (a : Access) : (s.arrived a).lanes = a.lanes := (congrArg Access.lanes (s.arrived_keeps a) :)

theorem State.listed_frame (s : State) (n : Nat) (a : Access) : { s.listed n a with accs := s.accs, nextId := s.nextId } = s := by
  unfold State.listed
  split <;> rfl

section

variable {s : State} {n : Nat} {a : Access}

theorem State.mem_accs_listed {w : Nat × Access} (hw : w ∈ (s.listed n a).accs) : w.1 = n ∨ w ∈ s.accs := by
  unfold State.listed at hw
  split at hw
  · rcases Tbl.mem_of_mem_put hw with rfl | hold
    · exact .inl rfl
    · exact .inr hold
  · exact .inr hw

/-- R276: an access that none goes before has arrived. -/
theorem State.arrive_first (hovertakes : s.overtakes n a = false) (halone : ∀ w ∈ s.accs, w.1 ≠ n → w.2.meets a = false) :
    s.arrive n a = (some (s.arrived a), s.listed n a) := by
  have hmeets : ∀ x : Access, x.meets (s.arrived a) = x.meets a := fun x => (congrArg (fun y : Access => x.meets y) (s.arrived_keeps a) :)
  have hpasses : (s.listed n a).passes n (s.arrived a) = false := by
    rw [State.passes, List.any_eq_false]
    intro w hw
    by_cases hwn : w.1 = n
    · simp [hwn]
    · have hmem : w ∈ s.accs := (State.mem_accs_listed hw).resolve_left hwn
      simp [hmeets, halone w hmem hwn]
  have heq : s.arrive n a = (if (s.listed n a).passes n (s.arrived a) then none else some (s.arrived a), s.listed n a) := by
    rw [State.arrive, hovertakes]
    rfl
  rw [heq, hpasses]
  rfl

/-- An access that has arrived changes nothing that grants rest on (R286). -/
theorem State.sameArbiters_listed (ha : Tbl.find? s.accs n = some a) : SameArbiters s (s.listed n a) := by
  have hframe := s.listed_frame n a
  refine ⟨(congrArg State.fs hframe :), (congrArg State.net hframe :), (congrArg State.slices hframe :), (congrArg State.scan hframe :),
    (congrArg State.agenda hframe :), (congrArg State.hostWait hframe :), fun pa => (congrArg (fun t : State => t.peek pa) hframe :), fun id => ?_⟩
  unfold State.listed
  split
  · by_cases hid : id = n
    · subst hid
      rw [Tbl.find?_put_self, ha]
      exact (congrArg (fun y : Access => some (y.core, y.chain, y.lanes)) (s.arrived_keeps a) :)
    · rw [Tbl.find?_put_ne _ _ hid]
  · rfl

end

/-! The row (R276, R277, R286). -/

section

variable {s : State} {n : Nat} {a : Access} {l : LaneAcc} (hev : s.ev = [n]) (ha : Tbl.find? s.accs n = some a) (hkind : a.kind = .sub)
  (hlanes : a.lanes = [l]) (hstage : a.stage = 0) (hchain : a.chain ≠ 0) (hovertakes : s.overtakes n a = false)
  (halone : ∀ w ∈ s.accs, w.1 ≠ n → w.2.meets a = false) (hhome : isHomed l.pa = true) (hholds : (s.slice (homeOf (l.pa / 128 * 128))).holds (l.pa / 128) = true)
  (hpass : s.fsPass 4 (s.fsPath none (l.pa / 128)) ≠ none)
include hev ha hkind hlanes hstage hchain hovertakes halone hholds hpass

/-- R276, R286: a chain's subtraction whose line the slice holds performs there once it has its grants. -/
theorem sliceAccess_performs : ∃ u : State, u.mem = s.mem ∧ u.shadows = s.shadows ∧ u.poison = s.poison ∧
    exec .sliceAccess s = .next (u.slicePerform n (s.arrived a) 1) := by
  have hbkind : (s.arrived a).kind = .sub := (s.arrived_kind a).trans hkind
  have hbchain : (s.arrived a).chain ≠ 0 := by rw [s.arrived_chain]; exact hchain
  have hbline : (s.arrived a).line = l.pa / 128 := by rw [Access.line, s.arrived_lanes, hlanes]; rfl
  have hlisted := s.listed_frame n a
  have hsame := State.sameArbiters_listed ha
  obtain ⟨u, hu⟩ := hsame.fsPass 4 _ hpass
  have hframe := State.fsPass_frame hu
  have hslices : u.slices = s.slices := (congrArg State.slices hframe :).trans hsame.slices
  have hheld : ((s.listed n a).slice (homeOf (l.pa / 128 * 128))).holds (l.pa / 128) = true := by rw [State.slice, hsame.slices]; exact hholds
  have hheldu : (u.slice (homeOf (l.pa / 128 * 128))).holds (l.pa / 128) = true := by rw [State.slice, hslices]; exact hholds
  have hroom : (s.listed n a).sliceRoom (s.arrived a) = true := by simp [State.sliceRoom, hbline, hheld]
  have hslicePass : (s.listed n a).slicePass (s.arrived a) = some u := by
    rw [State.slicePass, hbline, hsame.fsPath, if_pos (by simp [hbchain])]
    exact hu
  refine ⟨u, (congrArg State.mem hframe :).trans (congrArg State.mem hlisted :), (congrArg State.shadows hframe :).trans (congrArg State.shadows hlisted :),
    (congrArg State.poison hframe :).trans (congrArg State.poison hlisted :), ?_⟩
  rw [exec_sliceAccess, execSliceAccess]
  simp only [State.arg, hev, List.getD_cons_zero, ha]
  rw [if_neg (by rw [hstage]; decide), State.arrive_first hovertakes halone]
  dsimp only
  rw [if_pos hroom, hslicePass]
  dsimp only
  rw [hbkind, hbline, hheldu]
  rfl

include hhome

/-- R202, R276: the subtraction takes its operand from the 8 bytes, and is acknowledged. -/
theorem sliceAccess_subtracts (hshadows : s.shadows = []) (hwf : s.mem.wf = true) (hgood : s.poisoned l.pa 8 = false) : Answers s .sliceAccess fun t =>
    (∃ a', Tbl.find? t.accs n = some a' ∧ a'.stage = 1) ∧ Mem.rdN t.mem l.pa 8 = (Mem.rdN s.mem l.pa 8 + 2 ^ 64 - l.x % 2 ^ 64) % 2 ^ 64 := by
  obtain ⟨u, hmem, hshadowsu, hpoison, hexec⟩ := sliceAccess_performs hev ha hkind hlanes hstage hchain hovertakes halone hholds hpass
  have hgoodu : u.poisoned l.pa 8 = false := by rw [State.poisoned, hpoison]; exact hgood
  obtain ⟨hanswered, hdone⟩ := State.slicePerform_sub (s := u) n ((s.arrived_kind a).trans hkind) ((s.arrived_lanes a).trans hlanes)
    (by rw [s.arrived_chain]; exact hchain)
  have hsub := State.atomAt_sub (s := u.onSlice (homeOf ((s.arrived a).line * 128)) (·.takeIn (s.arrived a))) hhome (hshadowsu.trans hshadows) hgoodu
  refine ⟨_, hexec, hanswered, ?_⟩
  rw [hdone, hsub, State.onSlice_mem, hmem, Mem.rdN_wrN hwf]
  omega

end

end Sys2Proof.Machine
end

section
/-! SUPPORT. The rows of tiles, multiplies and chains settled (O48). -/

namespace Sys2Proof.Machine

open Sys2Proof

/-- R180: a multiply that performs leaves its core with what it has written, and nothing else of memory changes. -/
theorem mmaPerform_retires {s : State} {c : Nat} {m : MatOp} {ms : List MatOp} {bl : Block} {g : Grant} (hev : s.ev = [c, m.id])
    (hm : (s.core c).mats = m :: ms) (hb : s.block? c m.slot = some bl) (hlive : ∀ k ∈ bl.handles, k.2.owner ∈ bl.live)
    (hg : (s.core c).grants.find? (fun g => g.slot == m.slot && g.serial == m.grant) = some g) :
    let u := s.multiply c g (Tbl.at bl.handles m.ha {}) (Tbl.at bl.handles m.hb {})
    Answers s .mmaPerform fun t => (t.core c).mats = ms.filter (fun z => z.id != m.id) ∧ t.mem = u.mem ∧ t.accPoison = u.accPoison := by
  intro u
  have hcores : u.cores = s.cores := State.multiply_cores ..
  have hgo : GoesOn (u.onCore c (·.dropMat m.id)) (u.retireMultiply c m) := .retireMultiply ((State.block?_of_cores hcores ..).trans hb) hlive
  refine ⟨_, mmaPerform_performs hev hm hb hg, ?_, hgo.mem, hgo.accPoison⟩
  rw [hgo.mats, State.core_onCore_self, CoreSt.dropMat, State.core, hcores]
  dsimp only
  rw [State.core] at hm
  rw [hm, List.filter_cons_of_neg (by simp)]

/-- Settles O48: a lemma per row and clause, through what goes on when work is over (`GoesOn`), what reads leave (`ReadsAt`), and what the engines
leave (`EnginesOnly`). -/
theorem tileRowResults : Obligations.TileRowResults := by
  unfold Obligations.TileRowResults
  intro s u c b n e f i j va bl h x y r rs m ms g ch img bad a l
  refine ⟨fun hev hq hlive hb hh => ⟨fun hrun => ⟨_, frameGrant_waits hev hq hlive hrun, rfl⟩,
      fun hstate hframes hrun => frameGrant_fills hev hq hlive hb hh hstate hframes hrun⟩,
    fun hev hb hh hfill hheld hstate hframes hcode hready =>
      ⟨fun hread haccs howners => fillEnd_ends hev hb hh hfill hheld hstate hframes hcode hready hread haccs howners,
        fun hread hwhere hy hending => fillEnd_holds hev hb hh hfill hheld hstate hframes hcode hready hread hwhere hy hending⟩,
    fun hev hb hh hwrites hheld hstuck =>
      ⟨fun hcode hready hstate hacrd => tileWriteComplete_writes hev hb hh hwrites hheld hstuck hready hcode hstate hacrd,
        fun hcode hevict howners => tileWriteComplete_drops hev hb hh hwrites hheld hstuck hcode hevict howners⟩,
    fun hev hm hfree hb ha hbf => ?mmpStart,
    fun hev hm hb howners hg => ⟨mmaPerform_retires hev hm hb howners hg, fun hwf hrows hcols hi hj => ?element⟩,
    fun hev _ hch hb hkilled hfaulted hentry => ⟨fun hstate => conditionalWaitPauseEnd_ends hev hch hstate, fun hstate hwaits =>
      ⟨fun hsize => engineEntryReach_beyond hev hch hb hkilled hfaulted hentry hstate hwaits hsize, fun hsize hpoison hcache => ?entry⟩⟩,
    fun hev ha hkind _ hlanes hstage hchain hovertakes halone hhome hholds hpass hshadows hwf hgood =>
      sliceAccess_subtracts hev ha hkind hlanes hstage hchain hovertakes halone hhome hholds hpass hshadows hwf hgood⟩
  case mmpStart =>
    refine ⟨_, mmpStart_starts hev hm hfree hb ha hbf, ?_, List.mem_append_right _ (List.mem_singleton_self _), rfl⟩
    exact congrArg CoreSt.mats (s.core_onCore_self c (·.startMat m.id))
  case element =>
    refine (State.accAt_multiply hwf c g hrows hcols hi hj).trans ?_
    rw [macValue]
    split <;> rfl
  case entry =>
    refine ⟨fun hbad => engineEntryReach_malformed hev hch hb hkilled hfaulted hentry hstate hwaits hsize hpoison hcache rfl hbad, fun hgood hclear =>
      ⟨fun hop => engineEntryReach_jumps hev hch hb hkilled hfaulted hentry hstate hwaits hsize hpoison hcache rfl hgood hclear hop,
        fun hop hloops => engineEntryReach_loops hev hch hb hkilled hfaulted hentry hstate hwaits hsize hpoison hcache rfl hgood hclear hop hloops,
        fun hop haligned hfind hl1 hlinks => ?signal,
        fun hop => engineEntryReach_ends hev hch hb hkilled hfaulted hentry hstate hwaits hsize hpoison hcache rfl hgood hclear hop⟩⟩
    obtain ⟨t, hexec, hmem, hnext, hlisted⟩ := engineEntryReach_signals hev hch hb hkilled hfaulted hentry hstate hwaits hsize hpoison hcache rfl hgood hclear
      hop haligned hfind hl1 hlinks
    exact ⟨t, hexec, hmem, hnext, _, hlisted, rfl, rfl, rfl, Nat.succ_ne_zero _, rfl, rfl⟩

end Sys2Proof.Machine
end

section
/-! SUPPORT. The sixteen-bit integer forms: no guard, and shifts by any count (R51, R52). -/

namespace Sys2Proof.Machine

open Sys2Proof

/-- R51, R55: guard 0 always passes, so that the writing lanes are the active ones. -/
theorem Cohort.writing_zero (h : Cohort) (sp : Split) : h.writing sp 0 = h.active sp := by
  rw [Cohort.writing, Cohort.guardMask, if_pos rfl, BitVec.and_allOnes]

theorem shl_eq (a : Word) (n : Nat) : shl a n = a <<< n := by
  unfold shl
  split
  · next hn => exact (BitVec.shiftLeft_eq_zero hn).symm
  · rfl

theorem shr_eq (a : Word) (n : Nat) : shr a n = a >>> n := by
  unfold shr
  split
  · next hn => exact (BitVec.ushiftRight_eq_zero hn).symm
  · rfl

/-- R83: from 31 on every bit is a copy of the sign. -/
theorem sra_eq (a : Word) (n : Nat) : sra a n = a.sshiftRight n := by
  rcases Nat.le_total n 31 with hn | hn
  · rw [sra, Nat.min_eq_left hn]
  · rw [sra, Nat.min_eq_right hn]
    apply BitVec.eq_of_getElem_eq
    intro i hi
    have hsign : a.getLsbD 31 = a.msb := BitVec.msb_eq_getLsbD_last a |>.symm
    rw [BitVec.getElem_sshiftRight, BitVec.getElem_sshiftRight]
    grind

section
variable {s : State} {w : Who} {r d : Nat} {i : Instr}

theorem half2_writes {f : Word → Word → Word} (c : Clear s w (laneUses [r, d] [] [d] 0)) (hi : exec i s = half2 r d f s) :
    HalfOp2 s w r d i 0 f := by
  rw [HalfOp2, hi]
  exact writesLanes _ (by rw [Cohort.writing_zero]) c rfl

theorem half1_writes {f : Word → Word} (c : Clear s w (laneUses [d] [] [d] 0)) (hi : exec i s = half1 d f s) : HalfOp1 s w d i f := by
  rw [HalfOp1, hi]
  exact writesLanes _ (by rw [Cohort.writing_zero]) c rfl

theorem mov16_writes (c : Clear s w (laneUses [r] [] [d] 0)) :
    WritesLanes s w (exec (.mov16 r d) s) d (w.h.active w.sp) (w.h.vtag r) fun l => w.h.lane r l := by
  rw [exec_mov16, execMov16]
  exact writesLanes _ (by rw [Cohort.writing_zero]) c rfl

end

/-- Settles O7: each instruction is `half2` or `half1` of its operation, where a shift by the count of a form is that of the word. -/
theorem sixteenBitResults : Obligations.SixteenBitResults := by
  intro s w r d
  refine ⟨mov16_writes, fun c => ⟨half2_writes c exec_iadd16, half2_writes c exec_isub16, half2_writes c exec_imul16, half2_writes c exec_and16,
    half2_writes c exec_or16, half2_writes c exec_xor16⟩, fun c => ⟨?_, ?_, ?_, half1_writes c exec_addi16⟩⟩
  · simpa only [shl_eq] using half1_writes c (exec_shli16 (a := r))
  · simpa only [shr_eq] using half1_writes c (exec_shri16 (a := r))
  · simpa only [sra_eq] using half1_writes c (exec_srai16 (a := r))

end Sys2Proof.Machine
end

section
/-! SUPPORT. The FP32 instructions, on operands of the tags that they take (R32, R51, R87). -/

namespace Sys2Proof.Machine

open Sys2Proof

/-- R32: an operand tagged raw, or with the operation's format, is taken. -/
theorem wrongTag_eq_false {f t : Nat} (h : t = 0 ∨ t = f) : wrongTag f t = false :=
  Bool.eq_false_of_not_eq_true fun hw => by
    obtain ⟨h0, hf⟩ := wrongTag_iff.1 hw
    exact h.elim h0 hf

section
variable {s : State} {w : Who} {o : OpA} {i : Instr}

theorem badF2_eq_false (ha : w.h.vtag o.a = 0 ∨ w.h.vtag o.a = 0x11) (hb : w.h.tagB o.q o.b = 0 ∨ w.h.tagB o.q o.b = 0x11) : badF2 o w = false := by
  rw [badF2, wrongTag_eq_false ha, wrongTag_eq_false hb, Bool.or_false]

theorem float2_writes {f : Nat → Nat → Nat → Nat} (c : Clear s w (usesA o)) (hbad : badF2 o w = false) (hi : exec i s = float2 o f s) :
    LaneOp2 s w o i 0x11 fun a b => BitVec.ofNat 32 (f w.sp.mode a.toNat b.toNat) := by
  rw [LaneOp2, hi]
  exact writesLanes _ rfl c (by rw [tagCheck, hbad]; rfl)

theorem ffma_writes (c : Clear s w (usesAcc o)) (hbad : badF2 o w = false) (hd : w.h.vtag o.d = 0 ∨ w.h.vtag o.d = 0x11) :
    LaneOp3 s w o (.ffma o) 0x11 fun a b d => BitVec.ofNat 32 (Num.ffma .fp32 w.sp.mode a.toNat b.toNat d.toNat) := by
  rw [LaneOp3, exec_ffma, execFfma]
  exact writesLanes _ rfl c (by rw [tagCheck, hbad, wrongTag_eq_false hd]; rfl)

theorem floatHalf_writes {r d : Nat} {f : Nat → Nat → Nat → Nat} (c : Clear s w (laneUses [r, d] [] [d] 0))
    (hd : w.h.vtag d = 0 ∨ w.h.vtag d = 0x11) (hr : w.h.vtag r = 0 ∨ w.h.vtag r = 0x11) (hi : exec i s = floatHalf r d f s) :
    HalfOp2 s w r d i 0x11 fun a b => BitVec.ofNat 32 (f w.sp.mode a.toNat b.toNat) := by
  rw [HalfOp2, hi]
  exact writesLanes _ (by rw [Cohort.writing_zero]) c (by rw [tagCheck, wrongTag_eq_false hd, wrongTag_eq_false hr]; rfl)

end

/-- Settles O9: each instruction is `float2`, `FFMA` or `floatHalf` of its operation, once the tags are known to be good. -/
theorem floatResults : Obligations.FloatResults := by
  intro s w o r d ok tagB op half mode
  refine ⟨fun c ha hb => ?_, fun c ha hb hd => ffma_writes c (badF2_eq_false ha hb) hd, fun c hd hr => ?_⟩
  · have hbad : badF2 o w = false := badF2_eq_false ha hb
    exact ⟨float2_writes c hbad exec_fadd, float2_writes c hbad exec_fsub, float2_writes c hbad exec_fmul, float2_writes c hbad exec_fmin,
      float2_writes c hbad exec_fmax, float2_writes c hbad exec_fminn, float2_writes c hbad exec_fmaxn⟩
  · exact ⟨floatHalf_writes c hd hr exec_fadd16, floatHalf_writes c hd hr exec_fsub16, floatHalf_writes c hd hr exec_fmul16,
      floatHalf_writes c hd hr exec_fmin16, floatHalf_writes c hd hr exec_fmax16⟩

end Sys2Proof.Machine
end

section
/-! SUPPORT. The compares: the lanes that a test picks, and the conditions on numbers and on values (R60, R91). -/

namespace Sys2Proof.Num

theorem less_ne_nan {a b : FVal} (h : less a b = true) : a ≠ .nan ∧ b ≠ .nan := by
  constructor
  · rintro rfl
    cases h
  · rintro rfl
    cases a <;> cases h

/-- R60: no value is both less and greater than another. -/
theorem less_asymm {a b : FVal} (h : less a b = true) : less b a = false := by
  obtain ⟨ha, hb⟩ := less_ne_nan h
  exact less_eq_false_of_below ha hb (below_of_less h)

end Sys2Proof.Num

namespace Sys2Proof.Machine

open Sys2Proof

/-- The lanes of a mask made by a test are those that it picks. -/
theorem inMask_maskOf (f : Nat → Bool) {l : Nat} (hl : l < 32) : inMask (maskOf f) l = f l := by
  have hbelow : ∀ n, inMask ((List.range n).foldl (fun a l => if f l then a ||| (1#32 <<< l) else a) 0) l = (decide (l < n) && f l) := by
    intro n
    induction n with
    | zero => simp [inMask]
    | succ n ih =>
      have hbit : (1#32 <<< n).getLsbD l = decide (l = n) := by
        rw [← BitVec.twoPow_eq, BitVec.getLsbD_twoPow]
        grind
      rw [inMask] at ih ⊢
      rw [List.range_succ, List.foldl_append, List.foldl_cons, List.foldl_nil]
      split <;> grind
  rw [maskOf, hbelow, decide_eq_true hl, Bool.true_and]

/-- R60: the conditions on numbers. -/
theorem condI_iff {c : Nat} (hc : c < 6) (x y : Int) : condI c x y = true ↔
    (c = 0 ∧ x = y) ∨ (c = 1 ∧ x ≠ y) ∨ (c = 2 ∧ x < y) ∨ (c = 3 ∧ x ≤ y) ∨ (c = 4 ∧ x > y) ∨ (c = 5 ∧ x ≥ y) := by
  interval_cases c <;> simp [condI]

section
variable {x y : Num.FVal}

/-- R60: neither value is a NaN. -/
theorem ordered_iff : (x != .nan && y != .nan) = true ↔ x ≠ .nan ∧ y ≠ .nan := by
  rw [Bool.and_eq_true, bne_iff_ne, bne_iff_ne]

theorem unordered_iff : (x == .nan || y == .nan) = true ↔ ¬ (x ≠ .nan ∧ y ≠ .nan) := by
  rw [Bool.or_eq_true, beq_iff_eq, beq_iff_eq, not_and_or, not_not, not_not]

theorem sameVal_iff : sameVal x y = true ↔ (x ≠ .nan ∧ y ≠ .nan) ∧ ¬ Num.less x y = true ∧ ¬ Num.less y x = true := by
  simp [sameVal, and_assoc]

theorem not_sameVal_iff : (!sameVal x y) = true ↔ ¬ (x ≠ .nan ∧ y ≠ .nan) ∨ Num.less x y = true ∨ Num.less y x = true := by
  rw [Bool.not_eq_true', ← Bool.not_eq_true, sameVal_iff, not_and_or, ← not_or (p := Num.less x y = true), not_not]

/-- R60: of two numbers the first is less than the second or equal to it where it is not greater. -/
theorem less_or_sameVal_iff : (Num.less x y || sameVal x y) = true ↔ (x ≠ .nan ∧ y ≠ .nan) ∧ ¬ Num.less y x = true := by
  rw [Bool.or_eq_true, sameVal_iff]
  by_cases hlt : Num.less x y = true
  · simp [hlt, Num.less_asymm hlt, Num.less_ne_nan hlt]
  · simp [hlt]

theorem greater_or_sameVal_iff : (Num.less y x || sameVal x y) = true ↔ (x ≠ .nan ∧ y ≠ .nan) ∧ ¬ Num.less x y = true := by
  rw [Bool.or_eq_true, sameVal_iff]
  by_cases hgt : Num.less y x = true
  · simp [hgt, Num.less_asymm hgt, Num.less_ne_nan hgt]
  · simp [hgt]

/-- R60: the conditions on values. -/
theorem condF_iff {c : Nat} (hc : c < 8) : condF c x y = true ↔
    let num := x ≠ .nan ∧ y ≠ .nan
    let lt := Num.less x y = true
    let gt := Num.less y x = true
    (c = 0 ∧ num ∧ ¬ lt ∧ ¬ gt) ∨ (c = 1 ∧ (¬ num ∨ lt ∨ gt)) ∨ (c = 2 ∧ lt) ∨ (c = 3 ∧ num ∧ ¬ gt) ∨ (c = 4 ∧ gt) ∨
      (c = 5 ∧ num ∧ ¬ lt) ∨ (c = 6 ∧ num) ∨ (c = 7 ∧ ¬ num) := by
  dsimp only
  interval_cases c
  · rw [condF, sameVal_iff]; simp
  · rw [condF, not_sameVal_iff]; simp
  · rw [condF]; simp
  · rw [condF, less_or_sameVal_iff]; simp
  · rw [condF]; simp
  · rw [condF, greater_or_sameVal_iff]; simp
  · rw [condF, ordered_iff]; simp
  · simp only [condF, unordered_iff]; simp

end

section
variable {s : State} {w : Who} {o : OpCmp}

/-- R91: a compare gives its predicate the condition in each writing lane. -/
def CompareGives (s : State) (w : Who) (o : OpCmp) (i : Instr) (cond : Nat → Prop) : Prop :=
  ∃ x : Mask, (∀ l, l < 32 → (inMask x l = true ↔ cond l)) ∧ WritesPred s w (exec i s) o.p (w.h.writing w.sp o.g) x

theorem compare_gives {u : Uses} {bad : Who → Bool} {f : Who → Nat → Bool} {i : Instr} {cond : Nat → Prop} (c : Clear s w u) (hbad : bad w = false)
    (hi : exec i s = compare o u bad f s) (hcond : ∀ l, f w l = true ↔ cond l) : CompareGives s w o i cond := by
  refine ⟨maskOf (f w), fun l hl => by rw [inMask_maskOf _ hl, hcond], ?_⟩
  rw [hi]
  exact writesPred _ rfl c (by rw [tagCheck, hbad]; rfl)

end

/-- Settles O13: each compare gives the lanes that its condition picks, and each condition is that of R60. -/
theorem compareResults : Obligations.CompareResults := by
  intro s w o b tagB order value gives
  refine ⟨fun c hc => ⟨?_, ?_⟩, fun c hc ha hb => ?_, fun c hc ha hb => ?_⟩
  · exact compare_gives c rfl exec_icmp fun l => condI_iff hc ..
  · exact compare_gives c rfl exec_ncmp fun l => condI_iff hc ..
  · exact compare_gives c (by rw [wrongTag_eq_false ha, Cohort.tagB, wrongTag_eq_false hb]; rfl) exec_fcmp fun l => condF_iff hc
  · exact compare_gives c (by rw [wrongTag_eq_false ha, Cohort.tagB, wrongTag_eq_false hb]; rfl) exec_dcmp fun l => condF_iff hc

end Sys2Proof.Machine
end

section
/-! SUPPORT. Branches, calls and jumps: splits moved and divided, and odd targets (R50, R69, R106, R107, R111). -/

namespace Sys2Proof

variable {α : Type}

/-- An entry changed leaves the free places of the table as they are. -/
theorem Tbl.lowestFree_adj (t : Tbl α) (k : Nat) (f : α → α) (n : Nat) : Tbl.lowestFree (Tbl.adj t k f) n = Tbl.lowestFree t n := by
  have hhas : ∀ j, Tbl.has (Tbl.adj t k f) j = Tbl.has t j := by
    intro j
    rw [Tbl.has, Tbl.has, Tbl.find?_adj]
    split
    · next hj => rw [Option.isSome_map, hj]
    · rfl
  simp only [Tbl.lowestFree, hhas]

theorem Tbl.find?_of_lowestFree {t : Tbl α} {n j : Nat} (h : Tbl.lowestFree t n = some j) : Tbl.find? t j = none := by
  have hfree := List.find?_some h
  rw [Bool.not_eq_true'] at hfree
  exact Option.not_isSome_iff_eq_none.1 (by rw [← Tbl.has, hfree]; decide)

end Sys2Proof

namespace Sys2Proof.Machine

open Sys2Proof

/-! Splits moved and divided. -/

section
variable {s : State} {w : Who} {u : Uses} {check : Who → State → Option Bad} {f : Who → Cohort → Cohort} {pc : DWord}

/-- A split of the cohort that has gone on is moved to an address, whatever has become of its registers. -/
theorem WentOn.goTo {h : Cohort} (hwent : WentOn w w.past h) (pc : DWord) : WentOn w { w.past with pc := pc } (h.goTo w pc) where
  here := Cohort.split?_onSplit_self hwent.here _
  others j hj := (Cohort.split?_onSplit_ne _ hj _).trans (hwent.others j hj)
  seq := hwent.seq

/-- A clear instruction whose effect is that its split goes elsewhere. -/
theorem movesOn_goTo (c : Clear s w u) (hc : check w s = none) (hf : f w w.gone = w.gone.goTo w pc) : MovesOn s w (issueOwn u check f s) pc := by
  refine issueOwn_completes c hc ?_
  rw [hf]
  exact ⟨(Who.gone_wentOn c.who).goTo pc, w.gone_sameBut, fun _ => rfl, fun _ => ⟨rfl, rfl⟩, fun _ => rfl⟩

/-- A clear instruction with no effect beyond its split's going on. -/
theorem movesOn_past (c : Clear s w u) (hc : check w s = none) (hf : f w w.gone = w.gone) : MovesOn s w (issueOwn u check f s) w.past.pc := by
  refine issueOwn_completes c hc ?_
  rw [hf]
  exact ⟨Who.gone_wentOn c.who, w.gone_sameBut, fun _ => rfl, fun _ => ⟨rfl, rfl⟩, fun _ => rfl⟩

/-- R111: a new split takes the lowest free entry, or goes before the overflow area. -/
structure Placed (h : Cohort) (sp : Split) (h' : Cohort) : Prop where
  free : ∀ j, Tbl.lowestFree h.splits 8 = some j → h'.split? j = some sp ∧ h'.overflow = h.overflow ∧ ∀ i, i ≠ j → h'.split? i = h.split? i
  full : Tbl.lowestFree h.splits 8 = none → h'.overflow = sp :: h.overflow ∧ ∀ i, h'.split? i = h.split? i
  kept : ∀ i, (h.split? i).isSome → h'.split? i = h.split? i
  same : { h' with splits := h.splits, overflow := h.overflow } = h

theorem Cohort.newSplit_placed (h : Cohort) (sp : Split) : Placed h sp (h.newSplit sp) := by
  unfold Cohort.newSplit
  cases hfree : Tbl.lowestFree h.splits 8 with
  | none =>
    exact ⟨fun j hj => (nomatch hfree.symm.trans hj), fun _ => ⟨rfl, fun _ => rfl⟩, fun _ _ => rfl, rfl⟩
  | some j =>
    have hput : (h.setSplit j sp).split? j = some sp := Tbl.find?_put_self ..
    have hkept : ∀ i, i ≠ j → (h.setSplit j sp).split? i = h.split? i := fun i hi => Tbl.find?_put_ne _ _ hi
    refine ⟨fun k hk => ?_, fun hnone => (nomatch hfree.symm.trans hnone), fun i hi => hkept i ?_, rfl⟩
    · rw [hfree] at hk
      obtain rfl := Option.some.inj hk
      exact ⟨hput, rfl, hkept⟩
    · rintro rfl
      rw [Cohort.split?, Tbl.find?_of_lowestFree hfree] at hi
      cases hi

end

/-- What a branch that divides its split leaves: the taken lanes in the split's own entry, and the others in a new split (R106, R111). -/
structure Divides (w : Who) (new : Split) (sp : Split) (h : Cohort) : Prop where
  here : h.split? w.i = some sp
  free : ∀ j, Tbl.lowestFree w.h.splits 8 = some j →
    h.split? j = some new ∧ h.overflow = w.h.overflow ∧ ∀ i, i ≠ w.i → i ≠ j → h.split? i = w.h.split? i
  full : Tbl.lowestFree w.h.splits 8 = none → h.overflow = new :: w.h.overflow ∧ ∀ i, i ≠ w.i → h.split? i = w.h.split? i
  same : SameBut w.h { h with overflow := w.h.overflow }
  lanes : SameLanes w.h h
  uniform : SameUniform w.h h
  preds : SamePreds w.h h

/-- The split of the lanes that a branch does not take (R106). -/
def Who.untaken (w : Who) (t : Mask) : Split :=
  { pc := w.sp.pc + 4, entry := w.sp.entry &&& ~~~t, exec := w.sp.exec &&& ~~~t, frm := w.sp.frm, dph := w.sp.dph, join := w.sp.join }

theorem Who.diverge_divides {s : State} {w : Who} (hw : s.who? = some w) (t : Mask) (tgt : DWord) :
    Divides w (w.untaken t) { w.past with pc := tgt, entry := t, exec := t } (w.gone.diverge w t tgt) := by
  have hwent := Who.gone_wentOn hw
  have hplaced := Cohort.newSplit_placed w.gone (w.untaken t)
  have hplace : Tbl.lowestFree w.gone.splits 8 = Tbl.lowestFree w.h.splits 8 := Tbl.lowestFree_adj ..
  have hmine : (w.gone.newSplit (w.untaken t)).split? w.i = some w.past := by
    rw [hplaced.kept w.i (by rw [hwent.here]; rfl), hwent.here]
  have hsame := hplaced.same
  rw [Cohort.diverge, ← Who.untaken]
  generalize w.gone.newSplit (w.untaken t) = h at hplaced hmine hsame
  have hne : ∀ j, j ≠ w.i → (h.onSplit w.i fun sp => { sp with entry := t, exec := t, pc := tgt }).split? j = h.split? j :=
    fun j hj => Cohort.split?_onSplit_ne h hj _
  refine ⟨Cohort.split?_onSplit_self hmine _, fun j hj => ?_, fun hnone => ?_, ?_, ?_, ?_, ?_⟩
  · obtain ⟨hnew, hover, hothers⟩ := hplaced.free j (hplace.trans hj)
    have hji : j ≠ w.i := by
      rintro rfl
      rw [← hplace] at hj
      have := Tbl.find?_of_lowestFree hj
      rw [← Cohort.split?, hwent.here] at this
      cases this
    exact ⟨(hne j hji).trans hnew, hover, fun i hi hij => ((hne i hi).trans (hothers i hij)).trans (hwent.others i hi)⟩
  · obtain ⟨hover, hothers⟩ := hplaced.full (hplace.trans hnone)
    exact ⟨hover, fun i hi => ((hne i hi).trans (hothers i)).trans (hwent.others i hi)⟩
  · have hbut := w.gone_sameBut
    rw [← hsame] at hbut
    exact hbut
  · exact fun n => (congrArg (fun y : Cohort => y.vreg n) hsame :)
  · exact fun n => ⟨(congrArg (fun y : Cohort => y.uq n) hsame :), (congrArg (fun y : Cohort => y.utag n) hsame :)⟩
  · exact fun n => (congrArg (fun y : Cohort => y.pred n) hsame :)

/-! The instructions. -/

section
variable {s : State} {w : Who} {o g : Nat}

theorem bra_taken (c : Clear s w {}) (h : g = 0 ∨ w.h.active w.sp &&& w.h.guardMask g = w.h.active w.sp) :
    MovesOn s w (exec (.bra o g) s) (target w.sp.pc o) := by
  rw [exec_bra, execBra]
  exact movesOn_goTo c rfl (if_pos h)

theorem bra_passed (c : Clear s w {}) (hg : g ≠ 0) (hall : w.h.active w.sp &&& w.h.guardMask g ≠ w.h.active w.sp)
    (hnone : w.h.active w.sp &&& w.h.guardMask g = 0) : MovesOn s w (exec (.bra o g) s) w.past.pc := by
  rw [exec_bra, execBra]
  exact movesOn_past c rfl ((if_neg (not_or.2 ⟨hg, hall⟩)).trans (if_pos hnone))

theorem bra_divides (c : Clear s w {}) (hg : g ≠ 0) (hall : w.h.active w.sp &&& w.h.guardMask g ≠ w.h.active w.sp)
    (hsome : w.h.active w.sp &&& w.h.guardMask g ≠ 0) :
    Completes s w (exec (.bra o g) s) (Divides w (w.untaken (w.h.active w.sp &&& w.h.guardMask g))
      { w.past with pc := target w.sp.pc o, entry := w.h.active w.sp &&& w.h.guardMask g, exec := w.h.active w.sp &&& w.h.guardMask g }) := by
  rw [exec_bra, execBra]
  refine issueOwn_completes c rfl ?_
  dsimp only
  rw [if_neg (not_or.2 ⟨hg, hall⟩), if_neg hsome]
  exact Who.diverge_divides c.who ..

theorem call_completes (c : Clear s w { ud := [63] }) : Completes s w (exec (.call o) s) fun h =>
    WentOn w { w.past with pc := target w.sp.pc o } h ∧ SameBut w.h h ∧ UniformSet w.h h 63 (w.sp.pc + 4) 0 ∧ SameLanes w.h h ∧ SamePreds w.h h := by
  rw [exec_call, execCall]
  refine issueOwn_completes c rfl ?_
  have hwent : WentOn w w.past (w.gone.setQ 63 (w.sp.pc + 4) 0) := ⟨(Who.gone_wentOn c.who).here, (Who.gone_wentOn c.who).others, rfl⟩
  have hset := (Cohort.setQ_set w.gone 63 (w.sp.pc + 4) 0).ofGone
  exact ⟨hwent.goTo _, w.gone_sameBut, ⟨hset.value, hset.zero, hset.others⟩, fun _ => rfl, fun _ => rfl⟩

end

/-! Jumps (R50, R107). -/

section
variable {s : State} {w : Who} {n : Nat} {i : Instr} (c : Clear s w { us := [n] }) (hi : exec i s = jumpTo n s)
include c hi

theorem jump_even (h : (w.h.uq n).getLsbD 0 = false) : MovesOn s w (exec i s) (w.h.uq n) := by
  have hodd : w.oddTarget n = none := if_neg (by rw [h]; decide)
  have hclear : Clear s w { us := [n], odd := w.oddTarget n } := by rw [hodd]; exact c
  rw [hi, jumpTo, issue_onCohort hclear rfl]
  exact movesOn_goTo hclear rfl rfl

theorem jump_odd (h : (w.h.uq n).getLsbD 0 = true) : Stops s w (exec i s) 2 0 (w.h.uq n).toNat := by
  have hodd : w.oddTarget n = some (w.h.uq n).toNat := if_pos h
  have hfault : s.issueFault w { us := [n], odd := w.oddTarget n } noCheck = some { code := 2, addr := (w.h.uq n).toNat } := by
    rw [State.issueFault, if_neg (by simp [Uses.bad]), hodd]
    rfl
  rw [hi, jumpTo]
  exact issue_stops (b := { code := 2, addr := (w.h.uq n).toNat }) ⟨c.who, c.ready, c.free, c.onward, c.unheld⟩ hfault

end

/-- Settles O22: the three outcomes of a branch by its guard, and a jump by the lowest bit of its target. -/
theorem branchResults : Obligations.BranchResults := by
  intro s w o g a tgt
  refine ⟨fun c => ⟨bra_taken c, bra_passed c, fun hg hall hsome => ?_, ?_⟩, call_completes,
    fun c => ⟨jump_even c exec_ret, jump_odd c exec_ret⟩, fun c => ⟨jump_even c exec_jmpq, jump_odd c exec_jmpq, ?_⟩⟩
  · obtain ⟨t, h, hexec, honly, hat, hdiv⟩ := bra_divides c hg hall hsome
    exact ⟨t, h, hexec, honly, hat, hdiv.here, hdiv.free, hdiv.full, hdiv.same, hdiv.lanes, hdiv.uniform, hdiv.preds⟩
  · rw [exec_nop, execNop]
    exact movesOn_past c rfl rfl
  · rw [exec_rwait, execRwait]
    exact movesOn_past c rfl rfl

end Sys2Proof.Machine
end

section
/-! SUPPORT. Loads and value-returning atomics at their issue: aligned lanes, writes that no bound register watches, and the load that is listed (R66, R139,
R141 to R143, R149, R151, R159). -/

namespace Sys2Proof.Machine

open Sys2Proof

/-! Alignment (R139). -/

theorem misaligned_eq_none {size : Nat} {ls : List LaneAcc} (h : ∀ a ∈ ls, a.va % size = 0) : misaligned size ls = none := by
  rw [misaligned, List.find?_eq_none.mpr fun a ha => by simp [h a ha], Option.map_none]

theorem atomCheck_eq_none {s : State} {w : Who} {ty : Nat} {tags : Who → List Nat} {ls : Who → List LaneAcc}
    (htags : ∀ t ∈ tags w, badAtomTag ty t = false) (hls : ∀ a ∈ ls w, a.va % typeSize ty = 0) : atomCheck ty tags ls w s = none := by
  have hgood : (tags w).any (badAtomTag ty) = false := List.any_eq_false.mpr fun t ht => by rw [htags t ht]; decide
  rw [atomCheck, hgood, if_neg Bool.false_ne_true, misaligned_eq_none hls]

/-! Writes that no armed bound register watches (R159). -/

/-- R159: no armed register of a context has a range. -/
def State.Unwatched (s : State) (asid : Nat) : Prop := ∀ va n, s.boundsOn asid va n = []

/-- The operands of an access fit its size. -/
def OperandsFit (cas : Bool) (size : Nat) (ls : List LaneAcc) : Prop := ∀ a ∈ ls, (if cas then a.y else a.x) < 256 ^ size

section
variable {s : State} {asid size : Nat} {cas : Bool} (h : s.Unwatched asid)
include h

theorem State.Unwatched.checkLane (a : LaneAcc) : s.checkLane asid size cas a = { val := (if cas then a.y else a.x) % 256 ^ size } := by
  rw [State.checkLane, h]
  rfl

theorem State.Unwatched.failedBounds (ls : List LaneAcc) : s.failedBounds asid size cas ls = 0 := by
  simp only [State.failedBounds, h.checkLane]
  exact List.foldlRecOn (motive := fun m : BitVec 32 => m = 0) ls _ rfl fun m hm _ _ => by rw [hm]; rfl

theorem State.Unwatched.boundTrap (ls : List LaneAcc) : s.boundTrap asid size cas ls = none :=
  List.find?_eq_none.mpr fun a _ => by rw [h.checkLane]; exact Bool.false_ne_true

theorem State.Unwatched.clampLanes {ls : List LaneAcc} (hfit : OperandsFit cas size ls) : s.clampLanes asid size cas ls = ls := by
  refine (List.map_congr_left fun a ha => ?_).trans (List.map_id _)
  have hval := hfit a ha
  rw [h.checkLane]
  cases cas
  · exact congrArg (fun v => { a with x := v }) (Nat.mod_eq_of_lt hval)
  · exact congrArg (fun v => { a with y := v }) (Nat.mod_eq_of_lt hval)

theorem State.Unwatched.boundHold {w : Who} (hasid : w.h.asid = asid) (ls : Who → List LaneAcc) : boundHold size cas ls w s = none := by
  rw [Machine.boundHold, hasid, h.boundTrap]

theorem State.Unwatched.setBstat (c k : Nat) (ls : List LaneAcc) : s.setBstat c k (s.failedBounds asid size cas ls) = s := by
  rw [h.failedBounds, State.setBstat, if_pos rfl]

end

/-- R146, R149: the operand of a data register fits the size of its access. -/
theorem Cohort.dataAt_lt (h : Cohort) (d size l : Nat) : h.dataAt d size l < 256 ^ size := by
  unfold Cohort.dataAt
  split
  · next hsize =>
    rw [hsize]
    exact (h.pair d l).isLt
  · exact Nat.mod_lt _ (Nat.pow_pos (by decide))

theorem operandsFit_x {m : Mask} {va x y : Nat → Nat} {size : Nat} (h : ∀ l, x l < 256 ^ size) : OperandsFit false size (lanesAt m va x y) := by
  intro a ha
  obtain ⟨l, -, rfl⟩ := List.mem_map.1 ha
  exact h l

theorem operandsFit_y {m : Mask} {va x y : Nat → Nat} {size : Nat} (h : ∀ l, y l < 256 ^ size) : OperandsFit true size (lanesAt m va x y) := by
  intro a ha
  obtain ⟨l, -, rfl⟩ := List.mem_map.1 ha
  exact h l

/-! The loads (R141 to R143). -/

/-- R141: what a load of a shape is listed as, with its place in issue order. -/
def Who.listed (w : Who) (x : MemShape) (m : Mask) (ls : List LaneAcc) : LoadOp :=
  x.toLoad (w.h.seq + 1) w.word w.len w.sp.pc m ls w.h.handler

theorem State.beginLoad_plain {s : State} {w : Who} {x : MemShape} (hfull : x.full = 0) (m : Mask) (ls : List LaneAcc) :
    s.beginLoad w x m ls = s.startLoad w.c w.k (w.listed x m ls) := if_pos hfull

theorem State.beginLoad_full {s : State} {w : Who} {x : MemShape} (hfull : x.full ≠ 0) (m : Mask) (ls : List LaneAcc) :
    s.beginLoad w x m ls = (s.onCohort w.c w.k fun h => h.onSplit w.i fun sp =>
      { sp with pc := w.sp.pc, state := 5, hold := .full (w.h.seq + 1) }).startLoad w.c w.k { w.listed x m ls with split := some w.i } := by
  unfold State.beginLoad
  dsimp only
  rw [if_neg hfull]
  rfl

/-- The instruction lists an access and it proceeds. -/
def Starts (s : State) (w : Who) (i : Instr) (x : LoadOp) : Prop := exec i s = .next ((s.onward w).startLoad w.c w.k x)

/-- R143: the instruction lists a full-empty load, and its split stays at the instruction. -/
def Holds (s : State) (w : Who) (i : Instr) (x : LoadOp) : Prop :=
  exec i s = .next (((s.onward w).onCohort w.c w.k fun h => h.onSplit w.i fun sp =>
    { sp with pc := w.sp.pc, state := 5, hold := .full (w.h.seq + 1) }).startLoad w.c w.k { x with split := some w.i })

/-- R66: the lanes of a load, each at its address. -/
def Who.loadLanes (w : Who) (g : Nat) (addr : Cohort → Nat → Nat) : List LaneAcc := lanesAt (w.h.writing w.sp g) (addr w.h) (fun _ => 0) (fun _ => 0)

section
variable {s : State} {w : Who} {u : Uses} {x : MemShape} {g : Nat} {addr : Cohort → Nat → Nat} {i : Instr}
  (c : Clear s w { u with acc := 0x80, path := some x.path, load := true, whole := false, guard := g })
  (hok : ∀ a ∈ w.loadLanes g addr, a.va % x.size = 0) (hi : exec i s = loadWith u x g addr s)
include c hok hi

theorem loadWith_begins : exec i s = .next ((s.onward w).beginLoad w x (w.h.writing w.sp g) (w.loadLanes g addr)) := by
  have hcheck : misaligned x.size (w.loadLanes g addr) = none := misaligned_eq_none hok
  rw [hi, loadWith]
  exact issue_runs (hold := noHold) c hcheck rfl

theorem loadWith_starts (hfull : x.full = 0) : Starts s w i (w.listed x (w.h.writing w.sp g) (w.loadLanes g addr)) := by
  rw [Starts, loadWith_begins c hok hi, State.beginLoad_plain hfull]

theorem loadWith_holds (hfull : x.full ≠ 0) : Holds s w i (w.listed x (w.h.writing w.sp g) (w.loadLanes g addr)) := by
  rw [Holds, loadWith_begins c hok hi, State.beginLoad_full hfull]

end

section
variable {s : State} {w : Who}

/-- R66, R143: the qualifiers below 2 are the paths, and the others are full-empty loads. -/
theorem loadLanes_issues {size : Nat} {o : OpLd} {i : Instr} (hi : exec i s = loadLanes size o s)
    (c : Clear s w { addrUses o.a o.o with
      vd := dataRegs o.d size, pairs := (addrUses o.a o.o).pairs ++ dataPairs o.d size
      acc := 0x80, path := some (if o.u = 1 then 1 else 0), load := true, whole := false, guard := o.g })
    (hok : ∀ a ∈ w.loadLanes o.g fun h l => h.laneAddr o.a o.o size l, a.va % size = 0) :
    let x := w.listed (ldShape size o) (w.h.writing w.sp o.g) (w.loadLanes o.g fun h l => h.laneAddr o.a o.o size l)
    if o.u < 2 then Starts s w i x else Holds s w i x := by
  split
  · exact loadWith_starts c hok hi (show o.u - 1 = 0 by omega)
  · exact loadWith_holds c hok hi (show o.u - 1 ≠ 0 by omega)

theorem qld_starts {q : OpQld} (c : Clear s w { us := [q.b], ud := [q.d], acc := 0x80, path := some 0, load := true })
    (hok : w.h.baseAddr q.b q.o 8 % 8 = 0) : Starts s w (.qld q)
      (w.listed { kind := .load, size := 8, dst := q.d, reuse := q.r, uniform := true } w.sp.entry [{ lane := 0, va := w.h.baseAddr q.b q.o 8 }]) := by
  have hcheck : misaligned 8 [{ lane := 0, va := w.h.baseAddr q.b q.o 8 }] = none := misaligned_eq_none (List.forall_mem_singleton.2 hok)
  rw [Starts, exec_qld, execQld]
  exact issue_runs (hold := noHold) c hcheck rfl

/-- R151: the shape of an atomic that returns a value. -/
def atomShape (kind : AccKind) (ty d scope : Nat) : MemShape := { kind := kind, size := typeSize ty, dst := d, tag := atomTag ty, scope := scope }

theorem atom_starts {a : OpAtom} (c : Clear s w { usesAtom a with vd := dataRegs a.d (typeSize a.t), acc := 0xc0, load := true })
    (htag : badAtomTag a.t (w.h.vtag a.d) = false) (hok : ∀ x ∈ w.atomLanes a, x.va % typeSize a.t = 0) (hfree : s.Unwatched w.h.asid) :
    Starts s w (.atom a) (w.listed (atomShape (.atom a.o a.t) a.t a.d a.s) (w.h.writing w.sp a.g) (w.atomLanes a)) := by
  have hfree' : (s.onward w).Unwatched w.h.asid := hfree
  have hcheck : atomCheck a.t (fun w => [w.h.vtag a.d]) (·.atomLanes a) w s = none := atomCheck_eq_none (List.forall_mem_singleton.2 htag) hok
  have hhold : (if a.o = 6 then boundHold (typeSize a.t) false (·.atomLanes a) w s else none) = none := by
    rw [hfree.boundHold rfl, ite_self]
  have hclamp : (s.onward w).clampLanes w.h.asid (typeSize a.t) false (w.atomLanes a) = w.atomLanes a :=
    hfree'.clampLanes (operandsFit_x fun l => w.h.dataAt_lt ..)
  rw [Starts, exec_atom, execAtom, issue_runs c hcheck hhold]
  simp only [hfree'.setBstat, hclamp, ite_self]
  rfl

theorem cas_starts {z : OpCas}
    (c : Clear s w { vs := pairOf z.a ++ dataRegs z.d (typeSize z.t) ++ dataRegs (casNew z) (typeSize z.t), vd := dataRegs z.d (typeSize z.t),
                     pairs := if typeSize z.t = 8 then [z.a] else [z.a, z.d], quads := if typeSize z.t = 8 then [z.d] else [],
                     whole := false, guard := z.g, acc := 0xc0, load := true })
    (htag : badAtomTag z.t (w.h.vtag z.d) = false) (hnew : badAtomTag z.t (w.h.vtag (casNew z)) = false)
    (hok : ∀ x ∈ w.casLanes z, x.va % typeSize z.t = 0) (hfree : s.Unwatched w.h.asid) :
    Starts s w (.cas z) (w.listed (atomShape (.cas z.t) z.t z.d z.s) (w.h.writing w.sp z.g) (w.casLanes z)) := by
  have hfree' : (s.onward w).Unwatched w.h.asid := hfree
  have hcheck : atomCheck z.t (fun w => [w.h.vtag z.d, w.h.vtag (casNew z)]) (·.casLanes z) w s = none :=
    atomCheck_eq_none (List.forall_mem_cons.2 ⟨htag, List.forall_mem_singleton.2 hnew⟩) hok
  have hclamp : (s.onward w).clampLanes w.h.asid (typeSize z.t) true (w.casLanes z) = w.casLanes z :=
    hfree'.clampLanes (operandsFit_y fun l => w.h.dataAt_lt ..)
  rw [Starts, exec_cas, execCas, issue_runs c hcheck (hfree.boundHold rfl _)]
  simp only [hfree'.setBstat, hclamp]
  rfl

end

/-- R141: the narrow loads extend by the sign where the qualifier is even. -/
theorem ldnShape_ext (n : OpLdn) : (ldnShape n).ext = if n.u % 2 = 0 then 1 else 0 := by
  have hlt : n.u % 2 < 2 := Nat.mod_lt _ (by decide)
  simp only [ldnShape]
  split <;> omega

/-- Settles O26, form by form: each lists the load of its shape. -/
theorem loadsIssue : Obligations.LoadsIssue := by
  intro s w o n k q a z addr data lanes ok op starts holds uses free
  refine ⟨?_, ?_, ?_, ?_, ?_, ?_⟩
  · rintro size i hi l x c hok
    refine loadLanes_issues ?_ c hok
    rcases hi with ⟨rfl, rfl⟩ | ⟨rfl, rfl⟩
    · exact exec_ld32
    · exact exec_ld64
  · intro size l x c hok
    have hstarts := loadWith_starts (x := ldnShape n) (addr := fun h l => h.laneAddr (2 * n.a) n.o (ldnShape n).size l) c hok exec_ldNarrow rfl
    have hx : w.listed (ldnShape n) (w.h.writing w.sp n.g) l = x := by
      rw [Who.listed, MemShape.toLoad, ldnShape_ext]
      rfl
    rw [← hx]
    exact hstarts
  · rintro size i hi l x c hok
    refine loadWith_starts (x := { kind := .load, size := size, dst := k.d, path := 2, reuse := k.r })
      (addr := fun h _ => h.baseAddr k.b k.o size) c hok ?_ rfl
    rcases hi with ⟨rfl, rfl⟩ | ⟨rfl, rfl⟩
    · exact exec_ldk32
    · exact exec_ldk64
  · intro l x c hok
    exact qld_starts c (hok _ List.mem_cons_self)
  · intro size l x c htag hok hfree
    exact atom_starts c htag hok hfree
  · intro size new l x c htag hnew hok hfree
    exact cas_starts c htag hnew hok hfree

end Sys2Proof.Machine
end

section
/-! SUPPORT. What the writing of an image leaves: the cores, the memory's canonical form, and the bytes below those written (R276, R326, R329 to R331). -/

namespace Sys2Proof

/-- R2: where bytes are those of a number, the number is read. -/
theorem Mem.rdN_eq {m : Mem} {a n v : Nat} (h : ∀ i, i < n → Mem.rd m (a + i) = (leBytes n v).getD i 0) : Mem.rdN m a n = v % 256 ^ n := by
  have hbytes : Mem.rdBytes m a n = leBytes n v := by
    rw [Mem.rdBytes_eq_map]
    refine List.ext_getElem (by simp [leBytes_length]) fun i h1 h2 => ?_
    rw [leBytes_length] at h2
    rw [List.getElem_map, List.getElem_range, h i h2, List.getD_eq_getElem _ _ (by rwa [leBytes_length])]
  rw [Mem.rdN, hbytes, leNat_leBytes]

end Sys2Proof

namespace Sys2Proof.Machine

open Sys2Proof

/-- From `s` to `t` bytes have been written, none of them below `lo`, and the cores are as before. -/
structure WritesFrom (lo : Nat) (s t : State) : Prop where
  cores : t.cores = s.cores
  canonical : s.Canonical → t.Canonical
  below : s.Canonical → ∀ b, b < lo → Mem.rd t.mem b = Mem.rd s.mem b

namespace WritesFrom

variable {lo : Nat} {s t u : State}

theorem of_mem (hcores : t.cores = s.cores) (hmem : t.mem = s.mem) : WritesFrom lo s t where
  cores := hcores
  canonical hs := hs.upd hmem
  below _ _ _ := by rw [hmem]

theorem of_wrBytes {a : Nat} {bs : List Byte} (hcores : t.cores = s.cores) (hmem : t.mem = Mem.wrBytes s.mem a bs) (ha : lo ≤ a) :
    WritesFrom lo s t where
  cores := hcores
  canonical hs := by
    rw [State.Canonical, hmem]
    exact Mem.wrBytes_wf _ _ hs
  below hs b hb := by rw [hmem, Mem.rd_wrBytes_out hs a bs b (.inl (by omega))]

theorem refl (s : State) : WritesFrom lo s s := of_mem rfl rfl

theorem trans (h : WritesFrom lo s t) (h' : WritesFrom lo t u) : WritesFrom lo s u where
  cores := h'.cores.trans h.cores
  canonical hs := h'.canonical (h.canonical hs)
  below hs b hb := (h'.below (h.canonical hs) b hb).trans (h.below hs b hb)

theorem ite {p : Prop} [Decidable p] (ht : WritesFrom lo s t) (hu : WritesFrom lo s u) : WritesFrom lo s (if p then t else u) := by
  split
  · exact ht
  · exact hu

theorem foldl {α : Type} {f : State → α → State} {l : List α} (hf : ∀ t x, WritesFrom lo t (f t x)) : WritesFrom lo s (l.foldl f s) :=
  foldl_keeps (WritesFrom lo s) (refl s) fun _ _ hy => hy.trans (hf _ _)

theorem narrow {line : Nat} (h : lo ≤ line * 128) : WritesFrom lo s (s.narrow line) := by
  unfold State.narrow
  split
  · exact refl s
  · exact of_wrBytes rfl rfl h

theorem narrowIn {pa n : Nat} (h : lo ≤ pa - 128) : WritesFrom lo s (s.narrowIn pa n) :=
  .ite ((narrow (by omega)).trans (narrow (by omega))) (refl s)

theorem poke {pa : Nat} {bs : List Byte} (h : lo ≤ pa) : WritesFrom lo s (s.poke pa bs) := of_wrBytes rfl rfl h

theorem fireSeen (view : State) (ws : List (Nat × Nat)) : WritesFrom lo s (s.fireSeen view ws) :=
  foldl fun _ _ => of_mem rfl rfl

theorem lineWritten (line : Nat) : WritesFrom lo s (s.lineWritten line) :=
  of_mem (congrArg State.cores (s.lineWritten_frame line) :) (congrArg State.mem (s.lineWritten_frame line) :)

/-- A write at its home reaches no byte below the line before it. -/
theorem homeWrite {pa : Nat} {bs : List Byte} (h : lo ≤ pa - 128) : WritesFrom lo s (s.homeWrite pa bs) := by
  refine .ite ?_ (.ite (refl s) (poke (by omega)))
  exact (foldl fun _ _ => lineWritten _).trans (((narrowIn h).trans (poke (by omega))).trans (fireSeen ..))

theorem putImg {a : Nat} {bs : List Byte} (h : lo ≤ a - 128) : WritesFrom lo s (s.putImg a bs) := homeWrite h

/-- R331: a replay entry lies from its address on. -/
theorem putReplay {r : Replay} {a : Nat} (h : lo ≤ a - 128) : WritesFrom lo s (r.put s a) := by
  unfold Replay.put
  exact ((putImg h).trans (putImg h)).trans (foldl fun _ _ => (putImg (by omega)).trans (putImg (by omega)))

theorem settle (a n : Nat) : WritesFrom 0 s (s.settle a n) := foldl fun _ _ => .ite (narrow (Nat.zero_le _)) (refl _)

theorem putPreds (a : Nat) (p : Tbl Mask) : WritesFrom 0 s (s.putPreds a p) := foldl fun _ _ => putImg (Nat.zero_le _)

theorem putTable (a n : Nat) (f : Nat → Option (List Byte)) : WritesFrom 0 s (s.putTable a n f) := foldl fun _ _ => putImg (Nat.zero_le _)

theorem putQs (a ta n : Nat) (h : Cohort) : WritesFrom 0 s (s.putQs a ta n h) :=
  foldl fun _ _ => (putImg (Nat.zero_le _)).trans (putImg (Nat.zero_le _))

theorem putBisque (img : Nat) (b : Bisque) : WritesFrom 0 s (s.putBisque img b) := by
  unfold State.putBisque
  exact ((foldl fun _ _ => (putImg (Nat.zero_le _)).trans (putImg (Nat.zero_le _))).trans (putPreds ..)).trans (putImg (Nat.zero_le _))

/-- R329: the splits, records, predicates and uniform registers of an image. -/
theorem saveFlow (img : Nat) (h : Cohort) : WritesFrom 0 s (s.saveFlow img h) := by
  unfold State.saveFlow
  extract_lets +onlyGivenNames s1 s2 s3 s4
  have h4 : WritesFrom 0 s s4 := ((((putTable ..).trans (putTable ..)).trans (putTable ..)).trans (putPreds ..)).trans (putQs ..)
  split
  · exact h4.trans (putBisque ..)
  · exact h4

theorem cohort? (h : WritesFrom lo s t) (c k : Nat) : t.cohort? c k = s.cohort? c k := by
  rw [State.cohort?, State.cohort?, State.core, State.core, h.cores]

end WritesFrom

/-! The trap frame (R330). -/

/-- A write at its home lands as it is on a memory that the narrowing of open shadows has left canonical. -/
theorem State.homeWrite_lands {s : State} (hs : s.Canonical) {pa : Nat} {bs : List Byte} (hhome : isHomed pa = true) :
    ∃ m : Mem, m.wf = true ∧ (s.homeWrite pa bs).mem = Mem.wrBytes m pa bs := by
  refine ⟨((linesIn pa bs.length).foldl State.lineWritten s |>.narrowIn pa bs.length).mem,
    State.Canonical.narrowIn (hs.foldl fun _ _ ht => ht.lineWritten), ?_⟩
  rw [State.homeWrite, if_pos hhome, State.land, State.fireSeen_mem]
  rfl

/-- A number among the bytes that a write lands is read, whatever is written above it later. -/
theorem State.rdN_homeWrite {s t : State} (hs : s.Canonical) {pa lo k n v : Nat} {bs pre : List Byte} (hhome : isHomed pa = true)
    (ht : WritesFrom lo (s.homeWrite pa bs) t) (hlo : pa + k + n ≤ lo) (hbs : pre ++ leBytes n v <+: bs) (hk : pre.length = k) :
    Mem.rdN t.mem (pa + k) n = v % 256 ^ n := by
  obtain ⟨m, hm, hmem⟩ := s.homeWrite_lands hs (bs := bs) hhome
  obtain ⟨post, rfl⟩ := hbs
  refine Mem.rdN_eq fun i hi => ?_
  have hlen : (pre ++ leBytes n v).length = k + n := by rw [List.length_append, leBytes_length, hk]
  rw [ht.below hs.homeWrite _ (by omega), hmem, Mem.rd_wrBytes hm, if_pos ⟨by omega, by rw [List.length_append]; omega⟩,
    List.getD_append _ _ _ _ (by omega), List.getD_append_right _ _ _ _ (by omega)]
  congr 1
  omega

/-- R330: the first four doublewords of the frame of the image at `img`. -/
structure FrameHead (m : Mem) (img : Nat) (x : Cause) (swap : Bool) : Prop where
  cause : Mem.rdN m (img + 0x8000) 8 = x.word64 swap % 2 ^ 64
  pc : Mem.rdN m (img + 0x8008) 8 = x.pc.toNat
  word : Mem.rdN m (img + 0x8010) 8 = (x.len * 2 ^ 32 + x.word) % 2 ^ 64
  addr : Mem.rdN m (img + 0x8018) 8 = x.addr % 2 ^ 64

section
variable {s : State} {img : Nat} {x : Cause} {swap : Bool} {reps : List Replay}

/-- The bytes of the frame before its replay entries (R330). -/
def frameBytes (x : Cause) (swap : Bool) (n : Nat) : List Byte :=
  leBytes 8 (x.word64 swap) ++ leBytes 8 x.pc.toNat ++ leBytes 8 (x.len * 2 ^ 32 + x.word) ++ leBytes 8 x.addr ++ leBytes 8 n ++
    leBytes 8 (if x.res.isSome then 1 else 0) ++ leBytes 0xd0 0

/-- R330, R331: the replay entries and the chain-resume record lie above the frame's first doublewords. -/
theorem State.putFrame_writes : WritesFrom (img + 0x8020) (s.homeWrite (img + 0x8000) (frameBytes x swap reps.length)) (s.putFrame img x swap reps) := by
  unfold State.putFrame
  have hreps : WritesFrom (img + 0x8020) (s.homeWrite (img + 0x8000) (frameBytes x swap reps.length))
      (reps.zipIdx.foldl (fun t e => e.1.put t (img + 0x8100 + 0x340 * e.2)) (s.homeWrite (img + 0x8000) (frameBytes x swap reps.length))) :=
    .foldl fun _ _ => .putReplay (by omega)
  dsimp only
  split
  · exact hreps.trans (.putImg (by omega))
  · exact hreps

theorem State.putFrame_cores : (s.putFrame img x swap reps).cores = s.cores :=
  State.putFrame_writes.cores.trans (WritesFrom.homeWrite (Nat.zero_le _)).cores

theorem State.putFrame_head (hs : s.Canonical) (hhome : isHomed (img + 0x8000) = true) : FrameHead (s.putFrame img x swap reps).mem img x swap := by
  have hwrites := State.putFrame_writes (s := s) (img := img) (x := x) (swap := swap) (reps := reps)
  have hfield (k v : Nat) (pre : List Byte) (hk : k ≤ 0x18) (hlen : pre.length = k) (hbs : pre ++ leBytes 8 v <+: frameBytes x swap reps.length) :
      Mem.rdN (s.putFrame img x swap reps).mem (img + 0x8000 + k) 8 = v % 2 ^ 64 :=
    State.rdN_homeWrite hs hhome hwrites (by omega) hbs hlen
  have hpc : x.pc.toNat % 2 ^ 64 = x.pc.toNat := Nat.mod_eq_of_lt x.pc.isLt
  refine ⟨hfield 0 _ [] (by decide) rfl ?_, (hfield 8 x.pc.toNat (leBytes 8 (x.word64 swap)) (by decide) (leBytes_length ..) ?_).trans hpc,
    hfield 0x10 _ (leBytes 8 (x.word64 swap) ++ leBytes 8 x.pc.toNat) (by decide) (by simp [leBytes_length]) ?_,
    hfield 0x18 _ (leBytes 8 (x.word64 swap) ++ leBytes 8 x.pc.toNat ++ leBytes 8 (x.len * 2 ^ 32 + x.word)) (by decide) (by simp [leBytes_length]) ?_⟩
  all_goals simp only [frameBytes, List.nil_append, List.append_assoc, List.prefix_append_right_inj, List.prefix_append]

end

end Sys2Proof.Machine
end

section
/-! SUPPORT. The trap of a stopped cohort: lines brought back for a rollback, the cohort and the frame that it saves, and its handler (R219, R329, R330,
R335, R338). -/

namespace Sys2Proof.Machine

open Sys2Proof

/-! Lines brought in and written back (R219). -/

/-- The cohort is as before but for its lane lines: where each stands, and what those brought in hold. -/
structure OnlyLines (h y : Cohort) : Prop where
  rest : { y with v := h.v, absent := h.absent, dirty := h.dirty, imaged := h.imaged } = h

theorem OnlyLines.trans {h y z : Cohort} (hy : OnlyLines h y) (hz : OnlyLines y z) : OnlyLines h z :=
  ⟨(congrArg (fun x : Cohort => { x with v := h.v, absent := h.absent, dirty := h.dirty, imaged := h.imaged }) hz.rest).trans hy.rest⟩

/-- From `s` to `t` the cohort in slot `k` of core `c`, if there is one, has changed by its lines alone. -/
structure Refills (c k : Nat) (s t : State) : Prop where
  cohort : ∀ h, s.cohort? c k = some h → ∃ y, t.cohort? c k = some y ∧ OnlyLines h y

namespace Refills

variable {c k : Nat} {s t u : State}

theorem of_cohort? (h : t.cohort? c k = s.cohort? c k) : Refills c k s t := ⟨fun y hy => ⟨y, h.trans hy, ⟨rfl⟩⟩⟩

theorem refl (s : State) : Refills c k s s := of_cohort? rfl

theorem trans (h : Refills c k s t) (h' : Refills c k t u) : Refills c k s u where
  cohort x hx := by
    obtain ⟨y, hy, hxy⟩ := h.cohort x hx
    obtain ⟨z, hz, hyz⟩ := h'.cohort y hy
    exact ⟨z, hz, hxy.trans hyz⟩

theorem of_cores (h : t.cores = s.cores) : Refills c k s t := of_cohort? (by rw [State.cohort?, State.cohort?, State.core, State.core, h])

theorem onCore (s : State) (d : Nat) {f : CoreSt → CoreSt} (hf : ∀ co, (f co).cohorts = co.cohorts) : Refills c k s (s.onCore d f) := by
  refine of_cohort? ?_
  by_cases hd : c = d
  · subst hd
    rw [State.cohort?, State.core_onCore_self, hf, State.cohort?]
  · rw [State.cohort?, State.core_onCore_ne _ _ hd, State.cohort?]

theorem setCohort {d j : Nat} {x y : Cohort} (hx : s.cohort? d j = some x) (hxy : OnlyLines x y) : Refills c k s (s.setCohort d j y) := by
  by_cases hd : c = d
  · subst hd
    by_cases hj : k = j
    · subst hj
      refine ⟨fun h hh => ?_⟩
      obtain rfl := Option.some.inj (hx.symm.trans hh)
      exact ⟨y, State.cohort?_setCohort_self .., hxy⟩
    · exact of_cohort? (State.cohort?_setCohort_slot _ _ _ hj)
  · exact of_cohort? (State.cohort?_setCohort_core _ _ _ _ hd)

theorem onCohort (s : State) (d j : Nat) {f : Cohort → Cohort} (hf : ∀ y, OnlyLines y (f y)) : Refills c k s (s.onCohort d j f) := by
  unfold State.onCohort
  split
  · next x hx => exact setCohort hx (hf x)
  · exact refl s

theorem onUid (s : State) (uid : Nat) {f : Cohort → Cohort} (hf : ∀ y, OnlyLines y (f y)) : Refills c k s (s.onUid uid f) := by
  unfold State.onUid
  split
  · exact onCohort _ _ _ hf
  · unfold State.onOut
    split
    · exact onCore _ _ fun _ => rfl
    · exact of_cores rfl

theorem saveLine (s : State) (h : Cohort) (r : Nat) : Refills c k s (s.saveLine h r) := by
  refine of_cores ?_
  have htaint : ∀ (l : List Nat) (t : State), (l.foldl (fun (u : State) l => u.taint (h.image + 128 * r + 4 * l) 4) t).cores = t.cores :=
    fun l t => foldl_keeps (fun u : State => u.cores = t.cores) rfl fun _ _ hu => hu
  exact (htaint ..).trans (WritesFrom.homeWrite (Nat.zero_le _)).cores

theorem writeLine (s : State) (uid r : Nat) : Refills c k s (s.writeLine uid r) := by
  unfold State.writeLine
  split
  · exact refl s
  · refine trans ?_ (onUid _ _ fun _ => ⟨rfl⟩)
    split
    · exact saveLine ..
    · exact refl s

theorem dropLine (s : State) (uid r : Nat) : Refills c k s (s.dropLine uid r) := by
  refine of_cohort? ?_
  simp only [State.cohort?, State.core, State.dropLine, Tbl.at, Tbl.find?_mapv]
  cases Tbl.find? s.cores c <;> rfl

theorem evictLine (s : State) (d : Nat) : Refills c k s (s.evictLine d) := by
  unfold State.evictLine
  dsimp only
  split
  · exact refl s
  · split
    · exact refl s
    · exact (writeLine ..).trans (dropLine ..)

theorem narrow (s : State) (line : Nat) : Refills c k s (s.narrow line) := of_cores (WritesFrom.narrow (Nat.zero_le _)).cores

theorem fillLine (s : State) (d j r : Nat) : Refills c k s (s.fillLine d j r) := by
  unfold State.fillLine
  split
  · exact refl s
  · dsimp only
    refine (evictLine s d).trans ?_
    split
    · exact refl _
    · next x hx =>
      refine trans ?_ (onCore _ _ fun _ => rfl)
      split
      · exact (narrow ..).trans (setCohort ((WritesFrom.narrow (Nat.zero_le _)).cohort? _ _ |>.trans hx) ⟨rfl⟩)
      · exact setCohort hx ⟨rfl⟩

end Refills

/-! What a trap saves (R329, R330). -/

/-- The cohort keeps its image, its living lanes and its uniform registers through a trap, and its lane registers unless it is rolled back. -/
structure TrapKeeps (h : Cohort) (x : Cause) (y : Cohort) : Prop where
  image : y.image = h.image
  alive : y.alive = h.alive
  uniform : y.q = h.q
  lanes : x.code ≠ 20 → y.v = h.v

theorem TrapKeeps.trans {h y z : Cohort} {x : Cause} (hy : TrapKeeps h x y) (hz : TrapKeeps y x z) : TrapKeeps h x z where
  image := hz.image.trans hy.image
  alive := hz.alive.trans hy.alive
  uniform := hz.uniform.trans hy.uniform
  lanes hne := (hz.lanes hne).trans (hy.lanes hne)

/-- R219: lines come back for a rollback alone. -/
theorem OnlyLines.trapKeeps {h y : Cohort} {x : Cause} (hy : OnlyLines h y) (hkept : x.code ≠ 20 → y = h) : TrapKeeps h x y where
  image := (congrArg Cohort.image hy.rest :)
  alive := (congrArg Cohort.alive hy.rest :)
  uniform := (congrArg Cohort.q hy.rest :)
  lanes hne := congrArg Cohort.v (hkept hne)

/-- R119: a cause that is put off changes at most where a split stands. -/
theorem Cohort.recur_same (h : Cohort) (x : Cause) : { h.recur x with splits := h.splits } = h := by
  unfold Cohort.recur
  split
  · rfl
  · split
    · rfl
    · next y _ _ => cases y.past <;> rfl

theorem Cohort.recur_trapKeeps (h : Cohort) (x : Cause) : TrapKeeps h x (h.recur x) where
  image := (congrArg Cohort.image (h.recur_same x) :)
  alive := (congrArg Cohort.alive (h.recur_same x) :)
  uniform := (congrArg Cohort.q (h.recur_same x) :)
  lanes _ := (congrArg Cohort.v (h.recur_same x) :)

theorem Cohort.rollback_trapKeeps (h : Cohort) {x : Cause} (hroll : x.code = 20) (b : Bisque) : TrapKeeps h x (h.rollback b) :=
  ⟨rfl, rfl, rfl, fun hne => absurd hroll hne⟩

/-- The cohort as its trap saves it, with no work under way (R329). -/
structure TrapSaves (h : Cohort) (x : Cause) (y : Cohort) : Prop where
  keeps : TrapKeeps h x y
  loads : y.loads = []
  stores : y.stores = []

/-- R330: the cause as the frame shows it, with the mark of a rollback. -/
def Cause.framed (x : Cause) : Cause := { x with rolled := x.code == 20 }

/-- What the saving of a trap leaves of its cohort and of the frame. -/
structure TrapSaved (s : State) (c k : Nat) (h : Cohort) (x : Cause) (t : State) : Prop where
  cohort : ∃ y, t.cohort? c k = some y ∧ TrapSaves h x y
  frame : s.Canonical → isHomed (h.image + 0x8000) = true → FrameHead t.mem h.image x.framed false

/-- What stands in the image is written over the cohort that the trap saves (R329 step 3). -/
theorem trapSaved_of_image {s u : State} {c k : Nat} {h y : Cohort} {x : Cause} {reps : List Replay} (hu : s.Canonical → u.Canonical)
    (hy : TrapSaves h x y) {img : Nat} (himg : img = h.image) : TrapSaved s c k h x
      ((((u.setCohort c k y).settle img 0x10000).saveFlow img y).putFrame img x.framed false reps) := by
  subst himg
  have hflow := (WritesFrom.settle (s := u.setCohort c k y) h.image 0x10000).trans (.saveFlow h.image y)
  refine ⟨⟨y, ?_, hy⟩, fun hs hhome => State.putFrame_head (hflow.canonical (hu hs).setCohort) hhome⟩
  rw [State.cohort?, State.core, State.putFrame_cores, hflow.cores]
  exact State.cohort?_setCohort_self ..

theorem State.saveTrap_saved {s : State} {c k : Nat} {h : Cohort} {x : Cause} (hh : s.cohort? c k = some h) :
    TrapSaved s c k h x (s.saveTrap c k h x false) := by
  unfold State.saveTrap
  extract_lets +onlyGivenNames u y x' src h1 h2 s1 stores young tiles again reps s2 h3 s3
  have hu : (s.Canonical → u.Canonical) ∧ Refills c k s u ∧ (x.code ≠ 20 → u = s) := by
    unfold u
    split
    · split
      · next hroll =>
        exact ⟨fun hs => hs.foldl fun _ _ ht => ht.fillLine, foldl_keeps (Refills c k s) (.refl s) fun _ _ ht => ht.trans (.fillLine ..),
          fun hne => absurd hroll hne⟩
      · exact ⟨id, .refl s, fun _ => rfl⟩
    · exact ⟨id, .refl s, fun _ => rfl⟩
  obtain ⟨hcanon, hrefill, hsame⟩ := hu
  have hy : TrapKeeps h x y := by
    obtain ⟨z, hz, hlines⟩ := hrefill.cohort h hh
    rw [show y = z by rw [show y = (u.cohort? c k).getD h from rfl, hz, Option.getD_some]]
    refine hlines.trapKeeps fun hne => ?_
    rw [hsame hne, hh] at hz
    exact (Option.some.inj hz).symm
  have hkeeps : TrapKeeps h x h2 := by
    have h1keeps : TrapKeeps y x h1 := { y.recur_trapKeeps x with }
    refine (hy.trans h1keeps).trans ?_
    unfold h2
    split
    · split
      · next hroll => exact h1.rollback_trapKeeps hroll _
      · exact ⟨rfl, rfl, rfl, fun _ => rfl⟩
    · exact ⟨rfl, rfl, rfl, fun _ => rfl⟩
  have hs1 : s.Canonical → s1.Canonical := fun hs => by
    unfold s1
    split
    · exact (hcanon hs).dropTransfers.ite (hcanon hs)
    · exact hcanon hs
  exact trapSaved_of_image (u := s3.dropFrameReqs c y.uid) (y := h3) (fun hs => State.Canonical.dropFrameReqs ((hs1 hs).onBlock.upd))
    ⟨{ hkeeps with }, rfl, rfl⟩ hy.image

/-! The trap's end (R329 step 4, R338). -/

section
variable {s : State} {c k : Nat} {h : Cohort} {x : Cause} (hh : s.cohort? c k = some h) (hstopped : h.stopped = true) (hending : h.ending = false)
  (hleaving : h.leaving = false) (hdrained : s.drained c h = true) (hcause : s.causeOf c h = some x)
include hh hstopped hending hleaving hdrained hcause

theorem State.enterTrap_eq : s.enterTrap c k =
    if h.handler || s.vectorOf h x = 0 then (s.onCohort c k fun y => { y with late := y.late.erase x }).endCohort c k (some (5, x.pc.toNat))
    else (s.saveTrap c k h x false).onCohort c k fun y => y.toHandler (s.vectorOf h x) (x.code == 17) (x.framed.word64 false) := by
  rw [State.enterTrap, hh]
  dsimp only
  rw [hstopped, hending, hleaving, hdrained, hcause]
  rfl

/-- R338: with no handler, or in the handler already, the cohort ends. -/
theorem State.enterTrap_ends (hnone : h.handler = true ∨ s.vectorOf h x = 0) :
    s.enterTrap c k = (s.onCohort c k fun y => { y with late := y.late.erase x }).endCohort c k (some (5, x.pc.toNat)) := by
  rw [s.enterTrap_eq hh hstopped hending hleaving hdrained hcause, if_pos (by simpa using hnone)]

/-- R329: the state in which the handler runs is that of the trap saved, its cohort's splits and registers apart. -/
theorem State.enterTrap_enters (hhandler : h.handler = false) (hvec : s.vectorOf h x ≠ 0) : ∃ t y, TrapSaved s c k h x t ∧ TrapSaves h x y ∧
    s.enterTrap c k = t.setCohort c k (y.toHandler (s.vectorOf h x) (x.code == 17) (x.framed.word64 false)) := by
  have hsaved := State.saveTrap_saved (x := x) hh
  obtain ⟨y, hy, hsaves⟩ := hsaved.cohort
  refine ⟨_, y, hsaved, hsaves, ?_⟩
  rw [s.enterTrap_eq hh hstopped hending hleaving hdrained hcause, if_neg (by simpa [hhandler] using hvec), State.onCohort_some hy]

end

end Sys2Proof.Machine
end

section
/-! SUPPORT. The rows that stop a cohort and that enter its handler: a trap, a word that is no instruction, and the late fault of a chain (R57, R69, R203,
R329, R337, R338, R398). -/

namespace Sys2Proof.Machine

open Sys2Proof

/-! A trap that is taken (R329, R338). -/

/-- R330: the cause word of the frame. -/
theorem Cause.framed_word64 (x : Cause) : x.framed.word64 false = (if x.code = 20 then 2 ^ 17 else 0) + x.sub * 256 + x.code := by
  simp [Cause.word64, Cause.framed]

/-- R329 step 4: a cohort in its handler. -/
structure InHandler (h : Cohort) (vec : DWord) (debug : Bool) (word : Nat) (h' : Cohort) : Prop where
  splits : h'.splits = [(0, { pc := vec, entry := h.alive, exec := h.alive })]
  overflow : h'.overflow = []
  joins : h'.joins = []
  handler : h'.handler = true
  debug : h'.debug = debug
  stopped : h'.stopped = false
  preds : ∀ p, 0 < p → h'.pred p = 0
  image : h'.uq 60 = BitVec.ofNat 64 h.image
  cause : h'.uq 61 = BitVec.ofNat 64 word
  uniform : ∀ r, r ≠ 60 → r ≠ 61 → h'.uq r = h.uq r

theorem TrapSaves.inHandler {h y : Cohort} {x : Cause} (hy : TrapSaves h x y) (vec : DWord) (debug : Bool) (word : Nat) :
    InHandler h vec debug word (y.toHandler vec debug word) := by
  obtain ⟨himage, halive, huniform, -⟩ := hy.keeps
  let z : Cohort := { y with
    splits := [(0, { pc := vec, entry := y.alive, exec := y.alive })], overflow := [], joins := [], p := []
    handler := true, debug := debug, stopped := false, cause := none, pending := false }
  have hset60 := Cohort.setQ_set z 60 (BitVec.ofNat 64 y.image) 0
  have hset61 := Cohort.setQ_set (z.setQ 60 (BitVec.ofNat 64 y.image) 0) 61 (BitVec.ofNat 64 word) 0
  refine ⟨?_, rfl, rfl, rfl, rfl, rfl, fun p hp => ?_, ?_, (hset61.value (by decide)).1, fun r h60 h61 => ?_⟩
  · exact congrArg (fun m : Mask => ([(0, { pc := vec, entry := m, exec := m })] : Tbl Split)) halive
  · exact if_neg hp.ne'
  · exact ((hset61.others 60 (by decide)).1.trans (hset60.value (by decide)).1).trans (congrArg _ himage)
  · exact ((hset61.others r h61).1.trans (hset60.others r h60).1).trans (show y.uq r = h.uq r by rw [Cohort.uq, Cohort.uq, huniform])

section
variable {s : State} {c k : Nat} {h : Cohort} {x : Cause} (harg0 : s.arg 0 = c) (harg1 : s.arg 1 = k) (hh : s.cohort? c k = some h)
  (hstopped : h.stopped = true) (hending : h.ending = false) (hleaving : h.leaving = false) (hdrained : s.drained c h = true)
  (hcause : s.causeOf c h = some x)
include harg0 harg1 hh hstopped hending hleaving hdrained hcause

theorem trapEntry_ends (hnone : h.handler = true ∨ s.vectorOf h x = 0) :
    exec .trapEntry s = .next ((s.onCohort c k fun y => { y with late := y.late.erase x }).endCohort c k (some (5, x.pc.toNat))) := by
  rw [exec_trapEntry, execTrapEntry, harg0, harg1, State.enterTrap_ends hh hstopped hending hleaving hdrained hcause hnone]

theorem trapEntry_enters (hhandler : h.handler = false) (hvec : s.vectorOf h x ≠ 0) : ∃ t h', exec .trapEntry s = .next t ∧ t.cohort? c k = some h' ∧
    InHandler h (s.vectorOf h x) (x.code == 17) ((if x.code = 20 then 2 ^ 17 else 0) + x.sub * 256 + x.code) h' ∧ (x.code ≠ 20 → SameLanes h h') ∧
    h'.loads = [] ∧ h'.stores = [] ∧ (s.Canonical → isHomed (h.image + 0x8000) = true → FrameHead t.mem h.image x.framed false) := by
  obtain ⟨t, y, hsaved, hsaves, henter⟩ := State.enterTrap_enters hh hstopped hending hleaving hdrained hcause hhandler hvec
  rw [x.framed_word64] at henter
  refine ⟨_, _, by rw [exec_trapEntry, execTrapEntry, harg0, harg1, henter], State.cohort?_setCohort_self .., hsaves.inHandler .., fun hne n => ?_,
    hsaves.loads, hsaves.stores, hsaved.frame⟩
  exact congrArg (fun v : Tbl VReg => Tbl.at v n {}) (hsaves.keeps.lanes hne)

end

/-- R330: the first doublewords of the frame as they are read. -/
theorem FrameHead.read {s : State} {img : Nat} {x : Cause} {swap : Bool} (hframe : FrameHead s.mem img x swap)
    (hhome : ∀ i, i < 0x10000 → isHomed (img + i) = true) :
    s.peekN (img + 0x8000) 8 = x.word64 swap % 2 ^ 64 ∧ s.peekN (img + 0x8008) 8 = x.pc.toNat ∧
      s.peekN (img + 0x8010) 8 = (x.len * 2 ^ 32 + x.word) % 2 ^ 64 ∧ s.peekN (img + 0x8018) 8 = x.addr % 2 ^ 64 := by
  rw [s.peekN_homed (hhome 0x8000 (by decide)), s.peekN_homed (hhome 0x8008 (by decide)), s.peekN_homed (hhome 0x8010 (by decide)),
    s.peekN_homed (hhome 0x8018 (by decide))]
  exact ⟨hframe.cause, hframe.pc, hframe.word, hframe.addr⟩

/-! Words that are no instruction, and fetches that fail (R57, R69, R398). -/

/-- A stop marks its cohort, whatever word its frame is to name. -/
theorem State.stopAt_stops_cohort {s : State} {w : Who} (hh : s.cohort? w.c w.k = some w.h) (b : Bad) :
    Stops s w (.next (s.stopAt w b)) b.code b.sub b.addr := by
  rw [State.stopAt, State.trapWith, State.onCohort_some hh]
  obtain ⟨hat, hothers, hrest⟩ := (OnlyDue.pushOnce (s.setCohort w.c w.k { w.h.halt with
    cause := some { code := b.code, sub := b.sub, pc := w.sp.pc, word := w.word, len := w.len, addr := b.addr } }) .trapEntry [w.c, w.k]).rest_of_setCohort
  exact ⟨_, rfl, hat, hothers, List.forall_mem_singleton.2 (State.mem_pushOnce ..), hrest⟩

theorem State.badWord_stops {s : State} {w : Who} (hw : s.who? = some w) (hready : w.sp.state = 0) (hfree : w.h.mayIssue = true)
    (honward : w.h.atJoin w.sp = false) (word len : Nat) (b : Bad) :
    Stops s { w with word := word, len := len } (.next (s.badWord word len b)) b.code b.sub b.addr := by
  have hstop : s.badWord word len b = s.stopAt { w with word := word, len := len } b := by
    rw [State.badWord, hw]
    dsimp only
    rw [hready, hfree, honward]
    rfl
  rw [hstop]
  exact State.stopAt_stops_cohort (w := { w with word := word, len := len }) (State.who?_some hw).1 b

/-! The late fault of a chain (R203, R337). -/

/-- R337: a cohort that a late fault has reached: it stops, unless its handler runs. -/
def Cohort.takeLate (h : Cohort) (x : Cause) : Cohort :=
  let z : Cohort := { h with late := h.late ++ [x] }
  if h.handler then z else z.halt

theorem Cohort.takeLate_ending (h : Cohort) (x : Cause) : (h.takeLate x).ending = h.ending := by
  unfold Cohort.takeLate
  dsimp only
  split <;> rfl

theorem Cohort.takeLate_stopped {h : Cohort} (x : Cause) (hs : h.handler = false ∨ h.stopped = true) : (h.takeLate x).stopped = true := by
  unfold Cohort.takeLate
  dsimp only
  split
  · next hhandler => exact hs.resolve_left (by rw [hhandler]; decide)
  · rfl

/-- R203, R337: the cause of a chain that no region of its cohort holds. -/
def Chain.lateCause (ch : Chain) (e n sub addr : Nat) : Cause :=
  { code := 22, sub := sub, pc := ch.pc, word := ch.word, addr := addr, res := some (ch.resume e n) }

theorem lateEngineFault_reaches {s : State} {ch : Chain} {h : Cohort} {c k : Nat} (hch : s.chainAt (s.arg 0) (s.arg 1) (s.arg 2) = some ch)
    (hby : s.cohortBy ch.uid = some h) (hlive : h.ending = false) (hregion : ch.inRegion = false) (hwhere : s.whereIs ch.uid = some (c, k))
    (hh : s.cohort? c k = some h) :
    exec .lateEngineFault s =
      .next ((s.setCohort c k (h.takeLate (ch.lateCause (s.arg 1) (s.arg 2) (s.arg 3) (s.arg 4)))).notify c k) := by
  rw [exec_lateEngineFault, execLateEngineFault]
  dsimp only
  rw [hch]
  dsimp only
  rw [hby]
  dsimp only
  rw [hlive, hregion]
  simp only [Bool.false_and, Bool.false_eq_true, if_false, hwhere, State.onCohort_some hh]
  rfl

/-- Settles O42: the trap taken or refused, the two stops of a fetch, and the late fault of a chain. -/
theorem trapEntryResults : Obligations.TrapEntryResults := by
  intro s w h x ch c k c' k' img word
  refine ⟨fun harg0 harg1 hh hstopped hending hleaving hdrained hcause => ?_, fun hw hready hfree honward => ?_,
    fun hch hby hlive hregion hwhere hh => ?_⟩
  · intro vec
    refine ⟨fun hhandler hvec => ?_, trapEntry_ends harg0 harg1 hh hstopped hending hleaving hdrained hcause⟩
    obtain ⟨t, h', hexec, hat, hin, hlanes, hloads, hstores, hframe⟩ :=
      trapEntry_enters harg0 harg1 hh hstopped hending hleaving hdrained hcause hhandler hvec
    refine ⟨t, h', hexec, hat, hin.splits, hin.overflow, hin.joins, hin.handler, hin.debug, hin.stopped, hin.preds, hin.image, hin.cause, hin.uniform,
      hlanes, hloads, hstores, fun hwf hhome => ?_⟩
    have hread := (hframe hwf (hhome 0x8000 (by decide))).read hhome
    rwa [x.framed_word64] at hread
  · refine ⟨?_, State.badWord_stops hw hready hfree honward 0 2 { code := 1, sub := s.arg 0, addr := s.arg 1 }⟩
    exact State.badWord_stops hw hready hfree honward (s.arg 0) (s.arg 1) { code := if s.arg 2 = 1 then 4 else 2 }
  · have hat := State.cohort?_setCohort_self s c' k' (h.takeLate (ch.lateCause (s.arg 1) (s.arg 2) (s.arg 3) (s.arg 4)))
    obtain ⟨honly, hdue⟩ := State.notify_live hat ((h.takeLate_ending _).trans hlive)
    exact ⟨_, _, lateEngineFault_reaches hch hby hlive hregion hwhere hh, rfl, rfl, rfl, rfl, rfl, honly.mem, (honly.cohort? c' k').trans hat,
      fun hs => hdue (Cohort.takeLate_stopped _ hs)⟩

end Sys2Proof.Machine
end

section
/-! SUPPORT. A step with no picks: a unit's cycle, the hub's, and a row that is due (R49, R210, R211, R356, R359). -/

namespace Sys2Proof.Machine

open Sys2Proof

section
variable {s t u : State} {c k i n p id : Nat}

/-- R49: a split whose bytes decode issues their instruction. -/
theorem State.issueAt_decoded {h : Cohort} {sp : Split} {b : List Byte} {x : Instr} (hh : s.cohort? c k = some h) (hsp : h.split? i = some sp)
    (hfetch : s.fetchAt c h.asid (s.gangOf c h) sp.pc.toNat = (.bytes b, u)) (hdecode : decode b = .ok (x, n)) :
    s.issueAt c k i = .run x (u.issuing c k i (leNat b) n) := by
  simp only [State.issueAt, hh, hsp, hfetch, hdecode]

/-- R210, R211: a unit's cycle in which it picks a split. -/
theorem State.unitCycle_picked {uni : Bool} (hpick : (if p = 0 && !uni then s.tickCore c else s).pick c p uni = (some (k, i), t)) :
    s.unitCycle c p uni = (if uni then t else t.quadCycle c p).issueAt c k i := by
  simp only [State.unitCycle, hpick]

/-- R356, R359: the hub's cycle in which the next handler's word decodes. -/
theorem State.hubCycle_decoded {y : Handler} {x : Instr} (hnext : (if s.ul.port = 0 then s.tickHub else s).nextHandler = some (p, id)) :
    let w := if s.ul.port = 0 then s.tickHub else s
    let t : State := { w with ev := [id], ul := { w.ul with last := Tbl.put w.ul.last p id, port := (p + 1) % 32 } }
    Tbl.find? w.ul.handlers id = some y → (t.ulFetch y).bind decodeUliah = some x → s.hubCycle = .run x t := by
  intro w t hhandler hdecode
  simp only [State.hubCycle, hnext]
  rw [hhandler]
  dsimp only
  rw [hdecode]

/-- With no picks and nothing due the units take their turns (log entry 1). -/
theorem step_unit (hpicks : s.picks = []) (hagenda : s.agenda = []) :
    step s = (State.unit { s with turn := s.turn / 2 * 2 + 2 } (s.turn / 2)).out := by
  rw [step, State.nextAction, hpicks]
  dsimp only
  rw [hagenda]

/-- With no picks a row that is due runs by itself where it is its turn (log entry 1). -/
theorem step_due {d : Due} {r : List Due} (hpicks : s.picks = []) (hagenda : s.agenda = d :: r) (hturn : s.turn % 2 = 0) :
    step s = exec d.row { s with agenda := r, turn := s.turn + 1, ev := d.ops, cur := { core := 0x1000 } } := by
  rw [step, State.nextAction, hpicks]
  dsimp only
  rw [hagenda]
  dsimp only
  rw [if_pos hturn]
  rfl

theorem State.unit_core (h : (Tbl.keys s.cores)[n % (8 * s.cores.length + 1) / 8]? = some c) :
    s.unit n = s.unitCycle c (n % (8 * s.cores.length + 1) % 4) (n % (8 * s.cores.length + 1) / 4 % 2 == 1) := by
  simp only [State.unit, h]

theorem State.unit_hub (h : (Tbl.keys s.cores)[n % (8 * s.cores.length + 1) / 8]? = none) : s.unit n = s.hubCycle := by
  simp only [State.unit, h]

end

/-- Settles O58: the unit whose turn it is, its pick and the word decoded, one after the other. -/
theorem stepRunsDecoded : Obligations.StepRunsDecoded := by
  intro s t u c k i n p id h sp b x d r y
  refine ⟨fun hpicks hagenda => ?_, step_due⟩
  intro z v uni
  constructor
  · intro hcore hpick t' hh hsp hfetch hdecode
    calc step s = (z.unit (s.turn / 2)).out := step_unit hpicks hagenda
      _ = (z.unitCycle c (v % 4) uni).out := congrArg Action.out (State.unit_core hcore)
      _ = (t'.issueAt c k i).out := congrArg Action.out (State.unitCycle_picked hpick)
      _ = (Action.run x (u.issuing c k i (leNat b) n)).out := congrArg Action.out (State.issueAt_decoded hh hsp hfetch hdecode)
  · intro w hcores hnext hhandler t' hdecode
    calc step s = (z.unit (s.turn / 2)).out := step_unit hpicks hagenda
      _ = z.hubCycle.out := congrArg Action.out (State.unit_hub hcores)
      _ = (Action.run x t').out := congrArg Action.out (State.hubCycle_decoded hnext hhandler hdecode)

end Sys2Proof.Machine
end

section
/-! SUPPORT. The integer and bitwise lane instructions of words, and the immediate forms (R83, R86). -/

namespace Sys2Proof.Machine

open Sys2Proof

/-! The results of words that the model and the rule write in two ways (R83). -/

/-- The high word of a product is bits [63:32] of it, whatever lies above them. -/
theorem mulHigh_eq (a b : Word) : mulHigh a b = (a.signExtend 64 * b.signExtend 64).extractLsb' 32 32 := by
  apply BitVec.eq_of_toNat_eq
  rw [mulHigh, BitVec.signExtend, BitVec.signExtend, ← BitVec.ofInt_mul, BitVec.extractLsb'_toNat, BitVec.toNat_ofInt, BitVec.toNat_ofInt,
    Nat.shiftRight_eq_div_pow]
  generalize a.toInt * b.toInt = p
  omega

theorem mulHighU_eq (a b : Word) : mulHighU a b = (a.zeroExtend 64 * b.zeroExtend 64).extractLsb' 32 32 := by
  have hlt : a.toNat * b.toNat < 2 ^ 64 := calc
    a.toNat * b.toNat < 2 ^ 32 * 2 ^ 32 := Nat.mul_lt_mul'' a.isLt b.isLt
    _ = 2 ^ 64 := by decide
  apply BitVec.eq_of_toNat_eq
  rw [mulHighU, BitVec.toNat_ofNat, BitVec.extractLsb'_toNat, BitVec.toNat_mul, BitVec.toNat_setWidth_of_le (by decide),
    BitVec.toNat_setWidth_of_le (by decide), Nat.mod_eq_of_lt hlt, Nat.shiftRight_eq_div_pow]

theorem imin_eq (a b : Word) : imin a b = if a.slt b then a else b := by
  have hsame : a.toInt = b.toInt → a = b := BitVec.eq_of_toInt_eq
  simp only [imin, BitVec.slt_iff_toInt_lt]
  grind

theorem imax_eq (a b : Word) : imax a b = if a.slt b then b else a := by
  simp only [imax, BitVec.slt_iff_toInt_lt]

theorem nmin_eq (a b : Word) : nmin a b = if a.ult b then a else b := by
  have hsame : a.toNat = b.toNat → a = b := BitVec.eq_of_toNat_eq
  simp only [nmin, BitVec.ult_iff_toNat_lt]
  grind

theorem nmax_eq (a b : Word) : nmax a b = if a.ult b then b else a := by
  simp only [nmax, BitVec.ult_iff_toNat_lt]

/-- A rotation is the two shifts that together move every bit. -/
theorem rotateLeft_eq_or (a : Word) {n : Nat} (hn : n < 32) : a.rotateLeft n = (a <<< n) ||| (a >>> (32 - n)) := by
  rw [BitVec.rotateLeft_eq_rotateLeftAux_of_lt hn, BitVec.rotateLeftAux]

/-! What the shared operations write. -/

section
variable {s : State} {w : Who} {i : Instr}

theorem lane2_writes {o : OpA} {f g : Word → Word → Word} (c : Clear s w (usesA o)) (hi : exec i s = lane2 o f s)
    (hf : ∀ a b, f a b = g a b := by exact fun _ _ => rfl) : LaneOp2 s w o i 0 g := by
  obtain rfl : f = g := funext fun a => funext (hf a)
  rw [LaneOp2, hi]
  exact writesLanes _ rfl c rfl

theorem lane3_writes {o : OpA} {f : Word → Word → Word → Word} (c : Clear s w (usesAcc o)) (hi : exec i s = lane3 o f s) : LaneOp3 s w o i 0 f := by
  rw [LaneOp3, hi]
  exact writesLanes _ rfl c rfl

theorem laneImm_writes {d a g : Nat} {f f' : Word → Word} (c : Clear s w (laneUses [a] [] [d] g)) (hi : exec i s = laneImm d a g f s)
    (hf : ∀ x, f x = f' x := by exact fun _ => rfl) :
    WritesLanes s w (exec i s) d (w.h.writing w.sp g) 0 fun l => f' (w.h.lane a l) := by
  obtain rfl : f = f' := funext hf
  rw [hi]
  exact writesLanes _ rfl c rfl

theorem movi_writes {m : OpMovi} (c : Clear s w (laneUses [] [] [m.d] m.g)) :
    WritesLanes s w (exec (.movi m) s) m.d (w.h.writing w.sp m.g) 0 fun _ => (BitVec.ofNat 13 m.i).signExtend 32 := by
  rw [exec_movi, execMovi]
  exact writesLanes _ rfl c rfl

end

/-- Settles O2: each instruction is `lane2` or `lane3` of its operation, and each operation of the model that of the rule. -/
theorem laneIntegerResults : Obligations.LaneIntegerResults := by
  intro s w o
  exact ⟨fun c => ⟨lane2_writes c exec_iadd, lane2_writes c exec_isub, lane2_writes c exec_imul, lane2_writes c exec_imulh mulHigh_eq,
    lane2_writes c exec_imulhn mulHighU_eq, lane2_writes c exec_imin imin_eq, lane2_writes c exec_imax imax_eq, lane2_writes c exec_nmin nmin_eq,
    lane2_writes c exec_nmax nmax_eq, lane2_writes c exec_isad⟩, fun c => lane3_writes c exec_imad⟩

/-- Settles O3: each instruction is `lane2` of its operation, where a shift by the count is that of the word, whatever the count. -/
theorem laneBitwiseResults : Obligations.LaneBitwiseResults := by
  intro s w o c
  exact ⟨lane2_writes c exec_land, lane2_writes c exec_lor, lane2_writes c exec_lxor, lane2_writes c exec_andn,
    lane2_writes c exec_shl fun a b => shl_eq a (shCount b), lane2_writes c exec_shr fun a b => shr_eq a (shCount b),
    lane2_writes c exec_sra fun a b => sra_eq a (shCount b),
    lane2_writes c exec_rot fun a b => rotateLeft_eq_or a (Nat.mod_lt b.toNat (by decide))⟩

/-- Settles O6: each form is `laneImm` of its operation, and `MOVI` writes its field. -/
theorem immediateResults : Obligations.ImmediateResults := by
  intro s w o p m lane
  exact ⟨fun c => ⟨laneImm_writes c exec_iaddi, laneImm_writes c exec_imuli, laneImm_writes c exec_andi, laneImm_writes c exec_ori,
    laneImm_writes c exec_xori, laneImm_writes c exec_isubri⟩, fun c => ⟨laneImm_writes c exec_shli fun a => shl_eq a p.s,
    laneImm_writes c exec_shri fun a => shr_eq a p.s, laneImm_writes c exec_srai fun a => sra_eq a p.s⟩, movi_writes⟩

end Sys2Proof.Machine
end

section
/-! SUPPORT. The special functions and the FP64 instructions, on operands of the tags that they take (R32, R88, R90). -/

namespace Sys2Proof.Machine

open Sys2Proof

section
variable {s : State} {w : Who} {i : Instr}

theorem float1_writes {p : OpU} {f : Nat → Nat → Nat} (c : Clear s w (usesU p)) (ha : w.h.vtag p.a = 0 ∨ w.h.vtag p.a = 0x11)
    (hi : exec i s = float1 p f s) : LaneOp1 s w p i 0x11 fun a => BitVec.ofNat 32 (f w.sp.mode a.toNat) := by
  rw [LaneOp1, hi]
  exact writesLanes _ rfl c (by rw [tagCheck, wrongTag_eq_false ha]; rfl)

theorem double1_writes {p : OpU} {f : Nat → Nat → Nat} (c : Clear s w (usesU64 p)) (ha : w.h.vtag p.a = 0 ∨ w.h.vtag p.a = 0x10)
    (hi : exec i s = double1 p f s) :
    WritesPair s w (exec i s) p.d (w.h.writing w.sp p.g) 0x10 fun l => BitVec.ofNat 64 (f w.sp.mode (w.h.pair p.a l).toNat) := by
  rw [hi]
  exact writesPair _ rfl c (by rw [tagCheck, wrongTag_eq_false ha]; rfl)

variable {o : OpA}

theorem badD2_eq_false (ha : w.h.vtag o.a = 0 ∨ w.h.vtag o.a = 0x10) (hb : w.h.tagB o.q o.b = 0 ∨ w.h.tagB o.q o.b = 0x10) : badD2 o w = false := by
  rw [badD2, wrongTag_eq_false ha, wrongTag_eq_false hb, Bool.or_false]

theorem double2_writes {f : Nat → Nat → Nat → Nat} (c : Clear s w (uses64 o)) (hbad : badD2 o w = false) (hi : exec i s = double2 o f s) :
    WritesPair s w (exec i s) o.d (w.h.writing w.sp o.g) 0x10 fun l =>
      BitVec.ofNat 64 (f w.sp.mode (w.h.pair o.a l).toNat (w.h.opB64 o.q o.b l).toNat) := by
  rw [hi]
  exact writesPair _ rfl c (by rw [tagCheck, hbad]; rfl)

theorem dfma_writes (c : Clear s w (uses64Acc o)) (hbad : badD2 o w = false) (hd : w.h.vtag o.d = 0 ∨ w.h.vtag o.d = 0x10) :
    WritesPair s w (exec (.dfma o) s) o.d (w.h.writing w.sp o.g) 0x10 fun l =>
      BitVec.ofNat 64 (Num.ffma .fp64 w.sp.mode (w.h.pair o.a l).toNat (w.h.opB64 o.q o.b l).toNat (w.h.pair o.d l).toNat) := by
  rw [exec_dfma, execDfma]
  exact writesPair _ rfl c (by rw [tagCheck, hbad, wrongTag_eq_false hd]; rfl)

end

/-- Settles O10: each function is `float1` of its operation, once the tag is known to be good. -/
theorem specialFunctionResults : Obligations.SpecialFunctionResults := by
  intro s w o c ha op
  exact ⟨float1_writes c ha exec_frcp, float1_writes c ha exec_frsq, float1_writes c ha exec_fsqrt, float1_writes c ha exec_fex2,
    float1_writes c ha exec_flg2, float1_writes c ha exec_fsin, float1_writes c ha exec_fcos, float1_writes c ha exec_ftanh⟩

/-- Settles O12: each instruction is `double2`, `DFMA` or `double1` of its operation, once the tags are known to be good. -/
theorem doubleResults : Obligations.DoubleResults := by
  intro s w o p ok tagB mode a b op one
  refine ⟨fun c ha hb => ?_, fun c ha hb hd => dfma_writes c (badD2_eq_false ha hb) hd,
    fun c ha => ⟨double1_writes c ha exec_drcp, double1_writes c ha exec_dsqrt⟩⟩
  have hbad : badD2 o w = false := badD2_eq_false ha hb
  exact ⟨double2_writes c hbad exec_dadd, double2_writes c hbad exec_dsub, double2_writes c hbad exec_dmul, double2_writes c hbad exec_dmin,
    double2_writes c hbad exec_dmax⟩

end Sys2Proof.Machine
end

section
/-! SUPPORT. The uniform instructions (R80, R101, R102). -/

namespace Sys2Proof.Machine

open Sys2Proof

/-- R101: a shift by 64 or more gives 0, as one by any count does that leaves no bit. -/
theorem qshl_eq (a b : DWord) : (if 64 ≤ b.toNat % 256 then 0 else a <<< (b.toNat % 256)) = a <<< (b.toNat % 256) := by
  split
  · next hn => exact (BitVec.shiftLeft_eq_zero hn).symm
  · rfl

theorem qshr_eq (a b : DWord) : (if 64 ≤ b.toNat % 256 then 0 else a >>> (b.toNat % 256)) = a >>> (b.toNat % 256) := by
  split
  · next hn => exact (BitVec.ushiftRight_eq_zero hn).symm
  · rfl

section
variable {s : State} {w : Who}

theorem uniform2_writes {o : OpT} {i : Instr} {f g : DWord → DWord → DWord} (c : Clear s w { us := [o.a, o.b], ud := [o.d] })
    (hi : exec i s = uniform2 o f s) (hf : ∀ a b, f a b = g a b := by exact fun _ _ => rfl) :
    WritesUniform s w (exec i s) o.d (g (w.h.uq o.a) (w.h.uq o.b)) 0 := by
  obtain rfl : f = g := funext fun a => funext (hf a)
  rw [hi]
  exact writesUniform _ rfl c rfl

variable {i d : Nat}

theorem qli_writes (c : Clear s w { ud := [d] }) : WritesUniform s w (exec (.qli i d) s) d ((BitVec.ofNat 19 i).signExtend 64) 0 := by
  rw [exec_qli, execQli]
  exact writesUniform _ rfl c rfl

theorem qaddi_writes (c : Clear s w { us := [d], ud := [d] }) :
    WritesUniform s w (exec (.qaddi i d) s) d (w.h.uq d + (BitVec.ofNat 18 i).signExtend 64) 0 := by
  rw [exec_qaddi, execQaddi]
  exact writesUniform _ rfl c rfl

theorem qlui_writes (c : Clear s w { us := [d], ud := [d] }) :
    WritesUniform s w (exec (.qlui i d) s) d ((w.h.uq d <<< 18) ||| BitVec.ofNat 64 (i % 2 ^ 18)) 0 := by
  rw [exec_qlui, execQlui]
  exact writesUniform _ rfl c rfl

end

/-- Settles O21: the instructions of two sources are `uniform2` of their operations, and each of the others writes its own value. -/
theorem uniformResults : Obligations.UniformResults := by
  intro s w o i d op
  exact ⟨fun c => ⟨uniform2_writes c exec_qadd, uniform2_writes c exec_qsub, uniform2_writes c exec_qmul, uniform2_writes c exec_qand,
    uniform2_writes c exec_qor, uniform2_writes c exec_qxor, uniform2_writes c exec_qshl qshl_eq, uniform2_writes c exec_qshr qshr_eq⟩,
    qli_writes, fun c => ⟨qaddi_writes c, qlui_writes c⟩⟩

end Sys2Proof.Machine
end

section
/-! SUPPORT. The predicate instructions, the votes on predicates and `ELECT` (R92, R98, R100). -/

namespace Sys2Proof.Machine

open Sys2Proof

/-! Masks lane by lane. -/

theorem mask_ext {m n : Mask} (h : ∀ l, l < 32 → inMask m l = inMask n l) : m = n := BitVec.eq_of_getLsbD_eq h

theorem mask_eq_zero_iff {m : Mask} : m = 0 ↔ ∀ l, l < 32 → inMask m l = false := by
  refine ⟨?_, fun h => mask_ext fun l hl => ?_⟩
  · rintro rfl l -
    exact BitVec.getLsbD_zero
  · rw [h l hl]
    exact BitVec.getLsbD_zero.symm

/-- A lane of a shifted one is that of the shift. -/
theorem inMask_one_shiftLeft (n : Nat) {l : Nat} (hl : l < 32) : inMask (1#32 <<< n) l = decide (l = n) := by
  rw [inMask, ← BitVec.twoPow_eq, BitVec.getLsbD_twoPow]
  grind

/-- R113: the lowest lane of a mask is its lane with none below it. -/
theorem lowestLane_eq_iff {m : Mask} {l : Nat} (hl : l < 32) :
    lowestLane m = l ↔ inMask m l = true ∧ ∀ j, j < l → inMask m j = false := by
  rw [lowestLane, Option.getD_eq_iff, List.find?_range_eq_some]
  simp [hl, hl.ne']

/-- R98: the writing lanes in which a predicate is 1. -/
theorem any_writing_iff (m p : Mask) : ((List.range 32).any fun l => inMask m l && inMask p l) = true ↔ p &&& m ≠ 0 := by
  rw [Ne, mask_eq_zero_iff]
  simp [and_comm]

theorem all_writing_iff (m p : Mask) : ((List.range 32).all fun l => !inMask m l || inMask p l) = true ↔ p &&& m = m := by
  rw [List.all_eq_true]
  refine ⟨fun h => mask_ext fun l hl => ?_, fun h l _ => ?_⟩
  · have := h l (List.mem_range.2 hl)
    rw [inMask_and]
    grind
  · rw [← h, inMask_and]
    grind

/-! The instructions. -/

section
variable {s : State} {w : Who}

theorem pred2_writes {o : OpP} {i : Instr} {f : Mask → Mask → Mask} (c : Clear s w (laneUses [] [] [] o.g)) (hi : exec i s = pred2 o f s) :
    WritesPred s w (exec i s) o.d (w.h.writing w.sp o.g) (f (w.h.pred o.a) (w.h.pred o.b)) := by
  rw [hi]
  exact writesPred _ rfl c rfl

theorem pnot_writes {n : OpPn} (c : Clear s w (laneUses [] [] [] n.g)) :
    WritesPred s w (exec (.pnot n) s) n.d (w.h.writing w.sp n.g) (~~~ w.h.pred n.a) := by
  rw [exec_pnot, execPnot]
  exact writesPred _ rfl c rfl

section
variable {v : OpVoteP} (c : Clear s w (laneUses [] [] [] v.g))
include c

theorem voteAny_writes : WritesPred s w (exec (.voteAny v) s) v.p (w.h.writing w.sp v.g)
    (if (List.range 32).any fun l => inMask (w.h.writing w.sp v.g) l && inMask (w.h.pred v.s) l then BitVec.allOnes 32 else 0) := by
  rw [exec_voteAny, execVoteAny]
  simp only [any_writing_iff, ite_not]
  exact writesPred _ rfl c rfl

theorem voteAll_writes : WritesPred s w (exec (.voteAll v) s) v.p (w.h.writing w.sp v.g)
    (if (List.range 32).all fun l => !inMask (w.h.writing w.sp v.g) l || inMask (w.h.pred v.s) l then BitVec.allOnes 32 else 0) := by
  rw [exec_voteAll, execVoteAll]
  simp only [all_writing_iff]
  exact writesPred _ rfl c rfl

end

theorem elect_writes {p g : Nat} (c : Clear s w (laneUses [] [] [] g)) :
    WritesPred s w (exec (.elect p g) s) p (w.h.writing w.sp g) (1#32 <<< lowestLane (w.h.writing w.sp g)) := by
  rw [exec_elect, execElect]
  exact writesPred _ rfl c rfl

/-- R100: of the writing lanes the lowest is elected. -/
theorem inMask_elected_iff (m : Mask) {l : Nat} (hl : l < 32) :
    inMask (1#32 <<< lowestLane m &&& m) l = true ↔ inMask m l = true ∧ ∀ j, j < l → inMask m j = false := by
  rw [inMask_and, inMask_one_shiftLeft _ hl, Bool.and_eq_true, decide_eq_true_iff, eq_comm, lowestLane_eq_iff hl]
  exact and_iff_left_of_imp And.left

end

/-- Settles O14: the predicate instructions write their operations' masks, the votes one bit for all lanes, and `ELECT` the lowest lane's bit. -/
theorem predicateResults : Obligations.PredicateResults := by
  intro s w o n v p g
  exact ⟨fun c => ⟨pred2_writes c exec_pand, pred2_writes c exec_por, pred2_writes c exec_pxor⟩, pnot_writes,
    fun c => ⟨voteAny_writes c, voteAll_writes c⟩, fun c => ⟨_, elect_writes c, fun _ hl => inMask_elected_iff _ hl⟩⟩

end Sys2Proof.Machine
end

section
/-! SUPPORT. Bit fields (R84). -/

namespace Sys2Proof.Machine

open Sys2Proof

/-! Numbers bit by bit. -/

/-- The field of `n` bits from bit `p` on. -/
theorem testBit_field (a p n i : Nat) : (a / 2 ^ p % 2 ^ n).testBit i = (decide (i < n) && a.testBit (p + i)) := by
  rw [Nat.testBit_mod_two_pow, Nat.testBit_div_two_pow, Nat.add_comm]

/-- A field with ones put above it, up to bit 31. -/
theorem testBit_extended {f n i : Nat} (hf : f < 2 ^ n) (hn : n ≤ 32) (hi : i < 32) :
    (f + 2 ^ 32 - 2 ^ n).testBit i = if i < n then f.testBit i else true := by
  have hsplit : 2 ^ 32 = 2 ^ n * 2 ^ (32 - n) := by rw [← Nat.pow_add, Nat.add_sub_cancel' hn]
  have hones : f + 2 ^ 32 - 2 ^ n = 2 ^ n * (2 ^ (32 - n) - 1) + f := by
    rw [Nat.mul_sub, Nat.mul_one, ← hsplit]
    have := Nat.pow_le_pow_right (by decide : 0 < 2) hn
    omega
  rw [hones, Nat.testBit_two_pow_mul_add _ hf, Nat.testBit_two_pow_sub_one]
  split
  · rfl
  · exact decide_eq_true (by omega)

/-! The fields that the model reads (R84). -/

theorem bfLen_le (b : Word) : bfLen b ≤ 32 := Nat.min_le_right ..

theorem getLsbD_bfx (a b : Word) {i : Nat} (hi : i < 32) : (bfx a b).getLsbD i =
    if bfLen b = 0 then false
    else if i < bfLen b then a.getLsbD (bfPos b + i)
    else b.getLsbD 16 && a.getLsbD (bfPos b + bfLen b - 1) := by
  have hlt : a.toNat / 2 ^ bfPos b % 2 ^ bfLen b < 2 ^ bfLen b := Nat.mod_lt _ (Nat.two_pow_pos _)
  rw [bfx]
  split
  · exact BitVec.getLsbD_zero
  · next hlen =>
    have hsign : (a.toNat / 2 ^ bfPos b % 2 ^ bfLen b).testBit (bfLen b - 1) = a.getLsbD (bfPos b + bfLen b - 1) := by
      rw [testBit_field, decide_eq_true (by omega), Bool.true_and, BitVec.getLsbD, Nat.add_sub_assoc (by omega)]
    rw [hsign]
    split
    · next hneg =>
      rw [BitVec.getLsbD_ofNat, decide_eq_true hi, Bool.true_and, testBit_extended hlt (bfLen_le b) hi, hneg, testBit_field]
      split
      · next h => rw [decide_eq_true h, Bool.true_and, BitVec.getLsbD]
      · rfl
    · next hpos =>
      rw [BitVec.getLsbD_ofNat, decide_eq_true hi, Bool.true_and, testBit_field, Bool.eq_false_of_not_eq_true hpos]
      split
      · next h => rw [decide_eq_true h, Bool.true_and, BitVec.getLsbD]
      · next h => rw [decide_eq_false h, Bool.false_and]

theorem getLsbD_bfi (a b d : Word) {i : Nat} (hi : i < 32) : (bfi a b d).getLsbD i =
    if bfPos b ≤ i ∧ i < bfPos b + bfLen b then a.getLsbD (i - bfPos b) else d.getLsbD i := by
  have hmask : (BitVec.ofNat 32 ((2 ^ bfLen b - 1) * 2 ^ bfPos b)).getLsbD i = decide (bfPos b ≤ i ∧ i < bfPos b + bfLen b) := by
    rw [BitVec.getLsbD_ofNat, decide_eq_true hi, Bool.true_and, Nat.testBit_mul_two_pow, Nat.testBit_two_pow_sub_one, ← Bool.decide_and]
    exact decide_eq_decide.2 (by omega)
  have hfield : (BitVec.ofNat 32 (a.toNat % 2 ^ bfLen b * 2 ^ bfPos b)).getLsbD i =
      (decide (bfPos b ≤ i ∧ i < bfPos b + bfLen b) && a.getLsbD (i - bfPos b)) := by
    rw [BitVec.getLsbD_ofNat, decide_eq_true hi, Bool.true_and, Nat.testBit_mul_two_pow, Nat.testBit_mod_two_pow, ← Bool.and_assoc, ← Bool.decide_and,
      BitVec.getLsbD]
    exact congrArg (· && _) (decide_eq_decide.2 (by omega))
  rw [bfi, BitVec.getLsbD_or, BitVec.getLsbD_and, BitVec.getLsbD_and, BitVec.getLsbD_not, decide_eq_true hi, Bool.true_and, hmask, hfield]
  split <;> simp [*]

/-- Settles O4: `BFX` is `lane2` of the model's field, `BFI` `lane3`, and their bits are those of the rule. -/
theorem fieldResults : Obligations.FieldResults := by
  intro s w o pos len
  exact ⟨fun c => ⟨bfx, lane2_writes c exec_bfx, fun a b _ hi => getLsbD_bfx a b hi⟩,
    fun c => ⟨bfi, lane3_writes c exec_bfi, fun a b d _ hi => getLsbD_bfi a b d hi⟩⟩

end Sys2Proof.Machine
end

section
/-! SUPPORT. The lane instructions of one source, `MOV`, `SEL` and `IADDC` (R83 to R85). -/

namespace Sys2Proof.Machine

open Sys2Proof

/-! The results of words (R83, R85). -/

theorem iabs_eq (a : Word) : BitVec.ofNat 32 a.toInt.natAbs = if a.msb then -a else a := by
  apply BitVec.eq_of_toNat_eq
  have hlt := a.isLt
  rw [BitVec.toNat_ofNat, BitVec.toInt_eq_msb_cond]
  split
  · rw [BitVec.toNat_neg]
    omega
  · omega

theorem toNat_popc (a : Word) : (popc a).toNat = ((List.range 32).filter fun i => a.getLsbD i).length := by
  have hle : ((List.range 32).filter a.getLsbD).length ≤ 32 := (List.length_filter_le ..).trans_eq List.length_range
  rw [popc, BitVec.toNat_ofNat, Nat.mod_eq_of_lt (by omega)]

/-- R83: a word has as many leading zeros as take its highest one to bit 0. -/
theorem clz_of_ne_zero {a : Word} (ha : a ≠ 0) : (clz a).toNat ≤ 31 ∧ a.toNat / 2 ^ (31 - (clz a).toNat) = 1 := by
  have hne : a.toNat ≠ 0 := fun h => ha (BitVec.eq_of_toNat_eq h)
  have hlog : a.toNat.log2 < 32 := (Nat.log2_lt hne).2 a.isLt
  have hclz : (clz a).toNat = 31 - a.toNat.log2 := by
    rw [clz, if_neg ha, BitVec.toNat_ofNat, Nat.mod_eq_of_lt (by omega)]
  have hback : 31 - (31 - a.toNat.log2) = a.toNat.log2 := by omega
  rw [hclz, hback]
  refine ⟨Nat.sub_le .., Nat.div_eq_of_lt_le ?_ ?_⟩
  · rw [Nat.one_mul]
    exact Nat.log2_self_le hne
  · rw [Nat.mul_comm, ← Nat.pow_succ]
    exact Nat.lt_log2_self

theorem getLsbD_brev (a : Word) {i : Nat} (hi : i < 32) : (brev a).getLsbD i = a.getLsbD (31 - i) := by
  have hbelow : ∀ n, n ≤ 32 → ((List.range n).foldl (fun r j => if a.getLsbD j then r ||| (1#32 <<< (31 - j)) else r) (0 : Word)).getLsbD i =
      (decide (31 - i < n) && a.getLsbD (31 - i)) := by
    intro n
    induction n with
    | zero => simp
    | succ n ih =>
      intro hn
      have hbit : (1#32 <<< (31 - n)).getLsbD i = decide (i = 31 - n) := inMask_one_shiftLeft _ hi
      have ih := ih (by omega)
      rw [List.range_succ, List.foldl_append, List.foldl_cons, List.foldl_nil]
      split <;> grind
  rw [brev, hbelow 32 le_rfl, decide_eq_true (by omega), Bool.true_and]

/-- R85: the sum of two words and a carry bit, in 64 bits. -/
theorem addCarry_eq (a b c : Word) :
    BitVec.ofNat 64 (a.toNat + b.toNat + c.toNat % 2) = a.zeroExtend 64 + b.zeroExtend 64 + (c &&& 1).zeroExtend 64 := by
  apply BitVec.eq_of_toNat_eq
  have hcarry : (c &&& 1).toNat = c.toNat % 2 := by
    rw [BitVec.toNat_and]
    exact Nat.and_one_is_mod _
  rw [BitVec.toNat_ofNat, BitVec.toNat_add, BitVec.toNat_add, BitVec.toNat_setWidth_of_le (by decide), BitVec.toNat_setWidth_of_le (by decide),
    BitVec.toNat_setWidth_of_le (by decide), hcarry, Nat.mod_add_mod]

/-- R84: the tag of `SEL` is that of the first operand where the two agree, where no lane writes, and where the lowest writing lane takes it. -/
theorem selTag_eq (h : Cohort) (o : OpA) (m : Mask) : selTag h o m =
    if h.vtag o.a = h.tagB o.q o.b ∨ m = 0 ∨ inMask (h.guardMask o.g) (lowestLane m) = true then h.vtag o.a else h.tagB o.q o.b := by
  simp only [selTag, ite_or]

/-! The instructions. -/

section
variable {s : State} {w : Who}

theorem lane1_writes {o : OpU} {i : Instr} {f g : Word → Word} (c : Clear s w (usesU o)) (hi : exec i s = lane1 o f s)
    (hf : ∀ a, f a = g a := by exact fun _ => rfl) : LaneOp1 s w o i 0 g := by
  obtain rfl : f = g := funext hf
  rw [LaneOp1, hi]
  exact writesLanes _ rfl c rfl

theorem mov_writes {o : OpU} (c : Clear s w (usesU o)) : LaneOp1 s w o (.mov o) (w.h.vtag o.a) fun a => a := by
  rw [LaneOp1, exec_mov, execMov]
  exact writesLanes _ rfl c rfl

theorem sel_writes {o : OpA} (c : Clear s w { usesA o with guard := 0 }) :
    WritesLanes s w (exec (.sel o) s) o.d (w.h.active w.sp) (selTag w.h o (w.h.active w.sp)) fun l =>
      if inMask (w.h.guardMask o.g) l then w.srcA o l else w.srcB o l := by
  rw [exec_sel, execSel]
  exact writesLanes _ (by rw [Cohort.writing_zero]; rfl) c rfl

theorem iaddc_writes {o : OpA} (c : Clear s w { usesA o with vs := (o.d + 1) :: (usesA o).vs, vd := [o.d, o.d + 1], pairs := [o.d] }) :
    WritesPair s w (exec (.iaddc o) s) o.d (w.h.writing w.sp o.g) 0 fun l =>
      (w.srcA o l).zeroExtend 64 + (w.srcB o l).zeroExtend 64 + (w.h.lane (o.d + 1) l &&& 1).zeroExtend 64 := by
  rw [exec_iaddc, execIaddc]
  exact writesPair _ (congrArg _ (funext fun l => addCarry_eq ..)) c rfl

end

/-- Settles O5: each instruction of one source is `lane1` of its operation, and the others write what their own lemmas say. -/
theorem laneUnaryResults : Obligations.LaneUnaryResults := by
  intro s w o o2
  refine ⟨fun c => ⟨lane1_writes c exec_iabs iabs_eq, ⟨popc, lane1_writes c exec_popc, toNat_popc⟩,
    ⟨clz, lane1_writes c exec_clz, if_pos rfl, fun _ => clz_of_ne_zero⟩, ⟨brev, lane1_writes c exec_brev, fun a _ => getLsbD_brev a⟩, mov_writes c⟩,
    fun c => ?_, iaddc_writes⟩
  have hsel := sel_writes c
  rwa [selTag_eq] at hsel

end Sys2Proof.Machine
end

section
/-! SUPPORT. Shared exponents read and set (R29, R95, R96). -/

namespace Sys2Proof.Machine

open Sys2Proof

/-- R31: the tags that are of no shared-exponent block. -/
theorem sxOf_isNone_iff {tag : Nat} : (Num.sxOf tag).isNone = true ↔ tag < 0x22 ∨ 0x28 < tag := by
  rw [Num.sxOf]
  split
  · exact iff_of_false Bool.false_ne_true (by omega)
  · exact iff_of_true rfl (by omega)

/-- R29: a block written is one write of the lanes that are not grey, or of none where no lane writes. -/
theorem Cohort.setBlockLanes_eq (h : Cohort) (n : Nat) (m : Mask) (tag e : Nat) (f : Nat → Int) :
    h.setBlockLanes n m tag e f = h.setLanes n (if m = 0 then 0 else ~~~h.dmask) tag
      fun l => if inMask m l then sxWord e (f l) else BitVec.ofNat 32 (e * 2 ^ 24 + (h.lane n l).toNat % 2 ^ 24) := by
  unfold Cohort.setBlockLanes
  split
  · simp [Cohort.setLanes, inMask]
  · rfl

section
variable {s : State} {w : Who}

/-- A clear instruction of its cohort alone that a condition of its own does not hold. -/
theorem issue_unheld {u : Uses} {check : Who → State → Option Bad} {hold : Who → State → Option State} {f : Who → Cohort → Cohort}
    (c : Clear s w u) (hc : check w s = none) (hh : hold w s = none) :
    issue (fun _ _ => u) check hold (fun w t => t.onCohort w.c w.k (f w)) s = issueOwn u check f s := by
  rw [issue_runs (u := fun _ _ => u) c hc hh, issueOwn_runs c hc, State.onCohort_some (State.cohort?_setCohort_self ..), State.setCohort_setCohort]

/-! `SXEXP` (R95). -/

section
variable {o : OpU} (c : Clear s w (usesU o))
include c

theorem sxexp_writes (ht : 0x20 ≤ w.h.vtag o.a) :
    LaneOp1 s w o (.sxexp o) 0 fun _ => BitVec.ofNat 32 ((w.h.lane o.a (lowestLane (~~~w.h.dmask))).toNat / 2 ^ 24) := by
  have hblock : (Num.sxOf (w.h.vtag o.a)).isSome = true := sxOf_isSome (c.laneTags o.a (List.mem_singleton_self _)) ht
  rw [LaneOp1, exec_sxexp, execSxexp]
  exact writesLanes _ rfl c (by rw [tagCheck, Option.isNone_eq_false_iff.2 hblock]; rfl)

theorem sxexp_stops (ht : w.h.vtag o.a < 0x20) : Stops s w (exec (.sxexp o) s) 6 0 0 :=
  issue_traps (b := { code := 6 }) (u := fun _ _ => usesU o) c (by rw [tagCheck, sxOf_isNone ht]; rfl)

end

/-! `SXSET` (R96). -/

section
variable {p : OpA}

/-- R96: the control word, from the lowest writing lane or a uniform register. -/
theorem sxControl_eq (h : w.h.writing w.sp p.g ≠ 0 ∨ p.q = 1) : sxControl p w = some (w.srcB p (lowestLane (w.h.writing w.sp p.g))).toNat := by
  rw [sxControl, Who.srcB]
  by_cases hq : p.q = 1
  · rw [if_pos hq, if_pos hq, BitVec.toNat_setWidth]
  · rw [if_neg hq, if_neg hq, if_neg (h.resolve_right hq)]

variable (c : Clear s w (usesA p))
include c

theorem sxset_movesOn (hm : w.h.writing w.sp p.g = 0) (hq : p.q ≠ 1) : MovesOn s w (exec (.sxset p) s) w.past.pc := by
  have hnone : sxControl p w = none := by rw [sxControl, if_neg hq, if_pos hm]
  rw [exec_sxset, execSxset, issue_unheld c rfl (by rw [sxsetHold, hnone])]
  exact movesOn_past c rfl (by rw [hnone])

variable {v : Nat} (hv : sxControl p w = some v)
include hv

theorem sxset_writes (hlo : 0x22 ≤ sxTag p w v) (hhi : sxTag p w v ≤ 0x28) :
    WritesLanes s w (exec (.sxset p) s) p.d (if w.h.writing w.sp p.g = 0 then 0 else ~~~w.h.dmask) (sxTag p w v) fun l =>
      if inMask (w.h.writing w.sp p.g) l then sxWord (v % 256) (Num.sintOf (sxTag p w v - 0x20) (w.h.lane p.a l).toNat)
      else BitVec.ofNat 32 (v % 256 * 2 ^ 24 + (w.h.lane p.d l).toNat % 2 ^ 24) := by
  have hgood : (Num.sxOf (sxTag p w v)).isNone = false := Bool.eq_false_iff.2 (mt sxOf_isNone_iff.1 (by omega))
  rw [exec_sxset, execSxset, issue_unheld c rfl (by rw [sxsetHold, hv]; exact if_neg (by rw [hgood]; decide))]
  exact writesLanes _ (by rw [hv]; exact Cohort.setBlockLanes_eq ..) c rfl

theorem sxset_stops (ht : sxTag p w v < 0x22 ∨ 0x28 < sxTag p w v) : Stops s w (exec (.sxset p) s) 6 0 0 := by
  rw [exec_sxset, execSxset, issue_held (u := fun _ _ => usesA p) c rfl (by rw [sxsetHold, hv]; exact if_pos (sxOf_isNone_iff.2 ht))]
  exact State.stopAt_stops c.who _

end

end

/-- Settles O16: for `SXEXP` by the source's tag, and for `SXSET` by whether there is a control word and by the tag that it selects. -/
theorem sharedExponentResults : Obligations.SharedExponentResults := by
  intro s w o p
  refine ⟨sxexp_writes, sxexp_stops, fun c => ⟨sxset_movesOn c, fun h => ?_, fun h => ?_⟩⟩
  · exact sxset_writes c (sxControl_eq h)
  · exact sxset_stops c (sxControl_eq h)

end Sys2Proof.Machine
end

section
/-! SUPPORT. The shuffles (R97). -/

namespace Sys2Proof.Machine

open Sys2Proof

theorem Cohort.setLanes_only (h : Cohort) (d : Nat) (m : Mask) (tag : Nat) (f : Nat → Word) :
    ∃ v y, h.setLanes d m tag f = { h with v := v, dirty := y } := ⟨_, _, rfl⟩

theorem Cohort.flagGrey_eq (h : Cohort) (b : Bool) : h.flagGrey b = { h with greyread := h.greyread || b } := by
  cases b
  · rw [Cohort.flagGrey, if_neg Bool.false_ne_true, Bool.or_false]
  · rw [Cohort.flagGrey, if_pos rfl, Bool.or_true]

/-- R97: a writing lane has a grey source. -/
def Who.greySource (w : Who) (o : OpA) (src : Nat → Nat) : Bool :=
  (List.range 32).any fun l => inMask (w.h.writing w.sp o.g) l && inMask w.h.dmask (src l)

theorem Who.greySource_eq (w : Who) (o : OpA) (src : Nat → Nat) :
    (lanesOf (w.h.writing w.sp o.g)).any (fun l => inMask w.h.dmask (src l)) = w.greySource o src := by
  rw [lanesOf, List.any_filter, Who.greySource]

/-- R97: what a shuffle brings to a lane from its source lane. -/
def Who.brought (w : Who) (o : OpA) (src : Nat → Nat) (l : Nat) : Word :=
  if inMask w.h.dmask (src l) ∨ inMask w.sp.entry (src l) = false then 0 else w.h.lane o.a (src l)

theorem Who.brought_eq (w : Who) (o : OpA) (src : Nat → Nat) (l : Nat) :
    (if inMask w.h.dmask (src l) || !inMask w.sp.entry (src l) then 0 else w.h.lane o.a (src l)) = w.brought o src l := by
  simp only [Who.brought, Bool.or_eq_true, Bool.not_eq_true']

theorem shuffle_completes {s : State} {w : Who} {o : OpA} {i : Instr} {mode : Nat} {src : Nat → Nat}
    (c : Clear s w { usesA o with eat := some (w.shflEat mode o) }) (hi : exec i s = shuffle mode o s) (hsrc : w.shflFrom mode o = src) :
    Completes s w (exec i s) fun h =>
      WentOn w w.past h ∧ h.greyread = (w.h.greyread || w.greySource o src) ∧ SameBut w.h { h with greyread := w.h.greyread } ∧
        SameUniform w.h h ∧ SamePreds w.h h ∧
        LanesSet w.h h o.d (w.h.writing w.sp o.g) (if w.greySource o src then 0 else w.h.vtag o.a) (w.brought o src) := by
  rw [hi, shuffle, issue_onCohort (u := fun w _ => { usesA o with eat := some (w.shflEat mode o) }) c rfl]
  refine issueOwn_completes c rfl ?_
  simp only [hsrc, Cohort.flagGrey_eq, Who.greySource_eq, Who.brought_eq]
  have hwent := Who.gone_wentOn c.who
  have hset := (Cohort.setLanes_set w.gone o.d (w.h.writing w.sp o.g) (if w.greySource o src then 0 else w.h.vtag o.a) (w.brought o src)).ofGone
  obtain ⟨v, y, hv⟩ := Cohort.setLanes_only w.gone o.d (w.h.writing w.sp o.g) (if w.greySource o src then 0 else w.h.vtag o.a) (w.brought o src)
  rw [hv] at hset ⊢
  exact ⟨⟨hwent.here, hwent.others, rfl⟩, rfl, w.gone_sameBut, fun _ => ⟨rfl, rfl⟩, fun _ => rfl, hset.words, hset.tag, hset.poison, hset.others⟩

/-- Settles O17: each shuffle is `shuffle` by its mode, whose source lane is that of the rule. -/
theorem shuffleResults : Obligations.ShuffleResults := by
  intro s w o m k gives
  exact ⟨fun c => shuffle_completes c exec_shflIdx rfl,
    fun c => shuffle_completes c exec_shflUp rfl,
    fun c => shuffle_completes c exec_shflDown rfl,
    fun c => shuffle_completes c exec_shflXor rfl⟩

end Sys2Proof.Machine
end

section
/-! SUPPORT. What an instruction leaves that puts its own cohort in place and makes rows due (R210, R227). -/

namespace Sys2Proof.Machine

open Sys2Proof

theorem State.cohort?_setCohort_other (s : State) {c k d j : Nat} (h : Cohort) (hne : ¬ (d = c ∧ j = k)) :
    (s.setCohort c k h).cohort? d j = s.cohort? d j := by
  by_cases hd : d = c
  · subst hd
    exact State.cohort?_setCohort_slot _ _ _ fun hj => hne ⟨rfl, hj⟩
  · exact State.cohort?_setCohort_core _ _ _ _ hd

section
variable {s : State} {w : Who} {r : Out} {h : Cohort}

theorem leaves_of_onlyDue {t : State} {due : List Due} (hr : r = .next t) (ht : OnlyDue (s.setCohort w.c w.k h) t) (hdue : ∀ d ∈ due, d ∈ t.agenda) :
    Leaves s w r h due := by
  refine ⟨t, hr, ?_, fun c k hck => ?_, hdue, ?_⟩
  · rw [ht.cohort?, State.cohort?_setCohort_self]
  · rw [ht.cohort?, State.cohort?_setCohort_other _ _ hck]
  · exact (congrArg (fun u : State => { u with cores := s.cores, agenda := s.agenda }) ht.rest :)

/-- The cohort is put in place, and no row comes due. -/
theorem leaves_setCohort (hr : r = .next (s.setCohort w.c w.k h)) : Leaves s w r h [] :=
  leaves_of_onlyDue hr (.refl _) (List.forall_mem_nil _)

/-- The cohort is put in place, and one row comes due. -/
theorem leaves_pushOnce {i : Instr} {l : List Nat} (hr : r = .next ((s.setCohort w.c w.k h).pushOnce i l)) : Leaves s w r h [{ row := i, ops := l }] :=
  leaves_of_onlyDue hr (.pushOnce ..) (List.forall_mem_singleton.2 (State.mem_pushOnce ..))

end

theorem State.onCohort_onward (s : State) (w : Who) (f : Cohort → Cohort) : (s.onward w).onCohort w.c w.k f = s.setCohort w.c w.k (f w.gone) := by
  rw [State.onCohort_some (State.cohort?_setCohort_self ..), State.setCohort_setCohort]

end Sys2Proof.Machine
end

section
/-! SUPPORT. Stores at their issue: the queue, the first misaligned lane, and a bound register that traps (R130, R139, R146, R147, R149, R153, R159). -/

namespace Sys2Proof.Machine

open Sys2Proof

/-! The queue (R147). -/

/-- The instruction puts a store into the queue, unless no lane makes it. -/
def Queues (s : State) (w : Who) (i : Instr) (x : StoreOp) : Prop :=
  if x.lanes = [] then Leaves s w (exec i s) w.gone []
  else Leaves s w (exec i s) { w.gone with stores := w.h.stores ++ [x] } [{ row := .storeLeaveQueue, ops := [w.c, w.k] }]

theorem queues_of_exec {s : State} {w : Who} {i : Instr} {x : StoreOp} (h : exec i s = .next ((s.onward w).queueStore w.c w.k x)) : Queues s w i x := by
  unfold Queues
  rw [State.queueStore] at h
  split
  · next hnone =>
    rw [if_pos hnone] at h
    exact leaves_setCohort h
  · next hsome =>
    rw [if_neg hsome, State.onCohort_onward] at h
    exact leaves_pushOnce h

/-- R146: what a store of a shape is queued as, with its place in issue order. -/
def Who.queued (w : Who) (x : MemShape) (m : Mask) (ls : List LaneAcc) : StoreOp :=
  x.toStore (w.h.seq + 1) w.word w.len w.sp.pc m ls w.h.handler

theorem State.Unwatched.beginStore {s : State} {w : Who} (h : s.Unwatched w.h.asid) {x : MemShape} (m : Mask) {ls : List LaneAcc}
    (hfit : OperandsFit false x.size ls) : s.beginStore w x m ls = s.queueStore w.c w.k (w.queued x m ls) := by
  rw [State.beginStore, h.setBstat, h.clampLanes hfit]
  rfl

/-! The stores. -/

/-- R66, R146: the lanes of a store, each with its address and its data. -/
def Who.storeLanes (w : Who) (o : OpSt) : List LaneAcc :=
  lanesAt (w.h.writing w.sp o.g) (w.h.laneAddr o.a o.o (2 ^ o.z)) (w.h.dataAt o.s (2 ^ o.z)) fun _ => 0

/-- What a store names. -/
def usesSt (o : OpSt) (cls : Nat) : Uses :=
  { addrUses o.a o.o with
    vs := (addrUses o.a o.o).vs ++ dataRegs o.s (2 ^ o.z), pairs := (addrUses o.a o.o).pairs ++ dataPairs o.s (2 ^ o.z)
    guard := o.g, acc := cls, store := true }

section
variable {s : State} {w : Who}

theorem st_queues {o : OpSt} (c : Clear s w (usesSt o (s.storeCls w.c w.h.asid (s.gangOf w.c w.h) (w.storeLanes o))))
    (hok : ∀ a ∈ w.storeLanes o, a.va % 2 ^ o.z = 0) (hfree : s.Unwatched w.h.asid) :
    Queues s w (.st o) (w.queued { kind := .store, size := 2 ^ o.z, reuse := o.r, load := false } (w.h.writing w.sp o.g) (w.storeLanes o)) := by
  have hfree' : (s.onward w).Unwatched w.h.asid := hfree
  refine queues_of_exec ?_
  rw [exec_st, execSt, issue_runs c (misaligned_eq_none hok) (hfree.boundHold rfl _)]
  exact congrArg _ (hfree'.beginStore _ (operandsFit_x fun l => w.h.dataAt_lt ..))

theorem qst_queues {q : OpQst} {a : LaneAcc} (ha : a = { lane := 0, va := w.h.baseAddr q.a q.o 8, x := (w.h.uq q.s).toNat })
    (c : Clear s w { us := [q.a, q.s], acc := s.storeCls w.c w.h.asid (s.gangOf w.c w.h) [a], store := true })
    (hok : a.va % 8 = 0) (hfree : s.Unwatched w.h.asid) :
    Queues s w (.qst q) (w.queued { kind := .store, size := 8, reuse := q.r, uniform := true, load := false } (w.h.active w.sp) [a]) := by
  subst ha
  have hfree' : (s.onward w).Unwatched w.h.asid := hfree
  have hfit : OperandsFit false 8 [{ lane := 0, va := w.h.baseAddr q.a q.o 8, x := (w.h.uq q.s).toNat }] :=
    List.forall_mem_singleton.2 (w.h.uq q.s).isLt
  refine queues_of_exec ?_
  rw [exec_qst, execQst, issue_runs c (misaligned_eq_none (List.forall_mem_singleton.2 hok)) (hfree.boundHold rfl _)]
  exact congrArg _ (hfree'.beginStore _ hfit)

theorem redm_queues {a : OpAtom} (c : Clear s w { usesAtom a with acc := 0x40, store := true }) (htag : badAtomTag a.t (w.h.vtag a.d) = false)
    (hok : ∀ x ∈ w.atomLanes a, x.va % typeSize a.t = 0) :
    Queues s w (.redm a) (w.queued { kind := .redm a.o a.t, size := typeSize a.t, scope := a.s, load := false } (w.h.writing w.sp a.g) (w.atomLanes a)) := by
  have hcheck : atomCheck a.t (fun w => [w.h.vtag a.d]) (·.atomLanes a) w s = none := atomCheck_eq_none (List.forall_mem_singleton.2 htag) hok
  refine queues_of_exec ?_
  rw [exec_redm, execRedm, issue_runs c hcheck rfl]
  rfl

theorem sigd_queues {g : OpSigd} (c : Clear s w { us := [g.a, g.v], acc := 0x40, store := true, rel := some { scope := w.sigdScope g s, cls := 0xff } })
    (hok : (w.h.uq g.a).toNat % 8 = 0) : Queues s w (.sigd g) (w.sigdStore g (w.h.seq + 1)) := by
  have hcheck : sigdCheck g w s = none := if_neg (by rw [hok]; decide)
  refine queues_of_exec ?_
  rw [exec_sigd, execSigd, issue_runs c hcheck rfl]

/-- R130: a signal releases at its own scope, or at that of the system where its object is a peer's. -/
theorem Who.sigdScope_eq {g : OpSigd} {scope : Nat}
    (hpeer : (∃ pa sm p off, (s.findNow w.c w.h.asid (s.gangOf w.c w.h) .atomic (w.h.uq g.a).toNat).1 = .ok pa sm ∧ regionOf pa = .peer p off) → scope = 3)
    (hown : ¬ (∃ pa sm p off, (s.findNow w.c w.h.asid (s.gangOf w.c w.h) .atomic (w.h.uq g.a).toNat).1 = .ok pa sm ∧ regionOf pa = .peer p off) →
      scope = g.s) : w.sigdScope g s = scope := by
  unfold Who.sigdScope
  split
  · next pa sm hfound =>
    split
    · next p off hregion => exact (hpeer ⟨pa, sm, p, off, hfound, hregion⟩).symm
    · next hother =>
      refine (hown fun ⟨pa', sm', p, off, hfound', hregion⟩ => ?_).symm
      obtain ⟨rfl, rfl⟩ := Found.ok.inj (hfound.symm.trans hfound')
      exact hother p off hregion
  · next hnot => exact (hown fun ⟨pa, sm, _, _, hfound, _⟩ => hnot pa sm hfound).symm

end

/-! Faults (R139, R159). -/

/-- R139: the fault of the first misaligned lane. -/
theorem misaligned_lanesAt {m : Mask} {va x y : Nat → Nat} {size l : Nat} (hl : l < 32) (hm : inMask m l = true) (hbad : va l % size ≠ 0)
    (hfirst : ∀ j, j < l → inMask m j = true → va j % size = 0) :
    misaligned size (lanesAt m va x y) = some { code := 11, sub := 1, addr := va l } := by
  have hfind : (lanesAt m va x y).find? (fun a => a.va % size != 0) = some { lane := l, va := va l, x := x l, y := y l } := by
    rw [lanesAt, lanesOf, List.find?_map, List.find?_filter, Option.map_eq_some_iff]
    refine ⟨l, List.find?_range_eq_some.2 ⟨by simp [hm, hbad], List.mem_range.2 hl, fun j hj => ?_⟩, rfl⟩
    cases hj' : inMask m j
    · simp
    · simp [hfirst j hj hj']
  rw [misaligned, hfind]
  rfl

/-- R64, R159: the failing registers' bits are set before the cohort is changed further. -/
theorem State.onCohort_setBstat {s : State} {c k : Nat} {h : Cohort} (hh : s.cohort? c k = some h) (m : BitVec 32) (f : Cohort → Cohort) :
    (s.setBstat c k m).onCohort c k f = s.setCohort c k (f { h with bstat := h.bstat ||| m }) := by
  unfold State.setBstat
  split
  · next hzero => rw [State.onCohort_some hh, hzero, show h.bstat ||| 0 = h.bstat from BitVec.or_zero]
  · rw [State.onCohort_some hh, State.onCohort_some (State.cohort?_setCohort_self ..), State.setCohort_setCohort]

section
variable {s : State} {w : Who} {o : OpSt} (c : Clear s w (usesSt o (s.storeCls w.c w.h.asid (s.gangOf w.c w.h) (w.storeLanes o))))
include c

theorem st_misaligned {l : Nat} (hl : l < 32) (hm : inMask (w.h.writing w.sp o.g) l = true) (hbad : w.h.laneAddr o.a o.o (2 ^ o.z) l % 2 ^ o.z ≠ 0)
    (hfirst : ∀ j, j < l → inMask (w.h.writing w.sp o.g) j = true → w.h.laneAddr o.a o.o (2 ^ o.z) j % 2 ^ o.z = 0) :
    Stops s w (exec (.st o) s) 11 1 (w.h.laneAddr o.a o.o (2 ^ o.z) l) := by
  have hcheck : misaligned (2 ^ o.z) (w.storeLanes o) = some { code := 11, sub := 1, addr := w.h.laneAddr o.a o.o (2 ^ o.z) l } :=
    misaligned_lanesAt hl hm hbad hfirst
  rw [exec_st, execSt]
  exact issue_traps (check := fun w _ => misaligned (2 ^ o.z) (w.storeLanes o)) c hcheck

theorem st_boundTrap {a : LaneAcc} (hok : ∀ a ∈ w.storeLanes o, a.va % 2 ^ o.z = 0)
    (htrap : s.boundTrap w.h.asid (2 ^ o.z) false (w.storeLanes o) = some a) :
    Leaves s w (exec (.st o) s)
      { w.h.halt with bstat := w.h.bstat ||| s.failedBounds w.h.asid (2 ^ o.z) false (w.storeLanes o),
                      cause := some { code := 15, pc := w.sp.pc, word := w.word, len := w.len, addr := a.va } }
      [{ row := .trapEntry, ops := [w.c, w.k] }] := by
  refine leaves_pushOnce ?_
  set m := s.failedBounds w.h.asid (2 ^ o.z) false (w.storeLanes o) with hmask
  have hhold : boundHold (2 ^ o.z) false (·.storeLanes o) w s = some ((s.setBstat w.c w.k m).stopAt w { code := 15, addr := a.va }) := by
    rw [boundHold, htrap]
  rw [exec_st, execSt]
  refine (issue_held (check := fun w _ => misaligned (2 ^ o.z) (w.storeLanes o)) c (misaligned_eq_none hok) hhold).trans (congrArg _ ?_)
  rw [State.stopAt, State.trapWith, State.onCohort_setBstat (State.who?_some c.who).1]
  rfl

end

/-- Settles O28, form by form: each store is queued; then the first misaligned lane, and a bound register that traps. -/
theorem storesIssue : Obligations.StoresIssue := by
  refine ⟨fun s w o q a g => ?_, fun s w o l => ?_⟩
  · intro addr data lanes ok op cls peer queues free
    refine ⟨?_, ?_, ?_, ?_⟩
    · intro size u l c hok _ hfree
      exact st_queues c hok hfree
    · intro l c hok hfree
      exact qst_queues rfl c (hok _ List.mem_cons_self) hfree
    · intro size l c htag hok
      exact redm_queues c htag hok
    · intro l scope hpeer hown c hok
      obtain rfl := Who.sigdScope_eq hpeer hown
      exact sigd_queues c (hok _ List.mem_cons_self)
  · intro size u m addr lanes uses
    refine ⟨fun c hl hm hbad hfirst => st_misaligned c hl hm hbad hfirst, fun c hok a htrap => ?_⟩
    refine st_boundTrap c (fun b hb => ?_) htrap
    obtain ⟨j, hj, rfl⟩ := List.mem_map.1 hb
    obtain ⟨hlt, hm⟩ := List.mem_filter.1 hj
    exact hok j (List.mem_range.1 hlt) hm

end Sys2Proof.Machine
end

section
/-! SUPPORT. Barriers of blocks and gangs: who has arrived, waits at a barrier and arrivals at it (R125 to R127, R228). -/

namespace Sys2Proof

/-- An element is put behind the first ones of no greater key. -/
theorem insBy_eq_takeWhile {α : Type} {key : α → Nat} {a : α} {p : α → Bool} {l : List α} (h : ∀ b ∈ l, p b = decide (key b ≤ key a)) :
    insBy key a l = l.takeWhile p ++ a :: l.drop (l.takeWhile p).length := by
  induction l with
  | nil => rfl
  | cons b r ih =>
    have hb := h b List.mem_cons_self
    rw [insBy, List.takeWhile_cons, hb]
    by_cases hle : key b ≤ key a
    · simp [hle, ih fun x hx => h x (List.mem_cons_of_mem _ hx)]
    · simp [hle]

end Sys2Proof

namespace Sys2Proof.Machine

open Sys2Proof

/-! The conditions. -/

section
variable {s : State} {w : Who} {n : Nat}

theorem Who.arrivedAll_iff : w.arrivedAll n = true ↔ Tbl.has w.h.barLanes n = true ∧ w.sp.entry &&& ~~~(Tbl.at w.h.barLanes n 0) = 0 := by
  simp [Who.arrivedAll, Cohort.arrivedLanes]

theorem Who.gangArrivedAll_iff : w.gangArrivedAll n = true ↔ Tbl.has w.h.gbarLanes n = true ∧ w.sp.entry &&& ~~~(Tbl.at w.h.gbarLanes n 0) = 0 := by
  simp [Who.gangArrivedAll]

theorem Who.rewaits_iff : w.rewaits n = true ↔ w.sp.rewait = true ∧ Tbl.at w.h.rearrive n 0 &&& w.sp.entry = 0 := by
  simp [Who.rewaits]

theorem State.myBarrier_of_block {bl : Block} (hb : s.block? w.c w.h.slot = some bl) : s.myBarrier w n = Tbl.at bl.bars n {} := by
  rw [State.myBarrier, hb]
  rfl

theorem State.mustWait_iff {bl : Block} (hb : s.block? w.c w.h.slot = some bl) :
    s.mustWait w n = true ↔ ¬ (Tbl.at bl.bars n {}).phase ≠ Tbl.at w.h.barPhase n false := by
  rw [State.mustWait, State.myBarrier_of_block hb, beq_iff_eq, not_not]

theorem State.mustWaitGang_iff : s.mustWaitGang w n = true ↔ ¬ (s.myGangBar w n).phase ≠ Tbl.at w.h.gbarPhase n false := by
  rw [State.mustWaitGang, beq_iff_eq, not_not]

theorem State.myGangBar_setCohort (c k : Nat) (h : Cohort) : (s.setCohort c k h).myGangBar w n = s.myGangBar w n := by
  unfold State.myGangBar
  rw [State.block?_setCohort]
  rfl

end

/-! Waits at barriers (R125, R126). -/

/-- R125: the cohort's lanes wait to arrive again, at a barrier of the block or of the gang. -/
def Who.waitingAgain (w : Who) (n : Nat) (hold : Hold) : Cohort :=
  { w.h.onSplit w.i (fun sp => { sp with state := 2, hold := hold }) with
    rearrive := Tbl.put w.h.rearrive n (Tbl.at w.h.rearrive n 0 ||| w.sp.entry) }

/-- R126: the cohort past a wait, with the order that the completion gives. -/
def Who.acquired (w : Who) (scope : Nat) : Cohort :=
  { w.gone with fences := w.h.fences ++ [{ seq := w.h.seq + 2, scope := scope, pred := 0x80, succ := 0xc0, paths := 0, handler := w.h.handler }] }

section
variable {s : State} {w : Who} {n : Nat} {i : Instr} (hw : s.who? = some w)
include hw

theorem State.waitAgain_leaves (hi : exec i s = .next (s.waitAgain w n)) :
    Leaves s w (exec i s) (w.waitingAgain n (if n < 16 then .barrier n true else .gangBarrier (n - 16) true)) [] := by
  refine leaves_setCohort (hi.trans (congrArg _ ?_))
  rw [State.waitAgain, State.onCohort_some (State.who?_some hw).1, State.waitIn, State.onCohort_some (State.cohort?_setCohort_self ..),
    State.setCohort_setCohort]
  rfl

omit hw in
theorem State.waitDone_leaves (hi : exec i s = .next ((s.onward w).waitDone w)) :
    Leaves s w (exec i s) (w.acquired 0) [{ row := .fenceComplete, ops := [w.c, w.k] }] := by
  rw [State.waitDone, State.onCohort_onward] at hi
  exact leaves_pushOnce hi

end

/-! Arrivals at block barriers (R125). -/

/-- R125: the cohort after lanes have arrived at barrier `n` in a phase with a count. -/
def Cohort.arriveAt (h : Cohort) (n : Nat) (m : Mask) (phase : Bool) (count : Nat) : Cohort :=
  { h with
    barLanes := Tbl.put h.barLanes n (h.arrivedLanes n ||| m), barPhase := Tbl.put h.barPhase n phase
    rearrive := Tbl.put h.rearrive n (Tbl.at h.rearrive n 0 &&& ~~~m), barCount := Tbl.put h.barCount n count }

/-- R125: the arrival of a cohort is complete, and the unit has neither taken nor queued it. -/
def Cohort.joinsQueue (h : Cohort) (n : Nat) (r : Barrier) : Prop :=
  h.alive &&& ~~~(h.arrivedLanes n) = 0 ∧ h.cohortid ∉ r.who ∧ ∀ q ∈ r.queue, q.2.1 ≠ h.cohortid

section
variable {s : State} {c k n : Nat} {h : Cohort} {bl : Block} (hh : s.cohort? c k = some h) (hb : s.block? c h.slot = some bl)
  (hhas : Tbl.has h.barLanes n = true)
include hh hb hhas

theorem State.cohortArrives_joins (hjoins : h.joinsQueue n (Tbl.at bl.bars n {})) : s.cohortArrives c k n =
    (s.setBlock c h.slot { bl with
      bars := Tbl.put bl.bars n ((Tbl.at bl.bars n {}).enqueue (s.core c).lclk h.cohortid (Tbl.at h.barCount n 0)) }).pushOnce
        .barrierArrivalTaken [c, h.slot, n] := by
  obtain ⟨hall, hwho, hqueue⟩ := hjoins
  have hnot : ((Tbl.at bl.bars n {}).queue.any fun q => q.2.1 == h.cohortid) = false := by simpa using hqueue
  unfold State.cohortArrives
  simp only [hh, hb]
  exact if_pos (by simp [hhas, hall, hwho, hnot])

omit hhas in
theorem State.cohortArrives_waits (hjoins : ¬ h.joinsQueue n (Tbl.at bl.bars n {})) : s.cohortArrives c k n = s := by
  unfold State.cohortArrives
  simp only [hh, hb]
  refine if_neg fun hcond => hjoins ?_
  simp only [Bool.and_eq_true, beq_iff_eq, Bool.not_eq_true', List.any_eq_false] at hcond
  obtain ⟨⟨⟨-, hall⟩, hwho⟩, hqueue⟩ := hcond
  exact ⟨hall, by simpa using hwho, hqueue⟩

end

/-- R125: in `t` the cohort `y` stands in its slot, its arrival has joined the unit's queue if it is complete, and nothing else has changed. -/
structure Arrived (s : State) (w : Who) (n : Nat) (bl : Block) (y : Cohort) (t : State) : Prop where
  cohort : t.cohort? w.c w.k = some y
  others : ∀ c k, ¬ (c = w.c ∧ k = w.k) → t.cohort? c k = s.cohort? c k
  mem : t.mem = s.mem
  joins : y.joinsQueue n (Tbl.at bl.bars n {}) →
    t.block? w.c y.slot = some { bl with
      bars := Tbl.put bl.bars n ((Tbl.at bl.bars n {}).enqueue (s.core w.c).lclk y.cohortid (Tbl.at y.barCount n 0)) } ∧
    Due.mk .barrierArrivalTaken [w.c, y.slot, n] ∈ t.agenda
  waits : ¬ y.joinsQueue n (Tbl.at bl.bars n {}) → t.block? w.c y.slot = some bl

theorem State.cohortArrives_arrived {s : State} {w : Who} {n : Nat} {bl : Block} {y : Cohort} (hb : s.block? w.c y.slot = some bl)
    (hhas : Tbl.has y.barLanes n = true) : Arrived s w n bl y ((s.setCohort w.c w.k y).cohortArrives w.c w.k n) := by
  have hy : (s.setCohort w.c w.k y).cohort? w.c w.k = some y := State.cohort?_setCohort_self ..
  have hb' : (s.setCohort w.c w.k y).block? w.c y.slot = some bl := (State.block?_setCohort ..).trans hb
  have hclock : ((s.setCohort w.c w.k y).core w.c).lclk = (s.core w.c).lclk := (congrArg CoreSt.lclk (s.core_setCohort w.c w.k y w.c) :)
  by_cases hjoins : y.joinsQueue n (Tbl.at bl.bars n {})
  · rw [State.cohortArrives_joins hy hb' hhas hjoins, hclock]
    refine ⟨?_, fun c k hck => ?_, ?_, fun _ => ⟨?_, State.mem_pushOnce ..⟩, fun hno => absurd hjoins hno⟩
    · rw [State.pushOnce_cohort?, State.cohort?_setBlock, hy]
    · rw [State.pushOnce_cohort?, State.cohort?_setBlock, State.cohort?_setCohort_other _ _ hck]
    · exact (OnlyDue.pushOnce ..).mem
    · rw [(OnlyDue.pushOnce ..).block?, State.block?_setBlock_self]
  · rw [State.cohortArrives_waits hy hb' hjoins]
    exact ⟨hy, fun c k hck => State.cohort?_setCohort_other _ _ hck, rfl, fun hyes => absurd hyes hjoins, fun _ => hb'⟩

section
variable {h : Cohort} {n : Nat} {m : Mask} {phase : Bool} {count : Nat}

theorem Cohort.joinsQueue_arriveAt {r : Barrier} : (h.arriveAt n m phase count).joinsQueue n r ↔
    h.alive &&& ~~~(h.arrivedLanes n ||| m) = 0 ∧ h.cohortid ∉ r.who ∧ ∀ q ∈ r.queue, q.2.1 ≠ h.cohortid := by
  have hlanes : (h.arriveAt n m phase count).arrivedLanes n = h.arrivedLanes n ||| m := Tbl.at_put_self ..
  rw [Cohort.joinsQueue, hlanes]
  rfl

theorem Cohort.has_arriveAt : Tbl.has (h.arriveAt n m phase count).barLanes n = true := by
  rw [Tbl.has]
  exact congrArg Option.isSome (Tbl.find?_put_self ..)

theorem Cohort.barCount_arriveAt : Tbl.at (h.arriveAt n m phase count).barCount n 0 = count := Tbl.at_put_self ..

end

/-- R125: the queue holds arrivals by the cycle in which each became complete, and then by the cohort. -/
theorem Barrier.enqueue_eq {r : Barrier} {clock cid count : Nat} (hcid : cid < 64) (hqueue : ∀ q ∈ r.queue, q.2.1 < 64) :
    let before := r.queue.takeWhile fun q => decide (q.1 < clock ∨ q.1 = clock ∧ q.2.1 ≤ cid)
    r.enqueue clock cid count = { r with queue := before ++ (clock, cid, count) :: r.queue.drop before.length } := by
  intro before
  have horder : ∀ q ∈ r.queue, decide (q.1 < clock ∨ q.1 = clock ∧ q.2.1 ≤ cid) = decide (q.1 * 64 + q.2.1 ≤ clock * 64 + cid) := by
    intro q hq
    have hlt := hqueue q hq
    exact decide_eq_decide.2 (by omega)
  have hput := insBy_eq_takeWhile (key := fun q : Nat × Nat × Nat => q.1 * 64 + q.2.1) (a := (clock, cid, count)) horder
  rw [Barrier.enqueue, hput]

section
variable {s : State} {w : Who} {n : Nat} {bl : Block} (hb : s.block? w.c w.h.slot = some bl)
include hb

theorem State.arriveBar_eq {y : Cohort} (count : Nat) : (s.setCohort w.c w.k y).arriveBar w n count =
    (s.setCohort w.c w.k (y.arriveAt n w.sp.entry (Tbl.at bl.bars n {}).phase count)).cohortArrives w.c w.k n := by
  rw [State.arriveBar, State.onCohort_some (State.cohort?_setCohort_self ..), State.setCohort_setCohort,
    State.myBarrier_of_block ((State.block?_setCohort ..).trans hb)]
  rfl

theorem State.arriveBar_arrived {y : Cohort} (hslot : y.slot = w.h.slot) (count : Nat) :
    Arrived s w n bl (y.arriveAt n w.sp.entry (Tbl.at bl.bars n {}).phase count) ((s.setCohort w.c w.k y).arriveBar w n count) := by
  rw [State.arriveBar_eq hb]
  exact State.cohortArrives_arrived (y := y.arriveAt ..) ((congrArg (s.block? w.c) hslot).trans hb) Cohort.has_arriveAt

end

/-! The instructions of block barriers (R125). -/

section
variable {s : State} {w : Who} {n a : Nat} {bl : Block} (hb : s.block? w.c w.h.slot = some bl)

section
variable (c : Clear s w (usesBar a w))
include c

theorem barArv_waitsAgain (hn : n < 16) (hagain : w.arrivedAll n = true) : Leaves s w (exec (.barArv n a) s) (w.waitingAgain n (.barrier n true)) [] := by
  have h := State.waitAgain_leaves c.who (i := .barArv n a) (n := n) (by
    rw [exec_barArv, execBarArv]
    exact issue_held c rfl (if_pos hagain))
  rwa [if_pos hn] at h

include hb in
theorem barArv_arrives (hnot : ¬ w.arrivedAll n = true) : ∃ t, exec (.barArv n a) s = .next t ∧
    Arrived s w n bl (w.gone.arriveAt n w.sp.entry (Tbl.at bl.bars n {}).phase (w.h.uq a).toNat) t := by
  refine ⟨_, ?_, State.arriveBar_arrived hb (y := w.gone) rfl _⟩
  rw [exec_barArv, execBarArv]
  exact issue_runs c rfl (if_neg hnot)

theorem barAw_waitsAgain (hn : n < 16) (hfresh : ¬ w.rewaits n = true) (hagain : w.arrivedAll n = true) :
    Leaves s w (exec (.barAw n a) s) (w.waitingAgain n (.barrier n true)) [] := by
  have h := State.waitAgain_leaves c.who (i := .barAw n a) (n := n) (by
    rw [exec_barAw, execBarAw]
    exact issue_held c rfl ((if_neg hfresh).trans (if_pos hagain)))
  rwa [if_pos hn] at h

include hb in
theorem barAw_arrives (hfresh : ¬ w.rewaits n = true) (hnot : ¬ w.arrivedAll n = true) : ∃ t, exec (.barAw n a) s = .next t ∧
    Arrived s w n bl ((w.h.onSplit w.i fun sp => { sp with state := 2, hold := .barrier n false }).arriveAt n w.sp.entry
      (Tbl.at bl.bars n {}).phase (w.h.uq a).toNat) t := by
  refine ⟨_, ?_, State.arriveBar_arrived hb (y := w.h.onSplit w.i fun sp => { sp with state := 2, hold := .barrier n false }) rfl _⟩
  have hwait : s.waitIn w 2 (.barrier n false) = s.setCohort w.c w.k (w.h.onSplit w.i fun sp => { sp with state := 2, hold := .barrier n false }) :=
    State.onCohort_some (State.who?_some c.who).1 _
  rw [exec_barAw, execBarAw, ← hwait]
  exact issue_held c rfl ((if_neg hfresh).trans (if_neg hnot))

theorem barAw_passes (hresumed : w.rewaits n = true) (hdone : ¬ s.mustWait w n = true) :
    Leaves s w (exec (.barAw n a) s) (w.acquired 0) [{ row := .fenceComplete, ops := [w.c, w.k] }] := by
  refine State.waitDone_leaves ?_
  rw [exec_barAw, execBarAw]
  exact issue_runs c rfl ((if_pos hresumed).trans (if_neg hdone))

theorem barAw_waits (hresumed : w.rewaits n = true) (hwait : s.mustWait w n = true) : Waits s w (exec (.barAw n a) s) 2 (.barrier n false) := by
  have h := State.waitIn_waits c.who 2 (.barrier n false)
  rwa [exec_barAw, execBarAw, issue_held c rfl ((if_pos hresumed).trans (if_pos hwait))]

end

section
variable (c : Clear s w { us := [a] })
include c

theorem barWt_passes (hdone : ¬ s.mustWait w n = true) :
    Leaves s w (exec (.barWt n a) s) (w.acquired 0) [{ row := .fenceComplete, ops := [w.c, w.k] }] := by
  refine State.waitDone_leaves ?_
  rw [exec_barWt, execBarWt]
  exact issue_runs c rfl (if_neg hdone)

theorem barWt_waits (hwait : s.mustWait w n = true) : Waits s w (exec (.barWt n a) s) 2 (.barrier n false) := by
  have h := State.waitIn_waits c.who 2 (.barrier n false)
  rwa [exec_barWt, execBarWt, issue_held c rfl (if_pos hwait)]

end

end

/-! Gang barriers (R127). -/

/-- R127: the cohort after lanes have arrived at gang barrier `n` in a phase with a count. -/
def Cohort.arriveAtGang (h : Cohort) (n : Nat) (m : Mask) (phase : Bool) (count : Nat) : Cohort :=
  { h with
    gbarLanes := Tbl.put h.gbarLanes n (Tbl.at h.gbarLanes n 0 ||| m), gbarPhase := Tbl.put h.gbarPhase n phase
    rearrive := Tbl.put h.rearrive (16 + n) (Tbl.at h.rearrive (16 + n) 0 &&& ~~~m), gbarCount := Tbl.put h.gbarCount n count }

section
variable {s : State} {w : Who} {n a : Nat}

theorem State.arriveGang_eq (y : Cohort) (count : Nat) : (s.setCohort w.c w.k y).arriveGang w n count =
    (s.setCohort w.c w.k (y.arriveAtGang n w.sp.entry (s.myGangBar w n).phase count)).blockArrives w.c w.h.slot n := by
  rw [State.arriveGang, State.onCohort_some (State.cohort?_setCohort_self ..), State.setCohort_setCohort, State.myGangBar_setCohort]
  rfl

section
variable (c : Clear s w (usesGbar a w))
include c

theorem gbarArv_waitsAgain (hagain : w.gangArrivedAll n = true) :
    Leaves s w (exec (.gbarArv n a) s) (w.waitingAgain (16 + n) (.gangBarrier n true)) [] := by
  have h := State.waitAgain_leaves c.who (i := .gbarArv n a) (n := 16 + n) (by
    rw [exec_gbarArv, execGbarArv]
    exact issue_held c rfl (if_pos hagain))
  rwa [if_neg (by omega), Nat.add_sub_cancel_left] at h

theorem gbarArv_arrives (hnot : ¬ w.gangArrivedAll n = true) : exec (.gbarArv n a) s =
    .next ((s.setCohort w.c w.k (w.gone.arriveAtGang n w.sp.entry (s.myGangBar w n).phase (w.h.uq a).toNat)).blockArrives w.c w.h.slot n) := by
  rw [← State.arriveGang_eq, exec_gbarArv, execGbarArv]
  exact issue_runs c rfl (if_neg hnot)

theorem gbarAw_waitsAgain (hfresh : ¬ w.rewaits (16 + n) = true) (hagain : w.gangArrivedAll n = true) :
    Leaves s w (exec (.gbarAw n a) s) (w.waitingAgain (16 + n) (.gangBarrier n true)) [] := by
  have h := State.waitAgain_leaves c.who (i := .gbarAw n a) (n := 16 + n) (by
    rw [exec_gbarAw, execGbarAw]
    exact issue_held c rfl ((if_neg hfresh).trans (if_pos hagain)))
  rwa [if_neg (by omega), Nat.add_sub_cancel_left] at h

theorem gbarAw_arrives (hfresh : ¬ w.rewaits (16 + n) = true) (hnot : ¬ w.gangArrivedAll n = true) :
    exec (.gbarAw n a) s = .next ((s.setCohort w.c w.k
      ((w.h.onSplit w.i fun sp => { sp with state := 2, hold := .gangBarrier n false }).arriveAtGang n w.sp.entry
        (s.myGangBar w n).phase (w.h.uq a).toNat)).blockArrives w.c w.h.slot n) := by
  have hwait : s.waitIn w 2 (.gangBarrier n false) =
      s.setCohort w.c w.k (w.h.onSplit w.i fun sp => { sp with state := 2, hold := .gangBarrier n false }) :=
    State.onCohort_some (State.who?_some c.who).1 _
  rw [← State.arriveGang_eq, ← hwait, exec_gbarAw, execGbarAw]
  exact issue_held c rfl ((if_neg hfresh).trans (if_neg hnot))

theorem gbarAw_passes (hresumed : w.rewaits (16 + n) = true) (hdone : ¬ s.mustWaitGang w n = true) :
    MovesOn s w (exec (.gbarAw n a) s) w.past.pc := by
  have h := onward_movesOn c.who
  rwa [exec_gbarAw, execGbarAw, issue_runs c rfl ((if_pos hresumed).trans (if_neg hdone))]

theorem gbarAw_waits (hresumed : w.rewaits (16 + n) = true) (hwait : s.mustWaitGang w n = true) :
    Waits s w (exec (.gbarAw n a) s) 2 (.gangBarrier n false) := by
  have h := State.waitIn_waits c.who 2 (.gangBarrier n false)
  rwa [exec_gbarAw, execGbarAw, issue_held c rfl ((if_pos hresumed).trans (if_pos hwait))]

end

section
variable (c : Clear s w { us := [a] })
include c

theorem gbarWt_passes (hdone : ¬ s.mustWaitGang w n = true) : MovesOn s w (exec (.gbarWt n a) s) w.past.pc := by
  have h := onward_movesOn c.who
  rwa [exec_gbarWt, execGbarWt, issue_runs c rfl (if_neg hdone)]

theorem gbarWt_waits (hwait : s.mustWaitGang w n = true) : Waits s w (exec (.gbarWt n a) s) 2 (.gangBarrier n false) := by
  have h := State.waitIn_waits c.who 2 (.gangBarrier n false)
  rwa [exec_gbarWt, execGbarWt, issue_held c rfl (if_pos hwait)]

end

end

/-- Settles O31: block barriers by `Arrived`, which gives the queue its place by `Barrier.enqueue_eq`; gang barriers by equations. -/
theorem barrierResults : Obligations.BarrierResults := by
  unfold Obligations.BarrierResults
  refine ⟨fun s w n a bl hb => ?_, fun s w n a => ?_⟩
  · intro r count now again passed marked waits waitsAgain passes arrives hn
    have hagain : w.arrivedAll n = true ↔ again := Who.arrivedAll_iff
    have hwaits : w.rewaits n = true ↔ waits := Who.rewaits_iff
    have hpassed : s.mustWait w n = true ↔ ¬ passed := State.mustWait_iff hb
    have arrives_of {i : Instr} {y : Cohort}
        (h : ∃ t, exec i s = .next t ∧ Arrived s w n bl (y.arriveAt n w.sp.entry r.phase count) t)
        (hslot : y.slot = w.h.slot := by rfl) (halive : y.alive = w.h.alive := by rfl) (hid : y.cohortid = w.h.cohortid := by rfl)
        (hlanes : y.barLanes = w.h.barLanes := by rfl) (hmarks : y.rearrive = w.h.rearrive := by rfl)
        (hphase : y.barPhase = w.h.barPhase := by rfl) (hcount : y.barCount = w.h.barCount := by rfl) : arrives i y := by
      obtain ⟨t, hi, hcohort, hothers, hmem, hjoins, hstays⟩ := h
      have hjoins_iff : (y.arriveAt n w.sp.entry r.phase count).joinsQueue n r ↔
          w.h.alive &&& ~~~now = 0 ∧ w.h.cohortid ∉ r.who ∧ ∀ q ∈ r.queue, q.2.1 ≠ w.h.cohortid := by
        rw [Cohort.joinsQueue_arriveAt, halive, hid, Cohort.arrivedLanes, hlanes]
      have hslot' : (y.arriveAt n w.sp.entry r.phase count).slot = w.h.slot := hslot
      have hid' : (y.arriveAt n w.sp.entry r.phase count).cohortid = w.h.cohortid := hid
      rw [hslot'] at hjoins hstays
      refine ⟨t, hi, ?_, hothers, hmem, fun hj hcid hqueue => ?_, fun hj => hstays (mt hjoins_iff.1 hj)⟩
      · rw [hcohort, Cohort.arriveAt, Cohort.arrivedLanes, hlanes, hmarks, hphase, hcount]
      · have h := hjoins (hjoins_iff.2 hj)
        rwa [hid', Cohort.barCount_arriveAt, Barrier.enqueue_eq hcid hqueue] at h
    refine ⟨fun c => ⟨fun h => ?_, fun h => ?_, fun hf h => ?_, fun hf h => ?_, fun hr h => ?_, fun hr h => ?_⟩,
      fun c => ⟨fun h => ?_, fun h => ?_⟩⟩
    · exact barArv_waitsAgain c hn (hagain.2 h)
    · exact arrives_of (barArv_arrives hb c (mt hagain.1 h))
    · exact barAw_waitsAgain c hn (mt hwaits.1 hf) (hagain.2 h)
    · exact arrives_of (barAw_arrives hb c (mt hwaits.1 hf) (mt hagain.1 h))
    · exact barAw_passes c (hwaits.2 hr) fun hm => hpassed.1 hm h
    · exact barAw_waits c (hwaits.2 hr) (hpassed.2 h)
    · exact barWt_passes c fun hm => hpassed.1 hm h
    · exact barWt_waits c (hpassed.2 h)
  · intro phase again passed marked waits waitsAgain arrived waiting
    have hagain : w.gangArrivedAll n = true ↔ again := Who.gangArrivedAll_iff
    have hwaits : w.rewaits (16 + n) = true ↔ waits := Who.rewaits_iff
    have hpassed : s.mustWaitGang w n = true ↔ ¬ passed := State.mustWaitGang_iff
    refine ⟨fun c => ⟨fun h => ?_, fun h => ?_, fun hf h => ?_, fun hf h => ?_, fun hr h => ?_, fun hr h => ?_⟩,
      fun c => ⟨fun h => ?_, fun h => ?_⟩⟩
    · exact gbarArv_waitsAgain c (hagain.2 h)
    · exact gbarArv_arrives c (mt hagain.1 h)
    · exact gbarAw_waitsAgain c (mt hwaits.1 hf) (hagain.2 h)
    · exact gbarAw_arrives c (mt hwaits.1 hf) (mt hagain.1 h)
    · exact gbarAw_passes c (hwaits.2 hr) fun hm => hpassed.1 hm h
    · exact gbarAw_waits c (hwaits.2 hr) (hpassed.2 h)
    · exact gbarWt_passes c fun hm => hpassed.1 hm h
    · exact gbarWt_waits c (hpassed.2 h)

end Sys2Proof.Machine
end

section
/-! SUPPORT. States that refute two statements about instructions: one that issues with a register absent, and one whose core names a slot twice. -/

namespace Sys2Proof.Machine

open Sys2Proof

/-! The states. -/

/-- A cohort of 32 lanes with one split, at 0x1000. -/
def aloneCohort : Cohort :=
  { uid := 1, budget := 64, splits := [(0, { pc := 0x1000, entry := BitVec.allOnes 32, exec := BitVec.allOnes 32 })] }

/-- That cohort with q63 = 5, so that a mask in q63 names q0 and q2, of which its register 0 is out in its image. -/
def absentCohort : Cohort := { aloneCohort with q := [(63, { val := 5 })], absent := [0] }

/-- A package of one core with a table of cohorts. -/
def coreOf (cohorts : Tbl Cohort) : State := { State.reset with cores := [(0, { cohorts := cohorts })] }

/-- The split of a cohort that issues there. -/
def firstOf (h : Cohort) : Who := { c := 0, k := 0, i := 0, h := h, sp := (h.split? 0).getD {}, word := 0, len := 4 }

/-- The place in issue order of the cohort in slot 0, and whether it is ending, after an instruction. -/
def placeAfter (i : Instr) (s : State) : Option (Nat × Bool) :=
  match exec i s with
  | .next t => (t.cohort? 0 0).map fun h => (h.seq, h.ending)
  | _ => none

theorem placed_of_placeAfter {i : Instr} {s t : State} {p : Nat × Bool} (hp : placeAfter i s = some p) (hi : exec i s = .next t) :
    ∃ h, t.cohort? 0 0 = some h ∧ h.seq = p.1 ∧ h.ending = p.2 := by
  rw [placeAfter, hi] at hp
  obtain ⟨h, hh, rfl⟩ := Option.map_eq_some_iff.1 hp
  exact ⟨h, hh, rfl, rfl⟩

theorem absent_clear : Clear (coreOf [(0, absentCohort)]) (firstOf absentCohort) { us := [63] } := by
  constructor <;> decide

theorem twice_clear : Clear (coreOf [(0, aloneCohort), (0, aloneCohort)]) (firstOf aloneCohort) {} := by
  constructor <;> decide

theorem bisq_absent : placeAfter (.bisq 63) (coreOf [(0, absentCohort)]) = some (0, false) := by decide

theorem exit_twice : placeAfter .exit (coreOf [(0, aloneCohort), (0, aloneCohort)]) = some (0, false) := by decide

/-- Refutes O23, for BISQ: the statement asks only that nothing holds back the register of the mask, and `BISQ` also waits for the registers that the mask
names, which the snapshot reads (R79). Here q63 names register 0, which is still in the cohort's image, so the instruction calls for it and its split has
not gone on. -/
theorem not_regionResults : ¬ Obligations.RegionResults := by
  unfold Obligations.RegionResults
  intro h
  obtain ⟨-, hbisq⟩ := h (coreOf [(0, absentCohort)]) (firstOf absentCohort) 0 63
  obtain ⟨t, y, hi, -, hy, wentOn, -⟩ := hbisq absent_clear
  obtain ⟨z, hz, hseq, -⟩ := placed_of_placeAfter bisq_absent hi
  obtain rfl : y = z := Option.some.inj (hy.symm.trans hz)
  exact absurd (wentOn.seq.symm.trans hseq) (by decide)

/-- Refutes O24, for EXIT: the statement ranges over every state, also over one whose table of cohorts names a slot twice. There `EXIT` takes the first entry
out, and the cohort then found in the slot is the second, which runs on. -/
theorem not_stopResults : ¬ Obligations.StopResults := by
  unfold Obligations.StopResults
  intro h
  obtain ⟨-, -, -, -, -, -, hexit⟩ := h (coreOf [(0, aloneCohort), (0, aloneCohort)]) (firstOf aloneCohort) 0 twice_clear
  obtain ⟨t, hi, -, hends⟩ := hexit
  obtain ⟨y, hy, -, hstays⟩ := placed_of_placeAfter exit_twice hi
  obtain ⟨-, -, -, hending, -⟩ := hends y hy
  exact absurd (hending.symm.trans hstays) (by decide)

end Sys2Proof.Machine
end

section
/-! SUPPORT. Channels (R131 to R134, R281). -/

namespace Sys2Proof.Machine

open Sys2Proof

/-! The channel that an instruction names. -/

section
variable {s : State} {w : Who} {bl : Block} {ch id : Nat} (hb : s.block? w.c w.h.slot = some bl)
include hb

theorem State.chanFor_eq (send : Bool) : s.chanFor w ch send = Tbl.find? (if send then bl.sends else bl.recvs) ch := by
  rw [State.chanFor, hb]
  rfl

theorem State.chanEither_eq : s.chanEither w ch = (Tbl.find? bl.sends ch).or (Tbl.find? bl.recvs ch) := by
  have hsend : s.chanFor w ch true = Tbl.find? bl.sends ch := State.chanFor_eq hb true
  have hrecv : s.chanFor w ch false = Tbl.find? bl.recvs ch := State.chanFor_eq hb false
  rw [State.chanEither, hsend, hrecv]
  cases Tbl.find? bl.sends ch <;> rfl

end

/-! `SEND` (R131, R281). -/

/-- R131: the channel after a payload has left: a slot is taken, and the payload is on its way with the registers' tags. -/
def Chan.sent (x : Chan) (w : Who) (regs : List Nat) : Chan :=
  { x with free := x.free - 1, flight := x.flight ++ [(w.payload regs x.size, regs.map w.h.vtag)] }

/-- R131, R281: channel `id` is as after a `SEND`, and the payload's packet has left. -/
def State.sendPayload (t : State) (id : Nat) (y : Chan) : State :=
  ({ t with chans := Tbl.put t.chans id y } : State).sendTo 3 0 (coreRouter y.sender.1) (coreRouter y.receiver.1) (corePort y.receiver.1)
    { row := .channelPacketReceive, ops := [id] }

/-- What a `SEND` names. -/
def usesSend (o : OpSend) : Uses :=
  { vs := chanRegs o.n o.a, pairs := if o.n = 1 then [o.a] else [], rel := some { scope := 2, cls := 0xff } }

section
variable {s : State} {w : Who} {o : OpSend} {bl : Block} {id : Nat} (hb : s.block? w.c w.h.slot = some bl)
  (hid : Tbl.find? bl.sends o.c = some id) (c : Clear s w (usesSend o))
include hb hid c

theorem usesSend_clear : Clear s w { usesSend o with illegal := (s.chanFor w o.c true).isNone } := by
  rwa [State.chanFor_eq hb, if_pos rfl, hid]

theorem send_waits (hfull : (s.chan id).free = 0) : Waits s w (exec (.send o) s) 3 (.channel o.c) := by
  have h := State.waitIn_waits c.who 3 (.channel o.c)
  have hchan : s.chanFor w o.c true = some id := (State.chanFor_eq hb true).trans hid
  rwa [exec_send, execSend, issue_held (usesSend_clear hb hid c) rfl (by rw [hchan]; exact if_pos hfull)]

theorem send_sends (hfree : (s.chan id).free ≠ 0) : ∃ t, exec (.send o) s = .next t ∧
    t.cohort? w.c w.k = some w.gone ∧ t.mem = s.mem ∧ t.chan id = (s.chan id).sent w (chanRegs o.n o.a) := by
  have hchan : s.chanFor w o.c true = some id := (State.chanFor_eq hb true).trans hid
  have hchan' : (s.setCohort w.c w.k w.gone).chanFor w o.c true = some id :=
    (State.chanFor_eq ((State.block?_setCohort ..).trans hb) true).trans hid
  refine ⟨(s.onward w).sendPayload id ((s.chan id).sent w (chanRegs o.n o.a)), ?_, State.cohort?_setCohort_self .., rfl, Tbl.at_put_self ..⟩
  rw [exec_send, execSend, issue_runs (usesSend_clear hb hid c) rfl (by rw [hchan]; exact if_neg hfree), hchan']
  rfl

end

/-! `RECV` (R132, R281). -/

/-- R132: the cohort with a payload in the registers of a `RECV`, and the order of an acquire at device scope. -/
def Who.received (w : Who) (o : OpRecv) (p : List Byte × List Nat) (size : Nat) : Cohort :=
  let h := w.gone.receive (w.h.active w.sp) p size o.d 0
  (if o.n = 1 then h.receive (w.h.active w.sp) p size (o.d + 1) 1 else h).order 2 0x80 0xc0

/-- R132, R281: channel `id` is as after a `RECV`, and the credit's packet has left. -/
def State.returnCredit (t : State) (id : Nat) (y : Chan) : State :=
  ({ t with chans := Tbl.put t.chans id y } : State).sendTo 1 0 (coreRouter y.receiver.1) (coreRouter y.sender.1) (corePort y.sender.1)
    { row := .channelCredit, ops := [id] }

/-- What a `RECV` names. -/
def usesRecv (o : OpRecv) : Uses := { vd := chanRegs o.n o.d, pairs := if o.n = 1 then [o.d] else [] }

section
variable {s : State} {w : Who} {o : OpRecv} {bl : Block} {id : Nat} (hb : s.block? w.c w.h.slot = some bl)
  (hid : Tbl.find? bl.recvs o.c = some id) (c : Clear s w (usesRecv o))
include hb hid c

theorem usesRecv_clear : Clear s w { usesRecv o with illegal := (s.chanFor w o.c false).isNone } := by
  rwa [State.chanFor_eq hb, if_neg Bool.false_ne_true, hid]

theorem recv_waits (hnone : (s.chan id).full = []) : Waits s w (exec (.recv o) s) 3 (.channel o.c) := by
  have h := State.waitIn_waits c.who 3 (.channel o.c)
  have hchan : s.chanFor w o.c false = some id := (State.chanFor_eq hb false).trans hid
  rwa [exec_recv, execRecv, issue_held (usesRecv_clear hb hid c) rfl (by rw [hchan]; exact if_pos hnone)]

theorem recv_receives {p : List Byte × List Nat} {rest : List (List Byte × List Nat)} (hfull : (s.chan id).full = p :: rest) :
    ∃ t, exec (.recv o) s = .next t ∧ t.cohort? w.c w.k = some (w.received o p (s.chan id).size) ∧ t.mem = s.mem ∧
      t.chan id = { s.chan id with full := rest } := by
  have hchan : s.chanFor w o.c false = some id := (State.chanFor_eq hb false).trans hid
  have hchan' : (s.setCohort w.c w.k w.gone).chanFor w o.c false = some id :=
    (State.chanFor_eq ((State.block?_setCohort ..).trans hb) false).trans hid
  have hfull' : ((s.setCohort w.c w.k w.gone).chan id).full = p :: rest := hfull
  have hnone : ¬ (s.chan id).full = [] := by simp [hfull]
  have hrecv : ((s.setCohort w.c w.k w.gone).onCohort w.c w.k fun h =>
      let h1 := h.receive (w.h.active w.sp) p (s.chan id).size o.d 0
      if o.n = 1 then h1.receive (w.h.active w.sp) p (s.chan id).size (o.d + 1) 1 else h1).acquireDev w.c w.k =
      (s.setCohort w.c w.k (w.received o p (s.chan id).size)).pushOnce .fenceComplete [w.c, w.k] := by
    rw [State.acquireDev, State.onCohort_some (State.cohort?_setCohort_self ..), State.setCohort_setCohort,
      State.onCohort_some (State.cohort?_setCohort_self ..), State.setCohort_setCohort]
    rfl
  have hdue := OnlyDue.pushOnce (s.setCohort w.c w.k (w.received o p (s.chan id).size)) .fenceComplete [w.c, w.k]
  refine ⟨((s.setCohort w.c w.k (w.received o p (s.chan id).size)).pushOnce .fenceComplete [w.c, w.k]).returnCredit id { s.chan id with full := rest },
    ?_, (hdue.cohort? ..).trans (State.cohort?_setCohort_self ..), hdue.mem, Tbl.at_put_self ..⟩
  rw [← hrecv, exec_recv, execRecv, issue_runs (usesRecv_clear hb hid c) rfl (by rw [hchan]; exact if_neg hnone), hchan']
  dsimp only
  rw [hfull']
  rfl

end

/-! The registers received (R132). -/

section
variable {w : Who} {o : OpRecv} {p : List Byte × List Nat} {size : Nat}

theorem Cohort.receive_only (h : Cohort) (m : Mask) (r i : Nat) : ∃ v y, h.receive m p size r i = { h with v := v, dirty := y } :=
  Cohort.setLanes_only ..

theorem Who.received_only : ∃ v y, w.received o p size = { w.gone with
    v := v, dirty := y
    fences := w.h.fences ++ [{ seq := w.h.seq + 2, scope := 2, pred := 0x80, succ := 0xc0, paths := 0, handler := w.h.handler }] } := by
  obtain ⟨v, y, hone⟩ := Cohort.receive_only (p := p) (size := size) w.gone (w.h.active w.sp) o.d 0
  obtain ⟨v', y', htwo⟩ := Cohort.receive_only (p := p) (size := size) { w.gone with v := v, dirty := y } (w.h.active w.sp) (o.d + 1) 1
  unfold Who.received
  split
  · rw [hone]
    exact ⟨v', y', congrArg (Cohort.order · 2 0x80 0xc0) htwo⟩
  · exact ⟨v, y, congrArg (Cohort.order · 2 0x80 0xc0) hone⟩

theorem Who.received_vreg (n : Nat) : (w.received o p size).vreg n =
    (if o.n = 1 then (w.gone.receive (w.h.active w.sp) p size o.d 0).receive (w.h.active w.sp) p size (o.d + 1) 1
      else w.gone.receive (w.h.active w.sp) p size o.d 0).vreg n := rfl

/-- R132: a register holds the words of the payload at its place. -/
theorem Cohort.receive_set (h : Cohort) (m : Mask) (r i : Nat) :
    LanesSet h (h.receive m p size r i) r m (if size < 128 * (i + 1) then 0 else p.2.getD i 0) fun l => payloadWord p.1 (32 * i + l) :=
  Cohort.setLanes_set ..

theorem Who.received_one (hn : o.n ≠ 1) : LanesSet w.h (w.received o p size) o.d (w.h.active w.sp) (if size < 128 then 0 else p.2.getD 0 0)
    fun l => payloadWord p.1 l := by
  have hset := (Cohort.receive_set (p := p) (size := size) w.gone (w.h.active w.sp) o.d 0).ofGone
  have hvreg (n : Nat) : (w.received o p size).vreg n = (w.gone.receive (w.h.active w.sp) p size o.d 0).vreg n := by
    rw [Who.received_vreg, if_neg hn]
  simp only [Nat.mul_zero, Nat.zero_add, Nat.mul_one] at hset
  exact ⟨fun l hl => (congrArg (VReg.lane · l) (hvreg o.d)).trans (hset.words l hl), (congrArg VReg.tag (hvreg o.d)).trans hset.tag,
    (congrArg VReg.poison (hvreg o.d)).trans hset.poison, fun n hn => (hvreg n).trans (hset.others n hn)⟩

theorem Who.received_two (hn : o.n = 1) :
    (∀ l, l < 32 → (w.received o p size).lane o.d l = (if inMask (w.h.active w.sp) l then payloadWord p.1 l else w.h.lane o.d l) ∧
      (w.received o p size).lane (o.d + 1) l = if inMask (w.h.active w.sp) l then payloadWord p.1 (32 + l) else w.h.lane (o.d + 1) l) ∧
    (w.received o p size).vtag o.d = (if size < 128 then 0 else p.2.getD 0 0) ∧
    (w.received o p size).vtag (o.d + 1) = (if size < 256 then 0 else p.2.getD 1 0) ∧
    ∀ k, k ≠ o.d → k ≠ o.d + 1 → (w.received o p size).vreg k = w.h.vreg k := by
  have hlow := (Cohort.receive_set (p := p) (size := size) w.gone (w.h.active w.sp) o.d 0).ofGone
  have hhigh := Cohort.receive_set (p := p) (size := size) (w.gone.receive (w.h.active w.sp) p size o.d 0) (w.h.active w.sp) (o.d + 1) 1
  have hvreg (n : Nat) : (w.received o p size).vreg n =
      ((w.gone.receive (w.h.active w.sp) p size o.d 0).receive (w.h.active w.sp) p size (o.d + 1) 1).vreg n := by
    rw [Who.received_vreg, if_pos hn]
  simp only [Nat.mul_zero, Nat.zero_add, Nat.mul_one] at hlow hhigh
  have hlow' : (w.received o p size).vreg o.d = (w.gone.receive (w.h.active w.sp) p size o.d 0).vreg o.d :=
    (hvreg o.d).trans (hhigh.others o.d (by omega))
  have hbefore : (w.gone.receive (w.h.active w.sp) p size o.d 0).vreg (o.d + 1) = w.h.vreg (o.d + 1) := hlow.others _ (by omega)
  refine ⟨fun l hl => ⟨?_, ?_⟩, ?_, ?_, fun k hk hk' => ?_⟩
  · exact (congrArg (VReg.lane · l) hlow').trans (hlow.words l hl)
  · refine (congrArg (VReg.lane · l) (hvreg (o.d + 1))).trans ((hhigh.words l hl).trans ?_)
    rw [Cohort.lane, hbefore]
    rfl
  · exact (congrArg VReg.tag hlow').trans hlow.tag
  · exact (congrArg VReg.tag (hvreg (o.d + 1))).trans hhigh.tag
  · rw [hvreg, hhigh.others k hk', hlow.others k hk]

end

/-! `CHQ` (R133, R134). -/

section
variable {s : State} {w : Who} {ch d id : Nat} {bl : Block} (hb : s.block? w.c w.h.slot = some bl)
include hb

theorem chq_reads (hid : (Tbl.find? bl.sends ch).or (Tbl.find? bl.recvs ch) = some id) (c : Clear s w { ud := [d] }) :
    WritesUniform s w (exec (.chq ch d) s) d (s.chan id).word 0 := by
  have hchan : s.chanEither w ch = some id := (State.chanEither_eq hb).trans hid
  have hchan' : (s.setCohort w.c w.k w.gone).chanEither w ch = some id := (State.chanEither_eq ((State.block?_setCohort ..).trans hb)).trans hid
  have hclear : Clear s w { ud := [d], illegal := (s.chanEither w ch).isNone } := by rwa [hchan]
  have hexec : exec (.chq ch d) s = issueOwn { ud := [d] } noCheck (fun _ h => h.setQ d (s.chan id).word 0) s := by
    rw [exec_chq, execChq, issue_runs hclear rfl rfl, hchan', issueOwn_runs c rfl]
    exact congrArg _ (State.onCohort_onward ..)
  rw [hexec]
  exact writesUniform _ rfl c rfl

theorem chq_illegal (hsend : Tbl.find? bl.sends ch = none) (hrecv : Tbl.find? bl.recvs ch = none) (c : Reaches s w { ud := [d], illegal := true }) :
    Stops s w (exec (.chq ch d) s) 2 0 0 := by
  have hchan : s.chanEither w ch = none := by rw [State.chanEither_eq hb, hsend, hrecv]; rfl
  have hreaches : Reaches s w { ud := [d], illegal := (s.chanEither w ch).isNone } := by rwa [hchan]
  rw [exec_chq, execChq]
  exact issue_stops (b := { code := 2 }) hreaches (issueFault_illegal _ (by simp [Uses.bad, hchan]))

end

/-- Settles O33: `send_…`, `recv_…` and `chq_…` say what each instruction leaves of its channel, `Who.received_…` what a `RECV` leaves of the registers. -/
theorem channelResults : Obligations.ChannelResults := by
  unfold Obligations.ChannelResults
  refine fun s w o r c d id bl hb => ⟨fun hid => ?_, fun hid => ?_, fun hid cl => ?_, fun hsend hrecv cl => chq_illegal hb hsend hrecv cl⟩
  · intro regs word bytes cl
    exact ⟨send_waits hb hid cl, send_sends hb hid cl⟩
  · intro regs cl
    refine ⟨recv_waits hb hid cl, fun p rest hfull => ?_⟩
    obtain ⟨t, hi, hcohort, hmem, hchan⟩ := recv_receives hb hid cl hfull
    obtain ⟨v, y, honly⟩ := Who.received_only (w := w) (o := r) (p := p) (size := (s.chan id).size)
    refine ⟨t, _, hi, hcohort, hmem, hchan, ?_, ?_, ?_, Who.received_one, Who.received_two⟩
    · rw [honly]; exact fun _ => ⟨rfl, rfl⟩
    · rw [honly]; exact fun _ => rfl
    · rw [honly]
  · refine chq_reads hb ?_ cl
    rcases hid with hsend | ⟨hsend, hrecv⟩
    · rw [hsend]; rfl
    · rw [hsend, hrecv]; rfl

end Sys2Proof.Machine
end

section
/-! SUPPORT. `MWAIT`: the word read at its home, its condition and its monitor (R128, R137, R252, R276, R280). -/

namespace Sys2Proof.Machine

open Sys2Proof

/-! A word read at its home (R276). -/

section
variable {s : State} {pa n : Nat}

theorem State.peekN_homed_of_le (s : State) (h : isHomed pa = true) (hn : n ≤ 8) : s.peekN pa n = Mem.rdN s.mem pa n := by
  have hlt := lt_of_isHomed h
  have hpeek : ∀ i ∈ List.range n, s.peek (pa + i) = Mem.rd s.mem (pa + i) := fun i hi => s.peek_low (by have := List.mem_range.1 hi; omega)
  rw [State.peekN, Mem.rdN, Mem.rdBytes_eq_map, List.map_congr_left hpeek]

variable (halign : pa % n = 0) (hn : n = 4 ∨ n = 8)
include halign hn

theorem lastLine_of_aligned : (pa + n - 1) / 128 = pa / 128 := by rcases hn with rfl | rfl <;> omega

theorem linesIn_of_aligned : linesIn pa n = [pa / 128] := by
  have hpos : ¬ n = 0 := by omega
  rw [linesIn, if_neg hpos, lastLine_of_aligned halign hn, Nat.add_sub_cancel_left]
  rfl

theorem State.homeRead_word (hhome : isHomed pa = true) (hshadow : Tbl.find? s.shadows (pa / 128) = none) (reuse : Nat) :
    s.homeRead pa n reuse = (Mem.rdN s.mem pa n, s.lineRead (pa / 128) reuse) := by
  have hframe := s.lineRead_frame (pa / 128) reuse
  have hshadows : (s.lineRead (pa / 128) reuse).shadows = s.shadows := (congrArg State.shadows hframe :)
  have hmem : (s.lineRead (pa / 128) reuse).mem = s.mem := (congrArg State.mem hframe :)
  have hnone : Tbl.find? (s.lineRead (pa / 128) reuse).shadows (pa / 128) = none := by rw [hshadows, hshadow]
  rw [State.homeRead, if_pos hhome, linesIn_of_aligned halign hn, List.foldl_cons, List.foldl_nil, State.look,
    State.narrowIn_of_none hnone (by rw [lastLine_of_aligned halign hn, hnone]), State.peekN_homed_of_le _ hhome (by omega), hmem]

end

/-- What stands after a line has been read for an instruction, and its cohort put in place (R276). -/
theorem State.rest_of_lineRead {s t : State} {w : Who} {h : Cohort} {line reuse : Nat}
    (ht : OnlyDue (((s.onward w).lineRead line reuse).setCohort w.c w.k h) t) :
    t.cohort? w.c w.k = some h ∧ (∀ c k, ¬ (c = w.c ∧ k = w.k) → t.cohort? c k = s.cohort? c k) ∧
      { t with cores := s.cores, agenda := s.agenda, slices := s.slices } = s := by
  have hread := (s.onward w).lineRead_frame line reuse
  have hcores : ((s.onward w).lineRead line reuse).cores = (s.onward w).cores := (congrArg State.cores hread :)
  refine ⟨(ht.cohort? ..).trans (State.cohort?_setCohort_self ..), fun c k hck => ?_, ?_⟩
  · rw [ht.cohort?, State.cohort?_setCohort_other _ _ hck, State.cohort?, State.core, hcores]
    exact State.cohort?_setCohort_other _ _ hck
  · calc
      _ = { ((s.onward w).lineRead line reuse).setCohort w.c w.k h with cores := s.cores, agenda := s.agenda, slices := s.slices } :=
        (congrArg (fun u : State => { u with cores := s.cores, agenda := s.agenda, slices := s.slices }) ht.rest :)
      _ = s := (congrArg (fun u : State => { u with cores := s.cores, agenda := s.agenda, slices := s.slices }) hread :)

/-! The instruction (R128). -/

section
variable {s : State} {w : Who} {o : OpMwait} {pa : Nat} {sm : Bool}

theorem OpWidth_or (o : OpMwait) : OpWidth o = 4 ∨ OpWidth o = 8 := by unfold OpWidth; split <;> simp

/-- R60: the conditions that `MWAIT` can name. -/
theorem condU_iff {c x y : Nat} (hc : c < 6) : condU c x y = true ↔
    (c = 0 ∧ x = y) ∨ (c = 1 ∧ x ≠ y) ∨ (c = 2 ∧ x < y) ∨ (c = 3 ∧ x ≤ y) ∨ (c = 4 ∧ x > y) ∨ (c = 5 ∧ x ≥ y) := by
  interval_cases c <;> simp [condU]

/-- R252: no older write of the cohort, nor one of its core that a load may have returned, touches the bytes. -/
theorem State.behindWrite_eq_false {c n : Nat} {h : Cohort}
    (hstores : ∀ st ∈ h.stores, ∀ a ∈ st.lanes, ∀ p b,
      (s.findNow c h.asid (s.gangOf c h) st.kind.acc a.va).1 = .ok p b → p + st.size ≤ pa ∨ pa + n ≤ p)
    (haccs : ∀ e ∈ s.accs, e.2.core = c → e.2.stage = 0 → e.2.kind ≠ .load → ∀ a ∈ e.2.lanes, a.pa + e.2.size ≤ pa ∨ pa + n ≤ a.pa) :
    s.behindWrite c h pa n = false := by
  rw [State.behindWrite, Bool.or_eq_false_iff]
  constructor
  · rw [List.any_eq_false]
    intro st hst
    rw [Bool.not_eq_true, List.any_eq_false]
    intro a ha
    split
    · next p b hfound =>
      have hapart := hstores st hst a ha p b hfound
      simp only [Bool.and_eq_true, decide_eq_true_eq]
      omega
    · exact Bool.false_ne_true
  · rw [List.any_eq_false]
    intro e he htouch
    simp only [touches, Bool.and_eq_true, beq_iff_eq, bne_iff_ne, List.any_eq_true, decide_eq_true_eq] at htouch
    obtain ⟨⟨⟨hcore, hstage⟩, hkind⟩, a, ha, hbefore, hafter⟩ := htouch
    have hapart := haccs e he hcore hstage hkind a ha
    omega

theorem State.mwaitAddr_of_found (hfound : s.find w.c w.h.asid (s.gangOf w.c w.h) .load (w.h.uq o.a).toNat = .ok pa sm) (hhome : isHomed pa = true) :
    s.mwaitAddr w o = .ok pa sm := by
  rw [State.mwaitAddr, State.findNow_of_found hfound]
  exact if_pos hhome

/-- What an `MWAIT` names. -/
def usesMwait (o : OpMwait) : Uses := { us := [o.a, o.v], acc := 0x80, path := some 0 }

theorem mwait_misaligned (c : Clear s w (usesMwait o)) (hbad : (w.h.uq o.a).toNat % OpWidth o ≠ 0) :
    Stops s w (exec (.mwait o) s) 11 1 (w.h.uq o.a).toNat := by
  rw [exec_mwait, execMwait]
  exact issue_traps (b := { code := 11, sub := 1, addr := (w.h.uq o.a).toNat }) c (if_pos (bne_iff_ne.2 hbad))

section
variable (c : Clear s w (usesMwait o)) (hva : (w.h.uq o.a).toNat % OpWidth o = 0)
  (hfound : s.find w.c w.h.asid (s.gangOf w.c w.h) .load (w.h.uq o.a).toNat = .ok pa sm) (hhome : isHomed pa = true)
include c hva hfound hhome

theorem mwait_reads (hfree : s.behindWrite w.c w.h pa (OpWidth o) = false) (hready : s.readReady (pa / 128) = true) :
    exec (.mwait o) s = .next ((s.onward w).mwaitAt w o pa) := by
  have hfound' : (s.onward w).find w.c w.h.asid ((s.onward w).gangOf w.c w.h) .load (w.h.uq o.a).toNat = .ok pa sm := by
    rw [State.onward, State.find_setCohort, State.gangOf_setCohort, hfound]
  have hcheck : mwaitCheck o w s = none := by
    rw [mwaitCheck, State.mwaitAddr_of_found hfound hhome]
    exact if_neg (by simp [hva])
  have hhold : mwaitHold o w s = none := by
    rw [mwaitHold, State.mwaitAddr_of_found hfound hhome]
    exact if_neg (by simp [hfree, hready])
  rw [exec_mwait, execMwait]
  refine (issue_runs c hcheck hhold).trans (congrArg _ ?_)
  change (match ((s.onward w).findNow w.c w.h.asid ((s.onward w).gangOf w.c w.h) .load (w.h.uq o.a).toNat).2.mwaitAddr w o with
    | .ok pa _ => ((s.onward w).findNow w.c w.h.asid ((s.onward w).gangOf w.c w.h) .load (w.h.uq o.a).toNat).2.mwaitAt w o pa
    | _ => ((s.onward w).findNow w.c w.h.asid ((s.onward w).gangOf w.c w.h) .load (w.h.uq o.a).toNat).2) = _
  rw [State.findNow_of_found hfound', State.mwaitAddr_of_found hfound' hhome]

end

/-! What the read finds (R128, R280). -/

/-- The cohort parked, or its handler, with the monitor that the next number names. -/
def Who.parkedAt (w : Who) (p : Parked) : Cohort := if w.h.handler then { w.gone with hparked := some p } else { w.gone with parked := some p }

/-- The value that an `MWAIT` compares with. -/
def Who.compared (w : Who) (o : OpMwait) : Nat := (w.h.uq o.v).toNat % 256 ^ OpWidth o

section
variable (hhome : isHomed pa = true) (halign : pa % OpWidth o = 0) (hshadow : Tbl.find? s.shadows (pa / 128) = none)
  (hsound : s.poisoned pa (OpWidth o) = false)
include hhome halign hshadow hsound

/-- The condition decides, and then the slice's monitors do, in the state `u` in which the line has been read. -/
theorem State.mwaitAt_eq {u : State} (hu : (s.onward w).lineRead (pa / 128) 2 = u) : (s.onward w).mwaitAt w o pa =
    if condU o.c (Mem.rdN s.mem pa (OpWidth o)) (w.compared o) then
      (u.setCohort w.c w.k ((w.gone.setPred o.p (w.h.active w.sp) (BitVec.allOnes 32)).order 2 0x80 0xc0)).pushOnce .fenceComplete [w.c, w.k]
    else if 256 ≤ s.armedAt (homeOf pa) then u.setCohort w.c w.k (w.gone.setPred o.p (w.h.active w.sp) 0)
    else ({ u with
      nextId := s.nextId + 1
      monitors := Tbl.put s.monitors s.nextId
        { id := s.nextId, addr := pa, wide := o.w == 1, cond := o.c, cmp := w.compared o, uid := w.h.uid, asid := w.h.asid, core := w.c, slot := w.k }
      } : State).setCohort w.c w.k (w.parkedAt { split := w.i, pred := o.p, mon := s.nextId }) := by
  have hread : (s.onward w).homeRead pa (OpWidth o) 2 = (Mem.rdN s.mem pa (OpWidth o), u) :=
    hu ▸ State.homeRead_word (s := s.onward w) halign (OpWidth_or o) hhome hshadow 2
  have hframe := hu ▸ (s.onward w).lineRead_frame (pa / 128) 2
  have hsound' : u.poisoned pa (OpWidth o) = false := (congrArg (fun x : State => x.poisoned pa (OpWidth o)) hframe :).trans hsound
  have harmed : u.armedAt (homeOf pa) = s.armedAt (homeOf pa) := (congrArg (fun x : State => x.armedAt (homeOf pa)) hframe :)
  have hid : u.nextId = s.nextId := (congrArg State.nextId hframe :)
  have hmonitors : u.monitors = s.monitors := (congrArg State.monitors hframe :)
  have hcores : u.cores = (s.onward w).cores := (congrArg State.cores hframe :)
  have hcohort : u.cohort? w.c w.k = some w.gone := by
    rw [State.cohort?, State.core, hcores]
    exact State.cohort?_setCohort_self ..
  rw [State.mwaitAt, hread]
  dsimp only
  rw [hsound', if_neg Bool.false_ne_true, harmed, hid, hmonitors]
  refine ite_congr rfl (fun _ => ?_) fun _ => ite_congr rfl (fun _ => ?_) fun _ => ?_
  · rw [State.acquireDev, State.onCohort_some hcohort, State.onCohort_some (State.cohort?_setCohort_self ..), State.setCohort_setCohort]
  · exact State.onCohort_some hcohort _
  · refine State.onCohort_some (h := w.gone) ?_ _
    exact hcohort

end

end

/-- Settles O32: `mwait_reads` leaves the read at its home, and `State.mwaitAt_eq` says what it finds. -/
theorem monitorResults : Obligations.MonitorResults := by
  unfold Obligations.MonitorResults
  intro s w o pa sm c n va m v act cond leaves
  refine ⟨mwait_misaligned c, fun hva ho hfound hhome halign hshadow hsound hstores haccs hready => ?_⟩
  have hcond : condU o.c (Mem.rdN s.mem pa (OpWidth o)) (w.compared o) = true ↔ cond := condU_iff ho
  have hexec := mwait_reads c hva hfound hhome (State.behindWrite_eq_false hstores haccs) hready
  rw [State.mwaitAt_eq hhome halign hshadow hsound rfl] at hexec
  have leaves_of {t : State} {h : Cohort} {due : List Due} (hi : exec (.mwait o) s = .next t)
      (ht : OnlyDue (((s.onward w).lineRead (pa / 128) 2).setCohort w.c w.k h) t) (hdue : ∀ d ∈ due, d ∈ t.agenda) : leaves h due := by
    obtain ⟨hcohort, hothers, hrest⟩ := State.rest_of_lineRead ht
    exact ⟨t, hi, hcohort, hothers, hdue, hrest⟩
  refine ⟨fun hyes => ?_, fun hno hfull => ?_, fun hno hroom => ?_⟩
  · rw [if_pos (hcond.2 hyes)] at hexec
    have hfences : (w.gone.setPred o.p act (BitVec.allOnes 32)).order 2 0x80 0xc0 = { w.gone.setPred o.p act (BitVec.allOnes 32) with
        fences := w.h.fences ++ [{ seq := w.h.seq + 2, scope := 2, pred := 0x80, succ := 0xc0, paths := 0, handler := w.h.handler }] } := by
      unfold Cohort.order Cohort.setPred
      split <;> rfl
    rw [hfences] at hexec
    exact leaves_of hexec (.pushOnce ..) (List.forall_mem_singleton.2 (State.mem_pushOnce ..))
  · rw [if_neg (mt hcond.1 hno), if_pos hfull] at hexec
    exact leaves_of hexec (.refl _) (List.forall_mem_nil _)
  · rw [if_neg (mt hcond.1 hno), if_neg (Nat.not_le.2 hroom)] at hexec
    have hmem : ((s.onward w).lineRead (pa / 128) 2).mem = s.mem := (congrArg State.mem ((s.onward w).lineRead_frame (pa / 128) 2) :)
    exact ⟨_, hexec, State.cohort?_setCohort_self .., rfl, hmem⟩

end Sys2Proof.Machine
end

section
/-! SUPPORT. Rows of cohorts: joins and yields (R113, R114, R122). -/

namespace Sys2Proof.Machine

open Sys2Proof

/-! Lanes that go on as one split (R113). -/

/-- R113: the split in which the lanes arrived at a record go on. -/
def Cohort.rejoined (h : Cohort) (j : Join) : Split :=
  { pc := j.addr, entry := j.arrived &&& ~~~h.dmask, exec := j.mexec &&& (j.arrived &&& ~~~h.dmask), frm := j.frm, dph := j.dph, join := j.parent }

/-- R111: a split stands in an entry or in the overflow area. -/
def Cohort.Holds (h : Cohort) (z : Split) : Prop := (∃ i, h.split? i = some z) ∨ z ∈ h.overflow

theorem Placed.holds {h h' : Cohort} {z : Split} (hp : Placed h z h') : h'.Holds z := by
  cases hfree : Tbl.lowestFree h.splits 8 with
  | some i => exact .inl ⟨i, (hp.free i hfree).1⟩
  | none => exact .inr (by rw [(hp.full hfree).1]; exact List.mem_cons_self)

section
variable {h : Cohort} {n : Nat} {j : Join}

/-- `Merge` of R113 changes the splits and the records alone. -/
theorem Cohort.merge_only (h : Cohort) (n : Nat) : { h.merge n with splits := h.splits, overflow := h.overflow, joins := h.joins } = h := by
  unfold Cohort.merge
  split
  · rfl
  · next j hj =>
    have hnew (p : Prop) [Decidable p] (z : Split) :
        { (if p then h else h.newSplit z) with splits := h.splits, overflow := h.overflow, joins := h.joins } = h := by
      split
      · rfl
      · exact (congrArg (fun x : Cohort => { x with joins := h.joins }) (h.newSplit_placed z).same :)
    dsimp only
    split
    · exact hnew ..
    · exact hnew ..

/-- R113: the lanes arrived that are not grey go on as one split at the join address. -/
theorem Cohort.merge_holds (hj : Tbl.find? h.joins n = some j) (hsome : j.arrived &&& ~~~h.dmask ≠ 0) : (h.merge n).Holds (h.rejoined j) := by
  rw [Cohort.merge, hj]
  dsimp only
  rw [if_neg hsome]
  split
  · exact (h.newSplit_placed _).holds
  · exact (h.newSplit_placed _).holds

end

/-! A split freed (R111). -/

section
variable {h : Cohort} {i : Nat}

theorem Cohort.freeSplit_only (h : Cohort) (i : Nat) : { h.freeSplit i with splits := h.splits, overflow := h.overflow } = h := by
  unfold Cohort.freeSplit
  split <;> rfl

theorem Cohort.overflow_freeSplit (h : Cohort) (i : Nat) : (h.freeSplit i).overflow = h.overflow.tail := by
  unfold Cohort.freeSplit
  split
  · next hnone => rw [hnone, List.tail_nil]
  · next o r hsome => rw [hsome, List.tail_cons]

theorem Cohort.split?_freeSplit_ne (h : Cohort) {i k : Nat} (hk : k ≠ i) : (h.freeSplit i).split? k = h.split? k := by
  unfold Cohort.freeSplit
  split
  · exact Tbl.find?_del_ne _ hk
  · exact (Tbl.find?_put_ne _ _ hk).trans (Tbl.find?_del_ne _ hk)

end

/-! A split that arrives (R113, R114). -/

/-- R114: a bound changes a record's timer alone. -/
theorem State.joinBound_only (s : State) (c k : Nat) (h : Cohort) (j : Join) : ∃ timer run, s.joinBound c k h j = { j with timer := timer, run := run } := by
  unfold State.joinBound
  split
  · exact ⟨_, _, rfl⟩
  · split
    · exact ⟨_, _, rfl⟩
    · exact ⟨_, _, rfl⟩

/-- R113: the cohort after its split has arrived at a record. -/
def Cohort.arrivedBy (h : Cohort) (n i : Nat) (j : Join) (sp : Split) : Cohort :=
  ({ h with joins := Tbl.put h.joins n (j.add sp) } : Cohort).freeSplit i

section
variable {s : State} {c k i n : Nat} {h : Cohort} {sp : Split} {j : Join}

theorem Cohort.arrivedBy_only : { h.arrivedBy n i j sp with splits := h.splits, overflow := h.overflow } = { h with joins := Tbl.put h.joins n (j.add sp) } :=
  Cohort.freeSplit_only ..

theorem Cohort.joins_arrivedBy : (h.arrivedBy n i j sp).joins = Tbl.put h.joins n (j.add sp) := (congrArg Cohort.joins Cohort.arrivedBy_only :)

theorem Cohort.awaited_arrivedBy (x : Join) : (h.arrivedBy n i j sp).awaited x = h.awaited x :=
  (congrArg (fun y : Cohort => y.awaited x) (Cohort.arrivedBy_only (h := h) (n := n) (i := i) (j := j) (sp := sp)) :)

variable (hev : s.ev = [c, k, i]) (hh : s.cohort? c k = some h) (hsp : h.split? i = some sp) (hissue : h.mayIssue = true) (hready : sp.state = 0)
  (hn : sp.join = some n) (hj : Tbl.find? h.joins n = some j) (haddr : j.addr = sp.pc)
include hev hh hsp hissue hready hn hj haddr

theorem joinArrive_eq : exec .joinArrive s = .next (
    if h.awaited (j.add sp) = 0 then s.setCohort c k ((h.arrivedBy n i j sp).merge n)
    else s.setCohort c k { h.arrivedBy n i j sp with
      joins := Tbl.put (h.arrivedBy n i j sp).joins n (s.joinBound c k (h.arrivedBy n i j sp) (j.add sp)) }) := by
  have hthere : h.atJoin sp = true := by simp [Cohort.atJoin, hn, hj, haddr]
  have hargs : s.arg 0 = c ∧ s.arg 1 = k ∧ s.arg 2 = i := by simp [State.arg, hev]
  have hrecord : Tbl.at h.joins n {} = j := Tbl.at_of_find? _ hj
  have hawaited : (h.arrivedBy n i j sp).awaited (j.add sp) = h.awaited (j.add sp) := Cohort.awaited_arrivedBy _
  obtain ⟨hc, hk, hi⟩ := hargs
  rw [exec_joinArrive, execJoinArrive, hc, hk, hi, State.joinArrive, hh]
  dsimp only
  rw [hsp]
  dsimp only
  rw [hthere, hready, hissue, if_neg (by decide), hn, Option.getD_some, hrecord, ← hawaited]
  rfl

theorem joinArrive_merges (hnone : h.awaited (j.add sp) = 0) : exec .joinArrive s = .next (s.setCohort c k ((h.arrivedBy n i j sp).merge n)) := by
  rw [joinArrive_eq hev hh hsp hissue hready hn hj haddr, if_pos hnone]

theorem joinArrive_parks (hsome : h.awaited (j.add sp) ≠ 0) : exec .joinArrive s = .next (s.setCohort c k { h.arrivedBy n i j sp with
      joins := Tbl.put (h.arrivedBy n i j sp).joins n (s.joinBound c k (h.arrivedBy n i j sp) (j.add sp)) }) := by
  rw [joinArrive_eq hev hh hsp hissue hready hn hj haddr, if_neg hsome]

end

/-! Bounds and yields that run out (R114, R122). -/

section
variable {s : State} {c k i n : Nat} {h : Cohort} {sp : Split} {j : Join}

/-- R114: where no split stands at the join address, the lanes arrived go on. -/
theorem rwaitTimeout_merges (hev : s.ev = [c, k, n]) (hh : s.cohort? c k = some h) (hj : Tbl.find? h.joins n = some j) (hrun : j.run = true)
    (hover : j.timer = 0) (hlive : h.stopped = false) (hnone : ∀ e ∈ h.splits, e.2.join = some n → h.atJoin e.2 = false) :
    exec .rwaitTimeout s = .next (s.setCohort c k (h.merge n)) := by
  have hout : h.boundOut n = true := by simp [Cohort.boundOut, hj, hrun, hover]
  have hhere : List.filter (fun (e : Nat × Split) => e.2.join == some n && h.atJoin e.2) h.splits = [] := by
    rw [List.filter_eq_nil_iff]
    intro e he hcond
    rw [Bool.and_eq_true, beq_iff_eq] at hcond
    exact absurd hcond.2 (by simp [hnone e he hcond.1])
  have hargs : s.arg 0 = c ∧ s.arg 1 = k ∧ s.arg 2 = n := by simp [State.arg, hev]
  obtain ⟨hc, hk, hn⟩ := hargs
  rw [exec_rwaitTimeout, execRwaitTimeout, hc, hk, hn, hh]
  dsimp only
  rw [hout, hlive, if_pos (by decide), hhere, List.foldl_nil, hh, if_neg (by simp [hout])]

/-- An entry is changed by what a function makes of it. -/
theorem Tbl.adj_congr {α : Type} {t : Tbl α} {k : Nat} {a : α} {f g : α → α} (h : Tbl.find? t k = some a) (hfg : f a = g a) :
    Tbl.adj t k f = Tbl.adj t k g := by
  induction t with
  | nil => rfl
  | cons e r ih =>
    obtain ⟨m, b⟩ := e
    by_cases hm : m = k
    · obtain rfl : b = a := by simpa [Tbl.find?, hm] using h
      simp [Tbl.adj, hm, hfg]
    · have hr : Tbl.find? r k = some a := by simpa [Tbl.find?, hm] using h
      simp [Tbl.adj, hm, ih hr]

theorem Cohort.onSplit_congr {f g : Split → Split} (hsp : h.split? i = some sp) (hfg : f sp = g sp) : h.onSplit i f = h.onSplit i g := by
  rw [Cohort.onSplit, Cohort.onSplit, Tbl.adj_congr hsp hfg]

theorem yieldExpire_ends (hev : s.ev = [c, k, i]) (hh : s.cohort? c k = some h) (hsp : h.split? i = some sp) (hyields : sp.state = 4)
    (hover : sp.timer = 0) (hlive : h.stopped = false) :
    exec .yieldExpire s = .next (s.setCohort c k (h.onSplit i fun y => { y with state := 0 })) := by
  have hargs : s.arg 0 = c ∧ s.arg 1 = k ∧ s.arg 2 = i := by simp [State.arg, hev]
  obtain ⟨hc, hk, hi⟩ := hargs
  have hends : h.onSplit i (fun y => if y.state = 4 ∧ y.timer = 0 then { y with state := 0 } else y) = h.onSplit i fun y => { y with state := 0 } :=
    Cohort.onSplit_congr hsp (if_pos ⟨hyields, hover⟩)
  rw [exec_yieldExpire, execYieldExpire, hc, hk, hi, hh]
  dsimp only
  rw [hlive, if_neg Bool.false_ne_true, hends]

end

end Sys2Proof.Machine
end

section
/-! SUPPORT. Rows of barriers, monitors and channels (R125, R127 to R129, R134, R281). -/

namespace Sys2Proof.Machine

open Sys2Proof

/-! Cohorts of a block changed, and their fences looked at. -/

namespace GoesOn

variable {s t : State}

theorem foldl {α : Type} {f : State → α → State} (hf : ∀ t a, GoesOn t (f t a)) (s : State) (l : List α) : GoesOn s (l.foldl f s) :=
  List.foldlRecOn l f (motive := GoesOn s) (refl s) fun t ht a _ => ht.trans (hf t a)

theorem onBlockCohorts (s : State) (c b : Nat) (f : Cohort → Cohort) : GoesOn s (s.onCore c fun co => co.onBlockCohorts b f) :=
  onCore s c fun _ => rfl

theorem nudgeFences (s : State) (c b : Nat) : GoesOn s (s.nudgeFences c b) :=
  foldl (f := fun t (e : Nat × Cohort) => if e.2.slot = b && !e.2.fences.isEmpty then t.pushOnce .fenceComplete [c, e.1] else t)
    (fun t _ => .ite (pushOnce t ..) (refl t)) s _

theorem gangs (h : GoesOn s t) : t.gangs = s.gangs := (congrArg State.gangs h.rest :)

theorem chans (h : GoesOn s t) : t.chans = s.chans := (congrArg State.chans h.rest :)

end GoesOn

/-! The barrier unit takes an arrival (R125). -/

section
variable {s : State} {c b n clock cid count : Nat} {bl : Block} {queue : List (Nat × Nat × Nat)}

/-- The phase flips, and the barrier is empty but for the arrivals that wait. -/
theorem State.completeBarrier_block? (hb : s.block? c b = some bl) :
    (s.completeBarrier c b n).block? c b =
      some { bl with bars := Tbl.put bl.bars n { phase := !(Tbl.at bl.bars n {}).phase, queue := (Tbl.at bl.bars n {}).queue } } ∧
    (s.completeBarrier c b n).mem = s.mem := by
  rw [State.completeBarrier, hb]
  dsimp only
  have hgoes := fun (t : State) (f : Cohort → Cohort) => (GoesOn.onBlockCohorts t c b f).trans (GoesOn.nudgeFences _ c b)
  exact ⟨((hgoes _ _).block? c b).trans (State.block?_setBlock_self ..), (hgoes _ _).mem⟩

/-- R125: a barrier that has taken an arrival: where its phase is complete, the phase flips. -/
def Barrier.settled (r : Barrier) (live : List Nat) : Barrier := if r.complete live then { phase := !r.phase, queue := r.queue } else r

/-- R125: the barrier unit has taken an arrival in this cycle: the barrier is `r`, and the block's cohorts are told. -/
def State.tookArrival (s : State) (c b n : Nat) (bl : Block) (r : Barrier) (f : Cohort → Cohort) : State :=
  (s.setBlock c b { bl with bars := Tbl.put bl.bars n r }).onCore c fun co => { co.onBlockCohorts b f with barClk := co.lclk + 1 }

theorem State.tookArrival_block? (r : Barrier) (f : Cohort → Cohort) :
    (s.tookArrival c b n bl r f).block? c b = some { bl with bars := Tbl.put bl.bars n r } := by
  rw [State.block?, State.tookArrival, State.core_onCore_self]
  exact State.block?_setBlock_self ..

variable (hev : s.ev = [c, b, n]) (hb : s.block? c b = some bl) (hq : (Tbl.at bl.bars n {}).queue = (clock, cid, count) :: queue)
include hev hb hq

theorem barrierArrivalTaken_waits (hnot : (s.core c).mayTake (clock, cid, count) = false) :
    exec .barrierArrivalTaken s = .next (s.pushOnce .barrierArrivalTaken [c, b, n]) := by
  have hargs : s.arg 0 = c ∧ s.arg 1 = b ∧ s.arg 2 = n := by simp [State.arg, hev]
  obtain ⟨h0, h1, h2⟩ := hargs
  rw [exec_barrierArrivalTaken, execBarrierArrivalTaken, h0, h1, h2, hb]
  dsimp only
  rw [hq]
  dsimp only
  rw [hnot]
  rfl

theorem barrierArrivalTaken_takes (hmay : (s.core c).mayTake (clock, cid, count) = true) : Answers s .barrierArrivalTaken fun t =>
    t.block? c b = some { bl with bars := Tbl.put bl.bars n (((Tbl.at bl.bars n {}).take cid (min count bl.ncohorts)).settled bl.live) } ∧
    t.mem = s.mem := by
  have hargs : s.arg 0 = c ∧ s.arg 1 = b ∧ s.arg 2 = n := by simp [State.arg, hev]
  obtain ⟨h0, h1, h2⟩ := hargs
  set r := (Tbl.at bl.bars n {}).take cid (min count bl.ncohorts) with hr
  set t := s.tookArrival c b n bl r fun h => if h.cohortid = cid then
    h.flagMismatch ((Tbl.at bl.bars n {}).who != [] && min count bl.ncohorts != (Tbl.at bl.bars n {}).expected) else h with ht
  set u := if r.complete bl.live then t.completeBarrier c b n else t with hu
  have hrow : OnlyDue u (if queue = [] then u else u.pushOnce .barrierArrivalTaken [c, b, n]) := .ite (.refl u) (.pushOnce ..)
  refine ⟨if queue = [] then u else u.pushOnce .barrierArrivalTaken [c, b, n], ?_, ?_⟩
  · rw [exec_barrierArrivalTaken, execBarrierArrivalTaken, h0, h1, h2, hb]
    dsimp only
    rw [hq]
    dsimp only
    rw [hmay, if_neg (by decide)]
    rfl
  · have hblock : t.block? c b = some { bl with bars := Tbl.put bl.bars n r } := State.tookArrival_block? ..
    dsimp only
    rw [hrow.block?, hrow.mem, hu, Barrier.settled]
    split
    · obtain ⟨hcompleted, hmem⟩ := State.completeBarrier_block? (n := n) hblock
      rw [Tbl.at_put_self, Tbl.put_put] at hcompleted
      exact ⟨hcompleted, hmem⟩
    · exact ⟨hblock, rfl⟩

end

/-! The message of a gang's other side (R127). -/

theorem GangBar.next_eq (r o : GangBar) : r.next o = { phase := !r.phase, expected := if o.phase = r.phase then 0 else o.expected } := by
  unfold GangBar.next
  by_cases h : o.phase = r.phase <;> simp [h]

section
variable {s : State} {gid n d : Nat} {g : Gang}

/-- The state in which the message has been seen. -/
def State.sawMessage (s : State) (gid m : Nat) (g : Gang) (r : GangBar) : State :=
  { s with gangs := Tbl.put s.gangs gid { g with bars := Tbl.put g.bars m { r with seen := true } } }

variable (hev : s.ev = [gid, n, d]) (hg : Tbl.find? s.gangs gid = some g)
include hev hg

theorem gbarPhaseMessage_waits (hseen : (Tbl.at g.bars (2 * n + (1 - d)) {}).seen = true) :
    exec .gbarPhaseMessage s = .next (s.push .gbarPhaseMessage [gid, n, d]) := by
  have hargs : s.arg 0 = gid ∧ s.arg 1 = n ∧ s.arg 2 = d := by simp [State.arg, hev]
  obtain ⟨h0, h1, h2⟩ := hargs
  rw [exec_gbarPhaseMessage, execGbarPhaseMessage, h0, h1, h2, hg]
  exact if_pos hseen

theorem gbarPhaseMessage_seen (hnew : (Tbl.at g.bars (2 * n + (1 - d)) {}).seen = false) : exec .gbarPhaseMessage s =
    .next ((s.sawMessage gid (2 * n + (1 - d)) g (Tbl.at g.bars (2 * n + (1 - d)) {})).releaseSide gid n (1 - d)) := by
  have hargs : s.arg 0 = gid ∧ s.arg 1 = n ∧ s.arg 2 = d := by simp [State.arg, hev]
  obtain ⟨h0, h1, h2⟩ := hargs
  rw [exec_gbarPhaseMessage, execGbarPhaseMessage, h0, h1, h2, hg]
  exact if_neg (by rw [hnew]; exact Bool.false_ne_true)

end

section
variable {s : State} {gid n d : Nat} {g : Gang} (hg : Tbl.find? s.gangs gid = some g)
include hg

/-- A side whose own phase is not complete is not released. -/
theorem State.releaseSide_waits (hopen : (Tbl.at g.bars (2 * n + d) {}).done = false) : s.releaseSide gid n d = s := by
  rw [State.releaseSide, hg]
  exact if_neg (by rw [hopen, Bool.false_and]; exact Bool.false_ne_true)

/-- A side that is released goes on to its next phase. -/
theorem State.releaseSide_releases (hdone : (Tbl.at g.bars (2 * n + d) {}).done = true) (hseen : (Tbl.at g.bars (2 * n + d) {}).seen = true) :
    (s.releaseSide gid n d).mem = s.mem ∧ (s.releaseSide gid n d).gangs = Tbl.put s.gangs gid { g with
      bars := Tbl.put g.bars (2 * n + d) ((Tbl.at g.bars (2 * n + d) {}).next (Tbl.at g.bars (2 * n + (1 - d)) {})) } := by
  rw [State.releaseSide, hg]
  dsimp only
  rw [hdone, hseen, if_pos (by simp)]
  have hmember (t : State) (k : Nat) : GoesOn t (match t.member gid k with
      | none => t
      | some (c, b, _) => if g.side k = d then (t.onCore c fun co => co.onBlockCohorts b (·.gangDone n)).nudgeFences c b else t) := by
    split
    · exact .refl t
    · exact .ite ((GoesOn.onBlockCohorts ..).trans (GoesOn.nudgeFences ..)) (.refl t)
  have hgoes := GoesOn.foldl hmember { s with gangs := Tbl.put s.gangs gid { g with
    bars := Tbl.put g.bars (2 * n + d) ((Tbl.at g.bars (2 * n + d) {}).next (Tbl.at g.bars (2 * n + (1 - d)) {})) } } (List.range g.members.length)
  exact ⟨hgoes.mem, hgoes.gangs⟩

end

/-! Monitors (R128, R129). -/

section
variable {s : State} {uid mon c k : Nat} {h : Cohort} {p : Parked} (hev : s.ev = [uid, mon]) (hwhere : s.whereIs uid = some (c, k))
  (hh : s.cohort? c k = some h) (hhandler : h.hparked = none) (hparked : h.parked = some p) (hmon : p.mon = mon)
include hev hwhere hh hhandler hparked hmon

theorem monitorWake_eq : exec .monitorWake s =
    if h.stopped || h.handler then .next (s.setCohort c k { h with wake := h.wake ||| 2 })
    else .next ((s.setCohort c k h.wakeUp).acquireDev c k) := by
  rw [exec_monitorWake, execMonitorWake, State.arg_zero hev, State.arg_one hev, hwhere]
  dsimp only
  rw [hh]
  dsimp only
  rw [hhandler, hparked, Option.any_none, if_neg Bool.false_ne_true, Option.any_some, hmon, beq_self_eq_true, if_pos rfl]

/-- R128: a cohort that runs is woken with status 1 and the order of an acquire. -/
theorem monitorWake_wakes (hlive : h.stopped = false) (hprogram : h.handler = false) {sp : Split} (hsp : h.split? p.split = some sp) :
    exec .monitorWake s = .next ((s.setCohort c k
      (Cohort.order { h.setPred p.pred (h.active sp) (BitVec.allOnes 32) with parked := none, wake := 0 } 2 0x80 0xc0)).pushOnce .fenceComplete [c, k]) := by
  have hwoken : h.wakeUp = { h.setPred p.pred (h.active sp) (BitVec.allOnes 32) with parked := none, wake := 0 } := by
    rw [Cohort.wakeUp, hparked]
    dsimp only
    rw [Cohort.answered, hsp]
  rw [monitorWake_eq hev hwhere hh hhandler hparked hmon, hlive, hprogram, if_neg (by decide), State.acquireDev,
    State.onCohort_some (State.cohort?_setCohort_self ..), State.setCohort_setCohort, hwoken]

/-- R129: a stopped cohort keeps the firing in its wake word. -/
theorem monitorWake_keeps (hstopped : h.stopped = true) : exec .monitorWake s = .next (s.setCohort c k { h with wake := h.wake ||| 2 }) := by
  rw [monitorWake_eq hev hwhere hh hhandler hparked hmon, hstopped, if_pos (by simp)]

end

/-! Channels (R134, R281). -/

section
variable {s : State} {c k i : Nat} {h : Cohort} {sp : Split} {l : Launch}

/-- The word at a split's address, as a trap's frame has it. -/
def State.wordUnder (s : State) (c : Nat) (h : Cohort) (sp : Split) : Nat :=
  match (s.fetchAt c h.asid (s.gangOf c h) sp.pc.toNat).1 with
  | .bytes b => leNat b
  | .bad .. => 0

/-- R134: a cohort held for the watchdog's count stops. -/
theorem channelStall_stops (hev : s.ev = [c, k, i]) (hh : s.cohort? c k = some h) (hsp : h.split? i = some sp) (hwaits : sp.state = 3)
    (hl : Tbl.find? s.launches h.launch = some l) (hdog : l.wdog ≠ 0) (hover : l.wdog ≤ sp.timer) (hlive : h.stopped = false) (hprogram : h.handler = false) :
    exec .channelStall s = .next ((s.setCohort c k
      { h.halt with cause := some { code := 14, pc := sp.pc, word := s.wordUnder c h sp } }).pushOnce .trapEntry [c, k]) := by
  have hargs : s.arg 0 = c ∧ s.arg 1 = k ∧ s.arg 2 = i := by simp [State.arg, hev]
  obtain ⟨h0, h1, h2⟩ := hargs
  have hcond : ¬ (sp.state != 3 || l.wdog == 0 || decide (sp.timer < l.wdog) || h.stopped || h.handler) = true := by
    simp [hwaits, hdog, hover, hlive, hprogram]
  rw [exec_channelStall, execChannelStall, h0, h1, h2, hh]
  dsimp only
  rw [hsp]
  dsimp only
  rw [hl, Option.elim_some, if_neg hcond, State.trapWith, State.onCohort_some hh]
  rfl

end

/-- A split waits at a channel. -/
def Hold.atChannel (y : Hold) : Bool := match y with | .channel _ => true | _ => false

theorem State.chan_of_find {s : State} {id : Nat} {x : Chan} (hx : Tbl.find? s.chans id = some x) : s.chan id = x := Tbl.at_of_find? _ hx

section
variable {s : State} {id : Nat} {x : Chan} (hev : s.ev = [id]) (hx : Tbl.find? s.chans id = some x)
include hev hx

/-- R281: the oldest payload on its way comes into a slot. -/
theorem channelPacketReceive_fills {p : List Byte × List Nat} {flight : List (List Byte × List Nat)} (hflight : x.flight = p :: flight) :
    Answers s .channelPacketReceive fun t =>
      Tbl.find? t.chans id = some { x with flight := flight, full := x.full ++ [p] } ∧ t.mem = s.mem := by
  set t1 : State := { s with chans := Tbl.put s.chans id { x with flight := flight, full := x.full ++ [p] } }
  set t2 := t1.onCore x.receiver.1 fun co => co.onBlockCohorts x.receiver.2 fun h => h.retryAll Hold.atChannel
  have hack : (t2.ackChannel x).chans = t2.chans ∧ (t2.ackChannel x).mem = t2.mem := by
    unfold State.ackChannel
    split <;> exact ⟨rfl, rfl⟩
  have hgoes := GoesOn.checkBlock (t2.ackChannel x) x.sender.1 x.sender.2
  refine ⟨(t2.ackChannel x).checkBlock x.sender.1 x.sender.2, ?_, ?_, hgoes.mem.trans hack.2⟩
  · rw [exec_channelPacketReceive, execChannelPacketReceive, State.arg_zero hev, State.chan_of_find hx, hflight]
    rfl
  · rw [hgoes.chans, hack.1]
    exact Tbl.find?_put_self ..

/-- R281: a credit frees a slot. -/
theorem channelCredit_frees (hroom : x.free + x.flight.length + x.full.length < x.slots) : Answers s .channelCredit fun t =>
    Tbl.find? t.chans id = some { x with free := x.free + 1 } ∧ t.mem = s.mem := by
  set t : State := { s with chans := Tbl.put s.chans id { x with free := x.free + 1 } }
  refine ⟨t.onCore x.sender.1 fun co => co.onBlockCohorts x.sender.2 fun h => h.retryAll Hold.atChannel, ?_,
    Tbl.find?_put_self .., rfl⟩
  rw [exec_channelCredit, execChannelCredit, State.arg_zero hev, State.chan_of_find hx]
  exact if_neg (Nat.not_le.2 hroom)

end

/-! What the rows leave of the cohort and of the barrier. -/

section
variable {h : Cohort} {n i : Nat} {j x : Join} {sp : Split}

theorem Cohort.rejoined_arrivedBy : (h.arrivedBy n i j sp).rejoined x = h.rejoined x :=
  (congrArg (fun y : Cohort => y.rejoined x) (Cohort.arrivedBy_only (h := h) (n := n) (i := i) (j := j) (sp := sp)) :)

/-- R113: the lanes that have arrived go on, and no register changes. -/
theorem Cohort.merge_arrivedBy : ((j.add sp).arrived &&& ~~~h.dmask ≠ 0 → ((h.arrivedBy n i j sp).merge n).Holds (h.rejoined (j.add sp))) ∧
    SameLanes h ((h.arrivedBy n i j sp).merge n) ∧ SameUniform h ((h.arrivedBy n i j sp).merge n) ∧ SamePreds h ((h.arrivedBy n i j sp).merge n) := by
  have hgrey : (h.arrivedBy n i j sp).dmask = h.dmask := (congrArg Cohort.dmask Cohort.arrivedBy_only :)
  have hrecord : Tbl.find? (h.arrivedBy n i j sp).joins n = some (j.add sp) := by rw [Cohort.joins_arrivedBy, Tbl.find?_put_self]
  have hv : ((h.arrivedBy n i j sp).merge n).v = h.v :=
    (congrArg Cohort.v (Cohort.merge_only ..) :).trans (congrArg Cohort.v Cohort.arrivedBy_only :)
  have hq : ((h.arrivedBy n i j sp).merge n).q = h.q :=
    (congrArg Cohort.q (Cohort.merge_only ..) :).trans (congrArg Cohort.q Cohort.arrivedBy_only :)
  have hp : ((h.arrivedBy n i j sp).merge n).p = h.p :=
    (congrArg Cohort.p (Cohort.merge_only ..) :).trans (congrArg Cohort.p Cohort.arrivedBy_only :)
  refine ⟨fun hsome => ?_, fun r => ?_, fun r => ?_, fun r => ?_⟩
  · rw [← Cohort.rejoined_arrivedBy (n := n) (i := i) (j := j) (sp := sp)]
    exact Cohort.merge_holds hrecord (by rwa [hgrey])
  · rw [Cohort.vreg, hv, Cohort.vreg]
  · rw [Cohort.uq, Cohort.utag, hq]
    exact ⟨rfl, rfl⟩
  · rw [Cohort.pred, hp, Cohort.pred]

end

theorem Cohort.setPred_only (h : Cohort) (d : Nat) (m x : Mask) : ∃ p, h.setPred d m x = { h with p := p } := by
  unfold Cohort.setPred
  split
  · exact ⟨_, rfl⟩
  · exact ⟨_, rfl⟩

/-- R128: a status goes into its predicate alone. -/
theorem Cohort.setPred_status (h : Cohort) (d : Nat) (m x : Mask) :
    let h' := ({ h.setPred d m x with parked := none, wake := 0 } : Cohort).order 2 0x80 0xc0
    h'.parked = none ∧ PredSet h h' d m x ∧ SameLanes h h' ∧ SameUniform h h' := by
  obtain ⟨p, hp⟩ := h.setPred_only d m x
  have hset := h.setPred_set d m x
  rw [hp] at hset ⊢
  exact ⟨rfl, ⟨hset.bits, hset.one, hset.others⟩, fun _ => rfl, fun _ => ⟨rfl, rfl⟩⟩

theorem CoreSt.mayTake_iff {co : CoreSt} {clock cid count : Nat} : co.mayTake (clock, cid, count) = true ↔
    clock < co.lclk ∧ co.barClk ≤ co.lclk ∧ ∀ m ∈ co.arrivals, clock * 64 + cid ≤ m := by
  simp [CoreSt.mayTake, and_assoc]

theorem Barrier.complete_take_iff {r : Barrier} {cid count : Nat} {live : List Nat} : (r.take cid count).complete live = true ↔
    if (r.take cid count).expected = 0 then ∀ y ∈ live, y ∈ (r.take cid count).who else (r.take cid count).expected ≤ (r.take cid count).arrived := by
  have harrived : (r.take cid count).arrived = r.arrived + 1 := rfl
  rw [Barrier.complete]
  split <;> simp [harrived]

/-- Settles O45, row by row. -/
theorem cohortRowResults : Obligations.CohortRowResults := by
  unfold Obligations.CohortRowResults
  intro s c k i n b d uid mon id h sp j bl g p l x y flight queue clock becomes merged
  refine ⟨?_, ?_, ?_, ?_, ?_, ?_, ?_, ?_⟩
  · intro hev hh hsp hissue hready hn hj haddr first y awaited
    refine ⟨fun hnone => ?_, fun hsome => ?_⟩
    · exact ⟨_, joinArrive_merges hev hh hsp hissue hready hn hj haddr hnone, Cohort.merge_arrivedBy⟩
    · obtain ⟨timer, run, hbound⟩ := s.joinBound_only c k (h.arrivedBy n i j sp) (j.add sp)
      have hexec := joinArrive_parks hev hh hsp hissue hready hn hj haddr hsome
      rw [hbound] at hexec
      exact ⟨_, _, hexec, Tbl.find?_put_self .., rfl, rfl, rfl, rfl, Cohort.overflow_freeSplit .., fun i' hi' => Cohort.split?_freeSplit_ne _ hi'⟩
  · intro hev hh hj hrun hover hlive hnone
    exact ⟨rwaitTimeout_merges hev hh hj hrun hover hlive hnone, Cohort.merge_holds hj⟩
  · intro hev hh hsp hyields hover hlive
    exact yieldExpire_ends hev hh hsp hyields hover hlive
  · intro hev hb r r' passed mine hq
    have htake : r.take id (min d bl.ncohorts) = r' := by rw [Barrier.take, hq]; rfl
    have hmine : (s.core c).mayTake (clock, id, d) = true ↔ mine := CoreSt.mayTake_iff
    have hpassed : r'.complete bl.live = true ↔ passed := htake ▸ Barrier.complete_take_iff
    have htakes := barrierArrivalTaken_takes hev hb hq
    rw [htake] at htakes
    refine ⟨fun hnot => ?_, fun hyes hopen => ?_, fun hyes hdone => ?_⟩
    · exact barrierArrivalTaken_waits hev hb hq (Bool.eq_false_iff.2 (mt hmine.1 hnot))
    · have h := htakes (hmine.2 hyes)
      rwa [Barrier.settled, if_neg (mt hpassed.1 hopen)] at h
    · have h := htakes (hmine.2 hyes)
      rwa [Barrier.settled, if_pos (hpassed.2 hdone)] at h
  · intro hev hg m r o
    refine ⟨gbarPhaseMessage_waits hev hg, fun hnew hopen => ?_, fun hnew hdone => ?_⟩
    all_goals
      have hseen := gbarPhaseMessage_seen hev hg hnew
      have hg' : Tbl.find? (s.sawMessage id m g r).gangs id = some { g with bars := Tbl.put g.bars m { r with seen := true } } := Tbl.find?_put_self ..
      have hmine : Tbl.at (Tbl.put g.bars m { r with seen := true }) (2 * n + (1 - d)) {} = { r with seen := true } := Tbl.at_put_self ..
    · rw [hseen, State.releaseSide_waits hg' (by rw [hmine]; exact hopen)]
      rfl
    · obtain ⟨hmem, hgangs⟩ := State.releaseSide_releases hg' (by rw [hmine]; exact hdone) (by rw [hmine])
      have hother : Tbl.at (Tbl.put g.bars m { r with seen := true }) (2 * n + (1 - (1 - d))) {} = o := Tbl.at_put_ne _ _ _ (by omega)
      rw [hmine, hother] at hgangs
      refine ⟨_, hseen, hmem, _, (congrArg (Tbl.find? · id) hgangs).trans (Tbl.find?_put_self ..), (Tbl.at_put_self ..).trans (GangBar.next_eq ..)⟩
  · intro hev hwhere hh hhandler hparked hmon
    refine ⟨fun hlive hprogram sp hsp => ?_, monitorWake_keeps hev hwhere hh hhandler hparked hmon⟩
    have hdue := OnlyDue.pushOnce (s.setCohort c k (Cohort.order { h.setPred p.pred (h.active sp) (BitVec.allOnes 32) with
      parked := none, wake := 0 } 2 0x80 0xc0)) .fenceComplete [c, k]
    exact ⟨_, monitorWake_wakes hev hwhere hh hhandler hparked hmon hlive hprogram hsp, _,
      (hdue.cohort? ..).trans (State.cohort?_setCohort_self ..), h.setPred_status ..⟩
  · intro hev hh hsp hwaits hl hdog hover hlive hprogram
    have hdue := OnlyDue.pushOnce (s.setCohort c k { h.halt with cause := some { code := 14, pc := sp.pc, word := s.wordUnder c h sp } }) .trapEntry [c, k]
    exact ⟨_, channelStall_stops hev hh hsp hwaits hl hdog hover hlive hprogram, _,
      (hdue.cohort? ..).trans (State.cohort?_setCohort_self ..), State.mem_pushOnce .., hdue.mem⟩
  · intro hev hx
    exact ⟨channelPacketReceive_fills hev hx, channelCredit_frees hev hx⟩

end Sys2Proof.Machine
end

section
/-! SUPPORT. What reads of memory by the hub and by walks leave alone (R276, R298, R322). -/

namespace Sys2Proof.Machine

open Sys2Proof

/-- From `s` to `t` memory has been read: lines have come to slices, shadows have been narrowed, and bytes of peers have been drawn. -/
structure Looks (s t : State) : Prop where
  rest : { t with mem := s.mem, shadows := s.shadows, opened := s.opened, freeCount := s.freeCount, slices := s.slices, agenda := s.agenda } = s

namespace Looks

variable {s t u : State}

theorem refl (s : State) : Looks s s := ⟨rfl⟩

theorem trans (h : Looks s t) (h' : Looks t u) : Looks s u :=
  ⟨(congrArg (fun v : State => { v with
      mem := s.mem, shadows := s.shadows, opened := s.opened, freeCount := s.freeCount, slices := s.slices, agenda := s.agenda }) h'.rest).trans h.rest⟩

theorem foldl {α : Type} {f : State → α → State} (hf : ∀ t a, Looks t (f t a)) (s : State) (l : List α) : Looks s (l.foldl f s) :=
  List.foldlRecOn l f (motive := Looks s) (refl s) fun t ht a _ => ht.trans (hf t a)

theorem narrow (s : State) (line : Nat) : Looks s (s.narrow line) := by
  unfold State.narrow
  split
  · exact refl s
  · exact ⟨rfl⟩

theorem lineRead (s : State) (line reuse : Nat) : Looks s (s.lineRead line reuse) :=
  ⟨(congrArg (fun v : State => { v with mem := s.mem, shadows := s.shadows, opened := s.opened, freeCount := s.freeCount })
    (s.lineRead_frame line reuse) :)⟩

theorem readWalk (s : State) (asid va n page : Nat) : Looks s (s.readWalk asid va n page) := by
  induction n generalizing s page with
  | zero => exact refl s
  | succ n ih =>
    rw [State.readWalk]
    dsimp only
    split
    · exact refl s
    · split
      · exact lineRead ..
      · exact (lineRead ..).trans (ih ..)

theorem drawBytes (s : State) (n : Nat) : Looks s (s.drawBytes n).2 :=
  List.foldlRecOn (motive := fun z : List Byte × State => Looks s z.2) _ _ (refl s) fun _ hz _ _ => hz.trans ⟨rfl⟩

theorem readVia (s : State) (tr : Nat → Option Nat) (va n : Nat) : Looks s (s.readVia tr va n).2 := by
  refine List.foldlRecOn (motive := fun z : Option (List Byte) × State => Looks s z.2) _ _ (refl s) fun z hz x _ => ?_
  split
  · next bs pa hbs hpa =>
    split
    · exact hz.trans (drawBytes ..)
    · dsimp only
      split
      · exact hz.trans (narrow ..)
      · exact hz.trans (narrow ..)
  · exact hz

theorem cores (h : Looks s t) : t.cores = s.cores := (congrArg State.cores h.rest :)

theorem launches (h : Looks s t) : t.launches = s.launches := (congrArg State.launches h.rest :)

theorem waiting (h : Looks s t) : t.waiting = s.waiting := (congrArg State.waiting h.rest :)

theorem net (h : Looks s t) : t.net = s.net := (congrArg State.net h.rest :)

end Looks

/-! Error records and bound registers loaded (R344, R399, R402). -/

theorem State.errRec_cores (s : State) (cls ix code detail addr asid count extra : Nat) : (s.errRec cls ix code detail addr asid count extra).cores = s.cores := by
  unfold State.errRec
  dsimp only
  split
  · rfl
  · exact (WritesFrom.homeWrite (lo := 0) (Nat.zero_le _)).cores

theorem State.loadBound_cores (s : State) (cls ix asid n va : Nat) : (s.loadBound cls ix asid n va).cores = s.cores := by
  have hread : (s.hubRead asid va 32).2.cores = s.cores := (Looks.readVia ..).cores
  unfold State.loadBound
  split
  · next t ht =>
    rw [ht] at hread
    exact (State.errRec_cores ..).trans hread
  · next bs t ht =>
    rw [ht] at hread
    dsimp only
    split
    · exact (State.errRec_cores ..).trans hread
    · exact hread

end Sys2Proof.Machine
end

section
/-! SUPPORT. Control registers (R321, R325, R328, R344, R399). -/

namespace Sys2Proof.Machine

open Sys2Proof

/-! Reads (R321, R328). -/

theorem boundMask_eq (j : Nat) : boundMask j = if j = 0 then 0x8ff00000ffffffff else if j = 3 then 0xffffffffffffffff else 0x01ffffffffffffff := by
  rcases j with _ | _ | _ | _ | j <;> simp [boundMask]

theorem BoundReg.dw_eq (r : BoundReg) (j : Nat) : r.dw j = (if j = 0 then r.d0 else if j = 1 then r.d1 else if j = 2 then r.d2 else r.d3) &&&
    (if j = 0 then 0x8ff00000ffffffff else if j = 3 then 0xffffffffffffffff else 0x01ffffffffffffff) := by
  rcases j with _ | _ | _ | _ | j <;> simp [BoundReg.dw, boundMask_eq]

/-- R328: the status word has a bit for each flag. -/
theorem Cohort.cstat_bits (h : Cohort) : let x := BitVec.ofNat 64 h.cstat
    x.toNat < 256 ∧ x.getLsbD 7 = h.refused ∧ x.getLsbD 6 = h.pending ∧ x.getLsbD 5 = h.handler ∧
      x.getLsbD 4 = h.debug ∧ x.getLsbD 3 = false ∧ x.getLsbD 2 = false ∧ x.getLsbD 1 = h.mismatch ∧ x.getLsbD 0 = h.greyread := by
  unfold Cohort.cstat
  generalize h.refused = b7
  generalize h.pending = b6
  generalize h.handler = b5
  generalize h.debug = b4
  generalize h.mismatch = b1
  generalize h.greyread = b0
  revert b7 b6 b5 b4 b1 b0
  decide

section
variable {s : State} {w : Who} {n d q : Nat}

/-- What `CSRR` names. -/
def usesCsrr (n d : Nat) : Uses := { ud := [d], priv := true, illegal := !csrExists n }

theorem csrr_reads (c : Clear s w (usesCsrr n d)) : WritesUniform s w (exec (.csrr n d) s) d (s.csrValue w.h n) 0 := by
  have hexec : exec (.csrr n d) s = issueOwn (usesCsrr n d) noCheck (fun w h => h.setQ d ((s.onward w).csrValue h n) 0) s := by
    rw [exec_csrr, execCsrr]
    exact issue_onCohort (f := fun _ t h => h.setQ d (t.csrValue h n) 0) c rfl
  rw [hexec]
  exact writesUniform _ rfl c rfl

theorem illegal_of_clear {u : Uses} (c : Clear s w u) : u.illegal = false := by
  have h := c.legal
  unfold Uses.bad at h
  simp only [Bool.or_eq_false_iff] at h
  obtain ⟨⟨⟨⟨hillegal, -⟩, -⟩, -⟩, -⟩ := h
  exact hillegal

theorem csrValue_bound (hn : 0x100 ≤ n) (hlt : n < 0x180) : s.csrValue w.h n = (s.boundReg w.h.asid ((n - 0x100) / 4)).dw (n % 4) := by
  have hk : (n - 0x100) / 4 % 32 = (n - 0x100) / 4 := Nat.mod_eq_of_lt (by omega)
  unfold State.csrValue
  split <;> [omega; omega; omega; omega; omega; omega; rw [hk]]

/-- R321: the numbers that name a control register. -/
theorem csrExists_iff : csrExists n = true ↔ n ≤ 5 ∨ 0x100 ≤ n ∧ n < 0x180 := by simp [csrExists]

theorem csrWritable_iff : csrWritable n = true ↔ n = 3 ∨ n = 4 ∨ 0x100 ≤ n ∧ n < 0x180 := by simp [csrWritable, or_assoc]

theorem csrr_illegal (hno : csrExists n = false) (c : Reaches s w { ud := [d], priv := true, illegal := true }) : Stops s w (exec (.csrr n d) s) 2 0 0 := by
  have hc : Reaches s w (usesCsrr n d) := by rwa [usesCsrr, hno]
  rw [exec_csrr, execCsrr]
  exact issue_stops (b := { code := 2 }) hc (issueFault_illegal _ (by simp [Uses.bad, hno]))

theorem csrw_illegal (hno : csrWritable n = false) (c : Reaches s w { us := [q], priv := true, illegal := true }) : Stops s w (exec (.csrw n q) s) 2 0 0 := by
  have hc : Reaches s w (csrwUses n q) := by rwa [csrwUses, hno]
  rw [exec_csrw, execCsrw]
  exact issue_stops (b := { code := 2 }) hc (issueFault_illegal _ (by simp [Uses.bad, csrwUses, hno]))

end

/-! Writes (R325, R328, R344, R399). -/

section
variable {s : State} {w : Who} {n q : Nat}

theorem csrw_writes (c : Clear s w (csrwUses n q)) : exec (.csrw n q) s = .next ((s.onward w).csrWrite w n (w.h.uq q)) := by
  rw [exec_csrw, execCsrw]
  exact issue_runs c rfl rfl

theorem csrCbndWrite_writes (c : Clear s w (csrwUses n q)) :
    exec (.csrCbndWrite n q) s = .next ((s.onward w).writeBound w.h.asid ((n - 0x100) / 4) (n % 4) (w.h.uq q)) := by
  rw [exec_csrCbndWrite, execCsrCbndWrite]
  exact issue_runs c rfl rfl

theorem csrCbndReload_reloads (c : Clear s w (csrwUses n q)) :
    exec (.csrCbndReload n q) s = .next ((s.onward w).reloadBound w ((n - 0x100) / 4)) := by
  rw [exec_csrCbndReload, execCsrCbndReload]
  exact issue_runs c rfl rfl

theorem csrCtlbiWrite_drops {m : Nat} (c : Clear s w (csrwUses 4 q)) : exec (.csrCtlbiWrite m q) s = .next ((s.onward w).ctlbi w (w.h.uq q).toNat) := by
  rw [exec_csrCtlbiWrite, execCsrCtlbiWrite]
  exact issue_runs c rfl rfl

/-! The number decides what a write does. -/

variable (v : DWord)

theorem State.csrWrite_bound (hn : 0x100 ≤ n) : s.csrWrite w n v =
    if n % 4 = 0 then s.reloadBound w ((n - 0x100) / 4) else s.writeBound w.h.asid ((n - 0x100) / 4) (n % 4) v := by
  rw [State.csrWrite, if_neg (by omega), if_neg (by omega)]

/-! The status word (R328). -/

theorem csrw_cstat (c : Clear s w (csrwUses 3 q)) : Completes s w (exec (.csrw 3 q) s) fun h =>
    WentOn w w.past h ∧ h.refused = (w.h.refused && !(w.h.uq q).getLsbD 7) ∧ h.mismatch = (w.h.mismatch && !(w.h.uq q).getLsbD 1) ∧
      h.greyread = (w.h.greyread && !(w.h.uq q).getLsbD 0) ∧
      SameBut w.h { h with refused := w.h.refused, mismatch := w.h.mismatch, greyread := w.h.greyread } ∧ SameLanes w.h h ∧ SameUniform w.h h ∧
      SamePreds w.h h := by
  have hexec : exec (.csrw 3 q) s = issueOwn (csrwUses 3 q) noCheck (fun w h => h.clearFlags (w.h.uq q)) s := by
    rw [csrw_writes c, issueOwn_runs c rfl]
    exact congrArg _ (State.onCohort_onward ..)
  have hgone := Who.gone_wentOn c.who
  rw [hexec]
  exact issueOwn_completes c rfl ⟨⟨hgone.here, hgone.others, hgone.seq⟩, rfl, rfl, rfl, w.gone_sameBut, fun _ => rfl, fun _ => ⟨rfl, rfl⟩, fun _ => rfl⟩

/-! Translations (R325). -/

theorem State.core_dropTlb (asid : Nat) (f : TlbEntry → Bool) (c : Nat) :
    (s.dropTlb asid f).core c = { s.core c with tlb := (s.core c).tlb.filter fun e => !(e.asid == asid && f e) } := by
  rw [State.core, State.core, State.dropTlb, Tbl.at, Tbl.at, Tbl.find?_mapv]
  cases Tbl.find? s.cores c <;> rfl

theorem State.cohort?_dropTlb (asid : Nat) (f : TlbEntry → Bool) (c k : Nat) : (s.dropTlb asid f).cohort? c k = s.cohort? c k := by
  rw [State.cohort?, State.core_dropTlb, State.cohort?]

/-- R325: the split has to wait for the accesses that have left with a translation. -/
theorem State.ctlbi_eq {va : Nat} (f : TlbEntry → Bool) (hf : f = fun e => e.vpn == va % 2 ^ 57 / 2 ^ e.bits) : (s.onward w).ctlbi w va =
    if s.inFlight = [] then (s.onward w).dropTlb w.h.asid f
    else ({ (s.onward w).dropTlb w.h.asid f with nextId := s.nextId + 1, invals := Tbl.put s.invals s.nextId s.inFlight } : State).setCohort w.c w.k
      (w.gone.onSplit w.i fun sp => { sp with state := 7, hold := .inval s.nextId }) := by
  subst hf
  unfold State.ctlbi
  refine ite_congr rfl (fun _ => rfl) fun _ => ?_
  refine State.onCohort_some (h := w.gone) ?_ _
  exact (State.cohort?_dropTlb ..).trans (State.cohort?_setCohort_self ..)

theorem State.inFlight_eq_nil : s.inFlight = [] ↔ ∀ e ∈ s.accs, e.2.stage ≠ 0 := by
  rw [State.inFlight, List.map_eq_nil_iff, List.filter_eq_nil_iff]
  simp

/-- R325: what a write of `CTLBI` leaves. -/
structure Invalidated (s : State) (w : Who) (va : Nat) (t : State) : Prop where
  tlb : ∀ c, (t.core c).tlb = (s.core c).tlb.filter fun e => !(e.asid == w.h.asid && e.vpn == va % 2 ^ 57 / 2 ^ e.bits)
  others : ∀ c j, ¬ (c = w.c ∧ j = w.k) → t.cohort? c j = s.cohort? c j
  mem : t.mem = s.mem
  goes : (∀ e ∈ s.accs, e.2.stage ≠ 0) → t.cohort? w.c w.k = some w.gone
  waits : (∃ e ∈ s.accs, e.2.stage = 0) → t.cohort? w.c w.k = some (w.gone.onSplit w.i fun sp => { sp with state := 7, hold := .inval s.nextId }) ∧
    Tbl.find? t.invals s.nextId = some s.inFlight

theorem State.ctlbi_invalidated {va : Nat} : Invalidated s w va ((s.onward w).ctlbi w va) := by
  set f : TlbEntry → Bool := fun e => e.vpn == va % 2 ^ 57 / 2 ^ e.bits with hf
  have htlb (c k d : Nat) (h : Cohort) (t : State) : ((t.setCohort c k h).core d).tlb = (t.core d).tlb := (congrArg CoreSt.tlb (t.core_setCohort c k h d) :)
  have hdropped (c : Nat) : (((s.onward w).dropTlb w.h.asid f).core c).tlb =
      (s.core c).tlb.filter fun e => !(e.asid == w.h.asid && e.vpn == va % 2 ^ 57 / 2 ^ e.bits) := by
    rw [State.core_dropTlb]
    dsimp only
    rw [State.onward, htlb]
  have hothers (c j : Nat) (hcj : ¬ (c = w.c ∧ j = w.k)) : ((s.onward w).dropTlb w.h.asid f).cohort? c j = s.cohort? c j :=
    (State.cohort?_dropTlb ..).trans (State.cohort?_setCohort_other _ _ hcj)
  rw [State.ctlbi_eq f hf]
  split
  · next hnone =>
    have hall := State.inFlight_eq_nil.1 hnone
    exact ⟨hdropped, hothers, rfl, fun _ => (State.cohort?_dropTlb ..).trans (State.cohort?_setCohort_self ..), fun ⟨e, he, hstage⟩ => absurd hstage (hall e he)⟩
  · next hsome =>
    refine ⟨fun c => (htlb ..).trans (hdropped c), fun c j hcj => (State.cohort?_setCohort_other _ _ hcj).trans (hothers c j hcj), rfl,
      fun hall => absurd (State.inFlight_eq_nil.2 hall) hsome, fun _ => ⟨State.cohort?_setCohort_self .., Tbl.find?_put_self ..⟩⟩

/-! Bound registers (R344, R399). -/

theorem BoundReg.dw_setDw (r : BoundReg) {i j : Nat} (hi : i ≠ 0) (hi4 : i < 4) (hj : j < 4) : (r.setDw i v).dw j = if j = i then v &&& boundMask j else r.dw j := by
  have hi1 : 1 ≤ i := Nat.one_le_iff_ne_zero.2 hi
  interval_cases i
  all_goals
    interval_cases j <;> simp [BoundReg.setDw, BoundReg.dw, boundMask, BitVec.and_assoc]

theorem State.boundReg_setBound_self (asid k : Nat) (r : BoundReg) : (s.setBound asid k r).boundReg asid k = r := Tbl.at_put_self ..

/-- R345: each context has 32 bound registers of its own. -/
theorem State.boundReg_setBound_ne {asid k a j : Nat} (r : BoundReg) (hk : k < 32) (hj : j < 32) (hne : ¬ (a = asid ∧ j = k)) :
    (s.setBound asid k r).boundReg a j = s.boundReg a j := Tbl.at_put_ne _ _ _ (by omega)

/-- Doubleword 0 is not written directly. -/
theorem State.boundReg_writeBound_zero (asid k a j : Nat) : (s.writeBound asid k 0 v).boundReg a j = s.boundReg a j := by
  by_cases hkey : a * 32 + j = asid * 32 + k
  · rw [State.boundReg, hkey]
    exact (Tbl.at_put_self ..).trans (congrArg (Tbl.at s.bounds · {}) hkey.symm)
  · exact Tbl.at_put_ne _ _ _ hkey

variable (hlaunch : ∀ l, Tbl.find? s.launches w.h.launch = some l → l.btab = 0 ∨ l.nbound ≤ n)

include hlaunch in
theorem State.reloadBound_onward_none : (s.onward w).reloadBound w n = s.onward w := by
  have hlaunches : (s.onward w).launches = s.launches := rfl
  rw [State.reloadBound, hlaunches]
  split
  · rfl
  · next l hl => rw [if_pos (hlaunch l hl)]

theorem State.reloadBound_onward_some {l : Launch} (hl : Tbl.find? s.launches w.h.launch = some l) (htable : l.btab ≠ 0) (hlt : n < l.nbound) :
    (s.onward w).reloadBound w n = (s.onward w).loadBound 0 w.c w.h.asid n (l.btab + 32 * n) := by
  have hlaunches : (s.onward w).launches = s.launches := rfl
  rw [State.reloadBound, hlaunches, hl]
  exact if_neg (by omega)

theorem State.reloadBound_cores (n : Nat) : (s.reloadBound w n).cores = s.cores := by
  unfold State.reloadBound
  split
  · rfl
  · split
    · rfl
    · exact State.loadBound_cores ..

/-- R321: no write of a control register changes a register of the cohort. -/
theorem State.csrWrite_registers {h : Cohort} (hh : ((s.onward w).csrWrite w n v).cohort? w.c w.k = some h) (r : Nat) :
    h.uq r = w.h.uq r ∧ h.vreg r = w.h.vreg r := by
  have hgone : (s.onward w).cohort? w.c w.k = some w.gone := State.cohort?_setCohort_self ..
  have of_cores {t : State} (hcores : t.cores = (s.onward w).cores) (ht : t.cohort? w.c w.k = some h) : h.uq r = w.h.uq r ∧ h.vreg r = w.h.vreg r := by
    rw [State.cohort?, State.core, hcores] at ht
    obtain rfl : w.gone = h := Option.some.inj (hgone.symm.trans ht)
    exact ⟨rfl, rfl⟩
  unfold State.csrWrite at hh
  split_ifs at hh
  · rw [State.onCohort_onward, State.cohort?_setCohort_self] at hh
    obtain rfl := Option.some.inj hh
    exact ⟨rfl, rfl⟩
  · have hwrote := State.ctlbi_invalidated (s := s) (w := w) (va := v.toNat)
    by_cases hall : ∀ e ∈ s.accs, e.2.stage ≠ 0
    · obtain rfl := Option.some.inj ((hwrote.goes hall).symm.trans hh)
      exact ⟨rfl, rfl⟩
    · push Not at hall
      obtain rfl := Option.some.inj ((hwrote.waits hall).1.symm.trans hh)
      exact ⟨rfl, rfl⟩
  · exact of_cores (State.reloadBound_cores _) hh
  · exact of_cores rfl hh

end

/-- Settles O40: the reads by `State.csrValue`, the writes by `State.csrWrite`, register by register. -/
theorem controlRegisterResults : Obligations.ControlRegisterResults := by
  unfold Obligations.ControlRegisterResults
  intro s w n d q v k mask dw reads
  have hdw (r : BoundReg) (j : Nat) : r.dw j = dw r j := r.dw_eq j
  refine ⟨fun c => ?_, fun hlow hout => ?_, fun c => ?_⟩
  · have hreads := csrr_reads c
    have hexists : n ≤ 5 ∨ 0x100 ≤ n ∧ n < 0x180 := csrExists_iff.1 (by simpa using illegal_of_clear c)
    refine ⟨?_, ?_, ?_, ?_, ?_, ?_, fun hn => ?_, _, hreads⟩
    · rintro rfl; exact hreads
    · rintro rfl; exact hreads
    · rintro rfl; exact hreads
    · rintro rfl; exact ⟨_, hreads, w.h.cstat_bits⟩
    · rintro rfl; exact hreads
    · rintro rfl
      have hvalue : s.csrValue w.h 5 = match w.h.bisque with | some b => (b.addr &&& ~~~(1 : DWord)) ||| 1 | none => 0 := rfl
      refine ⟨fun hnone => ?_, fun b hb => ?_⟩
      · rwa [hvalue, hnone] at hreads
      · rwa [hvalue, hb] at hreads
    · rw [← hdw]
      rwa [csrValue_bound hn (by omega)] at hreads
  · have hno : csrExists n = false := Bool.eq_false_iff.2 (mt csrExists_iff.1 (by omega))
    have hnowrite : csrWritable n = false := Bool.eq_false_iff.2 (mt csrWritable_iff.1 (by omega))
    exact ⟨csrr_illegal hno, csrw_illegal hnowrite⟩
  · have hwrites := csrw_writes c
    have hwritable : n = 3 ∨ n = 4 ∨ 0x100 ≤ n ∧ n < 0x180 := csrWritable_iff.1 (by simpa [csrwUses] using illegal_of_clear c)
    refine ⟨⟨_, hwrites, fun h hh r => State.csrWrite_registers v hh r⟩, ?_, ?_, fun hn hpart i hi => ?_, fun hn hpart => ?_, fun hn i hi => ?_⟩
    · rintro rfl; exact csrw_cstat c
    · rintro rfl i hi
      obtain ⟨htlb, hothers, hmem, hgoes, hwaits⟩ := State.ctlbi_invalidated (s := s) (w := w) (va := v.toNat)
      refine ⟨_, ?_, htlb, hothers, hmem, hgoes, hwaits⟩
      rcases hi with rfl | ⟨m, rfl⟩
      · exact hwrites
      · exact csrCtlbiWrite_drops c
    · have hk : k < 32 := by omega
      have hexec : exec i s = .next ((s.onward w).writeBound w.h.asid k (n % 4) v) := by
        rcases List.mem_pair.1 hi with rfl | rfl
        · rw [hwrites, State.csrWrite_bound _ hn, if_neg hpart]
        · exact csrCbndWrite_writes c
      refine ⟨_, hexec, State.cohort?_setCohort_self .., fun j hj => ?_, fun a j hj hne => State.boundReg_setBound_ne _ hk hj hne, rfl⟩
      rw [← hdw, ← hdw, State.writeBound, State.boundReg_setBound_self, BoundReg.dw_setDw _ _ hpart (Nat.mod_lt _ (by decide)) hj, boundMask_eq]
      rfl
    · have hexec := csrCbndWrite_writes c
      rw [hpart] at hexec
      exact ⟨_, hexec, State.cohort?_setCohort_self .., fun a j _ => State.boundReg_writeBound_zero _ ..⟩
    · have hexec : exec i s = .next ((s.onward w).reloadBound w k) := by
        rcases hi with ⟨hpart, rfl⟩ | rfl
        · rw [hwrites, State.csrWrite_bound _ hn, if_pos hpart]
        · exact csrCbndReload_reloads c
      refine ⟨fun hnone => ?_, fun l hl htable hlt => ?_⟩
      · rw [hexec, State.reloadBound_onward_none hnone]
        exact onward_movesOn c.who
      · rw [hexec, State.reloadBound_onward_some hl htable hlt]

end Sys2Proof.Machine
end

section
/-! SUPPORT. `SPAWN` (R135): what its reads leave alone, and the record that it submits. -/

namespace Sys2Proof.Machine

open Sys2Proof

/-- From `s` to `t` the cohorts, the launches and the hub's clock are as before. -/
structure SameUnits (s t : State) : Prop where
  cohort? : ∀ c k, t.cohort? c k = s.cohort? c k
  launches : t.launches = s.launches
  hubClock : t.net.hubClock = s.net.hubClock

namespace SameUnits

variable {s t u : State}

theorem of_cores (hcores : t.cores = s.cores) (hlaunches : t.launches = s.launches) (hnet : t.net = s.net) : SameUnits s t :=
  ⟨fun c k => by rw [State.cohort?, State.cohort?, State.core, State.core, hcores], hlaunches, by rw [hnet]⟩

theorem trans (h : SameUnits s t) (h' : SameUnits t u) : SameUnits s u :=
  ⟨fun c k => (h'.cohort? c k).trans (h.cohort? c k), h'.launches.trans h.launches, h'.hubClock.trans h.hubClock⟩

theorem of_looks (h : Looks s t) : SameUnits s t := of_cores h.cores h.launches h.net

theorem onCore (s : State) (c : Nat) {f : CoreSt → CoreSt} (hf : ∀ co, (f co).cohorts = co.cohorts) : SameUnits s (s.onCore c f) where
  cohort? d k := by
    by_cases hd : d = c
    · subst hd
      rw [State.cohort?, State.core_onCore_self, hf, State.cohort?]
    · rw [State.cohort?, State.core_onCore_ne _ _ hd, State.cohort?]
  launches := rfl
  hubClock := rfl

theorem findNow (s : State) (c asid gang : Nat) (a : Machine.Acc) (va : Nat) : SameUnits s (s.findNow c asid gang a va).2 := by
  unfold State.findNow
  split
  · split
    · exact of_looks (.readWalk ..)
    · next e _ => exact (of_looks (.readWalk ..)).trans (onCore _ c (f := fun co => co.tlbFill e) fun _ => rfl)
  · exact of_cores rfl rfl rfl

theorem snapRecord (s : State) (tr : Nat → Option Nat) (va : Nat) : SameUnits s (s.snapRecord tr va).2 := by
  have hread := of_looks (Looks.readVia s tr va 256)
  unfold State.snapRecord
  split
  · exact of_cores rfl rfl rfl
  · generalize s.readVia tr va 256 = r at hread
    obtain ⟨bs, t⟩ := r
    cases bs with
    | none => exact hread
    | some bs =>
      cases tr va with
      | none => exact hread
      | some pa => exact hread.trans (of_cores rfl rfl rfl)

theorem submit (s : State) (x : Submission) : SameUnits s (s.submit x) :=
  of_cores (congrArg State.cores (s.submit_frame x) :) (congrArg State.launches (s.submit_frame x) :) (congrArg State.net (s.submit_frame x) :)

end SameUnits

/-- R298: no record is read at a misaligned address. -/
theorem State.snapRecord_misaligned {s : State} (tr : Nat → Option Nat) {va : Nat} (h : va % 256 ≠ 0) : (s.snapRecord tr va).1 = none := by
  rw [State.snapRecord, if_pos (bne_iff_ne.2 h)]

section
variable {s : State} {w : Who} {a : Nat}

/-- R135: the translation that `SPAWN` reads its record through. -/
def State.spawnPa (s : State) (w : Who) (x : Nat) : Option Nat :=
  match s.find w.c w.h.asid (s.gangOf w.c w.h) .load x with
  | .ok pa _ => some pa
  | _ => none

/-- R135: the record that `SPAWN` has read, and the state in which it has. -/
def State.spawnRead (s : State) (w : Who) (va : Nat) : Option (List Byte) × State :=
  let t := (s.findNow w.c w.h.asid (s.gangOf w.c w.h) .load va).2
  t.snapRecord (t.spawnPa w) va

theorem SameUnits.spawnRead (s : State) (w : Who) (va : Nat) : SameUnits s (s.spawnRead w va).2 := (findNow ..).trans (snapRecord ..)

/-- R135: what `SPAWN` submits. -/
def State.spawnRecord (s : State) (w : Who) (va : Nat) (b : Option (List Byte)) : Submission :=
  { src := .spawn w.c w.h.uid w.i w.h.launch, addr := va, asid := w.h.asid, level := (Tbl.find? s.launches w.h.launch).elim 0 (·.level), bytes := b }

theorem spawn_submits (c : Clear s w { us := [a], rel := some { scope := 2, cls := 0xff } }) :
    let r := (s.onward w).spawnRead w (w.h.uq a).toNat
    exec (.spawn a) s = .next ((r.2.submit (s.spawnRecord w (w.h.uq a).toNat r.1)).setCohort w.c w.k
      (w.gone.onSplit w.i fun sp => { sp with state := 6, hold := .launch r.2.nextId })) := by
  intro r
  have hread : SameUnits (s.onward w) r.2 := SameUnits.spawnRead ..
  have hlaunches : r.2.launches = s.launches := hread.launches
  have hcohort : (r.2.submit (s.spawnRecord w (w.h.uq a).toNat r.1)).cohort? w.c w.k = some w.gone :=
    ((hread.trans (.submit ..)).cohort? ..).trans (State.cohort?_setCohort_self ..)
  rw [exec_spawn, execSpawn]
  refine (issue_runs c rfl rfl).trans (congrArg _ ?_)
  refine Eq.trans ?_ (State.onCohort_some hcohort fun h => h.onSplit w.i fun sp => { sp with state := 6, hold := .launch r.2.nextId })
  rw [State.spawnRecord, ← hlaunches]
  rfl

end

end Sys2Proof.Machine
end

section
/-! SUPPORT. `KILL` (R136, R317): launches stay, and one that is killed stays killed. -/

namespace Sys2Proof.Machine

open Sys2Proof

/-- From `s` to `t` every launch stays, and one that is killed stays killed. -/
structure KeepsLaunches (s t : State) : Prop where
  kept : ∀ id l, Tbl.find? s.launches id = some l → ∃ l', Tbl.find? t.launches id = some l' ∧ (l.killed = true → l'.killed = true)

namespace KeepsLaunches

variable {s t u : State} {c b k n id : Nat}

theorem of_launches (h : t.launches = s.launches) : KeepsLaunches s t := ⟨fun _ l hl => ⟨l, h ▸ hl, fun hk => hk⟩⟩

theorem refl (s : State) : KeepsLaunches s s := of_launches rfl

theorem trans (h : KeepsLaunches s t) (h' : KeepsLaunches t u) : KeepsLaunches s u := by
  refine ⟨fun id l hl => ?_⟩
  obtain ⟨l1, hl1, hk1⟩ := h.kept id l hl
  obtain ⟨l2, hl2, hk2⟩ := h'.kept id l1 hl1
  exact ⟨l2, hl2, hk2 ∘ hk1⟩

/-- What comes after a change that leaves the launches. -/
theorem after (h : KeepsLaunches t u) (ht : t.launches = s.launches) : KeepsLaunches s u := (of_launches ht).trans h

theorem ite {p : Prop} [Decidable p] (ht : KeepsLaunches s t) (hu : KeepsLaunches s u) : KeepsLaunches s (if p then t else u) := by
  split
  · exact ht
  · exact hu

theorem foldl {α : Type} {f : State → α → State} {l : List α} (hf : ∀ t a, KeepsLaunches t (f t a)) : KeepsLaunches s (l.foldl f s) :=
  List.foldlRecOn l f (motive := KeepsLaunches s) (refl s) fun t ht a _ => ht.trans (hf t a)

theorem of_goesOn (h : GoesOn s t) : KeepsLaunches s t := of_launches (congrArg State.launches h.rest :)

/-- A launch changed stays killed where the change keeps that. -/
theorem adj {f : Launch → Launch} (h : t.launches = Tbl.adj s.launches n f) (hf : ∀ l, l.killed = true → (f l).killed = true) : KeepsLaunches s t := by
  refine ⟨fun id l hl => ?_⟩
  rw [h, Tbl.find?_adj]
  split
  · next heq => exact ⟨f l, by rw [← heq, hl]; rfl, hf l⟩
  · exact ⟨l, hl, fun hk => hk⟩

theorem pushOnce (i : Instr) (ops : List Nat) : KeepsLaunches s (s.pushOnce i ops) := of_launches (State.pushOnce_launches ..)

theorem onBlock (f : Block → Block) : KeepsLaunches s (s.onBlock c b f) := of_launches (State.onBlock_launches ..)

theorem launchErr {code stage core slot pc : Nat} : KeepsLaunches s (s.launchErr id code stage core slot pc) := adj rfl fun _ h => h

theorem lateErrs {h : Cohort} : KeepsLaunches s (s.lateErrs h c k) := foldl fun _ _ => launchErr

theorem onStage {stage : Nat} {f : StageSt → StageSt} : KeepsLaunches s (s.onStage id stage f) := adj rfl fun _ h => h

theorem checkLaunch : KeepsLaunches s (s.checkLaunch id) := by
  unfold State.checkLaunch
  split
  · exact refl s
  · exact .ite (pushOnce ..) (.ite (pushOnce ..) (refl s))

/-! Blocks and barriers. -/

theorem dropHeldWrites {uid : Nat} : KeepsLaunches s (s.dropHeldWrites c b uid) :=
  (onBlock _).trans (of_launches rfl)

theorem dropFrameReqs {uid : Nat} : KeepsLaunches s (s.dropFrameReqs c uid) := .ite (refl s) (.after (pushOnce ..) rfl)

theorem freeFrames {f : Nat} : KeepsLaunches s (s.freeFrames c f n) := by
  unfold State.freeFrames
  have hclear : KeepsLaunches s (s.clearFrames c f n) := .ite (refl s) (of_launches rfl)
  exact .ite hclear (hclear.trans (pushOnce ..))

theorem releaseHandle : KeepsLaunches s (s.releaseHandle c b n) := by
  unfold State.releaseHandle
  split
  · exact refl s
  · split
    · exact refl s
    · split
      · exact refl s
      · exact .trans (onBlock _) freeFrames

theorem releaseOrphans : KeepsLaunches s (s.releaseOrphans c b) := by
  unfold State.releaseOrphans
  split
  · exact refl s
  · exact foldl fun _ _ => releaseHandle

theorem nudgeFences : KeepsLaunches s (s.nudgeFences c b) := of_goesOn (.nudgeFences ..)

theorem completeBarrier : KeepsLaunches s (s.completeBarrier c b n) := by
  unfold State.completeBarrier
  split
  · exact refl s
  · exact .after nudgeFences rfl

theorem settleBarriers {l : List Nat} : KeepsLaunches s (s.settleBarriers c b l) := by
  induction l generalizing s with
  | nil => exact refl s
  | cons n l ih =>
    rw [State.settleBarriers]
    split
    · exact refl s
    · exact .ite (completeBarrier.trans ih) ih

theorem releaseSide {d : Nat} : KeepsLaunches s (s.releaseSide id n d) := by
  unfold State.releaseSide
  split
  · exact refl s
  · refine .ite (.after (foldl fun t k => ?_) rfl) (refl s)
    split
    · exact refl t
    · exact .ite (.after nudgeFences rfl) (refl t)

theorem settleSide {d : Nat} : KeepsLaunches s (s.settleSide id n d) := by
  unfold State.settleSide
  split
  · exact refl s
  · refine .ite (.trans (.ite ?_ ?_) releaseSide) (refl s)
    · exact of_launches rfl
    · exact of_launches rfl

theorem blockArrives : KeepsLaunches s (s.blockArrives c b n) := by
  unfold State.blockArrives
  split
  · exact refl s
  · split
    · exact refl s
    · exact .ite (.after (settleSide.trans settleSide) rfl) (refl s)

/-! The end of cohorts and blocks. -/

theorem endCohort {err : Option (Nat × Nat)} : KeepsLaunches s (s.endCohort c k err) := by
  unfold State.endCohort
  split
  · exact refl s
  · split
    · exact refl s
    · next h _ _ =>
      extract_lets +onlyGivenNames s0 s1 src s2 s3 s4 s5 s6 s7 s8 s9
      have h0 : KeepsLaunches s s0 := by
        unfold s0
        split
        · exact launchErr
        · exact refl s
      have h1 : KeepsLaunches s s1 := h0.trans lateErrs
      have h2 : KeepsLaunches s s2 := h1.trans (of_launches rfl)
      have h3 : KeepsLaunches s s3 := h2.trans ((onBlock _).trans dropHeldWrites)
      have h4 : KeepsLaunches s s4 := h3.trans (dropFrameReqs.trans releaseOrphans)
      have h5 : KeepsLaunches s s5 := h4.trans settleBarriers
      have h6 : KeepsLaunches s s6 := h5.trans (foldl fun _ _ => blockArrives)
      have h7 : KeepsLaunches s s7 := by
        unfold s7
        split
        · exact h6
        · exact h6.trans (foldl fun _ _ => settleSide.trans settleSide)
      have h8 : KeepsLaunches s s8 := h7.trans (foldl fun _ _ => foldl fun _ _ => of_launches rfl)
      have h9 : KeepsLaunches s s9 := .ite (h8.trans (pushOnce ..)) h8
      exact (KeepsLaunches.ite (h9.trans (pushOnce ..)) h9).trans (of_goesOn (.notify ..))

theorem killAway {h : Cohort} : KeepsLaunches s (s.killAway c h) := (lateErrs.trans dropHeldWrites).trans (of_launches rfl)

theorem reachChains : KeepsLaunches s (s.reachChains c b) := foldl fun _ _ => foldl fun _ _ => pushOnce ..

theorem checkBlock : KeepsLaunches s (s.checkBlock c b) := of_goesOn (.checkBlock ..)

theorem killBlock : KeepsLaunches s (s.killBlock c b) := by
  unfold State.killBlock
  extract_lets +onlyGivenNames ks s1 s2
  have h1 : KeepsLaunches s s1 := (onBlock _).trans (foldl fun _ _ => endCohort)
  have h2 : KeepsLaunches s s2 := h1.trans (foldl fun _ _ => killAway)
  exact (((h2.trans (onBlock _)).trans releaseOrphans).trans reachChains).trans checkBlock

/-- R317: a launch killed is killed, and every other one stays as it was but for its counts. -/
theorem killLaunch : KeepsLaunches s (s.killLaunch id) ∧
    ∀ l, Tbl.find? s.launches id = some l → ∃ l', Tbl.find? (s.killLaunch id).launches id = some l' ∧ l'.killed = true := by
  unfold State.killLaunch
  extract_lets +onlyGivenNames s1 bs s2 lost gone uids s3
  have h1 : KeepsLaunches s s1 := adj rfl fun _ _ => rfl
  have hlast : KeepsLaunches s1 (({ s3 with
      saved := s3.saved.filter fun g => !g.blocks.any (·.block.launch == id)
      monitors := List.filter (fun (e : Nat × Monitor) => !uids.contains e.2.uid) s3.monitors } : State).checkLaunch id |>.pushOnce .schedule []) := by
    have h2 : KeepsLaunches s1 s2 := foldl fun _ _ => killBlock
    have h3 : KeepsLaunches s1 s3 := h2.trans (foldl fun _ _ => onStage)
    exact h3.trans (.after (checkLaunch.trans (pushOnce ..)) rfl)
  refine ⟨h1.trans hlast, fun l hl => ?_⟩
  have hkilled : Tbl.find? s1.launches id = some { l with
      killed := true, stages := l.stages.map fun st => { st with ended := st.ended + st.redo.length * st.gang, redo := [] } } := by
    rw [Tbl.find?_adj, if_pos rfl, hl]
    rfl
  obtain ⟨l', hl', hk⟩ := hlast.kept id _ hkilled
  exact ⟨l', hl', hk rfl⟩

end KeepsLaunches

/-- R317: every launch of a list is killed. -/
theorem State.foldl_killLaunch_kills {s : State} {ids : List Nat} {id : Nat} (hid : id ∈ ids) {l : Launch} (hl : Tbl.find? s.launches id = some l) :
    ∃ l', Tbl.find? (ids.foldl (fun u i => u.killLaunch i) s).launches id = some l' ∧ l'.killed = true := by
  induction ids generalizing s l with
  | nil => cases hid
  | cons i r ih =>
    obtain ⟨hkeeps, hkills⟩ := KeepsLaunches.killLaunch (s := s) (id := i)
    rcases List.mem_cons.1 hid with rfl | hin
    · obtain ⟨l1, hl1, hk1⟩ := hkills l hl
      have hrest : KeepsLaunches (s.killLaunch id) (r.foldl (fun u i => u.killLaunch i) (s.killLaunch id)) := .foldl fun _ _ => KeepsLaunches.killLaunch.1
      obtain ⟨l2, hl2, hk2⟩ := hrest.kept id l1 hl1
      exact ⟨l2, hl2, hk2 hk1⟩
    · obtain ⟨l1, hl1, -⟩ := hkeeps.kept id l hl
      exact ih hin hl1

/-! The instruction (R136). -/

section
variable {s : State} {w : Who} {a : Nat}

/-- R136: the launches that a `KILL` ends: those at its address that live. -/
def State.killed (s : State) (va : Nat) : List Nat :=
  (List.filter (fun (e : Nat × Launch) => e.2.cdest == va && !e.2.killed && !s.launchOver e.1 e.2) s.launches).map Prod.fst

variable (c : Clear s w { us := [a], priv := true })
include c

theorem kill_kills : exec (.kill a) s = .next (((s.onward w).killed (w.h.uq a).toNat).foldl (fun u id => u.killLaunch id) (s.onward w)) := by
  rw [exec_kill, execKill]
  exact issue_runs c rfl rfl

/-- R136: where every launch at the address is over, the instruction has no effect. -/
theorem kill_movesOn (hover : ∀ e ∈ s.launches, e.2.cdest = (w.h.uq a).toNat → e.2.killed = true ∨ (s.onward w).launchOver e.1 e.2 = true) :
    MovesOn s w (exec (.kill a) s) w.past.pc := by
  have hnone : (s.onward w).killed (w.h.uq a).toNat = [] := by
    rw [State.killed, List.map_eq_nil_iff, List.filter_eq_nil_iff]
    intro e he hcond
    simp only [Bool.and_eq_true, beq_iff_eq, Bool.not_eq_true'] at hcond
    obtain ⟨⟨hdest, hlive⟩, hopen⟩ := hcond
    rcases hover e he hdest with hk | ho
    · exact absurd (hk.symm.trans hlive) (by decide)
    · exact absurd (ho.symm.trans hopen) (by decide)
  rw [kill_kills c, hnone]
  exact onward_movesOn c.who

omit c in
theorem kill_ends {id : Nat} {l : Launch} (hl : Tbl.find? s.launches id = some l) (hdest : l.cdest = (w.h.uq a).toNat)
    (hopen : (s.onward w).launchOver id l = false) :
    ∃ l', Tbl.find? (((s.onward w).killed (w.h.uq a).toNat).foldl (fun u id => u.killLaunch id) (s.onward w)).launches id = some l' ∧ l'.killed = true := by
  by_cases hk : l.killed = true
  · have hkeeps : KeepsLaunches (s.onward w) _ := .foldl (l := (s.onward w).killed (w.h.uq a).toNat) (f := fun u id => u.killLaunch id)
      fun _ _ => KeepsLaunches.killLaunch.1
    obtain ⟨l', hl', hk'⟩ := hkeeps.kept id l hl
    exact ⟨l', hl', hk' hk⟩
  · have hin : id ∈ (s.onward w).killed (w.h.uq a).toNat :=
      List.mem_map.2 ⟨(id, l), List.mem_filter.2 ⟨Tbl.mem_of_find? hl, by simp [hdest, hk, hopen]⟩, rfl⟩
    exact State.foldl_killLaunch_kills hin hl

end

end Sys2Proof.Machine
end

section
/-! SUPPORT. `TRET` (R121, R332): what an image gives back. -/

namespace Sys2Proof.Machine

open Sys2Proof

/-! Tables of an image (R326). -/

theorem Tbl.find?_filterMap {α : Type} (l : List Nat) (f : Nat → Option α) (i : Nat) :
    Tbl.find? (l.filterMap fun k => (f k).map fun x => (k, x)) i = if i ∈ l then f i else none := by
  induction l with
  | nil => rfl
  | cons k r ih =>
    by_cases hk : k = i
    · subst hk
      cases hf : f k with
      | none => simp [hf, ih]
      | some x => simp [hf, Tbl.find?]
    · have hik : ¬ i = k := fun h => hk h.symm
      cases hf : f k with
      | none => simp [hf, ih, hik]
      | some x => simp [hf, Tbl.find?, hk, hik, ih]

theorem State.find?_getTable {α : Type} (s : State) (a n : Nat) (f : Nat → Option α) {i : Nat} (hi : i < n) :
    Tbl.find? (s.getTable a n f) i = f (s.peekN (a + 32 * i) 32) := by
  rw [State.getTable, Tbl.find?_filterMap (List.range n) (fun i => f (s.peekN (a + 32 * i) 32)) i, if_pos (List.mem_range.2 hi)]

theorem State.at_getPreds (s : State) (a : Nat) {p : Nat} (hp : 0 < p) (hp8 : p < 8) :
    Tbl.at (s.getPreds a) p 0 = BitVec.ofNat 32 (s.peekN (a + 4 * p) 4) := by
  interval_cases p <;> rfl

/-- Uniform registers from `lo` on, `n` of them, written with values and tags. -/
def Cohort.setQs (h : Cohort) (lo : Nat) (x : Nat → DWord) (tag : Nat → Nat) (n : Nat) : Cohort :=
  (List.range n).foldl (fun y i => y.setQ (lo + i) (x i) (tag i)) h

section
variable (h : Cohort) {lo : Nat} (hlo : lo ≠ 0) (x : Nat → DWord) (tag : Nat → Nat) (n : Nat)

theorem Cohort.setQs_succ : h.setQs lo x tag (n + 1) = (h.setQs lo x tag n).setQ (lo + n) (x n) (tag n) := by
  rw [Cohort.setQs, List.range_succ, List.foldl_append]
  rfl

include hlo

theorem Cohort.setQs_only : { h.setQs lo x tag n with q := h.q } = h := by
  induction n with
  | zero => rfl
  | succ n ih =>
    rw [Cohort.setQs_succ, Cohort.setQ, if_neg (by omega)]
    exact ih

theorem Cohort.uq_setQs (r : Nat) : (h.setQs lo x tag n).uq r = if lo ≤ r ∧ r < lo + n then x (r - lo) else h.uq r := by
  induction n with
  | zero => exact (if_neg (by omega)).symm
  | succ n ih =>
    have hset := (h.setQs lo x tag n).setQ_set (lo + n) (x n) (tag n)
    rw [Cohort.setQs_succ]
    by_cases hr : r = lo + n
    · rw [hr, (hset.value (by omega)).1, if_pos (by omega), Nat.add_sub_cancel_left]
    · rw [(hset.others r hr).1, ih]
      exact if_congr (by omega) rfl rfl

end

/-! The joins of an image (R115). -/

/-- Where every record still awaits a lane, no join merges. -/
theorem Cohort.settleJoins_of_awaited {h : Cohort} {l : List Nat} (hwait : ∀ n ∈ l, ∀ j, Tbl.find? h.joins n = some j → h.awaited j ≠ 0) :
    h.settleJoins l = h := by
  induction l with
  | nil => rfl
  | cons n r ih =>
    have hrest := ih fun m hm => hwait m (List.mem_cons_of_mem _ hm)
    rw [Cohort.settleJoins]
    split
    · exact hrest
    · next j hj => rw [if_neg (hwait n List.mem_cons_self j hj), hrest]

theorem State.peekN_setCohort (s : State) (c k : Nat) (h : Cohort) (a n : Nat) : (s.setCohort c k h).peekN a n = s.peekN a n := by
  have hpeek (i : Nat) : (s.setCohort c k h).peek (a + i) = s.peek (a + i) := State.peek_congr (s := s) (t := s.setCohort c k h) rfl (State.block?_setCohort s c k h) (fun _ => rfl) _
  rw [State.peekN, State.peekN]
  simp only [hpeek]

theorem State.refusesTret_onward (s : State) (w : Who) : (s.onward w).refusesTret w.gone = s.refusesTret w.h := by
  have hpeek : (s.onward w).peekN = s.peekN := funext₂ fun a n => State.peekN_setCohort s w.c w.k w.gone a n
  rw [State.refusesTret, hpeek]
  rfl

/-! The instruction (R332). -/

section
variable {s : State} {w : Who} (c : Clear s w { priv := true, acc := 0x80 })
include c

theorem tret_eq : exec .tret s = .next (if s.refusesTret w.h then s.setCohort w.c w.k { w.gone with refused := true }
    else (s.onward w).leaveTrap w.c w.k w.gone) := by
  have hgone : (s.setCohort w.c w.k w.gone).cohort? w.c w.k = some w.gone := State.cohort?_setCohort_self ..
  rw [exec_tret, execTret]
  refine (issue_runs c rfl rfl).trans (congrArg _ ?_)
  dsimp only
  rw [hgone, ← State.refusesTret_onward]
  exact ite_congr rfl (fun _ => State.setCohort_setCohort ..) fun _ => rfl

end

/-! The state that goes on (R332). -/

/-- R332 step 3: the splits and records that the image gives back, where no launch record of theirs waits and every record awaits a lane. -/
structure FlowOf (s : State) (h h' : Cohort) : Prop where
  splits : ∀ i, i < 8 → h'.split? i = readSplit (s.peekN (h.image + 0x2100 + 32 * i) 32)
  joins : ∀ j, j < 16 → Tbl.find? h'.joins j = readJoin (s.peekN (h.image + 0x2400 + 32 * j) 32)
  preds : ∀ p, 0 < p → p < 8 → h'.pred p = BitVec.ofNat 32 (s.peekN (h.image + 0x2080 + 4 * p) 4)
  rest : { h' with splits := h.splits, joins := h.joins, overflow := h.overflow, p := h.p } = h

section
variable {s : State} {w : Who} {h : Cohort}

theorem State.loadFlow_flow (hnone : ∀ x ∈ s.waiting, ∀ u i l c, x.2.src ≠ .spawn c u i l)
    (hwait : ∀ j y, j < 16 → readJoin (s.peekN (h.image + 0x2400 + 32 * j) 32) = some y → y.mask &&& ~~~y.arrived &&& ~~~h.dmask &&& ~~~h.exited ≠ 0) :
    FlowOf s h (s.loadFlow h) := by
  unfold State.loadFlow
  dsimp only
  rw [Cohort.settleJoins_of_awaited]
  · refine ⟨fun i hi => ?_, fun j hj => ?_, fun p hp hp8 => ?_, rfl⟩
    · rw [Cohort.split?]
      dsimp only
      rw [Tbl.find?_filterMap, if_pos (List.mem_range.2 hi)]
      refine (Option.map_congr fun sp _ => ?_).trans Option.map_id'
      split
      · next id _ hid =>
        obtain ⟨e, he, -⟩ := Option.map_eq_some_iff.1 hid
        have hsrc := List.find?_some he
        split at hsrc
        · next c u j l heq => exact absurd heq (hnone e (List.mem_of_find?_eq_some he) u j l c)
        · exact absurd hsrc Bool.false_ne_true
      · rfl
    · dsimp only
      exact s.find?_getTable (h.image + 0x2400) 16 readJoin hj
    · exact (if_neg (by omega)).trans (State.at_getPreds _ _ hp hp8)
  · intro n hn j hj
    have hlt : n < 16 := List.mem_range.1 hn
    dsimp only at hj
    have hread : readJoin (s.peekN (h.image + 0x2400 + 32 * n) 32) = some j := (s.find?_getTable (h.image + 0x2400) 16 readJoin hlt).symm.trans hj
    exact hwait n j hlt hread

/-- R332: the cohort as the image gives it back, still in the handler. -/
def State.loaded (s : State) (h : Cohort) : Cohort := s.getQs (h.image + 0x2200) (h.image + 0x2040) 60 (s.loadFlow h)

/-- R332: the cohort that leaves the handler, stopped again where a late fault is left. -/
def Cohort.outside (h : Cohort) (stopped : Bool) : Cohort := { h with handler := false, debug := false, refused := false, stopped := stopped }

/-- R332: the cohort that an image gives back, outside the handler. -/
def State.reloaded (s : State) (h : Cohort) : Cohort := (s.loaded h).outside (h.late != [])

/-- R337: where no chain of the core has faulted, none is given up. -/
theorem State.giveUpChains_of_sound {c : Nat} (hchains : ∀ e, e < 2 → ∀ x ∈ ((s.core c).eng e).chains, x.2.faulted = false) : s.giveUpChains c h = s := by
  have hcopy : ∀ x ∈ (s.core c).copyEng.chains, x.2.faulted = false := hchains 0 (by decide)
  have hgather : ∀ x ∈ (s.core c).gatherEng.chains, x.2.faulted = false := hchains 1 (by decide)
  have hnone {l : Tbl Chain} (hl : ∀ x ∈ l, x.2.faulted = false) (p : Nat × Chain → Bool) (hp : ∀ x, p x = true → x.2.faulted = true) :
      List.filter p l = [] := List.filter_eq_nil_iff.2 fun x hx hpx => absurd ((hp x hpx).symm.trans (hl x hx)) (by decide)
  have hfaulted {x : Nat × Chain} {q r t : Bool} (hx : (q && x.2.faulted && r && t) = true) : x.2.faulted = true := by
    simp only [Bool.and_eq_true] at hx
    obtain ⟨⟨⟨-, h⟩, -⟩, -⟩ := hx
    exact h
  rw [State.giveUpChains, List.foldl_cons, List.foldl_cons, List.foldl_nil]
  dsimp only
  rw [hnone hcopy _ fun _ => hfaulted, List.foldl_nil, hnone hgather _ fun _ => hfaulted, List.foldl_nil]

/-- R332: a cohort that goes on, where no replay entry, no chain and no late fault is left. -/
theorem State.leaveTrap_eq {c k : Nat} (hentries : s.peekN (h.image + 0x8020) 8 = 0) (hchain : s.peekN (h.image + 0x8028) 8 = 0) (hlate : h.late = [])
    (hwake : h.wake.getLsbD 1 = false) (hchains : ∀ e, e < 2 → ∀ x ∈ ((s.core c).eng e).chains, x.2.faulted = false) :
    s.leaveTrap c k h = s.setCohort c k (s.reloaded h).unheld := by
  set t := s.setCohort c k (s.reloaded h) with ht
  have hreload : (if h.wake.getLsbD 1 && h.parked.isSome then (s.setCohort c k (s.reloaded h).wakeUp).acquireDev c k else t) = t := by
    rw [hwake, Bool.false_and]
    exact if_neg Bool.false_ne_true
  have hinject : t.reinjectAll c k h.image = s.setCohort c k (s.reloaded h).unheld := by
    rw [State.reinjectAll, ht, State.peekN_setCohort, hentries, State.onCohort_some (h := s.reloaded h)]
    · exact State.setCohort_setCohort ..
    · exact State.cohort?_setCohort_self ..
  have hresume : (s.setCohort c k (s.reloaded h).unheld).resumeChain c h = s.setCohort c k (s.reloaded h).unheld := by
    rw [State.resumeChain, State.peekN_setCohort, hchain, if_pos rfl]
    have hsame (e : Nat) : (((s.setCohort c k (s.reloaded h).unheld).core c).eng e).chains = ((s.core c).eng e).chains :=
      (congrArg (fun co : CoreSt => (co.eng e).chains) (s.core_setCohort c k _ c) :)
    exact State.giveUpChains_of_sound fun e he x hx => hchains e he x (hsame e ▸ hx)
  rw [State.leaveTrap, if_pos hlate]
  change (State.reinjectAll (if h.wake.getLsbD 1 && h.parked.isSome then (s.setCohort c k (s.reloaded h).wakeUp).acquireDev c k else t) c k h.image).resumeChain c h = _
  rw [hreload, hinject, hresume]

theorem Cohort.split?_unheld (i : Nat) : h.unheld.split? i = (h.split? i).map fun sp => if sp.hold = .full 0 then sp.retry else sp :=
  Tbl.find?_mapv h.splits (fun _ sp => if sp.hold = .full 0 then sp.retry else sp) i

/-- R332: what a cohort has of the image that it gave back. -/
structure ImageOf (s : State) (h h' : Cohort) : Prop where
  lanes : SameLanes h h'
  splits : ∀ i, i < 8 → h'.split? i = readSplit (s.peekN (h.image + 0x2100 + 32 * i) 32)
  joins : ∀ j, j < 16 → Tbl.find? h'.joins j = readJoin (s.peekN (h.image + 0x2400 + 32 * j) 32)
  preds : ∀ p, 0 < p → p < 8 → h'.pred p = BitVec.ofNat 32 (s.peekN (h.image + 0x2080 + 4 * p) 4)
  uniform : ∀ r, r < 64 → h'.uq r = if 60 ≤ r then BitVec.ofNat 64 (s.peekN (h.image + 0x2200 + 8 * r) 8) else h.uq r

theorem State.getQs_eq (a ta : Nat) : s.getQs a ta 60 h =
    h.setQs 60 (fun i => BitVec.ofNat 64 (s.peekN (a + 8 * (60 + i)) 8)) (fun i => s.peekN (ta + 60 + i) 1 % 64) 4 := rfl

theorem State.getQs_only (a ta : Nat) : { s.getQs a ta 60 h with q := h.q } = h := by
  rw [State.getQs_eq]
  exact h.setQs_only (by decide) ..

theorem State.uq_getQs (a ta : Nat) {r : Nat} (hr : r < 64) :
    (s.getQs a ta 60 h).uq r = if 60 ≤ r then BitVec.ofNat 64 (s.peekN (a + 8 * r) 8) else h.uq r := by
  rw [State.getQs_eq, Cohort.uq_setQs _ (by decide)]
  by_cases h60 : 60 ≤ r
  · rw [if_pos ⟨h60, hr⟩, if_pos h60, Nat.add_sub_cancel' h60]
  · rw [if_neg (fun hin => h60 hin.1), if_neg h60]

theorem Cohort.fields_of_q_only {y z : Cohort} (hsame : { z with q := y.q } = y) :
    z.v = y.v ∧ z.splits = y.splits ∧ z.joins = y.joins ∧ z.p = y.p :=
  ⟨(congrArg Cohort.v hsame :), (congrArg Cohort.splits hsame :), (congrArg Cohort.joins hsame :), (congrArg Cohort.p hsame :)⟩

theorem FlowOf.kept {h' : Cohort} (y : FlowOf s h h') : h'.v = h.v ∧ h'.q = h.q :=
  ⟨(congrArg Cohort.v y.rest :), (congrArg Cohort.q y.rest :)⟩

theorem State.loaded_image (hflow : FlowOf s h (s.loadFlow h)) : ImageOf s h (s.loaded h) := by
  obtain ⟨hv, hsplits, hjoins, hp⟩ := Cohort.fields_of_q_only (State.getQs_only (s := s) (h := s.loadFlow h) (h.image + 0x2200) (h.image + 0x2040))
  rw [← State.loaded] at hv hsplits hjoins hp
  rw [hflow.kept.1] at hv
  refine ⟨fun n => ?_, fun i hi => ?_, fun j hj => ?_, fun p hp0 hp8 => ?_, fun r hr => ?_⟩
  · rw [Cohort.vreg, Cohort.vreg, hv]
  · rw [Cohort.split?, hsplits]
    exact hflow.splits i hi
  · rw [hjoins]
    exact hflow.joins j hj
  · rw [Cohort.pred, hp]
    exact hflow.preds p hp0 hp8
  · have huq : (s.loadFlow h).uq r = h.uq r := by rw [Cohort.uq, Cohort.uq, hflow.kept.2]
    rw [State.loaded, State.uq_getQs _ _ hr, huq]

theorem Cohort.outside_unheld_fields (stopped : Bool) :
    (h.outside stopped).unheld.v = h.v ∧ (h.outside stopped).unheld.q = h.q ∧ (h.outside stopped).unheld.joins = h.joins ∧
      (h.outside stopped).unheld.p = h.p ∧ (h.outside stopped).splits = h.splits := ⟨rfl, rfl, rfl, rfl, rfl⟩

/-- R331, R332: outside the handler the cohort keeps what it was given back, but a split that waited for a full store queue issues again. -/
theorem ImageOf.unheld {h' : Cohort} (y : ImageOf s h h') (stopped : Bool) :
    SameLanes h (h'.outside stopped).unheld ∧
    (∀ i, i < 8 → (h'.outside stopped).unheld.split? i =
      (readSplit (s.peekN (h.image + 0x2100 + 32 * i) 32)).map fun sp => if sp.hold = .full 0 then sp.retry else sp) ∧
    (∀ j, j < 16 → Tbl.find? (h'.outside stopped).unheld.joins j = readJoin (s.peekN (h.image + 0x2400 + 32 * j) 32)) ∧
    (∀ p, 0 < p → p < 8 → (h'.outside stopped).unheld.pred p = BitVec.ofNat 32 (s.peekN (h.image + 0x2080 + 4 * p) 4)) ∧
    (∀ r, r < 64 → (h'.outside stopped).unheld.uq r = if 60 ≤ r then BitVec.ofNat 64 (s.peekN (h.image + 0x2200 + 8 * r) 8) else h.uq r) := by
  obtain ⟨hv, hq, hjoins, hp, hsplits⟩ := h'.outside_unheld_fields stopped
  refine ⟨fun n => ?_, fun i hi => ?_, fun j hj => ?_, fun p hp0 hp8 => ?_, fun r hr => ?_⟩
  · rw [Cohort.vreg, hv]
    exact y.lanes n
  · rw [Cohort.split?_unheld, Cohort.split?, hsplits, ← Cohort.split?, y.splits i hi]
  · rw [hjoins, y.joins j hj]
  · rw [Cohort.pred, hp]
    exact y.preds p hp0 hp8
  · rw [Cohort.uq, hq]
    exact y.uniform r hr

end

section
variable {s : State} {w : Who}

theorem State.peekN_onward (a n : Nat) : (s.onward w).peekN a n = s.peekN a n := State.peekN_setCohort ..

/-- R332: the return of a cohort that goes on at once, as one state. -/
theorem tret_reloads (c : Clear s w { priv := true, acc := 0x80 }) (hno : s.refusesTret w.h = false) (hentries : s.peekN (w.h.image + 0x8020) 8 = 0)
    (hchain : s.peekN (w.h.image + 0x8028) 8 = 0) (hlate : w.h.late = []) (hwake : w.h.wake.getLsbD 1 = false)
    (hchains : ∀ e, e < 2 → ∀ x ∈ ((s.core w.c).eng e).chains, x.2.faulted = false) :
    exec .tret s = .next (s.setCohort w.c w.k ((s.onward w).reloaded w.gone).unheld) := by
  have hsame (e : Nat) : (((s.onward w).core w.c).eng e).chains = ((s.core w.c).eng e).chains :=
    (congrArg (fun co : CoreSt => (co.eng e).chains) (s.core_setCohort w.c w.k w.gone w.c) :)
  have hleave : (s.onward w).leaveTrap w.c w.k w.gone = (s.onward w).setCohort w.c w.k ((s.onward w).reloaded w.gone).unheld :=
    State.leaveTrap_eq ((State.peekN_onward ..).trans hentries) ((State.peekN_onward ..).trans hchain) hlate hwake
      fun e he x hx => hchains e he x (hsame e ▸ hx)
  rw [tret_eq c, hno, if_neg Bool.false_ne_true, hleave, State.setCohort_setCohort]

/-- R332: what the image gives back to the cohort that is past its return. -/
theorem ImageOf.of_gone (hwaiting : ∀ x ∈ s.waiting, ∀ u i l c, x.2.src ≠ .spawn c u i l)
    (hjoins : ∀ j y, j < 16 → readJoin (s.peekN (w.h.image + 0x2400 + 32 * j) 32) = some y → y.mask &&& ~~~y.arrived &&& ~~~w.h.dmask &&& ~~~w.h.exited ≠ 0) :
    ImageOf s w.h ((s.onward w).loaded w.gone) := by
  have hflow : FlowOf (s.onward w) w.gone ((s.onward w).loadFlow w.gone) :=
    State.loadFlow_flow hwaiting fun j y hj hy => hjoins j y hj ((congrArg readJoin (State.peekN_onward ..)).symm.trans hy)
  obtain ⟨hl, hs, hj, hp, hu⟩ := State.loaded_image hflow
  simp only [State.peekN_onward] at hs hj hp hu
  exact ⟨hl, hs, hj, hp, hu⟩

end

/-- Settles O41: `SPAWN` by the record that it submits, `KILL` because launches killed stay killed, and `TRET` by what the image gives back. -/
theorem systemInstructionResults : Obligations.SystemInstructionResults := by
  unfold Obligations.SystemInstructionResults
  intro s w a
  dsimp only
  refine ⟨fun c => ?_, fun c => ?_, fun c => ?_⟩
  · have hexec := spawn_submits c
    set r := (s.onward w).spawnRead w (w.h.uq a).toNat with hr
    set x := s.spawnRecord w (w.h.uq a).toNat r.1 with hx
    have hread : SameUnits (s.onward w) r.2 := SameUnits.spawnRead ..
    have hunits : SameUnits (s.onward w) (r.2.submit x) := hread.trans (.submit ..)
    have hclock : r.2.net.hubClock = s.net.hubClock := hread.hubClock
    refine ⟨_, r.2.nextId, r.1, hexec, State.cohort?_setCohort_self .., fun d j hdj => ?_, hunits.launches, ?_, fun hbad => ?_, ?_⟩
    · rw [State.cohort?_setCohort_other _ _ hdj, hunits.cohort?]
      exact State.cohort?_setCohort_other _ _ hdj
    · rw [State.setCohort_waiting, State.submit_waiting, Tbl.find?_put_self, hclock]
      rfl
    · exact State.snapRecord_misaligned _ hbad
    · exact State.mem_agenda_pokeLaunch (List.ne_nil_of_mem (Tbl.mem_put_self _ _ _))
  · exact ⟨kill_movesOn c, _, kill_kills c, fun id l hl hdest hopen => kill_ends hl hdest hopen⟩
  · have hexec := tret_eq c
    refine ⟨fun hyes => ?_, fun hno => ?_, fun hno hentries hchain hlate hwake hchains hwaiting hjoins => ?_⟩
    · rw [hyes, if_pos rfl] at hexec
      exact ⟨_, _, hexec, State.setCohort_only .., State.cohort?_setCohort_self .., rfl⟩
    · rw [hno, if_neg Bool.false_ne_true] at hexec
      exact hexec
    · have y := ImageOf.of_gone hwaiting hjoins
      have hreloads := tret_reloads c hno hentries hchain hlate hwake hchains
      have hstopped : (w.gone.late != []) = false := congrArg (· != []) hlate
      rw [State.reloaded, hstopped] at hreloads
      generalize (s.onward w).loaded w.gone = z at y hreloads
      exact ⟨_, _, hreloads, State.setCohort_only .., State.cohort?_setCohort_self .., rfl, rfl, rfl, rfl, y.unheld false⟩

end Sys2Proof.Machine
end

section
/-! SUPPORT. Numbers in memory: their bound, and the integer that their bits hold (R2, R151). -/

namespace Sys2Proof

theorem leNat_lt (bs : List Byte) : leNat bs < 256 ^ bs.length := by
  induction bs with
  | nil => exact Nat.one_pos
  | cons b r ih =>
    have hb : b.toNat < 256 := b.isLt
    rw [leNat, List.length_cons, Nat.pow_succ]
    omega

theorem Mem.rdN_lt (m : Mem) (a n : Nat) : Mem.rdN m a n < 256 ^ n := by
  have h := leNat_lt (Mem.rdBytes m a n)
  rwa [Mem.rdBytes_eq_map, List.length_map, List.length_range, ← Mem.rdBytes_eq_map] at h

/-- The integer that the bits of `n` bytes hold in two's complement. -/
def signedOf (n v : Nat) : Int := if v < 256 ^ n / 2 then v else (v : Int) - (256 ^ n : Nat)

theorem two_pow_bits (n : Nat) : 2 ^ (8 * n) = 256 ^ n := Nat.pow_mul 2 8 n

theorem sintOf_bits {n v : Nat} (hn : 0 < n) (hv : v < 256 ^ n) : Num.sintOf (8 * n) v = signedOf n v := by
  have hhalf : 2 ^ (8 * n - 1) = 256 ^ n / 2 := by rw [← two_pow_bits, Nat.pow_sub_one (by decide) (by omega)]
  rw [Num.sintOf, hhalf, two_pow_bits, Nat.mod_eq_of_lt hv, signedOf]

end Sys2Proof
end

section
/-! SUPPORT. Atomics and writes where they perform: the result of an operation, and what a line with no open shadow gives and takes (R150, R151, R276). -/

namespace Sys2Proof.Machine

open Sys2Proof

/-! The results of the operations (R151). -/

theorem typeSize_of_integer {ty : Nat} (hty : ty < 4) : typeSize ty = 4 ∨ typeSize ty = 8 := by
  interval_cases ty
  exacts [.inl rfl, .inl rfl, .inr rfl, .inr rfl]

/-- R151: the order of a type's values: types 0 and 2 are signed, 1 and 3 are not. -/
def TypeLt (ty a b : Nat) : Prop := if ty = 0 ∨ ty = 2 then signedOf (typeSize ty) a < signedOf (typeSize ty) b else a < b

section
variable {ty old x : Nat} (hty : ty < 4)
include hty

theorem not_float_of_integer : ¬ ty = 4 := by omega

theorem atomNew_add : atomNew 0 ty old x = (old + x) % 256 ^ typeSize ty := by
  rw [← two_pow_bits]
  exact if_neg (not_float_of_integer hty)

theorem atomNew_and : atomNew 3 ty old x = old &&& x := if_neg (not_float_of_integer hty)

theorem atomNew_or : atomNew 4 ty old x = old ||| x := if_neg (not_float_of_integer hty)

theorem atomNew_xor : atomNew 5 ty old x = old ^^^ x := if_neg (not_float_of_integer hty)

theorem atomNew_exch (op : Nat) : atomNew (op + 6) ty old x = x := if_neg (not_float_of_integer hty)

variable (hold : old < 256 ^ typeSize ty) (hx : x < 256 ^ typeSize ty)
include hold hx

/-- The test that the model makes of two values is the order of their type. -/
theorem typeLt_iff : (if ty = 0 ∨ ty = 2 then decide (Num.sintOf (8 * typeSize ty) old < Num.sintOf (8 * typeSize ty) x) else decide (old < x)) = true ↔
    TypeLt ty old x := by
  have hpos : 0 < typeSize ty := by rcases typeSize_of_integer hty with h | h <;> omega
  rw [TypeLt, sintOf_bits hpos hold, sintOf_bits hpos hx]
  split <;> exact decide_eq_true_iff

theorem atomNew_min {hdec : Decidable (TypeLt ty x old)} : atomNew 1 ty old x = if TypeLt ty x old then x else old :=
  (if_neg (not_float_of_integer hty)).trans (if_congr (typeLt_iff hty hx hold) rfl rfl)

theorem atomNew_max {hdec : Decidable (TypeLt ty old x)} : atomNew 2 ty old x = if TypeLt ty old x then x else old :=
  (if_neg (not_float_of_integer hty)).trans (if_congr (typeLt_iff hty hold hx) rfl rfl)

/-- R151: the result of an operation on an integer type has the bytes of the type. -/
theorem atomNew_lt (op : Nat) : atomNew op ty old x < 256 ^ typeSize ty := by
  match op with
  | 0 =>
    rw [atomNew_add hty]
    exact Nat.mod_lt _ (Nat.pow_pos (by decide))
  | 1 =>
    rw [atomNew_min (hdec := Classical.dec _) hty hold hx]
    split <;> assumption
  | 2 =>
    rw [atomNew_max (hdec := Classical.dec _) hty hold hx]
    split <;> assumption
  | 3 =>
    rw [atomNew_and hty]
    exact Nat.and_le_left.trans_lt hold
  | 4 =>
    rw [← two_pow_bits] at *
    rw [atomNew_or hty]
    exact Nat.or_lt_two_pow hold hx
  | 5 =>
    rw [← two_pow_bits] at *
    rw [atomNew_xor hty]
    exact Nat.xor_lt_two_pow hold hx
  | op + 6 => rwa [atomNew_exch hty]

end

/-! An aligned number at its home (R150, R276). -/

/-- A number of `n` bytes stands aligned at its home, on a line with no open shadow, and none of its granules is poisoned. -/
structure State.Quiet (s : State) (pa n : Nat) : Prop where
  homed : isHomed pa = true
  aligned : pa % n = 0
  closed : Tbl.find? s.shadows (pa / 128) = none
  good : s.poisoned pa n = false

/-- R151: an atomic answers the old value, `new` then stands in its bytes, and every other byte is as before. -/
def State.Performs (s : State) (x : LaneAcc) (kind : AccKind) (n new : Nat) : Prop :=
  (s.atomAt kind x).1 = Mem.rdN s.mem x.pa n ∧ Mem.rdN (s.atomAt kind x).2.mem x.pa n = new ∧
    ∀ a, a < x.pa ∨ x.pa + n ≤ a → Mem.rd (s.atomAt kind x).2.mem a = Mem.rd s.mem a

section
variable {s : State} {n : Nat}

section
variable {pa : Nat} (y : s.Quiet pa n) (hn : n = 4 ∨ n = 8)
include y hn

theorem State.Quiet.look : s.look pa n = (Mem.rdN s.mem pa n, s) := by
  have hlast : Tbl.find? s.shadows ((pa + n - 1) / 128) = none := by rw [lastLine_of_aligned y.aligned hn, y.closed]
  rw [State.look, State.narrowIn_of_none y.closed hlast, State.peekN_homed_of_le s y.homed (by omega)]

theorem State.Quiet.land (v : Nat) : (s.land [(pa, leBytes n v)]).mem = Mem.wrN s.mem pa n v :=
  State.land_mem y.closed (by rw [leBytes_length, lastLine_of_aligned y.aligned hn, y.closed])

end

variable {x : LaneAcc} {ty : Nat} (hwf : s.mem.wf = true)
include hwf

/-- An atomic that answers the old value and lands a number performs. -/
theorem State.performs_of_land {kind : AccKind} {new : Nat} (y : s.Quiet x.pa n) (hn : n = 4 ∨ n = 8) (hnew : new < 256 ^ n)
    (h : s.atomAt kind x = (Mem.rdN s.mem x.pa n, s.land [(x.pa, leBytes n new)])) : s.Performs x kind n new := by
  rw [State.Performs, h]
  refine ⟨rfl, ?_, fun a ha => ?_⟩
  · rw [y.land hn, Mem.rdN_wrN hwf, Nat.mod_eq_of_lt hnew]
  · rw [y.land hn, Mem.wrN, Mem.rd_wrBytes_out hwf _ _ _ (by rwa [leBytes_length])]

theorem State.Quiet.performs_atom (hty : ty < 4) (hx : x.x < 256 ^ typeSize ty) (y : s.Quiet x.pa (typeSize ty)) (op : Nat) :
    s.Performs x (.atom op ty) (typeSize ty) (atomNew op ty (Mem.rdN s.mem x.pa (typeSize ty)) x.x) := by
  have hn := typeSize_of_integer hty
  refine State.performs_of_land hwf y hn (atomNew_lt hty (Mem.rdN_lt ..) hx op) ?_
  rw [State.atomAt, y.look hn, y.good]
  rfl

theorem State.Quiet.performs_cas (hty : ty < 4) (hy : x.y < 256 ^ typeSize ty) (y : s.Quiet x.pa (typeSize ty)) :
    s.Performs x (.cas ty) (typeSize ty) (if Mem.rdN s.mem x.pa (typeSize ty) = x.x then x.y else Mem.rdN s.mem x.pa (typeSize ty)) := by
  have hn := typeSize_of_integer hty
  have hcas : s.atomAt (.cas ty) x = (Mem.rdN s.mem x.pa (typeSize ty),
      if Mem.rdN s.mem x.pa (typeSize ty) = x.x then s.land [(x.pa, leBytes (typeSize ty) x.y)] else s) := by
    rw [State.atomAt, y.look hn, y.good]
    rfl
  split
  · next heq =>
    rw [if_pos heq] at hcas
    exact State.performs_of_land hwf y hn hy hcas
  · next hne =>
    rw [if_neg hne] at hcas
    rw [State.Performs, hcas]
    exact ⟨rfl, rfl, fun _ _ => rfl⟩

theorem State.Quiet.performs_sub (hx : x.x < 2 ^ 64) (y : s.Quiet x.pa 8) :
    s.Performs x .sub 8 ((Mem.rdN s.mem x.pa 8 + 2 ^ 64 - x.x) % 2 ^ 64) := by
  refine State.performs_of_land hwf y (.inr rfl) (Nat.mod_lt _ (by decide)) ?_
  rw [State.atomAt, y.look (.inr rfl), y.good, Nat.mod_eq_of_lt hx]
  rfl

end

/-- Settles O29: each operation's result lands over the old value that `State.Quiet.look` reads, and a write at its home lands its bytes. -/
theorem performResults : Obligations.PerformResults := by
  refine ⟨fun s x op ty hwf => ?_, fun s pa bs hwf _ hhome hfirst hlast a => ?_⟩
  · intro n old quiet performs signed lt
    have hquiet {m : Nat} : quiet m → s.Quiet x.pa m := fun ⟨hhome, halign, hclosed, hgood⟩ => ⟨hhome, halign, hclosed, hgood⟩
    refine ⟨fun hty hx hq => ?_, fun hty hy hq => (hquiet hq).performs_cas hwf hty hy, fun hq hx => (hquiet hq).performs_sub hwf hx⟩
    have hold : old < 256 ^ n := Mem.rdN_lt ..
    have hperforms (k new : Nat) (hnew : atomNew k ty old x.x = new) : performs (.atom k ty) n new :=
      hnew ▸ (hquiet hq).performs_atom hwf hty hx k
    refine ⟨?_, ?_, ?_, ?_, ?_, ?_, ?_⟩ <;> rintro rfl
    · exact hperforms 0 _ (atomNew_add hty)
    · exact hperforms 1 _ (atomNew_min hty hold hx)
    · exact hperforms 2 _ (atomNew_max hty hold hx)
    · exact hperforms 3 _ (atomNew_and hty)
    · exact hperforms 4 _ (atomNew_or hty)
    · exact hperforms 5 _ (atomNew_xor hty)
    · exact hperforms 6 _ (atomNew_exch hty 0)
  · rw [State.homeWrite_mem (hhome.imp_right .inl) hfirst hlast, Mem.rd_wrBytes hwf]

end Sys2Proof.Machine
end

section
/-! SUPPORT. Fences, path fences and the instructions on ranges of the L1 (R154 to R157). -/

namespace Sys2Proof.Machine

open Sys2Proof

/-- R155: the cohort past its instruction, with a fence listed last. -/
def Who.fenced (w : Who) (scope pred succ paths : Nat) : Cohort :=
  { w.gone with fences := w.h.fences ++ [{ seq := w.h.seq + 1, scope := scope, pred := pred, succ := succ, paths := paths, handler := w.h.handler }] }

section
variable {s : State} {w : Who}

/-- An instruction whose effect is a fence lists it, and its completion is due. -/
theorem fenced_of_addFence {i : Instr} {scope pred succ paths : Nat} (h : exec i s = .next ((s.onward w).addFence w scope pred succ paths)) :
    Leaves s w (exec i s) (w.fenced scope pred succ paths) [{ row := .fenceComplete, ops := [w.c, w.k] }] := by
  rw [State.addFence, State.onCohort_onward] at h
  exact leaves_pushOnce h

theorem fence_lists {o : OpFence} (c : Clear s w {}) :
    Leaves s w (exec (.fence o) s) (w.fenced o.s o.p o.c 0) [{ row := .fenceComplete, ops := [w.c, w.k] }] := by
  refine fenced_of_addFence ?_
  rw [exec_fence, execFence]
  exact issue_runs c rfl rfl

theorem pfence_lists {n : Nat} (c : Clear s w {}) :
    Leaves s w (exec (.pfence n) s) (w.fenced 2 0 0 n) [{ row := .fenceComplete, ops := [w.c, w.k] }] := by
  refine fenced_of_addFence ?_
  rw [exec_pfence, execPfence]
  exact issue_runs c rfl rfl

/-! Ranges (R157). -/

theorem storesFirst_of_stores (h : w.h.stores ≠ []) : storesFirst w s = some s := by
  rw [storesFirst, List.isEmpty_eq_false_iff.2 h]
  rfl

theorem storesFirst_of_none (h : w.h.stores = []) : storesFirst w s = none := by
  rw [storesFirst, h]
  rfl

/-- R157: the state past the instruction, with the dirty bytes of the range's frames gone home. -/
def State.flushed (s : State) (w : Who) (a l : Nat) (drop : Bool) : State :=
  (s.onward w).flushFrames w ((s.onward w).rangeFrames w.c w.h.asid (w.range a l).1 (w.range a l).2) drop

section
variable {a l : Nat} (c : Clear s w { us := [a, l], acc := 0x40 })
include c

theorem wbr_waits (hstores : w.h.stores ≠ []) : exec (.wbr a l) s = .next s := by
  rw [exec_wbr, execWbr]
  exact issue_held c rfl (storesFirst_of_stores hstores)

theorem wbr_runs (hstores : w.h.stores = []) : exec (.wbr a l) s = .next (if w.h.uq l = 0 then s.onward w else s.flushed w a l false) := by
  rw [exec_wbr, execWbr]
  exact issue_runs c rfl (storesFirst_of_none hstores)

end

section
variable {a l : Nat} (c : Clear s w { us := [a, l], acc := 0xc0 })
include c

theorem invr_waits (hstores : w.h.stores ≠ []) : exec (.invr a l) s = .next s := by
  rw [exec_invr, execInvr]
  exact issue_held c rfl (storesFirst_of_stores hstores)

theorem invr_runs (hstores : w.h.stores = []) :
    exec (.invr a l) s = .next (if w.h.uq l = 0 then s.onward w else (s.flushed w a l true).addFence w 2 0 0 4) := by
  rw [exec_invr, execInvr]
  exact issue_runs c rfl (storesFirst_of_none hstores)

end

end

/-- Settles O30: fences are listed by `State.addFence`, and `WBR` and `INVR` wait, go on or flush by the queue and the length. -/
theorem fenceResults : Obligations.FenceResults := by
  intro s w o n a l lists lo hi
  refine ⟨fun c => ⟨fence_lists c, pfence_lists c⟩, fun c => ⟨wbr_waits c, fun hnone hzero => ?_, fun hnone hlen => ?_⟩,
    fun c => ⟨invr_waits c, fun hnone hzero => ?_, fun hnone hlen hframes => ?_, fun hnone hlen => ?_⟩⟩
  · rw [wbr_runs c hnone, if_pos hzero]
    exact onward_movesOn c.who
  · rw [wbr_runs c hnone, if_neg hlen]
    rfl
  · rw [invr_runs c hnone, if_pos hzero]
    exact onward_movesOn c.who
  · have hflush : s.flushed w a l true = s.onward w := congrArg ((s.onward w).flushFrames w · true) hframes
    have hruns := invr_runs c hnone
    rw [if_neg hlen, hflush] at hruns
    exact fenced_of_addFence hruns
  · rw [invr_runs c hnone, if_neg hlen]
    rfl

end Sys2Proof.Machine
end

section
/-! SUPPORT. Grants of accumulator banks: the grant that a register names, what holds an instruction on it, and its banks cleared (R178, R179, R181, R184). -/

namespace Sys2Proof.Machine

open Sys2Proof

/-! The grant (R178). -/

theorem State.grants_onward (s : State) (w : Who) (d : Nat) : ((s.onward w).core d).grants = (s.core d).grants :=
  (congrArg CoreSt.grants (State.core_setCohort s w.c w.k w.gone d) :)

theorem State.mats_onward (s : State) (w : Who) (d : Nat) : ((s.onward w).core d).mats = (s.core d).mats :=
  (congrArg CoreSt.mats (State.core_setCohort s w.c w.k w.gone d) :)

theorem State.grantOf_onward (s : State) (w : Who) (q : Nat) : (s.onward w).grantOf w q = s.grantOf w q := by
  rw [State.grantOf, State.grantOf, State.grants_onward]

/-- R178: the grant that a register names is one of the issuing block's. -/
theorem State.slot_of_grantOf {s : State} {w : Who} {q : Nat} {g : Grant} (h : s.grantOf w q = some g) : g.slot = w.h.slot := by
  have hfind := List.find?_some h
  rw [Bool.and_eq_true] at hfind
  exact beq_iff_eq.mp hfind.1

/-- R178, R179: a run of banks cleared reads zero, and every other byte is as before. -/
theorem State.rd_clearBanks (s : State) (c base n a : Nat) : Mem.rd (s.clearBanks c base n).mem a =
    if accBase c + base * 0x10000 ≤ a ∧ a < accBase c + (base + n) * 0x10000 then 0 else Mem.rd s.mem a := by
  have hend : accBase c + (base + n) * 0x10000 = accBase c + base * 0x10000 + n * 0x10000 := by omega
  rw [hend]
  exact Mem.rd_clear ..

/-! What holds an instruction on a grant (R180, R181, R184). -/

/-- No epilogue read of the grant is to come but for those that the cohort's own trap holds (R184). -/
def Block.GrantUnread (bl : Block) (g : Grant) (uid : Nat) : Prop :=
  ∀ e ∈ bl.handles, ∀ y ∈ e.2.writes, y.grant.toNat = g.word → y.held = true ∧ y.uid = uid

/-- No multiply on the grant has yet to perform (R180). -/
def CoreSt.GrantIdle (co : CoreSt) (g : Grant) : Prop := ∀ m ∈ co.mats, m.slot = g.slot → m.grant ≠ g.serial

/-- No paired multiply of the core is to perform (R181). -/
def CoreSt.Alone (co : CoreSt) : Prop := ∀ m ∈ co.mats, m.paired = false

section
variable {s : State} {w : Who} {q : Nat} {g : Grant} {bl : Block} (hb : s.block? w.c w.h.slot = some bl) (hg : s.grantOf w q = some g)

theorem State.grantBusy_eq_false {c : Nat} (h : (s.core c).GrantIdle g) : s.grantBusy c g = false := by
  simpa [State.grantBusy, CoreSt.GrantIdle] using h

theorem State.neighbourBusy_eq_false {c : Nat} (h : (s.core (c ^^^ 1)).Alone) : s.neighbourBusy c = false := by
  simpa [State.neighbourBusy, CoreSt.Alone] using h

include hg

include hb in
theorem State.readOfGrant_eq_false (h : bl.GrantUnread g w.h.uid) : s.readOfGrant w g = false := by
  rw [State.readOfGrant, State.slot_of_grantOf hg, hb, Option.elim_some]
  simp only [List.any_eq_false, Bool.not_eq_true, Bool.and_eq_false_iff, beq_eq_false_iff_ne, Transfer.keeps_eq_false_iff]
  exact fun e he y hy => Decidable.or_iff_not_imp_left.2 fun hword => h e he y hy (not_not.1 hword)

theorem State.grantBad_none : s.grantBad w q = none := by rw [State.grantBad, hg]; rfl

include hb in
/-- Nothing holds an instruction on a grant that no earlier work is on. -/
theorem State.grantHold_none {order array : Bool} (hread : bl.GrantUnread g w.h.uid) (horder : order = true → (s.core w.c).GrantIdle g)
    (harray : array = true → (s.core (w.c ^^^ 1)).Alone) : s.grantHold w q order array = none := by
  have hfirst : (order && s.grantBusy w.c g) = false := by
    cases order with
    | false => rfl
    | true => exact State.grantBusy_eq_false (horder rfl)
  have hlast : (array && s.neighbourBusy w.c) = false := by
    cases array with
    | false => rfl
    | true => exact State.neighbourBusy_eq_false (harray rfl)
  rw [State.grantHold, hg]
  dsimp only
  rw [hfirst, hlast, State.readOfGrant_eq_false hb hg hread]
  rfl

end

theorem State.grantBad_some {s : State} {w : Who} {q : Nat} (h : s.grantOf w q = none) : s.grantBad w q = some { code := 10 } := by
  rw [State.grantBad, h]
  rfl

/-! The instructions (R178, R179). -/

/-- The grant that `ACQ` makes in the banks from `f` on. -/
def State.newGrant (s : State) (w : Who) (n f : Nat) : Grant := { slot := w.h.slot, serial := (s.core w.c).grantSerial, count := n, base := f }

/-- The core with a grant added under its next serial number. -/
def CoreSt.addGrant (co : CoreSt) (g : Grant) : CoreSt := { co with grants := co.grants ++ [g], grantSerial := (co.grantSerial + 1) % 65536 }

/-- The core without a grant. -/
def CoreSt.dropGrant (co : CoreSt) (g : Grant) : CoreSt := { co with grants := co.grants.filter fun x => !(x.slot == g.slot && x.serial == g.serial) }

/-- The cohort whose split has gone on, with a uniform register written (R54). -/
structure UniformWritten (w : Who) (h : Cohort) (d : Nat) (x : DWord) (tag : Nat) : Prop where
  went : WentOn w w.past h
  same : SameBut w.h h
  lanes : SameLanes w.h h
  preds : SamePreds w.h h
  set : UniformSet w.h h d x tag

theorem Who.gone_setQ_written {s : State} {w : Who} (h : s.who? = some w) (d : Nat) (x : DWord) (tag : Nat) :
    UniformWritten w (w.gone.setQ d x tag) d x tag := by
  have hwent := Who.gone_wentOn h
  have hset := (Cohort.setQ_set w.gone d x tag).ofGone
  by_cases hd : d = 0
  · rw [Cohort.setQ, if_pos hd] at hset ⊢
    exact ⟨hwent, w.gone_sameBut, fun _ => rfl, fun _ => rfl, hset⟩
  · rw [Cohort.setQ, if_neg hd] at hset ⊢
    exact ⟨⟨hwent.here, hwent.others, rfl⟩, w.gone_sameBut, fun _ => rfl, fun _ => rfl, hset⟩

section
variable {s : State} {w : Who} {n d : Nat} {bl : Block} (hb : s.block? w.c w.h.slot = some bl) (c : Clear s w { ud := [d] })
include hb c

theorem acq_stops (hn : bl.accN < n) : Stops s w (exec (.acq n d) s) 9 0 0 := by
  rw [exec_acq, execAcq]
  dsimp only
  exact issue_traps (b := { code := 9 }) c (badIf_of (by simpa [hb] using hn) ..)

theorem acq_waits (hn : n ≤ bl.accN) (hrun : (s.core w.c).bankRun bl.accBase bl.accN n = none) :
    Waits s w (exec (.acq n d) s) 7 .banks := by
  rw [exec_acq, execAcq]
  dsimp only
  rw [issue_held (t := s.waitIn w 7 .banks) c (badIf_of_not (by simpa [hb] using hn) ..)
    (by rw [hb, Option.elim_some, hrun])]
  exact State.waitIn_waits c.who ..

theorem acq_runs {f : Nat} (hn : n ≤ bl.accN) (hrun : (s.core w.c).bankRun bl.accBase bl.accN n = some f) : exec (.acq n d) s =
    .next (((s.onward w).onCore w.c (·.addGrant (s.newGrant w n f))).setCohort w.c w.k
      (w.gone.setQ d (BitVec.ofNat 64 (s.newGrant w n f).word) 0)) := by
  have hrun' : ((s.onward w).core w.c).bankRun bl.accBase bl.accN n = some f := by rw [State.core_onward]; exact hrun
  have hgone : ((s.onward w).onCore w.c (·.addGrant (s.newGrant w n f))).cohort? w.c w.k = some w.gone := by
    rw [State.cohort?, State.core_onCore_self]
    exact State.cohort?_setCohort_self ..
  have hserial : ((s.onward w).core w.c).grantSerial = (s.core w.c).grantSerial := by rw [State.core_onward]
  rw [exec_acq, execAcq]
  dsimp only
  rw [issue_runs c (badIf_of_not (by simpa [hb] using hn) ..) (by rw [hb, Option.elim_some, hrun]), State.block?_setCohort, hb, Option.elim_some, hrun']
  dsimp only
  rw [hserial]
  exact congrArg Host.Outcome.next (State.onCohort_some hgone _)

/-- R178: the lowest free run is granted, and the register has the grant's word. -/
theorem acq_grants {f : Nat} (hn : n ≤ bl.accN) (hrun : (s.core w.c).bankRun bl.accBase bl.accN n = some f) :
    ∃ t h, exec (.acq n d) s = .next t ∧ (t.core w.c).grants = (s.core w.c).grants ++ [s.newGrant w n f] ∧
      (t.core w.c).grantSerial = ((s.core w.c).grantSerial + 1) % 65536 ∧ t.cohort? w.c w.k = some h ∧
      UniformWritten w h d (BitVec.ofNat 64 (s.newGrant w n f).word) 0 ∧ t.mem = s.mem := by
  refine ⟨_, _, acq_runs hb c hn hrun, ?_, ?_, State.cohort?_setCohort_self .., Who.gone_setQ_written c.who .., rfl⟩
  · rw [State.setCohort, State.core_onCore_self, State.core_onCore_self, State.core_onward]
    rfl
  · rw [State.setCohort, State.core_onCore_self, State.core_onCore_self, State.core_onward]
    rfl

end

section
variable {s : State} {w : Who} {q : Nat} (c : Clear s w { us := [q] })
include c

theorem acr_stops (hg : s.grantOf w q = none) : Stops s w (exec (.acr q) s) 10 0 0 := by
  rw [exec_acr, execAcr]
  exact issue_traps (b := { code := 10 }) c (State.grantBad_some hg)

theorem mmz_stops (hg : s.grantOf w q = none) : Stops s w (exec (.mmz q) s) 10 0 0 := by
  rw [exec_mmz, execMmz]
  exact issue_traps (b := { code := 10 }) c (State.grantBad_some hg)

variable {bl : Block} {g : Grant} (hb : s.block? w.c w.h.slot = some bl) (hg : s.grantOf w q = some g) (hidle : (s.core w.c).GrantIdle g)
  (hread : bl.GrantUnread g w.h.uid)
include hb hg hidle hread

theorem acr_runs : exec (.acr q) s =
    .next ((((s.onward w).clearBanks w.c g.base g.count).onCore w.c (·.dropGrant g)).retryHolds w.c fun y => y == .banks) := by
  rw [exec_acr, execAcr, issue_runs c (State.grantBad_none hg) (State.grantHold_none (array := false) hb hg hread (fun _ => hidle) nofun), State.grantOf_onward, hg]
  rfl

theorem mmz_runs (halone : (s.core (w.c ^^^ 1)).Alone) : exec (.mmz q) s =
    .next (((s.onward w).clearBanks w.c g.base g.count).onCore w.c (·.setGrantType g 0)) := by
  rw [exec_mmz, execMmz, issue_runs c (State.grantBad_none hg) (State.grantHold_none hb hg hread (fun _ => hidle) fun _ => halone),
    State.grantOf_onward, hg]

end

/-- Settles O37: each instruction's outcome, with the banks cleared by `State.rd_clearBanks`. -/
theorem grantResults : Obligations.GrantResults := by
  intro s w n d q bl g hb
  refine ⟨fun c => ⟨acq_stops hb c, acq_waits hb c, fun hn f hrun => ?_⟩,
    fun c => ⟨fun hg => ⟨acr_stops c hg, mmz_stops c hg⟩, fun hg hidle hread => ⟨⟨_, acr_runs c hb hg hidle hread, ?_, ?_⟩, fun halone =>
      ⟨_, mmz_runs c hb hg hidle hread halone, ?_, ?_, ?_⟩⟩⟩⟩
  · obtain ⟨t, h, hexec, hgrants, hserial, hcohort, hwrite, hmem⟩ := acq_grants hb c hn hrun
    exact ⟨t, h, hexec, hgrants, hserial, hcohort, hwrite.went, hwrite.same, hwrite.lanes, hwrite.preds, hwrite.set, hmem⟩
  · exact State.rd_clearBanks (s.onward w) w.c g.base g.count
  · rw [State.retryHolds, State.core_onCore_self, State.core_onCore_self]
    exact congrArg (List.filter _) (State.grants_onward s w w.c)
  · exact State.rd_clearBanks (s.onward w) w.c g.base g.count
  · rw [State.cohort?, State.core_onCore_self]
    exact State.cohort?_setCohort_self s w.c w.k w.gone
  · rw [State.core_onCore_self]
    exact congrArg (List.map _) (State.grants_onward s w w.c)

end Sys2Proof.Machine
end

section
/-! SUPPORT. Images of tiles as bytes: an image that is written reads back with the elements and the exponents that it has (R30, R165). -/

namespace Sys2Proof

/-- A byte beside the one written reads as before, in any memory. -/
theorem Mem.rd_wr_ne (m : Mem) {a b : Nat} (h : b ≠ a) (v : Byte) : Mem.rd (Mem.wr m a v) b = Mem.rd m b := by
  have hsym : a ≠ b := fun hab => h hab.symm
  induction m with
  | nil => rw [Mem.wr]; split <;> simp [Mem.rd, hsym]
  | cons e r ih =>
    obtain ⟨d, w⟩ := e
    rw [Mem.wr]
    split
    · split <;> simp [Mem.rd, hsym]
    · split
      · next hd => subst hd; split <;> simp [Mem.rd, hsym]
      · simp [Mem.rd, ih]

theorem Mem.rd_wrBytes_beside (m : Mem) (a : Nat) (bs : List Byte) {b : Nat} (h : b < a ∨ a + bs.length ≤ b) :
    Mem.rd (Mem.wrBytes m a bs) b = Mem.rd m b := by
  induction bs generalizing m a with
  | nil => rfl
  | cons v r ih =>
    rw [List.length_cons] at h
    rw [Mem.wrBytes, ih _ _ (by omega), Mem.rd_wr_ne m (by omega)]

end Sys2Proof

namespace Sys2Proof.Machine

open Sys2Proof

/-! Numbers of a width in a row of bytes (R2). -/

@[simp] theorem splitNums_length (size n : Nat) (bs : List Byte) : (splitNums size n bs).length = n := by
  induction n generalizing bs with
  | zero => rfl
  | succ n ih => rw [splitNums, List.length_cons, ih]

theorem lt_of_mem_splitNums {size n : Nat} {bs : List Byte} {x : Nat} (h : x ∈ splitNums size n bs) : x < 256 ^ size := by
  induction n generalizing bs with
  | zero => cases h
  | succ n ih =>
    rw [splitNums, List.mem_cons] at h
    rcases h with rfl | h
    · exact (leNat_lt _).trans_le (Nat.pow_le_pow_right (by decide) (List.length_take_le ..))
    · exact ih h

theorem splitNums_leBytes_append (size n : Nat) {x : Nat} (hx : x < 256 ^ size) (bs : List Byte) :
    splitNums size (n + 1) (leBytes size x ++ bs) = x :: splitNums size n bs := by
  rw [splitNums, List.take_left' (leBytes_length ..), List.drop_left' (leBytes_length ..), leNat_leBytes, Nat.mod_eq_of_lt hx]

theorem splitNums_flatMap_leBytes (size : Nat) {l : List Nat} (hl : ∀ x ∈ l, x < 256 ^ size) (rest : List Byte) :
    splitNums size l.length (l.flatMap (leBytes size) ++ rest) = l := by
  induction l with
  | nil => rfl
  | cons x r ih =>
    rw [List.length_cons, List.flatMap_cons, List.append_assoc, splitNums_leBytes_append _ _ (hl x List.mem_cons_self),
      ih fun y hy => hl y (List.mem_cons_of_mem _ hy)]

theorem flatMap_leBytes_length (size : Nat) (l : List Nat) : (l.flatMap (leBytes size)).length = l.length * size := by
  simp [List.length_flatMap, leBytes_length]

/-! Blocks of mantissas (R30). -/

theorem joinMants_lt (m : Nat) (l : List Nat) : joinMants m l < 2 ^ (m * l.length) := by
  induction l with
  | nil => exact Nat.one_pos
  | cons x r ih =>
    have hx : x % 2 ^ m < 2 ^ m := Nat.mod_lt _ (Nat.two_pow_pos m)
    rw [joinMants, List.length_cons, Nat.mul_succ, Nat.add_comm (m * _), Nat.pow_add]
    calc x % 2 ^ m + 2 ^ m * joinMants m r < 2 ^ m + 2 ^ m * joinMants m r := Nat.add_lt_add_right hx _
      _ = 2 ^ m * (joinMants m r + 1) := by rw [Nat.mul_succ, Nat.add_comm]
      _ ≤ 2 ^ m * 2 ^ (m * r.length) := Nat.mul_le_mul_left _ ih

theorem joinMants_digit (m : Nat) {l : List Nat} (hl : ∀ x ∈ l, x < 2 ^ m) (j : Nat) : joinMants m l / 2 ^ (m * j) % 2 ^ m = l.getD j 0 := by
  induction l generalizing j with
  | nil => simp [joinMants]
  | cons x r ih =>
    have hx : x % 2 ^ m = x := Nat.mod_eq_of_lt (hl x List.mem_cons_self)
    cases j with
    | zero => simp [joinMants, hx]
    | succ j =>
      have hdrop : (x % 2 ^ m + 2 ^ m * joinMants m r) / 2 ^ m = joinMants m r := by
        rw [Nat.add_mul_div_left _ _ (Nat.two_pow_pos m), hx, Nat.div_eq_of_lt (hl x List.mem_cons_self), Nat.zero_add]
      rw [joinMants, Nat.mul_succ, Nat.add_comm (m * j), Nat.pow_add, ← Nat.div_div_eq_div_mul, hdrop, List.getD_cons_succ]
      exact ih (fun y hy => hl y (List.mem_cons_of_mem _ hy)) j

@[simp] theorem blockMants_length (m x : Nat) : (blockMants m x).length = 32 := by simp [blockMants]

theorem lt_of_mem_blockMants {m x y : Nat} (h : y ∈ blockMants m x) : y < 2 ^ m := by
  obtain ⟨j, _, rfl⟩ := List.mem_map.mp h
  exact Nat.mod_lt _ (Nat.two_pow_pos m)

theorem blockMants_joinMants (m : Nat) {l : List Nat} (hlen : l.length = 32) (hl : ∀ x ∈ l, x < 2 ^ m) : blockMants m (joinMants m l) = l := by
  refine List.ext_getElem (by rw [blockMants_length, hlen]) fun j hj hj' => ?_
  simp only [blockMants, List.getElem_map, List.getElem_range, joinMants_digit m hl, List.getD_eq_getElem _ _ hj']

theorem mantBytes_length (m n : Nat) (l : List Nat) : (mantBytes m n l).length = 4 * m * n := by
  induction n generalizing l with
  | zero => rfl
  | succ n ih => rw [mantBytes, List.length_append, leBytes_length, ih, Nat.mul_succ, Nat.add_comm]

theorem flatMap_blockMants_mantBytes (m n : Nat) {l : List Nat} (hlen : l.length = 32 * n) (hl : ∀ x ∈ l, x < 2 ^ m) (rest : List Byte) :
    (splitNums (4 * m) n (mantBytes m n l ++ rest)).flatMap (blockMants m) = l := by
  induction n generalizing l with
  | zero => rw [List.eq_nil_of_length_eq_zero hlen]; rfl
  | succ n ih =>
    have htake : (l.take 32).length = 32 := by rw [List.length_take]; omega
    have hjoin : joinMants m (l.take 32) < 256 ^ (4 * m) := by
      have h := joinMants_lt m (l.take 32)
      rwa [htake, show m * 32 = 8 * (4 * m) by omega, two_pow_bits] at h
    rw [mantBytes, List.append_assoc, splitNums_leBytes_append _ _ hjoin, List.flatMap_cons,
      blockMants_joinMants m htake fun x hx => hl x (List.mem_of_mem_take hx),
      ih (by rw [List.length_drop]; omega) fun x hx => hl x (List.mem_of_mem_drop hx), List.take_append_drop]

/-! Images (R30, R165). -/

/-- A tag of a meaning is that of a shared-exponent format, with its mantissa width, or of elements of whole bytes (R31, R165). -/
theorem Num.goodTag_cases {tag : Nat} (h : Num.goodTag tag = true) :
    (0x20 ≤ tag ∧ Num.sxOf tag = some (Num.bitsOf tag) ∧ Num.bitsOf tag = tag - 0x20) ∨
      (tag < 0x20 ∧ Num.sxOf tag = none ∧ 256 ^ (Num.bitsOf tag / 8) = 2 ^ Num.bitsOf tag) := by
  have hsmall : ∀ n < 0x29, Num.goodTag n = true → (0x20 ≤ n ∧ Num.sxOf n = some (Num.bitsOf n) ∧ Num.bitsOf n = n - 0x20) ∨
      (n < 0x20 ∧ Num.sxOf n = none ∧ 256 ^ (Num.bitsOf n / 8) = 2 ^ Num.bitsOf n) := by decide
  refine hsmall tag ?_ h
  simp only [Num.goodTag, Bool.or_eq_true, Bool.and_eq_true, decide_eq_true_eq] at h
  omega

/-- A shape of a good tag is one of shared exponents, or one of elements of whole bytes (R30, R165). -/
theorem TShape.sx_cases {t : TShape} (h : Num.goodTag t.tag = true) :
    (0x20 ≤ t.tag ∧ t.sx = some (Num.bitsOf t.tag) ∧ Num.bitsOf t.tag = t.tag - 0x20) ∨
      (t.tag < 0x20 ∧ t.sx = none ∧ 256 ^ t.size = 2 ^ Num.bitsOf t.tag) := Num.goodTag_cases h

theorem TShape.sx_of_le {t : TShape} (hgood : Num.goodTag t.tag = true) (h : 0x20 ≤ t.tag) : t.sx = some (Num.bitsOf t.tag) := by
  rcases TShape.sx_cases hgood with ⟨_, hsx, _⟩ | ⟨hlt, _⟩
  · exact hsx
  · omega

theorem TShape.sx_of_lt {t : TShape} (hgood : Num.goodTag t.tag = true) (h : t.tag < 0x20) : t.sx = none := by
  rcases TShape.sx_cases hgood with ⟨hle, _⟩ | ⟨_, hsx, _⟩
  · omega
  · exact hsx

/-- An image has the elements and, for a shared-exponent tag, the exponents of a shape, each within its bits. -/
structure TImg.Fits (t : TShape) (x : TImg) : Prop where
  count : x.elems.length = t.count
  bits : ∀ b ∈ x.elems, b < 2 ^ Num.bitsOf t.tag
  blocks : t.sx.isSome → x.exps.length = t.blocks
  bytes : t.sx.isSome → ∀ e ∈ x.exps, e < 256

/-- Two images have the same elements and, for a shared-exponent tag, the same exponents; their poison may differ. -/
structure TImg.Agrees (t : TShape) (x y : TImg) : Prop where
  elems : x.elems = y.elems
  exps : t.sx.isSome → x.exps = y.exps

theorem TImg.Fits.elem_lt {t : TShape} {x : TImg} (h : x.Fits t) (j : Nat) : x.elems.getD j 0 < 2 ^ Num.bitsOf t.tag := by
  rw [List.getD_eq_getElem?_getD]
  cases hj : x.elems[j]? with
  | none => exact Nat.two_pow_pos _
  | some b => exact h.bits b (List.mem_of_getElem? hj)

section
variable {t : TShape} (hgood : Num.goodTag t.tag = true)
include hgood

theorem TShape.parse_fits (bs : List Byte) (p : List Nat) : (t.parse bs p).Fits t := by
  unfold TShape.parse
  rcases TShape.sx_cases hgood with ⟨_, hsx, _⟩ | ⟨_, hsx, hbits⟩
  · simp only [hsx]
    refine ⟨?_, fun b hb => ?_, fun _ => splitNums_length .., fun _ e he => lt_of_mem_splitNums he⟩
    · simp [List.length_flatMap, TShape.count, hsx, Nat.mul_comm]
    · obtain ⟨x, _, hb⟩ := List.mem_flatMap.mp hb
      exact lt_of_mem_blockMants hb
  · simp only [hsx]
    refine ⟨splitNums_length .., fun b hb => ?_, fun h => ?_, fun h => ?_⟩
    · have h := lt_of_mem_splitNums hb
      rwa [hbits] at h
    all_goals rw [hsx] at h; exact absurd h Bool.false_ne_true

variable {x : TImg} (hx : x.Fits t)
include hx

theorem TShape.render_length : (t.render x).length = t.bytes := by
  unfold TShape.render TShape.bytes
  rcases TShape.sx_cases hgood with ⟨_, hsx, _⟩ | ⟨_, hsx, _⟩
  · have hexps := hx.blocks (by rw [hsx]; rfl)
    have hpad : 4 * Num.bitsOf t.tag * t.blocks ≤ t.expBase (Num.bitsOf t.tag) := by rw [TShape.expBase]; omega
    simp only [hsx, List.length_append, mantBytes_length, leBytes_length, flatMap_leBytes_length, hexps]
    omega
  · simp only [hsx, flatMap_leBytes_length, hx.count]

/-- R30, R165: an image written and read again has its elements and its exponents. -/
theorem TShape.parse_render (p : List Nat) : (t.parse (t.render x) p).Agrees t x := by
  unfold TShape.render TShape.parse
  rcases TShape.sx_cases hgood with ⟨_, hsx, _⟩ | ⟨_, hsx, hbits⟩
  · have hsome : t.sx.isSome := by rw [hsx]; rfl
    have hlen : x.elems.length = 32 * t.blocks := by rw [hx.count, TShape.count, if_pos hsome]
    have hpad : 4 * Num.bitsOf t.tag * t.blocks ≤ t.expBase (Num.bitsOf t.tag) := by rw [TShape.expBase]; omega
    have hbase : (mantBytes (Num.bitsOf t.tag) t.blocks x.elems ++
        leBytes (t.expBase (Num.bitsOf t.tag) - 4 * Num.bitsOf t.tag * t.blocks) 0).length = t.expBase (Num.bitsOf t.tag) := by
      rw [List.length_append, mantBytes_length, leBytes_length]
      omega
    have hexps := splitNums_flatMap_leBytes 1 (hx.bytes hsome) []
    rw [hx.blocks hsome, List.append_nil] at hexps
    simp only [hsx]
    refine ⟨?_, fun _ => ?_⟩
    · rw [List.append_assoc]
      exact flatMap_blockMants_mantBytes _ _ hlen hx.bits _
    · exact (congrArg (splitNums 1 t.blocks) (List.drop_left' hbase)).trans hexps
  · have hsize : ∀ b ∈ x.elems, b < 256 ^ t.size := by rw [hbits]; exact hx.bits
    have helems := splitNums_flatMap_leBytes t.size hsize []
    rw [hx.count, List.append_nil] at helems
    simp only [hsx]
    exact ⟨helems, fun h => absurd h (by rw [hsx]; exact Bool.false_ne_true)⟩

end

/-! Tiles in their frames (R15, R165). -/

/-- R14, R15: the bytes of a tile store are bytes of memory. -/
theorem State.peek_tile (s : State) {c off : Nat} (hc : c < 256) (hoff : off < 0x100000) :
    s.peek (tileBase c + off) = Mem.rd s.mem (tileBase c + off) := by
  have hregion : regionOf (tileBase c + off) = .core c .tile off := by
    have hcore : (tileBase c + off - 0xf00000000000) / 0x1000000 = c := by rw [tileBase, coreBase]; omega
    have hpart : (tileBase c + off - 0xf00000000000) % 0x1000000 = 0x100000 + off := by rw [tileBase, coreBase]; omega
    rw [regionOf, if_neg (by rw [tileBase, coreBase, nearEnd]; omega), if_neg (by rw [tileBase, coreBase]; omega),
      if_neg (by rw [tileBase, coreBase]; omega), if_pos (by rw [tileBase, coreBase]; omega)]
    dsimp only
    rw [hcore, hpart]
    unfold Machine.partOf
    rw [if_neg (by omega), if_neg (by omega), if_pos (by omega), Nat.add_sub_cancel_left]
  rw [State.peek, hregion]

/-- The tile of a handle lies in the tile store of a core (R15, R165). -/
structure Handle.InStore (c : Nat) (h : Handle) : Prop where
  core : c < 256
  room : h.frame * 4096 + h.shape.bytes ≤ 0x100000

theorem Handle.InStore.peek {c : Nat} {h : Handle} (hin : h.InStore c) (s : State) {i : Nat} (hi : i < h.shape.bytes) :
    s.peek (frameAddr c h + i) = Mem.rd s.mem (frameAddr c h + i) := by
  have hroom := hin.room
  rw [frameAddr, Nat.add_assoc]
  exact s.peek_tile hin.core (by omega)

theorem State.tileImg_fits {h : Handle} (hgood : Num.goodTag h.tag = true) (s : State) (c : Nat) : (s.tileImg c h).Fits h.shape :=
  TShape.parse_fits (t := h.shape) hgood ..

/-- A tile reads as the image whose bytes stand in its frames. -/
theorem State.tileImg_agrees {s : State} {c : Nat} {h : Handle} {x : TImg} (hin : h.InStore c) (hgood : Num.goodTag h.tag = true)
    (hx : x.Fits h.shape) (hbytes : ∀ i, i < h.shape.bytes → Mem.rd s.mem (frameAddr c h + i) = (h.shape.render x).getD i 0) :
    (s.tileImg c h).Agrees h.shape x := by
  have hlen := TShape.render_length (t := h.shape) hgood hx
  have hpeek : s.peekBytes (frameAddr c h) h.shape.bytes = h.shape.render x := by
    refine List.ext_getElem (by rw [State.peekBytes, List.length_map, List.length_range, hlen]) fun i hi hi' => ?_
    simp only [State.peekBytes, List.getElem_map, List.getElem_range]
    rw [hin.peek s (hlen ▸ hi'), hbytes i (hlen ▸ hi'), List.getD_eq_getElem _ _ hi']
  rw [State.tileImg, hpeek]
  exact TShape.parse_render (t := h.shape) hgood hx _

theorem State.tileImg_congr {s t : State} (hblock : ∀ c b, t.block? c b = s.block? c b) (hrest : { t with cores := s.cores, agenda := s.agenda } = s)
    (c : Nat) (h : Handle) : t.tileImg c h = s.tileImg c h := by
  have hpoison : t.poison = s.poison := (congrArg State.poison hrest :)
  have hpeek : ∀ pa, t.peek pa = s.peek pa :=
    State.peek_congr (congrArg State.mem hrest :) hblock fun off => (congrArg (fun u : State => u.hubReg off) hrest :)
  simp only [State.tileImg, State.peekBytes, hpeek, State.poisoned, hpoison]

@[simp] theorem State.tileImg_onward (s : State) (w : Who) (c : Nat) (h : Handle) : (s.onward w).tileImg c h = s.tileImg c h :=
  State.tileImg_congr (fun _ _ => State.block?_setCohort ..) rfl c h

theorem State.foldl_taint_mem (s : State) (a : Nat) (l : List Nat) : (l.foldl (fun (u : State) g => u.taint (a + 16 * g) 16) s).mem = s.mem :=
  List.foldlRecOn (motive := fun u : State => u.mem = s.mem) l _ rfl fun u hu g _ =>
    (congrArg State.mem (u.taint_frame (a + 16 * g) 16) :).trans hu

theorem State.putTile_mem (s : State) (c : Nat) (h : Handle) (t : TShape) (x : TImg) :
    (s.putTile c h t x).mem = Mem.wrBytes s.mem (frameAddr c h) (t.render x) := State.foldl_taint_mem ..

/-- R165: an image put in the frames of a handle is what the tile reads as, as long as its bytes stay. -/
theorem State.tileImg_of_putTile {s u : State} {c : Nat} {h y : Handle} {x : TImg} (hwf : s.mem.wf = true) (hin : y.InStore c)
    (hgood : Num.goodTag y.tag = true) (hx : x.Fits y.shape) (haddr : frameAddr c h = frameAddr c y)
    (hmem : ∀ b, frameAddr c y ≤ b → b < frameAddr c y + y.shape.bytes → Mem.rd u.mem b = Mem.rd (s.putTile c h y.shape x).mem b) :
    (u.tileImg c y).Agrees y.shape x := by
  have hlen := TShape.render_length (t := y.shape) hgood hx
  refine State.tileImg_agrees hin hgood hx fun i hi => ?_
  rw [hmem _ (by omega) (by omega), State.putTile_mem, Mem.rd_wrBytes hwf, haddr, if_pos (by omega), Nat.add_sub_cancel_left]

/-- An image put in frames leaves every byte outside it. -/
theorem State.rd_putTile_beside {s : State} {c b : Nat} {h : Handle} {t : TShape} {x : TImg} (hgood : Num.goodTag t.tag = true) (hx : x.Fits t)
    (hb : b < frameAddr c h ∨ frameAddr c h + t.bytes ≤ b) : Mem.rd (s.putTile c h t x).mem b = Mem.rd s.mem b := by
  rw [State.putTile_mem, Mem.rd_wrBytes_beside]
  rwa [TShape.render_length hgood hx]

end Sys2Proof.Machine
end

section
/-! SUPPORT. Tiles given back, and lines of tiles read and written (R162, R168, R170, R234). -/

namespace Sys2Proof.Machine

open Sys2Proof

/-! What holds an instruction on its tiles (R167, R168). -/

/-- R168: a tile is in its frames with its fill ended, and no eviction is to come but what the cohort's trap holds. -/
structure Handle.ReadyFor (x : Handle) (w : Who) : Prop where
  fill : x.fill = none
  framed : x.state ≠ .nonResident
  stays : ∀ t ∈ x.writes, t.evict = true → t.held = true ∧ t.uid = w.h.uid

section
variable {s : State} {w : Who} {n : Nat} {x : Handle} (hx : s.myHandle w n = x)
include hx

theorem State.mustWaitTile_read (h : x.ReadyFor w) : s.mustWaitTile w n false = false := by
  simp [State.mustWaitTile, hx, h.fill, Handle.leaves_eq_false_iff.2 h.stays]

/-- R176: a tile in its frames reads as they are. -/
theorem State.readTile_framed (h : x.state ≠ .nonResident) (gs : List Nat) : s.readTile w n gs = (.ok (s.tileImg w.c x), s) := by
  simp [State.readTile, hx, h]

end

/-- R167, R168: tiles in their frames with nothing earlier to perform on them hold no instruction. -/
theorem State.residentHold_none {s : State} {w : Who} {reads changed : List Nat}
    (hreads : ∀ n ∈ reads, s.mustWaitTile w n false = false ∧ (s.myHandle w n).state ≠ .nonResident)
    (hchanged : ∀ n ∈ changed, s.mustWaitTile w n true = false ∧ (s.myHandle w n).state ≠ .nonResident) :
    s.residentHold w reads changed = none := by
  have hr : (reads.find? fun n => s.mustWaitTile w n false) = none := List.find?_eq_none.2 fun n hn => by simp [(hreads n hn).1]
  have hc : (changed.find? fun n => s.mustWaitTile w n true) = none := List.find?_eq_none.2 fun n hn => by simp [(hchanged n hn).1]
  have hs : ((reads ++ changed).find? fun n => (s.myHandle w n).state == .nonResident) = none := by
    refine List.find?_eq_none.2 fun n hn => ?_
    rcases List.mem_append.1 hn with hn | hn
    · simpa using (hreads n hn).2
    · simpa using (hchanged n hn).2
  simp only [State.residentHold, State.tileHold, hr, hc, hs]

theorem State.tileReads_none {s : State} {w : Who} {ns : List Nat} (h : ∀ n ∈ ns, (s.myHandle w n).state ≠ .nonResident) (u : Uses) :
    s.tileReads w ns u = u := by
  have hany : (ns.any fun n => (s.myHandle w n).state == .nonResident) = false := by simpa using h
  rw [State.tileReads, hany]
  rfl

/-! `TFREE` (R162, R166, R234). -/

/-- The handle that `TFREE` leaves. -/
def Handle.givenBack (x : Handle) : Handle :=
  { x with state := .released, frame := 0, frames := 0, log := [], fill := none, backing := 0, writes := [] }

theorem State.freeFrames_mem (s : State) (c f k : Nat) : (s.freeFrames c f k).mem = (s.clearFrames c f k).mem := by
  unfold State.freeFrames
  split
  · rfl
  · exact State.pushOnce_mem ..

section
variable {s : State} {w : Who} {n : Nat} {bl : Block} {x : Handle} (hb : s.block? w.c w.h.slot = some bl) (hx : Tbl.find? bl.handles n = some x)
  (c : Clear s w { hs := [n] }) (howner : x.owner = w.h.cohortid) (hwrites : ∀ y ∈ x.writes, y.held = true ∧ y.uid = w.h.uid)
  (hmats : ∀ m ∈ (s.core w.c).mats, m.slot = w.h.slot → m.ha ≠ n ∧ m.hb ≠ n)
include hb hx c howner hwrites hmats

theorem tfree_runs : exec (.tfree n) s = .next
    ((((s.onward w).setHandle w.c w.h.slot n x.givenBack).freeFrames w.c x.frame x.frames).freeTile w.c w.h.slot n) := by
  have hmine : s.myHandle w n = x := (State.myHandle_of_block hb n).trans (Tbl.at_of_find? _ hx)
  have hfree : x.state ≠ .free := (Handle.isAlloc_iff.1 (c.isAlloc rfl hb hmine)).1
  have hbusy : s.handleBusy w.c w.h.slot n x (some w.h.uid) = false := by
    have hw : (x.writes.any (·.keeps (some w.h.uid))) = false := by
      simpa only [List.any_eq_false, Bool.not_eq_true, Transfer.keeps_eq_false_iff] using hwrites
    have hm : ((s.core w.c).mats.any fun m => m.slot == w.h.slot && (m.ha == n || m.hb == n)) = false := by simpa using hmats
    rw [State.handleBusy, hw, hm]
    rfl
  rw [exec_tfree, execTfree, issue_runs c (State.notOwner_owned hmine howner) (by rw [hmine, hbusy]; rfl), State.releaseHandle, State.block?_setCohort, hb]
  simp only [hx, if_neg hfree]
  rfl

/-- R162, R234: the handle is released, and the frames that it held read zero. -/
theorem tfree_leaves : ∃ t, exec (.tfree n) s = .next t ∧
    t.block? w.c w.h.slot = some { bl with handles := Tbl.put bl.handles n x.givenBack } ∧
    ∀ a, Mem.rd t.mem a = if frameAddr w.c x ≤ a ∧ a < frameAddr w.c x + x.frames * 4096 then 0 else Mem.rd s.mem a := by
  set u := (s.onward w).setHandle w.c w.h.slot n x.givenBack
  have hgo : GoesOn (u.freeFrames w.c x.frame x.frames) ((u.freeFrames w.c x.frame x.frames).freeTile w.c w.h.slot n) := .freeTile ..
  have hleft := (State.setHandle_left hb n x.givenBack).of_cores (State.freeFrames_cores u w.c x.frame x.frames)
  refine ⟨_, tfree_runs hb hx c howner hwrites hmats, (hgo.block? ..).trans hleft.block, fun a => ?_⟩
  have humem : u.mem = s.mem := State.setHandle_mem ..
  rw [hgo.mem, State.freeFrames_mem, State.rd_clearFrames, humem, frameAddr]

end

/-! `TGET` (R170). -/

theorem maskOf_eq_zero {f : Nat → Bool} (h : ∀ l, f l = false) : maskOf f = 0 := by
  refine List.foldlRecOn (motive := fun m : Mask => m = 0) _ _ rfl fun m hm l _ => ?_
  rw [h l, hm]
  rfl

theorem Mask.and_not_zero (m : Mask) : m &&& ~~~(0 : Mask) = m := BitVec.and_allOnes

theorem State.greyLanes_zero (s : State) (c k pc : Nat) : s.greyLanes c k 0 pc = s := by
  unfold State.greyLanes
  split <;> simp

/-- The cohort whose split has gone on, with a lane register or a pair written from numbers, as the tag has it (R21, R78). -/
structure TaggedWritten (w : Who) (h : Cohort) (d : Nat) (m : Mask) (tag : Nat) (f : Nat → Nat) : Prop where
  went : WentOn w w.past h
  same : SameBut w.h h
  uniform : SameUniform w.h h
  preds : SamePreds w.h h
  set : if Num.wideTag tag = true then PairSet w.h h d m tag fun l => BitVec.ofNat 64 (f l) else LanesSet w.h h d m tag fun l => BitVec.ofNat 32 (f l)

theorem Who.gone_setTagged {s : State} {w : Who} (hw : s.who? = some w) (d : Nat) (m : Mask) (tag : Nat) (f : Nat → Nat) :
    TaggedWritten w (w.gone.setTagged d m tag f) d m tag f := by
  have hwent := Who.gone_wentOn hw
  unfold Cohort.setTagged
  split
  · next hwide =>
    have hset := (Cohort.setPair_set w.gone d m tag fun l => BitVec.ofNat 64 (f l)).ofGone
    obtain ⟨v, y, hv⟩ := Cohort.setPair_only w.gone d m tag fun l => BitVec.ofNat 64 (f l)
    rw [hv] at hset ⊢
    exact ⟨⟨hwent.here, hwent.others, rfl⟩, w.gone_sameBut.lanes _ _, fun _ => ⟨rfl, rfl⟩, fun _ => rfl, by rw [if_pos hwide]; exact hset⟩
  · next hwide =>
    have hset := (Cohort.setLanes_set w.gone d m tag fun l => BitVec.ofNat 32 (f l)).ofGone
    exact ⟨⟨hwent.here, hwent.others, rfl⟩, w.gone_sameBut.lanes _ _, fun _ => ⟨rfl, rfl⟩, fun _ => rfl, by rw [if_neg hwide]; exact hset⟩

/-- What `TGET` names for a tile in its frames. -/
def tgetUses (o : OpTget) (tag : Nat) : Uses :=
  { hs := [o.a], us := [o.b], vd := tagRegs tag o.d, pairs := if Num.wideTag tag then [o.d] else [], whole := false }

/-- R170: a line of a tile in its frames without poison comes to the active lanes. -/
theorem tget_completes {s : State} {w : Who} {o : OpTget} {x : Handle} (hx : s.myHandle w o.a = x) (c : Clear s w (tgetUses o x.tag))
    (htag : Num.goodTag x.tag = true) (howner : x.owner = w.h.cohortid) (hready : x.ReadyFor w)
    (hline : (lineOf x.shape (o.c == 1) (w.h.uq o.b).toNat).2.2 = false) (hsound : ∀ i, (s.tileImg w.c x).isBad i = false) :
    Completes s w (exec (.tget o) s) fun h => TaggedWritten w h o.d (w.h.active w.sp) x.tag
      (x.shape.lineWord (s.tileImg w.c x) (o.c == 1) (lineOf x.shape (o.c == 1) (w.h.uq o.b).toNat).1
        (lineOf x.shape (o.c == 1) (w.h.uq o.b).toNat).2.1) := by
  refine ⟨s.setCohort w.c w.k (w.gone.setTagged o.d (w.h.active w.sp) x.tag _), _, ?_, State.setCohort_only .., State.cohort?_setCohort_self ..,
    Who.gone_setTagged c.who ..⟩
  have hcheck : firstBad [s.tileTag w o.a, s.notOwner w o.a,
      badIf (lineOf (s.myHandle w o.a).shape (o.c == 1) (w.h.uq o.b).toNat).2.2 9] = none := by
    rw [State.tileTag_none hx htag, State.notOwner_owned hx howner, hx, hline]
    rfl
  have huses : s.tileReads w [o.a] (tgetUses o (s.myHandle w o.a).tag) = tgetUses o x.tag := by
    rw [State.tileReads_single hx hready.framed, hx]
  rw [exec_tget, execTget, issue_runs (by rw [← huses] at c; exact c) hcheck
    (State.readHold_none hx hready.fill (Handle.leaves_eq_false_iff.2 hready.stays) hready.framed _),
    State.readTile_framed ((State.myHandle_onward ..).trans hx) hready.framed]
  dsimp only
  rw [State.myHandle_onward, hx, State.tileImg_onward, maskOf_eq_zero fun l => by rw [hsound, Bool.and_false], State.greyLanes_zero,
    State.onCohort_some (State.cohort?_setCohort_self ..), State.setCohort_setCohort, Mask.and_not_zero]
  rfl

/-! A line put in an image (R170). -/

section
variable {j a : Nat} {p v : Nat → Nat}

/-- Of numbers put in a list at several places, one that they all agree on at a place is what stands there. -/
theorem getD_foldl_set {ls l : List Nat} (hj : j < l.length) (hagree : ∀ i ∈ ls, p i = j → v i = a) (hset : l.getD j 0 = a ∨ ∃ i ∈ ls, p i = j) :
    (ls.foldl (fun y i => y.set (p i) (v i)) l).getD j 0 = a := by
  induction ls generalizing l with
  | nil =>
    rcases hset with h | ⟨i, hi, _⟩
    · exact h
    · cases hi
  | cons i r ih =>
    refine ih (by rwa [List.length_set]) (fun k hk => hagree k (List.mem_cons_of_mem _ hk)) ?_
    by_cases hp : p i = j
    · left
      dsimp only
      rw [hp, List.getD_eq_getElem?_getD, List.getElem?_set_self hj]
      exact hagree i List.mem_cons_self hp
    · rcases hset with h | ⟨k, hk, hkp⟩
      · left
        dsimp only
        rw [List.getD_eq_getElem?_getD, List.getElem?_set_ne hp, ← List.getD_eq_getElem?_getD, h]
      · rcases List.mem_cons.1 hk with rfl | hk
        · exact absurd hkp hp
        · exact .inr ⟨k, hk, hkp⟩

theorem length_foldl_set (ls l : List Nat) : (ls.foldl (fun y i => y.set (p i) (v i)) l).length = l.length :=
  List.foldlRecOn (motive := fun y : List Nat => y.length = l.length) ls _ rfl fun y hy i _ => by rw [List.length_set, hy]

theorem forall_mem_foldl_set {ls l : List Nat} {P : Nat → Prop} (hl : ∀ x ∈ l, P x) (hv : ∀ i ∈ ls, P (v i)) :
    ∀ x ∈ ls.foldl (fun y i => y.set (p i) (v i)) l, P x := by
  refine List.foldlRecOn (motive := fun y : List Nat => ∀ x ∈ y, P x) ls _ hl fun y hy i hi x hx => ?_
  rcases List.mem_or_eq_of_mem_set hx with hx | rfl
  · exact hy x hx
  · exact hv i hi

end

/-- R170: the lanes of a mask that reach elements of a line from `c0` on. -/
def TShape.reaching (t : TShape) (col : Bool) (c0 : Nat) (m : Mask) : List Nat := (lanesOf m).filter fun l => c0 + l < t.lineLen col

theorem TShape.mem_reaching {t : TShape} {col : Bool} {c0 l : Nat} {m : Mask} :
    l ∈ t.reaching col c0 m ↔ l < 32 ∧ inMask m l = true ∧ c0 + l < t.lineLen col := by
  simp [TShape.reaching, lanesOf, and_comm]

section
variable (t : TShape) (x : TImg) (col : Bool) (i c0 : Nat) (m : Mask) (f : Nat → Nat)

theorem TShape.setLine_elems : (t.setLine x col i c0 m f).elems =
    (t.reaching col c0 m).foldl (fun y l => y.set (t.onLine col i (c0 + l)) (f l % 2 ^ Num.bitsOf t.tag)) x.elems := by
  unfold TShape.setLine
  dsimp only
  have hfold : ∀ (ls : List Nat) (y : TImg), (ls.foldl (fun (y : TImg) l =>
      { y with elems := y.elems.set (t.onLine col i (c0 + l)) (f l % 2 ^ Num.bitsOf t.tag), bad := y.bad.set (t.onLine col i (c0 + l)) false }) y).elems =
      ls.foldl (fun y l => y.set (t.onLine col i (c0 + l)) (f l % 2 ^ Num.bitsOf t.tag)) y.elems :=
    fun ls y => (List.foldl_hom TImg.elems fun _ _ => rfl).symm
  split
  · exact hfold _ x
  · exact hfold _ x

theorem TShape.setLine_exps : (t.setLine x col i c0 m f).exps = if t.sx.isSome ∧ t.reaching col c0 m ≠ [] then
    x.exps.set (t.onLine col i c0 / 32) (f (lowestLane m) / 2 ^ 24 % 256) else x.exps := by
  have hfold : ∀ (ls : List Nat), (ls.foldl (fun (y : TImg) l =>
      { y with elems := y.elems.set (t.onLine col i (c0 + l)) (f l % 2 ^ Num.bitsOf t.tag), bad := y.bad.set (t.onLine col i (c0 + l)) false }) x).exps =
      x.exps := fun ls => List.foldlRecOn (motive := fun y : TImg => y.exps = x.exps) ls _ rfl fun _ hy _ _ => hy
  unfold TShape.setLine
  dsimp only
  by_cases h : t.sx.isSome ∧ t.reaching col c0 m ≠ []
  · rw [if_pos h, if_pos (by simpa [TShape.reaching] using h), hfold]
  · rw [if_neg h, if_neg (by simpa [TShape.reaching] using h), hfold]

variable {t x}

theorem TImg.Fits.setLine (hx : x.Fits t) : (t.setLine x col i c0 m f).Fits t := by
  refine ⟨?_, ?_, fun hsx => ?_, fun hsx => ?_⟩
  · rw [TShape.setLine_elems, length_foldl_set, hx.count]
  · rw [TShape.setLine_elems]
    exact forall_mem_foldl_set hx.bits fun l _ => Nat.mod_lt _ (Nat.two_pow_pos _)
  · rw [TShape.setLine_exps]
    split
    · rw [List.length_set, hx.blocks hsx]
    · exact hx.blocks hsx
  · rw [TShape.setLine_exps]
    split
    · intro e he
      rcases List.mem_or_eq_of_mem_set he with he | rfl
      · exact hx.bytes hsx e he
      · exact Nat.mod_lt _ (by decide)
    · exact hx.bytes hsx

end

/-- R165: the elements of a line stand in places of their own. -/
theorem TShape.onLine_inj {t : TShape} (hrows : 0 < t.rows) (hcols : 0 < t.cols) {col : Bool} {i e e' : Nat}
    (h : t.onLine col i e = t.onLine col i e') : e = e' := by
  have hper : 0 < t.perLine := by rw [TShape.perLine]; split <;> omega
  have hmul {n : Nat} (hn : 0 < n) {b : Nat} (h : e * n + b = e' * n + b) : e = e' := Nat.eq_of_mul_eq_mul_right hn (by omega)
  cases col <;> simp only [TShape.onLine, TShape.index, Bool.false_eq_true, if_false, if_true] at h <;> split at h
  · omega
  · exact hmul hrows h
  · omega
  · exact hmul hper (b := i / 32) (by omega)
  · exact hmul hcols h
  · omega
  · exact hmul hper (b := i / 32) (by omega)
  · omega

section
variable {t : TShape} {x : TImg} (hx : x.Fits t) (hrows : 0 < t.rows) (hcols : 0 < t.cols) {col : Bool} {i c0 j : Nat} {m : Mask} {f : Nat → Nat}
include hx

include hrows hcols in
theorem TShape.setLine_elem_reached {l : Nat} (hj : j < t.count) (hl : l ∈ t.reaching col c0 m) (hjl : j = t.onLine col i (c0 + l)) :
    (t.setLine x col i c0 m f).elems.getD j 0 = f l % 2 ^ Num.bitsOf t.tag := by
  rw [TShape.setLine_elems]
  refine getD_foldl_set (hx.count ▸ hj) (fun k _ hk => ?_) (.inr ⟨l, hl, hjl.symm⟩)
  rw [Nat.add_left_cancel (TShape.onLine_inj hrows hcols (hk.trans hjl))]

theorem TShape.setLine_elem_unreached (hj : j < t.count) (hne : ∀ l ∈ t.reaching col c0 m, j ≠ t.onLine col i (c0 + l)) :
    (t.setLine x col i c0 m f).elems.getD j 0 = x.elems.getD j 0 := by
  rw [TShape.setLine_elems]
  exact getD_foldl_set (hx.count ▸ hj) (fun k hk hkj => absurd hkj.symm (hne k hk)) (.inl rfl)

theorem TShape.setLine_exp (hsx : t.sx.isSome) (hj : j < t.blocks) : (t.setLine x col i c0 m f).exps.getD j 0 =
    if t.reaching col c0 m ≠ [] ∧ j = t.onLine col i c0 / 32 then f (lowestLane m) / 2 ^ 24 % 256 else x.exps.getD j 0 := by
  have hlen : j < x.exps.length := (hx.blocks hsx).symm ▸ hj
  rw [TShape.setLine_exps]
  by_cases hls : t.reaching col c0 m = []
  · rw [if_neg fun h => h.2 hls, if_neg fun h => h.1 hls]
  · rw [if_pos ⟨hsx, hls⟩]
    by_cases hat : j = t.onLine col i c0 / 32
    · rw [if_pos ⟨hls, hat⟩, List.getD_eq_getElem?_getD, ← hat, List.getElem?_set_self hlen, Option.getD_some]
    · rw [if_neg fun h => hat h.2, List.getD_eq_getElem?_getD, List.getElem?_set_ne fun h => hat h.symm, ← List.getD_eq_getElem?_getD]

end

/-! A line put in frames (R170, R397). -/

/-- Bytes written from `a` on where they differ from those that stood there. -/
def wrChanged (a : Nat) (m : Mem) (l : List ((Byte × Byte) × Nat)) : Mem :=
  l.foldl (fun mm e => if e.1.1 = e.1.2 then mm else Mem.wr mm (a + e.2) e.1.1) m

theorem rd_wrChanged_beside (a : Nat) {l : List (Byte × Byte)} {k b : Nat} {m : Mem} (h : b < a + k ∨ a + k + l.length ≤ b) :
    Mem.rd (wrChanged a m (l.zipIdx k)) b = Mem.rd m b := by
  induction l generalizing k m with
  | nil => rfl
  | cons e r ih =>
    rw [List.length_cons] at h
    rw [List.zipIdx_cons, wrChanged, List.foldl_cons, ← wrChanged, ih (by omega)]
    split
    · rfl
    · exact Mem.rd_wr_ne m (by omega) _

theorem rd_wrChanged (a : Nat) {l : List (Byte × Byte)} {k : Nat} {m : Mem} (hwf : m.wf = true)
    (hwas : ∀ i (hi : i < l.length), l[i].2 = Mem.rd m (a + k + i)) {i : Nat} (hi : i < l.length) :
    Mem.rd (wrChanged a m (l.zipIdx k)) (a + k + i) = l[i].1 := by
  induction l generalizing k m i with
  | nil => cases hi
  | cons e r ih =>
    have hfirst : e.2 = Mem.rd m (a + k) := hwas 0 (Nat.succ_pos _)
    rw [List.zipIdx_cons, wrChanged, List.foldl_cons, ← wrChanged]
    set m1 := if e.1 = e.2 then m else Mem.wr m (a + k) e.1 with hm1
    have hwf1 : m1.wf = true := by
      rw [hm1]
      split
      · exact hwf
      · exact Mem.wr_wf _ _ hwf
    have hrd1 : ∀ b, Mem.rd m1 b = if b = a + k then e.1 else Mem.rd m b := by
      intro b
      rw [hm1]
      split
      · next heq =>
        split
        · next hb => rw [hb, heq, hfirst]
        · rfl
      · exact Mem.rd_wr hwf _ _ _
    cases i with
    | zero =>
      rw [rd_wrChanged_beside a (by omega), hrd1, if_pos (Nat.add_zero _)]
      rfl
    | succ i =>
      have hnext := ih (k := k + 1) (m := m1) hwf1 (fun j hj => by
        have h := hwas (j + 1) (Nat.succ_lt_succ hj)
        rw [List.getElem_cons_succ] at h
        rw [h, hrd1, if_neg (by omega)]
        congr 1
        omega) (Nat.lt_of_succ_lt_succ hi)
      rw [List.getElem_cons_succ, ← hnext]
      congr 1
      omega

section
variable (s : State) (c : Nat) (h : Handle) (col : Bool) (i c0 : Nat) (m : Mask) (f : Nat → Nat)

theorem State.putLine_keeps : (s.putLine c h col i c0 m f).cores = s.cores ∧ (s.putLine c h col i c0 m f).mem =
    wrChanged (frameAddr c h) s.mem (((h.shape.render (h.shape.setLine (s.tileImg c h) col i c0 m f)).zip
      (s.peekBytes (frameAddr c h) h.shape.bytes)).zipIdx) := by
  unfold State.putLine
  exact List.foldlRecOn (motive := fun u : State => u.cores = s.cores ∧ u.mem = _) _ _ ⟨rfl, rfl⟩ fun _ hu _ _ => hu

theorem State.rd_putLine_beside {b : Nat} (hb : b < frameAddr c h ∨ frameAddr c h + h.shape.bytes ≤ b) :
    Mem.rd (s.putLine c h col i c0 m f).mem b = Mem.rd s.mem b := by
  rw [(s.putLine_keeps c h col i c0 m f).2, rd_wrChanged_beside]
  have hlen : (s.peekBytes (frameAddr c h) h.shape.bytes).length = h.shape.bytes := by simp [State.peekBytes]
  rw [List.length_zip, hlen]
  omega

variable {s c h} in
/-- R170: after a line is written the tile reads as the image with that line. -/
theorem State.tileImg_putLine (hwf : s.mem.wf = true) (hin : h.InStore c) (hgood : Num.goodTag h.tag = true) :
    ((s.putLine c h col i c0 m f).tileImg c h).Agrees h.shape (h.shape.setLine (s.tileImg c h) col i c0 m f) := by
  have hfits := (State.tileImg_fits hgood s c).setLine col i c0 m f
  have hlen := TShape.render_length (t := h.shape) hgood hfits
  refine State.tileImg_agrees hin hgood hfits fun k hk => ?_
  have hlens : ((h.shape.render (h.shape.setLine (s.tileImg c h) col i c0 m f)).zip (s.peekBytes (frameAddr c h) h.shape.bytes)).length =
      h.shape.bytes := by simp [State.peekBytes, hlen]
  have hread := rd_wrChanged (frameAddr c h) (k := 0) hwf (l := (h.shape.render (h.shape.setLine (s.tileImg c h) col i c0 m f)).zip
    (s.peekBytes (frameAddr c h) h.shape.bytes)) (fun j hj => by
      rw [List.getElem_zip]
      simp only [State.peekBytes, List.getElem_map, List.getElem_range, Nat.add_zero]
      exact hin.peek s (hj.trans_eq hlens)) (i := k) (hk.trans_eq hlens.symm)
  rw [Nat.add_zero, List.getElem_zip] at hread
  rw [(s.putLine_keeps c h col i c0 m f).2, hread, List.getD_eq_getElem]

end

/-! `TSET` (R170). -/

/-- What `TSET` names for a tile in its frames. -/
def tsetUses (o : OpTget) (tag : Nat) : Uses :=
  { hs := [o.d], us := [o.b], vs := tagRegs tag o.a, pairs := if Num.wideTag tag then [o.a] else [], whole := false }

/-- R170: the number that a lane of `TSET` writes. -/
def tsetSource (w : Who) (o : OpTget) (tag l : Nat) : Nat := if Num.wideTag tag then (w.h.pair o.a l).toNat else (w.h.lane o.a l).toNat

section
variable {s : State} {w : Who} {o : OpTget} {x : Handle} (hx : s.myHandle w o.d = x) (c : Clear s w (tsetUses o x.tag)) (hstate : x.state ≠ .nonResident)
include hx c hstate

theorem tset_stops (hbad : Num.goodTag x.tag = false ∨ (w.h.vtag o.a ≠ 0 ∧ w.h.vtag o.a ≠ x.tag)) : Stops s w (exec (.tset o) s) 6 0 0 := by
  have huses : s.tileReads w [o.d] (tsetUses o (s.myHandle w o.d).tag) = tsetUses o x.tag := by rw [State.tileReads_single hx hstate, hx]
  rw [exec_tset, execTset]
  refine issue_traps (b := { code := 6 }) (by rw [← huses] at c; exact c) ?_
  by_cases htag : Num.goodTag x.tag = true
  · obtain ⟨h0, hne⟩ := hbad.resolve_left (by rw [htag]; decide)
    dsimp only
    rw [State.tileTag_none hx htag, hx, badIf_of (by rw [Bool.and_eq_true]; exact ⟨bne_iff_ne.2 h0, bne_iff_ne.2 hne⟩)]
    rfl
  · rw [State.tileTag_some hx (Bool.eq_false_iff.2 htag)]
    rfl

theorem tset_runs (hsame : w.h.vtag o.a = 0 ∨ w.h.vtag o.a = x.tag) (htag : Num.goodTag x.tag = true) (howner : x.owner = w.h.cohortid)
    (hline : (lineOf x.shape (o.c == 1) (w.h.uq o.b).toNat).2.2 = false) (hidle : HandleIdle s w o.d x) : exec (.tset o) s =
      .next ((s.onward w).putLine w.c x (o.c == 1) (lineOf x.shape (o.c == 1) (w.h.uq o.b).toNat).1
        (lineOf x.shape (o.c == 1) (w.h.uq o.b).toNat).2.1 (w.h.active w.sp) (tsetSource w o x.tag)) := by
  have huses : s.tileReads w [o.d] (tsetUses o (s.myHandle w o.d).tag) = tsetUses o x.tag := by rw [State.tileReads_single hx hstate, hx]
  have hcheck : firstBad [s.tileTag w o.d, badIf (w.h.vtag o.a != 0 && w.h.vtag o.a != (s.myHandle w o.d).tag) 6, s.notOwner w o.d,
      badIf (lineOf (s.myHandle w o.d).shape (o.c == 1) (w.h.uq o.b).toNat).2.2 9] = none := by
    have hfit : (w.h.vtag o.a != 0 && w.h.vtag o.a != x.tag) = false := by rcases hsame with h | h <;> simp [h]
    rw [State.tileTag_none hx htag, State.notOwner_owned hx howner, hx, hline, badIf_of_not hfit]
    rfl
  have hhold : s.residentHold w [] [o.d] = none := State.residentHold_none (List.forall_mem_nil _)
    (List.forall_mem_singleton.2 ⟨(State.mustWaitTile_change_iff hx).2 hidle, by rw [hx]; exact hstate⟩)
  rw [exec_tset, execTset, issue_runs (by rw [← huses] at c; exact c) hcheck hhold, State.myHandle_onward, hx]
  rfl

end

/-- Settles O35: the frames of a handle given back are cleared, and a line is read and written element by element. -/
theorem tileLineResults : Obligations.TileLineResults := by
  refine ⟨fun s w n bl x hb hx c howner hwrites hmats => tfree_leaves hb hx c howner hwrites hmats, ?_⟩
  intro s w o bl hb q col
  constructor
  · intro x line c htag howner hstate hfill hleaves hline hsound f
    obtain ⟨t, h, hexec, honly, hcohort, hset⟩ :=
      tget_completes (State.myHandle_of_block hb _) c htag howner ⟨hfill, hstate, hleaves⟩ hline hsound
    exact ⟨t, h, hexec, honly, hcohort, hset.went, hset.same, hset.uniform, hset.preds, hset.set⟩
  · intro x c
    have hx : s.myHandle w o.d = x := State.myHandle_of_block hb _
    refine ⟨fun hstate => tset_stops hx c hstate, fun hsame htag howner hstate hline hfill hwrites hmats => ?_⟩
    refine ⟨_, tset_runs hx c hstate hsame htag howner hline (.of_quiet hfill hwrites hmats), ?_, ?_,
      fun a ha => State.rd_putLine_beside (s.onward w) _ _ _ _ _ _ _ ha, ?_⟩
    · rw [State.cohort?, State.core, (State.putLine_keeps ..).1]
      exact State.cohort?_setCohort_self ..
    · rw [State.block?_of_cores (State.putLine_keeps ..).1, State.block?_setCohort, hb]
    · intro hwf hc hroom old new line act src reaches
      have hin : x.InStore w.c := ⟨hc, hroom⟩
      have hfits : old.Fits x.shape := State.tileImg_fits htag s w.c
      have hagrees : new.Agrees x.shape (x.shape.setLine old col line.1 line.2.1 act src) := by
        have h := (s.onward w).tileImg_putLine col line.1 line.2.1 act src hwf hin htag
        rwa [State.tileImg_onward] at h
      have hreaches : ∀ l j, reaches l j ↔ l ∈ x.shape.reaching col line.2.1 act ∧ j = x.shape.onLine col line.1 (line.2.1 + l) := fun l j => by
        rw [TShape.mem_reaching, and_assoc, and_assoc]
        exact Iff.rfl
      have hsome : (∃ l j, reaches l j) ↔ x.shape.reaching col line.2.1 act ≠ [] := by
        simp only [hreaches, exists_and_left, exists_eq, and_true]
        rw [Ne, List.eq_nil_iff_forall_not_mem, not_forall_not]
      refine ⟨fun j hj => ⟨fun l hl => ?_, fun hno => ?_⟩, fun b hb' htag' => ?_⟩
      · obtain ⟨hmem, hjl⟩ := (hreaches l j).1 hl
        rw [hagrees.elems]
        exact TShape.setLine_elem_reached hfits (Nat.succ_pos _) (Nat.succ_pos _) hj hmem hjl
      · rw [hagrees.elems]
        exact TShape.setLine_elem_unreached hfits hj fun l hl hjl => hno l ((hreaches l j).2 ⟨hl, hjl⟩)
      · have hsx : x.shape.sx.isSome := TShape.sx_of_le (t := x.shape) htag htag' ▸ rfl
        have hexp := TShape.setLine_exp hfits (col := col) (i := line.1) (c0 := line.2.1) (m := act) (f := src) hsx hb'
        rw [← hagrees.exps hsx] at hexp
        intro written
        have hwritten : written ↔ x.shape.reaching col line.2.1 act ≠ [] ∧ b = x.shape.onLine col line.1 line.2.1 / 32 := and_congr hsome Iff.rfl
        exact ⟨fun h => hexp.trans (if_pos (hwritten.1 h)), fun h => hexp.trans (if_neg (mt hwritten.2 h))⟩

end Sys2Proof.Machine
end

section
/-! SUPPORT. The bits that results of the elementwise operations have, and bounds and exponents of blocks (R23, R40 to R42, R171). -/

namespace Sys2Proof.Num

/-! Bits of a format (R23, R36, R40). -/

/-- R23: the bits of an encoding. -/
def Fmt.width (f : Fmt) : Nat := 1 + f.eb + f.fb

theorem Fmt.two_signBit (f : Fmt) : 2 * f.signBit = 2 ^ f.width := by cases f <;> rfl

theorem Fmt.maxFin_lt (f : Fmt) : f.maxFin + 1 < f.signBit := by cases f <;> decide

theorem Fmt.nan_lt (f : Fmt) : f.nan < 2 ^ f.width := by cases f <;> decide

theorem Fmt.infBits_lt (f : Fmt) (neg : Bool) : f.infBits neg < 2 ^ f.width := by cases f <;> cases neg <;> decide

theorem Fmt.maxBits_lt (f : Fmt) (neg : Bool) : f.maxBits neg < 2 ^ f.width := by cases f <;> cases neg <;> decide

theorem Fmt.overflow_lt (f : Fmt) (mode : Nat) (neg sat : Bool) : f.overflow mode neg sat < 2 ^ f.width := by
  unfold Fmt.overflow
  split
  · exact f.maxBits_lt neg
  · split
    · exact f.maxBits_lt neg
    · exact f.infBits_lt neg

theorem roundFin_lt (f : Fmt) (mode : Nat) (sat neg : Bool) (m : Nat) (e : Int) (sticky : Bool) (i ph : Nat) :
    roundFin f mode sat neg m e sticky i ph < 2 ^ f.width := by
  have hwidth := f.two_signBit
  have hmax := f.maxFin_lt
  have hsign : (if neg then f.signBit else 0) ≤ f.signBit := by split <;> omega
  unfold roundFin
  split
  · omega
  · extract_lets emin ex ulp sh q rem q' bits
    split
    · exact f.overflow_lt mode neg sat
    · omega

/-- R40: what a value is rounded to has the bits of its format. -/
theorem pack_lt (f : Fmt) (mode : Nat) (sat : Bool) (i ph : Nat) (v : FVal) : pack f mode sat i ph v < 2 ^ f.width := by
  cases v with
  | nan => exact f.nan_lt
  | inf neg =>
    rw [pack]
    split
    · exact f.maxBits_lt neg
    · exact f.infBits_lt neg
  | fin neg m e => exact roundFin_lt ..

theorem fmin_lt {f : Fmt} {a b n : Nat} (hnan : f.nan < n) (ha : a < n) (hb : b < n) : fmin f a b < n := by
  unfold fmin
  split_ifs <;> assumption

theorem fmax_lt {f : Fmt} {a b n : Nat} (hnan : f.nan < n) (ha : a < n) (hb : b < n) : fmax f a b < n := by
  unfold fmax
  split_ifs <;> assumption

theorem intBits_lt (w : Nat) (x : Int) : intBits w x < 2 ^ w := by
  have hpos : (0 : Int) < (2 ^ w : Nat) := by exact_mod_cast Nat.two_pow_pos w
  have hlt := Int.emod_lt_of_pos x hpos
  rw [intBits]
  omega

/-- Two's complement: the bits of a number in range are that number (R22). -/
theorem sintOf_intBits {w : Nat} {x : Int} (hw : 0 < w) (hlo : -(2 ^ (w - 1) : Nat) ≤ x) (hhi : x < (2 ^ (w - 1) : Nat)) : sintOf w (intBits w x) = x := by
  have hhalf : 2 ^ w = 2 * 2 ^ (w - 1) := (mul_pow_sub_one hw.ne' 2).symm
  have hmod : intBits w x % 2 ^ w = intBits w x := Nat.mod_eq_of_lt (intBits_lt w x)
  rw [sintOf, hmod, intBits, hhalf]
  generalize 2 ^ (w - 1) = n at *
  rcases Int.lt_or_le x 0 with hneg | hpos
  · have hval : x % ((2 * n : Nat) : Int) = x + (2 * n : Nat) := by
      rw [← Int.add_emod_right, Int.emod_eq_of_lt (by omega) (by omega)]
    rw [hval]
    split <;> omega
  · rw [Int.emod_eq_of_lt hpos (by omega)]
    split <;> omega

theorem sintOf_range {w : Nat} (hw : 0 < w) (b : Nat) : -(2 ^ (w - 1) : Nat) ≤ sintOf w b ∧ sintOf w b < (2 ^ (w - 1) : Nat) := by
  have hhalf : 2 ^ w = 2 * 2 ^ (w - 1) := (mul_pow_sub_one hw.ne' 2).symm
  have hlt : b % 2 ^ w < 2 ^ w := Nat.mod_lt _ (Nat.two_pow_pos w)
  rw [sintOf]
  split <;> omega

/-! The order of integers (R42, R60). -/

/-- An integer as a value. -/
def ofInt (x : Int) : FVal := .fin (decide (x < 0)) x.natAbs 0

theorem units_ofInt (x : Int) : units (decide (x < 0)) x.natAbs 0 0 = x := by
  have hpow : (x.natAbs * 2 ^ (0 - 0 : Int).toNat : Nat) = x.natAbs := by simp
  rw [units, hpow]
  rcases Int.lt_or_le x 0 with h | h
  · rw [if_pos (by simpa using h)]; omega
  · rw [if_neg (by simpa using h)]; omega

theorem less_ofInt {x y : Int} (h : x < y) : less (ofInt x) (ofInt y) = true := by
  have hbelow : below (ofInt x) (ofInt y) = true := by
    simp only [ofInt, below, min_self, units_ofInt, h, decide_true, Bool.true_or]
  unfold less
  split
  · next heq => cases heq
  · next heq _ => cases heq
  · next hx hy =>
    simp only [ofInt, FVal.fin.injEq, Int.natAbs_eq_zero] at hx hy
    omega
  · exact hbelow

/-! Blocks (R41). -/

theorem toSX_length (x : List FVal) (m : Nat) (sat : Bool) (mode ph : Nat) : (toSX x m sat mode ph).2.length = x.length := by
  unfold toSX
  dsimp only
  split_ifs <;> simp

theorem toSX_exp_lt (x : List FVal) (m : Nat) (sat : Bool) (mode ph : Nat) : (toSX x m sat mode ph).1 < 256 := by
  unfold toSX
  dsimp only
  split_ifs <;> simp only [Nat.reduceLT] <;> omega

end Sys2Proof.Num
end

section
/-! SUPPORT. The elementwise operations on one element (R171 to R173). -/

namespace Sys2Proof.Num

theorem sintOf_mod (w b : Nat) : sintOf w (b % 2 ^ w) = sintOf w b := by rw [sintOf, sintOf, Nat.mod_mod]

theorem bitsOf_of_fmtOf {tag : Nat} {f : Fmt} (h : fmtOf tag = some f) : bitsOf tag = f.width := by
  unfold fmtOf at h
  split at h <;> cases h <;> rfl

/-- The integer tags of R31: their width and signedness, and no format. -/
theorem intOf_cases {tag : Nat} (h1 : 1 ≤ tag) (h8 : tag ≤ 8) :
    fmtOf tag = none ∧ 0 < bitsOf tag ∧ intOf tag = some (bitsOf tag, decide (tag ≤ 4)) := by
  interval_cases tag <;> decide

theorem isSome_intOf {tag : Nat} : (intOf tag).isSome = true ↔ tag ≤ 8 := by
  refine ⟨fun h => ?_, fun h => by interval_cases tag <;> rfl⟩
  unfold intOf at h
  split at h <;> simp at h ⊢

/-- R22: an integer as it stands in a lane has its own bits lowest. -/
theorem place_mod {tag : Nat} (h1 : 1 ≤ tag) (h8 : tag ≤ 8) (b : Nat) : place tag b % 2 ^ bitsOf tag = b % 2 ^ bitsOf tag := by
  interval_cases tag <;> simp only [place, intOf, bitsOf, intBits, sintOf] <;> norm_num <;> split_ifs <;> omega

theorem clampI_range {lo hi : Int} (h : lo ≤ hi) (x : Int) : lo ≤ clampI lo hi x ∧ clampI lo hi x ≤ hi := by
  unfold clampI
  split_ifs <;> omega

end Sys2Proof.Num

namespace Sys2Proof.Machine

open Sys2Proof

/-! Formats (R31, R171). -/

/-- R171: the tags of the float tiles that the operations take. -/
def FloatTag (tag : Nat) : Prop := tag = 0x11 ∨ tag = 0x12 ∨ tag = 0x13

/-- The format of such a tag. -/
def floatFmt (tag : Nat) : Num.Fmt := if tag = 0x11 then .fp32 else if tag = 0x12 then .fp16 else .bf16

theorem FloatTag.fmtOf {tag : Nat} (h : FloatTag tag) : Num.fmtOf tag = some (floatFmt tag) := by rcases h with rfl | rfl | rfl <;> rfl

/-- R171: what `TADDS`, `TMULS`, `TEXPS` of a float and `TCLMP` make of an element, by the function number. -/
def elemOp (k tag q a : Nat) : Nat :=
  match k with
  | 0 => addElem tag q a
  | 1 => mulElem tag q a
  | 2 => scaleElem (floatFmt tag) (Num.sintOf 16 q) a
  | _ => clampElem tag q a

/-! Bounds of `TCLMP` (R171). -/

section
variable {tag : Nat} (h1 : 1 ≤ tag)
include h1

/-- R171: a bound of a clamp of signed integers, brought into their range. -/
theorem clampBound_signed (h4 : tag ≤ 4) (w : Nat) : clampBound tag w = Num.intBits (Num.bitsOf tag)
    (Num.clampI (-(2 ^ (Num.bitsOf tag - 1) : Nat)) ((2 ^ (Num.bitsOf tag - 1) : Nat) - 1) (Num.sintOf 32 w)) := by
  obtain ⟨hfmt, _, hint⟩ := Num.intOf_cases h1 (by omega : tag ≤ 8)
  rw [decide_eq_true h4] at hint
  have hsrc : Num.intOf 3 = some (32, true) := rfl
  simp only [clampBound, hfmt, hint, Num.convert, hsrc, if_true]
  rw [Num.place_mod h1 (by omega), Nat.mod_eq_of_lt (Num.intBits_lt ..)]

/-- R171: a bound of a clamp of unsigned integers. -/
theorem clampBound_unsigned (h4 : 4 < tag) (h8 : tag ≤ 8) (w : Nat) : clampBound tag w = min (2 ^ Num.bitsOf tag - 1) (w % 2 ^ 32) := by
  obtain ⟨hfmt, _, hint⟩ := Num.intOf_cases h1 h8
  rw [decide_eq_false (Nat.not_le.mpr h4)] at hint
  have hsrc : Num.intOf 7 = some (32, false) := rfl
  simp only [clampBound, hfmt, hint, Num.convert, hsrc, if_true, Bool.false_eq_true, if_false]
  rw [Num.place_mod h1 h8, Nat.mod_eq_of_lt (Num.intBits_lt ..), Num.intBits]
  have hpos := Nat.two_pow_pos (Num.bitsOf tag)
  generalize 2 ^ Num.bitsOf tag = n at *
  unfold Num.clampI
  split_ifs with hneg hbig
  · omega
  · rw [Int.emod_eq_of_lt (by omega) (by omega)]
    omega
  · rw [Int.emod_eq_of_lt (by omega) (by omega)]
    omega

end

/-- R171: a clamp that is accepted has its bounds in order. -/
theorem bounds_of_badClamp {tag q : Nat} (h1 : 1 ≤ tag) (h4 : tag < 4) (h : badClamp tag q = false) :
    Num.sintOf 32 q ≤ Num.sintOf 32 (q / 2 ^ 32) := by
  obtain ⟨_, _, hint⟩ := Num.intOf_cases h1 (by omega : tag ≤ 8)
  rw [decide_eq_true (by omega : tag ≤ 4)] at hint
  have hval : ∀ x, Num.valueOf 3 0 x = Num.ofInt (Num.sintOf 32 x) := fun _ => rfl
  simp only [badClamp, hint, hval, Num.sintOf_mod, Bool.or_eq_false_iff] at h
  exact not_lt.mp fun hlt => by rw [Num.less_ofInt hlt] at h; exact absurd h.2 (by decide)

/-! What an operation gives (R171). -/

/-- R171: what an operation makes of an element of a float tile. -/
def FloatOutcome (tag k q a z : Nat) : Prop :=
  let f : Num.Fmt := floatFmt tag
  let round (v : Num.FVal) : Nat := Num.pack f 0 false 0 0 v
  let s32 := Num.unpack .fp32 (q % 2 ^ 32)
  let e := Num.sintOf 16 q
  (k = 0 → z = round (Num.exactSum false [Num.unpack f a, s32])) ∧
  (k = 1 → z = round (Num.exactMul (Num.unpack f a) s32)) ∧
  (k = 2 → Num.unpack f a = .nan → z = round .nan) ∧
  (k = 2 → ∀ n, Num.unpack f a = .inf n → z = round (.inf n)) ∧
  (k = 2 → ∀ n p x, Num.unpack f a = .fin n p x →
    z = Num.pack f (if (Nat.log2 p : Int) + x + e < 1 - (f.bias : Int) then 1 else 0) false 0 0 (.fin n p (x + e))) ∧
  (k = 4 → z = Num.fmin f (Num.fmax f a (round s32)) (round (Num.unpack .fp32 (q / 2 ^ 32 % 2 ^ 32))))

theorem floatOutcome {tag : Nat} (h : FloatTag tag) (k q a : Nat) : FloatOutcome tag k q a (elemOp k tag q a) := by
  have hfmt := h.fmtOf
  refine ⟨?_, ?_, ?_, ?_, ?_, ?_⟩
  · rintro rfl
    simp only [elemOp, addElem, hfmt]
  · rintro rfl
    simp only [elemOp, mulElem, hfmt]
  · rintro rfl hnan
    simp only [elemOp, scaleElem, hnan]
  · rintro rfl n hinf
    simp only [elemOp, scaleElem, hinf]
  · rintro rfl n p x hfin
    simp only [elemOp, scaleElem, hfin]
  · rintro rfl
    simp only [elemOp, clampElem, clampBound, hfmt]

/-- R171: what an operation makes of an element of an integer tile. -/
def IntOutcome (tag k q a z : Nat) : Prop :=
  let m := Num.bitsOf tag
  (k = 0 → z = (a + q) % 2 ^ m) ∧
  (k = 1 → z = a * q % 2 ^ m) ∧
  (k = 4 → tag < 4 → Num.sintOf m z = max (-2 ^ (m - 1)) (min (2 ^ (m - 1) - 1)
    (min (max (Num.sintOf m a) (Num.sintOf 32 q)) (Num.sintOf 32 (q / 2 ^ 32))))) ∧
  (k = 4 → 4 < tag → z = min (2 ^ m - 1) (min (max a (q % 2 ^ 32)) (q / 2 ^ 32 % 2 ^ 32)))

/-- A number between two bounds that were brought into a range, in order, is between the bounds and in the range. -/
theorem clampI_clampI {n a lo hi : Int} (ha : -n ≤ a ∧ a < n) (h : lo ≤ hi) :
    Num.clampI (Num.clampI (-n) (n - 1) lo) (Num.clampI (-n) (n - 1) hi) a = max (-n) (min (n - 1) (min (max a lo) hi)) := by
  unfold Num.clampI
  split_ifs <;> omega

theorem sintOf_clampElem {tag q a : Nat} (h1 : 1 ≤ tag) (h4 : tag < 4) (h : badClamp tag q = false) : Num.sintOf (Num.bitsOf tag) (clampElem tag q a) =
    max (-2 ^ (Num.bitsOf tag - 1)) (min (2 ^ (Num.bitsOf tag - 1) - 1)
      (min (max (Num.sintOf (Num.bitsOf tag) a) (Num.sintOf 32 q)) (Num.sintOf 32 (q / 2 ^ 32)))) := by
  obtain ⟨hfmt, hpos, hint⟩ := Num.intOf_cases h1 (by omega : tag ≤ 8)
  rw [decide_eq_true (by omega : tag ≤ 4)] at hint
  have horder := bounds_of_badClamp h1 h4 h
  have hrange := Num.sintOf_range hpos a
  have hbound : ∀ w, Num.sintOf (Num.bitsOf tag) (clampBound tag (w % 2 ^ 32)) =
      Num.clampI (-(2 ^ (Num.bitsOf tag - 1) : Nat)) ((2 ^ (Num.bitsOf tag - 1) : Nat) - 1) (Num.sintOf 32 w) := by
    intro w
    have hin := Num.clampI_range (lo := -(2 ^ (Num.bitsOf tag - 1) : Nat)) (hi := (2 ^ (Num.bitsOf tag - 1) : Nat) - 1)
      (by have := Nat.two_pow_pos (Num.bitsOf tag - 1); omega) (Num.sintOf 32 w)
    rw [clampBound_signed h1 (by omega), Num.sintOf_mod, Num.sintOf_intBits hpos hin.1 (by omega)]
  have hpow : ((2 ^ (Num.bitsOf tag - 1) : Nat) : Int) = 2 ^ (Num.bitsOf tag - 1) := Nat.cast_pow 2 _
  simp only [clampElem, hfmt, hint, hbound]
  rw [clampI_clampI hrange horder, Num.sintOf_intBits hpos (by omega) (by omega), hpow]

theorem clampElem_unsigned {tag q a : Nat} (h4 : 4 < tag) (h8 : tag ≤ 8) (ha : a < 2 ^ Num.bitsOf tag) :
    clampElem tag q a = min (2 ^ Num.bitsOf tag - 1) (min (max a (q % 2 ^ 32)) (q / 2 ^ 32 % 2 ^ 32)) := by
  obtain ⟨hfmt, _, hint⟩ := Num.intOf_cases (by omega : 1 ≤ tag) h8
  rw [decide_eq_false (Nat.not_le.mpr h4)] at hint
  simp only [clampElem, hfmt, hint, clampBound_unsigned (by omega : 1 ≤ tag) h4 h8, Nat.mod_mod]
  omega

theorem intOutcome {tag k q a : Nat} (h1 : 1 ≤ tag) (h8 : tag ≤ 8) (ha : a < 2 ^ Num.bitsOf tag) (hclamp : k = 4 → badClamp tag q = false) :
    IntOutcome tag k q a (elemOp k tag q a) := by
  have hfmt := (Num.intOf_cases h1 h8).1
  refine ⟨?_, ?_, ?_, ?_⟩
  · rintro rfl
    simp only [elemOp, addElem, hfmt]
  · rintro rfl
    simp only [elemOp, mulElem, hfmt]
  · rintro rfl h4
    exact sintOf_clampElem h1 h4 (hclamp rfl)
  · rintro rfl h4
    exact clampElem_unsigned h4 h8 ha

/-! The bits of the results (R165). -/

theorem scaleElem_lt (f : Num.Fmt) (k : Int) (a : Nat) : scaleElem f k a < 2 ^ f.width := by
  unfold scaleElem
  split <;> exact Num.pack_lt ..

theorem clampElem_lt {tag a : Nat} (ha : a < 2 ^ Num.bitsOf tag) (q : Nat) : clampElem tag q a < 2 ^ Num.bitsOf tag := by
  have hbound : ∀ w, clampBound tag w < 2 ^ Num.bitsOf tag := by
    intro w
    unfold clampBound
    split
    · next f hf => exact Num.bitsOf_of_fmtOf hf ▸ Num.pack_lt ..
    · exact Nat.mod_lt _ (Nat.two_pow_pos _)
  unfold clampElem
  dsimp only
  split
  · next f hf =>
    have hnan : f.nan < 2 ^ Num.bitsOf tag := Num.bitsOf_of_fmtOf hf ▸ f.nan_lt
    exact Num.fmin_lt hnan (Num.fmax_lt hnan ha (hbound _)) (hbound _)
  · next m _ hint =>
    have hbits : Num.bitsOf tag = m := by rw [Num.bitsOf, hint]
    exact hbits ▸ Num.intBits_lt ..
  · exact lt_of_le_of_lt (Nat.min_le_right ..) (hbound _)

theorem elemOp_lt {k tag a : Nat} (ha : a < 2 ^ Num.bitsOf tag) (hscale : k = 2 → FloatTag tag) (q : Nat) : elemOp k tag q a < 2 ^ Num.bitsOf tag := by
  unfold elemOp
  split
  · unfold addElem
    split
    · next f hf => exact Num.bitsOf_of_fmtOf hf ▸ Num.pack_lt ..
    · exact Nat.mod_lt _ (Nat.two_pow_pos _)
  · unfold mulElem
    split
    · next f hf => exact Num.bitsOf_of_fmtOf hf ▸ Num.pack_lt ..
    · exact Nat.mod_lt _ (Nat.two_pow_pos _)
  · exact Num.bitsOf_of_fmtOf (hscale rfl).fmtOf ▸ scaleElem_lt ..
  · exact clampElem_lt ha q

/-! Exponents of blocks (R171). -/

theorem scaleExp_clears_iff (k : Int) (e : Nat) : (scaleExp k e).2 = true ↔ e ≠ 255 ∧ (e : Int) + k < 0 := by
  unfold scaleExp
  split_ifs <;> simp <;> omega

theorem scaleExp_top {k : Int} {e : Nat} (h : e = 255 ∨ 254 < (e : Int) + k) : (scaleExp k e).1 = 255 := by
  unfold scaleExp
  rcases h with h | h
  · rw [if_pos h]
  · rw [if_pos h, ite_self]

theorem scaleExp_moved {k : Int} {e : Nat} (h255 : e ≠ 255) (h : (e : Int) + k ≤ 254) : (scaleExp k e).1 = ((e : Int) + k).toNat := by
  unfold scaleExp
  rw [if_neg h255, if_neg (by omega)]
  split <;> dsimp only
  omega

theorem scaleExp_lt (k : Int) (e : Nat) : (scaleExp k e).1 < 256 := by
  unfold scaleExp
  split_ifs <;> (dsimp only; omega)

end Sys2Proof.Machine
end

section
/-! SUPPORT. The elementwise operations on whole images (R171 to R174). -/

namespace Sys2Proof.Machine

open Sys2Proof

/-! Lists made place by place. -/

theorem getD_map_zipIdx (l : List Nat) (f : Nat → Nat → Nat) {j : Nat} (h : j < l.length) :
    (l.zipIdx.map fun e => f e.2 e.1).getD j 0 = f j (l.getD j 0) := by
  rw [List.getD_eq_getElem _ _ (by simpa using h), List.getD_eq_getElem _ _ h]
  simp

theorem forall_mem_map_zipIdx {l : List Nat} {f : Nat → Nat → Nat} {n : Nat} (hl : ∀ b ∈ l, b < n) (hf : ∀ j b, b < n → f j b < n) :
    ∀ b ∈ l.zipIdx.map fun e => f e.2 e.1, b < n := by
  intro b hb
  obtain ⟨e, he, rfl⟩ := List.mem_map.mp hb
  exact hf _ _ (hl _ (List.fst_mem_of_mem_zipIdx he))

theorem flatMap_range_length {f : Nat → List Nat} {k : Nat} (hf : ∀ b, (f b).length = k) (n : Nat) : ((List.range n).flatMap f).length = k * n := by
  simp [List.length_flatMap, hf, Nat.mul_comm]

/-- Lists of one length in a row: place `j` of list `b`. -/
theorem getD_flatMap_range {f : Nat → List Nat} {k n b j : Nat} (hf : ∀ b, (f b).length = k) (hb : b < n) (hj : j < k) :
    ((List.range n).flatMap f).getD (k * b + j) 0 = (f b).getD j 0 := by
  induction n with
  | zero => omega
  | succ n ih =>
    rw [List.range_succ, List.flatMap_append, List.flatMap_singleton]
    rcases Nat.lt_succ_iff_lt_or_eq.mp hb with hlt | rfl
    · have hplace : k * b + j < k * n := lt_of_lt_of_le (by rw [Nat.mul_succ]; omega) (Nat.mul_le_mul_left k hlt)
      rw [List.getD_append _ _ _ _ (by rwa [flatMap_range_length hf]), ih hlt]
    · rw [List.getD_append_right _ _ _ _ (by rw [flatMap_range_length hf]; omega), flatMap_range_length hf, Nat.add_sub_cancel_left]

/-! Images made place by place. -/

/-- An image has the elements and, for a shared-exponent tag, the exponents that two functions make of those of another. -/
structure TImg.MadeBy (t : TShape) (f g : Nat → Nat → Nat) (x y : TImg) : Prop where
  elems : y.elems = x.elems.zipIdx.map fun e => f e.2 e.1
  exps : t.sx.isSome → y.exps = x.exps.zipIdx.map fun e => g e.2 e.1

theorem TImg.Agrees.symm {t : TShape} {x y : TImg} (h : x.Agrees t y) : y.Agrees t x := ⟨h.elems.symm, fun hsx => (h.exps hsx).symm⟩

section
variable {t : TShape} {f g : Nat → Nat → Nat} {x y : TImg} (h : TImg.MadeBy t f g x y)
include h

theorem TImg.MadeBy.of_agrees {z : TImg} (hz : z.Agrees t y) : TImg.MadeBy t f g x z :=
  ⟨hz.elems.trans h.elems, fun hsx => (hz.exps hsx).trans (h.exps hsx)⟩

variable (hx : x.Fits t)
include hx

theorem TImg.MadeBy.fits (hf : ∀ j a, a < 2 ^ Num.bitsOf t.tag → f j a < 2 ^ Num.bitsOf t.tag) (hg : ∀ b e, e < 256 → g b e < 256) : y.Fits t where
  count := by rw [h.elems, List.length_map, List.length_zipIdx, hx.count]
  bits := by rw [h.elems]; exact forall_mem_map_zipIdx hx.bits hf
  blocks hsx := by rw [h.exps hsx, List.length_map, List.length_zipIdx, hx.blocks hsx]
  bytes hsx := by rw [h.exps hsx]; exact forall_mem_map_zipIdx (hx.bytes hsx) hg

theorem TImg.MadeBy.elem {j : Nat} (hj : j < t.count) : y.elems.getD j 0 = f j (x.elems.getD j 0) := by
  rw [h.elems, getD_map_zipIdx _ _ (hx.count ▸ hj)]

theorem TImg.MadeBy.exp (hsx : t.sx.isSome) {b : Nat} (hb : b < t.blocks) : y.exps.getD b 0 = g b (x.exps.getD b 0) := by
  rw [h.exps hsx, getD_map_zipIdx _ _ (hx.blocks hsx ▸ hb)]

end

/-! What the operations give (R171). -/

/-- R171: the place is one of the region that a `TFILL` names. -/
@[reducible] def Hit (sh : TShape) (g j : Nat) : Prop :=
  sh.inside j = true ∧ g % 512 ≤ (sh.coord j).1 ∧ (sh.coord j).1 < (if g / 2 ^ 18 % 512 = 0 then sh.rows else g % 512 + g / 2 ^ 18 % 512) ∧
    g / 2 ^ 9 % 512 ≤ (sh.coord j).2 ∧ (sh.coord j).2 < (if g / 2 ^ 27 % 1024 = 0 then sh.cols else g / 2 ^ 9 % 512 + g / 2 ^ 27 % 1024)

/-- R171: what an operation makes of element `j`, whose block's exponent was `ex`. -/
def ElemOutcome (sh : TShape) (k q g j ex a z : Nat) : Prop :=
  (sh.inside j = false → k ≠ 2 → z = a) ∧
  (k = 3 → z = if Hit sh g j then q % 2 ^ Num.bitsOf sh.tag else a) ∧
  (0x20 ≤ sh.tag → k = 2 → z = if ex ≠ 255 ∧ (ex : Int) + Num.sintOf 16 q < 0 then 0 else a) ∧
  (sh.inside j = true → (FloatTag sh.tag → FloatOutcome sh.tag k q a z) ∧ (1 ≤ sh.tag → sh.tag ≤ 8 → IntOutcome sh.tag k q a z))

/-- R171: what an operation makes of the exponent of block `b`. -/
def ExpOutcome (sh : TShape) (k q g b a z : Nat) : Prop :=
  (k = 2 → a = 255 ∨ 254 < (a : Int) + Num.sintOf 16 q → z = 255) ∧
  (k = 2 → a ≠ 255 → (a : Int) + Num.sintOf 16 q ≤ 254 → z = ((a : Int) + Num.sintOf 16 q).toNat) ∧
  (k = 3 → z = if (∃ j, j < 32 ∧ Hit sh g (32 * b + j)) then q / 256 % 256 else a)

/-- R171: what an operation makes of a tile. -/
def TileOpResults (sh : TShape) (k q g : Nat) (old new : TImg) : Prop :=
  (∀ j, j < sh.count → ElemOutcome sh k q g j (old.exps.getD (j / 32) 0) (old.elems.getD j 0) (new.elems.getD j 0)) ∧
  (∀ b, b < sh.blocks → 0x20 ≤ sh.tag → ExpOutcome sh k q g b (old.exps.getD b 0) (new.exps.getD b 0))

/-- R171: the tiles that an operation of a scalar accepts. -/
theorem opAccepts_cases {k tag : Nat} (h : opAccepts k tag = true) (hk : k = 0 ∨ k = 1 ∨ k = 4) : FloatTag tag ∨ (1 ≤ tag ∧ tag ≤ 8) := by
  have hor : FloatTag tag ∨ ((Num.intOf tag).isSome ∧ tag ≠ 0) := by
    rcases hk with rfl | rfl | rfl <;> simpa [opAccepts, FloatTag, or_assoc] using h
  rcases hor with hfloat | ⟨hsome, hne⟩
  · exact .inl hfloat
  · exact .inr ⟨Nat.one_le_iff_ne_zero.mpr hne, Num.isSome_intOf.mp hsome⟩

theorem opAccepts_two {tag : Nat} (h : opAccepts 2 tag = true) : FloatTag tag ∨ 0x20 ≤ tag := by
  have hsx : (Num.sxOf tag).isSome → 0x20 ≤ tag := by
    unfold Num.sxOf
    split
    · omega
    · exact nofun
  have hor : FloatTag tag ∨ (Num.sxOf tag).isSome := by simpa [opAccepts, FloatTag, or_assoc] using h
  exact hor.imp_right hsx

theorem FloatTag.bounds {tag : Nat} (h : FloatTag tag) : 8 < tag ∧ tag < 0x20 := by
  rcases h with rfl | rfl | rfl <;> decide

section
variable (t : TShape) (q g : Nat) (x : TImg)

/-- The operations that make each element of the tile for itself (R171). -/
theorem apply_elemOp {k : Nat} (hk : k = 0 ∨ k = 1 ∨ k = 4 ∨ (k = 2 ∧ FloatTag t.tag)) :
    LogEntry.apply { op := k, scalar := q, region := g, tag := t.tag, layout := t.layout } t x = (t, t.mapElems x fun _ => elemOp k t.tag q) := by
  rcases hk with rfl | rfl | rfl | ⟨rfl, hfloat⟩
  · rfl
  · rfl
  · rfl
  · simp only [LogEntry.apply, TShape.scale, hfloat.fmtOf]
    rfl

theorem mapElems_madeBy (f : Nat → Nat → Nat) : TImg.MadeBy t (fun j a => if t.inside j then f j a else a) (fun _ e => e) x (t.mapElems x f) :=
  ⟨rfl, fun _ => (List.zipIdx_map_fst ..).symm⟩

/-- R171: `TEXPS` on a tile of shared exponents. -/
theorem scale_madeBy (hsx : 0x20 ≤ t.tag) (k : Int) :
    TImg.MadeBy t (fun j a => if (scaleExp k (x.exp j)).2 then 0 else a) (fun _ e => (scaleExp k e).1) x (t.scale k x) := by
  have hfmt : Num.fmtOf t.tag = none := by
    obtain ⟨d, hd⟩ := Nat.exists_eq_add_of_le' hsx
    rw [hd]
    rfl
  unfold TShape.scale
  rw [hfmt]
  refine ⟨rfl, fun _ => ?_⟩
  rw [show x.exps.zipIdx.map (fun e => (scaleExp k e.1).1) = (x.exps.zipIdx.map Prod.fst).map fun e => (scaleExp k e).1 from by
      rw [List.map_map]; rfl,
    List.zipIdx_map_fst]

theorem has_region_iff (j : Nat) : (t.inside j && (t.region g).has (t.coord j)) = true ↔ Hit t g j := by
  simp [TShape.region, Region2.has, Hit, and_assoc]

/-- R171: `TFILL`. -/
theorem fill_madeBy (hgood : Num.goodTag t.tag = true) : TImg.MadeBy t (fun j a => if Hit t g j then q % 2 ^ Num.bitsOf t.tag else a)
    (fun b e => if (∃ j, j < 32 ∧ Hit t g (32 * b + j)) then q / 256 % 256 else e) x (t.fill (t.region g) q x) := by
  have hany : ∀ b, ((List.range 32).any fun j => t.inside (32 * b + j) && (t.region g).has (t.coord (32 * b + j))) = true ↔
      ∃ j, j < 32 ∧ Hit t g (32 * b + j) := by
    intro b
    simp only [List.any_eq_true, List.mem_range, has_region_iff]
  unfold TShape.fill
  rcases TShape.sx_cases hgood with ⟨_, hsx, _⟩ | ⟨_, hsx, _⟩
  · simp only [hsx, has_region_iff, hany]
    exact ⟨rfl, fun _ => rfl⟩
  · simp only [hsx, has_region_iff]
    exact ⟨rfl, fun h => absurd h (by rw [hsx]; exact Bool.false_ne_true)⟩

end

/-! One operation on a tile (R171). -/

/-- The image that an operation gives, in its shape, and what every image that agrees with it has. -/
def GivesOutcome (t : TShape) (k q g : Nat) (x : TImg) : Prop :=
  ∃ img, LogEntry.apply { op := k, scalar := q, region := g, tag := t.tag, layout := t.layout } t x = (t, img) ∧ img.Fits t ∧
    ∀ y : TImg, y.Agrees t img → TileOpResults t k q g x y

section
variable {t : TShape} {x : TImg} (hx : x.Fits t) {k q g : Nat}
include hx

theorem givesOutcome_elemOp (hk : k = 0 ∨ k = 1 ∨ k = 4 ∨ (k = 2 ∧ FloatTag t.tag)) (htag : FloatTag t.tag ∨ (1 ≤ t.tag ∧ t.tag ≤ 8))
    (hclamp : k = 4 → badClamp t.tag q = false) : GivesOutcome t k q g x := by
  have hsmall : t.tag < 0x20 := htag.elim (fun h => h.bounds.2) fun h => by omega
  have hmade := mapElems_madeBy t x fun _ => elemOp k t.tag q
  have hscale : k = 2 → FloatTag t.tag := by
    rintro rfl
    simpa using hk
  refine ⟨_, apply_elemOp t q g x hk, hmade.fits hx (fun j a ha => ?_) fun _ _ he => he, fun y hy => ⟨fun j hj => ?_, fun b _ hsx => by omega⟩⟩
  · split
    · exact elemOp_lt ha hscale q
    · exact ha
  · rw [(hmade.of_agrees hy).elem hx hj]
    refine ⟨fun hin _ => by rw [hin]; rfl, fun h3 => by omega, fun hsx => by omega, fun hin => ?_⟩
    rw [if_pos hin]
    exact ⟨fun hfloat => floatOutcome hfloat .., fun h1 h8 => intOutcome h1 h8 (hx.elem_lt j) hclamp⟩

variable (hgood : Num.goodTag t.tag = true)
include hgood

theorem givesOutcome_scale (hsx : 0x20 ≤ t.tag) : GivesOutcome t 2 q g x := by
  have hfloat : ¬ FloatTag t.tag := fun h => by have := h.bounds; omega
  have hsome : t.sx.isSome := by rw [TShape.sx_of_le hgood hsx]; rfl
  have hmade := scale_madeBy t x hsx (Num.sintOf 16 q)
  refine ⟨_, rfl, hmade.fits hx (fun j a ha => ?_) fun _ e _ => scaleExp_lt _ e, fun y hy => ⟨fun j hj => ?_, fun b hb _ => ?_⟩⟩
  · split
    · exact Nat.two_pow_pos _
    · exact ha
  · rw [(hmade.of_agrees hy).elem hx hj]
    refine ⟨fun _ h => absurd rfl h, fun h => absurd h (by decide), fun _ _ => ?_, fun _ => ⟨fun h => absurd h hfloat, fun _ h8 => by omega⟩⟩
    exact if_congr (scaleExp_clears_iff ..) rfl rfl
  · rw [(hmade.of_agrees hy).exp hx hsome hb]
    exact ⟨fun _ h => scaleExp_top h, fun _ h255 h => scaleExp_moved h255 h, fun h => absurd h (by decide)⟩

theorem givesOutcome_fill : GivesOutcome t 3 q g x := by
  have hmade := fill_madeBy t q g x hgood
  refine ⟨_, rfl, hmade.fits hx (fun j a ha => ?_) (fun b e he => ?_), fun y hy => ⟨fun j hj => ?_, fun b hb hsx => ?_⟩⟩
  · split
    · exact Nat.mod_lt _ (Nat.two_pow_pos _)
    · exact ha
  · split
    · exact Nat.mod_lt _ (by decide)
    · exact he
  · rw [(hmade.of_agrees hy).elem hx hj]
    refine ⟨fun hin _ => if_neg fun hhit => ?_, fun _ => rfl, fun _ h => absurd h (by decide), fun _ => ⟨fun _ => ?_, fun _ _ => ?_⟩⟩
    · exact absurd (hhit.1.symm.trans hin) (by decide)
    · exact ⟨nofun, nofun, nofun, nofun, nofun, nofun⟩
    · exact ⟨nofun, nofun, nofun, nofun⟩
  · rw [(hmade.of_agrees hy).exp hx (by rw [TShape.sx_of_le hgood hsx]; rfl) hb]
    exact ⟨nofun, nofun, fun _ => rfl⟩

/-- R171: an accepted operation of a scalar. -/
theorem givesOutcome_scalar (hk : k = 0 ∨ k = 1 ∨ k = 2 ∨ k = 4) (hacc : opAccepts k t.tag = true) (hclamp : k = 4 → badClamp t.tag q = false) :
    GivesOutcome t k q g x := by
  by_cases h2 : k = 2
  · subst h2
    rcases opAccepts_two hacc with hfloat | hsx
    · exact givesOutcome_elemOp hx (.inr (.inr (.inr ⟨rfl, hfloat⟩))) (.inl hfloat) nofun
    · exact givesOutcome_scale hx hgood hsx
  · exact givesOutcome_elemOp hx (by omega) (opAccepts_cases hacc (by omega)) hclamp

end

/-! Conversions (R174). -/

/-- R174: what a conversion gives. -/
def Converted (sh u : TShape) (rm : Nat) (sat : Bool) (phase : Nat) (old new : TImg) : Prop :=
  let from_ (j : Nat) : Nat := sh.index (u.coord j).1 (u.coord j).2
  let block (b : Nat) : Nat × List Int := Num.toSX
    ((List.range 32).map fun j => if u.inside (32 * b + j) then sh.value old (from_ (32 * b + j)) else Num.FVal.fin false 0 0)
    (Num.bitsOf u.tag) sat rm phase
  (u.tag < 0x20 → ∀ j, j < u.count → new.elems.getD j 0 =
    Num.convert sh.tag (old.exps.getD (from_ j / 32) 0) u.tag sat rm ((u.coord j).2 % 32) phase (old.elems.getD (from_ j) 0) % 2 ^ Num.bitsOf u.tag) ∧
  (0x20 ≤ u.tag → ∀ b, b < u.blocks → new.exps.getD b 0 = (block b).1 ∧
    ∀ j, j < 32 → new.elems.getD (32 * b + j) 0 = Num.intBits (Num.bitsOf u.tag) ((block b).2.getD j 0))

/-- An image of shared-exponent blocks, each with its exponent and its 32 mantissas (R29, R30). -/
structure TImg.OfBlocks (m n : Nat) (block : Nat → Nat × List Int) (x : TImg) : Prop where
  elems : x.elems = (List.range n).flatMap fun b => (block b).2.map (Num.intBits m)
  exps : x.exps = (List.range n).map fun b => (block b).1

section
variable {m n : Nat} {block : Nat → Nat × List Int} {x : TImg} (h : x.OfBlocks m n block)
include h

theorem TImg.OfBlocks.exp {b : Nat} (hb : b < n) : x.exps.getD b 0 = (block b).1 := by
  rw [h.exps, List.getD_eq_getElem _ _ (by simpa using hb), List.getElem_map, List.getElem_range]

variable (hlen : ∀ b, (block b).2.length = 32)
include hlen

theorem TImg.OfBlocks.elem {b j : Nat} (hb : b < n) (hj : j < 32) : x.elems.getD (32 * b + j) 0 = Num.intBits m ((block b).2.getD j 0) := by
  rw [h.elems, getD_flatMap_range (fun b => by rw [List.length_map, hlen]) hb hj,
    List.getD_eq_getElem _ _ (by rwa [List.length_map, hlen]), List.getElem_map, List.getD_eq_getElem _ _ (by rwa [hlen])]

theorem TImg.OfBlocks.fits {t : TShape} (hsx : t.sx = some m) (hm : Num.bitsOf t.tag = m) (hn : t.blocks = n) (hexp : ∀ b, (block b).1 < 256) : x.Fits t where
  count := by rw [h.elems, flatMap_range_length fun b => by rw [List.length_map, hlen], TShape.count, hsx, hn]; rfl
  bits := by
    intro b hb
    rw [h.elems] at hb
    obtain ⟨i, _, hb⟩ := List.mem_flatMap.mp hb
    obtain ⟨y, _, rfl⟩ := List.mem_map.mp hb
    rw [hm]
    exact Num.intBits_lt ..
  blocks _ := by rw [h.exps, List.length_map, List.length_range, hn]
  bytes _ := by
    intro e he
    rw [h.exps] at he
    obtain ⟨i, _, rfl⟩ := List.mem_map.mp he
    exact hexp i

end

section
variable (t : TShape) {u : TShape} (rm : Nat) (sat : Bool) (ph : Nat) (x : TImg)

/-- The elements of an image that are made each from its place. -/
theorem fits_of_range {f : Nat → Nat} {y : TImg} (hsx : u.sx = none) (helems : y.elems = (List.range u.count).map fun i => f i % 2 ^ Num.bitsOf u.tag) :
    y.Fits u where
  count := by rw [helems, List.length_map, List.length_range]
  bits := by
    intro b hb
    rw [helems] at hb
    obtain ⟨i, _, rfl⟩ := List.mem_map.mp hb
    exact Nat.mod_lt _ (Nat.two_pow_pos _)
  blocks h := by rw [hsx] at h; exact absurd h Bool.false_ne_true
  bytes h := by rw [hsx] at h; exact absurd h Bool.false_ne_true

theorem getD_map_range {f : Nat → Nat} {n j : Nat} (hj : j < n) : ((List.range n).map f).getD j 0 = f j := by
  rw [List.getD_eq_getElem _ _ (by simpa using hj), List.getElem_map, List.getElem_range]

/-- The block of a conversion to a shared-exponent tag (R41, R174). -/
def cvtBlock (u : TShape) (b : Nat) : Nat × List Int := Num.toSX
  ((List.range 32).map fun j => if u.inside (32 * b + j) then t.value x (t.index (u.coord (32 * b + j)).1 (u.coord (32 * b + j)).2) else .fin false 0 0)
  (Num.bitsOf u.tag) sat rm ph

theorem convert_ofBlocks (hsx : u.sx = some (Num.bitsOf u.tag)) :
    (t.convert u rm sat ph x).OfBlocks (Num.bitsOf u.tag) u.blocks (cvtBlock t rm sat ph x u) := by
  unfold TShape.convert
  simp only [hsx, List.flatMap_map, List.map_map]
  exact ⟨rfl, rfl⟩

/-- R174: a conversion gives an image in its shape, and what every image that agrees with it has. -/
theorem converted_of_convert (hgood : Num.goodTag u.tag = true) :
    (t.convert u rm sat ph x).Fits u ∧ ∀ y : TImg, y.Agrees u (t.convert u rm sat ph x) → Converted t u rm sat ph x y := by
  rcases TShape.sx_cases hgood with ⟨hle, hsx, _⟩ | ⟨hlt, hsx, _⟩
  · have hblocks := convert_ofBlocks t rm sat ph x hsx
    have hlen : ∀ b, (cvtBlock t rm sat ph x u b).2.length = 32 := fun b => by rw [cvtBlock, Num.toSX_length]; simp
    refine ⟨hblocks.fits hlen hsx rfl rfl fun b => Num.toSX_exp_lt .., fun y hy => ⟨fun hlt => by omega, fun _ b hb => ⟨?_, fun j hj => ?_⟩⟩⟩
    · rw [hy.exps (by rw [hsx]; rfl), hblocks.exp hb]
      rfl
    · rw [hy.elems, hblocks.elem hlen hb hj]
      rfl
  · have helems : (t.convert u rm sat ph x).elems = (List.range u.count).map fun j =>
        Num.convert t.tag (x.exp (t.index (u.coord j).1 (u.coord j).2)) u.tag sat rm ((u.coord j).2 % 32) ph
          (x.elems.getD (t.index (u.coord j).1 (u.coord j).2) 0) % 2 ^ Num.bitsOf u.tag := by
      unfold TShape.convert
      simp only [hsx]
    refine ⟨fits_of_range hsx helems, fun y hy => ⟨fun _ j hj => ?_, fun hle => by omega⟩⟩
    rw [hy.elems, helems, getD_map_range hj]
    rfl

end

end Sys2Proof.Machine
end

section
/-! SUPPORT. The elementwise operations as they take effect on a handle and its frames (R171, R175, R234). -/

namespace Sys2Proof.Machine

open Sys2Proof

/-! A request that leaves its queue (R233). -/

section
variable (s : State) (w : Who) (n : Nat)

theorem State.popRequest_rest : { s.popRequest w n with cores := s.cores, agenda := s.agenda } = s := by
  unfold State.popRequest State.pushOnce
  split_ifs <;> rfl

theorem State.popRequest_core (d : Nat) : { (s.popRequest w n).core d with frameWaits := (s.core d).frameWaits } = s.core d := by
  unfold State.popRequest
  split
  · rw [State.core, State.pushOnce_cores, ← State.core]
    by_cases hd : d = w.c
    · rw [hd, State.core_onCore_self]
    · rw [State.core_onCore_ne _ _ hd]
  · rfl

@[simp] theorem State.popRequest_block? (c b : Nat) : (s.popRequest w n).block? c b = s.block? c b :=
  (congrArg (fun co : CoreSt => Tbl.find? co.blocks b) (s.popRequest_core w n c) :)

@[simp] theorem State.popRequest_cohort? (c k : Nat) : (s.popRequest w n).cohort? c k = s.cohort? c k :=
  (congrArg (fun co : CoreSt => Tbl.find? co.cohorts k) (s.popRequest_core w n c) :)

@[simp] theorem State.popRequest_mem : (s.popRequest w n).mem = s.mem := (congrArg State.mem (s.popRequest_rest w n) :)

@[simp] theorem State.popRequest_accs : (s.popRequest w n).accs = s.accs := (congrArg State.accs (s.popRequest_rest w n) :)

@[simp] theorem State.tileImg_popRequest (c : Nat) (h : Handle) : (s.popRequest w n).tileImg c h = s.tileImg c h :=
  State.tileImg_congr (s.popRequest_block? w n) (s.popRequest_rest w n) c h

theorem State.myHandle_popRequest (a : Nat) : (s.popRequest w n).myHandle w a = s.myHandle w a := by
  rw [State.myHandle, State.myHandle, State.popRequest_block?]

end

theorem State.setHandle_leaves {s : State} {w : Who} {bl : Block} (hk : s.cohort? w.c w.k = some w.gone) (hb : s.block? w.c w.h.slot = some bl)
    (n : Nat) (y : Handle) : HandleLeft w bl n y (s.setHandle w.c w.h.slot n y) := by
  rw [State.setHandle_of_block hb]
  exact ⟨(State.cohort?_setBlock ..).trans hk, State.block?_setBlock_self ..⟩

theorem TShape.bytes_le_frames (t : TShape) : t.bytes ≤ t.frames * 4096 := by
  rw [TShape.frames]
  omega

/-! When an operation in place goes on (R171, R175). -/

/-- Nothing holds an operation in place, and it reads no image. -/
structure State.TakesOp (s : State) (w : Who) (n : Nat) (e : LogEntry) : Prop where
  reads : ∀ u, s.opReads w n n e u = u
  hold : s.inPlaceHold w n e = none

theorem Handle.logs_eq_false {x : Handle} (h : x.state = .resident ∨ x.state = .bound) : x.logs = false := by
  rcases h with h | h <;> rw [Handle.logs, h] <;> rfl

theorem Handle.framed_of {x : Handle} (h : x.state = .resident ∨ x.state = .bound) : x.state ≠ .nonResident := by
  rcases h with h | h <;> rw [h] <;> nofun

section
variable {s : State} {w : Who} {n : Nat} {x : Handle} {e : LogEntry} (hx : s.myHandle w n = x)
include hx

theorem State.opReads_framed (h : x.state ≠ .nonResident) (u : Uses) : s.opReads w n n e u = u := by
  rw [State.opReads, bne_self_eq_false, State.tileReads_single hx h, ite_self]
  rfl

theorem State.takesOp_framed (hstate : x.state = .resident ∨ x.state = .bound) (hidle : HandleIdle s w n x) : s.TakesOp w n e where
  reads := State.opReads_framed hx (Handle.framed_of hstate)
  hold := by
    rw [State.inPlaceHold, hx, Handle.logs_eq_false hstate]
    exact State.tileHold_change_none hx hidle

/-- R175, R239: the log that a handle has with the entry put on it. -/
theorem State.appended_eq : s.appended w n e =
    appendLog x.shape x.log e (decide ((s.core w.c).logUsed < 512)) := by rw [State.appended, hx]

theorem State.takesOp_logged (hstate : x.state = .nonResident) (hwrites : x.writes = [])
    (hmats : ∀ m ∈ (s.core w.c).mats, m.slot = w.h.slot → m.ha ≠ n ∧ m.hb ≠ n) {l : List LogEntry} (hl : s.appended w n e = some l) :
    s.TakesOp w n e where
  reads u := by rw [State.opReads, bne_self_eq_false, hl]; rfl
  hold := by
    have hbusy : s.handleBusy w.c w.h.slot n x (some w.h.uid) = false := by
      have hreads : ((s.core w.c).mats.any fun m => m.slot == w.h.slot && (m.ha == n || m.hb == n)) = false := by simpa using hmats
      rw [State.handleBusy, hwrites, hreads]
      rfl
    have hlogs : x.logs = true := by rw [Handle.logs, hstate]; rfl
    simp only [State.inPlaceHold, hx, hlogs, hbusy, hl]
    rfl

end

/-! What an operation in place leaves (R171, R175). -/

theorem State.setFull_keeps {s : State} (h : s.bankWaiters = []) (c : Nat) (x : Handle) (on : Bool) :
    (s.setFull c x on).cores = s.cores ∧ (s.setFull c x on).mem = s.mem := by
  obtain ⟨l, hl⟩ := State.setFull_eq h c x on
  rw [hl]
  exact ⟨rfl, rfl⟩

/-- The handle that an operation in place on a tile in its frames leaves. -/
def Handle.performed (x : Handle) (e : LogEntry) (k : Nat) : Handle := { x.after e with frames := k }

theorem Handle.performed_shape (x : Handle) (e : LogEntry) (k : Nat) :
    (x.performed e k).shape = if e.op = 5 then { x.shape with tag := e.target, layout := e.tlayout } else x.shape := by
  unfold Handle.performed Handle.after
  split <;> rfl

theorem Handle.performed_frame (x : Handle) (e : LogEntry) (k : Nat) : (x.performed e k).frame = x.frame := by
  unfold Handle.performed Handle.after
  split <;> rfl

theorem frameAddr_performed (c : Nat) (x : Handle) (e : LogEntry) (k : Nat) : frameAddr c (x.performed e k) = frameAddr c x := by
  rw [frameAddr, frameAddr, Handle.performed_frame]

section
variable {s : State} {w : Who} {n : Nat} {bl : Block} {x : Handle} {e : LogEntry} (hb : s.block? w.c w.h.slot = some bl) (hx : s.myHandle w n = x)
include hx

/-- R175, R239: on a tile that is not resident the entry goes to the log. -/
theorem State.runInPlace_logged (hstate : x.state = .nonResident) (hwaits : (s.core w.c).frameWaits = []) {l : List LogEntry}
    (hl : s.appended w n e = some l) : (s.onward w).runInPlace w n e = (s.onward w).setHandle w.c w.h.slot n { x.after e with log := l } := by
  have hlogs : x.logs = true := by rw [Handle.logs, hstate]; rfl
  have happended : (s.onward w).appended w n e = some l := by
    rw [State.appended, State.myHandle_onward, State.core_onward]
    exact hl
  simp only [State.runInPlace, State.popRequest_onward n hwaits, State.myHandle_onward, hx, hlogs, if_true, happended]

/-- R171, R234: in its frames the tile becomes what the operation makes of it. -/
theorem State.runInPlace_framed (hlogs : x.logs = false) {u : TShape} {img : TImg} (happly : e.apply x.shape (s.tileImg w.c x) = (u, img))
    (hfits : u.frames ≤ x.frames) : (s.onward w).runInPlace w n e =
      (((((s.onward w).popRequest w n).setHandle w.c w.h.slot n (x.performed e u.frames)).putTile w.c (x.performed e u.frames) u img).setFull w.c
        (x.performed e u.frames) true).freeFrames w.c (x.frame + u.frames) (x.frames - u.frames) := by
  simp only [State.runInPlace, State.myHandle_popRequest, State.myHandle_onward, hx, hlogs, Bool.false_eq_true, if_false, State.tileImg_popRequest,
    State.tileImg_onward, happly, if_neg (Nat.not_lt.mpr hfits)]
  rfl

include hb in
/-- What an operation in place on a tile in its frames leaves: the handle, and in its frames the image. -/
theorem State.runInPlace_framed_leaves (hlogs : x.logs = false) {u : TShape} {img : TImg} (happly : e.apply x.shape (s.tileImg w.c x) = (u, img))
    (hfits : u.frames ≤ x.frames) (hshape : (x.performed e u.frames).shape = u) (hgood : Num.goodTag u.tag = true) (himg : img.Fits u)
    (hroom : x.frame * 4096 + u.frames * 4096 ≤ 0x100000) (hwf : s.mem.wf = true) (hc : w.c < 256) (hwaiters : s.bankWaiters = []) :
    HandleLeft w bl n (x.performed e u.frames) ((s.onward w).runInPlace w n e) ∧
      (((s.onward w).runInPlace w n e).tileImg w.c (x.performed e u.frames)).Agrees u img := by
  rw [State.runInPlace_framed hx hlogs happly hfits]
  set y := x.performed e u.frames
  set p := (s.onward w).popRequest w n
  have hleft : HandleLeft w bl n y (p.setHandle w.c w.h.slot n y) := State.setHandle_leaves
    ((State.popRequest_cohort? ..).trans (State.cohort?_setCohort_self ..)) (((State.popRequest_block? ..).trans (State.block?_setCohort ..)).trans hb) n y
  have hpmem : (p.setHandle w.c w.h.slot n y).mem = s.mem := (State.setHandle_mem ..).trans (State.popRequest_mem ..)
  have hpaccs : (p.setHandle w.c w.h.slot n y).accs = s.accs := (State.setHandle_accs ..).trans (State.popRequest_accs ..)
  obtain ⟨hcores, haccs⟩ := State.putTile_keeps (p.setHandle w.c w.h.slot n y) w.c y u img
  obtain ⟨hfullCores, hfullMem⟩ := State.setFull_keeps ((State.bankWaiters_congr (haccs.trans hpaccs)).trans hwaiters) w.c y true
  have hbytes := u.bytes_le_frames
  have haddr : frameAddr w.c y = tileBase w.c + x.frame * 4096 := frameAddr_performed ..
  refine ⟨hleft.of_cores ((State.freeFrames_cores ..).trans (hfullCores.trans hcores)), ?_⟩
  have hread := State.tileImg_of_putTile (s := p.setHandle w.c w.h.slot n y) (h := y) (y := y) (x := img) (c := w.c)
    (u := (((p.setHandle w.c w.h.slot n y).putTile w.c y u img).setFull w.c y true).freeFrames w.c (x.frame + u.frames) (x.frames - u.frames))
    (hpmem ▸ hwf) ⟨hc, by rw [hshape, Handle.performed_frame]; omega⟩ (by rw [← hshape] at hgood; exact hgood) (by rw [hshape]; exact himg) rfl
    fun b _ hhi => by
      rw [hshape, haddr] at hhi
      rw [State.freeFrames_mem, State.rd_clearFrames, if_neg (by omega), hfullMem, hshape]
  rwa [hshape] at hread

end

/-! What an operation out of place leaves (R171). -/

/-- The state in which an operation out of place writes its tile: a conversion under dither has advanced the phase (R38). -/
def State.phased (s : State) (w : Who) (d : Nat) (e : LogEntry) (x : Handle) : State :=
  if e.op = 5 ∧ e.rm = 5 then (s.onward w).setHandle w.c w.h.slot d { x with phase := (x.phase + 1) % 32 } else s.onward w

theorem State.phased_mem (s : State) (w : Who) (d : Nat) (e : LogEntry) (x : Handle) : (s.phased w d e x).mem = s.mem := by
  unfold State.phased
  split
  · exact State.setHandle_mem ..
  · rfl

theorem State.phased_cohort? {s : State} {w : Who} {bl : Block} (hb : s.block? w.c w.h.slot = some bl) (d : Nat) (e : LogEntry) (x : Handle) :
    (s.phased w d e x).cohort? w.c w.k = some w.gone := by
  unfold State.phased
  split
  · exact (State.setHandle_left hb ..).cohort
  · exact State.cohort?_setCohort_self ..

section
variable {s : State} {w : Who} {a d : Nat} {bl : Block} {x y : Handle} {e : LogEntry} (hb : s.block? w.c w.h.slot = some bl) (hy : s.myHandle w a = y)
  (hx : s.myHandle w d = x) {img : TImg} (happly : e.apply y.shape (s.tileImg w.c y) = (x.shape, img))
include hy hx happly

theorem State.runOutOfPlace_eq : (s.onward w).runOutOfPlace w a d e = (s.phased w d e x).putTile w.c x x.shape img := by
  simp only [State.runOutOfPlace, State.myHandle_onward, hy, hx, State.tileImg_onward, happly]
  rfl

include hb in
/-- R171: in the destination's frames stands what the operation makes of the source, and nothing else changes. -/
theorem State.runOutOfPlace_leaves (hgood : Num.goodTag x.tag = true) (himg : img.Fits x.shape) (hin : x.InStore w.c) (hwf : s.mem.wf = true) :
    ((s.onward w).runOutOfPlace w a d e).cohort? w.c w.k = some w.gone ∧
      (((s.onward w).runOutOfPlace w a d e).tileImg w.c x).Agrees x.shape img ∧
      ∀ b, b < frameAddr w.c x ∨ frameAddr w.c x + x.shape.bytes ≤ b → Mem.rd ((s.onward w).runOutOfPlace w a d e).mem b = Mem.rd s.mem b := by
  rw [State.runOutOfPlace_eq hy hx happly]
  obtain ⟨hcores, _⟩ := State.putTile_keeps (s.phased w d e x) w.c x x.shape img
  have hmem := s.phased_mem w d e x
  refine ⟨?_, State.tileImg_of_putTile (s := s.phased w d e x) (h := x) (hmem ▸ hwf) hin hgood himg rfl fun _ _ _ => rfl, fun b hbeside => ?_⟩
  · rw [State.cohort?, State.core, hcores]
    exact State.phased_cohort? hb d e x
  · rw [State.rd_putTile_beside hgood himg hbeside, hmem]

include hb in
theorem State.runOutOfPlace_block? (hop : e.op ≠ 5) : ((s.onward w).runOutOfPlace w a d e).block? w.c w.h.slot = some bl := by
  rw [State.runOutOfPlace_eq hy hx happly, State.phased, if_neg fun h => hop h.1]
  exact (State.block?_of_cores (State.putTile_keeps ..).1 ..).trans ((State.block?_setCohort ..).trans hb)

end

end Sys2Proof.Machine
end

section
/-! SUPPORT. The instructions of the elementwise operations (R171, R173 to R175, R239). -/

namespace Sys2Proof.Machine

open Sys2Proof

/-! Handles that an operation finds ready (R167, R168, R171). -/

/-- A tile of the cohort's own stands in frames of the tile store with its fill ended. -/
def Handle.Here (w : Who) (x : Handle) : Prop :=
  (x.state = .resident ∨ x.state = .bound) ∧ x.fill = none ∧ x.owner = w.h.cohortid ∧ Num.goodTag x.tag = true ∧
    x.frame * 4096 + x.shape.frames * 4096 ≤ 0x100000

/-- Nothing earlier is to perform on a tile. -/
def State.NothingDue (s : State) (w : Who) (x : Handle) (n : Nat) : Prop :=
  x.writes = [] ∧ ∀ m ∈ (s.core w.c).mats, m.slot = w.h.slot → m.ha ≠ n ∧ m.hb ≠ n

/-- A core's frames of a sound memory, with no load that waits at a bank. -/
def State.Sound (s : State) (w : Who) : Prop := s.mem.wf = true ∧ w.c < 256 ∧ s.bankWaiters = []

/-- Two tiles of an operation out of place, with nothing that holds it. -/
structure State.Apart (s : State) (w : Who) (a d : Nat) (y x : Handle) : Prop where
  ne : a ≠ d
  source : y.Here w
  target : x.Here w
  quiet : s.NothingDue w x d
  stays : ∀ t ∈ y.writes, t.evict = true → t.held = true ∧ t.uid = w.h.uid

theorem Handle.Here.idle {s : State} {w : Who} {x : Handle} {n : Nat} (h : x.Here w) (hquiet : s.NothingDue w x n) : HandleIdle s w n x :=
  .of_quiet h.2.1 hquiet.1 hquiet.2

theorem Handle.Here.inStore {s : State} {w : Who} {x : Handle} (h : x.Here w) (hsound : s.Sound w) : x.InStore w.c := by
  obtain ⟨_, _, _, _, hroom⟩ := h
  obtain ⟨_, hc, _⟩ := hsound
  have hbytes := x.shape.bytes_le_frames
  exact ⟨hc, by omega⟩

section
variable {s : State} {w : Who} {a d : Nat} {y x : Handle} (hy : s.myHandle w a = y) (hx : s.myHandle w d = x) (h : s.Apart w a d y x)
include hy hx h

theorem State.Apart.opReads (e : LogEntry) (u : Uses) : s.opReads w a d e u = u := by
  rw [State.opReads, bne_iff_ne.mpr h.ne, if_pos rfl]
  refine State.tileReads_none (List.forall_mem_cons.mpr ⟨?_, List.forall_mem_singleton.mpr ?_⟩) u
  · exact hy ▸ Handle.framed_of h.source.1
  · exact hx ▸ Handle.framed_of h.target.1

theorem State.Apart.hold : s.residentHold w [a] [d] = none := by
  refine State.residentHold_none (List.forall_mem_singleton.mpr ⟨?_, ?_⟩) (List.forall_mem_singleton.mpr ⟨?_, ?_⟩)
  · exact State.mustWaitTile_read hy ⟨h.source.2.1, Handle.framed_of h.source.1, h.stays⟩
  · exact hy ▸ Handle.framed_of h.source.1
  · exact (State.mustWaitTile_change_iff hx).2 (h.target.idle h.quiet)
  · exact hx ▸ Handle.framed_of h.target.1

end

/-! Every operation in place, from how it runs (R171, R175, R239). -/

/-- R171: an operation in place on a tile that is ready for it takes effect. -/
def Works (s : State) (w : Who) (i : Instr) (n : Nat) (e : LogEntry) : Prop := s.TakesOp w n e → exec i s = .next ((s.onward w).runInPlace w n e)

section
variable {s : State} {w : Who} {n : Nat} {bl : Block} {x : Handle} {i : Instr} {e : LogEntry} (hb : s.block? w.c w.h.slot = some bl)
  (hx : s.myHandle w n = x) (hworks : Works s w i n e)
include hx hworks

include hb in
theorem Works.logged (hstate : x.state = .nonResident) (hquiet : s.NothingDue w x n) (hwaits : (s.core w.c).frameWaits = []) {l : List LogEntry}
    (hl : appendLog x.shape x.log e (decide ((s.core w.c).logUsed < 512)) = some l) : ∃ t, exec i s = .next t ∧
      t.cohort? w.c w.k = some w.gone ∧ t.mem = s.mem ∧
      t.block? w.c w.h.slot = some { bl with handles := Tbl.put bl.handles n { x.after e with log := l } } := by
  obtain ⟨hwrites, hmats⟩ := hquiet
  have happended : s.appended w n e = some l := (State.appended_eq hx).trans hl
  have hleft := State.setHandle_left hb n { x.after e with log := l }
  refine ⟨_, hworks (State.takesOp_logged hx hstate hwrites hmats happended), ?_⟩
  rw [State.runInPlace_logged hx hstate hwaits happended]
  exact ⟨hleft.cohort, State.setHandle_mem .., hleft.block⟩

theorem Works.performed (hstate : x.state = .resident ∨ x.state = .bound) (hfill : x.fill = none) (hquiet : s.NothingDue w x n) :
    exec i s = .next ((s.onward w).runInPlace w n e) :=
  hworks (State.takesOp_framed hx hstate (.of_quiet hfill hquiet.1 hquiet.2))

include hb in
/-- R171: in its frames the tile becomes what the operation makes of it, in the handle's new shape. -/
theorem Works.acts (hhere : x.Here w) (hquiet : s.NothingDue w x n) (hsound : s.Sound w) {u : TShape} {img : TImg}
    (happly : e.apply x.shape (s.tileImg w.c x) = (u, img)) (hfits : u.frames ≤ x.frames)
    (hshape : u = if e.op = 5 then { x.shape with tag := e.target, layout := e.tlayout } else x.shape) (hgood : Num.goodTag u.tag = true)
    (himg : img.Fits u) (hroom : x.frame * 4096 + u.frames * 4096 ≤ 0x100000) : ∃ t y, exec i s = .next t ∧ t.cohort? w.c w.k = some w.gone ∧
      t.block? w.c w.h.slot = some { bl with handles := Tbl.put bl.handles n y } ∧ y.shape = u ∧ (t.tileImg w.c y).Agrees u img := by
  obtain ⟨hwf, hc, hwaiters⟩ := hsound
  have hy : (x.performed e u.frames).shape = u := (x.performed_shape e u.frames).trans hshape.symm
  obtain ⟨hleft, hread⟩ := State.runInPlace_framed_leaves hb hx (Handle.logs_eq_false hhere.1) happly hfits hy hgood himg hroom hwf hc hwaiters
  exact ⟨_, _, hworks.performed hx hhere.1 hhere.2.1 hquiet, hleft.cohort, hleft.block, hy, hread⟩

include hb in
/-- R171: the operations that keep the shape of the tile. -/
theorem Works.acts_of_givesOutcome {k q g : Nat} (he : e = { op := k, scalar := q, region := g, tag := x.tag, layout := x.layout }) (hk : k ≠ 5)
    (hgives : GivesOutcome x.shape k q g (s.tileImg w.c x)) (hhere : x.Here w) (hquiet : s.NothingDue w x n) (hsound : s.Sound w)
    (hfits : x.shape.frames ≤ x.frames) : ∃ t y, exec i s = .next t ∧ t.cohort? w.c w.k = some w.gone ∧
      t.block? w.c w.h.slot = some { bl with handles := Tbl.put bl.handles n y } ∧ y.shape = x.shape ∧
      TileOpResults x.shape k q g (s.tileImg w.c x) (t.tileImg w.c y) := by
  subst he
  obtain ⟨img, happly, himg, hresults⟩ := hgives
  have ⟨_, _, _, hgood, hroom⟩ := hhere
  obtain ⟨t, y, ht, hcohort, hblock, hy, hread⟩ := hworks.acts hb hx hhere hquiet hsound happly hfits (if_neg hk).symm hgood himg hroom
  exact ⟨t, y, ht, hcohort, hblock, hy, hresults _ hread⟩

end

/-! The operations of a scalar (R171, R173). -/

theorem mismatch_eq_false_iff {y x : Handle} : mismatch y x = false ↔ y.shape = x.shape := by
  simp [mismatch, Handle.shape, and_assoc]

section
variable {s : State} {w : Who} {o : OpT} {k : Nat} {x y : Handle} (hx : s.myHandle w o.d = x)
include hx

section
variable (hsame : o.a = o.d) (c : Clear s w { hs := [o.d, o.d], us := [o.b] })
include hsame c

theorem tileScalar_runs (htag : Num.goodTag x.tag = true) (hacc : opAccepts k x.tag = true) (hscalar : badScalar k x.tag (w.h.utag o.b) = false)
    (hclamp : k = 4 → badClamp x.tag (w.h.uq o.b).toNat = false) (howner : x.owner = w.h.cohortid)
    (h : s.TakesOp w o.d (entryOf k x (w.h.uq o.b).toNat 0)) :
    tileScalar k o s = .next ((s.onward w).runInPlace w o.d (entryOf k x (w.h.uq o.b).toNat 0)) := by
  have hlimits : (k == 4 && badClamp x.tag (w.h.uq o.b).toNat) = false := by
    by_cases h4 : k = 4
    · rw [hclamp h4, Bool.and_false]
    · rw [beq_false_of_ne h4, Bool.false_and]
  simp only [tileScalar, hsame]
  rw [issue_runs (w := w)]
  · simp only [if_true, State.myHandle_onward, hx]
  · rw [hx, h.reads]
    exact c
  · rw [State.tileTag_none hx htag, State.notOwner_owned hx howner, hx, hacc, hscalar, bne_self_eq_false, hlimits]
    rfl
  · rw [if_pos trivial, hx]
    exact h.hold

theorem tileScalar_stops (hstate : x.state ≠ .nonResident)
    (hbad : Num.goodTag x.tag = false ∨ opAccepts k x.tag = false ∨ badScalar k x.tag (w.h.utag o.b) = true) : Stops s w (tileScalar k o s) 6 0 0 := by
  simp only [tileScalar, hsame]
  refine issue_traps (b := { code := 6 }) (w := w) (by rw [State.opReads_framed hx hstate]; exact c) ?_
  by_cases htag : Num.goodTag x.tag = true
  · have hrefused : (!opAccepts k x.tag || badScalar k x.tag (w.h.utag o.b)) = true := by
      rcases hbad.resolve_left (by rw [htag]; decide) with h | h <;> simp [h]
    simp only [State.tileTag_none hx htag, hx, badIf_of hrefused]
    rfl
  · rw [State.tileTag_some hx (Bool.eq_false_iff.mpr htag)]
    rfl

end

variable (hy : s.myHandle w o.a = y) (c : Clear s w { hs := [o.d, o.a], us := [o.b] }) (hapart : s.Apart w o.a o.d y x) (hacc : opAccepts k y.tag = true)
  (hscalar : badScalar k y.tag (w.h.utag o.b) = false)
include hy c hapart hacc hscalar

theorem tileScalar_mismatch (hne : y.shape ≠ x.shape) : Stops s w (tileScalar k o s) 9 0 0 := by
  obtain ⟨_, _, howner, htag, _⟩ := hapart.source
  obtain ⟨_, _, howner', htag', _⟩ := hapart.target
  have hbad : mismatch y x = true := by simpa using mt mismatch_eq_false_iff.mp hne
  rw [tileScalar]
  refine issue_traps (b := { code := 9 }) (w := w) (by rw [hapart.opReads hy hx]; exact c) ?_
  dsimp only
  rw [State.tileTag_none hy htag, State.tileTag_none hx htag', State.notOwner_owned hy howner, State.notOwner_owned hx howner', hy, hx, hacc, hscalar,
    bne_iff_ne.mpr hapart.ne, hbad]
  rfl

theorem tileScalar_runs_apart (hshape : y.shape = x.shape) (hclamp : k = 4 → badClamp x.tag (w.h.uq o.b).toNat = false) :
    tileScalar k o s = .next ((s.onward w).runOutOfPlace w o.a o.d (entryOf k y (w.h.uq o.b).toNat 0)) := by
  obtain ⟨_, _, howner, htag, _⟩ := hapart.source
  obtain ⟨_, _, howner', htag', _⟩ := hapart.target
  have heq : y.tag = x.tag := (congrArg TShape.tag hshape :)
  have hlimits : (k == 4 && badClamp y.tag (w.h.uq o.b).toNat) = false := by
    by_cases h4 : k = 4
    · rw [heq, hclamp h4, Bool.and_false]
    · rw [beq_false_of_ne h4, Bool.false_and]
  rw [tileScalar, issue_runs (w := w)]
  · simp only [if_neg hapart.ne, State.myHandle_onward, hy]
  · rw [hapart.opReads hy hx]
    exact c
  · dsimp only
    rw [State.tileTag_none hy htag, State.tileTag_none hx htag', State.notOwner_owned hy howner, State.notOwner_owned hx howner', hy, hx, hacc, hscalar,
      mismatch_eq_false_iff.mpr hshape, hlimits, Bool.and_false]
    rfl
  · rw [if_neg hapart.ne]
    exact hapart.hold hy hx

/-- R171: out of place the destination becomes what the operation makes of the source, and nothing else changes. -/
theorem tileScalar_apart {bl : Block} (hb : s.block? w.c w.h.slot = some bl) (hk : k = 0 ∨ k = 1 ∨ k = 2 ∨ k = 4) (hshape : y.shape = x.shape)
    (hclamp : k = 4 → badClamp x.tag (w.h.uq o.b).toNat = false) (hsound : s.Sound w) : ∃ t, tileScalar k o s = .next t ∧
      t.cohort? w.c w.k = some w.gone ∧ t.block? w.c w.h.slot = some bl ∧
      TileOpResults x.shape k (w.h.uq o.b).toNat 0 (s.tileImg w.c y) (t.tileImg w.c x) ∧
      ∀ a, a < frameAddr w.c x ∨ frameAddr w.c x + x.shape.bytes ≤ a → Mem.rd t.mem a = Mem.rd s.mem a := by
  obtain ⟨_, _, _, htag, _⟩ := hapart.source
  obtain ⟨_, _, _, htag', _⟩ := hapart.target
  have hgives := givesOutcome_scalar (t := y.shape) (State.tileImg_fits htag s w.c) htag (q := (w.h.uq o.b).toNat) (g := 0) hk hacc
    fun h4 => by rw [hshape]; exact hclamp h4
  obtain ⟨img, hgiven, himg, hresults⟩ := hgives
  have happly : (entryOf k y (w.h.uq o.b).toNat 0).apply y.shape (s.tileImg w.c y) = (x.shape, img) := hgiven.trans (by rw [hshape])
  rw [hshape] at himg hresults
  obtain ⟨hcohort, hread, hbeside⟩ := State.runOutOfPlace_leaves hb hy hx happly htag' himg (hapart.target.inStore hsound) hsound.1
  have hop : (entryOf k y (w.h.uq o.b).toNat 0).op ≠ 5 := by
    rintro rfl
    omega
  exact ⟨_, tileScalar_runs_apart hx hy c hapart hacc hscalar hshape hclamp, hcohort, State.runOutOfPlace_block? hb hy hx happly hop,
    hresults _ hread, hbeside⟩

end

/-! `TFILL` (R171). -/

theorem tfill_works {s : State} {w : Who} {o : OpT} {x : Handle} (hx : s.myHandle w o.d = x) (c : Clear s w { hs := [o.d], us := [o.a, o.b] })
    (hword : (w.h.uq o.b).toNat < 2 ^ 37) (hregion : x.shape.holds (x.shape.region (w.h.uq o.b).toNat) = true) (htag : Num.goodTag x.tag = true)
    (howner : x.owner = w.h.cohortid) : Works s w (.tfill o) o.d (entryOf 3 x (w.h.uq o.a).toNat (w.h.uq o.b).toNat) := by
  intro h
  rw [exec_tfill, execTfill, issue_runs (w := w)]
  · simp only [State.myHandle_onward, hx]
  · dsimp only
    rw [hx, h.reads]
    exact c
  · dsimp only
    rw [State.tileTag_none hx htag, State.notOwner_owned hx howner, hx, hregion, Nat.div_eq_of_lt hword]
    rfl
  · dsimp only
    rw [hx]
    exact h.hold

/-! `TCVT` (R174). -/

/-- R174: the shape that a conversion gives a tile. -/
def cvtShape (v : OpTcvt) (y : Handle) : TShape := { y.shape with tag := v.t, layout := cvtLayout y.layout y.tag v.t }

section
variable {s : State} {w : Who} {v : OpTcvt} {x y : Handle} (hx : s.myHandle w v.d = x)
include hx

section
variable (hsame : v.a = v.d) (c : Clear s w { hs := [v.d, v.d] })
include hsame c

theorem tcvt_stops (hstate : x.state ≠ .nonResident) (hbad : v.t = 0 ∨ Num.goodTag v.t = false ∨ Num.goodTag x.tag = false) :
    Stops s w (exec (.tcvt v) s) 6 0 0 := by
  simp only [exec_tcvt, execTcvt, hsame]
  refine issue_traps (b := { code := 6 }) (w := w) (by rw [State.opReads_framed hx hstate]; exact c) ?_
  by_cases htarget : (v.t == 0 || !Num.goodTag v.t) = true
  · rw [badIf_of htarget]
    rfl
  · have hgood : ¬ (v.t = 0 ∨ Num.goodTag v.t = false) := by simpa using htarget
    rw [badIf_of_not (Bool.eq_false_iff.mpr htarget), State.tileTag_some hx ((or_assoc.mpr hbad).resolve_left hgood)]
    rfl

theorem tcvt_works (hzero : v.t ≠ 0) (hgood : Num.goodTag v.t = true) (hframes : cvtFrames v x ≤ x.frames ∨ x.state = .nonResident)
    (htag : Num.goodTag x.tag = true) (howner : x.owner = w.h.cohortid) : Works s w (.tcvt v) v.d (cvtEntry v x x) := by
  intro h
  have hroom : (!x.logs && decide (x.frames < cvtFrames v x)) = false := by
    rcases hframes with hle | hstate
    · rw [decide_eq_false (Nat.not_lt.mpr hle), Bool.and_false]
    · rw [Handle.logs, hstate]
      rfl
  simp only [exec_tcvt, execTcvt, hsame]
  rw [issue_runs (w := w)]
  · simp only [if_true, State.myHandle_onward, hx]
  · rw [hx, h.reads]
    exact c
  · rw [State.tileTag_none hx htag, State.notOwner_owned hx howner, hgood, beq_false_of_ne hzero, bne_self_eq_false]
    rfl
  · simp only [if_true, hx, h.hold, hroom]
    rfl

end

variable (hy : s.myHandle w v.a = y) (c : Clear s w { hs := [v.d, v.a] }) (hapart : s.Apart w v.a v.d y x) (hzero : v.t ≠ 0)
  (hgood : Num.goodTag v.t = true)
include hy c hapart hzero hgood

theorem tcvt_mismatch (hne : x.shape ≠ cvtShape v y) : Stops s w (exec (.tcvt v) s) 9 0 0 := by
  obtain ⟨_, _, howner, htag, _⟩ := hapart.source
  obtain ⟨_, _, howner', htag', _⟩ := hapart.target
  have hbad : (y.rows != x.rows || y.cols != x.cols || x.tag != v.t || x.layout != cvtLayout y.layout y.tag v.t) = true := by
    by_contra h
    simp only [Bool.or_eq_true, bne_iff_ne, not_or, not_not] at h
    obtain ⟨⟨⟨hrows, hcols⟩, htags⟩, hlayout⟩ := h
    exact hne (by rw [cvtShape, Handle.shape, Handle.shape, hrows, hcols, htags, hlayout])
  rw [exec_tcvt, execTcvt]
  refine issue_traps (b := { code := 9 }) (w := w) (by rw [hapart.opReads hy hx]; exact c) ?_
  dsimp only
  rw [State.tileTag_none hy htag, State.tileTag_none hx htag', State.notOwner_owned hy howner, State.notOwner_owned hx howner', hy, hx, hgood,
    beq_false_of_ne hzero, bne_iff_ne.mpr hapart.ne, hbad]
  rfl

theorem tcvt_runs_apart (hshape : x.shape = cvtShape v y) : exec (.tcvt v) s = .next ((s.onward w).runOutOfPlace w v.a v.d (cvtEntry v y x)) := by
  obtain ⟨_, _, howner, htag, _⟩ := hapart.source
  obtain ⟨_, _, howner', htag', _⟩ := hapart.target
  have hmatch : (y.rows != x.rows || y.cols != x.cols || x.tag != v.t || x.layout != cvtLayout y.layout y.tag v.t) = false := by
    simp only [Handle.shape, cvtShape, TShape.mk.injEq, Nat.add_right_cancel_iff] at hshape
    obtain ⟨hrows, hcols, htags, hlayout⟩ := hshape
    simp [hrows, hcols, htags, hlayout]
  rw [exec_tcvt, execTcvt, issue_runs (w := w)]
  · simp only [if_neg hapart.ne, State.myHandle_onward, hy, hx]
  · rw [hapart.opReads hy hx]
    exact c
  · dsimp only
    rw [State.tileTag_none hy htag, State.tileTag_none hx htag', State.notOwner_owned hy howner, State.notOwner_owned hx howner', hy, hx, hgood,
      beq_false_of_ne hzero, hmatch, Bool.and_false]
    rfl
  · dsimp only
    rw [if_neg hapart.ne]
    exact hapart.hold hy hx

/-- R174: out of place the destination becomes the source converted, and no other byte changes. -/
theorem tcvt_apart {bl : Block} (hb : s.block? w.c w.h.slot = some bl) (hshape : x.shape = cvtShape v y) (hsound : s.Sound w) :
    ∃ t, exec (.tcvt v) s = .next t ∧ t.cohort? w.c w.k = some w.gone ∧
      Converted y.shape (cvtShape v y) v.r (v.s == 1) x.phase (s.tileImg w.c y) (t.tileImg w.c x) ∧
      ∀ a, a < frameAddr w.c x ∨ frameAddr w.c x + x.shape.bytes ≤ a → Mem.rd t.mem a = Mem.rd s.mem a := by
  obtain ⟨_, _, _, htag', _⟩ := hapart.target
  obtain ⟨himg, hresults⟩ := converted_of_convert y.shape (u := cvtShape v y) v.r (v.s == 1) x.phase (s.tileImg w.c y) hgood
  have happly : (cvtEntry v y x).apply y.shape (s.tileImg w.c y) =
      (x.shape, y.shape.convert (cvtShape v y) v.r (v.s == 1) x.phase (s.tileImg w.c y)) := by
    rw [hshape]
    rfl
  obtain ⟨hcohort, hread, hbeside⟩ := State.runOutOfPlace_leaves hb hy hx happly htag' (hshape ▸ himg) (hapart.target.inStore hsound) hsound.1
  rw [hshape] at hread
  exact ⟨_, tcvt_runs_apart hx hy c hapart hzero hgood hshape, hcohort, hresults _ hread, hbeside⟩

end

/-- R174: in place a tile in its frames becomes itself converted, where its frames hold it. -/
theorem tcvt_acts {s : State} {w : Who} {v : OpTcvt} {bl : Block} {x : Handle} (hb : s.block? w.c w.h.slot = some bl) (hx : s.myHandle w v.d = x)
    (hworks : Works s w (.tcvt v) v.d (cvtEntry v x x)) (hgood : Num.goodTag v.t = true) (hhere : x.Here w) (hquiet : s.NothingDue w x v.d)
    (hfits : cvtFrames v x ≤ x.frames) (hroom : x.frame * 4096 + x.frames * 4096 ≤ 0x100000) (hsound : s.Sound w) :
    ∃ t y, exec (.tcvt v) s = .next t ∧ t.cohort? w.c w.k = some w.gone ∧
      t.block? w.c w.h.slot = some { bl with handles := Tbl.put bl.handles v.d y } ∧ y.shape = cvtShape v x ∧
      Converted x.shape (cvtShape v x) v.r (v.s == 1) x.phase (s.tileImg w.c x) (t.tileImg w.c y) := by
  have hframes : (cvtShape v x).frames ≤ x.frames := hfits
  obtain ⟨himg, hresults⟩ := converted_of_convert x.shape (u := cvtShape v x) v.r (v.s == 1) x.phase (s.tileImg w.c x) hgood
  obtain ⟨t, y, ht, hcohort, hblock, hy, hread⟩ := hworks.acts hb hx hhere hquiet hsound (u := cvtShape v x)
    (img := x.shape.convert (cvtShape v x) v.r (v.s == 1) x.phase (s.tileImg w.c x)) rfl hframes rfl hgood himg
    ((Nat.add_le_add_left (Nat.mul_le_mul_right _ hframes) _).trans hroom)
  exact ⟨t, y, ht, hcohort, hblock, hy, hresults _ hread⟩

end Sys2Proof.Machine

namespace Sys2Proof

open Machine

/-- Settles O36, from what each operation makes of an image and how it takes effect in place, on the log and out of place. -/
theorem tileOperationResults : Obligations.TileOperationResults := by
  unfold Obligations.TileOperationResults
  intro s w o v bl hb x quiet logged performed does here sound results converted acts apart scalar
  have hx : s.myHandle w o.d = x := State.myHandle_of_block hb _
  have hdoes : ∀ {i n y e}, s.myHandle w n = y → (Num.goodTag y.tag = true → y.owner = w.h.cohortid → Works s w i n e) → does i n y e :=
    fun hy hworks htag howner => ⟨fun hstate hquiet hwaits l hl => (hworks htag howner).logged hb hy hstate hquiet hwaits hl,
      fun hstate hfill hquiet => (hworks htag howner).performed hy hstate hfill hquiet⟩
  have hapart : ∀ {a d}, apart a d → s.Apart w a d (Tbl.at bl.handles a {}) (Tbl.at bl.handles d {}) :=
    fun ⟨hne, hsource, htarget, hquiet, hstays⟩ => ⟨hne, hsource, htarget, hquiet, hstays⟩
  have hexec : ∀ {k i}, (k = 0 ∧ i = Instr.tadds o ∨ k = 1 ∧ i = Instr.tmuls o ∨ k = 2 ∧ i = Instr.texps o ∨ k = 4 ∧ i = Instr.tclmp o) →
      exec i s = tileScalar k o s ∧ (k = 0 ∨ k = 1 ∨ k = 2 ∨ k = 4) := by
    rintro k i (⟨rfl, rfl⟩ | ⟨rfl, rfl⟩ | ⟨rfl, rfl⟩ | ⟨rfl, rfl⟩) <;> exact ⟨rfl, by decide⟩
  refine ⟨?_, ?_, ?_, ?_, ?_⟩
  · intro hsame c k i hi
    obtain ⟨hrun, hk⟩ := hexec hi
    have hworks : opAccepts k x.tag = true → badScalar k x.tag (w.h.utag o.b) = false → (k = 4 → badClamp x.tag (w.h.uq o.b).toNat = false) →
        Num.goodTag x.tag = true → x.owner = w.h.cohortid → Works s w i o.d { scalar with op := k } :=
      fun hacc hscalar hclamp htag howner h => hrun.trans (tileScalar_runs hx hsame c htag hacc hscalar hclamp howner h)
    refine ⟨fun hacc hscalar hclamp => hdoes hx (hworks hacc hscalar hclamp), fun hstate hbad => ?_, fun hacc hscalar hclamp hhere hquiet hfits hsound => ?_⟩
    · rw [hrun]
      exact tileScalar_stops hx hsame c hstate hbad
    · have ⟨_, _, howner, htag, _⟩ := hhere
      exact (hworks hacc hscalar hclamp htag howner).acts_of_givesOutcome hb hx rfl (by omega)
        (givesOutcome_scalar (State.tileImg_fits htag s w.c) htag hk hacc hclamp) hhere hquiet hsound hfits
  · intro c happly k i hi y hacc hscalar
    obtain ⟨hrun, hk⟩ := hexec hi
    have hy : s.myHandle w o.a = y := State.myHandle_of_block hb _
    rw [hrun]
    exact ⟨tileScalar_mismatch hx hy c (hapart happly) hacc hscalar, tileScalar_apart hx hy c (hapart happly) hacc hscalar hb hk⟩
  · intro c hword hregion
    refine ⟨hdoes hx (tfill_works hx c hword hregion), fun hhere hquiet hfits hsound => ?_⟩
    have ⟨_, _, howner, htag, _⟩ := hhere
    exact (tfill_works hx c hword hregion htag howner).acts_of_givesOutcome hb hx rfl (by decide) (givesOutcome_fill (State.tileImg_fits htag s w.c) htag)
      hhere hquiet hsound hfits
  · intro hsame c y
    have hy : s.myHandle w v.d = y := State.myHandle_of_block hb _
    refine ⟨tcvt_stops hy hsame c, fun hzero hgood hframes => hdoes hy (tcvt_works hy hsame c hzero hgood hframes),
      fun hzero hgood hhere hquiet hfits hroom hsound => ?_⟩
    have ⟨_, _, howner, htag, _⟩ := hhere
    exact tcvt_acts hb hy (tcvt_works hy hsame c hzero hgood (.inl hfits) htag howner) hgood hhere hquiet hfits hroom hsound
  · intro c happly hzero hgood y z u
    have hy : s.myHandle w v.a = y := State.myHandle_of_block hb _
    have hz : s.myHandle w v.d = z := State.myHandle_of_block hb _
    exact ⟨tcvt_mismatch hz hy c (hapart happly) hzero hgood, tcvt_apart hz hy c (hapart happly) hzero hgood hb⟩

end Sys2Proof
end

section
/-! SUPPORT. Multiplies that take their place (R180, R181). -/

namespace Sys2Proof.Machine

open Sys2Proof

/-- R168: a tile of the cohort's own in its frames, that an instruction may read. -/
def Handle.Readable (w : Who) (x : Handle) : Prop :=
  x.owner = w.h.cohortid ∧ x.fill = none ∧ x.state ≠ .nonResident ∧ Num.goodTag x.tag = true ∧
    ∀ t ∈ x.writes, t.evict = true → t.held = true ∧ t.uid = w.h.uid

theorem Handle.Readable.readyFor {w : Who} {x : Handle} (h : x.Readable w) : x.ReadyFor w := by
  obtain ⟨_, hfill, hframed, _, hstays⟩ := h
  exact ⟨hfill, hframed, hstays⟩

/-- Readable tiles that an instruction leaves unchanged do not hold it. -/
theorem State.residentHold_reads_none {s : State} {w : Who} {ns : List Nat} (h : ∀ n ∈ ns, (s.myHandle w n).Readable w) :
    s.residentHold w ns [] = none :=
  State.residentHold_none (fun n hn => ⟨State.mustWaitTile_read rfl (h n hn).readyFor, (h n hn).readyFor.framed⟩) (List.forall_mem_nil _)

/-- A multiply has its place behind the core's earlier ones, and the grant its type. -/
structure MultiplyDue (s : State) (w : Who) (o : OpT) (g : Grant) (ty : Nat) (paired : Bool) (t : State) (m : MatOp) : Prop where
  cohort : t.cohort? w.c w.k = some w.gone
  mem : t.mem = s.mem
  mats : (t.core w.c).mats = (s.core w.c).mats ++ [m]
  id : m.id = s.nextId
  slot : m.slot = w.h.slot
  grant : m.grant = g.serial
  left : m.ha = o.a
  right : m.hb = o.b
  paired : m.paired = paired
  grants : (t.core w.c).grants = (s.core w.c).grants.map fun y => if y.slot = g.slot ∧ y.serial = g.serial then { y with ty := ty } else y
  due : if m.started then Due.mk .mmaPerform [w.c, s.nextId] ∈ t.agenda else Due.mk .mmpStart [w.c] ∈ t.agenda

/-- R181: the multiply that an instruction puts behind the core's earlier ones. -/
def State.newMultiply (s : State) (w : Who) (o : OpT) (g : Grant) (paired : Bool) : MatOp :=
  { id := s.nextId, uid := w.h.uid, slot := w.h.slot, grant := g.serial, ha := o.a, hb := o.b, paired := paired,
    started := !paired || ((s.core (w.c ^^^ 1)).mats.isEmpty && s.operandsIn w.c w.h.slot [o.a, o.b]) }

/-- The core with a multiply put last, and the grant's type. -/
def CoreSt.addMultiply (co : CoreSt) (g : Grant) (ty : Nat) (m : MatOp) : CoreSt := { co.setGrantType g ty with mats := co.mats ++ [m] }

/-- The row that a multiply has due. -/
def MatOp.row (m : MatOp) (c : Nat) : Due := if m.started then .mk .mmaPerform [c, m.id] else .mk .mmpStart [c]

section
variable {s : State} {w : Who} {o : OpT} {g : Grant} {ty : Nat} (hg : s.grantOf w o.d = some g)
  (hty : pairType (s.myHandle w o.a).shape (s.myHandle w o.b).shape = some ty)
include hg hty

theorem State.startMultiply_eq (paired : Bool) : s.startMultiply w o paired =
    ((({ s with nextId := s.nextId + 1 } : State).onCore w.c (·.addMultiply g ty (s.newMultiply w o g paired))).pushAll
      [(s.newMultiply w o g paired).row w.c]) := by
  unfold State.startMultiply MatOp.row
  rw [hg, hty]
  dsimp only
  split
  · next h => rw [if_pos (show (s.newMultiply w o g paired).started = true from h)]; rfl
  · next h => rw [if_neg (show ¬ (s.newMultiply w o g paired).started = true from h)]; rfl

theorem State.startMultiply_due (paired : Bool) : ∃ m, MultiplyDue s w o g ty paired ((s.onward w).startMultiply w o paired) m := by
  rw [State.startMultiply_eq ((State.grantOf_onward ..).trans hg) (by rw [State.myHandle_onward, State.myHandle_onward]; exact hty)]
  refine ⟨(s.onward w).newMultiply w o g paired, ?_, rfl, ?_, rfl, rfl, rfl, rfl, rfl, rfl, ?_, ?_⟩
  · rw [State.cohort?, State.core, State.pushAll_cores, ← State.core, State.core_onCore_self]
    exact State.cohort?_setCohort_self ..
  · rw [State.core, State.pushAll_cores, ← State.core, State.core_onCore_self]
    exact congrArg (· ++ _) (State.mats_onward s w w.c)
  · rw [State.core, State.pushAll_cores, ← State.core, State.core_onCore_self]
    exact congrArg (List.map _) (State.grants_onward s w w.c)
  · rw [State.pushAll_agenda]
    unfold MatOp.row
    split
    · exact List.mem_append_right _ List.mem_cons_self
    · exact List.mem_append_right _ List.mem_cons_self

end

/-! `MMA` and `MMP` (R180, R181). -/

theorem State.isPaired_onward (s : State) (w : Who) (o : OpT) : (s.onward w).isPaired w o = s.isPaired w o := by
  unfold State.isPaired
  rw [State.myHandle_onward]
  rfl

section
variable {s : State} {w : Who} {o : OpT} {g : Grant} {ty : Nat} {bl : Block} (hb : s.block? w.c w.h.slot = some bl)
  (c : Clear s w { hs := [o.a, o.b], us := [o.d] }) (hg : s.grantOf w o.d = some g)
  (hty : pairType (s.myHandle w o.a).shape (s.myHandle w o.b).shape = some ty) (htype : g.ty = 0 ∨ g.ty = ty)
  (ha : (s.myHandle w o.a).Readable w) (hr : (s.myHandle w o.b).Readable w)
  (hfit : (s.myHandle w o.a).shape.cols = (s.myHandle w o.b).shape.rows) (hdeep : (s.myHandle w o.a).shape.cols ≤ 256)
  (halone : (s.core (w.c ^^^ 1)).Alone) (hread : bl.GrantUnread g w.h.uid)
include ha hr

theorem multiply_reads (u : Uses) : s.tileReads w [o.a, o.b] u = u :=
  State.tileReads_none (List.forall_mem_cons.mpr ⟨ha.readyFor.framed, List.forall_mem_singleton.mpr hr.readyFor.framed⟩) u

include hg hty htype hfit hdeep in
theorem multiplyCheck_none {cols banks : Nat} (hcols : (s.myHandle w o.b).shape.cols ≤ cols) (hbanks : banks ≤ g.count) :
    multiplyCheck cols banks o w s = none := by
  obtain ⟨howner, _, _, htag, _⟩ := ha
  obtain ⟨howner', _, _, htag', _⟩ := hr
  have hlegal : (g.ty != 0 && g.ty != ty) = false := by rcases htype with h | h <;> simp [h]
  have hsize : ((s.myHandle w o.a).shape.cols != (s.myHandle w o.b).shape.rows || decide (256 < (s.myHandle w o.a).shape.cols) ||
      decide (cols < (s.myHandle w o.b).shape.cols) || decide (g.count < banks)) = false := by
    simp only [Bool.or_eq_false_iff, bne_eq_false_iff_eq, decide_eq_false_iff_not, Nat.not_lt]
    exact ⟨⟨⟨hfit, hdeep⟩, hcols⟩, hbanks⟩
  unfold multiplyCheck
  dsimp only
  rw [State.tileTag_none rfl htag, State.tileTag_none rfl htag', hty, hg]
  dsimp only
  rw [Option.elim_some, hlegal, hsize, State.notOwner_owned rfl howner, State.notOwner_owned rfl howner', State.grantBad_none hg]
  rfl

include hb hg halone hread in
theorem multiplyHold_none : multiplyHold o w s = none := by
  rw [multiplyHold, State.grantHold_none (order := false) hb hg hread nofun fun _ => halone]
  exact State.residentHold_reads_none (List.forall_mem_cons.mpr ⟨ha, List.forall_mem_singleton.mpr hr⟩)

include hb hg halone hread in
theorem pairedHold_none : pairedHold o w s = none := by
  have hstay : ([o.a, o.b].find? fun n => (s.myHandle w n).leaves w.h.uid) = none := by
    simp [Handle.leaves_eq_false_iff.mpr ha.readyFor.stays, Handle.leaves_eq_false_iff.mpr hr.readyFor.stays]
  have hin : ([o.a, o.b].find? fun n => (s.myHandle w n).state == .nonResident) = none := by
    simp [ha.readyFor.framed, hr.readyFor.framed]
  simp only [pairedHold, State.grantHold_none (order := false) hb hg hread nofun fun _ => halone, hstay, hin, Option.map_none]

include hb c hg hty htype hfit hdeep halone hread

theorem mma_due (hcols : (s.myHandle w o.b).shape.cols ≤ 256) (hbanks : 4 ≤ g.count) : ∃ t m, exec (.mma o) s = .next t ∧ MultiplyDue s w o g ty false t m := by
  obtain ⟨m, hm⟩ := State.startMultiply_due hg hty false
  refine ⟨_, m, ?_, hm⟩
  rw [exec_mma, execMma, issue_runs (by rw [multiply_reads ha hr]; exact c) (multiplyCheck_none hg hty htype ha hr hfit hdeep hcols hbanks)
    (multiplyHold_none hb hg ha hr halone hread)]

theorem mmp_due (hcols : (s.myHandle w o.b).shape.cols ≤ 512) (hbanks : 8 ≤ g.count) :
    ∃ t m, exec (.mmp o) s = .next t ∧ MultiplyDue s w o g ty (s.isPaired w o) t m := by
  obtain ⟨m, hm⟩ := State.startMultiply_due hg hty (s.isPaired w o)
  have hhold : (if s.isPaired w o then pairedHold o w s else multiplyHold o w s) = none := by
    rw [pairedHold_none hb hg ha hr halone hread, multiplyHold_none hb hg ha hr halone hread, ite_self]
  refine ⟨_, m, ?_, hm⟩
  rw [exec_mmp, execMmp, issue_runs (by rw [multiply_reads ha hr]; exact c) (multiplyCheck_none hg hty htype ha hr hfit hdeep hcols hbanks) hhold,
    State.isPaired_onward]

end

end Sys2Proof.Machine
end

section
/-! SUPPORT. Tiles loaded into a grant (R179, R183). -/

namespace Sys2Proof

theorem mem_insNat {l : List Nat} {k x : Nat} : x ∈ insNat l k ↔ x = k ∨ x ∈ l := by
  induction l with
  | nil => simp [insNat]
  | cons j r ih =>
    rw [insNat]
    split_ifs with hlt heq
    · simp
    · simp [heq]
    · simp only [List.mem_cons, ih]
      tauto

theorem mem_remNat {l : List Nat} {k x : Nat} : x ∈ remNat l k ↔ x ∈ l ∧ x ≠ k := by simp [remNat]

end Sys2Proof

namespace Sys2Proof.Machine

open Sys2Proof

/-! The elements of a grant (R179). -/

/-- R179: the elements of a grant in rows below 256 stand apart. -/
theorem accAddr_far (c : Nat) (g : Grant) {i n i' n' : Nat} (hi : i < 256) (hi' : i' < 256) (h : (i, n) ≠ (i', n')) :
    accAddr c g i n + 4 ≤ accAddr c g i' n' ∨ accAddr c g i' n' + 4 ≤ accAddr c g i n := by
  have hne : i ≠ i' ∨ n ≠ n' := by
    by_contra hboth
    exact h (by simpa [not_or] using hboth)
  simp only [accAddr]
  omega

/-- R179: an element that a grant holds lies in its core's accumulator banks. -/
theorem accAddr_inside {c : Nat} {g : Grant} {r k i n : Nat} (hholds : g.holds r k = true) (hbanks : g.base + g.count ≤ 16) (hi : i < r) (hn : n < k) :
    accBase c ≤ accAddr c g i n ∧ accAddr c g i n + 4 ≤ accBase c + 0x100000 := by
  simp only [Grant.holds, Bool.and_eq_true, decide_eq_true_eq] at hholds
  obtain ⟨_, hcount⟩ := hholds
  simp only [accAddr]
  omega

section
variable {s : State} (c : Nat) (g : Grant) {i n : Nat} (v : Nat) (bad : Bool)

/-- R179, R397: an element written has its value and its poison. -/
theorem State.accAt_setAcc (hwf : s.mem.wf = true) : (s.setAcc c g i n v bad).accAt c g i n = (v % 2 ^ 32, bad) := by
  refine Prod.ext (State.accAt_setAcc_self hwf ..) ?_
  cases bad <;> simp [State.accAt, State.setAcc, mem_insNat, mem_remNat]

/-- R179, R397: an element written leaves every other. -/
theorem State.accAt_setAcc_far (hwf : s.mem.wf = true) {i' n' : Nat} (hi : i < 256) (hi' : i' < 256) (h : (i, n) ≠ (i', n')) :
    (s.setAcc c g i' n' v bad).accAt c g i n = s.accAt c g i n := by
  have hfar := accAddr_far c g hi hi' h
  have hword : accAddr c g i n / 4 ≠ accAddr c g i' n' / 4 := by omega
  refine Prod.ext (Mem.rdN_wrN_apart hwf hfar v) ?_
  cases bad <;> simp [State.accAt, State.setAcc, mem_insNat, mem_remNat, hword]

end

/-! Many elements written (R179, R183). -/

/-- Elements of a grant written, by the numbers of a list. -/
def State.putAcc (c : Nat) (g : Grant) (place : Nat → Nat × Nat) (val : Nat → Nat) (bad : Nat → Bool) (s : State) (ks : List Nat) : State :=
  ks.foldl (fun u k => u.setAcc c g (place k).1 (place k).2 (val k) (bad k)) s

section
variable (c : Nat) (g : Grant) (place : Nat → Nat × Nat) (val : Nat → Nat) (bad : Nat → Bool)

theorem State.putAcc_cores (s : State) (ks : List Nat) : (s.putAcc c g place val bad ks).cores = s.cores :=
  List.foldlRecOn (motive := fun u : State => u.cores = s.cores) ks _ rfl fun _ hu _ _ => hu

/-- Elements written at one place alike: one that is written has their value and their poison, and another is as before. -/
theorem State.accAt_putAcc {ks : List Nat} {s : State} (hwf : s.mem.wf = true) {i n : Nat} (hi : i < 256) (hrows : ∀ k ∈ ks, (place k).1 < 256)
    {x : Nat × Bool} (hagree : ∀ k ∈ ks, place k = (i, n) → (val k % 2 ^ 32, bad k) = x) (hx : s.accAt c g i n = x ∨ ∃ k ∈ ks, place k = (i, n)) :
    (s.putAcc c g place val bad ks).accAt c g i n = x := by
  induction ks generalizing s with
  | nil =>
    rcases hx with h | ⟨k, hk, _⟩
    · exact h
    · cases hk
  | cons k r ih =>
    refine ih (s := s.setAcc c g (place k).1 (place k).2 (val k) (bad k)) (Mem.wrN_wf _ _ _ hwf) (fun j hj => hrows j (List.mem_cons_of_mem _ hj))
      (fun j hj => hagree j (List.mem_cons_of_mem _ hj)) ?_
    by_cases hp : place k = (i, n)
    · left
      rw [hp]
      exact (State.accAt_setAcc c g _ _ hwf).trans (hagree k List.mem_cons_self hp)
    · rcases hx with h | ⟨j, hj, hjp⟩
      · left
        exact (State.accAt_setAcc_far c g _ _ hwf hi (hrows k List.mem_cons_self) (Ne.symm hp)).trans h
      · rcases List.mem_cons.mp hj with rfl | hj
        · exact absurd hjp hp
        · exact .inr ⟨j, hj, hjp⟩

/-- A byte beside every element that is written is as before. -/
theorem State.rd_putAcc_beside {ks : List Nat} {b lo hi : Nat} (hin : ∀ k ∈ ks, lo ≤ accAddr c g (place k).1 (place k).2 ∧
    accAddr c g (place k).1 (place k).2 + 4 ≤ hi) (hb : b < lo ∨ hi ≤ b) (s : State) :
    Mem.rd (s.putAcc c g place val bad ks).mem b = Mem.rd s.mem b := by
  refine List.foldlRecOn (motive := fun u : State => Mem.rd u.mem b = Mem.rd s.mem b) ks _ rfl fun u hu k hk => ?_
  have hk := hin k hk
  refine (Mem.rd_wrBytes_beside u.mem _ _ ?_).trans hu
  rw [leBytes_length]
  omega

end

/-! Places of plain tiles (R165). -/

section
variable {t : TShape} (hlayout : t.layout < 2)
include hlayout

theorem TShape.index_coord (i : Nat) : t.index (t.coord i).1 (t.coord i).2 = i := by
  have hcase : t.layout = 0 ∨ t.layout = 1 := by omega
  rcases hcase with h | h
  · simp only [TShape.coord, TShape.index, h]
    exact Nat.div_add_mod' ..
  · simp only [TShape.coord, TShape.index, h]
    exact Nat.div_add_mod' ..

theorem TShape.index_lt {r c : Nat} (hr : r < t.rows) (hc : c < t.cols) : t.index r c < t.rows * t.cols := by
  have hcase : t.layout = 0 ∨ t.layout = 1 := by omega
  rcases hcase with h | h
  · simp only [TShape.index, h]
    nlinarith
  · simp only [TShape.index, h]
    nlinarith

variable (hrows : 0 < t.rows) (hcols : 0 < t.cols)
include hrows hcols

theorem TShape.coord_index {r c : Nat} (hr : r < t.rows) (hc : c < t.cols) : t.coord (t.index r c) = (r, c) := by
  have hcase : t.layout = 0 ∨ t.layout = 1 := by omega
  rcases hcase with h | h
  · simp only [TShape.coord, TShape.index, h]
    rw [Nat.add_comm, Nat.add_mul_div_right _ _ hcols, Nat.div_eq_of_lt hc, Nat.add_mul_mod_self_right, Nat.mod_eq_of_lt hc, Nat.zero_add]
  · simp only [TShape.coord, TShape.index, h]
    rw [Nat.add_comm, Nat.add_mul_div_right _ _ hrows, Nat.div_eq_of_lt hr, Nat.add_mul_mod_self_right, Nat.mod_eq_of_lt hr, Nat.zero_add]

theorem TShape.coord_lt {i : Nat} (hi : i < t.rows * t.cols) : (t.coord i).1 < t.rows ∧ (t.coord i).2 < t.cols := by
  have hcase : t.layout = 0 ∨ t.layout = 1 := by omega
  rcases hcase with h | h
  · simp only [TShape.coord, h]
    exact ⟨Nat.div_lt_of_lt_mul (by rwa [Nat.mul_comm]), Nat.mod_lt _ hcols⟩
  · simp only [TShape.coord, h]
    exact ⟨Nat.mod_lt _ hrows, Nat.div_lt_of_lt_mul hi⟩

end

/-! `ACLD` (R183). -/

section
variable {s : State} {w : Who} {a q ty : Nat} {g : Grant} {bl : Block} {x : Handle} (hb : s.block? w.c w.h.slot = some bl) (hx : s.myHandle w a = x)
  (c : Clear s w { hs := [a], us := [q] }) (hg : s.grantOf w q = some g) (hready : x.Readable w) (htag : x.tag = 0x11 ∧ ty = 1 ∨ x.tag = 3 ∧ ty = 2)
  (htype : g.ty = 0 ∨ g.ty = ty) (hholds : g.holds (x.rows + 1) (x.cols + 1) = true) (hidle : (s.core w.c).GrantIdle g)
  (halone : (s.core (w.c ^^^ 1)).Alone) (hread : bl.GrantUnread g w.h.uid)

/-- The state with the elements of a tile loaded into a grant. -/
def State.grantLoaded (s : State) (w : Who) (g : Grant) (x : Handle) : State :=
  (s.onward w).putAcc w.c g x.shape.coord (fun i => (s.tileImg w.c x).elems.getD i 0) (s.tileImg w.c x).isBad (List.range x.shape.count)

include hb hx c hg hready htag htype hholds hidle halone hread in
theorem acld_runs : exec (.acld a q) s = .next ((s.grantLoaded w g x).onCore w.c (·.setGrantType g ty)) := by
  obtain ⟨howner, _, hframed, hgood, _⟩ := hready
  have hty : (if x.tag = 0x11 then 1 else 2) = ty := by
    rcases htag with ⟨h, rfl⟩ | ⟨h, rfl⟩ <;> rw [h] <;> rfl
  have hlegal : ((x.tag != 0x11 && x.tag != 3) || (g.ty != 0 && g.ty != ty)) = false := by
    rcases htag with ⟨h, _⟩ | ⟨h, _⟩ <;> rcases htype with h' | h' <;> simp [h, h']
  rw [exec_acld, execAcld, issue_runs (w := w) (by rw [State.tileReads_single hx hframed]; exact c)]
  · simp only [State.grantOf_onward, hg, State.myHandle_onward, hx, State.tileImg_onward, hty]
    rfl
  · dsimp only
    rw [State.tileTag_none hx hgood, State.notOwner_owned hx howner, hx, hg, Option.elim_some, Option.elim_some, hty, hlegal, hholds, State.grantBad_none hg]
    rfl
  · rw [State.grantHold_none hb hg hread (fun _ => hidle) fun _ => halone]
    exact State.residentHold_reads_none (List.forall_mem_singleton.mpr (hx ▸ ⟨howner, ‹_›, hframed, hgood, ‹_›⟩))

theorem State.grantLoaded_cores (s : State) (w : Who) (g : Grant) (x : Handle) : (s.grantLoaded w g x).cores = (s.onward w).cores := State.putAcc_cores ..

section
variable (hplain : x.tag = 0x11 ∨ x.tag = 3) (hlayout : x.layout < 2)
include hplain

theorem Handle.count_plain : x.shape.count = x.shape.rows * x.shape.cols := by
  have hsx : x.shape.sx = none := by rcases hplain with h | h <;> simp [TShape.sx, Handle.shape, h, Num.sxOf]
  rw [TShape.count, hsx]
  rfl

include hlayout in
theorem Handle.coord_lt {k : Nat} (hk : k ∈ List.range x.shape.count) : (x.shape.coord k).1 < x.rows + 1 ∧ (x.shape.coord k).2 < x.cols + 1 :=
  TShape.coord_lt (t := x.shape) hlayout (Nat.succ_pos _) (Nat.succ_pos _) (x.count_plain hplain ▸ List.mem_range.mp hk)

include hlayout hholds in
theorem State.rd_grantLoaded_beside {b : Nat} (hb : b < accBase w.c ∨ accBase w.c + 0x100000 ≤ b) (hbanks : g.base + g.count ≤ 16) :
    Mem.rd (s.grantLoaded w g x).mem b = Mem.rd s.mem b := by
  refine State.rd_putAcc_beside w.c g _ _ _ (fun k hk => ?_) hb (s.onward w)
  obtain ⟨hr, hc⟩ := x.coord_lt hplain hlayout hk
  exact accAddr_inside hholds hbanks hr hc

include hlayout hholds in
/-- R183: the grant's element of each row and column of the tile is the tile's, and every other is as before. -/
theorem State.accAt_grantLoaded (hwf : s.mem.wf = true) {i j : Nat} (hi : i < 256) : (s.grantLoaded w g x).accAt w.c g i j =
    if i ≤ x.rows ∧ j ≤ x.cols then ((s.tileImg w.c x).elems.getD (x.shape.index i j) 0, (s.tileImg w.c x).isBad (x.shape.index i j))
    else s.accAt w.c g i j := by
  have hrows : x.rows + 1 ≤ 256 := by
    simp only [Grant.holds, Bool.and_eq_true, decide_eq_true_eq] at hholds
    exact hholds.1
  have hgood : Num.goodTag x.tag = true := by rcases hplain with h | h <;> rw [h] <;> rfl
  have hbits : 2 ^ Num.bitsOf x.shape.tag = 2 ^ 32 := by rcases hplain with h | h <;> simp only [Handle.shape, h] <;> rfl
  have helem : ∀ k, (s.tileImg w.c x).elems.getD k 0 % 2 ^ 32 = (s.tileImg w.c x).elems.getD k 0 :=
    fun k => Nat.mod_eq_of_lt (hbits ▸ (State.tileImg_fits hgood s w.c).elem_lt k)
  refine State.accAt_putAcc w.c g _ _ _ (s := s.onward w) hwf hi (fun k hk => (x.coord_lt hplain hlayout hk).1.trans_le hrows) (fun k hk hat => ?_) ?_
  · have hlt := x.coord_lt hplain hlayout hk
    have hindex := TShape.index_coord (t := x.shape) hlayout k
    rw [hat] at hlt hindex
    rw [if_pos ⟨Nat.lt_succ_iff.mp hlt.1, Nat.lt_succ_iff.mp hlt.2⟩, hindex, helem]
  · by_cases hin : i ≤ x.rows ∧ j ≤ x.cols
    · refine .inr ⟨x.shape.index i j, ?_, TShape.coord_index (t := x.shape) hlayout (Nat.succ_pos _) (Nat.succ_pos _) (Nat.lt_succ_iff.mpr hin.1)
        (Nat.lt_succ_iff.mpr hin.2)⟩
      rw [List.mem_range, x.count_plain hplain]
      exact TShape.index_lt (t := x.shape) hlayout (Nat.lt_succ_iff.mpr hin.1) (Nat.lt_succ_iff.mpr hin.2)
    · rw [if_neg hin]
      exact .inl rfl

end

end

end Sys2Proof.Machine
end

section
/-! SUPPORT. Epilogue reads of a grant (R182). -/

namespace Sys2Proof.Num

/-! Blocks do not see the exponent of a zero (R28, R41). -/

/-- Two values are the same, or both are zeros of one sign. -/
def Alike (v u : FVal) : Prop := v = u ∨ ∃ neg e f, v = .fin neg 0 e ∧ u = .fin neg 0 f

theorem magLess_zero (m : Nat) (e f : Int) : magLess m e 0 f = false := by simp [magLess]

theorem roundInt_zero (mode : Nat) (neg : Bool) (e : Int) (i ph : Nat) : roundInt mode neg 0 e i ph = 0 := by
  have hup : ∀ sh, roundUp mode neg 0 0 sh false i ph = false := by
    intro sh
    unfold roundUp
    split
    · rfl
    · simp
    · simp
    · simp
    · rfl
    · simp
  simp [roundInt, hup]

section
variable {α β : Type} (l : List α) {F G : α → FVal} (h : ∀ a, Alike (F a) (G a))
include h

theorem map_alike (p : FVal → β) (hp : ∀ neg e f, p (.fin neg 0 e) = p (.fin neg 0 f)) : (l.map F).map p = (l.map G).map p := by
  rw [List.map_map, List.map_map]
  refine List.map_congr_left fun a _ => ?_
  rcases h a with heq | ⟨neg, e, f, hF, hG⟩
  · simp only [Function.comp_apply, heq]
  · simp only [Function.comp_apply, hF, hG, hp neg e f]

theorem any_alike (p : FVal → Bool) (hp : ∀ neg e f, p (.fin neg 0 e) = p (.fin neg 0 f)) : (l.map F).any p = (l.map G).any p := by
  have hmap := congrArg (List.any · id) (map_alike l h p hp)
  simpa only [List.any_map, Function.id_comp] using hmap

theorem map_zipIdx_alike (p : FVal × Nat → β) (hp : ∀ neg e f i, p (.fin neg 0 e, i) = p (.fin neg 0 f, i)) :
    (l.map F).zipIdx.map p = (l.map G).zipIdx.map p := by
  rw [List.zipIdx_map, List.zipIdx_map, List.map_map, List.map_map]
  refine List.map_congr_left fun ⟨a, i⟩ _ => ?_
  rcases h a with heq | ⟨neg, e, f, hF, hG⟩
  · simp only [Function.comp_apply, Prod.map_apply, heq]
  · simp only [Function.comp_apply, Prod.map_apply, hF, hG]
    exact hp neg e f i

theorem maxMag_alike : maxMag (l.map F) = maxMag (l.map G) := by
  unfold maxMag
  rw [List.foldl_map, List.foldl_map]
  congr 1
  funext a x
  rcases h x with heq | ⟨neg, e, f, hF, hG⟩
  · rw [heq]
  · simp only [hF, hG, magLess_zero, Bool.false_eq_true, if_false]

theorem toSX_alike (m : Nat) (sat : Bool) (mode ph : Nat) : toSX (l.map F) m sat mode ph = toSX (l.map G) m sat mode ph := by
  unfold toSX
  dsimp only
  rw [any_alike l h (· == .nan) fun _ _ _ => rfl, any_alike l h _ fun _ _ _ => rfl, maxMag_alike l h, map_alike l h _ fun _ _ _ => rfl,
    map_zipIdx_alike l h _ fun neg e f i => by simp only [roundInt_zero]]

end

end Sys2Proof.Num

namespace Sys2Proof.Machine

open Sys2Proof

/-! What the epilogue gives (R182). -/

/-- R182: the element of column `j` of a scale or bias tile. -/
def State.sideElem (s : State) (c : Nat) (x : Handle) (j : Nat) : Nat := (s.tileImg c x).elems.getD (x.shape.index 0 j) 0

/-- The element of column `j` of a scale or bias tile is poisoned. -/
def State.sideBad (s : State) (c : Nat) (x : Handle) (j : Nat) : Bool := (s.tileImg c x).isBad (x.shape.index 0 j)

/-- R182: an element of the region, scaled and with its bias, by the handles of the block. -/
def Epi.sum (e : Epi) (s : State) (w : Who) (g : Grant) (x : Nat → Handle) (i j : Nat) : Nat :=
  e.scaled g.ty (s.accAt w.c g (e.row0 + i) (e.col0 + j)).1 (s.sideElem w.c (x e.scale) j) (s.sideElem w.c (x e.bias) j)

/-- R182: an element of the region converted to a tag. -/
def Epi.out (e : Epi) (s : State) (w : Who) (g : Grant) (x : Nat → Handle) (rm ph tag i j : Nat) : Nat :=
  if g.ty = 2 ∧ e.sen = false ∧ e.ben = false ∧ e.gscale = 0x3f800000 ∧ 1 ≤ tag ∧ tag ≤ 8 then
    Num.convert 3 0 tag true 0 0 0 (s.accAt w.c g (e.row0 + i) (e.col0 + j)).1
  else Num.convert 0x11 0 tag false rm (j % 32) ph (e.sum s w g x i j)

/-- R182: nothing that the epilogue reads for column `j` of the region's first row is poisoned. -/
def Epi.Clean (e : Epi) (s : State) (w : Who) (g : Grant) (x : Nat → Handle) (j : Nat) : Prop :=
  (s.accAt w.c g e.row0 (e.col0 + j)).2 = false ∧ (e.sen = true → s.sideBad w.c (x e.scale) j = false) ∧
    (e.ben = true → s.sideBad w.c (x e.bias) j = false)

theorem Epi.exact_iff (e : Epi) (ty tag : Nat) : e.exact ty tag = true ↔
    ty = 2 ∧ e.sen = false ∧ e.ben = false ∧ e.gscale = 0x3f800000 ∧ 1 ≤ tag ∧ tag ≤ 8 := by
  simp only [Epi.exact, Bool.and_eq_true, beq_iff_eq, Bool.not_eq_true', Num.isSome_intOf, bne_iff_ne, Nat.one_le_iff_ne_zero]
  tauto

/-- R182: the scale and the bias count where the descriptor has them. -/
theorem Epi.scaled_congr (e : Epi) (ty c : Nat) {sc bi sc' bi' : Nat} (hs : e.sen = true → sc = sc') (hb : e.ben = true → bi = bi') :
    e.scaled ty c sc bi = e.scaled ty c sc' bi' := by
  unfold Epi.scaled
  dsimp only
  cases hsen : e.sen <;> cases hben : e.ben
  · rfl
  · rw [hb hben]
    rfl
  · rw [hs hsen]
    rfl
  · rw [hs hsen, hb hben]

/-- The contents of the tiles that a descriptor names, as they stand in their frames. -/
def Epi.contents (e : Epi) (s : State) (c : Nat) (x : Nat → Handle) : Option (TShape × TImg) × Option (TShape × TImg) :=
  (if e.sen then some ((x e.scale).shape, s.tileImg c (x e.scale)) else none, if e.ben then some ((x e.bias).shape, s.tileImg c (x e.bias)) else none)

section
variable {s : State} {w : Who} {g : Grant} {x : Nat → Handle} (e : Epi)

/-- The contents of one of the tiles that a descriptor names. -/
def State.readSide (s : State) (w : Who) (n : Nat) : Option (TShape × TImg) × State :=
  match s.readTile w n (s.myHandle w n).allGranules with
  | (.ok y, u) => (some ((s.myHandle w n).shape, y), u)
  | (.error _, u) => (none, u)

theorem State.sides_eq (s : State) (w : Who) (e : Epi) : s.sides w e =
    let a := if e.sen then s.readSide w e.scale else (none, s)
    let b := if e.ben then a.2.readSide w e.bias else (none, a.2)
    (a.1, b.1, b.2) := rfl

theorem State.sides_framed (hx : ∀ n, s.myHandle w n = x n) (hin : ∀ n ∈ e.handles, (x n).state ≠ .nonResident) :
    (s.onward w).sides w e = ((e.contents s w.c x).1, (e.contents s w.c x).2, s.onward w) := by
  have hread : ∀ (b : Bool) n, (b = true → (x n).state ≠ .nonResident) → (if b then (s.onward w).readSide w n else (none, s.onward w)) =
      (if b then some ((x n).shape, s.tileImg w.c (x n)) else none, s.onward w) := by
    intro b n hn
    cases b with
    | false => rfl
    | true =>
      have hn' : (s.onward w).myHandle w n = x n := (State.myHandle_onward ..).trans (hx n)
      simp only [if_true, State.readSide, State.readTile_framed hn' (hn rfl), State.tileImg_onward, hn']
  rw [State.sides_eq, hread e.sen e.scale fun h => hin _ (by simp [Epi.handles, h])]
  dsimp only
  rw [hread e.ben e.bias fun h => hin _ (by simp [Epi.handles, h])]
  rfl

theorem State.epiAt_eq (t rm ph i j : Nat) : (s.onward w).epiAt w g e (e.contents s w.c x) t rm ph i j =
    (e.out s w g x rm ph t i j, e.sum s w g x i j, (s.accAt w.c g (e.row0 + i) (e.col0 + j)).2 ||
      (e.sen && s.sideBad w.c (x e.scale) j) || (e.ben && s.sideBad w.c (x e.bias) j)) := by
  have hacc : (s.onward w).accAt w.c g (e.row0 + i) (e.col0 + j) = s.accAt w.c g (e.row0 + i) (e.col0 + j) := rfl
  have hside : ∀ (b : Bool) (h : Handle), sideAt (if b then some (h.shape, s.tileImg w.c h) else none) j =
      (if b then s.sideElem w.c h j else 0, b && s.sideBad w.c h j) := by
    intro b h
    cases b <;> rfl
  have hsum : ∀ c, e.scaled g.ty c (if e.sen then s.sideElem w.c (x e.scale) j else 0) (if e.ben then s.sideElem w.c (x e.bias) j else 0) =
      e.scaled g.ty c (s.sideElem w.c (x e.scale) j) (s.sideElem w.c (x e.bias) j) :=
    fun c => e.scaled_congr g.ty c (fun h => if_pos h) fun h => if_pos h
  simp only [State.epiAt, Epi.contents, hside, hacc, Epi.convert, Epi.exact_iff, hsum]
  rfl

end

end Sys2Proof.Machine
end

section
/-! SUPPORT. `ACRD` in its two forms (R182). -/

namespace Sys2Proof.Machine

open Sys2Proof

/-! What passed checks and holds tell (R182). -/

theorem firstBad_eq_none {l : List (Option Bad)} (h : firstBad l = none) {b : Option Bad} (hb : b ∈ l) : b = none :=
  List.findSome?_eq_none_iff.mp h b hb

theorem badIf_eq_none {b : Bool} {code sub addr : Nat} (h : badIf b code sub addr = none) : b = false := by
  cases b with
  | false => rfl
  | true => cases h

theorem State.tileTag_eq_none {s : State} {w : Who} {n : Nat} (h : s.tileTag w n = none) : Num.goodTag (s.myHandle w n).tag = true := by
  simpa using badIf_eq_none h

theorem State.framed_of_residentHold {s : State} {w : Who} {reads changed : List Nat} (h : s.residentHold w reads changed = none) :
    ∀ n ∈ reads ++ changed, (s.myHandle w n).state ≠ .nonResident := by
  unfold State.residentHold at h
  split at h
  · cases h
  · split at h
    · cases h
    · next hfind =>
      intro n hn
      simpa using List.find?_eq_none.mp hfind n hn

section
variable {s : State} {w : Who} {o : OpAcrd}

theorem acrdCheck_ltag (h : acrdCheck o w s = none) : Num.goodTag (epiOf (w.h.uq o.b)).ltag = true := by
  unfold acrdCheck at h
  simpa using badIf_eq_none (firstBad_eq_none h (b := badIf (!Num.goodTag (epiOf (w.h.uq o.b)).ltag) 6) (by simp))

theorem acrdCheck_tile (h : acrdCheck o w s = none) (hl : o.l ≠ 1) : Num.goodTag (s.myHandle w o.d).tag = true := by
  unfold acrdCheck at h
  exact State.tileTag_eq_none (firstBad_eq_none h (b := s.tileTag w o.d) (by simp [hl]))

theorem acrdHold_framed (h : acrdHold o w s = none) :
    ∀ n ∈ (epiOf (w.h.uq o.b)).handles ++ (if o.l = 1 then [] else [o.d]), (s.myHandle w n).state ≠ .nonResident := by
  unfold acrdHold at h
  split at h
  · cases h
  · exact State.framed_of_residentHold h

/-- What `ACRD` names where its tiles are in their frames. -/
def acrdUses (s : State) (w : Who) (o : OpAcrd) : Uses :=
  { hs := (if o.l = 1 then [] else [o.d]) ++ (epiOf (w.h.uq o.b)).handles.filter (· < s.handleCount w), us := [o.a, o.b],
    vd := if o.l = 1 then [o.d] else [], whole := o.l != 1 }

theorem acrdTile_fst (s : State) (w : Who) (o : OpAcrd) (h : (s.myHandle w o.d).bchk = false) : (s.acrdTile w o).1 = none := by
  have hbound : ∀ t : State, t.tileBound w.h.asid (s.myHandle w o.d) = none := fun t => by rw [State.tileBound, h]; rfl
  unfold State.acrdTile
  split
  · rfl
  · simp only [hbound]

variable (hcheck : acrdCheck o w s = none) (hhold : acrdHold o w s = none) (c : Clear s w (acrdUses s w o))
include hhold c

theorem acrd_reads : Clear s w (s.tileReads w ((if o.l = 1 then [] else [o.d]) ++ (epiOf (w.h.uq o.b)).handles.filter (· < s.handleCount w))
    (acrdUses s w o)) := by
  rw [State.tileReads_none fun n hn => acrdHold_framed hhold n ?_]
  · exact c
  · rcases List.mem_append.mp hn with hn | hn
    · exact List.mem_append_right _ hn
    · exact List.mem_append_left _ (List.mem_of_mem_filter hn)

include hcheck

theorem acrd_runs_lanes (hl : o.l = 1) : exec (.acrd o) s = .next ((s.onward w).acrdLanes w o) := by
  rw [exec_acrd, execAcrd, issue_runs (acrd_reads hhold c) hcheck hhold, if_pos hl]

theorem acrd_runs_tile (hl : o.l ≠ 1) (hbound : (s.myHandle w o.d).bchk = false) :
    exec (.acrd o) s = .next ((s.onward w).acrdTile w o).2 := by
  have hnone : (s.onward w).acrdTile w o = (none, ((s.onward w).acrdTile w o).2) :=
    Prod.ext (acrdTile_fst _ w o (by rw [State.myHandle_onward]; exact hbound)) rfl
  rw [exec_acrd, execAcrd, issue_runs (acrd_reads hhold c) hcheck hhold, if_neg hl, hnone]

end

/-! The split after a conversion (R38). -/

/-- The split past an epilogue read: under dither its phase advances. -/
def Who.dithered (w : Who) (rm : Nat) : Split := if rm = 5 then { w.past with dph := w.sp.dph + 1 } else w.past

/-- A cohort whose split goes on past an epilogue read, with lane registers written. -/
structure EpiDone (w : Who) (rm : Nat) (h : Cohort) : Prop where
  went : WentOn w (w.dithered rm) h
  same : SameBut w.h h
  uniform : SameUniform w.h h
  preds : SamePreds w.h h

section
variable {s : State} {w : Who} (hw : s.who? = some w) (d : Nat) (m : Mask) (tag : Nat) (f : Nat → Word) (rm : Nat)

include hw in
theorem Who.gone_setLanes_dithered : EpiDone w rm ((w.gone.setLanes d m tag f).ditherStep w.i rm) := by
  have hwent := Who.gone_wentOn hw
  obtain ⟨v, y, hset⟩ : ∃ v y, w.gone.setLanes d m tag f = { w.gone with v := v, dirty := y } := ⟨_, _, rfl⟩
  have hdone : ∀ l sp, (∀ j, Tbl.find? l j = if j = w.i then some sp else w.gone.split? j) → sp = w.dithered rm →
      EpiDone w rm { w.gone with v := v, dirty := y, splits := l } := fun l sp hsplits hsp =>
    ⟨⟨by rw [← hsp]; exact (hsplits w.i).trans (if_pos rfl), fun j hj => ((hsplits j).trans (if_neg hj)).trans (hwent.others j hj), rfl⟩, w.gone_sameBut,
      fun _ => ⟨rfl, rfl⟩, fun _ => rfl⟩
  rw [hset, Cohort.ditherStep]
  split
  · next h =>
    refine hdone _ { w.past with dph := w.sp.dph + 1 } (fun j => ?_) (if_pos h).symm
    rw [Tbl.find?_adj, show Tbl.find? w.gone.splits w.i = some w.past from hwent.here]
    rfl
  · next h =>
    refine hdone w.gone.splits w.past (fun j => ?_) (if_neg h).symm
    split
    · next hj => exact hj ▸ hwent.here
    · rfl

theorem Who.gone_setLanes_set : LanesSet w.h ((w.gone.setLanes d m tag f).ditherStep w.i rm) d m tag f := by
  have hset := (Cohort.setLanes_set w.gone d m tag f).ofGone
  unfold Cohort.ditherStep
  split
  · exact ⟨hset.words, hset.tag, hset.poison, hset.others⟩
  · exact hset

end

/-! The lane form (R182). -/

theorem Num.sxOf_of_good {tag : Nat} (hgood : Num.goodTag tag = true) : Num.sxOf tag = if tag < 0x20 then none else some (tag - 0x20) := by
  rcases Num.goodTag_cases hgood with ⟨hle, hsx, hbits⟩ | ⟨hlt, hsx, _⟩
  · rw [hsx, if_neg (by omega), hbits]
  · rw [hsx, if_pos hlt]

/-- R182: the block that the lane form makes of the lanes of a mask. -/
def epiBlock (m : Mask) (tag rm ph : Nat) (sum : Nat → Nat) : Nat × List Int :=
  Num.toSX ((List.range 32).map fun l => if inMask m l then Num.unpack .fp32 (sum l) else Num.FVal.fin false 0 0) (tag - 0x20) false rm ph

/-- R29, R182: the words of the lane form. -/
def epiWords (h : Cohort) (m : Mask) (tag d rm ph : Nat) (out sum : Nat → Nat) (l : Nat) : Word :=
  if tag < 0x20 then BitVec.ofNat 32 (out l)
  else if inMask m l then sxWord (epiBlock m tag rm ph sum).1 ((epiBlock m tag rm ph sum).2.getD l 0)
  else BitVec.ofNat 32 ((epiBlock m tag rm ph sum).1 * 2 ^ 24 + (h.lane d l).toNat % 2 ^ 24)

/-- The lanes that the lane form writes: of a block every one that is not grey. -/
def epiMask (h : Cohort) (m : Mask) (tag : Nat) : Mask := if tag < 0x20 then m else if m = 0 then 0 else ~~~h.dmask

section
variable (h : Cohort) (m : Mask) {tag : Nat} (d rm ph : Nat) (out sum : Nat → Nat)

theorem epiMask_plain (hplain : tag < 0x20) : epiMask h m tag = m := if_pos hplain

theorem epiMask_block (hblock : 0x20 ≤ tag) : epiMask h m tag = if m = 0 then 0 else ~~~h.dmask := if_neg (Nat.not_lt.mpr hblock)

theorem epiWords_plain (hplain : tag < 0x20) : epiWords h m tag d rm ph out sum = fun l => BitVec.ofNat 32 (out l) := funext fun _ => if_pos hplain

theorem epiWords_block (hblock : 0x20 ≤ tag) : epiWords h m tag d rm ph out sum = fun l =>
    if inMask m l then sxWord (epiBlock m tag rm ph sum).1 ((epiBlock m tag rm ph sum).2.getD l 0)
    else BitVec.ofNat 32 ((epiBlock m tag rm ph sum).1 * 2 ^ 24 + (h.lane d l).toNat % 2 ^ 24) := funext fun _ => if_neg (Nat.not_lt.mpr hblock)

end

theorem epiMask_gone (w : Who) (m : Mask) (tag : Nat) : epiMask w.gone m tag = epiMask w.h m tag := rfl

theorem epiWords_gone (w : Who) (m : Mask) (tag d rm ph : Nat) (out sum : Nat → Nat) :
    epiWords w.gone m tag d rm ph out sum = epiWords w.h m tag d rm ph out sum := rfl

/-- The effect of the lane form on its cohort, where `grey` lanes turn grey. -/
def Cohort.epiStep (h0 : Cohort) (w : Who) (o : OpAcrd) (tag : Nat) (grey m : Mask) (el : Nat → Nat × Nat × Bool) : Cohort :=
  let h : Cohort := { h0 with dmask := h0.dmask ||| grey }
  let h1 := match Num.sxOf tag with
    | some k =>
      let y := Num.toSX ((List.range 32).map fun l => if inMask m l then Num.unpack .fp32 (el l).2.1 else .fin false 0 0) k false o.r w.sp.dph.toNat
      h.setBlockLanes o.d m tag y.1 fun l => y.2.getD l 0
    | none => h.setLanes o.d m tag fun l => BitVec.ofNat 32 (el l).1
  { h1.ditherStep w.i o.r with dmask := h0.dmask }

/-- Where no lane turns grey the lane form writes one lane register, and the phase advances under dither (R38). -/
theorem Cohort.epiStep_eq (h : Cohort) (w : Who) (o : OpAcrd) {tag : Nat} (hgood : Num.goodTag tag = true) (m : Mask) (el : Nat → Nat × Nat × Bool) :
    h.epiStep w o tag 0 m el = (h.setLanes o.d (epiMask h m tag) tag
      (epiWords h m tag o.d o.r w.sp.dph.toNat (fun l => (el l).1) fun l => (el l).2.1)).ditherStep w.i o.r := by
  have hsame : { h with dmask := h.dmask ||| (0 : Mask) } = h := congrArg (fun y : Mask => { h with dmask := y }) BitVec.or_zero
  have hkeeps : ∀ n z f, { (h.setLanes o.d n z f).ditherStep w.i o.r with dmask := h.dmask } = (h.setLanes o.d n z f).ditherStep w.i o.r := by
    intro n z f
    unfold Cohort.ditherStep
    split <;> rfl
  unfold Cohort.epiStep
  rw [hsame, Num.sxOf_of_good hgood]
  by_cases hplain : tag < 0x20
  · rw [epiMask_plain h m hplain, epiWords_plain _ _ _ _ _ _ _ hplain, if_pos hplain]
    exact hkeeps ..
  · have hblock := Nat.not_lt.mp hplain
    rw [epiMask_block h m hblock, epiWords_block _ _ _ _ _ _ _ hblock, if_neg hplain]
    dsimp only
    rw [Cohort.setBlockLanes_eq]
    exact hkeeps ..

section
variable {s : State} {w : Who} {o : OpAcrd} {g : Grant} {x : Nat → Handle} (hx : ∀ n, s.myHandle w n = x n)
  (hcheck : acrdCheck o w s = none) (hhold : acrdHold o w s = none)
include hx hhold

theorem acrd_sides : (s.onward w).sides w (epiOf (w.h.uq o.b)) =
    (((epiOf (w.h.uq o.b)).contents s w.c x).1, ((epiOf (w.h.uq o.b)).contents s w.c x).2, s.onward w) :=
  State.sides_framed _ hx fun n hn => hx n ▸ acrdHold_framed hhold n (List.mem_append_left _ hn)

variable (hg : s.grantOf w o.a = some g)
include hg

/-- The lane form with what its epilogue gives each lane. -/
theorem acrdLanes_run {el : Nat → Nat × Nat × Bool} (hel : ∀ l, (s.onward w).epiAt w g (epiOf (w.h.uq o.b)) ((epiOf (w.h.uq o.b)).contents s w.c x)
      (epiOf (w.h.uq o.b)).ltag o.r w.sp.dph.toNat 0 l = el l)
    {grey : Mask} (hgrey : maskOf (fun l => inMask (w.h.active w.sp) l && (el l).2.2) = grey) : (s.onward w).acrdLanes w o =
      ((s.onward w).onCohort w.c w.k fun h => h.epiStep w o (epiOf (w.h.uq o.b)).ltag grey (w.h.active w.sp &&& ~~~grey) el).greyLanes w.c w.k grey
        w.sp.pc.toNat := by
  subst hgrey
  obtain rfl : (fun l => (s.onward w).epiAt w g (epiOf (w.h.uq o.b)) ((epiOf (w.h.uq o.b)).contents s w.c x) (epiOf (w.h.uq o.b)).ltag o.r
    w.sp.dph.toNat 0 l) = el := funext hel
  unfold State.acrdLanes
  rw [State.grantOf_onward, hg]
  dsimp only
  rw [acrd_sides hx hhold]
  rfl

include hcheck

theorem acrdLanes_eq (hclean : ∀ l, l < 32 → inMask (w.h.active w.sp) l = true → (epiOf (w.h.uq o.b)).Clean s w g x l) :
    (s.onward w).acrdLanes w o = s.setCohort w.c w.k ((w.gone.setLanes o.d (epiMask w.gone (w.h.active w.sp) (epiOf (w.h.uq o.b)).ltag)
      (epiOf (w.h.uq o.b)).ltag (epiWords w.gone (w.h.active w.sp) (epiOf (w.h.uq o.b)).ltag o.d o.r w.sp.dph.toNat
        ((epiOf (w.h.uq o.b)).out s w g x o.r w.sp.dph.toNat (epiOf (w.h.uq o.b)).ltag 0) ((epiOf (w.h.uq o.b)).sum s w g x 0))).ditherStep w.i o.r) := by
  have hgrey : maskOf (fun l => inMask (w.h.active w.sp) l && ((s.accAt w.c g ((epiOf (w.h.uq o.b)).row0 + 0) ((epiOf (w.h.uq o.b)).col0 + l)).2 ||
      ((epiOf (w.h.uq o.b)).sen && s.sideBad w.c (x (epiOf (w.h.uq o.b)).scale) l) ||
      ((epiOf (w.h.uq o.b)).ben && s.sideBad w.c (x (epiOf (w.h.uq o.b)).bias) l))) = 0 := by
    refine maskOf_eq_zero fun l => ?_
    by_cases hin : inMask (w.h.active w.sp) l = true
    · obtain ⟨hacc, hscale, hbias⟩ := hclean l (BitVec.lt_of_getLsbD hin) hin
      have hs : ((epiOf (w.h.uq o.b)).sen && s.sideBad w.c (x (epiOf (w.h.uq o.b)).scale) l) = false := by simpa using hscale
      have hb : ((epiOf (w.h.uq o.b)).ben && s.sideBad w.c (x (epiOf (w.h.uq o.b)).bias) l) = false := by simpa using hbias
      rw [Nat.add_zero, hacc, hs, hb, Bool.or_self, Bool.or_self, Bool.and_false]
    · rw [Bool.eq_false_iff.mpr hin, Bool.false_and]
  rw [acrdLanes_run hx hhold hg (State.epiAt_eq _ _ _ _ _) hgrey, State.greyLanes_zero, Mask.and_not_zero,
    State.onCohort_some (State.cohort?_setCohort_self ..), State.setCohort_setCohort, Cohort.epiStep_eq _ _ _ (acrdCheck_ltag hcheck)]

/-- R182: the lane form gives each active lane what the epilogue makes of its element. -/
theorem acrd_lanes_completes (c : Clear s w (acrdUses s w o)) (hl : o.l = 1)
    (hclean : ∀ l, l < 32 → inMask (w.h.active w.sp) l = true → (epiOf (w.h.uq o.b)).Clean s w g x l) : Completes s w (exec (.acrd o) s) fun h =>
      EpiDone w o.r h ∧ LanesSet w.h h o.d (epiMask w.h (w.h.active w.sp) (epiOf (w.h.uq o.b)).ltag) (epiOf (w.h.uq o.b)).ltag
        (epiWords w.h (w.h.active w.sp) (epiOf (w.h.uq o.b)).ltag o.d o.r w.sp.dph.toNat
          ((epiOf (w.h.uq o.b)).out s w g x o.r w.sp.dph.toNat (epiOf (w.h.uq o.b)).ltag 0) ((epiOf (w.h.uq o.b)).sum s w g x 0)) := by
  have hlanes := acrdLanes_eq hx hcheck hhold hg hclean
  rw [epiMask_gone, epiWords_gone] at hlanes
  refine ⟨_, _, (acrd_runs_lanes hcheck hhold c hl).trans (congrArg Host.Outcome.next hlanes), State.setCohort_only ..,
    State.cohort?_setCohort_self .., Who.gone_setLanes_dithered c.who .., Who.gone_setLanes_set ..⟩

end

end Sys2Proof.Machine
end

section
/-! SUPPORT. The tile form of `ACRD`, and the obligation on the matrix instructions (R179 to R183). -/

namespace Sys2Proof.Machine

open Sys2Proof

/-! The image that the epilogue gives (R182). -/

section
variable (s : State) (w : Who) (g : Grant) (x : Nat → Handle) (e : Epi) (t : TShape) (rm ph : Nat)

/-- R182: a block of the tile that the epilogue gives. -/
def epiTileBlock (b : Nat) : Nat × List Int :=
  Num.toSX ((List.range 32).map fun j =>
    if t.inside (32 * b + j) then Num.unpack .fp32 (e.sum s w g x (t.coord (32 * b + j)).1 (t.coord (32 * b + j)).2) else Num.FVal.fin false 0 0)
    (t.tag - 0x20) false rm ph

/-- The image that the epilogue gives a tile. -/
def epiImg : TImg := (s.onward w).epiTile w g e (e.contents s w.c x) t rm ph

theorem epiImg_ofBlocks (hle : 0x20 ≤ t.tag) (hgood : Num.goodTag t.tag = true) :
    (epiImg s w g x e t rm ph).OfBlocks (t.tag - 0x20) t.blocks (epiTileBlock s w g x e t rm ph) := by
  have hsx : t.sx = some (t.tag - 0x20) := (Num.sxOf_of_good hgood).trans (if_neg (by omega))
  have hblock : ∀ b, Num.toSX (((List.range 32).map fun j => if t.inside (32 * b + j) then
      ((s.onward w).epiAt w g e (e.contents s w.c x) t.tag rm ph (t.coord (32 * b + j)).1 (t.coord (32 * b + j)).2).2 else (0, false)).map
        fun y => Num.unpack .fp32 y.1) (t.tag - 0x20) false rm ph = epiTileBlock s w g x e t rm ph b := by
    intro b
    rw [List.map_map]
    refine Num.toSX_alike _ (fun j => ?_) ..
    simp only [Function.comp_apply, State.epiAt_eq]
    split
    · exact .inl rfl
    · exact .inr ⟨false, _, 0, rfl, rfl⟩
  unfold epiImg State.epiTile
  simp only [hsx, List.flatMap_map, List.map_map]
  refine ⟨?_, ?_⟩
  · exact congrArg (fun f => List.flatMap f (List.range t.blocks)) (funext fun b =>
      congrArg (fun y : Nat × List Int => y.2.map (Num.intBits (t.tag - 0x20))) (hblock b))
  · exact List.map_congr_left fun b _ => congrArg Prod.fst (hblock b)

theorem epiImg_elems (hsx : t.sx = none) : (epiImg s w g x e t rm ph).elems =
    (List.range t.count).map fun i => e.out s w g x rm ph t.tag (t.coord i).1 (t.coord i).2 % 2 ^ Num.bitsOf t.tag := by
  unfold epiImg State.epiTile
  simp only [hsx, State.epiAt_eq]

/-- R182: what the tile form gives. -/
def EpiResults (y : TImg) : Prop :=
  (t.tag < 0x20 → ∀ i, i < t.count → y.elems.getD i 0 = e.out s w g x rm ph t.tag (t.coord i).1 (t.coord i).2 % 2 ^ Num.bitsOf t.tag) ∧
  (0x20 ≤ t.tag → ∀ b, b < t.blocks → y.exps.getD b 0 = (epiTileBlock s w g x e t rm ph b).1 ∧
    ∀ j, j < 32 → y.elems.getD (32 * b + j) 0 = Num.intBits (t.tag - 0x20) ((epiTileBlock s w g x e t rm ph b).2.getD j 0))

theorem epiImg_results (hgood : Num.goodTag t.tag = true) :
    (epiImg s w g x e t rm ph).Fits t ∧ ∀ y : TImg, y.Agrees t (epiImg s w g x e t rm ph) → EpiResults s w g x e t rm ph y := by
  rcases TShape.sx_cases hgood with ⟨hle, hsx, hbits⟩ | ⟨hlt, hsx, _⟩
  · have hblocks := epiImg_ofBlocks s w g x e t rm ph hle hgood
    have hlen : ∀ b, (epiTileBlock s w g x e t rm ph b).2.length = 32 := fun b => by rw [epiTileBlock, Num.toSX_length]; simp
    refine ⟨hblocks.fits hlen (hsx.trans (congrArg some hbits)) hbits rfl fun b => Num.toSX_exp_lt .., fun y hy =>
      ⟨fun hlt => by omega, fun _ b hb => ⟨?_, fun j hj => ?_⟩⟩⟩
    · rw [hy.exps (by rw [hsx]; rfl), hblocks.exp hb]
    · rw [hy.elems, hblocks.elem hlen hb hj]
  · have helems := epiImg_elems s w g x e t rm ph hsx
    refine ⟨fits_of_range hsx helems, fun y hy => ⟨fun _ i hi => ?_, fun hle => by omega⟩⟩
    rw [hy.elems, helems, getD_map_range hi]

end

/-! The tile form (R182). -/

section
variable {s : State} {w : Who} {o : OpAcrd} {g : Grant} {x : Nat → Handle} {bl : Block} (hx : ∀ n, s.myHandle w n = x n)
  (hcheck : acrdCheck o w s = none) (hhold : acrdHold o w s = none) (hg : s.grantOf w o.a = some g) (hbound : (x o.d).bchk = false)
include hx hhold hg hbound

theorem acrdTile_eq : ((s.onward w).acrdTile w o).2 = ((s.onward w).onCohort w.c w.k (·.ditherStep w.i o.r)).putTile w.c (x o.d) (x o.d).shape
    (epiImg s w g x (epiOf (w.h.uq o.b)) (x o.d).shape o.r w.sp.dph.toNat) := by
  have hnone : ∀ t : State, t.tileBound w.h.asid (x o.d) = none := fun t => by rw [State.tileBound, hbound]; rfl
  unfold State.acrdTile
  rw [State.grantOf_onward, hg]
  dsimp only
  rw [acrd_sides hx hhold, State.myHandle_onward, hx]
  simp only [hnone]
  rfl

include hcheck in
/-- R182: the tile form gives the tile what the epilogue makes of the grant's elements, and no other byte changes. -/
theorem acrd_tile_leaves (hb : s.block? w.c w.h.slot = some bl) (c : Clear s w (acrdUses s w o)) (hl : o.l ≠ 1) (hwf : s.mem.wf = true)
    (hin : (x o.d).InStore w.c) : ∃ t, exec (.acrd o) s = .next t ∧ t.block? w.c w.h.slot = some bl ∧
      (∀ b, b < frameAddr w.c (x o.d) ∨ frameAddr w.c (x o.d) + (x o.d).shape.bytes ≤ b → Mem.rd t.mem b = Mem.rd s.mem b) ∧
      EpiResults s w g x (epiOf (w.h.uq o.b)) (x o.d).shape o.r w.sp.dph.toNat (t.tileImg w.c (x o.d)) := by
  have hgood : Num.goodTag (x o.d).tag = true := hx o.d ▸ acrdCheck_tile hcheck hl
  obtain ⟨himg, hresults⟩ := epiImg_results s w g x (epiOf (w.h.uq o.b)) (x o.d).shape o.r w.sp.dph.toNat hgood
  refine ⟨_, (acrd_runs_tile hcheck hhold c hl (hx o.d ▸ hbound)).trans (congrArg Host.Outcome.next (acrdTile_eq hx hhold hg hbound)), ?_, fun b hbeside => ?_,
    hresults _ ?_⟩
  · rw [State.block?_of_cores (State.putTile_keeps ..).1, State.onCohort_some (State.cohort?_setCohort_self ..), State.block?_setCohort,
      State.block?_setCohort, hb]
  · rw [State.rd_putTile_beside hgood himg hbeside, State.onCohort_some (State.cohort?_setCohort_self ..)]
    rfl
  · rw [State.onCohort_some (State.cohort?_setCohort_self ..)]
    exact State.tileImg_of_putTile (s := (s.onward w).setCohort w.c w.k (w.gone.ditherStep w.i o.r)) hwf hin hgood himg rfl fun _ _ _ => rfl

end

end Sys2Proof.Machine

namespace Sys2Proof

open Machine

/-- Settles O38, from the place that a multiply takes, the grant's elements after a load, and the image and the words that the epilogue gives. -/
theorem matrixResults : Obligations.MatrixResults := by
  unfold Obligations.MatrixResults
  intro s w o r a q ty g bl hb x ready unread framed alone starts
  have hx : ∀ n, s.myHandle w n = x n := State.myHandle_of_block hb
  have hreadable : ∀ {n}, ready n → (s.myHandle w n).Readable w := fun {n} h => (hx n).symm ▸ h
  have hstarts : ∀ {i paired}, (∃ t m, exec i s = .next t ∧ MultiplyDue s w o g ty paired t m) → starts i paired := by
    rintro i paired ⟨t, m, hrun, h⟩
    exact ⟨t, m, hrun, h.cohort, h.mem, h.mats, h.id, h.slot, h.grant, h.left, h.right, h.paired, h.grants, h.due⟩
  refine ⟨?_, ?_, ?_⟩
  · intro c hg hty htype ha hr hfit hdeep halone hread
    simp only [← hx] at hty hfit hdeep ⊢
    exact ⟨fun hcols hbanks => hstarts (mma_due hb c hg hty htype (hreadable ha) (hreadable hr) hfit hdeep halone hread hcols hbanks),
      fun hcols hbanks => hstarts (mmp_due hb c hg hty htype (hreadable ha) (hreadable hr) hfit hdeep halone hread hcols hbanks)⟩
  · intro c hg hready htag htype hlayout hholds hidle halone hread
    have hplain : (x a).tag = 0x11 ∨ (x a).tag = 3 := htag.imp And.left And.left
    have hcores := State.grantLoaded_cores s w g (x a)
    refine ⟨_, acld_runs hb (hx a) c hg hready htag htype hholds hidle halone hread, ?_, ?_, fun b hbeside hbanks =>
      State.rd_grantLoaded_beside hholds hplain hlayout hbeside hbanks, fun ⟨hwf, _, _⟩ i j hi => State.accAt_grantLoaded hholds hplain hlayout hwf hi⟩
    · rw [State.cohort?, State.core_onCore_self, State.core, hcores]
      exact State.cohort?_setCohort_self ..
    · rw [State.core_onCore_self, State.core, hcores]
      exact congrArg (List.map _) (State.grants_onward s w w.c)
  · intro hcheck hhold uses c
    refine ⟨acrd_runs_lanes hcheck hhold c, fun hl hbound => acrd_runs_tile hcheck hhold c hl ((hx r.d).symm ▸ hbound), ?_⟩
    intro hg e side sen ben gscale scale bias acc y out clean ltag act block z tile
    refine ⟨fun hl hclean => ?_, fun hl hbound hframed => ?_⟩
    · obtain ⟨t, h, hrun, honly, hcohort, hdone, hset⟩ := acrd_lanes_completes hx hcheck hhold hg c hl hclean
      refine ⟨t, h, hrun, honly, hcohort, hdone.went, hdone.same, hdone.uniform, hdone.preds, fun hplain => ?_, fun hblock => ?_⟩
      · rw [epiMask_plain (tag := (epiOf (w.h.uq r.b)).ltag) _ _ hplain, epiWords_plain (tag := (epiOf (w.h.uq r.b)).ltag) _ _ _ _ _ _ _ hplain] at hset
        exact hset
      · rw [epiMask_block (tag := (epiOf (w.h.uq r.b)).ltag) _ _ hblock, epiWords_block (tag := (epiOf (w.h.uq r.b)).ltag) _ _ _ _ _ _ _ hblock] at hset
        exact hset
    · obtain ⟨hwf, hc, hroom⟩ := hframed
      obtain ⟨t, hrun, hblock, hbeside, hplain, hsx⟩ := acrd_tile_leaves hx hcheck hhold hg hbound hb c hl hwf ⟨hc, hroom⟩
      exact ⟨t, hrun, hblock, hbeside, hplain, hsx⟩

end Sys2Proof
end
